-- ==== Sys2Proof/Word.lean ====
section
/-!
DEFINITION. The words of the part: a byte (R10), a 64-bit register or scalar word (R14, R60), a 32-bit lane word and a
vector register of a V-tile (R60). Everything that reads or writes bits of them is in Sys2Proof/Machine/Bits.lean.
-/

namespace Sys2Proof

/-- A byte of scratchpad, HBM, a descriptor or a packet. -/
abbrev Byte := BitVec 8

/-- A scalar register, an address register or a memory-mapped register. -/
abbrev Word := BitVec 64

/-- A vector register: 8,192 bits on a V-tile, of which an M- or S-tile has the low 1,024 (R60). -/
abbrev Vec := BitVec 8192

/-- A predicate register: one bit for each 32-bit vector lane, 256 on a V-tile, 32 otherwise (R60). -/
abbrev Pred := BitVec 256

end Sys2Proof
end

