-- ==== Sys2Proof/Syntax.lean ====
section
/-!
DEFINITION. The commands of the block: one constructor of `Instr` for each row of spec/opcode_table.json, in the table's
order, with the row's operands. The first operand of a tile's command is the logical tile number (R18), of a die's
command the die, of a stack's the stack, of a port's the fabric port. A tile instruction carries the fields of its
instruction word (R617, R618), the fields declared 0 among them, so that the cases of R619 are terms.
-/

namespace Sys2Proof

/-- The fields of an S3 instruction word (R618); `z` is bits [18:13]. -/
structure FmtS3 where
  pred : BitVec 3
  rd : BitVec 6
  ra : BitVec 6
  rb : BitVec 6
  rc : BitVec 6
  func : BitVec 8
  z : BitVec 6
  wait : BitVec 13
  deriving DecidableEq, Repr

/-- The fields of an SI instruction word (R618). -/
structure FmtSI where
  pred : BitVec 3
  rd : BitVec 6
  ra : BitVec 6
  func : BitVec 7
  imm : BitVec 32
  deriving DecidableEq, Repr

/-- The fields of a D instruction word (R618). -/
structure FmtD where
  pred : BitVec 3
  a : BitVec 4
  off : BitVec 16
  idx : BitVec 6
  reg : BitVec 6
  mod : BitVec 6
  wait : BitVec 13
  deriving DecidableEq, Repr

/-- The fields of an M instruction word (R618). -/
structure FmtM where
  pred : BitVec 3
  a : BitVec 4
  b : BitVec 4
  c : BitVec 4
  rx : BitVec 6
  ry : BitVec 6
  cnt : BitVec 6
  mod : BitVec 8
  wait : BitVec 13
  deriving DecidableEq, Repr

/-- The fields of a C instruction word (R618); `z` is bits [32:27]. -/
structure FmtC where
  pred : BitVec 3
  cnt : BitVec 6
  grp : BitVec 6
  reg : BitVec 6
  z : BitVec 6
  sub : BitVec 2
  clr : Bool
  l : Bool
  k : Bool
  b : Bool
  w : Bool
  v : Bool
  eng : BitVec 3
  imm : BitVec 16
  deriving DecidableEq, Repr

/-- The engines of a tile (R37), in the order of their codes in R618. -/
inductive Engine where
  | sq | sc | ve | me | se | dm | qp
  deriving DecidableEq, Repr

/-- What the row reads made by a command find in the bank's parity (R106, R107): nothing; an error on the row at this
scratchpad offset that the second read does not find; or one that it finds too. -/
inductive Parity where
  | clean
  | recovered (off : Nat)
  | unrecovered (off : Nat)
  deriving DecidableEq, Repr

/-- A 32 B descriptor, as four little-endian words (R659). -/
structure Desc where
  w0 : Word
  w1 : Word
  w2 : Word
  w3 : Word
  deriving DecidableEq, Repr

/-- Who sent a packet: device number, logical tile, and whether the sender is not a tile (R115, R296). -/
structure Sender where
  dev : Nat
  tile : Nat
  notTile : Bool
  deriving DecidableEq, Repr

/-- A remote-write packet (R115): package address, at most 64 bytes within one row, sender, epoch, and the requester's
tag of the transfer it belongs to. -/
structure WritePkt where
  addr : Nat
  data : List Byte
  sender : Sender
  epoch : Nat
  tag : Nat
  deriving DecidableEq, Repr

/-- A descriptor with its payload, as it arrives at a receive queue or a basin (R640, R259), with the epoch that its packet names. -/
structure Msg where
  queue : Nat
  chan : Nat
  sender : Sender
  epoch : Nat
  desc : Desc
  payload : List Byte
  tag : Nat
  deriving DecidableEq, Repr

/-- A remote read request for rows of a scratchpad (R111–R113): package address, bytes, sender and tag. -/
structure ReadReq where
  addr : Nat
  len : Nat
  sender : Sender
  tag : Nat
  deriving DecidableEq, Repr

/-- A packet of the mesh (R296): its header word, the entries of a destination list (die, row, column, tag; R307) and its data. -/
structure Packet where
  hdr : BitVec 128
  dests : List (Nat × Nat × Nat × Nat)
  data : List Byte
  deriving DecidableEq, Repr

/-- A CPL frame (R310): sequence number, acknowledged number, type, cumulative units freed for each virtual network, its CRC, and
the packets of its slots. -/
structure CplFrame where
  seq : Nat
  ack : Nat
  typ : Nat
  crd : Nat × Nat × Nat
  crc : BitVec 32
  packets : List Packet
  deriving DecidableEq, Repr

/-- The header of a CXT packet (R425). -/
structure CxtHdr where
  ver : Nat
  op : Nat
  last : Bool
  mcast : Bool
  ecn : Bool
  release : Bool
  sdev : Nat
  ddev : Nat
  path : Nat
  layout : Nat
  aliasGen : Nat
  psn : Nat
  ack : Nat
  sack : Nat
  addr : Nat
  stile : Nat
  notTile : Bool
  epoch : Nat
  dlen : Nat
  tag : Nat
  wq : Nat
  deriving DecidableEq, Repr

/-- The 8 B of metadata that accompany an HBM block (R345): checksum, stored form, stored length. -/
structure BlockMeta where
  crc : BitVec 32
  form : Nat
  len : Nat
  deriving DecidableEq, Repr

/-- A CXT packet as it arrives at a fabric port: the port, the results of the frame check, whether it carries a congestion mark, its header, the metadata of a
whole block, and its data. -/
structure CxtPkt where
  port : Nat
  fcsOk : Bool
  ce : Bool
  hdr : CxtHdr
  blk : Option BlockMeta
  data : List Byte
  deriving DecidableEq, Repr

/-- How an HBM block read comes out: the block's checksum matches as read; it fails and a reread at stage 1 recovers it; or it
fails at stage 1 too (R349). -/
inductive ReadOutcome where
  | ok
  | reread
  | bad
  deriving DecidableEq, Repr

/-- A request of a tile's DMA to an MC (R338): tile, number of the DMA operation, package address and bytes within one 4 KiB block; for
a write its data and, where it writes the whole block, the stored form and length (R345). -/
structure HbmReq where
  t : Nat
  flight : Nat
  addr : Nat
  len : Nat
  blk : Option (Nat × Nat)
  data : List Byte
  deriving DecidableEq, Repr

/-- A register write that reaches the part from outside a tile: package address and value (R11). -/
structure RegWrite where
  addr : Nat
  value : Word
  deriving DecidableEq, Repr

/-- A sealed CHP packet as it arrives (R558, R559): session, sequence number, and whether its tag opens under the session's key. -/
structure ChpPkt where
  sid : Nat
  seq : Nat
  sealOk : Bool
  deriving DecidableEq, Repr

/-- The commands of the block, one constructor for each row of the opcode table. -/
inductive Instr where
  -- the sequencer and the engine queues
  | sequencerFetch (t : Nat) (par : Parity)
  | engineDispatch (t : Nat) (e : Engine) (par : Parity)
  -- instructions of R622
  | nop (t : Nat) (f : FmtC)
  | salu (t : Nat) (f : FmtS3)
  | salui (t : Nat) (f : FmtSI)
  | smul (t : Nat) (f : FmtS3)
  | sld (t : Nat) (f : FmtSI)
  | sst (t : Nat) (f : FmtSI)
  | aop (t : Nat) (f : FmtSI)
  | scmp (t : Nat) (f : FmtS3)
  | br (t : Nat) (f : FmtSI)
  | brr (t : Nat) (f : FmtS3)
  | loop (t : Nat) (f : FmtSI)
  | csig (t : Nat) (f : FmtC)
  | cwait (t : Nat) (f : FmtC)
  | crd (t : Nat) (f : FmtC)
  | barr (t : Nat) (f : FmtC)
  | bwait (t : Nat) (f : FmtC)
  | send (t : Nat) (f : FmtD)
  | sendInject (t : Nat)
  | recv (t : Nat) (f : FmtD)
  | recvUnblock (t : Nat)
  | tryrecv (t : Nat) (f : FmtD)
  | qrel (t : Nat) (f : FmtD)
  | bopen (t : Nat) (f : FmtD)
  | wopen (t : Nat) (f : FmtD)
  | wclose (t : Nat) (f : FmtD)
  | ctx (t : Nat) (f : FmtC)
  | fence (t : Nat) (f : FmtC)
  | soak (t : Nat) (f : FmtC)
  | trap (t : Nat) (f : FmtC)
  | halt (t : Nat) (f : FmtC)
  -- instructions of R655
  | dmal (t : Nat) (f : FmtD)
  | dmas (t : Nat) (f : FmtD)
  | dmar (t : Nat) (f : FmtD)
  | dmaw (t : Nat) (f : FmtD)
  | dmax (t : Nat) (f : FmtD)
  | dmaxEntry (t : Nat)
  | dmaf (t : Nat) (f : FmtD)
  | dmam (t : Nat) (f : FmtD)
  | dmaComplete (t : Nat) (id : Nat)
  | vld (t : Nat) (f : FmtSI)
  | vst (t : Nat) (f : FmtSI)
  | vldx (t : Nat) (f : FmtS3)
  | vstx (t : Nat) (f : FmtS3)
  | vop (t : Nat) (f : FmtS3)
  | vcmp (t : Nat) (f : FmtS3)
  | vred (t : Nat) (f : FmtS3)
  | vcvt (t : Nat) (f : FmtS3)
  | vmovx (t : Nat) (f : FmtSI)
  | amax (t : Nat) (f : FmtM)
  | cone (t : Nat) (f : FmtM)
  | mgang (t : Nat) (f : FmtSI)
  | mpanel (t : Nat) (f : FmtM)
  | mpanelLoaded (t : Nat)
  | mmul (t : Nat) (f : FmtM)
  | mmulComplete (t : Nat) (sub : Nat)
  | mpred (t : Nat) (f : FmtM)
  | mpredFinalMark (t : Nat) (sub : Nat)
  | mdrain (t : Nat) (f : FmtM)
  | mdrainComplete (t : Nat)
  | gateDeadlineExpiry (t : Nat)
  | batchComplete (t : Nat)
  | ssort (t : Nat) (f : FmtM)
  | smerge (t : Nat) (f : FmtM)
  | sinter (t : Nat) (f : FmtM)
  | shash (t : Nat) (f : FmtM)
  | sgather (t : Nat) (f : FmtM)
  | sscatter (t : Nat) (f : FmtM)
  | setOpComplete (t : Nat)
  -- a tile's hardware
  | engineCheckFail (t : Nat) (e : Engine)
  | wakeComplete (t : Nat)
  | soakHoldEnd (t : Nat)
  | rampDownStep (t : Nat)
  | rampDownEnd (t : Nat)
  | rampUpStep (t : Nat)
  | governorGrant (t : Nat)
  | watchdogExpiry (t : Nat)
  | holdTakesEffect (t : Nat)
  | stalledSignalApply (t : Nat)
  | stalledSignalFault (t : Nat)
  | gatherBufferIdleDrain (t : Nat)
  | remoteWritePacket (t : Nat) (pkt : WritePkt)
  | heldPacketRecheck (t : Nat)
  | wicketCloseComplete (t : Nat)
  | remoteReadRequest (t : Nat) (rq : ReadReq) (par : Parity)
  | mergeWindowExpiry (t : Nat) (row : Nat)
  | remoteReadResponse (t : Nat) (tag : Nat) (status : Nat) (data : List Byte)
  | transferAnswer (t : Nat) (tag : Nat) (status : Nat)
  | bankGroupPowered (t : Nat) (g : Nat)
  | bankGroupZeroFillEnd (t : Nat) (g : Nat)
  | taskEnd (t : Nat) (c : Nat)
  | descriptorArrival (t : Nat) (m : Msg)
  | creditReturnTimer (t : Nat) (q : Nat)
  | creditReturn (t : Nat) (ch : Nat) (slots : Nat) (units : Nat)
  | basinContribution (t : Nat) (m : Msg)
  | basinZeroComplete (t : Nat) (q : Nat) (b : Nat)
  | basinBucketComplete (t : Nat) (q : Nat) (b : Nat)
  -- barriers
  | barrierArrivalSend (t : Nat)
  | dieBarrierArrival (die : Nat) (g : Nat) (gen : Nat)
  | packageBarrierArrival (die : Nat) (g : Nat) (gen : Nat)
  | barrierRelease (t : Nat) (c : Nat) (g : Nat) (gen : Nat)
  -- the package network
  | packetHop (die : Nat) (row : Nat) (col : Nat) (pkt : Packet)
  | cplFrameReceive (die : Nat) (link : Nat) (fr : CplFrame)
  | cplNak (die : Nat) (link : Nat) (ack : Nat)
  | cplAckTimeout (die : Nat) (link : Nat)
  | cplControlTimer (die : Nat) (link : Nat)
  | ucieRetrain (die : Nat) (link : Nat)
  | ucieRetrainTimeout (die : Nat) (link : Nat)
  | linkTrainingTimeout (die : Nat) (link : Nat)
  | capabilityRecord (die : Nat) (link : Nat) (rec : List Byte)
  | capabilityTimeout (die : Nat) (link : Nat)
  | dieLinkDown (die : Nat) (link : Nat)
  | routerFault (die : Nat) (row : Nat) (col : Nat)
  | routeSetSwitch (die : Nat)
  -- HBM and the update units
  | hbmReadRequest (q : HbmReq) (oc : ReadOutcome)
  | hbmWriteRequest (q : HbmReq)
  | twinBlockReturn (stack : Nat) (addr : Nat) (data : Option (List Byte))
  | pageRetirementComplete (stack : Nat)
  | protectedPageStaged (stack : Nat)
  | stackTemperaturePoll (stack : Nat) (temp : Nat)
  | stackLost (stack : Nat)
  | stackZeroFillComplete (stack : Nat)
  | uugateWrite (stack : Nat) (v : Word)
  | uuCommitEnd (stack : Nat)
  | uuStop (stack : Nat)
  -- CXT
  | cxtWrite (p : CxtPkt)
  | cxtJwrite (p : CxtPkt)
  | cxtSend (p : CxtPkt)
  | cxtRead (p : CxtPkt)
  | cxtRdata (p : CxtPkt)
  | cxtBarrier (p : CxtPkt)
  | cxtAck (p : CxtPkt)
  | cxtGrant (p : CxtPkt)
  | cxtHeartbeat (p : CxtPkt)
  | aliasUpdate (p : CxtPkt)
  | queueEpochNotice (p : CxtPkt)
  | portNotice (p : CxtPkt)
  | failureNotice (p : CxtPkt)
  | replacedNotice (p : CxtPkt)
  | abort (p : CxtPkt)
  | abortReport (p : CxtPkt)
  | releaseRecord (p : CxtPkt)
  | layoutEpoch (p : CxtPkt)
  | ctrlCreditReturn (p : CxtPkt)
  | deviceCertificate (p : CxtPkt)
  | cxtRetransmitTimeout (port : Nat) (peer : Nat) (path : Nat)
  | portLinkDown (port : Nat)
  | portRetrain (port : Nat) (ok : Bool)
  | normGroupComplete (g : Nat)
  | reshardApply
  -- the twin and recovery
  | heartbeatPeriod
  | probeTimeout
  | copierPageSend (stack : Nat)
  | generationComplete (stack : Nat)
  | tileHoldTimeout (t : Nat)
  | spareAnswerTimeout
  | statePullComplete (ok : Bool)
  | journalReplay
  | restart
  | hostLost
  -- start-up and the lodge
  | vaonInRange
  | porstNRelease (trst refclk : Bool)
  | porstNAssert
  | lodgeFirmwareVerify
  | pvXPowerOn
  | gatehouseBoot
  | hdPowerUp
  | hostPortTrained
  | bootStageFail
  | leaseRenewRequest (gh : Nat)
  | leaseRequest (gh : Nat)
  | leaseRelease
  | leaseTermExpiry
  | holderRenewalLapse
  | lodgeKeepalive
  | keepaliveMissed (die : Nat)
  | arbiterFault
  | gatehouseFailstop (gh : Nat)
  -- command records and register writes
  | commandWrite (gh : Nat) (epoch : Nat) (addr : Nat) (value : Word)
  | commandMaskedWrite (gh : Nat) (epoch : Nat) (addr : Nat) (value mask : Word)
  | commandCopy (gh : Nat) (epoch : Nat) (src dst len : Nat)
  | staleCommand (gh : Nat)
  | dresetGo (die : Nat)
  | dieReset (die : Nat)
  | tctlStart (t : Nat)
  | tctlHold (t : Nat) (on : Bool)
  | tctlFence (t : Nat)
  | tctlReset (t : Nat)
  | nsclrSlot (t : Nat) (mask : BitVec 32)
  | nsclrCone (t : Nat)
  | rsctlArm (die : Nat)
  | dleaseHeldClear (die : Nat)
  | conetagWrite (t : Nat) (v : Word)
  | twcopyEnWrite (stack : Nat) (en : Bool)
  | cxepochAliasWrite (ld : Nat) (v : Nat)
  | cxcfgEnWrite (ld : Nat) (v : Word)
  | registerWrite (addr : Nat) (v : Word)
  -- power, damper, thermal
  | powerGoodVincFall (g : Nat)
  | powerGoodVinxFall
  | pgVhbmFall
  | powerGoodTimeout
  | functionStartingEnd (fn : Nat)
  | functionStoppingEnd (fn : Nat)
  | functionStartFail (fn : Nat)
  | damperPeriod (die : Nat)
  | packageDamperPeriod
  | packagePowerSample (watts : Nat)
  | tileLend (t : Nat)
  | thermalRead (temps : List Nat)
  | thermalHold (die : Nat)
  | imageCopyLoad
  -- CHP commands
  | claim (pk : ChpPkt) (tag : Nat)
  | power (pk : ChpPkt) (tag : Nat) (target : Nat)
  | imageLoad (pk : ChpPkt) (tag : Nat) (addr len : Nat)
  | start (pk : ChpPkt) (tag : Nat)
  | hold (pk : ChpPkt) (tag : Nat)
  | resume (pk : ChpPkt) (tag : Nat)
  | stateReadRegisters (pk : ChpPkt) (tag : Nat) (addr count : Nat)
  | stateReadLodgeStatus (pk : ChpPkt) (tag : Nat)
  | logRead (pk : ChpPkt) (tag : Nat) (part from_ count : Nat)
  | logClear (pk : ChpPkt) (tag : Nat) (auth : List Byte)
  | fwUpdate (pk : ChpPkt) (tag : Nat) (addr len : Nat)
  | attest (pk : ChpPkt) (tag : Nat) (nonce : List Byte)
  | aliasTable (pk : ChpPkt) (tag : Nat) (addr first count : Nat)
  | aliasOwnNumbers (pk : ChpPkt) (tag : Nat) (dev station : Nat)
  | aliasPair (pk : ChpPkt) (tag : Nat) (partner spare0 spare1 : Nat) (pairEn hbEn : Bool) (cert : List Byte)
  | dataReady (pk : ChpPkt) (tag : Nat) (st : Nat)
  | predEn (pk : ChpPkt) (tag : Nat) (slot : Nat) (en : Bool)
  | checkpoint (pk : ChpPkt) (tag : Nat)
  | reshard (pk : ChpPkt) (tag : Nat) (addr len layout : Nat)
  | streamOpen (pk : ChpPkt) (tag : Nat) (dir addr len : Nat)
  | streamClose (pk : ChpPkt) (tag : Nat) (n : Nat)
  | takeoverCommand (pk : ChpPkt) (tag : Nat) (dev : Nat)
  | configRead (pk : ChpPkt) (tag : Nat)
  | configSetPtpDomain (pk : ChpPkt) (tag : Nat) (dom : Nat)
  | close (pk : ChpPkt) (tag : Nat)
  | hello (hs : Nat) (body : List Byte)
  | finish (hs : Nat) (body : List Byte)
  | handshakeTimeout (hs : Nat)
  | chpHeartbeat (pk : ChpPkt)
  | sessionTimeout (sid : Nat)
  | bulkData (pk : ChpPkt) (stream off : Nat) (data : List Byte)
  | bulkCredit (pk : ChpPkt) (stream units contig : Nat)
  | ptpMessage (master domain : Nat) (offset : Int)
  | ptpMasterTimeout
  | logSubmission
  | logWindowExpiry (code : Nat)
  | attestTokenRefill
  | selfTestFail (test : Nat)
  | pmbusPoll (dev status pout : Nat) (ok : Bool)
  | pmbAlert (dev status : Nat)
  | pmbusRetry (dev : Nat) (ok : Bool)
  | crystalTimeout
  -- test access port
  | extest (v : Nat)
  | idcode
  | samplePreload (v : Nat)
  | clamp
  | highz
  | extestPulse (v : Nat)
  | extestTrain (v : Nat)
  | alertcause
  | bypass
  -- the last rows of the table
  | vaonLost
  | powerGoodRise (inp : Nat)
  | refclkAonArrival
  | ucieTrainingComplete (die : Nat) (link : Nat)
  | directModeLinkReplay (port : Nat) (progress : Bool)
  | priorityFlowControlFrame (port prio : Nat) (pause : Bool)
  | twinBlockRequest (stack addr st : Nat)
  | spareChosen (dev twin : Nat)
  | coneComplete (t : Nat)
  deriving DecidableEq, Repr

end Sys2Proof
end

