-- ==== Sys2Proof/Decode.lean ====
section
/-!
DEFINITION. Decoding. The opcode table gives no row of the block bits, so no word spells a command (`decodeTableWord`). The
part itself decodes the 64-bit instruction words of a tile's program (R617–R623, R655); that decoder is here too, because
SEQUENCER_FETCH meets words that are no instruction.
-/

namespace Sys2Proof

/-- The command that a word spells by the bits of the opcode table: none, because the table gives no row any bits. DESIGN CHOICE (log 10). -/
def decodeTableWord (_nbits _w : Nat) : Option Instr := none

/-- Bits [hi:lo] of an instruction word. -/
def wordField (w : Word) (hi lo : Nat) : Nat := (w.toNat / 2 ^ lo) % 2 ^ (hi + 1 - lo)

/-- The fields of an S3 word (R618). -/
def decodeS3 (w : Word) : FmtS3 :=
  { pred := .ofNat 3 (wordField w 53 51), rd := .ofNat 6 (wordField w 50 45), ra := .ofNat 6 (wordField w 44 39),
    rb := .ofNat 6 (wordField w 38 33), rc := .ofNat 6 (wordField w 32 27), func := .ofNat 8 (wordField w 26 19),
    z := .ofNat 6 (wordField w 18 13), wait := .ofNat 13 (wordField w 12 0) }

/-- The fields of an SI word. -/
def decodeSI (w : Word) : FmtSI :=
  { pred := .ofNat 3 (wordField w 53 51), rd := .ofNat 6 (wordField w 50 45), ra := .ofNat 6 (wordField w 44 39),
    func := .ofNat 7 (wordField w 38 32), imm := .ofNat 32 (wordField w 31 0) }

/-- The fields of a D word. -/
def decodeD (w : Word) : FmtD :=
  { pred := .ofNat 3 (wordField w 53 51), a := .ofNat 4 (wordField w 50 47), off := .ofNat 16 (wordField w 46 31),
    idx := .ofNat 6 (wordField w 30 25), reg := .ofNat 6 (wordField w 24 19), mod := .ofNat 6 (wordField w 18 13),
    wait := .ofNat 13 (wordField w 12 0) }

/-- The fields of an M word. -/
def decodeM (w : Word) : FmtM :=
  { pred := .ofNat 3 (wordField w 53 51), a := .ofNat 4 (wordField w 50 47), b := .ofNat 4 (wordField w 46 43),
    c := .ofNat 4 (wordField w 42 39), rx := .ofNat 6 (wordField w 38 33), ry := .ofNat 6 (wordField w 32 27),
    cnt := .ofNat 6 (wordField w 26 21), mod := .ofNat 8 (wordField w 20 13), wait := .ofNat 13 (wordField w 12 0) }

/-- The fields of a C word. -/
def decodeC (w : Word) : FmtC :=
  { pred := .ofNat 3 (wordField w 53 51), cnt := .ofNat 6 (wordField w 50 45), grp := .ofNat 6 (wordField w 44 39),
    reg := .ofNat 6 (wordField w 38 33), z := .ofNat 6 (wordField w 32 27), sub := .ofNat 2 (wordField w 26 25),
    clr := wordField w 24 24 == 1, l := wordField w 23 23 == 1, k := wordField w 22 22 == 1, b := wordField w 21 21 == 1,
    w := wordField w 20 20 == 1, v := wordField w 19 19 == 1, eng := .ofNat 3 (wordField w 18 16),
    imm := .ofNat 16 (wordField w 15 0) }

/-- The instruction that a program word of tile `t` encodes: the opcode map of R622 and R655, with the format that it gives the
opcode (R617). `none` where the opcode is not in the map or the format is another one; the checks of R619 on the fields belong to
each instruction. DEDUCED (log 73). -/
def decodeInstr (t : Nat) (w : Word) : Option Instr :=
  let op := wordField w 63 57
  let fmt := wordField w 56 54
  match fmt with
  | 0 =>
    match op with
    | 0x01 => some (.salu t (decodeS3 w))
    | 0x03 => some (.smul t (decodeS3 w))
    | 0x07 => some (.scmp t (decodeS3 w))
    | 0x09 => some (.brr t (decodeS3 w))
    | 0x32 => some (.vldx t (decodeS3 w))
    | 0x33 => some (.vstx t (decodeS3 w))
    | 0x34 => some (.vop t (decodeS3 w))
    | 0x35 => some (.vcmp t (decodeS3 w))
    | 0x36 => some (.vred t (decodeS3 w))
    | 0x37 => some (.vcvt t (decodeS3 w))
    | _ => none
  | 1 =>
    match op with
    | 0x02 => some (.salui t (decodeSI w))
    | 0x04 => some (.sld t (decodeSI w))
    | 0x05 => some (.sst t (decodeSI w))
    | 0x06 => some (.aop t (decodeSI w))
    | 0x08 => some (.br t (decodeSI w))
    | 0x0A => some (.loop t (decodeSI w))
    | 0x30 => some (.vld t (decodeSI w))
    | 0x31 => some (.vst t (decodeSI w))
    | 0x38 => some (.vmovx t (decodeSI w))
    | 0x40 => some (.mgang t (decodeSI w))
    | _ => none
  | 2 =>
    match op with
    | 0x10 => some (.send t (decodeD w))
    | 0x11 => if wordField w 13 13 == 1 then some (.tryrecv t (decodeD w)) else some (.recv t (decodeD w))
    | 0x12 => some (.qrel t (decodeD w))
    | 0x13 => some (.bopen t (decodeD w))
    | 0x14 => if wordField w 13 13 == 1 then some (.wclose t (decodeD w)) else some (.wopen t (decodeD w))
    | 0x20 => some (.dmal t (decodeD w))
    | 0x21 => some (.dmas t (decodeD w))
    | 0x22 => some (.dmar t (decodeD w))
    | 0x23 => some (.dmaw t (decodeD w))
    | 0x24 => some (.dmax t (decodeD w))
    | 0x25 => some (.dmaf t (decodeD w))
    | 0x26 => some (.dmam t (decodeD w))
    | _ => none
  | 3 =>
    match op with
    | 0x39 => some (.amax t (decodeM w))
    | 0x3A => some (.cone t (decodeM w))
    | 0x41 => some (.mpanel t (decodeM w))
    | 0x42 => some (.mmul t (decodeM w))
    | 0x43 => some (.mdrain t (decodeM w))
    | 0x44 => some (.mpred t (decodeM w))
    | 0x50 => some (.ssort t (decodeM w))
    | 0x51 => some (.smerge t (decodeM w))
    | 0x52 => some (.sinter t (decodeM w))
    | 0x53 => some (.shash t (decodeM w))
    | 0x54 => some (.sgather t (decodeM w))
    | 0x55 => some (.sscatter t (decodeM w))
    | _ => none
  | 4 =>
    match op with
    | 0x00 => some (.nop t (decodeC w))
    | 0x0B => some (.csig t (decodeC w))
    | 0x0C => some (.cwait t (decodeC w))
    | 0x0D => some (.crd t (decodeC w))
    | 0x0E => some (.barr t (decodeC w))
    | 0x0F => some (.bwait t (decodeC w))
    | 0x15 => some (.ctx t (decodeC w))
    | 0x16 => some (.fence t (decodeC w))
    | 0x17 => some (.soak t (decodeC w))
    | 0x18 => some (.trap t (decodeC w))
    | 0x19 => some (.halt t (decodeC w))
    | _ => none
  | _ => none

end Sys2Proof
end

