-- ==== Sys2Proof/Config.lean ====
section
/-!
DEFINITION. What the part fixes by its build and this manual does not give, and the free values: values that the
manual leaves open although the machine goes on. Every constant here is opaque: it has no body, so nothing in Lean
can evaluate it or prove a value of it, and a claim that holds in this model holds whatever it is.
-/

namespace Sys2Proof.Config

/-- A free value. A meaning that needs a value the manual does not give applies this to a counter of the state
(`State.fresh`) and advances the counter, so that two uses are two unrelated values. DESIGN CHOICE (log 9). -/
opaque free : Nat → Nat

/-- DESIGN CHOICE (log 12): the event code of a report or record for which the manual gives none (a tile fault or a watchdog
report under R75, R76 and R77, a `TCTL.START` of a fenced tile under R72, a full partition under R612), by the kind of event. -/
opaque eventCode : Nat → Nat

/-- DESIGN CHOICE (log 62): the detail of SEC-0x0005 (R598), whose layout and cause codes the manual does not give, by the cause (1 the 24 hours, 2 CLOSE, 3 the
heartbeats, 4 the error state, 5 a new owner, 6 the 2³² packets) and the packets refused. -/
opaque sessionEnd : Nat → Nat → Nat

/-- The soak operations that a tile has issued since its reset (R171), which depend on time: by tile and by a count of the state. DESIGN CHOICE (log 13). -/
opaque soakOps : Nat → Nat → Nat

/-- What the descriptor of an RG-CSR store gives (R391), whose places in the descriptor the manual does not state: by the
descriptor's four words, rows, columns, bits of an element (8, 16, 32 or 64), group size, whether indices are 32-bit, and the places
of the row pointers, column indices, values and row table from the source address. DESIGN CHOICE (log 33). -/
opaque rgcsr : Nat → Nat → Nat → Nat → List Nat

/-- The tensor class (0–5) in whose bins a CONE counts a sample whose identity no valid scale slot of the context names (R209 does not
say): by identity. -/
opaque coneClass : Nat → Nat

/-- The identity that bits [11:1] of IDCODE hold (R729): Dexferas' JEP106 identity, which the manual does not state. -/
opaque jep106 : Nat

/-- The identifier of a compute die in its capability record (R317); the manual gives no value. DEDUCED (log 42). -/
opaque dieIdent : Nat → BitVec 64

/-- Verification of an ECDSA P-384 signature (R581, FIPS 186-5): key, message, signature. The standard fixes it; the
model uses no property of it. DESIGN CHOICE (log 61). -/
opaque ecdsaVerify : List Byte → List Byte → List Byte → Bool

/-- Verification of an LMS signature (R581, RFC 8554): key, message, signature. DESIGN CHOICE (log 61). -/
opaque lmsVerify : List Byte → List Byte → List Byte → Bool

/-- The ECDSA signature that the device key makes over a message: private key, message, and the draw it is made with. -/
opaque ecdsaSign : List Byte → List Byte → Nat → List Byte

/-- The LMS signature that the device key makes over a message at an index (R584): private key, message, index. -/
opaque lmsSign : List Byte → List Byte → Nat → List Byte

/-- SHA-384 (FIPS 180-4). DESIGN CHOICE (log 61). -/
opaque sha384 : List Byte → List Byte

/-- The shared secret of ECDH P-384 (R596): own ephemeral private key, peer's public key. -/
opaque ecdh : List Byte → List Byte → List Byte

/-- The public key of an ephemeral P-384 private key. -/
opaque ephemeralPublic : List Byte → List Byte

/-- HKDF-SHA-384 of R596 over Z with a salt and the info "CHP v1", 72 bytes. DESIGN CHOICE (log 61). -/
opaque hkdf : List Byte → List Byte → List Byte

/-- The identity seed that the lodge reconstructs from its PUF and the helper data (R577). DESIGN CHOICE (log 61). -/
opaque pufSeed : List Byte → List Byte

/-- A key derived from the identity seed under a label (R577): 0 ECDSA private, 1 ECDSA public, 2 LMS private, 3 LMS public. -/
opaque deviceKey : List Byte → Nat → List Byte

/-- The SHA-384 digest of the Dexferas root certificate that the lodge ROM holds (R583). -/
opaque rootDigest : List Byte

/-- Random bytes that the DRBG draws (R602): the draw's number and the length. DESIGN CHOICE (log 61). -/
opaque drbg : Nat → Nat → List Byte

/-- The serialisation of the record that the configuration hash of R553 is taken over, whose layout the manual does not
state: the grade, the fenced positions, the port map, the faulted routers, each as numbers, and the firmware image in use. DESIGN CHOICE (log 72). -/
opaque configRecord : Nat → List Nat → List Nat → List Nat → List Byte → List Byte

/-- Whether the running firmware lists a `dwverify` version as supported (R554, R697): firmware version, `dwverify` version. -/
opaque dwverifySupported : Nat → Nat → Bool

/-- The detour route set that an image holds for one router of a die (R324), whose layout the manual does not state:
image, die, row, column; each number is a turn entry as `RSENTn` holds it. DEDUCED (log 43). -/
opaque detourSet : List Byte → Nat → Nat → Nat → List Nat

/-- The queues of an image's first list in the LD section (R434), whose layout the manual does not state: tile, queue, and a device whose
channels target it, three numbers for each pair. DESIGN CHOICE (log 69). -/
opaque queueList : List Byte → List (Nat × Nat × Nat)

/-- Where a device's error memory slot lies on a stack (R496), which the image declares and the manual does not place: image, stack, slot. -/
opaque errorMemory : List Byte → Nat → Nat → Nat

/-- The replay plan of a stack in a device's tables (R497), as `UUPLAN` takes it: image, device number, stack. DESIGN CHOICE (log 69). -/
opaque replayPlan : List Byte → Nat → Nat → Nat

/-- The register loads that an image's device tables hold for a device number (R478): image, device; address and value in turn. DESIGN CHOICE (log 69). -/
opaque deviceTables : List Byte → Nat → List Nat

/-- The register loads of an image (R551, R552), whose layout the manual does not state: address and value in turn. DESIGN CHOICE (log 69). -/
opaque regLoads : List Byte → List Nat

/-- The pages marked in `MCSHARDw` of another device's stack (R476), which a device knows from its image: image, device, stack; ascending. DEDUCED (log 53). -/
opaque partnerPages : List Byte → Nat → Nat → List Nat

/-- The firmware image that slot A holds when the device leaves manufacture, which the manual does not give. -/
opaque factoryFirmware : List Byte

/-- The device certificate and its CA certificate that Dexferas writes into MRAM (R583), the Dexferas root certificate, and the helper data of the PUF (R577). DESIGN CHOICE (log 61). -/
opaque deviceCert : List Byte
opaque caCert : List Byte
opaque rootCert : List Byte
opaque helperData : List Byte

/-- The stepping bytes of an attestation (R599): compute die, link die, host die, gatehouse and lodge. The manual names the steppings and not their codes. DEDUCED (log 63). -/
opaque steppings : List Byte

/-- The binding table of an image (R552, type 1), whose layout the manual does not state: logical tile and physical position (row · 16 + column) in turn. DESIGN CHOICE (log 69). -/
opaque binding : List Byte → List Nat

/-- What an image places in HBM (R552, types 6 and 8): package address, offset in the image and length in turn. A section's 4 B target cannot hold a package
address, and the manual does not say how it names one. DESIGN CHOICE (log 69). -/
opaque hbmLoads : List Byte → List (Nat × Nat × Nat)

/-- The ranges of the basin accumulators of an image (R99, R262), whose declaration the manual does not state: tile, context, scratchpad offset and length. DESIGN CHOICE (log 69). -/
opaque basinRanges : List Byte → List (Nat × Nat × Nat × Nat)

/-- Whether an image stores 0x80 as a constant scale (R178), which it does in data whose layout the manual does not state. DESIGN CHOICE (log 69). -/
opaque nanScales : List Byte → Bool

end Sys2Proof.Config
end

