-- ==== Sys2Proof/Machine/Bits.lean ====
section
/-!
DEFINITION. Bits, bytes and sparse maps: the helpers that everything else is written with. Multi-byte values are
little-endian (R10).
-/

namespace Sys2Proof.Machine

/-- Bits [hi:lo] of a natural number. -/
def bits (n hi lo : Nat) : Nat := (n / 2 ^ lo) % 2 ^ (hi + 1 - lo)

/-- Bit `i` of a natural number. -/
def bitOf (n i : Nat) : Bool := (n / 2 ^ i) % 2 == 1

/-- A Bool as a bit. -/
def b2n (b : Bool) : Nat := if b then 1 else 0

/-- Bits [hi:lo] of a register. -/
def wget (w : Word) (hi lo : Nat) : Nat := bits w.toNat hi lo

/-- A register with bits [hi:lo] set to `v`, of which the bits that do not fit are dropped. -/
def wset (w : Word) (hi lo v : Nat) : Word :=
  .ofNat 64 (w.toNat / 2 ^ (hi + 1) * 2 ^ (hi + 1) + v % 2 ^ (hi + 1 - lo) * 2 ^ lo + w.toNat % 2 ^ lo)

/-- SExt of R624: the low `n` bits, with bit `n - 1` copied upward, as an integer. -/
def sextInt (x n : Nat) : Int :=
  let y := x % 2 ^ n
  if n = 0 then 0 else if y < 2 ^ (n - 1) then y else (y : Int) - 2 ^ n

/-- An integer as an unsigned number of `n` bits, in two's complement. -/
def wrap (x : Int) (n : Nat) : Nat := (x % (2 ^ n : Nat)).toNat

/-- The bytes of a number, least significant first, `n` of them. -/
def toBytes (x : Nat) : Nat → List Byte
  | 0 => []
  | n + 1 => .ofNat 8 x :: toBytes (x / 256) n

/-- The number that bytes spell, least significant first. -/
def ofBytes : List Byte → Nat
  | [] => 0
  | b :: bs => b.toNat + 256 * ofBytes bs

/-- Bytes as a list of `n`-byte pieces; a short last piece is kept. -/
def chunks (n : Nat) (bs : List Byte) : List (List Byte) :=
  (List.range ((bs.length + n - 1) / n)).map fun i => (bs.drop (n * i)).take n

/-- The `i`-th little-endian number of `n` bytes in `bs`; 0 beyond its end. -/
def numAt (bs : List Byte) (n i : Nat) : Nat := ofBytes ((bs.drop (n * i)).take n)

/-- Bytes cut or filled with zeros to length `n`. -/
def fitBytes (n : Nat) (bs : List Byte) : List Byte := (bs ++ List.replicate (n - bs.length) 0).take n

/-- Division rounded up. -/
def cdiv (a b : Nat) : Nat := (a + b - 1) / b

/-- The least multiple of `b` not below `a`. -/
def roundUp (a b : Nat) : Nat := cdiv a b * b

/-- `v` added to a field that saturates at `top`. -/
def satAdd (x v top : Nat) : Nat := min (x + v) top

/-- One step of the CRC-32C of R346 over the 8 bits of its low byte. -/
def crcBits (c : Nat) : Nat → Nat
  | 0 => c
  | n + 1 => crcBits (if c % 2 = 1 then (c / 2).xor 0x82F63B78 else c / 2) n

/-- CRC-32C (R346) of bytes. -/
def crc32c (bs : List Byte) : Nat :=
  (bs.foldl (fun c b => crcBits (c.xor b.toNat) 8) 0xFFFFFFFF).xor 0xFFFFFFFF

/-! ### Sparse maps: keys strictly rising, no entry at its default -/

/-- The value at key `k`, or the default where none is listed. -/
def mget {β : Type} (d : Nat → β) (m : List (Nat × β)) (k : Nat) : β :=
  match m with
  | [] => d k
  | (k', v) :: m => if k = k' then v else mget d m k

/-- The map without its entries whose keys satisfy `f`. -/
def mdrop {β : Type} (f : Nat → Bool) (m : List (Nat × β)) : List (Nat × β) := m.filter fun e => !f e.1

/-- The map with `v` at key `k`. -/
def mput {β : Type} [DecidableEq β] (d : Nat → β) (m : List (Nat × β)) (k : Nat) (v : β) : List (Nat × β) :=
  match m with
  | [] => if v = d k then [] else [(k, v)]
  | (k', v') :: m =>
    if k = k' then mput d m k v
    else if k < k' then if v = d k then (k', v') :: mdrop (fun j => j == k) m else (k, v) :: (k', v') :: mdrop (fun j => j == k) m
    else (k', v') :: mput d m k v

/-- Whether every key of the map lies above `lo` (all of them for `none`), they rise strictly, and no entry is at its default. -/
def mwf {β : Type} [DecidableEq β] (d : Nat → β) (lo : Option Nat) (m : List (Nat × β)) : Bool :=
  match m with
  | [] => true
  | (k, v) :: m => (match lo with | none => true | some l => decide (l < k)) && decide (v ≠ d k) && mwf d (some k) m

/-! ### Lists -/

/-- The list with its `i`-th element changed; unchanged beyond its end. -/
def setAt {β : Type} (l : List β) (i : Nat) (v : β) : List β := l.set i v

/-- The first element that satisfies `f`, and the list without it. -/
def takeFirst {β : Type} (f : β → Bool) (l : List β) : Option (β × List β) :=
  match l with
  | [] => none
  | x :: l => if f x then some (x, l) else (takeFirst f l).map fun r => (r.1, x :: r.2)

/-- The list with the first element that satisfies `f` changed by `g`. -/
def modFirst {β : Type} (f : β → Bool) (g : β → β) (l : List β) : List β :=
  match l with
  | [] => []
  | x :: l => if f x then g x :: l else x :: modFirst f g l

end Sys2Proof.Machine
end

