-- ==== Sys2Proof/Machine/Regs.lean ====
section
/-!
DEFINITION. Every memory-mapped register of the part: where it lies in its block (the offsets of R79, R125, R168,
R216, R272, R285, R326, R367, R415, R462, R510, R568, R690 and the single registers beside them), the bit range of
each of its fields, the access type of each field (R11) and its reset value. The field constants `NAME_FIELD` and the
table `regTable` say the same thing twice: the constants are what the meanings read and write, the table is what a
register write under R11, a reserved slot under R14 and a reset value are looked up in.
-/

namespace Sys2Proof.Machine

/-- A field of a register: the register's offset in its block, and the field's highest and lowest bit. -/
structure Fld where
  off : Nat
  hi : Nat
  lo : Nat
  deriving DecidableEq, Repr

/-- The access types of R11. -/
inductive Access where
  | RO | RW | W1C | WO | RWS
  deriving DecidableEq, Repr

/-- The kinds of register block of R15; a GC die block, an LD block and the HD block each hold the registers
of R568 that R739 names. -/
inductive Block where
  | tile | die | mc | ld | hd | gh
  deriving DecidableEq, Repr

/-- One field of a register table. -/
structure FieldDesc where
  hi : Nat
  lo : Nat
  acc : Access
  reset : Nat
  deriving DecidableEq, Repr

/-- One register, or one array of registers at `base + s1 * i + s2 * j`. -/
structure RegDesc where
  block : Block
  base : Nat
  s1 : Nat
  n1 : Nat
  s2 : Nat
  n2 : Nat
  perCtx : Bool
  fields : List FieldDesc
  deriving DecidableEq, Repr

namespace R

/-- R80: offset of `TID` in its block. -/
def TID : Nat := 0x0

def TID_LOGICAL : Fld := ⟨TID, 10, 0⟩

def TID_BOUND : Fld := ⟨TID, 11, 11⟩

def TID_CLASS : Fld := ⟨TID, 17, 16⟩

def TID_PDIE : Fld := ⟨TID, 26, 24⟩

def TID_PROW : Fld := ⟨TID, 36, 32⟩

def TID_PCOL : Fld := ⟨TID, 43, 40⟩

def TID_GRADE : Fld := ⟨TID, 48, 48⟩

/-- R81: offset of `TCTL` in its block. -/
def TCTL : Nat := 0x8

def TCTL_START : Fld := ⟨TCTL, 0, 0⟩

def TCTL_HOLD : Fld := ⟨TCTL, 1, 1⟩

def TCTL_FENCE : Fld := ⟨TCTL, 2, 2⟩

def TCTL_WDOG_EN : Fld := ⟨TCTL, 3, 3⟩

def TCTL_RESET : Fld := ⟨TCTL, 4, 4⟩

/-- R82: offset of `TSTAT` in its block. -/
def TSTAT : Nat := 0x10

def TSTAT_STATE : Fld := ⟨TSTAT, 2, 0⟩

def TSTAT_CTX : Fld := ⟨TSTAT, 3, 3⟩

def TSTAT_BOUNDARY : Fld := ⟨TSTAT, 4, 4⟩

def TSTAT_HALTED : Fld := ⟨TSTAT, 5, 5⟩

def TSTAT_HELD : Fld := ⟨TSTAT, 6, 6⟩

def TSTAT_WAITING : Fld := ⟨TSTAT, 7, 7⟩

def TSTAT_SBUSED : Fld := ⟨TSTAT, 13, 8⟩

def TSTAT_QEMPTY : Fld := ⟨TSTAT, 14, 14⟩

def TSTAT_PC : Fld := ⟨TSTAT, 36, 16⟩

/-- R83: offset of `TFAULT` in its block. -/
def TFAULT : Nat := 0x18

def TFAULT_ILLEGAL : Fld := ⟨TFAULT, 0, 0⟩

def TFAULT_ACCESS : Fld := ⟨TFAULT, 1, 1⟩

def TFAULT_ADDRESS : Fld := ⟨TFAULT, 2, 2⟩

def TFAULT_COUNTER : Fld := ⟨TFAULT, 3, 3⟩

def TFAULT_WICKET : Fld := ⟨TFAULT, 4, 4⟩

def TFAULT_CHANNEL : Fld := ⟨TFAULT, 5, 5⟩

def TFAULT_GANG : Fld := ⟨TFAULT, 6, 6⟩

def TFAULT_MSGSIZE : Fld := ⟨TFAULT, 7, 7⟩

def TFAULT_LANDED : Fld := ⟨TFAULT, 8, 8⟩

def TFAULT_CONTEXT : Fld := ⟨TFAULT, 9, 9⟩

def TFAULT_TRAP : Fld := ⟨TFAULT, 10, 10⟩

def TFAULT_WATCHDOG : Fld := ⟨TFAULT, 11, 11⟩

def TFAULT_PARITY : Fld := ⟨TFAULT, 12, 12⟩

def TFAULT_ENGINE : Fld := ⟨TFAULT, 13, 13⟩

def TFAULT_FIRST : Fld := ⟨TFAULT, 23, 16⟩

def TFAULT_COUNT : Fld := ⟨TFAULT, 31, 24⟩

def TFAULT_TRAPCODE : Fld := ⟨TFAULT, 47, 32⟩

/-- R84: offset of `TFADDR` in its block. -/
def TFADDR : Nat := 0x20

def TFADDR_PC : Fld := ⟨TFADDR, 20, 0⟩

def TFADDR_DADDR : Fld := ⟨TFADDR, 63, 24⟩

/-- R85: offset of `TPROG` in its block. -/
def TPROG : Nat := 0x28

def TPROG_PBANK : Fld := ⟨TPROG, 4, 0⟩

def TPROG_PWIDE : Fld := ⟨TPROG, 5, 5⟩

def TPROG_BBANK : Fld := ⟨TPROG, 12, 8⟩

def TPROG_BWIDE : Fld := ⟨TPROG, 13, 13⟩

/-- R575: offset of `TPWR` in its block. -/
def TPWR : Nat := 0x30

def TPWR_STEP : Fld := ⟨TPWR, 2, 0⟩

def TPWR_LENT : Fld := ⟨TPWR, 3, 3⟩

def TPWR_RECALL : Fld := ⟨TPWR, 4, 4⟩

def TPWR_REDUCED : Fld := ⟨TPWR, 5, 5⟩

def TPWR_CLASS : Fld := ⟨TPWR, 7, 6⟩

def TPWR_LENDS : Fld := ⟨TPWR, 63, 32⟩

/-- R126: offset of `SPCFG` in its block. -/
def SPCFG : Nat := 0x100

def SPCFG_PGRP : Fld := ⟨SPCFG, 7, 0⟩

def SPCFG_BGRP : Fld := ⟨SPCFG, 15, 8⟩

/-- R127: offset of `SPGSTATE` in its block. -/
def SPGSTATE : Nat := 0x108

def SPGSTATE_G : Fld := ⟨SPGSTATE, 15, 0⟩

/-- R128: offset of `SPGB` in its block. -/
def SPGB : Nat := 0x110

def SPGB_USED : Fld := ⟨SPGB, 4, 0⟩

def SPGB_DIRTY : Fld := ⟨SPGB, 12, 8⟩

/-- R129: offset of `SPPERR` in its block. -/
def SPPERR : Nat := 0x118

def SPPERR_COUNT : Fld := ⟨SPPERR, 15, 0⟩

def SPPERR_BANK : Fld := ⟨SPPERR, 20, 16⟩

def SPPERR_ROW : Fld := ⟨SPPERR, 31, 21⟩

/-- R130: offset of `WKBASE` in its block. -/
def WKBASE (n : Nat) : Nat := 0x400 + 0x20 * n

def WKBASE_BASE (n : Nat) : Fld := ⟨(WKBASE n), 20, 0⟩

def WKBASE_OWNER (n : Nat) : Fld := ⟨(WKBASE n), 32, 32⟩

def WKBASE_INITOPEN (n : Nat) : Fld := ⟨(WKBASE n), 33, 33⟩

/-- R131: offset of `WKLIM` in its block. -/
def WKLIM (n : Nat) : Nat := 0x408 + 0x20 * n

def WKLIM_LIMIT (n : Nat) : Fld := ⟨(WKLIM n), 20, 0⟩

def WKLIM_EN (n : Nat) : Fld := ⟨(WKLIM n), 32, 32⟩

/-- R132: offset of `WKEPOCH` in its block. -/
def WKEPOCH (n : Nat) : Nat := 0x410 + 0x20 * n

def WKEPOCH_EPOCH (n : Nat) : Fld := ⟨(WKEPOCH n), 15, 0⟩

def WKEPOCH_OPEN (n : Nat) : Fld := ⟨(WKEPOCH n), 16, 16⟩

def WKEPOCH_REJECTS (n : Nat) : Fld := ⟨(WKEPOCH n), 47, 32⟩

/-- R273: offset of `WKEXP` in its block. -/
def WKEXP (n : Nat) : Nat := 0x418 + 0x20 * n

def WKEXP_BYTES (n : Nat) : Fld := ⟨(WKEXP n), 31, 0⟩

def WKEXP_CHECK (n : Nat) : Fld := ⟨(WKEXP n), 32, 32⟩

/-- R133: offset of `WKSEND` in its block. -/
def WKSEND (n k : Nat) : Nat := 0x800 + 0x100 * n + 0x8 * k

def WKSEND_DEV (n k : Nat) : Fld := ⟨(WKSEND n k), 15, 0⟩

def WKSEND_TILE (n k : Nat) : Fld := ⟨(WKSEND n k), 26, 16⟩

def WKSEND_NOTTILE (n k : Nat) : Fld := ⟨(WKSEND n k), 27, 27⟩

def WKSEND_ANY (n k : Nat) : Fld := ⟨(WKSEND n k), 30, 30⟩

def WKSEND_VALID (n k : Nat) : Fld := ⟨(WKSEND n k), 31, 31⟩

/-- R134: offset of `WKLAND` in its block. -/
def WKLAND (n k : Nat) : Nat := 0x1800 + 0x100 * n + 0x8 * k

def WKLAND_BYTES (n k : Nat) : Fld := ⟨(WKLAND n k), 31, 0⟩

/-- R169: offset of `MGANG` in its block. -/
def MGANG (c : Nat) : Nat := 0x3000 + 0x8000 * c

def MGANG_MODE (c : Nat) : Fld := ⟨(MGANG c), 1, 0⟩

def MGANG_FILL (c : Nat) : Fld := ⟨(MGANG c), 14, 8⟩

def MGANG_DEADLINE (c : Nat) : Fld := ⟨(MGANG c), 31, 16⟩

/-- R170: offset of `SOAKCFG` in its block. -/
def SOAKCFG : Nat := 0x3008

def SOAKCFG_HOLD : Fld := ⟨SOAKCFG, 12, 0⟩

def SOAKCFG_RAMP : Fld := ⟨SOAKCFG, 29, 16⟩

/-- R171: offset of `MSTAT` in its block. -/
def MSTAT : Nat := 0x3010

def MSTAT_MODE : Fld := ⟨MSTAT, 1, 0⟩

def MSTAT_MBUSY : Fld := ⟨MSTAT, 2, 2⟩

def MSTAT_DBUSY : Fld := ⟨MSTAT, 3, 3⟩

def MSTAT_PBUSY : Fld := ⟨MSTAT, 4, 4⟩

def MSTAT_ASTATE : Fld := ⟨MSTAT, 7, 5⟩

def MSTAT_STEP : Fld := ⟨MSTAT, 12, 8⟩

def MSTAT_HELD : Fld := ⟨MSTAT, 19, 16⟩

def MSTAT_HELDROWS : Fld := ⟨MSTAT, 31, 20⟩

def MSTAT_SOAKOPS : Fld := ⟨MSTAT, 63, 32⟩

/-- R217: offset of `NSCALE` in its block. -/
def NSCALE (c : Nat) : Nat := 0x3200 + 0x8000 * c

def NSCALE_STEP (c : Nat) : Fld := ⟨(NSCALE c), 31, 0⟩

/-- R218: offset of `NSEED` in its block. -/
def NSEED (c : Nat) : Nat := 0x3208 + 0x8000 * c

def NSEED_SEED (c : Nat) : Fld := ⟨(NSEED c), 63, 0⟩

/-- R219: offset of `CONECFG` in its block. -/
def CONECFG (c : Nat) : Nat := 0x3210 + 0x8000 * c

def CONECFG_EN (c : Nat) : Fld := ⟨(CONECFG c), 0, 0⟩

def CONECFG_ROWK (c : Nat) : Fld := ⟨(CONECFG c), 7, 4⟩

def CONECFG_COLK (c : Nat) : Fld := ⟨(CONECFG c), 11, 8⟩

def CONECFG_TBIN (c : Nat) : Fld := ⟨(CONECFG c), 15, 12⟩

def CONECFG_TLIMIT (c : Nat) : Fld := ⟨(CONECFG c), 31, 16⟩

/-- R220: offset of `CONESTAT` in its block. -/
def CONESTAT : Nat := 0x3218

def CONESTAT_SAMPLES : Fld := ⟨CONESTAT, 31, 0⟩

def CONESTAT_MISS : Fld := ⟨CONESTAT, 47, 32⟩

/-- R221: offset of `NSCLR` in its block. -/
def NSCLR : Nat := 0x3220

def NSCLR_SLOT : Fld := ⟨NSCLR, 31, 0⟩

def NSCLR_CONE : Fld := ⟨NSCLR, 32, 32⟩

/-- R222: offset of `NSLOT` in its block. -/
def NSLOT (c n : Nat) : Nat := 0x3300 + 0x8000 * c + 0x8 * n

def NSLOT_TENSOR (c n : Nat) : Fld := ⟨(NSLOT c n), 31, 0⟩

def NSLOT_CLASS (c n : Nat) : Fld := ⟨(NSLOT c n), 34, 32⟩

def NSLOT_CEIL (c n : Nat) : Fld := ⟨(NSLOT c n), 47, 40⟩

def NSLOT_WARM (c n : Nat) : Fld := ⟨(NSLOT c n), 48, 48⟩

def NSLOT_VALID (c n : Nat) : Fld := ⟨(NSLOT c n), 49, 49⟩

/-- R223: offset of `NSTAT` in its block. -/
def NSTAT (c n : Nat) : Nat := 0x3400 + 0x8000 * c + 0x8 * n

def NSTAT_AMAXE (c n : Nat) : Fld := ⟨(NSTAT c n), 7, 0⟩

def NSTAT_SAT (c n : Nat) : Fld := ⟨(NSTAT c n), 31, 16⟩

def NSTAT_NAN (c n : Nat) : Fld := ⟨(NSTAT c n), 47, 32⟩

/-- R224: offset of `CONEH` in its block. -/
def CONEH (n k : Nat) : Nat := 0x3600 + 0x80 * n + 0x8 * k

def CONEH_COUNT (n k : Nat) : Fld := ⟨(CONEH n k), 31, 0⟩

/-- R225: offset of `CONEX` in its block. -/
def CONEX (n : Nat) : Nat := 0x3a00 + 0x8 * n

def CONEX_MIN (n : Nat) : Fld := ⟨(CONEX n), 31, 0⟩

def CONEX_MAX (n : Nat) : Fld := ⟨(CONEX n), 63, 32⟩

/-- R691: offset of `CONEAREA` in its block. -/
def CONEAREA (c : Nat) : Nat := 0x3b00 + 0x8000 * c

def CONEAREA_NEXT (c : Nat) : Fld := ⟨(CONEAREA c), 39, 0⟩

def CONEAREA_LEFT (c : Nat) : Fld := ⟨(CONEAREA c), 55, 40⟩

def CONEAREA_LOST (c : Nat) : Fld := ⟨(CONEAREA c), 63, 56⟩

/-- R692: offset of `CONETAG` in its block. -/
def CONETAG (c : Nat) : Nat := 0x3b08 + 0x8000 * c

def CONETAG_IDENT (c : Nat) : Fld := ⟨(CONETAG c), 31, 0⟩

def CONETAG_INDEX (c : Nat) : Fld := ⟨(CONETAG c), 47, 32⟩

def CONETAG_PER (c : Nat) : Fld := ⟨(CONETAG c), 59, 48⟩

def CONETAG_ROLE (c : Nat) : Fld := ⟨(CONETAG c), 60, 60⟩

/-- R693: offset of `CONENEXT` in its block. -/
def CONENEXT (c : Nat) : Nat := 0x3b10 + 0x8000 * c

def CONENEXT_NEXT (c : Nat) : Fld := ⟨(CONENEXT c), 31, 0⟩

/-- R416: offset of `PREDSLOT` in its block. -/
def PREDSLOT (c n : Nat) : Nat := 0x3c00 + 0x8000 * c + 0x8 * n

def PREDSLOT_THRESH (c n : Nat) : Fld := ⟨(PREDSLOT c n), 31, 0⟩

def PREDSLOT_GUARD (c n : Nat) : Fld := ⟨(PREDSLOT c n), 34, 32⟩

def PREDSLOT_EN (c n : Nat) : Fld := ⟨(PREDSLOT c n), 35, 35⟩

def PREDSLOT_MLIMIT (c n : Nat) : Fld := ⟨(PREDSLOT c n), 63, 48⟩

/-- R417: offset of `PMISS` in its block. -/
def PMISS (n : Nat) : Nat := 0x3c80 + 0x8 * n

def PMISS_MISS (n : Nat) : Fld := ⟨(PMISS n), 15, 0⟩

def PMISS_SKIPPED (n : Nat) : Fld := ⟨(PMISS n), 31, 16⟩

/-- R274: offset of `CNT` in its block. -/
def CNT (c n : Nat) : Nat := 0x4000 + 0x8000 * c + 0x8 * n

def CNT_VALUE (c n : Nat) : Fld := ⟨(CNT c n), 31, 0⟩

/-- R275: offset of `CNTBOUND` in its block. -/
def CNTBOUND (c n : Nat) : Nat := 0x4200 + 0x8000 * c + 0x8 * n

def CNTBOUND_PARTNER (c n : Nat) : Fld := ⟨(CNTBOUND c n), 5, 0⟩

def CNTBOUND_DEPTH (c n : Nat) : Fld := ⟨(CNTBOUND c n), 15, 8⟩

def CNTBOUND_EN (c n : Nat) : Fld := ⟨(CNTBOUND c n), 16, 16⟩

/-- R276: offset of `CNTLAST` in its block. -/
def CNTLAST (c n : Nat) : Nat := 0x4400 + 0x8000 * c + 0x8 * n

def CNTLAST_PC (c n : Nat) : Fld := ⟨(CNTLAST c n), 20, 0⟩

def CNTLAST_ENGINE (c n : Nat) : Fld := ⟨(CNTLAST c n), 23, 21⟩

def CNTLAST_WAITERS (c n : Nat) : Fld := ⟨(CNTLAST c n), 30, 24⟩

def CNTLAST_STALLED (c n : Nat) : Fld := ⟨(CNTLAST c n), 31, 31⟩

/-- R277: offset of `TBAR` in its block. -/
def TBAR (c n : Nat) : Nat := 0x4600 + 0x8000 * c + 0x8 * n

def TBAR_MEMBER (c n : Nat) : Fld := ⟨(TBAR c n), 0, 0⟩

def TBAR_ARRGEN (c n : Nat) : Fld := ⟨(TBAR c n), 15, 8⟩

def TBAR_DONEGEN (c n : Nat) : Fld := ⟨(TBAR c n), 23, 16⟩

def TBAR_PENDING (c n : Nat) : Fld := ⟨(TBAR c n), 24, 24⟩

/-- R278: offset of `BVWAIT` in its block. -/
def BVWAIT (n : Nat) : Nat := 0x4780 + 0x8 * n

def BVWAIT_INDEX (n : Nat) : Fld := ⟨(BVWAIT n), 7, 0⟩

def BVWAIT_KIND (n : Nat) : Fld := ⟨(BVWAIT n), 9, 8⟩

def BVWAIT_VALUE (n : Nat) : Fld := ⟨(BVWAIT n), 47, 16⟩

/-- R279: offset of `CHROUTE` in its block. -/
def CHROUTE (n : Nat) : Nat := 0x4800 + 0x8 * n

def CHROUTE_DEV (n : Nat) : Fld := ⟨(CHROUTE n), 15, 0⟩

def CHROUTE_TILE (n : Nat) : Fld := ⟨(CHROUTE n), 26, 16⟩

def CHROUTE_QUEUE (n : Nat) : Fld := ⟨(CHROUTE n), 30, 27⟩

def CHROUTE_VALID (n : Nat) : Fld := ⟨(CHROUTE n), 31, 31⟩

def CHROUTE_EPOCH (n : Nat) : Fld := ⟨(CHROUTE n), 47, 32⟩

def CHROUTE_OWNER (n : Nat) : Fld := ⟨(CHROUTE n), 48, 48⟩

def CHROUTE_CLOSED (n : Nat) : Fld := ⟨(CHROUTE n), 49, 49⟩

def CHROUTE_BASIN (n : Nat) : Fld := ⟨(CHROUTE n), 50, 50⟩

/-- R280: offset of `CHCR` in its block. -/
def CHCR (n : Nat) : Nat := 0x4a00 + 0x8 * n

def CHCR_DCRED (n : Nat) : Fld := ⟨(CHCR n), 8, 0⟩

def CHCR_PCRED (n : Nat) : Fld := ⟨(CHCR n), 28, 16⟩

def CHCR_PTAIL (n : Nat) : Fld := ⟨(CHCR n), 43, 32⟩

def CHCR_PSIZE (n : Nat) : Fld := ⟨(CHCR n), 60, 48⟩

/-- R281: offset of `QCFG` in its block. -/
def QCFG (n : Nat) : Nat := 0x4c00 + 0x20 * n

def QCFG_BASE (n : Nat) : Fld := ⟨(QCFG n), 20, 0⟩

def QCFG_SIZE (n : Nat) : Fld := ⟨(QCFG n), 31, 24⟩

def QCFG_MODE (n : Nat) : Fld := ⟨(QCFG n), 34, 32⟩

def QCFG_OWNER (n : Nat) : Fld := ⟨(QCFG n), 35, 35⟩

def QCFG_EN (n : Nat) : Fld := ⟨(QCFG n), 36, 36⟩

def QCFG_ARRCNT (n : Nat) : Fld := ⟨(QCFG n), 45, 40⟩

def QCFG_ARRCNTEN (n : Nat) : Fld := ⟨(QCFG n), 46, 46⟩

/-- R282: offset of `QPAY` in its block. -/
def QPAY (n : Nat) : Nat := 0x4c08 + 0x20 * n

def QPAY_BASE (n : Nat) : Fld := ⟨(QPAY n), 20, 0⟩

def QPAY_SIZE (n : Nat) : Fld := ⟨(QPAY n), 36, 24⟩

/-- R283: offset of `QPTR` in its block. -/
def QPTR (n : Nat) : Nat := 0x4c10 + 0x20 * n

def QPTR_HEAD (n : Nat) : Fld := ⟨(QPTR n), 7, 0⟩

def QPTR_TAIL (n : Nat) : Fld := ⟨(QPTR n), 15, 8⟩

def QPTR_COUNT (n : Nat) : Fld := ⟨(QPTR n), 24, 16⟩

def QPTR_HELD (n : Nat) : Fld := ⟨(QPTR n), 28, 25⟩

def QPTR_PHEAD (n : Nat) : Fld := ⟨(QPTR n), 43, 32⟩

def QPTR_PTAIL (n : Nat) : Fld := ⟨(QPTR n), 59, 48⟩

def QPTR_BLOCKED (n : Nat) : Fld := ⟨(QPTR n), 60, 60⟩

/-- R284: offset of `QEPOCH` in its block. -/
def QEPOCH (n : Nat) : Nat := 0x4c18 + 0x20 * n

def QEPOCH_EPOCH (n : Nat) : Fld := ⟨(QEPOCH n), 15, 0⟩

def QEPOCH_CLOSED (n : Nat) : Fld := ⟨(QEPOCH n), 16, 16⟩

def QEPOCH_DROPPED (n : Nat) : Fld := ⟨(QEPOCH n), 47, 32⟩

/-- R654: offset of `CNTST` in its block. -/
def CNTST (c n : Nat) : Nat := 0x4e00 + 0x8000 * c + 0x8 * n

def CNTST_WORST (c n : Nat) : Fld := ⟨(CNTST c n), 15, 0⟩

def CNTST_ERRS (c n : Nat) : Fld := ⟨(CNTST c n), 31, 16⟩

/-- R286: offset of `DBAR` in its block. -/
def DBAR (n : Nat) : Nat := 0x1000 + 0x8 * n

def DBAR_PARTS (n : Nat) : Fld := ⟨(DBAR n), 8, 0⟩

def DBAR_ARRIVED (n : Nat) : Fld := ⟨(DBAR n), 24, 16⟩

def DBAR_GEN (n : Nat) : Fld := ⟨(DBAR n), 39, 32⟩

def DBAR_EN (n : Nat) : Fld := ⟨(DBAR n), 63, 63⟩

/-- R287: offset of `PBAR` in its block. -/
def PBAR (n : Nat) : Nat := 0x1200 + 0x8 * n

def PBAR_PARTS (n : Nat) : Fld := ⟨(PBAR n), 8, 0⟩

def PBAR_DIES (n : Nat) : Fld := ⟨(PBAR n), 23, 16⟩

def PBAR_GEN (n : Nat) : Fld := ⟨(PBAR n), 31, 24⟩

def PBAR_ARRIVED (n : Nat) : Fld := ⟨(PBAR n), 40, 32⟩

def PBAR_DEVICE (n : Nat) : Fld := ⟨(PBAR n), 48, 48⟩

def PBAR_EN (n : Nat) : Fld := ⟨(PBAR n), 49, 49⟩

def PBAR_STEP (n : Nat) : Fld := ⟨(PBAR n), 50, 50⟩

/-- R327: offset of `RSCTL` in its block. -/
def RSCTL : Nat := 0x2000

def RSCTL_ARM : Fld := ⟨RSCTL, 0, 0⟩

def RSCTL_ACTIVE : Fld := ⟨RSCTL, 1, 1⟩

def RSCTL_PENDING : Fld := ⟨RSCTL, 2, 2⟩

def RSCTL_AROW : Fld := ⟨RSCTL, 12, 8⟩

def RSCTL_ACOL : Fld := ⟨RSCTL, 19, 16⟩

def RSCTL_ENTRIES : Fld := ⟨RSCTL, 30, 24⟩

/-- R328: offset of `RSSTAT` in its block. -/
def RSSTAT : Nat := 0x2008

def RSSTAT_IDLE : Fld := ⟨RSSTAT, 0, 0⟩

def RSSTAT_RFAULT : Fld := ⟨RSSTAT, 1, 1⟩

def RSSTAT_SECOND : Fld := ⟨RSSTAT, 2, 2⟩

def RSSTAT_FROW : Fld := ⟨RSSTAT, 12, 8⟩

def RSSTAT_FCOL : Fld := ⟨RSSTAT, 19, 16⟩

def RSSTAT_BADPKT : Fld := ⟨RSSTAT, 47, 32⟩

/-- R329: offset of `RSENT` in its block. -/
def RSENT (n : Nat) : Nat := 0x2100 + 0x8 * n

def RSENT_ROW (n : Nat) : Fld := ⟨(RSENT n), 4, 0⟩

def RSENT_COL (n : Nat) : Fld := ⟨(RSENT n), 11, 8⟩

def RSENT_DROWLO (n : Nat) : Fld := ⟨(RSENT n), 16, 12⟩

def RSENT_DROWHI (n : Nat) : Fld := ⟨(RSENT n), 21, 17⟩

def RSENT_DCOLLO (n : Nat) : Fld := ⟨(RSENT n), 25, 22⟩

def RSENT_DCOLHI (n : Nat) : Fld := ⟨(RSENT n), 29, 26⟩

def RSENT_VNMASK (n : Nat) : Fld := ⟨(RSENT n), 32, 30⟩

def RSENT_DIR (n : Nat) : Fld := ⟨(RSENT n), 34, 33⟩

def RSENT_VALID (n : Nat) : Fld := ⟨(RSENT n), 35, 35⟩

/-- R330: offset of `ERLINK` in its block. -/
def ERLINK (n : Nat) : Nat := 0x2400 + 0x20 * n

def ERLINK_STATE (n : Nat) : Fld := ⟨(ERLINK n), 1, 0⟩

def ERLINK_RATE (n : Nat) : Fld := ⟨(ERLINK n), 6, 4⟩

def ERLINK_MODULES (n : Nat) : Fld := ⟨(ERLINK n), 11, 8⟩

def ERLINK_WIDTH (n : Nat) : Fld := ⟨(ERLINK n), 13, 12⟩

def ERLINK_CPLVER (n : Nat) : Fld := ⟨(ERLINK n), 23, 16⟩

def ERLINK_ROLE (n : Nat) : Fld := ⟨(ERLINK n), 26, 24⟩

def ERLINK_REASON (n : Nat) : Fld := ⟨(ERLINK n), 39, 32⟩

/-- R331: offset of `ERCNT` in its block. -/
def ERCNT (n : Nat) : Nat := 0x2408 + 0x20 * n

def ERCNT_CRCERR (n : Nat) : Fld := ⟨(ERCNT n), 15, 0⟩

def ERCNT_REPLAY (n : Nat) : Fld := ⟨(ERCNT n), 31, 16⟩

def ERCNT_CONSEC (n : Nat) : Fld := ⟨(ERCNT n), 36, 32⟩

/-- R332: offset of `ERPEER` in its block. -/
def ERPEER (n : Nat) : Nat := 0x2410 + 0x20 * n

def ERPEER_ID (n : Nat) : Fld := ⟨(ERPEER n), 63, 0⟩

/-- R333: offset of `ERWIN` in its block. -/
def ERWIN (n k : Nat) : Nat := 0x2600 + 0x20 * n + 0x8 * k

def ERWIN_BASE (n k : Nat) : Fld := ⟨(ERWIN n k), 18, 0⟩

def ERWIN_LIMIT (n k : Nat) : Fld := ⟨(ERWIN n k), 50, 32⟩

def ERWIN_RD (n k : Nat) : Fld := ⟨(ERWIN n k), 51, 51⟩

def ERWIN_WR (n k : Nat) : Fld := ⟨(ERWIN n k), 52, 52⟩

def ERWIN_EN (n k : Nat) : Fld := ⟨(ERWIN n k), 53, 53⟩

/-- R569: offset of `DLEASE` in its block. -/
def DLEASE : Nat := 0x3000

def DLEASE_EPOCH : Fld := ⟨DLEASE, 31, 0⟩

def DLEASE_HOLDER : Fld := ⟨DLEASE, 32, 32⟩

def DLEASE_VALID : Fld := ⟨DLEASE, 33, 33⟩

def DLEASE_LODGEOK : Fld := ⟨DLEASE, 34, 34⟩

def DLEASE_HELD : Fld := ⟨DLEASE, 35, 35⟩

def DLEASE_ARBFAULT : Fld := ⟨DLEASE, 36, 36⟩

/-- R570: offset of `DPWR` in its block. -/
def DPWR : Nat := 0x3008

def DPWR_TDOM : Fld := ⟨DPWR, 1, 0⟩

def DPWR_PLL : Fld := ⟨DPWR, 3, 2⟩

def DPWR_HD : Fld := ⟨DPWR, 5, 4⟩

def DPWR_NPLL : Fld := ⟨DPWR, 7, 6⟩

def DPWR_PSTATE : Fld := ⟨DPWR, 10, 8⟩

/-- R576: offset of `DRESET` in its block. -/
def DRESET : Nat := 0x3010

def DRESET_GO : Fld := ⟨DRESET, 0, 0⟩

def DRESET_PENDING : Fld := ⟨DRESET, 1, 1⟩

def DRESET_COUNT : Fld := ⟨DRESET, 63, 32⟩

/-- R571: offset of `DMPCFG` in its block. -/
def DMPCFG : Nat := 0x3100

def DMPCFG_LENDEN : Fld := ⟨DMPCFG, 0, 0⟩

def DMPCFG_BOOSTEN : Fld := ⟨DMPCFG, 1, 1⟩

def DMPCFG_MAXSTEP : Fld := ⟨DMPCFG, 4, 2⟩

/-- R572: offset of `DMPSTAT` in its block. -/
def DMPSTAT : Nat := 0x3108

def DMPSTAT_BUDGET : Fld := ⟨DMPSTAT, 15, 0⟩

def DMPSTAT_POOL : Fld := ⟨DMPSTAT, 31, 16⟩

def DMPSTAT_LENT : Fld := ⟨DMPSTAT, 40, 32⟩

def DMPSTAT_BOOSTED : Fld := ⟨DMPSTAT, 49, 41⟩

def DMPSTAT_POWER : Fld := ⟨DMPSTAT, 63, 50⟩

/-- R573: offset of `DMPTHR` in its block. -/
def DMPTHR : Nat := 0x3110

def DMPTHR_STRETCH : Fld := ⟨DMPTHR, 3, 0⟩

def DMPTHR_TJ : Fld := ⟨DMPTHR, 11, 4⟩

def DMPTHR_THERM : Fld := ⟨DMPTHR, 12, 12⟩

def DMPTHR_CAP : Fld := ⟨DMPTHR, 13, 13⟩

def DMPTHR_HOTHOLD : Fld := ⟨DMPTHR, 14, 14⟩

/-- R530: offset of `DCQ` in its block. -/
def DCQ (n k : Nat) : Nat := 0x6000 + 0x20 * n + 0x8 * k

def DCQ_WORD (n k : Nat) : Fld := ⟨(DCQ n k), 63, 0⟩

/-- R532: offset of `DCQPTR` in its block. -/
def DCQPTR : Nat := 0x6800

def DCQPTR_HEAD : Fld := ⟨DCQPTR, 7, 0⟩

def DCQPTR_TAIL : Fld := ⟨DCQPTR, 15, 8⟩

def DCQPTR_COUNT : Fld := ⟨DCQPTR, 24, 16⟩

def DCQPTR_LOST : Fld := ⟨DCQPTR, 63, 32⟩

/-- R574: offset of `DCMD` in its block. -/
def DCMD (n k : Nat) : Nat := 0xf000 + 0x40 * n + 0x8 * k

def DCMD_WORD (n k : Nat) : Fld := ⟨(DCMD n k), 63, 0⟩

/-- R574: offset of `DCMDST` in its block. -/
def DCMDST (n : Nat) : Nat := 0xf020 + 0x40 * n

def DCMDST_EPOCH (n : Nat) : Fld := ⟨(DCMDST n), 31, 0⟩

def DCMDST_STATUS (n : Nat) : Fld := ⟨(DCMDST n), 34, 32⟩

def DCMDST_BUSY (n : Nat) : Fld := ⟨(DCMDST n), 35, 35⟩

/-- R368: offset of `MCCFG` in its block. -/
def MCCFG : Nat := 0x0

def MCCFG_MODE : Fld := ⟨MCCFG, 0, 0⟩

def MCCFG_UUEN : Fld := ⟨MCCFG, 1, 1⟩

/-- R369: offset of `MCSTAT` in its block. -/
def MCSTAT : Nat := 0x8

def MCSTAT_STATE : Fld := ⟨MCSTAT, 1, 0⟩

def MCSTAT_ZEROING : Fld := ⟨MCSTAT, 2, 2⟩

def MCSTAT_REFX2 : Fld := ⟨MCSTAT, 3, 3⟩

def MCSTAT_THROTTLE : Fld := ⟨MCSTAT, 4, 4⟩

def MCSTAT_TEMP : Fld := ⟨MCSTAT, 15, 8⟩

def MCSTAT_ECCCORR : Fld := ⟨MCSTAT, 31, 16⟩

/-- R370: offset of `MCERR` in its block. -/
def MCERR : Nat := 0x10

def MCERR_RECOVERED : Fld := ⟨MCERR, 15, 0⟩

def MCERR_TWINREC : Fld := ⟨MCERR, 31, 16⟩

def MCERR_RETIRED : Fld := ⟨MCERR, 37, 32⟩

def MCERR_FATAL : Fld := ⟨MCERR, 38, 38⟩

/-- R371: offset of `MCEADDR` in its block. -/
def MCEADDR : Nat := 0x18

def MCEADDR_ADDR : Fld := ⟨MCEADDR, 39, 0⟩

def MCEADDR_STAGE : Fld := ⟨MCEADDR, 41, 40⟩

/-- R372: offset of `MCSHARD` in its block. -/
def MCSHARD (n : Nat) : Nat := 0x1000 + 0x8 * n

def MCSHARD_PAGE (n : Nat) : Fld := ⟨(MCSHARD n), 63, 0⟩

/-- R372: offset of `MCPROT` in its block. -/
def MCPROT (n : Nat) : Nat := 0x2000 + 0x8 * n

def MCPROT_PAGE (n : Nat) : Fld := ⟨(MCPROT n), 63, 0⟩

/-- R373: offset of `UUPLAN` in its block. -/
def UUPLAN : Nat := 0x4000

def UUPLAN_BASE : Fld := ⟨UUPLAN, 39, 0⟩

def UUPLAN_COUNT : Fld := ⟨UUPLAN, 55, 40⟩

/-- R374: offset of `UURULE` in its block. -/
def UURULE : Nat := 0x4008

def UURULE_BASE : Fld := ⟨UURULE, 39, 0⟩

/-- R375: offset of `UUHIST` in its block. -/
def UUHIST : Nat := 0x4010

def UUHIST_BASE : Fld := ⟨UUHIST, 39, 0⟩

def UUHIST_FIRST : Fld := ⟨UUHIST, 51, 40⟩

def UUHIST_LAST : Fld := ⟨UUHIST, 63, 52⟩

/-- R376: offset of `UURES` in its block. -/
def UURES : Nat := 0x4018

def UURES_BASE : Fld := ⟨UURES, 39, 0⟩

/-- R377: offset of `UUNOTIFY` in its block. -/
def UUNOTIFY : Nat := 0x4020

def UUNOTIFY_TILE : Fld := ⟨UUNOTIFY, 10, 0⟩

def UUNOTIFY_QUEUE : Fld := ⟨UUNOTIFY, 14, 11⟩

def UUNOTIFY_VALID : Fld := ⟨UUNOTIFY, 15, 15⟩

def UUNOTIFY_EPOCH : Fld := ⟨UUNOTIFY, 31, 16⟩

/-- R378: offset of `UUCLIP` in its block. -/
def UUCLIP : Nat := 0x4028

def UUCLIP_CLIP : Fld := ⟨UUCLIP, 31, 0⟩

/-- R379: offset of `UUGATE` in its block. -/
def UUGATE : Nat := 0x4030

def UUGATE_STEP : Fld := ⟨UUGATE, 31, 0⟩

def UUGATE_SKIP : Fld := ⟨UUGATE, 32, 32⟩

def UUGATE_VALID : Fld := ⟨UUGATE, 33, 33⟩

/-- R380: offset of `UUSTAT` in its block. -/
def UUSTAT : Nat := 0x4038

def UUSTAT_STATE : Fld := ⟨UUSTAT, 2, 0⟩

def UUSTAT_LASTSKIP : Fld := ⟨UUSTAT, 3, 3⟩

def UUSTAT_GATEERR : Fld := ⟨UUSTAT, 4, 4⟩

def UUSTAT_SEG : Fld := ⟨UUSTAT, 31, 16⟩

def UUSTAT_CSTEP : Fld := ⟨UUSTAT, 63, 32⟩

/-- R381: offset of `UUCNT` in its block. -/
def UUCNT : Nat := 0x4040

def UUCNT_NONFINITE : Fld := ⟨UUCNT, 31, 0⟩

def UUCNT_SKIPPED : Fld := ⟨UUCNT, 63, 32⟩

/-- R511: offset of `TWREGION` in its block. -/
def TWREGION : Nat := 0x5000

def TWREGION_BASE : Fld := ⟨TWREGION, 39, 0⟩

def TWREGION_EN : Fld := ⟨TWREGION, 40, 40⟩

/-- R512: offset of `TWSIZE` in its block. -/
def TWSIZE : Nat := 0x5008

def TWSIZE_PAGES : Fld := ⟨TWSIZE, 14, 0⟩

def TWSIZE_JBLK : Fld := ⟨TWSIZE, 39, 16⟩

def TWSIZE_EBLK : Fld := ⟨TWSIZE, 63, 40⟩

/-- R513: offset of `TWCOPY` in its block. -/
def TWCOPY : Nat := 0x5010

def TWCOPY_STATE : Fld := ⟨TWCOPY, 1, 0⟩

def TWCOPY_EN : Fld := ⟨TWCOPY, 2, 2⟩

def TWCOPY_SLOT : Fld := ⟨TWCOPY, 3, 3⟩

def TWCOPY_STAGED : Fld := ⟨TWCOPY, 10, 8⟩

def TWCOPY_LEFT : Fld := ⟨TWCOPY, 30, 16⟩

def TWCOPY_GEN : Fld := ⟨TWCOPY, 63, 32⟩

/-- R463: offset of `CXCFG` in its block. -/
def CXCFG : Nat := 0x0

def CXCFG_DEV : Fld := ⟨CXCFG, 15, 0⟩

def CXCFG_STATION : Fld := ⟨CXCFG, 31, 16⟩

def CXCFG_UDPPORT : Fld := ⟨CXCFG, 47, 32⟩

def CXCFG_EN : Fld := ⟨CXCFG, 48, 48⟩

/-- R464: offset of `CXPREFIX` in its block. -/
def CXPREFIX : Nat := 0x8

def CXPREFIX_PREFIX : Fld := ⟨CXPREFIX, 63, 0⟩

/-- R465: offset of `CXEPOCH` in its block. -/
def CXEPOCH : Nat := 0x10

def CXEPOCH_LAYOUT : Fld := ⟨CXEPOCH, 15, 0⟩

def CXEPOCH_ALIAS : Fld := ⟨CXEPOCH, 47, 16⟩

/-- R466: offset of `CXTREE` in its block. -/
def CXTREE : Nat := 0x18

def CXTREE_PARENT : Fld := ⟨CXTREE, 15, 0⟩

def CXTREE_CHILDREN : Fld := ⟨CXTREE, 21, 16⟩

def CXTREE_ROOT : Fld := ⟨CXTREE, 22, 22⟩

/-- R467: offset of `CXNORM` in its block. -/
def CXNORM : Nat := 0x20

def CXNORM_MAXNORM : Fld := ⟨CXNORM, 31, 0⟩

def CXNORM_EG : Fld := ⟨CXNORM, 39, 32⟩

def CXNORM_GROUP : Fld := ⟨CXNORM, 43, 40⟩

def CXNORM_EN : Fld := ⟨CXNORM, 44, 44⟩

def CXNORM_ENDPOINT : Fld := ⟨CXNORM, 45, 45⟩

/-- R468: offset of `CXNORMA` in its block. -/
def CXNORMA : Nat := 0x28

def CXNORMA_BASE : Fld := ⟨CXNORMA, 39, 0⟩

/-- R469: offset of `CXCNT` in its block. -/
def CXCNT : Nat := 0x30

def CXCNT_RETX : Fld := ⟨CXCNT, 15, 0⟩

def CXCNT_STALE : Fld := ⟨CXCNT, 31, 16⟩

def CXCNT_DUP : Fld := ⟨CXCNT, 47, 32⟩

def CXCNT_ECN : Fld := ⟨CXCNT, 63, 48⟩

/-- R514: offset of `TWCFG` in its block. -/
def TWCFG : Nat := 0x40

def TWCFG_PARTNER : Fld := ⟨TWCFG, 15, 0⟩

def TWCFG_SPARE0 : Fld := ⟨TWCFG, 31, 16⟩

def TWCFG_SPARE1 : Fld := ⟨TWCFG, 47, 32⟩

def TWCFG_PAIREN : Fld := ⟨TWCFG, 48, 48⟩

def TWCFG_HBEN : Fld := ⟨TWCFG, 49, 49⟩

/-- R515: offset of `TWSTAT` in its block. -/
def TWSTAT : Nat := 0x48

def TWSTAT_PAIR : Fld := ⟨TWSTAT, 1, 0⟩

def TWSTAT_HBMISS : Fld := ⟨TWSTAT, 6, 4⟩

def TWSTAT_RELEASED : Fld := ⟨TWSTAT, 63, 32⟩

/-- R470: offset of `FPCFG` in its block. -/
def FPCFG (n : Nat) : Nat := 0x100 + 0x20 * n

def FPCFG_ROLE (n : Nat) : Fld := ⟨(FPCFG n), 1, 0⟩

def FPCFG_MODE (n : Nat) : Fld := ⟨(FPCFG n), 2, 2⟩

def FPCFG_LANES (n : Nat) : Fld := ⟨(FPCFG n), 3, 3⟩

def FPCFG_PFC (n : Nat) : Fld := ⟨(FPCFG n), 4, 4⟩

def FPCFG_PRIO (n : Nat) : Fld := ⟨(FPCFG n), 7, 5⟩

def FPCFG_VLANEN (n : Nat) : Fld := ⟨(FPCFG n), 8, 8⟩

def FPCFG_VLAN (n : Nat) : Fld := ⟨(FPCFG n), 20, 9⟩

def FPCFG_PEER (n : Nat) : Fld := ⟨(FPCFG n), 36, 21⟩

/-- R471: offset of `FPSTAT` in its block. -/
def FPSTAT (n : Nat) : Nat := 0x108 + 0x20 * n

def FPSTAT_STATE (n : Nat) : Fld := ⟨(FPSTAT n), 1, 0⟩

def FPSTAT_LANES (n : Nat) : Fld := ⟨(FPSTAT n), 2, 2⟩

def FPSTAT_REASON (n : Nat) : Fld := ⟨(FPSTAT n), 15, 8⟩

def FPSTAT_FECUNC (n : Nat) : Fld := ⟨(FPSTAT n), 31, 16⟩

def FPSTAT_REPLAY (n : Nat) : Fld := ⟨(FPSTAT n), 47, 32⟩

/-- R472: offset of `CXALIAS` in its block. -/
def CXALIAS (n : Nat) : Nat := 0x80000 + 0x8 * n

def CXALIAS_STATION (n : Nat) : Fld := ⟨(CXALIAS n), 15, 0⟩

def CXALIAS_VALID (n : Nat) : Fld := ⟨(CXALIAS n), 16, 16⟩

/-- R530: offset of `MBSLOT` in its block. -/
def MBSLOT (n k : Nat) : Nat := 0x0 + 0x20 * n + 0x8 * k

def MBSLOT_WORD (n k : Nat) : Fld := ⟨(MBSLOT n k), 63, 0⟩

/-- R532: offset of `GHMBOX` in its block. -/
def GHMBOX : Nat := 0x2000

def GHMBOX_HEAD : Fld := ⟨GHMBOX, 7, 0⟩

def GHMBOX_TAIL : Fld := ⟨GHMBOX, 15, 8⟩

def GHMBOX_COUNT : Fld := ⟨GHMBOX, 24, 16⟩

def GHMBOX_LOST : Fld := ⟨GHMBOX, 63, 32⟩

end R

/-- Registers of a tile block, part 0. -/
def tileRegs0 : List RegDesc := [
  /- TID R80 -/ ⟨.tile, 0x0, 0x0, 1, 0x0, 1, false, [⟨10, 0, .RO, 0x0⟩, ⟨11, 11, .RO, 0x0⟩, ⟨17, 16, .RO, 0x0⟩, ⟨26, 24, .RO, 0x0⟩, ⟨36, 32, .RO, 0x0⟩, ⟨43, 40, .RO, 0x0⟩, ⟨48, 48, .RO, 0x0⟩]⟩,
  /- TCTL R81 -/ ⟨.tile, 0x8, 0x0, 1, 0x0, 1, false, [⟨0, 0, .WO, 0x0⟩, ⟨1, 1, .RW, 0x0⟩, ⟨2, 2, .WO, 0x0⟩, ⟨3, 3, .RW, 0x1⟩, ⟨4, 4, .WO, 0x0⟩]⟩,
  /- TSTAT R82 -/ ⟨.tile, 0x10, 0x0, 1, 0x0, 1, false, [⟨2, 0, .RO, 0x0⟩, ⟨3, 3, .RO, 0x0⟩, ⟨4, 4, .RO, 0x0⟩, ⟨5, 5, .RO, 0x0⟩, ⟨6, 6, .RO, 0x0⟩, ⟨7, 7, .RO, 0x0⟩, ⟨13, 8, .RO, 0x0⟩, ⟨14, 14, .RO, 0x1⟩, ⟨36, 16, .RO, 0x0⟩]⟩,
  /- TFAULT R83 -/ ⟨.tile, 0x18, 0x0, 1, 0x0, 1, false, [⟨0, 0, .W1C, 0x0⟩, ⟨1, 1, .W1C, 0x0⟩, ⟨2, 2, .W1C, 0x0⟩, ⟨3, 3, .W1C, 0x0⟩, ⟨4, 4, .W1C, 0x0⟩, ⟨5, 5, .W1C, 0x0⟩, ⟨6, 6, .W1C, 0x0⟩, ⟨7, 7, .W1C, 0x0⟩, ⟨8, 8, .W1C, 0x0⟩, ⟨9, 9, .W1C, 0x0⟩, ⟨10, 10, .W1C, 0x0⟩, ⟨11, 11, .W1C, 0x0⟩, ⟨12, 12, .W1C, 0x0⟩, ⟨13, 13, .W1C, 0x0⟩, ⟨23, 16, .RO, 0x0⟩, ⟨31, 24, .RO, 0x0⟩, ⟨47, 32, .RO, 0x0⟩]⟩,
  /- TFADDR R84 -/ ⟨.tile, 0x20, 0x0, 1, 0x0, 1, false, [⟨20, 0, .RO, 0x0⟩, ⟨63, 24, .RO, 0x0⟩]⟩,
  /- TPROG R85 -/ ⟨.tile, 0x28, 0x0, 1, 0x0, 1, false, [⟨4, 0, .RW, 0x0⟩, ⟨5, 5, .RW, 0x0⟩, ⟨12, 8, .RW, 0x0⟩, ⟨13, 13, .RW, 0x0⟩]⟩,
  /- TPWR R575 -/ ⟨.tile, 0x30, 0x0, 1, 0x0, 1, false, [⟨2, 0, .RO, 0x0⟩, ⟨3, 3, .RO, 0x0⟩, ⟨4, 4, .RO, 0x0⟩, ⟨5, 5, .RO, 0x0⟩, ⟨7, 6, .RW, 0x0⟩, ⟨63, 32, .RO, 0x0⟩]⟩,
  /- SPCFG R126 -/ ⟨.tile, 0x100, 0x0, 1, 0x0, 1, false, [⟨7, 0, .RW, 0x0⟩, ⟨15, 8, .RW, 0x0⟩]⟩,
  /- SPGSTATE R127 -/ ⟨.tile, 0x108, 0x0, 1, 0x0, 1, false, [⟨15, 0, .RO, 0x0⟩]⟩,
  /- SPGB R128 -/ ⟨.tile, 0x110, 0x0, 1, 0x0, 1, false, [⟨4, 0, .RO, 0x0⟩, ⟨12, 8, .RO, 0x0⟩]⟩,
  /- SPPERR R129 -/ ⟨.tile, 0x118, 0x0, 1, 0x0, 1, false, [⟨15, 0, .RWS, 0x0⟩, ⟨20, 16, .RWS, 0x0⟩, ⟨31, 21, .RWS, 0x0⟩]⟩,
  /- WKBASE R130 -/ ⟨.tile, 0x400, 0x20, 16, 0x0, 1, false, [⟨20, 0, .RW, 0x0⟩, ⟨32, 32, .RW, 0x0⟩, ⟨33, 33, .RW, 0x0⟩]⟩]

/-- Registers of a tile block, part 1. -/
def tileRegs1 : List RegDesc := [
  /- WKLIM R131 -/ ⟨.tile, 0x408, 0x20, 16, 0x0, 1, false, [⟨20, 0, .RW, 0x0⟩, ⟨32, 32, .RW, 0x0⟩]⟩,
  /- WKEPOCH R132 -/ ⟨.tile, 0x410, 0x20, 16, 0x0, 1, false, [⟨15, 0, .RW, 0x0⟩, ⟨16, 16, .RO, 0x0⟩, ⟨47, 32, .RO, 0x0⟩]⟩,
  /- WKEXP R273 -/ ⟨.tile, 0x418, 0x20, 16, 0x0, 1, false, [⟨31, 0, .RW, 0x0⟩, ⟨32, 32, .RW, 0x0⟩]⟩,
  /- WKSEND R133 -/ ⟨.tile, 0x800, 0x100, 16, 0x8, 32, false, [⟨15, 0, .RW, 0x0⟩, ⟨26, 16, .RW, 0x0⟩, ⟨27, 27, .RW, 0x0⟩, ⟨30, 30, .RW, 0x0⟩, ⟨31, 31, .RW, 0x0⟩]⟩,
  /- WKLAND R134 -/ ⟨.tile, 0x1800, 0x100, 16, 0x8, 32, false, [⟨31, 0, .RO, 0x0⟩]⟩,
  /- MGANG R169 -/ ⟨.tile, 0x3000, 0x0, 1, 0x0, 1, true, [⟨1, 0, .RW, 0x0⟩, ⟨14, 8, .RW, 0x8⟩, ⟨31, 16, .RW, 0x7d0⟩]⟩,
  /- SOAKCFG R170 -/ ⟨.tile, 0x3008, 0x0, 1, 0x0, 1, false, [⟨12, 0, .RW, 0x200⟩, ⟨29, 16, .RW, 0x800⟩]⟩,
  /- MSTAT R171 -/ ⟨.tile, 0x3010, 0x0, 1, 0x0, 1, false, [⟨1, 0, .RO, 0x0⟩, ⟨2, 2, .RO, 0x0⟩, ⟨3, 3, .RO, 0x0⟩, ⟨4, 4, .RO, 0x0⟩, ⟨7, 5, .RO, 0x0⟩, ⟨12, 8, .RO, 0x0⟩, ⟨19, 16, .RO, 0x0⟩, ⟨31, 20, .RO, 0x0⟩, ⟨63, 32, .RO, 0x0⟩]⟩,
  /- NSCALE R217 -/ ⟨.tile, 0x3200, 0x0, 1, 0x0, 1, true, [⟨31, 0, .RW, 0x0⟩]⟩,
  /- NSEED R218 -/ ⟨.tile, 0x3208, 0x0, 1, 0x0, 1, true, [⟨63, 0, .RW, 0x0⟩]⟩,
  /- CONECFG R219 -/ ⟨.tile, 0x3210, 0x0, 1, 0x0, 1, true, [⟨0, 0, .RW, 0x1⟩, ⟨7, 4, .RW, 0x6⟩, ⟨11, 8, .RW, 0x6⟩, ⟨15, 12, .RW, 0xe⟩, ⟨31, 16, .RW, 0x40⟩]⟩,
  /- CONESTAT R220 -/ ⟨.tile, 0x3218, 0x0, 1, 0x0, 1, false, [⟨31, 0, .RO, 0x0⟩, ⟨47, 32, .RO, 0x0⟩]⟩]

/-- Registers of a tile block, part 2. -/
def tileRegs2 : List RegDesc := [
  /- NSCLR R221 -/ ⟨.tile, 0x3220, 0x0, 1, 0x0, 1, false, [⟨31, 0, .WO, 0x0⟩, ⟨32, 32, .WO, 0x0⟩]⟩,
  /- NSLOT R222 -/ ⟨.tile, 0x3300, 0x8, 32, 0x0, 1, true, [⟨31, 0, .RW, 0x0⟩, ⟨34, 32, .RW, 0x0⟩, ⟨47, 40, .RW, 0x7f⟩, ⟨48, 48, .RW, 0x0⟩, ⟨49, 49, .RW, 0x0⟩]⟩,
  /- NSTAT R223 -/ ⟨.tile, 0x3400, 0x8, 32, 0x0, 1, true, [⟨7, 0, .RO, 0x80⟩, ⟨31, 16, .RO, 0x0⟩, ⟨47, 32, .RO, 0x0⟩]⟩,
  /- CONEH R224 -/ ⟨.tile, 0x3600, 0x80, 6, 0x8, 16, false, [⟨31, 0, .RO, 0x0⟩]⟩,
  /- CONEX R225 -/ ⟨.tile, 0x3a00, 0x8, 6, 0x0, 1, false, [⟨31, 0, .RO, 0x7f800000⟩, ⟨63, 32, .RO, 0x0⟩]⟩,
  /- CONEAREA R691 -/ ⟨.tile, 0x3b00, 0x0, 1, 0x0, 1, true, [⟨39, 0, .RW, 0x0⟩, ⟨55, 40, .RW, 0x0⟩, ⟨63, 56, .RW, 0x0⟩]⟩,
  /- CONETAG R692 -/ ⟨.tile, 0x3b08, 0x0, 1, 0x0, 1, true, [⟨31, 0, .RW, 0x0⟩, ⟨47, 32, .RW, 0x0⟩, ⟨59, 48, .RW, 0x1⟩, ⟨60, 60, .RW, 0x0⟩]⟩,
  /- CONENEXT R693 -/ ⟨.tile, 0x3b10, 0x0, 1, 0x0, 1, true, [⟨31, 0, .RW, 0x0⟩]⟩,
  /- PREDSLOT R416 -/ ⟨.tile, 0x3c00, 0x8, 16, 0x0, 1, true, [⟨31, 0, .RW, 0x0⟩, ⟨34, 32, .RW, 0x2⟩, ⟨35, 35, .RW, 0x0⟩, ⟨63, 48, .RW, 0x10⟩]⟩,
  /- PMISS R417 -/ ⟨.tile, 0x3c80, 0x8, 16, 0x0, 1, false, [⟨15, 0, .RO, 0x0⟩, ⟨31, 16, .RO, 0x0⟩]⟩,
  /- CNT R274 -/ ⟨.tile, 0x4000, 0x8, 64, 0x0, 1, true, [⟨31, 0, .RO, 0x0⟩]⟩,
  /- CNTBOUND R275 -/ ⟨.tile, 0x4200, 0x8, 64, 0x0, 1, true, [⟨5, 0, .RW, 0x0⟩, ⟨15, 8, .RW, 0x0⟩, ⟨16, 16, .RW, 0x0⟩]⟩]

/-- Registers of a tile block, part 3. -/
def tileRegs3 : List RegDesc := [
  /- CNTLAST R276 -/ ⟨.tile, 0x4400, 0x8, 64, 0x0, 1, true, [⟨20, 0, .RO, 0x0⟩, ⟨23, 21, .RO, 0x7⟩, ⟨30, 24, .RO, 0x0⟩, ⟨31, 31, .RO, 0x0⟩]⟩,
  /- TBAR R277 -/ ⟨.tile, 0x4600, 0x8, 48, 0x0, 1, true, [⟨0, 0, .RW, 0x0⟩, ⟨15, 8, .RO, 0xff⟩, ⟨23, 16, .RO, 0xff⟩, ⟨24, 24, .RO, 0x0⟩]⟩,
  /- BVWAIT R278 -/ ⟨.tile, 0x4780, 0x8, 7, 0x0, 1, false, [⟨7, 0, .RO, 0x0⟩, ⟨9, 8, .RO, 0x0⟩, ⟨47, 16, .RO, 0x0⟩]⟩,
  /- CHROUTE R279 -/ ⟨.tile, 0x4800, 0x8, 64, 0x0, 1, false, [⟨15, 0, .RW, 0x0⟩, ⟨26, 16, .RW, 0x0⟩, ⟨30, 27, .RW, 0x0⟩, ⟨31, 31, .RW, 0x0⟩, ⟨47, 32, .RW, 0x0⟩, ⟨48, 48, .RW, 0x0⟩, ⟨49, 49, .RO, 0x0⟩, ⟨50, 50, .RW, 0x0⟩]⟩,
  /- CHCR R280 -/ ⟨.tile, 0x4a00, 0x8, 64, 0x0, 1, false, [⟨8, 0, .RW, 0x0⟩, ⟨28, 16, .RW, 0x0⟩, ⟨43, 32, .RW, 0x0⟩, ⟨60, 48, .RW, 0x0⟩]⟩,
  /- QCFG R281 -/ ⟨.tile, 0x4c00, 0x20, 16, 0x0, 1, false, [⟨20, 0, .RW, 0x0⟩, ⟨31, 24, .RW, 0x0⟩, ⟨34, 32, .RW, 0x0⟩, ⟨35, 35, .RW, 0x0⟩, ⟨36, 36, .RW, 0x0⟩, ⟨45, 40, .RW, 0x0⟩, ⟨46, 46, .RW, 0x0⟩]⟩,
  /- QPAY R282 -/ ⟨.tile, 0x4c08, 0x20, 16, 0x0, 1, false, [⟨20, 0, .RW, 0x0⟩, ⟨36, 24, .RW, 0x0⟩]⟩,
  /- QPTR R283 -/ ⟨.tile, 0x4c10, 0x20, 16, 0x0, 1, false, [⟨7, 0, .RO, 0x0⟩, ⟨15, 8, .RO, 0x0⟩, ⟨24, 16, .RO, 0x0⟩, ⟨28, 25, .RO, 0x0⟩, ⟨43, 32, .RO, 0x0⟩, ⟨59, 48, .RO, 0x0⟩, ⟨60, 60, .RO, 0x0⟩]⟩,
  /- QEPOCH R284 -/ ⟨.tile, 0x4c18, 0x20, 16, 0x0, 1, false, [⟨15, 0, .RO, 0x0⟩, ⟨16, 16, .RO, 0x1⟩, ⟨47, 32, .RO, 0x0⟩]⟩,
  /- CNTST R654 -/ ⟨.tile, 0x4e00, 0x8, 64, 0x0, 1, true, [⟨15, 0, .RO, 0x0⟩, ⟨31, 16, .RO, 0x0⟩]⟩]

/-- Every register of a tile block. -/
def tileRegs : List RegDesc := tileRegs0 ++ tileRegs1 ++ tileRegs2 ++ tileRegs3

/-- Registers of a die block, part 0. -/
def dieRegs0 : List RegDesc := [
  /- DBAR R286 -/ ⟨.die, 0x1000, 0x8, 32, 0x0, 1, false, [⟨8, 0, .RW, 0x0⟩, ⟨24, 16, .RO, 0x0⟩, ⟨39, 32, .RO, 0xff⟩, ⟨63, 63, .RW, 0x0⟩]⟩,
  /- PBAR R287 -/ ⟨.die, 0x1200, 0x8, 16, 0x0, 1, false, [⟨8, 0, .RW, 0x0⟩, ⟨23, 16, .RW, 0x0⟩, ⟨31, 24, .RO, 0xff⟩, ⟨40, 32, .RO, 0x0⟩, ⟨48, 48, .RW, 0x0⟩, ⟨49, 49, .RW, 0x0⟩, ⟨50, 50, .RW, 0x0⟩]⟩,
  /- RSCTL R327 -/ ⟨.die, 0x2000, 0x0, 1, 0x0, 1, false, [⟨0, 0, .WO, 0x0⟩, ⟨1, 1, .RO, 0x0⟩, ⟨2, 2, .RO, 0x0⟩, ⟨12, 8, .RW, 0x0⟩, ⟨19, 16, .RW, 0x0⟩, ⟨30, 24, .RW, 0x0⟩]⟩,
  /- RSSTAT R328 -/ ⟨.die, 0x2008, 0x0, 1, 0x0, 1, false, [⟨0, 0, .RO, 0x1⟩, ⟨1, 1, .W1C, 0x0⟩, ⟨2, 2, .RO, 0x0⟩, ⟨12, 8, .RO, 0x0⟩, ⟨19, 16, .RO, 0x0⟩, ⟨47, 32, .RWS, 0x0⟩]⟩,
  /- RSENT R329 -/ ⟨.die, 0x2100, 0x8, 64, 0x0, 1, false, [⟨4, 0, .RW, 0x0⟩, ⟨11, 8, .RW, 0x0⟩, ⟨16, 12, .RW, 0x0⟩, ⟨21, 17, .RW, 0x0⟩, ⟨25, 22, .RW, 0x0⟩, ⟨29, 26, .RW, 0x0⟩, ⟨32, 30, .RW, 0x0⟩, ⟨34, 33, .RW, 0x0⟩, ⟨35, 35, .RW, 0x0⟩]⟩,
  /- ERLINK R330 -/ ⟨.die, 0x2400, 0x20, 10, 0x0, 1, false, [⟨1, 0, .RO, 0x0⟩, ⟨6, 4, .RO, 0x0⟩, ⟨11, 8, .RO, 0x0⟩, ⟨13, 12, .RO, 0x0⟩, ⟨23, 16, .RO, 0x0⟩, ⟨26, 24, .RO, 0x7⟩, ⟨39, 32, .RO, 0x0⟩]⟩,
  /- ERCNT R331 -/ ⟨.die, 0x2408, 0x20, 10, 0x0, 1, false, [⟨15, 0, .RWS, 0x0⟩, ⟨31, 16, .RWS, 0x0⟩, ⟨36, 32, .RO, 0x0⟩]⟩,
  /- ERPEER R332 -/ ⟨.die, 0x2410, 0x20, 10, 0x0, 1, false, [⟨63, 0, .RO, 0x0⟩]⟩,
  /- ERWIN R333 -/ ⟨.die, 0x2600, 0x20, 10, 0x8, 4, false, [⟨18, 0, .RW, 0x0⟩, ⟨50, 32, .RW, 0x0⟩, ⟨51, 51, .RW, 0x0⟩, ⟨52, 52, .RW, 0x0⟩, ⟨53, 53, .RW, 0x0⟩]⟩,
  /- DLEASE R569 -/ ⟨.die, 0x3000, 0x0, 1, 0x0, 1, false, [⟨31, 0, .RO, 0x0⟩, ⟨32, 32, .RO, 0x0⟩, ⟨33, 33, .RO, 0x0⟩, ⟨34, 34, .RO, 0x0⟩, ⟨35, 35, .RW, 0x0⟩, ⟨36, 36, .RO, 0x0⟩]⟩,
  /- DPWR R570 -/ ⟨.die, 0x3008, 0x0, 1, 0x0, 1, false, [⟨1, 0, .RO, 0x0⟩, ⟨3, 2, .RO, 0x0⟩, ⟨5, 4, .RO, 0x0⟩, ⟨7, 6, .RO, 0x0⟩, ⟨10, 8, .RO, 0x1⟩]⟩,
  /- DRESET R576 -/ ⟨.die, 0x3010, 0x0, 1, 0x0, 1, false, [⟨0, 0, .WO, 0x0⟩, ⟨1, 1, .RO, 0x0⟩, ⟨63, 32, .RO, 0x0⟩]⟩]

/-- Registers of a die block, part 1. -/
def dieRegs1 : List RegDesc := [
  /- DMPCFG R571 -/ ⟨.die, 0x3100, 0x0, 1, 0x0, 1, false, [⟨0, 0, .RW, 0x1⟩, ⟨1, 1, .RW, 0x1⟩, ⟨4, 2, .RW, 0x6⟩]⟩,
  /- DMPSTAT R572 -/ ⟨.die, 0x3108, 0x0, 1, 0x0, 1, false, [⟨15, 0, .RO, 0x0⟩, ⟨31, 16, .RO, 0x0⟩, ⟨40, 32, .RO, 0x0⟩, ⟨49, 41, .RO, 0x0⟩, ⟨63, 50, .RO, 0x0⟩]⟩,
  /- DMPTHR R573 -/ ⟨.die, 0x3110, 0x0, 1, 0x0, 1, false, [⟨3, 0, .RO, 0x0⟩, ⟨11, 4, .RO, 0x0⟩, ⟨12, 12, .RO, 0x0⟩, ⟨13, 13, .RO, 0x0⟩, ⟨14, 14, .RO, 0x0⟩]⟩,
  /- DCQ R530 -/ ⟨.die, 0x6000, 0x20, 64, 0x8, 4, false, [⟨63, 0, .RO, 0x0⟩]⟩,
  /- DCQPTR R532 -/ ⟨.die, 0x6800, 0x0, 1, 0x0, 1, false, [⟨7, 0, .RW, 0x0⟩, ⟨15, 8, .RO, 0x0⟩, ⟨24, 16, .RO, 0x0⟩, ⟨63, 32, .RWS, 0x0⟩]⟩,
  /- DCMD R574 -/ ⟨.die, 0xf000, 0x40, 2, 0x8, 4, false, [⟨63, 0, .WO, 0x0⟩]⟩,
  /- DCMDST R574 -/ ⟨.die, 0xf020, 0x40, 2, 0x0, 1, false, [⟨31, 0, .RO, 0x0⟩, ⟨34, 32, .RO, 0x0⟩, ⟨35, 35, .RO, 0x0⟩]⟩]

/-- Every register of a die block. -/
def dieRegs : List RegDesc := dieRegs0 ++ dieRegs1

/-- Registers of a ld block, part 0. -/
def ldRegs0 : List RegDesc := [
  /- DLEASE R569 -/ ⟨.ld, 0x3000, 0x0, 1, 0x0, 1, false, [⟨31, 0, .RO, 0x0⟩, ⟨32, 32, .RO, 0x0⟩, ⟨33, 33, .RO, 0x0⟩, ⟨34, 34, .RO, 0x0⟩, ⟨35, 35, .RW, 0x0⟩, ⟨36, 36, .RO, 0x0⟩]⟩,
  /- DCMD R574 -/ ⟨.ld, 0xf000, 0x40, 2, 0x8, 4, false, [⟨63, 0, .WO, 0x0⟩]⟩,
  /- DCMDST R574 -/ ⟨.ld, 0xf020, 0x40, 2, 0x0, 1, false, [⟨31, 0, .RO, 0x0⟩, ⟨34, 32, .RO, 0x0⟩, ⟨35, 35, .RO, 0x0⟩]⟩,
  /- CXCFG R463 -/ ⟨.ld, 0x0, 0x0, 1, 0x0, 1, false, [⟨15, 0, .RW, 0x0⟩, ⟨31, 16, .RW, 0x0⟩, ⟨47, 32, .RW, 0xc4a5⟩, ⟨48, 48, .RW, 0x0⟩]⟩,
  /- CXPREFIX R464 -/ ⟨.ld, 0x8, 0x0, 1, 0x0, 1, false, [⟨63, 0, .RW, 0x0⟩]⟩,
  /- CXEPOCH R465 -/ ⟨.ld, 0x10, 0x0, 1, 0x0, 1, false, [⟨15, 0, .RW, 0x0⟩, ⟨47, 16, .RW, 0x0⟩]⟩,
  /- CXTREE R466 -/ ⟨.ld, 0x18, 0x0, 1, 0x0, 1, false, [⟨15, 0, .RW, 0x0⟩, ⟨21, 16, .RW, 0x0⟩, ⟨22, 22, .RW, 0x0⟩]⟩,
  /- CXNORM R467 -/ ⟨.ld, 0x20, 0x0, 1, 0x0, 1, false, [⟨31, 0, .RW, 0x7f800000⟩, ⟨39, 32, .RW, 0x0⟩, ⟨43, 40, .RW, 0x0⟩, ⟨44, 44, .RW, 0x0⟩, ⟨45, 45, .RO, 0x0⟩]⟩,
  /- CXNORMA R468 -/ ⟨.ld, 0x28, 0x0, 1, 0x0, 1, false, [⟨39, 0, .RW, 0x0⟩]⟩,
  /- CXCNT R469 -/ ⟨.ld, 0x30, 0x0, 1, 0x0, 1, false, [⟨15, 0, .RWS, 0x0⟩, ⟨31, 16, .RWS, 0x0⟩, ⟨47, 32, .RWS, 0x0⟩, ⟨63, 48, .RWS, 0x0⟩]⟩,
  /- TWCFG R514 -/ ⟨.ld, 0x40, 0x0, 1, 0x0, 1, false, [⟨15, 0, .RW, 0x0⟩, ⟨31, 16, .RW, 0x0⟩, ⟨47, 32, .RW, 0x0⟩, ⟨48, 48, .RW, 0x0⟩, ⟨49, 49, .RW, 0x0⟩]⟩,
  /- TWSTAT R515 -/ ⟨.ld, 0x48, 0x0, 1, 0x0, 1, false, [⟨1, 0, .RO, 0x0⟩, ⟨6, 4, .RO, 0x0⟩, ⟨63, 32, .RO, 0xffffffff⟩]⟩]

/-- Registers of a ld block, part 1. -/
def ldRegs1 : List RegDesc := [
  /- FPCFG R470 -/ ⟨.ld, 0x100, 0x20, 2, 0x0, 1, false, [⟨1, 0, .RW, 0x0⟩, ⟨2, 2, .RW, 0x0⟩, ⟨3, 3, .RW, 0x0⟩, ⟨4, 4, .RW, 0x0⟩, ⟨7, 5, .RW, 0x0⟩, ⟨8, 8, .RW, 0x0⟩, ⟨20, 9, .RW, 0x0⟩, ⟨36, 21, .RW, 0x0⟩]⟩,
  /- FPSTAT R471 -/ ⟨.ld, 0x108, 0x20, 2, 0x0, 1, false, [⟨1, 0, .RO, 0x3⟩, ⟨2, 2, .RO, 0x0⟩, ⟨15, 8, .RO, 0x0⟩, ⟨31, 16, .RWS, 0x0⟩, ⟨47, 32, .RWS, 0x0⟩]⟩,
  /- CXALIAS R472 -/ ⟨.ld, 0x80000, 0x8, 65536, 0x0, 1, false, [⟨15, 0, .RW, 0x0⟩, ⟨16, 16, .RW, 0x0⟩]⟩]

/-- Every register of a ld block. -/
def ldRegs : List RegDesc := ldRegs0 ++ ldRegs1

/-- Registers of a hd block, part 0. -/
def hdRegs0 : List RegDesc := [
  /- DLEASE R569 -/ ⟨.hd, 0x3000, 0x0, 1, 0x0, 1, false, [⟨31, 0, .RO, 0x0⟩, ⟨32, 32, .RO, 0x0⟩, ⟨33, 33, .RO, 0x0⟩, ⟨34, 34, .RO, 0x0⟩, ⟨35, 35, .RW, 0x0⟩, ⟨36, 36, .RO, 0x0⟩]⟩,
  /- DCMD R574 -/ ⟨.hd, 0xf000, 0x40, 2, 0x8, 4, false, [⟨63, 0, .WO, 0x0⟩]⟩,
  /- DCMDST R574 -/ ⟨.hd, 0xf020, 0x40, 2, 0x0, 1, false, [⟨31, 0, .RO, 0x0⟩, ⟨34, 32, .RO, 0x0⟩, ⟨35, 35, .RO, 0x0⟩]⟩]

/-- Every register of a hd block. -/
def hdRegs : List RegDesc := hdRegs0

/-- Registers of a mc block, part 0. -/
def mcRegs0 : List RegDesc := [
  /- MCCFG R368 -/ ⟨.mc, 0x0, 0x0, 1, 0x0, 1, false, [⟨0, 0, .RW, 0x0⟩, ⟨1, 1, .RW, 0x0⟩]⟩,
  /- MCSTAT R369 -/ ⟨.mc, 0x8, 0x0, 1, 0x0, 1, false, [⟨1, 0, .RO, 0x0⟩, ⟨2, 2, .RO, 0x0⟩, ⟨3, 3, .RO, 0x0⟩, ⟨4, 4, .RO, 0x0⟩, ⟨15, 8, .RO, 0x0⟩, ⟨31, 16, .RWS, 0x0⟩]⟩,
  /- MCERR R370 -/ ⟨.mc, 0x10, 0x0, 1, 0x0, 1, false, [⟨15, 0, .RWS, 0x0⟩, ⟨31, 16, .RWS, 0x0⟩, ⟨37, 32, .RWS, 0x0⟩, ⟨38, 38, .RWS, 0x0⟩]⟩,
  /- MCEADDR R371 -/ ⟨.mc, 0x18, 0x0, 1, 0x0, 1, false, [⟨39, 0, .RWS, 0x0⟩, ⟨41, 40, .RWS, 0x0⟩]⟩,
  /- MCSHARD R372 -/ ⟨.mc, 0x1000, 0x8, 512, 0x0, 1, false, [⟨63, 0, .RW, 0x0⟩]⟩,
  /- MCPROT R372 -/ ⟨.mc, 0x2000, 0x8, 512, 0x0, 1, false, [⟨63, 0, .RO, 0x0⟩]⟩,
  /- UUPLAN R373 -/ ⟨.mc, 0x4000, 0x0, 1, 0x0, 1, false, [⟨39, 0, .RW, 0x0⟩, ⟨55, 40, .RW, 0x0⟩]⟩,
  /- UURULE R374 -/ ⟨.mc, 0x4008, 0x0, 1, 0x0, 1, false, [⟨39, 0, .RW, 0x0⟩]⟩,
  /- UUHIST R375 -/ ⟨.mc, 0x4010, 0x0, 1, 0x0, 1, false, [⟨39, 0, .RW, 0x0⟩, ⟨51, 40, .RW, 0x0⟩, ⟨63, 52, .RW, 0x0⟩]⟩,
  /- UURES R376 -/ ⟨.mc, 0x4018, 0x0, 1, 0x0, 1, false, [⟨39, 0, .RW, 0x0⟩]⟩,
  /- UUNOTIFY R377 -/ ⟨.mc, 0x4020, 0x0, 1, 0x0, 1, false, [⟨10, 0, .RW, 0x0⟩, ⟨14, 11, .RW, 0x0⟩, ⟨15, 15, .RW, 0x0⟩, ⟨31, 16, .RW, 0x0⟩]⟩,
  /- UUCLIP R378 -/ ⟨.mc, 0x4028, 0x0, 1, 0x0, 1, false, [⟨31, 0, .RW, 0x3f800000⟩]⟩]

/-- Registers of a mc block, part 1. -/
def mcRegs1 : List RegDesc := [
  /- UUGATE R379 -/ ⟨.mc, 0x4030, 0x0, 1, 0x0, 1, false, [⟨31, 0, .RW, 0x0⟩, ⟨32, 32, .RW, 0x0⟩, ⟨33, 33, .RW, 0x0⟩]⟩,
  /- UUSTAT R380 -/ ⟨.mc, 0x4038, 0x0, 1, 0x0, 1, false, [⟨2, 0, .RO, 0x0⟩, ⟨3, 3, .RO, 0x0⟩, ⟨4, 4, .W1C, 0x0⟩, ⟨31, 16, .RO, 0x0⟩, ⟨63, 32, .RW, 0xffffffff⟩]⟩,
  /- UUCNT R381 -/ ⟨.mc, 0x4040, 0x0, 1, 0x0, 1, false, [⟨31, 0, .RWS, 0x0⟩, ⟨63, 32, .RWS, 0x0⟩]⟩,
  /- TWREGION R511 -/ ⟨.mc, 0x5000, 0x0, 1, 0x0, 1, false, [⟨39, 0, .RW, 0x0⟩, ⟨40, 40, .RW, 0x0⟩]⟩,
  /- TWSIZE R512 -/ ⟨.mc, 0x5008, 0x0, 1, 0x0, 1, false, [⟨14, 0, .RW, 0x0⟩, ⟨39, 16, .RW, 0x0⟩, ⟨63, 40, .RW, 0x0⟩]⟩,
  /- TWCOPY R513 -/ ⟨.mc, 0x5010, 0x0, 1, 0x0, 1, false, [⟨1, 0, .RO, 0x2⟩, ⟨2, 2, .RW, 0x0⟩, ⟨3, 3, .RO, 0x0⟩, ⟨10, 8, .RO, 0x0⟩, ⟨30, 16, .RO, 0x0⟩, ⟨63, 32, .RO, 0xffffffff⟩]⟩]

/-- Every register of a mc block. -/
def mcRegs : List RegDesc := mcRegs0 ++ mcRegs1

/-- Registers of a gh block, part 0. -/
def ghRegs0 : List RegDesc := [
  /- MBSLOT R530 -/ ⟨.gh, 0x0, 0x20, 256, 0x8, 4, false, [⟨63, 0, .RO, 0x0⟩]⟩,
  /- GHMBOX R532 -/ ⟨.gh, 0x2000, 0x0, 1, 0x0, 1, false, [⟨7, 0, .RW, 0x0⟩, ⟨15, 8, .RO, 0x0⟩, ⟨24, 16, .RO, 0x0⟩, ⟨63, 32, .RWS, 0x0⟩]⟩]

/-- Every register of a gh block. -/
def ghRegs : List RegDesc := ghRegs0

/-- The registers of a block. -/
def Block.regs : Block → List RegDesc
  | .tile => tileRegs
  | .die => dieRegs
  | .mc => mcRegs
  | .ld => ldRegs
  | .hd => hdRegs
  | .gh => ghRegs

end Sys2Proof.Machine
end

