-- ==== Sys2Proof/Machine/State.lean ====
section
/-!
DEFINITION. The state of the block as plain data. Sparse maps (registers, memory, tiles) are lists of a key and a value
with strictly rising keys and no entry equal to the default of its key, so that equal maps are equal lists
(`Sys2Proof/Machine/Map.lean` has their operations). Every memory-mapped register has its one home in `State.regs`, keyed by
its package address (R15); a key that is not listed reads as the reset value of the register's table. What R79–R134, R216–R225
and R272–R287 show of the structures below (occupancies, waits, counts) is computed when the register is read.
-/

namespace Sys2Proof.Machine

/-- Why the machine would stop on a command. No meaning of this model stops with a fault: what a command may not do the part
itself answers (with a status, a fault bit of a tile or no effect). -/
inductive Fault where
  /-- Nothing raises it: every command has an effect or the answer that the manual gives. Safe. -/
  | none
  deriving DecidableEq, Repr

/-- Why a command has no meaning in the model. -/
inductive Refusal where
  /-- Raised by the dispatcher alone, for a command that has no meaning yet, by its name. Safe. -/
  | notModelled (mnemonic : String)
  deriving DecidableEq, Repr

/-- The two grades (R2, R4). -/
inductive Grade where
  | cg2048
  | cg1920
  deriving DecidableEq, Repr

/-! ### Tiles -/

/-- One entry of a loop stack (R631). -/
structure LoopEnt where
  start : Nat
  stop : Nat
  left : Nat
  deriving DecidableEq, Repr

/-- What a tile holds once per context beside its registers in the tile block (R60, R63). DESIGN CHOICE (log 6). -/
structure Ctx where
  s : List (Nat × Word) := []
  a : List (Nat × Word) := []
  v : List (Nat × Vec) := []
  p : List (Nat × Pred) := []
  idx : Nat := 0
  last : Nat := 0
  loops : List LoopEnt := []
  deriving DecidableEq, Repr

/-- A range of a tile's own scratchpad that an instruction reads or writes (R54, R55). -/
structure Range where
  lo : Nat
  len : Nat
  write : Bool
  deriving DecidableEq, Repr

/-- What the scoreboard keeps of an instruction (R53): the registers it reads and writes (`s`n as n, `a`n as 64 + n, `v`n as
80 + n, `p`n as 112 + n), the ranges it holds, and whether it touches the tile's own register block. -/
structure Foot where
  reads : List Nat := []
  writes : List Nat := []
  ranges : List Range := []
  own : Bool := false
  deriving DecidableEq, Repr

/-- An instruction in an engine queue (R50): issue number, engine, context, offset, scoreboard entry, the counter and value of
its wait field read at issue (R620), and the scalars and the descriptor that it read at issue (R679, R742). -/
structure Queued where
  id : Nat
  instr : Instr
  eng : Engine
  ctx : Nat
  pc : Nat
  foot : Foot
  wait : Option (Nat × Nat)
  vals : List Word
  desc : Option Desc
  deriving DecidableEq, Repr

/-- What holds a tile's sequencer (R634, R638, R639, R645, R646, R649). -/
inductive SeqHold where
  /-- CWAIT on a counter for a value; the long-wait flag. -/
  | cwait (cnt val : Nat) (long : Bool)
  /-- BARR stalled under R238 or R240, entering generation `gen`; then its W, B, K and L flags. -/
  | barr (grp gen : Nat) (w b k long : Bool)
  /-- A wait for generation `gen` of a group; B, K and L flags. -/
  | bwait (grp gen : Nat) (b k long : Bool)
  | fence
  | ctx
  | halt
  deriving DecidableEq, Repr

/-- A row of the gather buffer (R93–R98): scratchpad row number (offset div 64), dirty-byte mask, dirty data, whether the entry
holds the whole row, and its owner marks. -/
structure GbEntry where
  row : Nat
  mask : BitVec 64
  data : BitVec 512
  whole : Bool
  sc : Bool
  qp : Bool
  deriving DecidableEq, Repr

/-- A panel set in a slot (R135, R144): format code, panel bytes and scale bytes of the low and high half. -/
structure PanelSet where
  fmt : Nat
  low : List Byte
  high : List Byte
  lowScale : List Byte
  highScale : List Byte
  deriving DecidableEq, Repr

/-- A matrix multiply that has its operands (R679–R682). -/
structure MmulJob where
  ctx : Nat
  pc : Nat
  cnt : Option Nat
  sub : Nat
  first : Nat
  rows : Nat
  panels : Nat
  afmt : Nat
  pfmt : Nat
  accum : Bool
  mark : Bool
  /-- MPRED: the predictor slot, and whether the pass is final. -/
  pred : Option (Nat × Bool)
  /-- The held panel set and its slot (R681). -/
  held : Option PanelSet
  heldSlot : Option Nat
  /-- Offsets and bytes of the A operand and of the low and high panel ranges, scale planes included (R680). -/
  aOff : Nat
  bOff : Nat
  cOff : Nat
  aData : List Byte
  bData : List Byte
  cData : List Byte
  deriving DecidableEq, Repr

/-- A DMA descriptor that has dispatched (R661). `op` is its kind as in DMAX (0 DMAL, 1 DMAS, 2 DMAR, 5 DMAF); `base` the block or
element index; `ein` and `eout` the error slots (R670); `src` the source it has read; `buf` the pieces of HBM data that it collects;
`toRead` (address, length, offset) and `toWrite` what it has not yet asked for; `busy` the requests under way; `worst` the worst status
so far; `sent` the rows a DMAF has sent; `ready` that it has computed what it writes. -/
structure DmaJob where
  op : Nat
  desc : Desc
  base : Nat := 0
  ein : Nat := 0
  eout : Nat := 0
  src : List Byte := []
  buf : List (Nat × List Byte) := []
  toRead : List (Nat × Nat × Nat) := []
  toWrite : List HbmReq := []
  busy : Nat := 0
  worst : Nat := 0
  sent : Nat := 0
  ready : Bool := false
  deriving DecidableEq, Repr

/-- What a dispatched and not completed operation still has to do. -/
inductive FlightKind where
  | mpanel (slot : Nat) (ps : PanelSet)
  | mmul (j : MmulJob)
  | batch (js : List MmulJob)
  | predMark (j : MmulJob)
  | mdrain (off : Nat) (data : List Byte) (scaleOff : Nat) (scales : List Byte)
  /-- What a set operation writes when it completes (offset, bytes); for an SGATHER the remote elements to ask for (address, output
  offset), those asked for, the element size and the worst status. -/
  | setOp (ws : List (Nat × List Byte)) (todo : List (Nat × Nat)) (pend esz worst : Nat)
  /-- The records that a CONE has read. -/
  | cone (recs : List Byte)
  | dma (j : DmaJob)
  | dmax (rest : Nat) (next : Nat) (v0 : Nat)
  | sendWait (ch : Nat) (d : Desc) (payload : List Byte) (grp : Option Nat) (worst : Nat)
  | recv (q : Nat) (dst : Nat) (reg : Nat) (long : Bool)
  | wclose (w : Nat)
  | soak (left : Nat)
  deriving DecidableEq, Repr

/-- An operation that has dispatched and not completed: issue number, engine, context, instruction offset, what the scoreboard
still keeps of it, its completion counter, and what is left of it. -/
structure Flight where
  id : Nat
  eng : Engine
  ctx : Nat
  pc : Nat
  foot : Foot
  cnt : Option Nat
  kind : FlightKind
  deriving DecidableEq, Repr

/-- A signal stalled at a counter bound (R233). -/
structure Stalled where
  ctx : Nat
  cnt : Nat
  code : Nat
  eng : Engine
  pc : Nat
  deriving DecidableEq, Repr

/-- A remote write, send or contribution of which some packets have not been answered (R121, R240, R261): the requester's tag,
packets left, worst code so far, the counter to signal, the channel and the payload units that a rejection returns (R746), and
the transfers of one instruction with which it completes together (R432), and the package address of its first byte (R84). -/
structure Outst where
  tag : Nat
  ctx : Nat
  pc : Nat
  eng : Engine
  left : Nat
  worst : Nat
  cnt : Option Nat
  chan : Option Nat
  units : Nat
  grp : Option Nat
  /-- It leaves the device (R661). -/
  off : Bool := false
  addr : Nat := 0
  deriving DecidableEq, Repr

/-- An outstanding remote read of at most 4 KiB (R112): tag, bytes, landing offset, flight and the package address that it reads. -/
structure OutRead where
  tag : Nat
  len : Nat
  off : Nat
  flight : Nat
  addr : Nat := 0
  deriving DecidableEq, Repr

/-- A descriptor in the hold buffer (R255–R257): the message as it will become visible, its payload and pad in 64 B units, the
wicket and sender slot whose landed count it awaits (slot 32 where no slot names the sender), and whether the wicket has closed
or reopened meanwhile. -/
structure HeldDesc where
  msg : Msg
  units : Nat
  pad : Nat
  wicket : Nat
  slot : Nat
  short : Bool
  deriving DecidableEq, Repr

/-- A message that is visible in, or received from, a receive queue and not released (R251): queue, sender, channel, the
status its RECV writes, its payload and pad in 64 B units, whether a receive has taken it. -/
structure QMsg where
  q : Nat
  sender : Sender
  chan : Nat
  status : Nat
  units : Nat
  pad : Nat
  received : Bool
  deriving DecidableEq, Repr

/-- Credit of a channel that has been freed and not returned (R251). -/
structure Freed where
  q : Nat
  sender : Sender
  chan : Nat
  slots : Nat
  units : Nat
  deriving DecidableEq, Repr

/-- A basin bucket's state beside its table entry (R264, R267): queue, bucket, contributions accepted since it opened, whether
its zeroing still runs, whether its conversion is due. -/
structure Bucket where
  q : Nat
  b : Nat
  accepted : Nat
  zeroing : Bool
  due : Bool
  deriving DecidableEq, Repr

/-- An entry of the merge table (R113, R306): row, and how many requesters it holds. -/
structure MergeEnt where
  row : Nat
  n : Nat
  deriving DecidableEq, Repr

/-- Who asked for a read that a merge entry serves (R306, R308): a tile, by number and tag, or a unit whose packet has reached the port, at
its position. -/
inductive ReadBy where
  | tile (src tag : Nat)
  | packet (die row col : Nat) (p : Packet)
  deriving DecidableEq, Repr

/-- A read that merge entries serve and that has not been answered: who asked, the rows whose entries it awaits, and its data as the bank
accesses gave them (R113). DESIGN CHOICE (log 79). -/
structure MergedRead where
  who : ReadBy
  rows : List Nat
  data : List Byte
  deriving DecidableEq, Repr

/-- How the array or the vector lanes of a tile are clocked (R158–R165). -/
inductive SoakPhase where
  | gated
  | full
  | hold
  | rampDown
  | rampUp
  deriving DecidableEq, Repr

/-- A tile (R37, R63), by logical number. The packet held at its ejection port (R116) is `port`. -/
structure Tile where
  c0 : Ctx := {}
  c1 : Ctx := {}
  fbuf : List (Nat × Word) := []
  nextId : Nat := 0
  queue : List Queued := []
  held : Option SeqHold := none
  started : Bool := false
  latchStart : Bool := false
  gb : List GbEntry := []
  flights : List Flight := []
  stalled : List Stalled := []
  nextTag : Nat := 0
  outst : List Outst := []
  reads : List OutRead := []
  hold : List HeldDesc := []
  port : List WritePkt := []
  qmsgs : List QMsg := []
  freed : List Freed := []
  basins : List Bucket := []
  merge : List MergeEnt := []
  merged : List MergedRead := []
  acc : List (Nat × BitVec 32) := []
  unmarked : List Nat := []
  /-- Panel sets by 2 · sub-array + slot (sub-array 0 outside SEP); by sub-array, 1 plus the slot that the last MPANEL loaded; the
  predictor slot of the last final MPRED. -/
  slots : List (Nat × Option PanelSet) := []
  lastSlot : List (Nat × Nat) := []
  predSlot : Nat := 0
  gate : List MmulJob := []
  phase : SoakPhase := .gated
  step : Nat := 0
  units : Nat := 0
  wantUnits : Bool := false
  /-- The array or the lanes have been clocked since tile reset (R171). -/
  soaked : Bool := false
  rowRemap : List (Nat × Nat) := []
  /-- Owners latched for groups that stop (R103): group, context plus 1. -/
  owners : List (Nat × Nat) := []
  /-- Groups that have powered up and are being zero-filled for their start (R100). -/
  powered : List Nat := []
  longWait : Bool := false
  deriving DecidableEq, Repr

/-- A physical tile to which no logical number is bound (R18, R45): its state, and its registers by offset where they differ from reset. -/
structure Parked where
  tile : Tile := {}
  regs : List (Nat × Word) := []
  deriving DecidableEq, Repr

/-! ### What is under way between the units -/

/-- A message under way between two units of the part, or leaving it. The command that tells of its arrival carries it as its
operand and takes it off the list. DEDUCED (log 39). DESIGN CHOICE (log 40). -/
inductive Wire where
  | write (t : Nat) (p : WritePkt)
  | desc (t : Nat) (m : Msg)
  | contrib (t : Nat) (m : Msg)
  | readReq (addr len : Nat) (src tag : Nat)
  | readData (t tag status : Nat) (data : List Byte)
  | answer (dst : Sender) (tag status : Nat)
  | credit (dst : Sender) (chan slots units : Nat)
  | arrive (die g gen : Nat)
  | pkgArrive (die g gen : Nat)
  | release (t c g gen : Nat)
  /-- A packet at a position of a die: the input that holds it (R290: 0 to 3 from the router towards row 00, towards row 16, west or east; 4 from the unit
  beside; 5 from an edge router; at an edge router 0 and 1 from the ring's lower and higher neighbour, 2 from the mesh, 4 from the die link), and the buffer
  class on the ring (R300). -/
  | packet (die row col inp cls : Nat) (p : Packet)
  | frame (die link : Nat) (f : CplFrame)
  | nak (die link ack : Nat)
  /-- A capability record (R316, R317) that goes to the end `link` of a die: its two words. -/
  | cap (die link w0 w1 : Nat)
  | regWrite (addr : Nat) (v : Word)
  /-- A request for a block of a partner's shard page at stage 2 (R349), and its answer. -/
  | twinAsk (stack addr step : Nat)
  | twinGive (stack addr : Nat) (data : Option (List Byte))
  | cxt (port : Nat) (p : CxtPkt)
  | hbmRead (q : HbmReq)
  | hbmWrite (q : HbmReq)
  deriving DecidableEq, Repr

/-! ### CXT paths -/

/-- Whose a CXT packet is, which its acknowledgement or failure is told to: a packet of a tile's transfer, by tag; a tile's
remote read, by tag; a page of a stack's copier; a message of the gatehouse, by its number; nobody. -/
inductive CxtWho where
  | tile (t tag : Nat)
  | read (t tag : Nat)
  | copier (stack : Nat)
  | gate (n : Nat)
  | stage2 (stack : Nat)
  | none
  deriving DecidableEq, Repr

/-- A packet that has been sent and not acknowledged (R429): the times it has timed out, and how often on the present port. -/
structure SentPkt where
  pkt : CxtPkt
  who : CxtWho
  outs : Nat
  onPort : Nat
  deriving DecidableEq, Repr

/-- The sending end of a path (R427): traffic class, present port, next PSN, the packets that await acknowledgement, those that
await a port or a grant, the bytes granted and not used, and whether a grant has been asked for. -/
structure SendPath where
  traffic : Nat := 0
  port : Option Nat := none
  psn : Nat := 0
  unacked : List SentPkt := []
  waiting : List SentPkt := []
  granted : Nat := 0
  asked : Bool := false
  /-- Requests for a grant that got neither a grant nor a WAIT (R429). -/
  unheard : Nat := 0
  deriving DecidableEq, Repr

/-- The receiving end of a path: the PSN of the next packet to deliver, the packets that have come before their turn or that the tile's port
holds, the status of the last one delivered, the data of a SEND that goes on in later packets, the PSNs whose block failed its checksum and
how often (R350), and the LD of its port with the bytes granted there and not yet received (R428). -/
structure RecvPath where
  next : Nat := 0
  early : List CxtPkt := []
  last : Nat := 0
  part : List Byte := []
  bad : List (Nat × Nat) := []
  ld : Nat := 0
  credit : Nat := 0
  deriving DecidableEq, Repr

/-! ### The kiln log -/

/-- A submission to the kiln log (R608, R609): class, code, source (0 the lodge, 1 GH-N, 2 GH-S), value kind, the events it
summarises, extremes, bins and detail. -/
structure LogSub where
  sec : Bool := false
  code : Nat := 0
  src : Nat := 0
  kind : Nat := 0
  count : Nat := 1
  min : Nat := 0
  max : Nat := 0
  bins : List Nat := []
  detail : Nat := 0
  deriving DecidableEq, Repr

/-- What a READ of the device is for: a tile's remote read, by tag; the control block of a stack that a spare pulls (R496); a block of a state
pull, for an HBM address. -/
inductive ReadKind where
  | tile (t tag : Nat)
  | head (stack : Nat)
  | pull (addr : Nat)
  deriving DecidableEq, Repr

/-- A CXT READ that has not had all its data (R750): path, what it is for, bytes, and the bytes that have come. -/
structure CxRead where
  path : Nat
  kind : ReadKind
  len : Nat
  got : List Byte
  deriving DecidableEq, Repr

/-! ### Die links (R309–R313) -/

/-- One end of a die link's CPL: next sequence number to send and to expect, the frames kept for replay, the packets that wait for
credit or for the link, those in the receive buffer, by virtual network the 16 B units used, freed by this end's receiver and told freed by the peer, the peer's
buffer, whether UCIe retrains, and whether the capability record has been sent; the virtual networks that the peer offers (R317), and the replays in a row without
progress (R311). -/
structure Link where
  seq : Nat := 0
  expect : Nat := 0
  sent : List CplFrame := []
  wait : List Packet := []
  recv : List Packet := []
  used : Nat × Nat × Nat := (0, 0, 0)
  freed : Nat × Nat × Nat := (0, 0, 0)
  peer : Nat × Nat × Nat := (0, 0, 0)
  buf : Nat := 0
  held : Bool := false
  offered : Bool := false
  vns : Nat := 7
  consec : Nat := 0
  deriving DecidableEq, Repr

/-- What the part has sent to the host (R558–R566): the answer to a command; an event; a heartbeat; data and credit of a bulk stream; a
handshake message; a refused handshake. A block of an egress stream comes with its metadata. A response says whether part of it comes from a service that is
not approved (R603). -/
inductive HostMsg where
  | response (sid tag result detail : Nat) (data : List Byte) (unapproved : Bool := false)
  | event (code : Nat) (sec : Bool) (utc : Nat) (detail : Nat)
  | heartbeat (rec : List Byte)
  | bulk (stream off : Nat) (blk : Option BlockMeta) (data : List Byte)
  | credit (stream units contig : Nat)
  | handshake (hs : Nat) (body : List Byte)
  | refusal (hs result : Nat) (detail : Nat)
  deriving DecidableEq, Repr

/-! ### HBM (R334–R356) -/

/-- A page in the copier's staging buffer (R355): page number, its bytes that are not zero by offset, and the forms of its blocks that are
not dense: block of the page, form, length. -/
structure StagedPage where
  page : Nat
  cells : List (Nat × Byte)
  forms : List (Nat × Nat × Nat)
  deriving DecidableEq, Repr

/-- What an MC holds beside its registers: pages with a block recovered at stage 1 and when (R351); pages due for retirement at the next
boundary; pages that have been remapped; the page under retirement; blocks on stage 2 with the read that waits (R349, R352); writes that
wait for a protected page; pages being read into staging and those staged (R355); whether the stack is lost (R353). -/
structure Mc where
  notes : List (Nat × Nat) := []
  due : List Nat := []
  retired : List Nat := []
  retiring : Option Nat := none
  path : List (Nat × HbmReq) := []
  writeWait : List HbmReq := []
  staging : List Nat := []
  staged : List StagedPage := []
  lost : Bool := false
  deriving DecidableEq, Repr

/-! ### Device barriers and recovery (R434–R452, R485–R505) -/

/-- A device barrier at this device (R437): group, generation, whether its own package group has completed, the arrivals of its children with
their records, and its own norm record where the group carries one (R449). -/
structure DevBar where
  g : Nat
  gen : Nat
  own : Bool := false
  kids : List (Nat × List Byte) := []
  norm : Option (List Byte) := none
  sent : Bool := false
  deriving DecidableEq, Repr

/-- An abort that has not ended in a restart (R488, R495): the step in progress, whether a takeover follows, the failed device, and the devices below this
one that have reported, with the step whose release record they hold. -/
structure Abort where
  step : Nat
  takeover : Bool
  failed : Nat
  reports : List (Nat × Option Nat) := []
  reported : Bool := false
  deriving DecidableEq, Repr

/-- A takeover that this device, as twin, runs (R495, R503): the failed device, the spare chosen (0, 1; 2 for none), whether the alias has been
updated, and by the lodge's count when the takeover began and when the alias was updated (R509). -/
structure Takeover where
  dev : Nat
  spare : Nat := 0
  moved : Bool := false
  began : Nat := 0
  movedAt : Nat := 0
  deriving DecidableEq, Repr

/-! ### The lodge (chapters 12, 13 and 17) -/

/-- A firmware slot of MRAM (R586, R588): its state (0 EMPTY, 1 VALID, 2 TRIAL, 3 TRIED, 4 SUPERSEDED) and its image; `none` is the image written at
manufacture. -/
structure FwSlot where
  st : Nat := 0
  image : Option (List Byte) := none
  deriving DecidableEq, Repr

/-- A record of the kiln log (R608). -/
structure LogRec where
  code : Nat
  cls : Nat
  seq : Nat
  start : Nat
  len : Nat
  suppressed : Nat
  count : Nat
  min : Nat
  max : Nat
  bins : List Nat
  detail : Nat
  deriving DecidableEq, Repr

/-- The kiln log (R608–R615): its two partitions, oldest record first; the codes that have an entry of the code table, in order; the overflow counters by
entry (1,023 is shared by all codes beyond the table's others); the submissions suppressed since the last record and the open windows, by entry; the lost
security events, the clear count, and the latest stamp written. -/
structure Kiln where
  op : List LogRec := []
  sec : List LogRec := []
  codes : List Nat := []
  overflow : List (Nat × Nat) := []
  suppressed : List (Nat × Nat) := []
  windows : List Nat := []
  lostSec : Nat := 0
  clears : Nat := 0
  stamp : Nat := 0
  deriving DecidableEq, Repr

/-- What the lodge's MRAM holds beside the repair record (R516): the lease epoch; the firmware slots and the minimum SVN; the owner root certificate (none: empty)
and the admission count; the two copies of the LMS index, each `none` where its CRC fails; whether SEC-0x000B has been logged; the attestation tokens and the
reference count of the last one; the attestations since the last record of R601 with their lowest index; the alert cause word saved; the kiln log. -/
structure Mram where
  epoch : Nat := 0
  slotA : FwSlot := { st := 1 }
  slotB : FwSlot := {}
  minSvn : Nat := 0
  owner : List Byte := []
  admissions : Nat := 0
  lmsA : Option Nat := some 0
  lmsB : Option Nat := some 0
  lmsLow : Bool := false
  tokens : Nat := 64
  tokenRef : Nat := 0
  attests : Nat := 0
  attestLow : Nat := 0
  savedCause : Nat := 0
  kiln : Kiln := {}
  deriving DecidableEq, Repr

/-- A command of the host that waits for what it asked for (R560, R563): session, tag. -/
structure Ask where
  sid : Nat
  tag : Nat
  /-- The target state of POWER; otherwise 0. -/
  arg : Nat := 0
  deriving DecidableEq, Repr

/-- The lodge beside its MRAM. -/
structure Lodge where
  /-- `VAON` is out of range: power state OFF (R535). -/
  off : Bool := false
  /-- `PORST_N` is asserted; the part runs in board-test mode (R730); `REFCLK_AON` has been found (R724). -/
  porst : Bool := true
  boardTest : Bool := false
  refclk : Bool := false
  /-- The start-up stage (R533) whose actions are done; 1 after the release of `PORST_N`. -/
  stage : Nat := 0
  /-- A start-up stage up to 8 has failed, and the part stays where it is (R534). -/
  failed : Bool := false
  /-- The running slot: 0 A, 1 B (R587). -/
  slot : Nat := 0
  /-- Power-good inputs that are high (R716): `PG_VINC[7:0]`, `PG_VINX`, `PG_VHBM`; the HBM rails enabled by the lodge; PV 8–11 on. -/
  vinc : Nat := 0
  vinx : Bool := false
  vhbm : Bool := false
  rails : Bool := false
  pvX : Bool := false
  /-- The lease (R518–R520): holder; the term has run out; the holder's own 18 ms have run out; when GH-S first asked for the first lease; the
  gatehouses that have had STALE (R527); the arbiter's self-check has failed (R529). -/
  holder : Option Nat := none
  termOver : Bool := false
  lapse : Bool := false
  firstAsk : Option Nat := none
  stale : List Nat := []
  arbFault : Bool := false
  /-- Latched requests of switchable functions (R539): function, enable. Functions: 0–7 tile domain of GC g, 8–15 network PLL, 16–23 tile PLL, 24–31 MC, 32–95
  fabric port, 96 HD. -/
  latches : List (Nat × Bool) := []
  /-- Functions that are STOPPING where no register shows it (fabric ports). -/
  stopping : List Nat := []
  /-- The stacks keep their contents in self-refresh (R719); every stack is to be zero-filled at the next entry to READY (R335, R593). -/
  hbmKept : Bool := false
  zeroFill : Bool := true
  power : Option Ask := none
  loading : Option Ask := none
  starting : Option Ask := none
  /-- A HOLD command is in force; the device is to go to READY once every tile is asleep (R535). -/
  hostHold : Bool := false
  /-- The image has been loaded since READY was reached, and awaits its groups (R555). -/
  loaded : Bool := false
  /-- Alert causes of the present boot, bits [15:0] of the alert cause word, and bits [47:32] (R731); `THERMTRIP_N` is asserted (R723). -/
  cause : Nat := 0
  prevCause : Nat := 0
  thermtrip : Bool := false
  /-- Readings at or below 93 °C in a row by die, and the stretch that temperature asks for (R549). -/
  cool : List (Nat × Nat) := []
  therm : List (Nat × Nat) := []
  /-- Package power (R548): the samples of the last 1 ms, newest first; samples above 4.5 kW in a row; samples since the borrowers were dropped; samples below
  4.5 kW in a row while the dies are stretched. -/
  samples : List Nat := []
  high : Nat := 0
  dropped : Option Nat := none
  low : Nat := 0
  capped : Bool := false
  /-- Failed PMBus devices and the tries of a transaction under way (R726); the last READ_POUT of each device. -/
  pmbFailed : List Nat := []
  pmbTries : List (Nat × Nat) := []
  pout : List (Nat × Nat) := []
  /-- The real-time clock is derived from `REFCLK_AON` (R728). -/
  rtcDerived : Bool := false
  /-- UTC runs free (R567); the PTP domain; the correction still to be slewed, in picoseconds; the master followed. -/
  unsync : Bool := true
  domain : Nat := 0
  slew : Int := 0
  master : Option Nat := none
  /-- The identity seed (R577); empty where there is none. The module's error state (R606). -/
  seed : List Byte := []
  cryptoErr : Bool := false
  /-- The next LMS index (R584). -/
  lms : Nat := 0
  deriving DecidableEq, Repr

/-! ### CHP (R556–R565, R595–R598) -/

/-- An open session: identifier, when it opened by the lodge's count, and its keys and salts (R596); the highest sequence number seen and those seen above it less
1,024 (R559); whether it stood when the host was declared lost (R508); packets accepted and sent, the latter also the next sequence number to send; packets refused (R598). -/
structure Sess where
  sid : Nat
  opened : Nat
  old : Bool := false
  keys : List Byte := []
  high : Nat := 0
  seen : List Nat := []
  got : Nat := 0
  sent : Nat := 0
  refused : Nat := 0
  deriving DecidableEq, Repr

/-- A half-open handshake (R597): number, HELLO as reassembled, REPLY, session identifier, device's ephemeral private key and nonce, the host's ephemeral and session
keys and nonce, and for an admission the owner root certificate. -/
structure Half where
  hs : Nat
  hello : List Byte
  reply : List Byte
  sid : Nat
  eph : List Byte
  nonce : List Byte
  hostEph : List Byte
  hostKey : List Byte
  hostNonce : List Byte
  admission : Option (List Byte) := none
  deriving DecidableEq, Repr

/-- A bulk stream (R565): number, direction (0 ingest, 1 egress), HBM address and length of its range, credit granted in 256 KiB units, the bytes received or sent in
one piece from the start, and the pieces received beyond. -/
structure Stream where
  n : Nat
  dir : Nat
  addr : Nat
  len : Nat
  credit : Nat := 0
  contig : Nat := 0
  parts : List (Nat × Nat) := []
  deriving DecidableEq, Repr

/-- CHP: sessions, the control session, half-open handshakes, commands queued by their session with their sequence numbers (R560), bulk streams, and a CHECKPOINT that waits, with whether it
has reached its boundary. -/
structure Chp where
  sessions : List Sess := []
  control : Option Nat := none
  halves : List Half := []
  queue : List (Nat × Nat × Instr) := []
  streams : List Stream := []
  checkpoint : Option Ask := none
  nextSid : Nat := 1
  deriving DecidableEq, Repr

/-- The test access port (R729–R731): the instruction register, the data register it selects as last captured, the preloaded boundary values, and how the lands
are driven: 0 by the part, 1 with the boundary values, 2 not at all, 3 with a pulse, 4 with a pulse train. -/
structure Tap where
  ir : Nat := 0xFF
  dr : Nat := 0
  boundary : Nat := 0
  drive : Nat := 0
  deriving DecidableEq, Repr

/-- The state of the block. DESIGN CHOICE: `pending` (log 1), `grade` at reset (log 5), `utcPs` at reset (log 8) and `fresh` (log 9). DEDUCED: `wires` (log 39). -/
structure State where
  grade : Grade := .cg2048
  regs : List (Nat × Word) := []
  mem : List Host.Cell := []
  bind : List (Nat × Nat) := []
  tiles : List (Nat × Tile) := []
  /-- Physical tiles that are not bound (R45), by position. -/
  parked : List (Nat × Parked) := []
  wires : List Wire := []
  /-- Reports that a die holds because its control queue is full (R530), by die. -/
  cqHeld : List (Nat × List (List Word)) := []
  /-- Reports that a producer holds because its mailbox share is full (R530), by gatehouse. -/
  mbHeld : List (Nat × List (List Word)) := []
  /-- Sequence numbers of the reports of each source (R531), by source kind and number. -/
  repSeq : List (Nat × Nat) := []
  /-- Physical rows with a parity error and when by UTC, in picoseconds (R107, R108): position, bank, row, time. -/
  rowNotes : List (Nat × Nat × Nat × Nat) := []
  /-- Physical rows queued for remapping at the next job boundary (R108), and the repair record's remaps (R109): position, bank, row
  and, for a remap, spare row 0–15. A position is die · 272 + row · 16 + column (R31). -/
  rowQueue : List (Nat × Nat × Nat) := []
  spareRows : List (Nat × Nat × Nat × Nat) := []
  /-- Fenced positions of the repair record (R41, R76, R110): die, row, column. -/
  fencedPos : List (Nat × Nat × Nat) := []
  /-- Tiles that wait for units of their GC's slew governor (R162), oldest first: tile, units. -/
  gov : List (Nat × Nat) := []
  /-- The lodge's count of its 25 MHz reference (R567), and the submissions that wait at the kiln log. -/
  ticks : Nat := 0
  toLog : List LogSub := []
  /-- The device has left the job under R29. -/
  left : Bool := false
  /-- Sending and receiving ends of the CXT paths, by peer device and path index (64 to a device). -/
  sendPaths : List (Nat × SendPath) := []
  cxReads : List CxRead := []
  recvPaths : List (Nat × RecvPath) := []
  /-- The ends of the die links: die · 16 + edge router for a GC's end, 128 more for the end of an LD, a gatehouse or the HD. -/
  links : List (Nat × Link) := []
  /-- Failed routers in the repair record (R323), those whose detour the gatehouse has still to load at the next boundary (die, row,
  column; row 17 an edge router), and whether the device is recorded as unserviceable (R325). -/
  badRouters : List (Nat × Nat × Nat) := []
  detourDue : List (Nat × Nat × Nat) := []
  unserviceable : Bool := false
  toHost : List HostMsg := []
  /-- Ports that a priority flow control frame has stopped (R423), replays in a row without progress of a port in DIRECT mode (R422), and
  ports that a peer has reported down: device, port. -/
  paused : List Nat := []
  replays : List (Nat × Nat) := []
  peerDown : List (Nat × Nat) := []
  /-- Requests for grants that wait for room in an LD's receive buffer (R428), oldest first: path, port. -/
  grantQ : List (Nat × Nat) := []
  /-- Devices that have sent a barrier arrival, the device's children in the aggregation tree. -/
  kids : List Nat := []
  devBars : List DevBar := []
  /-- Dies whose part of a package group has arrived at GC 1 (R235): group, dies. -/
  pkgArrived : List (Nat × List Nat) := []
  /-- The words of the command records being written at the command ports, by the address of their `DCMDn.k` (R523, R574). -/
  dcmd : List (Nat × Word) := []
  /-- Channels that still lack the epoch notice of the job's start (R434): tile, channel. -/
  noticesDue : List (Nat × Nat) := []
  /-- The last release record that the device holds (R452): its 16 bytes. -/
  released : Option (List Byte) := none
  /-- Retrained ports that wait for the next step boundary, and whom to tell (R422). -/
  portsBack : List (Nat × List Nat) := []
  portPeers : List (Nat × List Nat) := []
  /-- Predictor settings that wait for the next step boundary (R410): slot, EN. -/
  predDue : List (Nat × Bool) := []
  /-- A layout epoch to take over at the next boundary (R455). -/
  reshardTo : Option Nat := none
  /-- A heartbeat of the partner has come in the present period; a probe is out (R490, R491); the partner's copier is idle. -/
  hbHeard : Bool := false
  probing : Bool := false
  partnerIdle : Bool := false
  aborting : Option Abort := none
  taking : Option Takeover := none
  /-- This device pulls the state of a failed device from this twin (R496), the control blocks it has read by stack, and the host's confirmation of the
  input data (R500). -/
  pulling : Option Nat := none
  heads : List (Nat × List Byte) := []
  dataReady : Bool := false
  /-- The spare has still to replay the journal before it restarts (R497, R498). -/
  replayDue : Bool := false
  startWaits : Bool := false
  replaced : Bool := false
  /-- The partner's device certificate as the host gave it, the ALIAS command (session, tag, PAIREN, HBEN) that waits for the partner's own, and the
  certificates that have come by CTRL, by device (R594). -/
  hostCert : List Byte := []
  pairAsk : Option (Nat × Nat × Bool × Bool) := none
  gotCerts : List (Nat × List Byte) := []
  /-- The image that the device has loaded, as bytes. -/
  image : List Byte := []
  /-- The stored form and length of an HBM block that is not DENSE with 4,096 bytes (R345), by stack · 2²⁴ + block. -/
  blocks : List (Nat × (Nat × Nat)) := []
  mcs : List (Nat × Mc) := []
  /-- UTC as the lodge keeps it, in picoseconds since 1970 (R567). -/
  utcPs : Nat := 0
  /-- The host is lost (R508), and the tiles hold at the next step boundary. -/
  hostGone : Bool := false
  stepHold : Bool := false
  /-- Gatehouses that have booted and have not failed, and those that have failed (R30, R517). -/
  ghUp : List Nat := []
  ghFailed : List Nat := []
  mram : Mram := {}
  lodge : Lodge := {}
  chp : Chp := {}
  tap : Tap := {}
  fresh : Nat := 0
  pending : List Instr := []
  deriving DecidableEq, Repr

/-- The machine right after package reset (R533, R720). DESIGN CHOICE (log 4, log 6). -/
def State.reset : State := {}

end Sys2Proof.Machine
end

