-- ==== Sys2Proof/Machine/Map.lean ====
section
/-!
DEFINITION. The package address map (R15, R17, R18), the registers and the memory that stand at its addresses, and the tiles.
-/

namespace Sys2Proof.Machine

/-! ### Addresses -/

/-- What a package address belongs to (R15). -/
inductive Region where
  | hbm (stack : Nat)
  | spad (t off : Nat)
  | reg (b : Block) (n off : Nat)
  | reserved
  deriving DecidableEq, Repr

/-- Package address of a byte of tile `t`'s scratchpad. -/
def spadAddr (t off : Nat) : Nat := 0x80_0000_0000 + t * 0x20_0000 + off

/-- Package address of a block's register: tile by logical number, the others by their number in R15. -/
def regAddr (b : Block) (n off : Nat) : Nat :=
  match b with
  | .tile => 0xC0_0000_0000 + n / 256 * 0x100_0000 + n % 256 * 0x1_0000 + off
  | .die => 0xC8_0000_0000 + n * 0x100_0000 + off
  | .mc => 0xD0_0000_0000 + n * 0x100_0000 + off
  | .ld => 0xD8_0000_0000 + n * 0x10_0000 + off
  | .hd => 0xE0_0000_0000 + off
  | .gh => 0xE8_0000_0000 + n * 0x10_0000 + off

/-- Whether a logical tile number is populated on a grade (R7). -/
def populated (g : Grade) (t : Nat) : Bool :=
  match g with
  | .cg2048 => t < 2048
  | .cg1920 => t < 2048 && t % 256 < 240

/-- The region of a package address (R15, R17, R7). The stack of an HBM address is that of a stack-local placement; an
interleaved one is placed by R336 (`stackOf`). DEDUCED (log 15). -/
def regionOf (g : Grade) (a : Nat) : Region :=
  if a < 0x80_0000_0000 then .hbm (a / 0x10_0000_0000)
  else if a < 0x81_0000_0000 then
    let t := (a - 0x80_0000_0000) / 0x20_0000
    if populated g t then .spad t (a % 0x20_0000) else .reserved
  else if 0xC0_0000_0000 ≤ a ∧ a < 0xC0_0800_0000 then
    let t := (a - 0xC0_0000_0000) / 0x1_0000
    if populated g t then .reg .tile t (a % 0x1_0000) else .reserved
  else if 0xC8_0000_0000 ≤ a ∧ a < 0xC8_0800_0000 then .reg .die ((a - 0xC8_0000_0000) / 0x100_0000) (a % 0x100_0000)
  else if 0xD0_0000_0000 ≤ a ∧ a < 0xD0_0800_0000 then .reg .mc ((a - 0xD0_0000_0000) / 0x100_0000) (a % 0x100_0000)
  else if 0xD8_0000_0000 ≤ a ∧ a < 0xD8_0200_0000 then .reg .ld ((a - 0xD8_0000_0000) / 0x10_0000) (a % 0x10_0000)
  else if 0xE0_0000_0000 ≤ a ∧ a < 0xE0_0100_0000 then .reg .hd 0 (a % 0x100_0000)
  else if 0xE8_0000_0000 ≤ a ∧ a < 0xE8_0020_0000 then .reg .gh ((a - 0xE8_0000_0000) / 0x10_0000) (a % 0x10_0000)
  else .reserved

/-- Whether the register (or array of registers) of a table row stands at an offset of its block; a register held once per
context also stands 0x8000 higher (R64). -/
def RegDesc.covers (d : RegDesc) (off : Nat) : Bool :=
  let hit := fun o : Nat =>
    if o < d.base then false
    else
      let r := o - d.base
      if d.s1 = 0 then r == 0
      else
        let i := r / d.s1
        let q := r % d.s1
        i < d.n1 && (if d.s2 = 0 then q == 0 else q % d.s2 == 0 && q / d.s2 < d.n2)
  hit off || (d.perCtx && decide (0x8000 ≤ off) && hit (off - 0x8000))

/-- The table row of the register at an offset of a block; `none` where no register occupies the slot (R14). -/
def regDescAt (b : Block) (off : Nat) : Option RegDesc := b.regs.find? fun d => d.covers off

/-- The reset value of a register, put together from the fields of its table row. -/
def RegDesc.reset (d : RegDesc) : Word :=
  d.fields.foldl (fun w f => wset w f.hi f.lo f.reset) 0

/-- What a register holds at reset (R11): 0 where no register stands. -/
def resetOf (a : Nat) : Word :=
  match regionOf .cg2048 a with
  | .reg b _ off => ((regDescAt b off).map RegDesc.reset).getD 0
  | _ => 0

/-! ### Registers -/

/-- What the register at a package address holds. -/
def State.reg (s : State) (a : Nat) : Word := mget resetOf s.regs a

/-- The state with a register at a package address set. -/
def State.setReg (s : State) (a : Nat) (w : Word) : State := { s with regs := mput resetOf s.regs a w }

/-- A field of the register of block `b` number `n`. -/
def State.fld (s : State) (b : Block) (n : Nat) (f : Fld) : Nat := wget (s.reg (regAddr b n f.off)) f.hi f.lo

/-- The state with a field of a register of block `b` number `n` set. -/
def State.setFld (s : State) (b : Block) (n : Nat) (f : Fld) (v : Nat) : State :=
  s.setReg (regAddr b n f.off) (wset (s.reg (regAddr b n f.off)) f.hi f.lo v)

/-- The device's own number (R435): `CXCFG.DEV`, the same in every LD. -/
def State.ownDev (s : State) : Nat := s.fld .ld 0 R.CXCFG_DEV

/-- A field of a tile's register block. -/
def State.tf (s : State) (t : Nat) (f : Fld) : Nat := s.fld .tile t f

/-- The state with a field of a tile's register block set. -/
def State.setTf (s : State) (t : Nat) (f : Fld) (v : Nat) : State := s.setFld .tile t f v

/-- The state with every register at which `f` holds back at its reset value. -/
def State.clearRegs (s : State) (f : Nat → Bool) : State := { s with regs := mdrop f s.regs }

/-! ### Tiles -/

/-- A tile's state. -/
def State.tile (s : State) (t : Nat) : Tile := mget (fun _ => {}) s.tiles t

/-- The state with a tile's state set. -/
def State.setTile (s : State) (t : Nat) (x : Tile) : State := { s with tiles := mput (fun _ => {}) s.tiles t x }

/-- The state with a tile's state changed. -/
def State.modTile (s : State) (t : Nat) (f : Tile → Tile) : State := s.setTile t (f (s.tile t))

/-- The active context of a tile: `TSTAT.CTX`. -/
def State.actx (s : State) (t : Nat) : Nat := s.tf t R.TSTAT_CTX

/-- A context of a tile. -/
def Tile.ctx (x : Tile) (c : Nat) : Ctx := if c = 0 then x.c0 else x.c1

/-- A tile with one of its contexts changed. DESIGN CHOICE (log 6). -/
def Tile.modCtx (x : Tile) (c : Nat) (f : Ctx → Ctx) : Tile := if c = 0 then { x with c0 := f x.c0 } else { x with c1 := f x.c1 }

/-- The state with a context of a tile changed. -/
def State.modCtx (s : State) (t c : Nat) (f : Ctx → Ctx) : State := s.modTile t fun x => x.modCtx c f

/-! ### Memory -/

/-- What a byte of memory reads as before anything has been written to it: zero (the zero-fills of R100 and R335). DESIGN CHOICE (log 6, log 7). -/
def memDefault (_a : Nat) : Byte := 0

/-- One byte of memory, by package address. DESIGN CHOICE (log 7). -/
def State.byte (s : State) (a : Nat) : Byte := mget memDefault s.mem a

/-- The state with one byte of memory written. -/
def State.setByte (s : State) (a : Nat) (b : Byte) : State := { s with mem := mput memDefault s.mem a b }

/-- `n` bytes of memory from a package address. -/
def State.rd (s : State) (a n : Nat) : List Byte := (List.range n).map fun i => s.byte (a + i)

/-- The state with bytes written from a package address upward. -/
def State.wr (s : State) (a : Nat) (bs : List Byte) : State :=
  match bs with
  | [] => s
  | b :: bs => (s.setByte a b).wr (a + 1) bs

/-- The canonical form of memory: addresses strictly rising, no entry at the value an unlisted address reads as. -/
def Memory.wf (m : List Host.Cell) : Bool := mwf memDefault none m

/-! ### Messages under way -/

/-- The state with a message put under way. -/
def State.send (s : State) (w : Wire) : State := { s with wires := s.wires ++ [w] }

/-- The state with a message that has arrived taken off, if it is under way. DEDUCED (log 39). -/
def State.unwire (s : State) (w : Wire) : State := { s with wires := s.wires.erase w }

end Sys2Proof.Machine
end

