-- ==== Sys2Proof/Machine/Fabric.lean ====
section
/-!
DEFINITION. The sending side of CXT: ports and their roles (R419, R423), the choice of a path (R427, R747), packet sequence numbers
(R748), grants (R428), and the packets themselves (R425).
-/

namespace Sys2Proof.Machine

/-- Roles of a port, which are also the traffic classes (R419, R470). -/
abbrev roleFABRIC : Nat := 1
abbrev roleTWIN : Nat := 2
abbrev roleCAROUSEL : Nat := 3

/-- The operations of R426. -/
abbrev opWRITE : Nat := 1
abbrev opJWRITE : Nat := 2
abbrev opSEND : Nat := 3
abbrev opREAD : Nat := 4
abbrev opRDATA : Nat := 5
abbrev opBARRIER : Nat := 6
abbrev opACK : Nat := 7
abbrev opGRANT : Nat := 8
abbrev opHEARTBEAT : Nat := 9
abbrev opCTRL : Nat := 10

/-- A field of port `p`, in the block of its LD (port p is port p mod 2 of LD p div 2). -/
def State.pf (s : State) (p : Nat) (f : Nat → Fld) : Nat := s.fld .ld (p / 2) (f (p % 2))

/-- The state with a field of port `p` set. -/
def State.setPf (s : State) (p : Nat) (f : Nat → Fld) (v : Nat) : State := s.setFld .ld (p / 2) (f (p % 2)) v

/-- Whether a port is up (R471). -/
def portUp (s : State) (p : Nat) : Bool := s.pf p R.FPSTAT_STATE == 2

/-- Whether a port may send: it is up and no flow control frame has stopped it (R423). -/
def portSends (s : State) (p : Nat) : Bool := portUp s p && !s.paused.contains p

/-- Whether a port's role carries a class of traffic (R419): its own, and FABRIC traffic beside it. -/
def carries (s : State) (p traffic : Nat) : Bool :=
  let r := s.pf p R.FPCFG_ROLE
  r != 0 && (r == traffic || traffic == roleFABRIC)

/-- Whether a port leads to a device (R421): in DIRECT mode to its peer only. -/
def portMeets (s : State) (p dev : Nat) : Bool := s.pf p R.FPCFG_MODE == 0 || s.pf p R.FPCFG_PEER == dev

/-- The port on which a path to a device starts (R421, R747): the one whose number is its index, or the next higher one modulo 64, that is up, carries the traffic
and leads to the device. -/
def startPort (s : State) (traffic dev idx : Nat) : Option Nat :=
  ((List.range 64).map fun i => (idx + i) % 64).find? fun p => portUp s p && carries s p traffic && portMeets s p dev

/-- The path index of a sender that is not a tile (R747): the lowest-numbered port that is up and carries its traffic. -/
def gatePath (s : State) (traffic : Nat) : Nat :=
  ((List.range 64).find? fun p => portUp s p && carries s p traffic).getD 0

/-- The IPv6 address of a station's port (R420, R464): the prefix, then the station number in bits [31:16] and the port number in bits [5:0]. -/
def ip6Of (s : State) (station p : Nat) : Nat := s.fld .ld (p / 2) R.CXPREFIX_PREFIX * 2 ^ 64 + station * 2 ^ 16 + p

/-- The IPv6 address to which a routed port sends a packet for a device (R421, R435): that of the same port of the station that the alias names. -/
def destIp6 (s : State) (dev p : Nat) : Nat := ip6Of s (s.fld .ld (p / 2) (R.CXALIAS_STATION dev)) p

/-- The key of a path. -/
def pathKey (dev idx : Nat) : Nat := dev * 64 + idx

/-- The sending end of a path. -/
def State.sendPath (s : State) (k : Nat) : SendPath := mget (fun _ => {}) s.sendPaths k

/-- The state with the sending end of a path set. -/
def State.setSendPath (s : State) (k : Nat) (p : SendPath) : State := { s with sendPaths := mput (fun _ => {}) s.sendPaths k p }

/-- The receiving end of a path. -/
def State.recvPath (s : State) (k : Nat) : RecvPath := mget (fun _ => {}) s.recvPaths k

/-- The state with the receiving end of a path set. -/
def State.setRecvPath (s : State) (k : Nat) (p : RecvPath) : State := { s with recvPaths := mput (fun _ => {}) s.recvPaths k p }

/-- Whether CXT reaches a device (R435): CXT is enabled and the device's alias is valid. -/
def cxtReaches (s : State) (dev : Nat) : Bool :=
  s.fld .ld 0 R.CXCFG_EN == 1 && s.fld .ld 0 (R.CXALIAS_VALID dev) == 1

/-- SACK of a receiving end (R425): bit i set when PSN ACK + 2 + i has come before its turn. -/
def sackOf (r : RecvPath) : Nat :=
  (List.range 32).foldl (fun n i => n + b2n (r.early.any fun p => p.hdr.psn == (r.next + 1 + i) % 2 ^ 32) * 2 ^ i) 0

/-- A header with the fields that every packet of the device carries (R425), ACK and SACK of the reverse path among them. -/
def baseHdr (s : State) (op dev idx : Nat) : CxtHdr :=
  let r := s.recvPath (pathKey dev idx)
  { ver := 0x20, op := op, last := false, mcast := false, ecn := false, release := false, sdev := s.ownDev, ddev := dev, path := idx,
    layout := s.fld .ld 0 R.CXEPOCH_LAYOUT, aliasGen := s.fld .ld 0 R.CXEPOCH_ALIAS, psn := 0, ack := (r.next + 2 ^ 32 - 1) % 2 ^ 32, sack := sackOf r, addr := 0,
    stile := 0, notTile := true, epoch := 0, dlen := 0, tag := 0, wq := 0 }

/-- Whether a port runs in ROUTED-CREDIT mode (R423). -/
def routedCredit (s : State) (p : Nat) : Bool := s.pf p R.FPCFG_MODE == 0 && s.pf p R.FPCFG_PFC == 0

/-- Whether an operation carries data against a grant (R428). -/
def needsGrant (op : Nat) : Bool := op == opWRITE || op == opJWRITE || op == opSEND || op == opRDATA

/-- TAG of a GRANT (R426 gives the three messages and no code for them; DESIGN CHOICE): 0 a request, 1 a grant, 2 WAIT. DESIGN CHOICE (log 47). -/
abbrev grantREQ : Nat := 0
abbrev grantGIVE : Nat := 1
abbrev grantWAIT : Nat := 2

/-- Sends what waits on a path, in order, as far as its port and its grant allow (R427, R428); a path short of a grant asks for one. -/
def flushPath (s : State) (k : Nat) : Nat → State
  | 0 => s
  | n + 1 =>
    let p := s.sendPath k
    match p.waiting with
    | [] => s
    | w :: ws =>
      match (match p.port with | some x => if portSends s x then some x else none | none => startPort s p.traffic (k / 64) (k % 64)) with
      | none => s
      | some port =>
        if needsGrant w.pkt.hdr.op && routedCredit s port && decide (p.granted < w.pkt.data.length) then
          if p.asked then s.setSendPath k { p with port := some port }
          else
            let h := { baseHdr s opGRANT (k / 64) (k % 64) with tag := grantREQ }
            (s.setSendPath k { p with port := some port, asked := true }).send (.cxt port ⟨port, true, false, h, none, []⟩)
        else
          let sent := { w with pkt := { w.pkt with port := port, hdr := { w.pkt.hdr with psn := p.psn } } }
          let used := if needsGrant w.pkt.hdr.op && routedCredit s port then w.pkt.data.length else 0
          flushPath ((s.setSendPath k
            { p with port := some port, psn := (p.psn + 1) % 2 ^ 32, waiting := ws, unacked := p.unacked ++ [sent],
                     granted := p.granted - used }).send (.cxt port sent.pkt)) k n

/-- A numbered packet handed to a path (R427, R747). DEDUCED (log 46). -/
def cxtEmit (s : State) (dev idx traffic : Nat) (h : CxtHdr) (blk : Option BlockMeta) (data : List Byte) (who : CxtWho) : State :=
  let k := pathKey dev idx
  let p := s.sendPath k
  let pkt : CxtPkt := { port := 0, fcsOk := true, ce := false, hdr := { h with dlen := if h.op = opREAD then h.dlen else data.length }, blk := blk, data := data }
  let s := s.setSendPath k { p with traffic := if p.traffic = 0 then traffic else p.traffic, waiting := p.waiting ++ [⟨pkt, who, 0, 0⟩] }
  flushPath s k (p.waiting.length + 1)

/-- An unnumbered packet put on a port (ACK, GRANT, HEARTBEAT). DEDUCED (log 46). -/
def cxtPlain (s : State) (port : Nat) (h : CxtHdr) (data : List Byte) : State :=
  s.send (.cxt port ⟨port, true, false, { h with dlen := data.length }, none, data⟩)

/-- A CTRL record of `len` bytes (R743): the kind in bytes 0–1, then the given bytes from byte 4. -/
def ctrlRecord (kind len : Nat) (body : List Byte) : List Byte := fitBytes len (toBytes kind 2 ++ [0, 0] ++ body)

/-- A CTRL message of the gatehouse to a device (R743). -/
def sendCtrl (s : State) (dev kind len : Nat) (body : List Byte) (who : CxtWho) : State :=
  let idx := gatePath s roleFABRIC
  cxtEmit s dev idx roleFABRIC (baseHdr s opCTRL dev idx) none (ctrlRecord kind len body) who

end Sys2Proof.Machine
end

