-- ==== Sys2Proof/Machine/Header.lean ====
section
/-!
DEFINITION. The header of a packet of the package network (R296–R298, R307), the responses to a packet, the ways between the
dies (R26, R294, R299, R301), and what a unit of the part tells the host (R564).
-/

open Sys2Proof.Machine

namespace Sys2Proof

/-! ### The header (R296) -/

/-- The bytes of a CPL slot (R310): header, destination list (R307), and data rounded up to 16 B. -/
def Packet.bytes (p : Packet) : List Byte :=
  let ds := if p.hdr.toNat / 2 ^ 7 % 2 = 1 then p.dests.flatMap fun d => toBytes (d.1 + d.2.1 * 2 ^ 3 + d.2.2.1 * 2 ^ 8 + d.2.2.2 * 2 ^ 12) 4 else []
  toBytes p.hdr.toNat 16 ++ fitBytes (16 * cdiv ds.length 16) ds ++ fitBytes (16 * cdiv p.data.length 16) p.data

/-- The slots of a frame. -/
def CplFrame.slots (f : CplFrame) : List Byte := f.packets.flatMap Packet.bytes

/-- Bytes 0 to 15 of a frame (R310): SEQ, ACK, TYPE, LEN and CRD. -/
def CplFrame.head (f : CplFrame) : List Byte :=
  toBytes f.seq 2 ++ toBytes f.ack 2 ++ [.ofNat 8 (f.typ % 16), 0] ++ toBytes f.slots.length 2 ++ toBytes f.crd.1 2 ++ toBytes f.crd.2.1 2 ++ toBytes f.crd.2.2 2 ++
    [0, 0]

/-- The CRC-32C of a frame (R310). -/
def CplFrame.sum (f : CplFrame) : Nat := crc32c (f.head ++ f.slots)

/-- Whether the CRC of a frame is right. -/
def CplFrame.crcOk (f : CplFrame) : Bool := f.crc.toNat == f.sum

/-- Bits of a packet's header. -/
def Packet.h (p : Packet) (hi lo : Nat) : Nat := bits p.hdr.toNat hi lo

/-- The header with bits set. -/
def Packet.setH (p : Packet) (hi lo v : Nat) : Packet :=
  { p with hdr := .ofNat 128 (p.hdr.toNat - bits p.hdr.toNat hi lo * 2 ^ lo + v % 2 ^ (hi + 1 - lo) * 2 ^ lo) }

def Packet.vn (p : Packet) : Nat := p.h 1 0
def Packet.kind (p : Packet) : Nat := p.h 5 2
def Packet.isList (p : Packet) : Bool := p.h 7 7 == 1
def Packet.len (p : Packet) : Nat := p.h 13 8 + 1
def Packet.addr (p : Packet) : Nat := p.h 81 42
def Packet.tag (p : Packet) : Nat := p.h 124 109

/-- The sender of a packet. -/
def Packet.sender (p : Packet) : Sender := { dev := p.h 97 82, tile := p.h 108 98, notTile := p.h 125 125 == 1 }

/-- The destinations of a packet: its list (R307), or the one of its header. -/
def Packet.targets (p : Packet) : List (Nat × Nat × Nat × Nat) :=
  if p.isList then p.dests else [(p.h 20 18, p.h 25 21, p.h 29 26, p.tag)]

/-- A copy of a packet for some of its destinations (R307). -/
def Packet.copy (p : Packet) (ds : List (Nat × Nat × Nat × Nat)) : Packet :=
  match ds with
  | [d] =>
    { ((((((p.setH 7 7 0).setH 17 14 0).setH 20 18 d.1).setH 25 21 d.2.1).setH 29 26 d.2.2.1).setH 124 109 d.2.2.2) with dests := [] }
  | _ => { p.setH 17 14 (ds.length - 1) with dests := ds }

/-- The 16 B units of a packet in a CPL slot (R310, R312). -/
def Packet.units (p : Packet) : Nat := 1 + (if p.isList then cdiv (4 * p.dests.length) 16 else 0) + cdiv p.data.length 16

end Sys2Proof

namespace Sys2Proof.Machine

/-- Whether a logical tile is bound (R80). -/
def State.bound (s : State) (t : Nat) : Bool := decide (mget (fun _ => 0) s.bind t ≠ 0)

/-- The physical row and column of a bound tile. -/
def State.physOf (s : State) (t : Nat) : Nat × Nat :=
  let c := mget (fun _ => 0) s.bind t - 1
  (c / 16, c % 16)

/-- The logical tile bound at a position of a die. -/
def tileAt (s : State) (die row col : Nat) : Option Nat :=
  (s.bind.find? fun b => b.1 / 256 == die && b.2 == row * 16 + col + 1).map (·.1)

/-- The status codes of R298, R431 and R636. -/
abbrev stOK : Nat := 0
abbrev stWICKET_CLOSED : Nat := 1
abbrev stCHANNEL_CLOSED : Nat := 2
abbrev stTARGET_FENCED : Nat := 3
abbrev stMESSAGE_TOO_LARGE : Nat := 4
abbrev stBASIN_CLOSED : Nat := 5
abbrev stBASIN_RANGE : Nat := 6
abbrev stWICKET_MISS : Nat := 7
abbrev stADDRESS : Nat := 8
abbrev stACCESS : Nat := 9
abbrev stPARITY : Nat := 10
abbrev stSTALE_EPOCH : Nat := 11
abbrev stPEER_FAILED : Nat := 12
abbrev stSHORT : Nat := 13

/-- A response to a packet (R296–R298), on VN 1, from where the packet was bound; a tile answers under its own number, and LAST stands on the last
packet of the answer alone. -/
def respondPart (s : State) (p : Packet) (kind status : Nat) (data : List Byte) (last : Bool) : Packet :=
  let row := p.h 25 21
  let who := match (if row ≤ 16 then tileAt s (p.h 20 18) row (p.h 29 26) else none) with
    | some t => t * 2 ^ 98
    | none => 2 ^ 125
  let h := 1 + kind * 2 ^ 2 + b2n last * 2 ^ 6 + (data.length - 1) * 2 ^ 8 + p.h 32 30 * 2 ^ 18 + p.h 37 33 * 2 ^ 21 + p.h 41 38 * 2 ^ 26 +
    p.h 20 18 * 2 ^ 30 + row * 2 ^ 33 + p.h 29 26 * 2 ^ 38 + status * 2 ^ 42 + s.ownDev * 2 ^ 82 + p.tag * 2 ^ 109 + who
  { hdr := .ofNat 128 h, dests := [], data := data }

/-- The response to a packet in one packet. -/
def respond (s : State) (p : Packet) (kind status : Nat) (data : List Byte) : Packet := respondPart s p kind status data true

/-- A response put on the network where the packet was bound. -/
def sendResponse (s : State) (die row col : Nat) (p : Packet) (kind status : Nat) (data : List Byte) : State :=
  s.send (.packet die row col 4 0 (respond s p kind status data))

/-- The one response to the requesters of a merged access (R307), the first of them among them: its list names the position and the tag of each. -/
def respondList (s : State) (p : Packet) (ps : List Packet) (data : List Byte) : Packet :=
  { ((respond s p 4 stOK data).setH 7 7 1).setH 17 14 (ps.length - 1) with dests := ps.map fun q => (q.h 32 30, q.h 37 33, q.h 41 38, q.tag) }

/-- The data of a read as responses of one 64 B row each (R288, R297). -/
def sendRows (s : State) (die row col : Nat) (p : Packet) (data : List Byte) : State :=
  let rows := chunks 64 data
  rows.zipIdx.foldl (fun s r => s.send (.packet die row col 4 0 (respondPart s p 4 stOK r.1 (r.2 + 1 == rows.length)))) s

/-! ### The ways between the dies (R26, R294, R299, R301) -/

/-- What a die link joins (R299). -/
inductive LinkKind where
  | gc (die link : Nat)
  | ld (n : Nat)
  | gh (n : Nat)
  | hd
  | none
  deriving DecidableEq, Repr

/-- The link of edge router `e` of GC `g`. -/
def linkOf (g e : Nat) : LinkKind :=
  match e with
  | 0 => .ld (4 * g)
  | 1 => if g = 0 then .hd else if g = 4 then .none else .gc (g - 1) 8
  | 2 => if g = 0 then .gh 0 else if g = 4 then .none else .gc (g - 1) 7
  | 3 => .ld (4 * g + 2)
  | 4 => .gc ((g + 4) % 8) 4
  | 5 => .gc ((g + 4) % 8) 5
  | 6 => .ld (4 * g + 3)
  | 7 => if g = 7 then .gh 1 else if g = 3 then .none else .gc (g + 1) 2
  | 8 => if g = 3 ∨ g = 7 then .none else .gc (g + 1) 1
  | 9 => .ld (4 * g + 1)
  | _ => .none

/-- The other end of a link: an end (die, edge router), where 8 added to the die names the end beyond the GC. -/
def peerEnd (die link : Nat) : Nat × Nat :=
  if die ≥ 8 then (die - 8, link)
  else match linkOf die link with
    | .gc d l => (d, l)
    | _ => (die + 8, link)

/-- The edge router by which a packet leaves die `g` for die `d` (R301). -/
def exitFor (g d half : Nat) : Nat :=
  if d % 4 > g % 4 then (if half = 0 then 8 else 7)
  else if d % 4 < g % 4 then (if half = 0 then 1 else 2)
  else (if half = 0 then 4 else 5)

/-- The die links that traffic of one half takes from die `g` to die `d` (R26, R301): for each the die and the edge router at which it is entered. -/
def diePath (half d : Nat) : Nat → Nat → List (Nat × Nat)
  | 0, _ => []
  | n + 1, g => if g = d then [] else (g, exitFor g d half) :: diePath half d n (peerEnd g (exitFor g d half)).1

/-- The stack and the offset in it that a package address of the HBM range reaches (R336); the mode is the same on every MC (R337). DEDUCED (log 14). -/
def hbmPlace (s : State) (a : Nat) : Nat × Nat :=
  if s.fld .mc 0 R.MCCFG_MODE = 0 then (bits a 38 36, bits a 35 0) else (bits a 14 12, bits a 38 15 * 4096 + bits a 11 0)

/-- The memory port that a tile uses (R294): its row, coded as DROW, and its column. -/
def memPort (s : State) (t : Nat) : Nat × Nat := (if (s.physOf t).1 ≤ 7 then 18 else 19, (s.physOf t).2)

/-- The tile of a scratchpad address. -/
def spadTile (a : Nat) : Nat := (a - spadAddr 0 0) / 0x20_0000

/-- The dies between which a message is under way, and P of R301; none for one that keeps to its die or whose sender stands outside the package. DESIGN CHOICE (log 40). -/
def wireEnds (s : State) (w : Wire) : Option (Nat × Nat × Nat) :=
  let tiles := fun (a b : Nat) => some (a / 256, b / 256, a + b)
  match w with
  | .write t p => if p.sender.dev = s.ownDev ∧ !p.sender.notTile then tiles p.sender.tile t else none
  | .desc t m =>
    if m.sender.dev ≠ s.ownDev then none
    else if !m.sender.notTile then tiles m.sender.tile t
    else some (m.chan % 8, t / 256, 1 + t)
  | .contrib t m => if m.sender.dev = s.ownDev ∧ !m.sender.notTile then tiles m.sender.tile t else none
  | .readReq a _ src _ => tiles src (spadTile a)
  | .readData t tag _ _ => match (s.tile t).reads.find? fun r => r.tag == tag with
    | some r => tiles (spadTile r.addr) t
    | none => none
  | .answer d tag _ => match (s.tile d.tile).outst.find? fun o => o.tag == tag with
    | some o => (match o.chan with
      | some ch => tiles (s.tf d.tile (R.CHROUTE_TILE ch)) d.tile
      | none => if o.addr < spadAddr 0 0 then none else tiles (spadTile o.addr) d.tile)
    | none => none
  | .credit d ch _ _ => if d.dev = s.ownDev then tiles (s.tf d.tile (R.CHROUTE_TILE ch)) d.tile else none
  | .hbmRead q => some (q.t / 256, (hbmPlace s q.addr).1, q.t + (memPort s q.t).2)
  | .hbmWrite q => some (q.t / 256, (hbmPlace s q.addr).1, q.t + (memPort s q.t).2)
  | _ => none

/-- The die links that a message takes. DESIGN CHOICE (log 40). -/
def wireLinks (s : State) (w : Wire) : List (Nat × Nat) :=
  match wireEnds s w with
  | some (g, d, p) => diePath (p % 2) d 5 g
  | none => []

/-- One end of a link's CPL. -/
def State.link (s : State) (die e : Nat) : Link := mget (fun _ => {}) s.links (die * 16 + e)

/-- The state with one end of a link's CPL set. -/
def State.setLink (s : State) (die e : Nat) (l : Link) : State := { s with links := mput (fun _ => {}) s.links (die * 16 + e) l }

/-- `ERLINK.STATE` of a link, of which an end beyond the GC has the GC's. -/
def linkState (s : State) (die e : Nat) : Nat := s.fld .die (die % 8) (R.ERLINK_STATE e)

/-- Whether a die link takes traffic: it is up, or retrains (R313, R319, R322). -/
def linkTakes (s : State) (l : Nat × Nat) : Bool := linkState s l.1 l.2 == 2 || (s.link l.1 l.2).held

/-- A message sent between units of the part; one whose way takes a die link that is down is lost (R322). DESIGN CHOICE (log 40). -/
def State.post (s : State) (w : Wire) : State := if (wireLinks s w).all (linkTakes s) then s.send w else s

/-! ### To the host -/

/-- UTC in microseconds. -/
def State.utcUs (s : State) : Nat := s.utcPs / 1_000_000

/-- The packets that a message takes in a session (R561, R564, R565): a response one for each 4,064 B of its data; an event, data and credit go to the control
session, events to every session where none holds the claim; a heartbeat goes to every session. Handshakes have none (R558). DEDUCED (log 67). -/
def HostMsg.packets (m : HostMsg) (control : Option Nat) (sid : Nat) : Nat :=
  match m with
  | .response i _ _ _ data _ => if i = sid then max 1 (cdiv data.length 4064) else 0
  | .event _ _ _ _ => if control = some sid ∨ control = none then 1 else 0
  | .heartbeat _ => 1
  | .bulk _ _ _ _ => if control = some sid then 1 else 0
  | .credit _ _ _ => if control = some sid then 1 else 0
  | .handshake _ _ => 0
  | .refusal _ _ _ => 0

/-- A message to the host, whose packets are counted in their session (R559). -/
def State.tellHost (s : State) (m : HostMsg) : State :=
  { s with toHost := s.toHost ++ [m],
           chp := { s.chp with sessions := s.chp.sessions.map fun x => { x with sent := x.sent + m.packets s.chp.control x.sid } } }

/-- An event to the host (R564); without a session none leaves. DEDUCED (log 67). -/
def hostEvent (s : State) (code : Nat) (sec : Bool) (detail : Nat) : State :=
  if s.chp.sessions.isEmpty then s else s.tellHost (.event code sec s.utcUs detail)

end Sys2Proof.Machine
end

