-- ==== Sys2Proof/Machine/Operands.lean ====
section
/-!
DEFINITION. The operand forms of the tile's instructions: scoreboard numbers of registers, immediates, descriptor fields (R659), and
the completion counter of an M-format instruction (R657).
-/

namespace Sys2Proof.Machine

/-- Scoreboard number of `s`n. -/
def idS (n : Nat) : Nat := n
/-- Scoreboard number of `a`n. -/
def idA (n : Nat) : Nat := 64 + n
/-- Scoreboard number of `v`n. -/
def idV (n : Nat) : Nat := 80 + n
/-- Scoreboard number of `p`n; `p0` is a constant and takes part in no hazard (R61). -/
def idP (n : Nat) : List Nat := if n = 0 then [] else [112 + n]

/-- SExt(IMM, 32) as an integer (R624). -/
def immInt (i : BitVec 32) : Int := i.toInt

/-- SExt(IMM, 32) as a register word. -/
def immWord (i : BitVec 32) : Word := i.signExtend 64

/-- The offset 32·OFF of a D-format instruction. -/
def offD (f : FmtD) : Int := 32 * f.off.toNat

/-- The completion counter of an M-format instruction: MOD[7] enables it (R657). -/
def cntM (f : FmtM) : Option Nat := if bitOf f.mod.toNat 7 then some f.cnt.toNat else none

/-- R657: without the enable, CNT is 0. -/
def cntLegal (f : FmtM) : Bool := bitOf f.mod.toNat 7 || f.cnt == 0

end Sys2Proof.Machine

namespace Sys2Proof
open Machine

/-! ### Fields of a descriptor (R659) -/

/-- SRC. -/
def Desc.src (d : Desc) : Nat := wget d.w0 39 0
/-- SLOT. -/
def Desc.slot (d : Desc) : Nat := wget d.w0 44 40
/-- CONV. -/
def Desc.conv (d : Desc) : Bool := wget d.w0 45 45 == 1
/-- SFMT. -/
def Desc.sfmt (d : Desc) : Nat := wget d.w0 49 46
/-- FORM. -/
def Desc.form (d : Desc) : Nat := wget d.w0 52 50
/-- RAW. -/
def Desc.raw (d : Desc) : Bool := wget d.w0 53 53 == 1
/-- DST. -/
def Desc.dst (d : Desc) : Nat := wget d.w1 39 0
/-- KIND of a DMAX entry. -/
def Desc.kind (d : Desc) : Nat := wget d.w1 42 40
/-- WEN of a DMAX entry. -/
def Desc.wen (d : Desc) : Bool := wget d.w1 43 43 == 1
/-- WCNT of a DMAX entry. -/
def Desc.wcnt (d : Desc) : Nat := wget d.w1 49 44
/-- WINC of a DMAX entry. -/
def Desc.winc (d : Desc) : Nat := wget d.w1 63 50
/-- LENGTH. -/
def Desc.len (d : Desc) : Nat := wget d.w2 31 0
/-- WQ: wicket, queue or basin bucket slot. -/
def Desc.wq (d : Desc) : Nat := wget d.w2 35 32
/-- CHAN of a DMAX SEND entry. -/
def Desc.chan (d : Desc) : Nat := wget d.w2 41 36
/-- SLOTK of a DMAF. -/
def Desc.slotk (d : Desc) : Nat := wget d.w2 46 42
/-- DEV. -/
def Desc.dev (d : Desc) : Nat := wget d.w2 63 48
/-- EXPECT. -/
def Desc.expect (d : Desc) : Nat := wget d.w3 31 0
/-- EPOCH. -/
def Desc.epoch (d : Desc) : Nat := wget d.w3 47 32
/-- CLASS. -/
def Desc.cls (d : Desc) : Nat := wget d.w3 50 48
/-- TFMT. -/
def Desc.tfmt (d : Desc) : Nat := wget d.w3 54 51
/-- CNT and CEN: the completion counter, if it is signalled. -/
def Desc.cnt (d : Desc) : Option Nat := if wget d.w3 61 61 = 1 then some (wget d.w3 60 55) else none
/-- The destination address replaced (R248). -/
def Desc.setDst (d : Desc) (a : Nat) : Desc := { d with w1 := wset d.w1 39 0 a }
/-- The epoch replaced (R640). -/
def Desc.setEpoch (d : Desc) (e : Nat) : Desc := { d with w3 := wset d.w3 47 32 e }
/-- The 32 bytes of a descriptor. -/
def Desc.bytes (d : Desc) : List Byte := toBytes d.w0.toNat 8 ++ toBytes d.w1.toNat 8 ++ toBytes d.w2.toNat 8 ++ toBytes d.w3.toNat 8
/-- A descriptor from 32 bytes. -/
def Desc.ofBytes (bs : List Byte) : Desc :=
  { w0 := .ofNat 64 (numAt bs 8 0), w1 := .ofNat 64 (numAt bs 8 1), w2 := .ofNat 64 (numAt bs 8 2), w3 := .ofNat 64 (numAt bs 8 3) }

/-- The bits that R659 names are the only ones set, and LENGTH is at most 2^30. DEDUCED (log 18). -/
def Desc.legal (d : Desc) : Bool :=
  wget d.w0 63 54 == 0 && wget d.w2 47 47 == 0 && wget d.w3 63 62 == 0 && decide (d.len ≤ 2 ^ 30)

/-- A descriptor outside DMAX sets none of the fields that R659 gives DMAX entries alone. -/
def Desc.plain (d : Desc) : Bool := d.legal && d.kind == 0 && !d.wen && d.wcnt == 0 && d.winc == 0

end Sys2Proof
end

