-- ==== Sys2Proof/Machine/Ops.lean ====
section
/-!
DEFINITION. The named operations of a tile: its registers as a reader sees them, faults (R74–R78), address checks (R62, R624), the
gather buffer (R93–R98), counter signals (R228–R234), the scoreboard and the issue and dispatch of instructions (R46–R56,
R619–R632, R742), the holds of the sequencer, and the tile states (R68, R745).
-/

namespace Sys2Proof.Machine

/-! ### Numbers of a tile -/

/-- The class of a logical tile (R40): 0 M-tile, 1 V-tile, 2 S-tile. -/
def classOf (t : Nat) : Nat := if t % 16 < 12 then 0 else if t % 16 < 15 then 1 else 2

/-- 32-bit vector lanes of a tile's vector engine (R37). -/
def lanesOf (t : Nat) : Nat := if classOf t = 1 then 256 else 32

/-- Bytes of a vector register (R37). -/
def vbytes (t : Nat) : Nat := 4 * lanesOf t

/-- The engines a class holds (R37). -/
def hasEngine (t : Nat) (e : Engine) : Bool :=
  match e with
  | .me => classOf t == 0
  | .se => classOf t == 2
  | _ => true

/-- The code of an engine (R618). -/
def engCode (e : Engine) : Nat :=
  match e with
  | .sq => 0 | .sc => 1 | .ve => 2 | .me => 3 | .se => 4 | .dm => 5 | .qp => 6

/-- The engine of a code; none for 7. -/
def engOf (n : Nat) : Option Engine :=
  match n with
  | 0 => some .sq | 1 => some .sc | 2 => some .ve | 3 => some .me | 4 => some .se | 5 => some .dm | 6 => some .qp | _ => none

/-- The fault bits of `TFAULT` (R83). -/
abbrev fILLEGAL : Nat := 0
abbrev fACCESS : Nat := 1
abbrev fADDRESS : Nat := 2
abbrev fCOUNTER : Nat := 3
abbrev fWICKET : Nat := 4
abbrev fCHANNEL : Nat := 5
abbrev fGANG : Nat := 6
abbrev fMSGSIZE : Nat := 7
abbrev fLANDED : Nat := 8
abbrev fCONTEXT : Nat := 9
abbrev fTRAP : Nat := 10
abbrev fWATCHDOG : Nat := 11
abbrev fPARITY : Nat := 12
abbrev fENGINE : Nat := 13

/-- The tile states of R82. -/
abbrev asleep : Nat := 0
abbrev waking : Nat := 1
abbrev running : Nat := 2
abbrev soaking : Nat := 3
abbrev fenced : Nat := 4

/-- A tile's state: `TSTAT.STATE`. -/
def State.tstate (s : State) (t : Nat) : Nat := s.tf t R.TSTAT_STATE

/-- The state with a tile's state set. -/
def State.setTstate (s : State) (t v : Nat) : State := s.setTf t R.TSTAT_STATE v

/-- The physical position of a tile: die · 272 + row · 16 + column (R31). -/
def posOf (s : State) (t : Nat) : Nat := t / 256 * 272 + (s.physOf t).1 * 16 + (s.physOf t).2

/-- A fresh free value: an unconstrained number, and the state in which the next one is another. DESIGN CHOICE (log 9). -/
def State.freeNat (s : State) : Nat × State := (Config.free s.fresh, { s with fresh := s.fresh + 1 })

/-! ### The program area -/

/-- The number of instructions of a context's program area (R46, R85). -/
def areaLen (s : State) (t c : Nat) : Nat :=
  if (if c = 0 then s.tf t R.TPROG_PWIDE else s.tf t R.TPROG_BWIDE) = 1 then 32768 else 16384

/-- ProgOffset of R624: the scratchpad offset of instruction index `i`; none beyond the area. -/
def progOffset (s : State) (t c i : Nat) : Option Nat :=
  let b := if c = 0 then s.tf t R.TPROG_PBANK else s.tf t R.TPROG_BBANK
  let g := b / 4
  if i ≥ areaLen s t c then none
  else if areaLen s t c = 32768 then some (g * 0x4_0000 + 8 * i)
  else some (g * 0x4_0000 + 256 * (i / 16) + 64 * (b % 4) + 8 * (i % 16))

/-- Whether an offset lies in a program area of the tile (R46, R47, R87), of either context. -/
def inProgArea (s : State) (t off : Nat) : Bool :=
  let bank := 4 * (off / 0x4_0000) + bits off 7 6
  let hit := fun c : Nat =>
    let b := if c = 0 then s.tf t R.TPROG_PBANK else s.tf t R.TPROG_BBANK
    let n := if areaLen s t c = 32768 then 4 else 2
    let grp := if c = 0 then s.tf t R.SPCFG_PGRP else s.tf t R.SPCFG_BGRP
    bitOf grp (b / 4) && decide (b ≤ bank) && decide (bank < b + n)
  hit 0 || hit 1

/-! ### Bank groups -/

/-- The state of bank group `g` (R127): 0 OFF, 1 STARTING, 2 ON, 3 STOPPING. -/
def groupState (s : State) (t g : Nat) : Nat := bits (s.tf t R.SPGSTATE_G) (2 * g + 1) (2 * g)

/-- The state with bank group `g` in state `v`. -/
def setGroupState (s : State) (t g v : Nat) : State :=
  s.setTf t R.SPGSTATE_G ((wset (.ofNat 64 (s.tf t R.SPGSTATE_G)) (2 * g + 1) (2 * g) v).toNat)

/-- The bank groups of a context (R126), bit by bit. -/
def groupsOf (s : State) (t c : Nat) : Nat := if c = 0 then s.tf t R.SPCFG_PGRP else s.tf t R.SPCFG_BGRP

/-- Whether every group that [off, off + len) touches is ON and belongs to a context (R105, LocalOffset of R624). -/
def groupsOk (s : State) (t c off len : Nat) : Bool :=
  len == 0 || (List.range 8).all fun g =>
    decide (g < off / 0x4_0000) || decide ((off + len - 1) / 0x4_0000 < g) ||
      (groupState s t g == 2 && bitOf (groupsOf s t c) g)

/-! ### Reports of the dies (R530, R531) -/

/-- A report of four words. `kind` and `num` name the source, `cls` is 1 for SEC. -/
def mkReport (code cls kind num epoch seq : Nat) (d1 d2 : Word) : List Word :=
  [.ofNat 64 (code % 65536 + cls % 2 * 2 ^ 16 + kind % 8 * 2 ^ 24 + num % 65536 * 2 ^ 32),
   .ofNat 64 (epoch % 2 ^ 32 + seq % 2 ^ 32 * 2 ^ 32), d1, d2]

/-- The state with a report written into a queue of `slots` report slots whose pointers stand at `ptr` and whose slots stand from
`base`: at the tail, which then advances. DEDUCED (log 38). -/
def putReport (s : State) (base ptr slots : Nat) (r : List Word) : State :=
  let p := s.reg ptr
  let tail := wget p 15 8
  let s := (List.range 4).foldl (fun s w => s.setReg (base + 0x20 * tail + 8 * w) (r.getD w 0)) s
  s.setReg ptr (wset (wset p 15 8 ((tail + 1) % slots)) 24 16 (wget p 24 16 + 1))

/-- The state with a submission on its way to the kiln log (LOG_SUBMISSION takes it). -/
def State.submit (s : State) (l : LogSub) : State := { s with toLog := s.toLog ++ [l] }

/-- An OP record of the leading gatehouse with a detail field. -/
def State.logOp (s : State) (code detail : Nat) : State :=
  s.submit { code := code, src := 1 + s.fld .die 0 R.DLEASE_HOLDER, detail := detail }

/-- A SEC record of the lodge with a detail field. -/
def State.logSec (s : State) (code detail : Nat) : State := s.submit { sec := true, code := code, detail := detail }

/-- How many reports of one source stand in a gatehouse's mailbox (R530: a share of 4 slots each). DEDUCED (log 38). -/
def mailShare (s : State) (gh src : Nat) : Nat :=
  let p := s.reg (regAddr .gh gh R.GHMBOX)
  ((List.range (wget p 24 16)).filter fun i =>
    bits (s.reg (regAddr .gh gh (R.MBSLOT ((wget p 7 0 + i) % 256) 0))).toNat 47 24 == src).length

/-- A report written into a gatehouse's mailbox, held, or counted as lost (R530). DEDUCED (log 38). -/
def mailReport (s : State) (gh : Nat) (r : List Word) : State :=
  let ptr := regAddr .gh gh R.GHMBOX
  let src := bits ((r.getD 0 0).toNat) 47 24
  let held := mget (fun _ => []) s.mbHeld gh
  let mine := held.filter fun h => bits ((h.getD 0 0).toNat) 47 24 == src
  if mine.isEmpty ∧ mailShare s gh src < 4 ∧ wget (s.reg ptr) 24 16 < 256 then putReport s (regAddr .gh gh 0) ptr 256 r
  else if mine.length < 16 then { s with mbHeld := mput (fun _ => []) s.mbHeld gh (held ++ [r]) }
  else s.setReg ptr (wset (s.reg ptr) 63 32 (satAdd (wget (s.reg ptr) 63 32) 1 (2 ^ 32 - 1)))

/-- The gatehouse that leads, as die `d` holds it (R569). DEDUCED (log 38). -/
def leaderOf (s : State) (d : Nat) : Nat := s.fld .die d R.DLEASE_HOLDER

/-- A report of a unit of die `d` (DIE_REPORT), which the leading gatehouse logs: into the die's control queue, held when that is full, counted in `LOST` when 16 are
held; a hardware fault or failure notice (`hard`) also into the leading gatehouse's mailbox. DEDUCED (log 38). -/
def dieReport (s : State) (d code cls kind num : Nat) (d1 d2 : Word) (hard : Bool) : State :=
  let key := kind * 65536 + num
  let seq := mget (fun _ => 0) s.repSeq key
  let s := { s with repSeq := mput (fun _ => 0) s.repSeq key ((seq + 1) % 2 ^ 32) }
  let r := mkReport code cls kind num (s.fld .die d R.DLEASE_EPOCH) seq d1 d2
  let s := s.submit { sec := cls == 1, code := code, src := 1 + leaderOf s d, detail := d1.toNat }
  let ptr := regAddr .die d R.DCQPTR
  let held := mget (fun _ => []) s.cqHeld d
  let s :=
    if wget (s.reg ptr) 24 16 < 64 ∧ held.isEmpty then putReport s (regAddr .die d (R.DCQ 0 0)) ptr 64 r
    else if held.length < 16 then { s with cqHeld := mput (fun _ => []) s.cqHeld d (held ++ [r]) }
    else s.setReg ptr (wset (s.reg ptr) 63 32 (satAdd (wget (s.reg ptr) 63 32) 1 (2 ^ 32 - 1)))
  if hard then mailReport s (leaderOf s d) r else s

/-! ### The gather buffer -/

/-- Bit `i` of a row mask. -/
def maskBit (m : BitVec 64) (i : Nat) : Bool := bitOf m.toNat i

/-- The row of the gather buffer that holds a scratchpad row, if any. -/
def gbFind (x : Tile) (row : Nat) : Option GbEntry := x.gb.find? fun e => e.row == row

/-- Closes the merge entries of a row that is written (R114). -/
def closeMerge (x : Tile) (row : Nat) : Tile := { x with merge := x.merge.filter fun e => e.row ≠ row }

/-- The state with the dirty bytes of a gather-buffer entry written to the bank (R95). -/
def writeEntry (s : State) (t : Nat) (e : GbEntry) : State :=
  (List.range 64).foldl (fun s i =>
    if maskBit e.mask i then s.setByte (spadAddr t (64 * e.row + i)) (.ofNat 8 (bits e.data.toNat (8 * i + 7) (8 * i))) else s) s

/-- A drain of one entry (R95): its dirty bytes reach the bank; a merge entry for the row closes (R114); the entry stays as a
clean one where it holds the whole row, and is free otherwise. DEDUCED (log 16). -/
def drainRow (s : State) (t row : Nat) : State :=
  match gbFind (s.tile t) row with
  | none => s
  | some e =>
    if e.mask = 0 then s
    else
      let s := writeEntry s t e
      s.modTile t fun x =>
        let x := closeMerge x row
        { x with gb := if e.whole then x.gb.map fun e' => if e'.row = row then { e' with mask := 0, data := 0, sc := false, qp := false } else e'
                       else x.gb.filter fun e' => e'.row ≠ row }

/-- The drain of every dirty entry that satisfies `f` (R97), oldest first. -/
def drainIf (s : State) (t : Nat) (f : GbEntry → Bool) : State :=
  (((s.tile t).gb.filter fun e => e.mask ≠ 0 && f e).map GbEntry.row).foldl (fun s row => drainRow s t row) s

/-- The drain of every dirty entry. -/
def drainAll (s : State) (t : Nat) : State := drainIf s t fun _ => true

/-- A free entry of the gather buffer (R98): when all 16 are in use the least recently written one is freed, with a drain if it is
dirty (GATHER_BUFFER_FORCED_DRAIN). -/
def gbMakeRoom (s : State) (t : Nat) : State :=
  match (s.tile t).gb with
  | [] => s
  | e :: _ =>
    if (s.tile t).gb.length < 16 then s
    else (drainRow s t e.row).modTile t fun x => { x with gb := x.gb.filter fun e' => e'.row ≠ e.row }

/-- A write of bytes of one row into the gather buffer (R94), with the mark of its writer; an entry whose mask becomes all ones
drains (R95). -/
def gbWriteRow (s : State) (t row lo : Nat) (bs : List Byte) (qp : Bool) : State :=
  let s := if (gbFind (s.tile t) row).isSome then s else gbMakeRoom s t
  let e := (gbFind (s.tile t) row).getD { row := row, mask := 0, data := 0, whole := false, sc := false, qp := false }
  let put := (List.range bs.length).foldl (fun (md : Nat × Nat) i =>
    let k := lo + i
    (if bitOf md.1 k then md.1 else md.1 + 2 ^ k,
     md.2 - bits md.2 (8 * k + 7) (8 * k) * 2 ^ (8 * k) + (bs.getD i 0).toNat * 2 ^ (8 * k))) (e.mask.toNat, e.data.toNat)
  let full := decide (put.1 = 2 ^ 64 - 1)
  let e' : GbEntry := { row := row, mask := .ofNat 64 put.1, data := .ofNat 512 put.2, whole := e.whole || full,
                        sc := e.sc || !qp, qp := e.qp || qp }
  let s := s.modTile t fun x => { x with gb := (x.gb.filter fun e => e.row ≠ row) ++ [e'] }
  if full then drainRow s t row else s

/-- A write of bytes at a scratchpad offset through the gather buffer, row by row (R93, R627). DEDUCED (log 16). -/
def gbWrite (s : State) (t off : Nat) (bs : List Byte) (qp : Bool) : State :=
  let rows := if bs.isEmpty then [] else (List.range ((off + bs.length - 1) / 64 + 1 - off / 64)).map fun i => off / 64 + i
  rows.foldl (fun s row =>
    let lo := max off (64 * row)
    let hi := min (off + bs.length) (64 * row + 64)
    gbWriteRow s t row (lo - 64 * row) ((bs.drop (lo - off)).take (hi - lo)) qp) s

/-- One byte of a tile's own scratchpad as its own engines see it: the gather buffer's dirty byte over the bank's (R57, R96). -/
def ownByte (s : State) (t off : Nat) : Byte :=
  match gbFind (s.tile t) (off / 64) with
  | some e => if maskBit e.mask (off % 64) then .ofNat 8 (bits e.data.toNat (8 * (off % 64) + 7) (8 * (off % 64)))
              else s.byte (spadAddr t off)
  | none => s.byte (spadAddr t off)

/-- `n` bytes of a tile's own scratchpad as its own engines see them. -/
def ownRd (s : State) (t off n : Nat) : List Byte := (List.range n).map fun i => ownByte s t (off + i)

/-- A scalar load's effect on the buffer: a row that is not held fills a clean entry (R94). -/
def gbFill (s : State) (t off n : Nat) : State :=
  ((List.range ((off + n - 1) / 64 + 1 - off / 64)).map fun i => off / 64 + i).foldl (fun s row =>
    if (gbFind (s.tile t) row).isSome then s
    else (gbMakeRoom s t).modTile t fun x =>
      { x with gb := x.gb ++ [{ row := row, mask := 0, data := 0, whole := true, sc := false, qp := false }] }) s

/-- A write by ME, VE, SE or DM (R96), or by the QP into a ring: a dirty entry of a row written drains first, and no entry of the
row stays; the merge entries of the rows close (R114). -/
def ownWr (s : State) (t off : Nat) (bs : List Byte) : State :=
  let rows := if bs.isEmpty then [] else (List.range ((off + bs.length - 1) / 64 + 1 - off / 64)).map fun i => off / 64 + i
  let s := rows.foldl (fun s row =>
    (drainRow s t row).modTile t fun x => { closeMerge x row with gb := x.gb.filter fun e => e.row ≠ row }) s
  s.wr (spadAddr t off) bs

/-! ### The clocks of the array and the lanes (R158–R166) -/

/-- Governor units of an M-tile's ramp-up (R162): 4, 2 or 1 by `SOAKCFG.RAMP`, twice above the base clock. -/
def rampUpUnits (s : State) (t : Nat) : Nat :=
  let r := s.tf t R.SOAKCFG_RAMP
  (if r ≤ 2048 then 4 else if r ≤ 4096 then 2 else 1) * (if s.tf t R.TPWR_STEP > 0 then 2 else 1)

/-- Governor units of an M-tile's ramp-down (R162). -/
def rampDownUnits (s : State) (t : Nat) : Nat := if s.tf t R.TPWR_STEP > 0 then 2 else 1

/-- A tile's request to its governor, unless one waits already (R162). -/
def askUnits (s : State) (t n : Nat) : State :=
  if (s.tile t).wantUnits then s
  else { s.modTile t (fun x => { x with wantUnits := true }) with gov := s.gov ++ [(t, n)] }

/-- The state without a tile's request and units. -/
def dropUnits (s : State) (t : Nat) : State :=
  { s.modTile t (fun x => { x with wantUnits := false, units := 0 }) with gov := s.gov.filter fun r => r.1 ≠ t }

/-- A ramp-down is due (R160–R163): an M-tile asks for its units and holds its density until it has them, the lanes of another tile begin. DEDUCED (log 30). -/
def rampDown (s : State) (t : Nat) : State :=
  if classOf t = 0 then askUnits s t (rampDownUnits s t) else s.modTile t fun x => { x with phase := .rampDown }

/-- The ramp-down that the end of matrix work brings (R166): from its current step, under the governor. A clock that is gated or ramps down stays so.
DEDUCED (log 30). -/
def forceDown (s : State) (t : Nat) : State :=
  let p := (s.tile t).phase
  if p = .gated ∨ p = .rampDown then s
  else rampDown ((dropUnits s t).modTile t fun x => { x with phase := .hold }) t

/-- Rows reach the array of an M-tile, or work the lanes of a V- or S-tile (R163, R164): during the hold they enter at once; from ramp-down or a
gated clock a ramp-up begins at the present step, on an M-tile once the governor grants it. -/
def clockUp (s : State) (t : Nat) : State :=
  let x := s.tile t
  if x.phase = .full ∨ x.phase = .rampUp then s
  else if x.phase = .hold ∧ 16 ≤ x.step then (dropUnits s t).modTile t fun x => { x with phase := .full }
  else
    let s := (dropUnits s t).modTile t fun x => { x with phase := .rampUp, soaked := true }
    if classOf t = 0 then askUnits s t (rampUpUnits s t) else s

/-- A vector instruction works the lanes of a V- or S-tile (R163). -/
def clockLanes (s : State) (t : Nat) (e : Engine) : State := if e = .ve ∧ classOf t ≠ 0 then clockUp s t else s

/-- Whether rows may enter the array (R161, R162): at full density, during the hold, and in the permitted slots of a ramp-up that has its units. DEDUCED (log 31). -/
def rowsEnter (x : Tile) : Bool :=
  x.phase == .full || x.phase == .hold || (x.phase == .rampUp && !x.wantUnits && decide (0 < x.step))

/-- Whether the soaking engine of a tile has work: the multiply pipes and the panel loader of an M-tile, the lanes of another (R160). -/
def clockBusy (x : Tile) (t : Nat) : Bool :=
  x.flights.any fun f => match f.kind with
    | .mmul _ | .batch _ | .predMark _ | .mpanel .. | .soak _ => true
    | _ => classOf t != 0 && f.eng == .ve

/-- The hold begins once the soaking engine has nothing to do, whatever the tile's state, and is skipped under the long-wait flag (R160). DEDUCED (log 31). -/
def clockRest (s : State) (t : Nat) : State :=
  let s := if (s.tile t).phase = .full ∧ !clockBusy (s.tile t) t then s.modTile t fun x => { x with phase := .hold } else s
  if (s.tile t).phase = .hold ∧ (s.tile t).longWait then rampDown s t else s

/-- The end of matrix work: nothing of it is in flight, queued at the gate or waiting. -/
def endMatrix (x : Tile) : Tile := { x with gate := [], flights := x.flights.filter fun f => f.eng ≠ .me }

/-! ### Faults -/

/-- Stops a tile's instruction stream under R75: `HALTED` is set, what is still queued is discarded, and so are in-flight matrix
work and held gate requests, after which the array ramps down (R155, R166). What else has dispatched goes on. DEDUCED (log 30). -/
def stopTile (s : State) (t : Nat) : State :=
  forceDown ((s.setTf t R.TSTAT_HALTED 1).modTile t fun x => { endMatrix x with queue := [], held := none, longWait := false }) t

/-- The record of a fault in `TFAULT` and `TFADDR` (R78, R83, R84). DEDUCED (log 24). -/
def recordFault (s : State) (t bit pc daddr : Nat) : State :=
  let w := s.reg (regAddr .tile t R.TFAULT)
  let w := wset w bit bit 1
  let w := wset w 31 24 (satAdd (wget w 31 24) 1 0xFF)
  if bit = fWATCHDOG then s.setReg (regAddr .tile t R.TFAULT) w
  else if wget w 23 16 = 0 then
    ((s.setReg (regAddr .tile t R.TFAULT) (wset w 23 16 (bit + 1))).setTf t R.TFADDR_PC pc).setTf t R.TFADDR_DADDR daddr
  else s.setReg (regAddr .tile t R.TFAULT) w

/-- The report of a tile's fault or watchdog (R75, R76, R77, R530, R531), which the leading gatehouse also tells the host. DESIGN CHOICE (log 12). -/
def reportTile (s : State) (t kind : Nat) (hard : Bool) : State :=
  hostEvent (dieReport s (t / 256) (Config.eventCode kind) 0 1 t (s.reg (regAddr .tile t R.TFAULT)) (s.reg (regAddr .tile t R.TFADDR)) hard)
    (Config.eventCode kind) false t

/-- A program fault (PROGRAM_FAULT, R75) raised by the instruction at offset `pc`; a fenced tile raises none (R71, R72). -/
def progFault (s : State) (t bit pc daddr : Nat) : State :=
  if s.tstate t = fenced then s
  else reportTile (stopTile (recordFault s t bit pc daddr) t) t bit false

/-- The device leaves the job (R29): its leading gatehouse sends its partner a failure notice at once (R491). -/
def leaveJob (s : State) : State :=
  if s.left then s
  else
    let s := { s with left := true }
    if s.fld .ld 0 R.TWCFG_PAIREN = 0 then s
    else sendCtrl s (s.fld .ld 0 R.TWCFG_PARTNER) 0x04 8 (toBytes s.ownDev 2) .none

/-- The answer to a read that merge entries have served (R113, R296, R298): data, or an error completion. -/
def answerRead (s : State) (who : ReadBy) (status : Nat) (data : List Byte) : State :=
  match who with
  | .tile src tag => s.post (.readData src tag status data)
  | .packet die row col p => if status = stOK then sendRows s die row col p data else sendResponse s die row col p 6 status []

/-- The reads that merge entries have served are answered (R307): requesters of one row whose packets have reached the port share one response with a list. -/
def answerMerged (s : State) (rs : List MergedRead) : State :=
  let asPkt := fun (r : MergedRead) => match r.who with | .packet die row col p => if r.data.length ≤ 64 then some (die, row, col, p, r.data) else none | _ => none
  match rs.filterMap asPkt with
  | (die, row, col, p, data) :: q :: rest =>
    let s := s.send (.packet die row col 4 0 (respondList s p (p :: (q :: rest).map fun x => x.2.2.2.1) data))
    (rs.filter fun r => (asPkt r).isNone).foldl (fun s r => answerRead s r.who stOK r.data) s
  | _ => rs.foldl (fun s r => answerRead s r.who stOK r.data) s

/-- A fence (R68, R72): the tile stops for good; matrix work in flight is discarded and the array ramps down (R166); every requester of a merge
entry gets TARGET_FENCED (R308). -/
def fenceTile (s : State) (t : Nat) : State :=
  let rs := (s.tile t).merged
  let s := forceDown ((s.setTstate t fenced).modTile t fun x => { endMatrix x with merge := [], merged := [] }) t
  rs.foldl (fun s r => answerRead s r.who stTARGET_FENCED []) s

/-- A hardware fault (R76): the tile stops as for a program fault, is fenced, its position goes into the repair record, and the
device leaves the job. -/
def hardFault (s : State) (t bit pc daddr : Nat) : State :=
  if s.tstate t = fenced ∨ !s.bound t then s
  else
    let s := reportTile (stopTile (recordFault s t bit pc daddr) t) t bit true
    let s := fenceTile s t
    let p := s.physOf t
    leaveJob { s with fencedPos := if s.fencedPos.contains (t / 256, p.1, p.2) then s.fencedPos else s.fencedPos ++ [(t / 256, p.1, p.2)] }

/-- The physical row of a bank that a row maps to, through the bank's remap table (R109); a spare row that is itself remapped leads on. -/
def physRow (m : List (Nat × Nat)) (bank row : Nat) : Nat → Nat
  | 0 => row
  | n + 1 =>
    let r := mget (fun k => k % 2048) m (bank * 2048 + row)
    if r = row then row else physRow m bank r n

/-- Bank and physical row of a scratchpad offset (R89, R109). -/
def bankRow (s : State) (t off : Nat) : Nat × Nat :=
  let bank := 4 * (off / 0x4_0000) + bits off 7 6
  (bank, physRow (s.tile t).rowRemap bank (bits off 17 8) 16)

/-- The gatehouse's note of a parity error of a physical row (R107, R108), by calendar time. DESIGN CHOICE (log 37). -/
def noteRow (s : State) (t off : Nat) : State :=
  let r := bankRow s t off
  { s with rowNotes := s.rowNotes ++ [(posOf s t, r.1, r.2, s.utcPs)] }

/-- What a row read's parity check does (R107): a recovered error is recorded in `SPPERR` and noted by the gatehouse; an unrecovered
one, which counts for R108 too, raises PARITY with the row's address. `pc` is the offset for `TFADDR.PC` (R84). DESIGN CHOICE (log 37). -/
def parityEffect (s : State) (t pc : Nat) (par : Parity) : State :=
  match par with
  | .clean => s
  | .recovered off =>
    let r := bankRow s t off
    let s := s.setTf t R.SPPERR_COUNT (satAdd (s.tf t R.SPPERR_COUNT) 1 0xFFFF)
    noteRow ((s.setTf t R.SPPERR_BANK r.1).setTf t R.SPPERR_ROW r.2) t off
  | .unrecovered off => hardFault (noteRow s t off) t fPARITY pc (spadAddr t (off / 64 * 64))

/-! ### Address checks (R62, R624) -/

/-- A check's failure: the fault bit and the data address. -/
abbrev Chk (α : Type) := Except (Nat × Nat) α

/-- A scalar register of a context. -/
def rs (s : State) (t c n : Nat) : Word := mget (fun _ => 0) ((s.tile t).ctx c).s n

/-- An address register of a context. -/
def ra (s : State) (t c n : Nat) : Word := mget (fun _ => 0) ((s.tile t).ctx c).a n

/-- A vector register of a context. -/
def rv (s : State) (t c n : Nat) : Vec := mget (fun _ => 0) ((s.tile t).ctx c).v n

/-- A predicate register of a context; `p0` reads as all true (R61). -/
def rp (s : State) (t c n : Nat) : Pred := if n = 0 then BitVec.allOnes 256 else mget (fun _ => 0) ((s.tile t).ctx c).p n

/-- The state with a scalar register written. -/
def setS (s : State) (t c n : Nat) (v : Word) : State := s.modCtx t c fun x => { x with s := mput (fun _ => 0) x.s n v }

/-- The state with an address register written. -/
def setA (s : State) (t c n : Nat) (v : Word) : State := s.modCtx t c fun x => { x with a := mput (fun _ => 0) x.a n v }

/-- The state with a vector register written: an M- or S-tile holds its low 1,024 bits (R60). -/
def setV (s : State) (t c n : Nat) (v : Vec) : State :=
  s.modCtx t c fun x => { x with v := mput (fun _ => 0) x.v n (.ofNat 8192 (v.toNat % 2 ^ (8 * vbytes t))) }

/-- The state with a predicate register written: one bit for each lane of the tile; a write of `p0` is discarded (R61). -/
def setP (s : State) (t c n : Nat) (v : Pred) : State :=
  if n = 0 then s else s.modCtx t c fun x => { x with p := mput (fun _ => 0) x.p n (.ofNat 256 (v.toNat % 2 ^ lanesOf t)) }

/-- Window of R624: the package address that an access through address register `k` covers, or ACCESS. -/
def window (s : State) (t c k : Nat) (off : Int) (len : Nat) : Chk Nat :=
  let w := ra s t c k
  let base := wget w 39 0
  let bnd := wget w 63 40
  if bnd = 0 ∨ off < 0 ∨ off + len > 64 * bnd then .error (fACCESS, wrap (base + off) 40)
  else .ok (wrap (base + off) 40)

/-- Whether a range of package addresses touches a reserved one (R17); an unbound tile's addresses answer none (R18). DEDUCED (log 15). -/
def reservedAt (s : State) (a len : Nat) : Bool :=
  let bad := fun a => match regionOf s.grade a with
    | .reserved => true
    | .spad t _ => !s.bound t
    | .reg .tile t _ => !s.bound t
    | _ => false
  bad a || (len > 0 && bad (a + len - 1))

/-- LocalOffset of R624: the offset of a range of the tile's own scratchpad, in groups that are ON and belong to the active
context. -/
def localOffset (s : State) (t c x len : Nat) : Chk Nat :=
  if reservedAt s x len then .error (fADDRESS, x)
  else if x < spadAddr t 0 ∨ x + len > spadAddr t 0 + 0x20_0000 then .error (fACCESS, x)
  else if groupsOk s t c (x - spadAddr t 0) len then .ok (x - spadAddr t 0)
  else .error (fACCESS, x)

/-- LocalOffset of a Window. -/
def localWin (s : State) (t c k : Nat) (off : Int) (len : Nat) : Chk Nat :=
  match window s t c k off len with
  | .error e => .error e
  | .ok x => localOffset s t c x len

/-- A local range that is written: LocalOffset, and no byte of a program area (R47). -/
def localDst (s : State) (t c x len : Nat) : Chk Nat :=
  match localOffset s t c x len with
  | .error e => .error e
  | .ok o =>
    if (List.range (if len = 0 then 0 else (o + len - 1) / 64 + 1 - o / 64)).any fun i => inProgArea s t (64 * (o / 64 + i))
    then .error (fACCESS, x) else .ok o

/-- What a check finds, done on success, and its fault raised otherwise. -/
def chk {α : Type} (s : State) (t pc : Nat) (r : Chk α) (f : α → State) : State :=
  match r with
  | .ok v => f v
  | .error e => progFault s t e.1 pc e.2

/-! ### What the scoreboard and the waits look at -/

/-- Whether an operation in flight counts as not completed for R53, R66, R67, R240 and R633. A RECV that is blocked leaves its QP
idle for R68 but has not completed. -/
def Flight.recvBlocked (f : Flight) : Bool := match f.kind with | .recv .. => true | _ => false

/-- Whether an instruction sends writes, descriptors or contributions that an arrival waits for (R240). -/
def sendsOut (i : Instr) : Bool :=
  match i with
  | .send .. => true | .dmaw .. => true | .dmax .. => true | .dmaf .. => true | .dmam .. => true | _ => false

/-- Whether a flight still has such packets to send. -/
def Flight.sendsOut (f : Flight) : Bool :=
  match f.kind with
  | .sendWait .. => true
  | .dmax .. => true
  | .dma j => j.op == 5
  | _ => false

/-- Whether two ranges share a row, one of them written (R54). -/
def rangeConflict (a b : Range) : Bool :=
  (a.write || b.write) && a.len ≠ 0 && b.len ≠ 0 &&
    decide (a.lo / 64 ≤ (b.lo + b.len - 1) / 64) && decide (b.lo / 64 ≤ (a.lo + a.len - 1) / 64)

/-- Whether a later instruction has a hazard of R53 with an earlier one. Registers of different contexts differ; ranges and the
register block are the tile's. -/
def hazard (sameCtx : Bool) (early late : Foot) : Bool :=
  (sameCtx && (late.reads.any fun r => early.writes.contains r)) ||
  (sameCtx && (late.writes.any fun r => early.writes.contains r || early.reads.contains r)) ||
  (late.ranges.any fun r => early.ranges.any fun q => rangeConflict q r) ||
  late.own || early.own

/-- Range entries in use (R56, R82). -/
def sbUsed (x : Tile) : Nat :=
  (x.queue.map fun q => q.foot.ranges.length).foldl (· + ·) 0 + (x.flights.map fun f => f.foot.ranges.length).foldl (· + ·) 0

/-- Satisfied of R624, R230. -/
def satisfied (c v : Nat) : Bool := decide ((c + 2 ^ 32 - v % 2 ^ 32) % 2 ^ 32 < 2 ^ 31)

/-- The value of a counter of a context (R228). -/
def cntVal (s : State) (t c n : Nat) : Nat := s.tf t (R.CNT_VALUE c n)

/-- Whether every instruction that has dispatched has completed: none is in flight, none waits for answers to what it has sent (R636, R661), at the
gate or at a counter's bound. -/
def noneOpen (x : Tile) : Bool := x.flights.isEmpty && x.outst.isEmpty && x.gate.isEmpty && x.stalled.isEmpty

/-- Whether every earlier instruction of the tile has completed: no queue holds one and none is open (R66, R67, R649). -/
def allDone (x : Tile) : Bool := x.queue.isEmpty && noneOpen x

/-- Whether the sequencer's hold, if it is a wait, may go on (R745). -/
def holdReady (s : State) (t : Nat) (h : SeqHold) : Bool :=
  let x := s.tile t
  let c := s.actx t
  match h with
  | .cwait n v _ => satisfied (cntVal s t c n) v
  | .bwait g gen b _ _ =>
    decide ((s.tf t (R.TBAR_DONEGEN c g) + 256 - gen) % 256 < 128) && (!b || allDone x)
  | .barr g gen .. => decide ((s.tf t (R.TBAR_DONEGEN c g) + 1) % 256 = gen) && x.outst.isEmpty &&
      (x.queue.all fun q => !sendsOut q.instr) && (x.flights.all fun f => !f.sendsOut)
  | .fence => x.queue.all fun q => match q.instr with | .sst .. => false | _ => true
  | .ctx => allDone x
  | .halt => allDone x

/-- Whether the tile's held request may soak and sleep (R745). -/
def holdSleeps (h : SeqHold) : Bool :=
  match h with
  | .cwait .. => true
  | .bwait .. => true
  | .barr .. => true
  | _ => false

/-- A descriptor's four words from the tile's own scratchpad (R659). DESIGN CHOICE (log 11). -/
def readDesc (s : State) (t off : Nat) : Desc :=
  let bs := ownRd s t off 32
  { w0 := .ofNat 64 (numAt bs 8 0), w1 := .ofNat 64 (numAt bs 8 1), w2 := .ofNat 64 (numAt bs 8 2), w3 := .ofNat 64 (numAt bs 8 3) }

/-- What a DMAX waits for (R669): the counter and the value of its next entry, while that wait is not satisfied. -/
def dmaxWait (s : State) (t : Nat) (f : Flight) : Option (Nat × Nat) :=
  match f.kind with
  | .dmax _ next v0 =>
    let d := readDesc s t next
    let v := (v0 + d.winc) % 2 ^ 32
    if d.wen && !satisfied (cntVal s t f.ctx d.wcnt) v then some (d.wcnt, v) else none
  | _ => none

/-- The instruction at the head of an engine's queue. -/
def queueHead (x : Tile) (e : Engine) : Option Queued := x.queue.find? fun q => q.eng == e

/-- The wait field of a queue's head, while it is not satisfied (R231, R620): counter and value. -/
def headWait (s : State) (t : Nat) (q : Queued) : Option (Nat × Nat) :=
  if queueHead (s.tile t) q.eng ≠ some q then none
  else match q.wait with
    | some (n, v) => if satisfied (cntVal s t q.ctx n) v then none else some (n, v)
    | none => none

/-- The blocked RECV of a tile, if any (R252): queue. -/
def recvBlockedOn (x : Tile) : Option Nat :=
  x.flights.findSome? fun f => match f.kind with | .recv q _ _ _ => some q | _ => none

/-- Whether an engine of a tile waits for a context (R231, R233): a wait field at the head of a queue, a RECV on an empty queue, or the wait of a
DMAX entry. -/
def engineWaits (s : State) (t c : Nat) : Bool :=
  let x := s.tile t
  (x.queue.any fun q => q.ctx == c && (headWait s t q).isSome) ||
    (x.flights.any fun f => f.ctx == c && (f.recvBlocked || (dmaxWait s t f).isSome))

/-- Whether a wait of a context is outstanding (R233): a CWAIT or a barrier wait of the sequencer, or a wait of an engine. -/
def waitOutstanding (s : State) (t c : Nat) : Bool :=
  (s.actx t == c && (match (s.tile t).held with | some h => holdSleeps h | none => false)) || engineWaits s t c

/-! ### Registers as a reader sees them -/

/-- The offset of the next instruction to issue (R82). -/
def pcOff (s : State) (t : Nat) : Nat :=
  let c := s.actx t
  (progOffset s t c ((s.tile t).ctx c).idx).getD 0

/-- `BVWAITe` (R278): what engine `e` waits on. DEDUCED (log 76). -/
def bvwait (s : State) (t e : Nat) : Word :=
  let x := s.tile t
  let mk := fun idx kind val => Word.ofNatSafe (idx % 256 + kind * 256 + val % 2 ^ 32 * 65536)
  if e = 0 then
    match x.held with
    | some (.cwait n v _) => mk n 1 v
    | some (.bwait g gen ..) => mk g 2 gen
    | some (.barr g gen ..) => mk g 2 gen
    | _ => 0
  else
    match x.flights.find? fun f => engCode f.eng == e && (f.recvBlocked || (dmaxWait s t f).isSome) with
    | some f => (match f.kind with
      | .recv q _ _ _ => mk q 3 0
      | _ => (match dmaxWait s t f with | some (n, v) => mk n 1 v | none => 0))
    | none =>
      match (x.queue.find? fun q => engCode q.eng == e).bind (headWait s t) with
      | some (n, v) => mk n 1 v
      | none => 0
where
  /-- A number as a register word. -/
  Word.ofNatSafe (n : Nat) : Word := .ofNat 64 n

/-- `TID` (R80), from the binding. -/
def tidWord (s : State) (t : Nat) : Word :=
  let p := s.physOf t
  let g := match s.grade with | .cg2048 => 0 | .cg1920 => 1
  let cls := classOf t
  if s.bound t then
    .ofNat 64 (t + 2 ^ 11 + cls * 2 ^ 16 + t / 256 * 2 ^ 24 + p.1 * 2 ^ 32 + p.2 * 2 ^ 40 + g * 2 ^ 48)
  else .ofNat 64 (g * 2 ^ 48)

/-- A tile's register as a reader sees it: what is stored, with the fields that show other state put in. DESIGN CHOICE (log 13). DEDUCED (log 76). -/
def tileRegView (s : State) (t off : Nat) : Word :=
  let w := s.reg (regAddr .tile t off)
  let x := s.tile t
  let o := off % 0x8000
  let c := off / 0x8000
  if off = R.TID then tidWord s t
  else if off = R.TSTAT then
    let waiting := waitOutstanding s t 0 || waitOutstanding s t 1
    wset (wset (wset (wset w 7 7 (b2n waiting)) 13 8 (sbUsed x)) 14 14 (b2n x.queue.isEmpty)) 36 16 (pcOff s t)
  else if off = R.SPGB then
    .ofNat 64 (x.gb.length + (x.gb.filter fun e => e.mask ≠ 0).length * 256)
  else if off = R.MSTAT then
    let busy := fun (f : FlightKind → Bool) => b2n (x.flights.any fun g => f g.kind)
    let ast := if x.wantUnits then 5 else
      match x.phase with | .gated => 0 | .rampUp => 1 | .full => 2 | .hold => 3 | .rampDown => 4
    let w := wset w 1 0 (s.tf t (R.MGANG_MODE (s.actx t)))
    let w := wset w 2 2 (busy fun k => match k with | .mmul _ => true | .batch _ => true | _ => false)
    let w := wset w 3 3 (busy fun k => match k with | .mdrain .. => true | _ => false)
    let loads := fun (j : MmulJob) => j.held.isNone || decide (1 < j.panels)
    let w := wset w 4 4 (busy fun k => match k with | .mpanel .. => true | .mmul j => loads j | .batch js => js.any loads | _ => false)
    let w := wset (wset w 7 5 ast) 12 8 x.step
    -- SOAKOPS counts cycles, which the model has not: a free value once the array has been clocked since tile reset
    wset (wset (wset w 19 16 x.gate.length) 31 20 ((x.gate.map MmulJob.rows).foldl (· + ·) 0)) 63 32 (if x.soaked then Config.soakOps t s.fresh else 0)
  else if 0x4780 ≤ off ∧ off < 0x47B8 then bvwait s t ((off - 0x4780) / 8)
  else if 0x4400 ≤ o ∧ o < 0x4600 then
    let n := (o - 0x4400) / 8
    let waits := (List.range 7).foldl (fun m e =>
      let b := bvwait s t e
      m + (if s.actx t = c ∧ wget b 9 8 = 1 ∧ wget b 7 0 = n then 2 ^ e else 0)) 0
    wset (wset w 30 24 waits) 31 31 (b2n (x.stalled.any fun st => st.ctx == c && st.cnt == n))
  else if 0x4600 ≤ o ∧ o < 0x4780 then
    let g := (o - 0x4600) / 8
    let pend := match x.held with
      | some (.barr g' gen ..) => s.actx t == c && g' == g && decide ((s.tf t (R.TBAR_DONEGEN c g) + 1) % 256 ≠ gen)
      | _ => false
    wset w 24 24 (b2n pend)
  else if 0x4C00 ≤ off ∧ off < 0x4E00 ∧ off % 0x20 = 0x10 then
    let q := (off - 0x4C00) / 0x20
    wset (wset w 28 25 ((x.hold.filter fun h => h.msg.queue == q).length)) 60 60 (b2n (recvBlockedOn x == some q))
  else w

/-- Whether a message under way may stand on the network of die `d` (R325): on the die that it left, that it is bound for, or that it passes. DESIGN CHOICE (log 40). -/
def wireOnDie (s : State) (w : Wire) (d : Nat) : Bool :=
  match w with
  | .packet die .. => die == d
  | _ => match wireEnds s w with
    | some (g, e, _) => g == d || e == d || (wireLinks s w).any fun l => l.1 == d
    | none => match w with
      | .write t _ => t / 256 == d
      | .desc t _ => t / 256 == d
      | .contrib t _ => t / 256 == d
      | .readData t .. => t / 256 == d
      | .answer snd .. => !snd.notTile && snd.tile / 256 == d
      | .credit snd .. => !snd.notTile && snd.tile / 256 == d
      | _ => false

/-- Whether the mesh, ring and edge-router buffers of a die are empty (`RSSTAT.IDLE`, R325, R328). -/
def dieIdle (s : State) (d : Nat) : Bool :=
  (s.wires.all fun w => !wireOnDie s w d) && (s.links.all fun l => l.1 / 16 ≠ d || (l.2.wait.isEmpty && l.2.recv.isEmpty))

/-- A register at a package address as a reader sees it; a slot that holds none reads nothing. Write-only fields are never stored, so
they read 0 (R11). DEDUCED (log 76). -/
def readReg (s : State) (a : Nat) : Word :=
  match regionOf s.grade a with
  | .reg .tile t off => tileRegView s t off
  | .reg .die d off => if off = R.RSSTAT then wset (s.reg a) 0 0 (b2n (dieIdle s d)) else s.reg a
  | _ => s.reg a

/-- A write of a register under the access types of its fields (R11, R13): RW and RWS take the value, W1C bits clear where 1 is
written, RO and WO store nothing. `TFAULT` once all clear names no first fault (R78). DEDUCED (log 24). -/
def storeReg (s : State) (a : Nat) (v : Word) : State :=
  match regionOf s.grade a with
  | .reg b _ off =>
    match regDescAt b off with
    | none => s
    | some d =>
      let w := s.reg a
      let w := d.fields.foldl (fun w f =>
        match f.acc with
        | .RW => wset w f.hi f.lo (wget v f.hi f.lo)
        | .RWS => wset w f.hi f.lo (wget v f.hi f.lo)
        | .W1C => wset w f.hi f.lo (wget w f.hi f.lo &&& (2 ^ (f.hi + 1 - f.lo) - 1 - wget v f.hi f.lo))
        | _ => w) w
      let w := if b = .tile ∧ off = R.TFAULT ∧ wget w 13 0 = 0 then wset w 23 16 0 else w
      s.setReg a w
  | _ => s

/-! ### The sequencer -/

/-- Whether a tile is to be held at its next boundary (R81, R528). -/
def holdWanted (s : State) (t : Nat) : Bool :=
  s.tf t R.TCTL_HOLD == 1 || s.fld .die (t / 256) R.DLEASE_HELD == 1

/-- Whether the sequencer of a tile may issue: the tile runs, is bound, is neither halted nor held nor at the boundary where a hold
takes effect, and nothing holds its sequencer; a RECV blocked with everything else idle holds it too (R745). DESIGN CHOICE (log 11). -/
def canIssue (s : State) (t : Nat) : Bool :=
  s.bound t && s.tstate t == running && s.tf t R.TSTAT_HALTED == 0 && s.tf t R.TSTAT_HELD == 0 &&
    (s.tile t).held.isNone && !(holdWanted s t && s.tf t R.TSTAT_BOUNDARY == 1)

/-- The loop step after an instruction at index `i` that is no taken branch (R632, LOOP_BACK): the next index and the loop stack,
whose innermost loop is the head. -/
def nextIdx (i : Nat) (loops : List LoopEnt) : Nat × List LoopEnt :=
  match loops with
  | [] => (i + 1, [])
  | l :: ls =>
    if i = l.stop then
      if l.left > 1 then (l.start, { l with left := l.left - 1 } :: ls) else nextIdx i ls
    else (i + 1, l :: ls)

/-- A taken branch to `target` ends the loops whose body it leaves (R632). -/
def branchLoops (target : Nat) (loops : List LoopEnt) : List LoopEnt :=
  loops.dropWhile fun l => decide (target < l.start) || decide (target > l.stop)

/-- Whether the instruction at index `i` ends an active loop. -/
def endsLoop (i : Nat) (loops : List LoopEnt) : Bool :=
  match loops with
  | [] => false
  | l :: _ => l.stop == i

/-- A context that has issued the instruction at its index and goes on in order. -/
def Ctx.advance (x : Ctx) : Ctx :=
  let n := nextIdx x.idx x.loops
  { x with last := x.idx, idx := n.1, loops := n.2 }

/-- The state after a tile has issued an instruction that is no taken branch: index and loops advance, `BOUNDARY` clears (R67). -/
def advance (s : State) (t : Nat) : State :=
  (s.modCtx t (s.actx t) Ctx.advance).setTf t R.TSTAT_BOUNDARY 0

/-- The predicate bit of lane 0 (R621, R624). -/
def lane0 (s : State) (t c : Nat) (p : BitVec 3) : Bool := bitOf (rp s t c p.toNat).toNat 0

/-! ### Tile states -/

/-- A wake of a lent tile recalls its share (TILE_RECALL, R546). -/
def tileRecall (s : State) (t : Nat) : State :=
  if s.tf t R.TPWR_LENT = 1 then (s.setTf t R.TPWR_RECALL 1).setTf t R.TPWR_REDUCED 1 else s

/-- A wake event (R68, R71): a soaking tile runs at once, one asleep starts waking, any other takes nothing of it. -/
def wake (s : State) (t : Nat) : State :=
  if s.tstate t = soaking then tileRecall (s.setTstate t running) t
  else if s.tstate t = asleep then tileRecall (s.setTstate t waking) t
  else s

/-- Whether every engine is idle with every queue empty, where a blocked RECV leaves its QP idle (R68, R157). -/
def enginesIdle (x : Tile) : Bool :=
  x.queue.isEmpty && x.gate.isEmpty && x.stalled.isEmpty && x.flights.all Flight.recvBlocked

/-- What is left to do when a hold that is ready goes on, the tile running: the wait ends and the boundary and the landed-bytes check
follow (R67, R241); FENCE drains (R646); HALT drains and halts (R649); CTX drains, zeroes and switches (R66). A stalled arrival
stays held: BARRIER_ARRIVAL_SEND sends it. -/
def landedOk (s : State) (t : Nat) : Bool :=
  (List.range 16).all fun n =>
    if s.tf t (R.WKEXP_CHECK n) = 1 ∧ s.tf t (R.WKBASE_OWNER n) = s.actx t then
      decide (((List.range 32).foldl (fun a k =>
        if s.tf t (R.WKSEND_VALID n k) = 1 then a + s.tf t (R.WKLAND_BYTES n k) else a) 0) % 2 ^ 32 = s.tf t (R.WKEXP_BYTES n))
    else true

/-- The end of a barrier wait (R638: BarrierWait): BARRIER_CHECK under the K flag, `BOUNDARY` under the B flag. -/
def endBarrierWait (s : State) (t : Nat) (b k : Bool) : State :=
  let s := if b then s.setTf t R.TSTAT_BOUNDARY 1 else s
  let s := s.modTile t fun x => { x with held := none, longWait := false }
  if k && !landedOk s t then
    let c := s.actx t
    progFault s t fLANDED ((progOffset s t c ((s.tile t).ctx c).last).getD 0) 0
  else s

/-- The matrix panels, accumulators and marks as they read after task start, MGANG and CTX (R140, R401): a slot that holds nothing reads as zeros. -/
def zeroArray (x : Tile) : Tile := { x with acc := [], unmarked := [], slots := [] }

/-- Lets a hold that is ready go on while the tile runs. -/
def releaseHold (s : State) (t : Nat) : State :=
  match (s.tile t).held with
  | none => s
  | some h =>
    if !holdReady s t h then s
    else match h with
      | .cwait .. => s.modTile t fun x => { x with held := none, longWait := false }
      | .bwait _ _ b k _ => endBarrierWait s t b k
      | .barr .. => s
      | .fence => (drainAll s t).modTile t fun x => { x with held := none }
      | .halt => ((drainAll s t).modTile t fun x => { x with held := none }).setTf t R.TSTAT_HALTED 1
      | .ctx =>
        let c := s.actx t
        ((drainAll s t).modTile t fun x => { zeroArray x with held := none, fbuf := [] }).setTf t R.TSTAT_CTX (1 - c)

/-- Settles a tile after anything has reached it: a satisfied wait lets a running or soaking tile go on and wakes one asleep; a running
tile with nothing to do soaks (ENTER_SOAKING, R68), its hold skipped under the long-wait flag (R160). -/
def settle (s : State) (t : Nat) : State :=
  let x := s.tile t
  let st := s.tstate t
  if st = fenced then s
  else
    let ready := (match x.held with | some h => holdReady s t h | none => false) ||
      (match recvBlockedOn x with | some q => x.held.isNone && decide (s.tf t (R.QPTR_COUNT q) > 0) | none => false)
    let s := if ready ∧ s.tf t R.TSTAT_HELD = 0 ∧ s.tf t R.TSTAT_HALTED = 0 then wake s t else s
    let s := if s.tstate t = running then releaseHold s t else s
    let x := s.tile t
    let waits := match x.held with
      | some h => holdSleeps h && !holdReady s t h
      | none => (match recvBlockedOn x with | some q => decide (s.tf t (R.QPTR_COUNT q) = 0) | none => false)
    clockRest (if s.tstate t = running ∧ enginesIdle x ∧ (waits || s.tf t R.TSTAT_HALTED == 1 || s.tf t R.TSTAT_HELD == 1)
      then s.setTstate t soaking else s) t

/-! ### Counter signals -/

/-- Whether a signal to counter `n` would break its bound (R233). -/
def overBound (s : State) (t c n : Nat) : Bool :=
  s.tf t (R.CNTBOUND_EN c n) == 1 &&
    decide ((cntVal s t c n + 1 + 2 ^ 32 - cntVal s t c (s.tf t (R.CNTBOUND_PARTNER c n))) % 2 ^ 32 > s.tf t (R.CNTBOUND_DEPTH c n))

/-- A signal applied (R228, R636, R654): the counter rises by 1, the record of its last signal is kept, and a status other than OK
is merged. A signal by SC or QP drains what it owns first (R97). DEDUCED (log 23). -/
def applySignal (s : State) (t c n code : Nat) (e : Engine) (pc : Nat) : State :=
  let s := if e = .sc then drainIf s t (fun g => g.sc) else if e = .qp then drainIf s t (fun g => g.qp) else s
  let s := s.setTf t (R.CNT_VALUE c n) ((cntVal s t c n + 1) % 2 ^ 32)
  let s := (s.setTf t (R.CNTLAST_PC c n) pc).setTf t (R.CNTLAST_ENGINE c n) (engCode e)
  if code = stOK then s
  else (s.setTf t (R.CNTST_WORST c n) (max (s.tf t (R.CNTST_WORST c n)) code)).setTf t (R.CNTST_ERRS c n)
    (satAdd (s.tf t (R.CNTST_ERRS c n)) 1 0xFFFF)

/-- Whether a dispatched instruction of a context names counter `q` as its completion counter (R233). -/
def namesCounter (x : Tile) (c q : Nat) : Bool :=
  (x.flights.any fun f => f.ctx == c && f.cnt == some q) || (x.outst.any fun o => o.ctx == c && o.cnt == some q) ||
    (x.gate.any fun j => j.ctx == c && j.cnt == some q) ||
    (x.flights.any fun f => match f.kind with | .batch js => js.any fun j => j.ctx == c && j.cnt == some q | _ => false)

/-- Whether a stalled signal may still be released (R233, R234). -/
def stallLives (s : State) (t c n : Nat) : Bool :=
  waitOutstanding s t c || namesCounter (s.tile t) c (s.tf t (R.CNTBOUND_PARTNER c n))

/-- Signal of R624 (COUNTER_SIGNAL): applied, stalled at the counter's bound, or lost with a COUNTER fault (R233). DEDUCED (log 23). -/
def signal (s : State) (t c n code : Nat) (e : Engine) (pc : Nat) : State :=
  if overBound s t c n then
    if stallLives s t c n then
      s.modTile t fun x => { x with stalled := x.stalled ++ [{ ctx := c, cnt := n, code := code, eng := e, pc := pc }] }
    else progFault s t fCOUNTER pc 0
  else applySignal s t c n code e pc

/-- A completion: its counter is signalled if it has one. -/
def complete (s : State) (t c : Nat) (cnt : Option Nat) (code : Nat) (e : Engine) (pc : Nat) : State :=
  match cnt with
  | some n => signal s t c n code e pc
  | none => s

/-! ### Issue and dispatch -/

/-- The DMA operations that have dispatched and not completed, each once: those in flight and those whose packets await answers. -/
def dmOpen (x : Tile) : Nat :=
  let fs := (x.flights.filter fun f => f.eng == .dm && (match f.kind with | .dmax .. => false | _ => true)).map fun f => f.id + 1
  let os := (x.outst.filter fun o => o.eng == .dm).map fun o => match o.grp with | some g => g | none => 2 ^ 64 + o.tag
  ((fs ++ os).eraseDups).length

/-- Whether the DM engine has room for a further descriptor (R661): 16 in all, 32 transfers that leave the device. -/
def dmRoom (x : Tile) : Bool := decide (dmOpen x < 16) && decide ((x.outst.filter fun o => o.off).length < 32)

/-- Whether a DMA operation has requests that a full queue keeps it from making (R112, R338). -/
def Flight.asks (f : Flight) : Bool := match f.kind with | .dma j => !j.toRead.isEmpty || !j.toWrite.isEmpty | _ => false

/-- Whether an engine is occupied by something that keeps its queue's head waiting beyond the scoreboard: a stalled signal, a RECV
on an empty queue or a SEND short of credit (QP), a DMAX, the limits of R661 or a full queue (DM), a set operation (SE), a CONE or SOAK (VE,
ME). -/
def engineBusy (x : Tile) (e : Engine) : Bool :=
  (x.stalled.any fun st => st.eng == e) ||
  match e with
  | .qp => x.flights.any fun f => match f.kind with | .recv .. => true | .sendWait .. => f.eng == .qp | _ => false
  | .dm => (x.flights.any fun f => match f.kind with | .dmax .. => true | _ => f.asks) || !dmRoom x
  | .se => x.flights.any fun f => f.eng == .se
  | .ve => x.flights.any fun f => f.eng == .ve
  | .me => x.flights.any fun f => match f.kind with | .soak _ => true | _ => false
  | _ => false

/-- The instruction behind a CSIG waits for the engine's earlier ones (R633). -/
def isCsig (i : Instr) : Bool := match i with | .csig .. => true | _ => false

/-! ### The matrix engine's queue (R150, R153–R155, R405) -/

/-- Whether an ME instruction goes into the batch gate: an MMUL with GATE while the gate is enabled (R153, R155). -/
def gatedInstr (s : State) (t c : Nat) (i : Instr) : Bool :=
  match i with
  | .mmul _ f => bitOf f.mod.toNat 1 && s.tf t (R.MGANG_DEADLINE c) != 0
  | _ => false

/-- The release of the held batch (BATCH_GATE_RELEASE, R155, R156), whose rows reach the multiply pipe (R164). -/
def releaseGate (s : State) (t : Nat) : State :=
  match (s.tile t).gate with
  | [] => s
  | j :: js => (clockUp s t).modTile t fun x =>
      { x with gate := [], nextId := x.nextId + 1,
               flights := x.flights ++ [{ id := x.nextId, eng := .me, ctx := j.ctx, pc := j.pc, foot := {}, cnt := none, kind := .batch (j :: js) }] }

/-- An instruction at the head of an engine queue: an ME instruction that does not join the gate releases it. -/
def atHead (s : State) (t : Nat) (e : Engine) (c : Nat) (i : Instr) : State :=
  if e == .me && !gatedInstr s t c i then releaseGate s t else s

/-- Whether two ranges of accumulator rows of sub-arrays share a row. -/
def rowsMeet (sub first rows sub' first' rows' : Nat) : Bool :=
  sub == sub' && decide (first < first' + rows') && decide (first' < first + rows)

/-- Whether an operation in flight still writes some of the accumulator rows. -/
def writesRows (f : Flight) (sub first rows : Nat) : Bool :=
  match f.kind with
  | .mmul j => rowsMeet j.sub j.first j.rows sub first rows
  | .predMark j => rowsMeet j.sub j.first j.rows sub first rows
  | .batch js => js.any fun j => rowsMeet j.sub j.first j.rows sub first rows
  | _ => false

/-- What keeps an ME instruction waiting inside the ME: MGANG for everything (R146), a multiply, whose own panels go into the slots after the loads before
it, for a panel load of its array (R137, R150, R681), MDRAIN for the multiplies that write its rows (R150, R405). -/
def meWaits (x : Tile) (q : Queued) : Bool :=
  let loading := x.flights.any fun f => match f.kind with | .mpanel k _ => k / 2 == wget (q.vals.getD 0 0) 37 36 | _ => false
  match q.instr with
  | .mgang .. => !x.gate.isEmpty || (x.flights.any fun f => f.eng == .me)
  | .mmul .. => loading
  | .mpred .. => loading
  | .mdrain .. =>
    let w := q.vals.getD 0 0
    x.flights.any fun f => writesRows f (wget w 41 40) (wget w 23 12) (wget w 11 0)
  | _ => false

/-- Whether a queued instruction may dispatch (R50–R56, R620): it stands at the head of its engine's queue, no earlier instruction
has a hazard with it, its wait is satisfied, and its engine can take it. -/
def canDispatch (s : State) (t : Nat) (q : Queued) : Bool :=
  let x := s.tile t
  let earlier := x.queue.filter fun p => decide (p.id < q.id)
  (earlier.all fun p => p.eng ≠ q.eng) &&
  (earlier.all fun p => !hazard (p.ctx == q.ctx) p.foot q.foot) &&
  (x.flights.all fun f => !hazard (f.ctx == q.ctx) f.foot q.foot) &&
  (!q.foot.own || noneOpen x) &&
  (!isCsig q.instr || (x.flights.all fun f => f.eng ≠ q.eng)) &&
  (match q.wait with | some (n, v) => satisfied (cntVal s t q.ctx n) v | none => true) &&
  !engineBusy x q.eng && !meWaits x q

/-- What an instruction needs at issue. -/
structure IssueReq where
  instr : Instr
  eng : Engine
  legal : Bool
  wait : BitVec 13
  foot : Foot
  /-- Registers that must have no write pending at issue (R742, R679), as scoreboard numbers. -/
  need : List Nat
  /-- Scalar registers read at issue. -/
  vals : List Nat
  /-- Scratchpad offset of the descriptor read at issue (R742). -/
  desc : Option Nat
  /-- Registers of the tile's block say where its ranges lie (numerics slots, channels, the cone area): it does not issue while an access to that block is
  queued (R742). -/
  locates : Bool := false
  deriving DecidableEq, Repr

/-- The wait field is legal (R620). -/
def waitLegal (w : BitVec 13) : Bool := bitOf w.toNat 12 || decide (w = 0)

/-- Whether an instruction that has not completed is to write one of some registers of a context (R51, R53). -/
def pendingWrite (x : Tile) (c : Nat) (rs : List Nat) : Bool :=
  rs.any fun n => (x.queue.any fun q => q.ctx == c && q.foot.writes.contains n) ||
    (x.flights.any fun f => f.ctx == c && f.foot.writes.contains n)

/-- Whether an instruction that has issued is still to read one of some registers of a context (R53, write after read). -/
def pendingRead (x : Tile) (c : Nat) (rs : List Nat) : Bool :=
  rs.any fun n => (x.queue.any fun q => q.ctx == c && q.foot.reads.contains n) ||
    (x.flights.any fun f => f.ctx == c && f.foot.reads.contains n)

/-- Whether issue must wait (R50, R56, R742): the engine's queue is full, the range entries do not suffice, the descriptor's own included, a register that
locates a range or is read at issue has a write pending, or a row of the descriptor is held by a write entry. DESIGN CHOICE (log 11, log 80). -/
def issueWaits (x : Tile) (c : Nat) (r : IssueReq) : Bool :=
  decide (8 ≤ (x.queue.filter fun q => q.eng == r.eng).length) ||
  decide (32 < sbUsed x + r.foot.ranges.length + (if r.desc.isSome then 1 else 0)) ||
  (r.locates && x.queue.any fun q => q.foot.own) ||
  pendingWrite x c (r.need ++ r.vals ++ if bitOf r.wait.toNat 12 then [bits r.wait.toNat 5 0] else []) ||
  (match r.desc with
   | some o => (x.queue.any fun q => q.foot.ranges.any fun g => rangeConflict g ⟨o, 32, false⟩) ||
       (x.flights.any fun f => f.foot.ranges.any fun g => rangeConflict g ⟨o, 32, false⟩)
   | none => false)

/-- What every instruction meets when it comes to issue (R619, R623, R38): `f` is done with its context and offset when it is
legal. DESIGN CHOICE (log 11). -/
def atIssue (s : State) (t : Nat) (e : Engine) (legal : Bool) (f : Nat → Nat → State) : State :=
  if !canIssue s t then s
  else
    let c := s.actx t
    let x := (s.tile t).ctx c
    match progOffset s t c x.idx with
    | none => settle (progFault s t fILLEGAL ((progOffset s t c x.last).getD 0) 0) t
    | some pc => if legal && hasEngine t e then f c pc else settle (progFault s t fILLEGAL pc 0) t

/-- The issue of an engine's instruction and, when nothing keeps it in its queue, its dispatch (R50–R56). DESIGN CHOICE (log 11). DEDUCED (log 17). -/
def issue (s : State) (t : Nat) (r : IssueReq) (eff : Queued → State → State) : State :=
  atIssue s t r.eng (r.legal && waitLegal r.wait) fun c pc =>
    let x := s.tile t
    if issueWaits x c r then s
    else
      let q : Queued :=
        { id := x.nextId, instr := r.instr, eng := r.eng, ctx := c, pc := pc, foot := r.foot,
          wait := if bitOf r.wait.toNat 12 then
              some (bits r.wait.toNat 11 6, (rs s t c (bits r.wait.toNat 5 0)).toNat % 2 ^ 32) else none,
          vals := r.vals.map fun n => rs s t c n, desc := r.desc.map fun o => readDesc s t o }
      let s := (advance s t).modTile t fun x => { x with nextId := x.nextId + 1 }
      let s := if x.queue.any fun p => p.eng == q.eng then s else atHead s t q.eng c q.instr
      if canDispatch s t q then settle (eff q (clockLanes s t q.eng)) t
      else s.modTile t fun x => { x with queue := x.queue ++ [q] }

/-- A Foot's range where a check has located it; none where the check fails (the fault comes at dispatch). -/
def rangeOf (r : Chk Nat) (len : Nat) (write : Bool) : List Range :=
  match r with
  | .ok o => [⟨o, len, write⟩]
  | .error _ => []

/-- The state with an operation put in flight. -/
def addFlight (s : State) (t : Nat) (f : Flight) : State := s.modTile t fun x => { x with flights := x.flights ++ [f] }

/-- The state with the flight of an issue number taken off. -/
def dropFlight (s : State) (t id : Nat) : State := s.modTile t fun x => { x with flights := x.flights.filter fun f => f.id ≠ id }

end Sys2Proof.Machine
end

