-- ==== Sys2Proof/Machine/Transfer.lean ====
section
/-!
DEFINITION. A tile's outgoing transfers: remote writes and messages, their packets on the package and over CXT, and the answers that
complete them (R115, R121, R240, R261, R429–R433, R640, R746); and the forwarding of a DMAF (R457).
-/

namespace Sys2Proof.Machine

/-- How a tile names itself as a sender (R115, R296). -/
def tileSender (s : State) (t : Nat) : Sender := { dev := s.ownDev, tile := t, notTile := false }

/-- A tile with a new outstanding transfer. -/
def addOutst (s : State) (t : Nat) (o : Outst) : State := s.modTile t fun x => { x with outst := x.outst ++ [o] }

/-- A new tag of a tile's transfers. -/
def newTag (s : State) (t : Nat) : Nat × State := ((s.tile t).nextTag, s.modTile t fun x => { x with nextTag := x.nextTag + 1 })

/-- The pieces of a range that lie each within one 64 B row (R115): address and length. -/
def rowPieces (addr len : Nat) : List (Nat × Nat) :=
  if len = 0 then []
  else (List.range ((addr + len - 1) / 64 + 1 - addr / 64)).map fun i =>
    let lo := max addr (64 * (addr / 64 + i))
    let hi := min (addr + len) (64 * (addr / 64 + i) + 64)
    (lo, hi - lo)

/-- Whether a send of a group of transfers still waits for credit. -/
def Flight.waitsIn (f : Flight) (g : Nat) : Bool := match f.kind with | .sendWait _ _ _ grp _ => grp == some g | _ => false

/-- The end of one transfer (R121, R261, R432): when it is the last of its instruction, the counter is signalled with the worst
status; a DMAF that has rows to send keeps the status (R457). -/
def endOutst (s : State) (t : Nat) (o : Outst) : State :=
  let s := s.modTile t fun x => { x with outst := x.outst.filter fun p => p.tag ≠ o.tag }
  match o.grp with
  | none => complete s t o.ctx o.cnt o.worst o.eng o.pc
  | some g =>
    if (s.tile t).outst.any fun p => p.grp == some g then
      s.modTile t fun x => { x with outst := x.outst.map fun p => if p.grp = some g then { p with worst := max p.worst o.worst } else p }
    else if (s.tile t).flights.any fun f => f.id + 1 == g then
      s.modTile t fun x => { x with flights := x.flights.map fun f => match f.kind with
        | .dma j => if f.id + 1 = g then { f with kind := .dma { j with worst := max j.worst o.worst } } else f
        | _ => f }
    else if (s.tile t).flights.any fun f => f.waitsIn g then
      s.modTile t fun x => { x with flights := x.flights.map fun f => match f.kind with
        | .sendWait ch d p grp w => if f.waitsIn g then { f with kind := .sendWait ch d p grp (max w o.worst) } else f
        | _ => f }
    else complete s t o.ctx o.cnt o.worst o.eng o.pc

/-- One packet of a transfer answered (R121, R261, R746): a rejection returns a message's credit; CHANNEL_CLOSED closes the channel;
WICKET_MISS raises WICKET at the sender (R116). -/
def answerTransfer (s : State) (t tag status : Nat) : State :=
  match (s.tile t).outst.find? fun o => o.tag == tag with
  | none => s
  | some o =>
    let s := match o.chan with
      | some ch =>
        if status = stOK then s
        else
          let s := if status = stCHANNEL_CLOSED then s.setTf t (R.CHROUTE_CLOSED ch) 1 else s
          (s.setTf t (R.CHCR_DCRED ch) (s.tf t (R.CHCR_DCRED ch) + 1)).setTf t (R.CHCR_PCRED ch) (s.tf t (R.CHCR_PCRED ch) + o.units)
      | none => s
    let s := if status = stWICKET_MISS then progFault s t fWICKET o.pc o.addr else s
    let o := { o with left := o.left - 1, worst := max o.worst status }
    if o.left = 0 then endOutst s t o
    else s.modTile t fun x => { x with outst := x.outst.map fun p => if p.tag = tag then o else p }

/-- The DMA operation that a group of writes belongs to. -/
def groupOp (s : State) (t : Nat) (grp : Option Nat) : Option Nat :=
  grp.bind fun g => (s.tile t).flights.findSome? fun f => match f.kind with | .dma j => if f.id + 1 = g then some j.op else none | _ => none

/-- The traffic of a group's writes to a device (R419): what a DMAF forwards is key and value traffic where an up CAROUSEL port leads to the device, and every other
write is FABRIC traffic. DESIGN CHOICE (log 91). -/
def writeTraffic (s : State) (t dev : Nat) (grp : Option Nat) : Nat :=
  if groupOp s t grp = some 5 ∧ (List.range 64).any (fun p => portUp s p && s.pf p R.FPCFG_ROLE == roleCAROUSEL && portMeets s p dev) then roleCAROUSEL
  else roleFABRIC

/-- Remote-write packets of one range (R115, R667, R435): to a tile of the package one packet for each row piece, to another device
WRITEs of up to 4 KiB on the tile's path, a DMAM's marked as multicast copies (R425). Nothing to send completes with OK; an unreachable device at once with ADDRESS. -/
def sendWrites (s : State) (t c pc : Nat) (e : Engine) (cnt : Option Nat) (grp : Option Nat) (dev addr epoch wq : Nat) (data : List Byte) :
    State :=
  let (tag, s) := newTag s t
  let mk := fun left worst => ({ tag := tag, ctx := c, pc := pc, eng := e, left := left, worst := worst, cnt := cnt, chan := none,
                                 units := 0, grp := grp, addr := addr } : Outst)
  if data.isEmpty then endOutst (addOutst s t (mk 0 stOK)) t (mk 0 stOK)
  else if dev = s.ownDev then
    let ps := rowPieces addr data.length
    let dst := (addr - spadAddr 0 0) / 0x20_0000
    ps.foldl (fun s p => s.post (.write dst ⟨p.1, (data.drop (p.1 - addr)).take p.2, tileSender s t, epoch, tag⟩))
      (addOutst s t (mk ps.length stOK))
  else if !cxtReaches s dev then endOutst (addOutst s t (mk 0 stADDRESS)) t (mk 0 stADDRESS)
  else
    let n := cdiv data.length 4096
    let many := groupOp s t grp == some 6
    let traffic := writeTraffic s t dev grp
    (List.range n).foldl (fun s i =>
      let h := { baseHdr s opWRITE dev (t % 64) with
        last := i + 1 == n, mcast := many, addr := addr + 4096 * i, stile := t, notTile := false, epoch := epoch, wq := wq, tag := tag % 65536 }
      cxtEmit s dev (t % 64) traffic h none ((data.drop (4096 * i)).take 4096) (.tile t tag)) (addOutst s t { mk n stOK with off := true })

/-- JWRITEs of one range to the partner's twin region (R486, R666): a JWRITE to the device itself completes at once with ADDRESS. -/
def sendJwrites (s : State) (t c pc : Nat) (cnt : Option Nat) (grp : Option Nat) (dev addr : Nat) (data : List Byte) : State :=
  let (tag, s) := newTag s t
  let mk := fun left worst => ({ tag := tag, ctx := c, pc := pc, eng := .dm, left := left, worst := worst, cnt := cnt, chan := none,
                                 units := 0, grp := grp, addr := addr } : Outst)
  if data.isEmpty then endOutst (addOutst s t (mk 0 stOK)) t (mk 0 stOK)
  else if dev = s.ownDev ∨ !cxtReaches s dev then endOutst (addOutst s t (mk 0 stADDRESS)) t (mk 0 stADDRESS)
  else
    let n := cdiv data.length 4096
    (List.range n).foldl (fun s i =>
      let h := { baseHdr s opJWRITE dev (t % 64) with
        last := i + 1 == n, mcast := grp.isSome, addr := addr + 4096 * i, stile := t, notTile := false, tag := tag % 65536 }
      cxtEmit s dev (t % 64) roleTWIN h none ((data.drop (4096 * i)).take 4096) (.tile t tag)) (addOutst s t { mk n stOK with off := true })

/-! ### Messages -/

/-- Payload units of a message and the pad before them (R248, R249): units of 64 B, and the space to the ring's end where they do not
fit. -/
def unitsAndPad (len ptail size : Nat) : Nat × Nat :=
  let u := cdiv len 64
  (u, if size - ptail < u then size - ptail else 0)

/-- The checks of a send before its credit (R640): CHANNEL, MSGSIZE, the payload's range. -/
def sendCheck (s : State) (t c ch : Nat) (d : Desc) : Chk Nat :=
  let psize := s.tf t (R.CHCR_PSIZE ch)
  if !d.legal then .error (fILLEGAL, 0)
  else if s.tf t (R.CHROUTE_VALID ch) = 0 ∨ s.tf t (R.CHROUTE_OWNER ch) ≠ c then .error (fCHANNEL, 0)
  else if psize > 0 ∧ d.len > 64 * psize then .error (fMSGSIZE, 0)
  else if s.tf t (R.CHROUTE_BASIN ch) = 1 ∧ d.len > 4096 then .error (fMSGSIZE, 0)
  else if psize > 0 ∨ s.tf t (R.CHROUTE_BASIN ch) = 1 then localOffset s t c d.src d.len
  else .ok 0

/-- Whether a message carries a payload (R640). -/
def carriesPayload (s : State) (t ch : Nat) : Bool := decide (s.tf t (R.CHCR_PSIZE ch) > 0) || s.tf t (R.CHROUTE_BASIN ch) == 1

/-- Whether a channel holds the credit for a payload of `len` bytes (R249). -/
def creditOk (s : State) (t ch len : Nat) : Bool :=
  let psize := s.tf t (R.CHCR_PSIZE ch)
  let up := unitsAndPad len (s.tf t (R.CHCR_PTAIL ch)) psize
  decide (1 ≤ s.tf t (R.CHCR_DCRED ch)) && (psize == 0 || decide (up.1 + up.2 ≤ s.tf t (R.CHCR_PCRED ch)))

/-- The injection of a message (R249, R258, R640): credit is spent, the descriptor takes the channel's epoch, and the descriptor and
its payload leave for their queue or basin, over CXT when it lies on another device (R425: ADDR names the queue). DEDUCED (log 20). -/
def injectMsg (s : State) (t c pc : Nat) (e : Engine) (grp : Option Nat) (w0 ch : Nat) (d : Desc) (payload : List Byte) : State :=
  let psize := s.tf t (R.CHCR_PSIZE ch)
  let ptail := s.tf t (R.CHCR_PTAIL ch)
  let up := if psize = 0 then (0, 0) else unitsAndPad payload.length ptail psize
  let dev := s.tf t (R.CHROUTE_DEV ch)
  let dst := s.tf t (R.CHROUTE_TILE ch)
  let qn := s.tf t (R.CHROUTE_QUEUE ch)
  let basin := s.tf t (R.CHROUTE_BASIN ch) == 1
  let d := d.setEpoch (s.tf t (R.CHROUTE_EPOCH ch))
  let (tag, s) := newTag s t
  let mk := fun left worst => ({ tag := tag, ctx := c, pc := pc, eng := e, left := left, worst := max w0 worst, cnt := d.cnt, chan := some ch,
                                 units := up.1 + up.2, grp := grp } : Outst)
  if dev ≠ s.ownDev ∧ !cxtReaches s dev then
    let o := { mk 0 stADDRESS with chan := none }
    endOutst (addOutst s t o) t o
  else
    let s := s.setTf t (R.CHCR_DCRED ch) (s.tf t (R.CHCR_DCRED ch) - 1)
    let s := if psize = 0 then s
      else (s.setTf t (R.CHCR_PCRED ch) (s.tf t (R.CHCR_PCRED ch) - (up.1 + up.2))).setTf t (R.CHCR_PTAIL ch)
        ((if up.2 > 0 then up.1 else ptail + up.1) % psize)
    if dev = s.ownDev then
      let m : Msg := { queue := qn, chan := ch, sender := tileSender s t, epoch := d.epoch, desc := d, payload := payload, tag := tag }
      (addOutst s t (mk 1 stOK)).post (if basin then .contrib dst m else .desc dst m)
    else
      let all := d.bytes ++ payload
      let n := cdiv all.length 4096
      (List.range n).foldl (fun s i =>
        let h := { baseHdr s opSEND dev ch with
          last := i + 1 == n, mcast := grp.isSome, addr := regAddr .tile dst (R.QCFG qn), stile := t, notTile := false,
          epoch := s.tf t (R.CHROUTE_EPOCH ch), wq := d.wq, tag := tag % 65536 }
        cxtEmit s dev ch roleFABRIC h none ((all.drop (4096 * i)).take 4096) (.tile t tag)) (addOutst s t { mk n stOK with off := true })

/-- A send past its checks (R261, R640), with the worst status `w0` of its group so far: at once CHANNEL_CLOSED on a closed channel, otherwise injected when there is credit; `none`
when it must wait for credit. -/
def trySend (s : State) (t c pc : Nat) (e : Engine) (grp : Option Nat) (w0 ch : Nat) (d : Desc) (payload : List Byte) : Option State :=
  if s.tf t (R.CHROUTE_CLOSED ch) = 1 then
    let (tag, s) := newTag s t
    let o : Outst := { tag := tag, ctx := c, pc := pc, eng := e, left := 0, worst := max w0 stCHANNEL_CLOSED, cnt := d.cnt, chan := none,
                       units := 0, grp := grp }
    some (endOutst (addOutst s t o) t o)
  else if creditOk s t ch payload.length then some (injectMsg s t c pc e grp w0 ch d payload)
  else none

/-! ### DMAF -/

/-- Wrap-aware comparison of a landed count with an expected one (R123). -/
def reached (count e : Nat) : Bool := satisfied count e

/-- The landed count of a wicket's sender slot. -/
def landed (s : State) (t w k : Nat) : Nat := if k < 32 then s.tf t (R.WKLAND_BYTES w k) else 0

/-- Sends the rows of a DMAF whose landed count has been reached (DMAF_ROW_FORWARD, R457), one after another. -/
def dmafRows (s : State) (t : Nat) (f : Flight) (j : DmaJob) : Nat → State × DmaJob
  | 0 => (s, j)
  | n + 1 =>
    let d := j.desc
    let len := min 64 (d.len - 64 * j.sent)
    if 64 * j.sent ≥ d.len then (s, j)
    else if !reached (landed s t d.wq d.slotk) ((d.expect + min (64 * (j.sent + 1)) d.len) % 2 ^ 32) then (s, j)
    else
      let data := ownRd s t (d.src - spadAddr t 0 + 64 * j.sent) len
      let s := sendWrites s t f.ctx f.pc .dm d.cnt (some (f.id + 1)) d.dev (d.dst + 64 * j.sent) d.epoch d.wq data
      dmafRows s t f { j with sent := j.sent + 1 } n

/-- Lets every DMAF of a tile go on; one that has sent its last row leaves the DM engine, its counter following the answers. A DMAF's
writes complete together (their group), and only once its last row is sent. -/
def dmafForward (s : State) (t : Nat) : State :=
  ((s.tile t).flights).foldl (fun s f =>
    match f.kind with
    | .dma j =>
      if j.op = 5 then
        let (s, j') := dmafRows s t f j (cdiv j.desc.len 64)
        if 64 * j'.sent ≥ j.desc.len then
          let s := dropFlight s t f.id
          let o : Outst := { tag := 0, ctx := f.ctx, pc := f.pc, eng := .dm, left := 0, worst := j.worst, cnt := j.desc.cnt, chan := none,
                             units := 0, grp := some (f.id + 1) }
          let (tag, s) := newTag s t
          endOutst (addOutst s t { o with tag := tag }) t { o with tag := tag }
        else s.modTile t fun x => { x with flights := x.flights.map fun g => if g.id = f.id then { f with kind := .dma j' } else g }
      else s
    | _ => s) s

/-- A DMAF whose watched wicket closes or reopens completes at once with SHORT (R457): its sent rows are answered still, and it ends
with the worst of their statuses. -/
def dmafShort (s : State) (t w : Nat) : State :=
  ((s.tile t).flights).foldl (fun s f =>
    match f.kind with
    | .dma j =>
      if j.op = 5 ∧ j.desc.wq = w then
        let s := dropFlight s t f.id
        let s := s.modTile t fun x =>
          { x with outst := x.outst.map fun o => if o.grp = some (f.id + 1) then { o with cnt := none, grp := none } else o }
        complete s t f.ctx j.desc.cnt stSHORT .dm f.pc
      else s
    | _ => s) s

end Sys2Proof.Machine
end

