-- ==== Sys2Proof/Machine/Queue.lean ====
section
/-!
DEFINITION. The queue port: SEND, RECV, TRYRECV, QREL, BOPEN, WOPEN and WCLOSE (R640–R644), the arrival of descriptors (R246–R261), and the
return of credit (R251, R741).
-/

namespace Sys2Proof.Machine

/-! ### SEND -/

/-- SEND at dispatch (R640): the checks, then the injection, or a wait at the QP for credit. -/
def effSend (t : Nat) (f : FmtD) (q : Queued) (s : State) : State :=
  chk s t q.pc (localWin s t q.ctx f.a.toNat (offD f) 32) fun _ =>
    let d := q.desc.getD ⟨0, 0, 0, 0⟩
    let ch := f.idx.toNat
    chk s t q.pc (sendCheck s t q.ctx ch d) fun src =>
      let payload := if carriesPayload s t ch then ownRd s t src d.len else []
      match trySend s t q.ctx q.pc .qp none stOK ch d payload with
      | some s => s
      | none => addFlight s t { id := q.id, eng := .qp, ctx := q.ctx, pc := q.pc,
                                foot := { ranges := q.foot.ranges.filter fun r => !r.write }, cnt := d.cnt,
                                kind := .sendWait ch d payload none stOK }

/-- SEND. Its descriptor is read at issue (R742); the payload's range entry is located through it. -/
def execSend (t : Nat) (f : FmtD) (s : State) : Host.Outcome State Fault Refusal :=
  let c := s.actx t
  let at_ := localWin s t c f.a.toNat (offD f) 32
  let off := match at_ with | .ok o => some o | .error _ => none
  let pay := match off with
    | some o =>
      let d := readDesc s t o
      match sendCheck s t c f.idx.toNat d with
      | .ok p => if carriesPayload s t f.idx.toNat then [⟨p, d.len, false⟩] else []
      | .error _ => []
    | none => []
  .next (issue s t
    { instr := .send t f, eng := .qp, wait := f.wait, legal := f.pred == 0 && f.reg == 0 && f.mod == 0,
      foot := { reads := [idA f.a.toNat], ranges := pay }, need := [idA f.a.toNat], vals := [], desc := off, locates := true } (effSend t f))

/-- What a waiting send becomes when its channel has the credit, or has closed. -/
def sendGoes (s : State) (t : Nat) (f : Flight) : Option State :=
  match f.kind with
  | .sendWait ch d payload grp w => trySend (dropFlight s t f.id) t f.ctx f.pc f.eng grp w ch d payload
  | _ => none

/-- SEND_INJECT (R249, R261): a send that waits for credit goes on, the first that can; a fenced tile injects nothing (R72). -/
def execSendInject (t : Nat) (s : State) : Host.Outcome State Fault Refusal :=
  .next (if s.tstate t = fenced then s else match (s.tile t).flights.findSome? fun f => sendGoes s t f with
    | some s' => settle s' t
    | none => s)

/-! ### Credit returns -/

/-- Sends one credit return (R741): a packet on the package, a CTRL on the reverse path otherwise. -/
def sendCredit (s : State) (r : Freed) : State :=
  if r.sender.dev = s.ownDev then s.post (.credit r.sender r.chan r.slots r.units)
  else cxtEmit s r.sender.dev r.chan roleFABRIC (baseHdr s opCTRL r.sender.dev r.chan) none
    (ctrlRecord 0x0A 12 (toBytes r.sender.tile 2 ++ toBytes r.chan 2 ++ toBytes r.slots 2 ++ toBytes r.units 2)) .none

/-- Returns every freed credit of queue `q` (CREDIT_RETURN_SEND). -/
def returnCredit (s : State) (t q : Nat) : State :=
  let mine := (s.tile t).freed.filter fun r => r.q == q
  (mine.foldl sendCredit s).modTile t fun x => { x with freed := x.freed.filter fun r => r.q ≠ q }

/-- Freed credit of one channel of a queue added to a tile's list. -/
def addFreed (l : List Freed) (n : Freed) : List Freed :=
  let same := fun r : Freed => r.q == n.q && r.sender == n.sender && r.chan == n.chan
  if l.any same then modFirst same (fun r => { r with slots := r.slots + n.slots, units := r.units + n.units }) l else l ++ [n]

/-- Credit freed on queue `q` (R251): it is returned once the unreturned credit reaches a quarter of the ring. -/
def freeCredit (s : State) (t q : Nat) (m : QMsg) (slots units : Nat) : State :=
  let s := s.modTile t fun x =>
    { x with freed := addFreed x.freed { q := q, sender := m.sender, chan := m.chan, slots := slots, units := units } }
  let mine := (s.tile t).freed.filter fun r => r.q == q
  let sl := (mine.map Freed.slots).foldl (· + ·) 0
  let un := (mine.map Freed.units).foldl (· + ·) 0
  let psize := s.tf t (R.QPAY_SIZE q)
  if 4 * sl ≥ s.tf t (R.QCFG_SIZE q) + 1 ∨ (psize > 0 ∧ 4 * un ≥ psize) then returnCredit s t q else s

/-- CREDIT_RETURN_TIMER (R251): 64 cycles after the first unreturned free; a fenced tile injects nothing (R72). -/
def execCreditReturnTimer (t q : Nat) (s : State) : Host.Outcome State Fault Refusal := .next (if s.tstate t = fenced then s else returnCredit s t q)

/-- CREDIT_RETURN (R741): the channel's credits rise by the amounts freed. A fenced tile accepts nothing (R72). -/
def execCreditReturn (t ch slots units : Nat) (s : State) : Host.Outcome State Fault Refusal :=
  let s := s.unwire (.credit (tileSender s t) ch slots units)
  .next (if s.tstate t = fenced then s
    else (s.setTf t (R.CHCR_DCRED ch) (s.tf t (R.CHCR_DCRED ch) + slots)).setTf t (R.CHCR_PCRED ch) (s.tf t (R.CHCR_PCRED ch) + units))

/-! ### RECV, TRYRECV, QREL -/

/-- Takes the descriptor at the head of queue `q` (R641): its bytes, its status, and the freed slot. A ring in a group that is not ON or not the context's is
not read: ACCESS (R105). DESIGN CHOICE (log 11). -/
def takeHead (s : State) (t c pc q dst reg : Nat) : State :=
  let head := s.tf t (R.QPTR_HEAD q)
  let at_ := s.tf t (R.QCFG_BASE q) + 32 * head
  if !groupsOk s t c at_ 32 then progFault s t fACCESS pc (spadAddr t at_)
  else
  let bytes := ownRd s t at_ 32
  let m := ((s.tile t).qmsgs.find? fun m => m.q == q && !m.received).getD
    { q := q, sender := tileSender s t, chan := 0, status := stOK, units := 0, pad := 0, received := false }
  let s := ownWr s t dst bytes
  let s := setS s t c reg (.ofNat 64 m.status)
  let s := (s.setTf t (R.QPTR_HEAD q) ((head + 1) % (s.tf t (R.QCFG_SIZE q) + 1))).setTf t (R.QPTR_COUNT q) (s.tf t (R.QPTR_COUNT q) - 1)
  let s := s.modTile t fun x =>
    { x with qmsgs :=
        if s.tf t (R.QPAY_SIZE q) > 0 then modFirst (fun m => m.q == q && !m.received) (fun m => { m with received := true }) x.qmsgs
        else match takeFirst (fun m => m.q == q && !m.received) x.qmsgs with
          | some r => r.2
          | none => x.qmsgs }
  freeCredit s t q m 1 0

/-- Whether a RECV, TRYRECV or QREL may name a queue (R252, R641). -/
def queueOpenTo (s : State) (t c q : Nat) : Bool :=
  s.tf t (R.QCFG_EN q) == 1 && s.tf t (R.QCFG_OWNER q) == c && decide (s.tf t (R.QCFG_MODE q) < 2)

/-- RECV or TRYRECV at dispatch (R641). -/
def effRecv (t : Nat) (f : FmtD) (try_ : Bool) (q : Queued) (s : State) : State :=
  let n := f.idx.toNat
  if !queueOpenTo s t q.ctx n then progFault s t fACCESS q.pc 0
  else chk s t q.pc (match localWin s t q.ctx f.a.toNat (offD f) 32 with
      | .ok o => localDst s t q.ctx (spadAddr t o) 32 | .error e => .error e) fun dst =>
    if s.tf t (R.QPTR_COUNT n) = 0 then
      if try_ then setS s t q.ctx f.reg.toNat 0x1_0000
      else (addFlight s t { id := q.id, eng := .qp, ctx := q.ctx, pc := q.pc, foot := { q.foot with reads := [] }, cnt := none,
                            kind := .recv n dst f.reg.toNat (bitOf f.mod.toNat 1) }).modTile t fun x =>
              { x with longWait := bitOf f.mod.toNat 1 }
    else takeHead s t q.ctx q.pc n dst f.reg.toNat

/-- What RECV and TRYRECV need at issue: the queue's number is 0–15, MOD has only T and the long-wait flag. -/
def recvReq (s : State) (t : Nat) (f : FmtD) (i : Instr) (tr : Bool) : IssueReq :=
  { instr := i, eng := .qp, wait := f.wait,
    legal := f.pred == 0 && decide (f.idx.toNat < 16) && decide (f.mod.toNat < 4) && (bitOf f.mod.toNat 0 == tr),
    foot := { reads := [idA f.a.toNat], writes := [idS f.reg.toNat],
              ranges := rangeOf (localWin s t (s.actx t) f.a.toNat (offD f) 32) 32 true },
    need := [idA f.a.toNat], vals := [], desc := none }

/-- RECV. -/
def execRecv (t : Nat) (f : FmtD) (s : State) : Host.Outcome State Fault Refusal :=
  .next (issue s t (recvReq s t f (.recv t f) false) (effRecv t f false))

/-- TRYRECV. -/
def execTryrecv (t : Nat) (f : FmtD) (s : State) : Host.Outcome State Fault Refusal :=
  .next (issue s t (recvReq s t f (.tryrecv t f) true) (effRecv t f true))

/-- RECV_UNBLOCK (R641, R745): a RECV blocked on an empty queue completes once a descriptor is visible; a tile that has halted does not wake for it (R68, R75). -/
def execRecvUnblock (t : Nat) (s : State) : Host.Outcome State Fault Refusal :=
  .next (match (s.tile t).flights.find? Flight.recvBlocked with
    | some f => (match f.kind with
      | .recv n dst reg _ =>
        if s.tf t (R.QPTR_COUNT n) = 0 ∨ s.tstate t = fenced then s
        else
          let s := if s.tf t R.TSTAT_HALTED = 1 then s else wake s t
          settle (takeHead ((dropFlight s t f.id).modTile t fun x => { x with longWait := false }) t f.ctx f.pc n dst reg) t
      | _ => s)
    | none => s)

/-- QREL at dispatch (R251, R642): the payload of the oldest received and unreleased message is freed, with its pad. -/
def effQrel (t : Nat) (f : FmtD) (q : Queued) (s : State) : State :=
  let n := f.idx.toNat
  let psize := s.tf t (R.QPAY_SIZE n)
  if !queueOpenTo s t q.ctx n ∨ psize = 0 then progFault s t fACCESS q.pc 0
  else match takeFirst (fun m => m.q == n && m.received) (s.tile t).qmsgs with
    | none => s
    | some (m, rest) =>
      let s := (s.modTile t fun x => { x with qmsgs := rest }).setTf t (R.QPTR_PHEAD n)
        ((s.tf t (R.QPTR_PHEAD n) + m.units + m.pad) % psize)
      freeCredit s t n m 0 (m.units + m.pad)

/-- QREL. -/
def execQrel (t : Nat) (f : FmtD) (s : State) : Host.Outcome State Fault Refusal :=
  .next (issue s t
    { instr := .qrel t f, eng := .qp, wait := f.wait,
      legal := f.pred == 0 && decide (f.idx.toNat < 16) && f.a == 0 && f.off == 0 && f.reg == 0 && f.mod == 0,
      foot := {}, need := [], vals := [], desc := none } (effQrel t f))

/-! ### Descriptors that arrive -/

/-- A sender slot of wicket `w` that a sender's packets advance (R117, R255): its own, else the wildcard; 32 where there is none. Of two valid slots that name the same
sender, or two wildcards, the lowest-numbered one is used. DESIGN CHOICE (log 84). -/
def slotFor (s : State) (t w : Nat) (snd : Sender) : Nat :=
  let v := fun k => s.tf t (R.WKSEND_VALID w k) == 1
  let own := (List.range 32).find? fun k =>
    v k && s.tf t (R.WKSEND_ANY w k) == 0 && s.tf t (R.WKSEND_DEV w k) == snd.dev &&
      (if s.tf t (R.WKSEND_NOTTILE w k) = 1 then snd.notTile else !snd.notTile && s.tf t (R.WKSEND_TILE w k) == snd.tile)
  match own with
  | some k => k
  | none => ((List.range 32).find? fun k => v k && s.tf t (R.WKSEND_ANY w k) == 1).getD 32

/-- A descriptor becomes visible (R247): it is written at the ring's tail, and the arrival counter is signalled. No instruction of the tile stands behind that signal, and
`CNTLAST.PC` takes 0 of it. DESIGN CHOICE (log 85). -/
def makeVisible (s : State) (t : Nat) (h : HeldDesc) (status : Nat) : State :=
  let q := h.msg.queue
  let tail := s.tf t (R.QPTR_TAIL q)
  let s := ownWr s t (s.tf t (R.QCFG_BASE q) + 32 * tail) h.msg.desc.bytes
  let s := (s.setTf t (R.QPTR_TAIL q) ((tail + 1) % (s.tf t (R.QCFG_SIZE q) + 1))).setTf t (R.QPTR_COUNT q) (s.tf t (R.QPTR_COUNT q) + 1)
  let s := s.modTile t fun x =>
    { x with qmsgs := x.qmsgs ++ [{ q := q, sender := h.msg.sender, chan := h.msg.chan, status := status, units := h.units, pad := h.pad,
                                     received := false }] }
  if s.tf t (R.QCFG_ARRCNTEN q) = 1 then signal s t (s.tf t (R.QCFG_OWNER q)) (s.tf t (R.QCFG_ARRCNT q)) stOK .qp 0 else s

/-- Whether two messages are of one channel (R256). -/
def sameChannel (a b : Msg) : Bool := a.sender == b.sender && a.chan == b.chan && a.queue == b.queue

/-- Makes visible what the hold buffer need hold no longer (DESCRIPTOR_HOLD_RELEASE, R255–R257), in order, each channel's descriptors
behind its held ones. -/
def releaseHeld (s : State) (t : Nat) (kept : List HeldDesc) : List HeldDesc → State
  | [] => s.modTile t fun x => { x with hold := kept }
  | h :: hs =>
    let behind := kept.any fun k => sameChannel k.msg h.msg
    let e := h.msg.desc.expect
    let done := e == 0 || reached (landed s t h.wicket h.slot) e
    if behind || !(done || h.short) then releaseHeld s t (kept ++ [h]) hs
    else releaseHeld (makeVisible s t h (if done then stOK else stSHORT)) t kept hs

/-- Looks at the whole hold buffer. -/
def recheckHeld (s : State) (t : Nat) : State := releaseHeld s t [] (s.tile t).hold

/-- The answer to a message or write packet: to a tile of this device its tag and the status (R121, R261); the LD answers for one on
another device (`cxtDeliver`), and a unit that is not a tile keeps no account of it; a rejected notification
of a UU, whose tag is 2³² plus its stack, is logged (R365). -/
def answerTo (s : State) (snd : Sender) (tag status : Nat) : State :=
  if snd.dev = s.ownDev ∧ !snd.notTile then s.post (.answer snd tag status)
  else if snd.notTile ∧ 2 ^ 32 ≤ tag ∧ status ≠ stOK then s.logOp 0x0723 (tag - 2 ^ 32)
  else s

/-- The checks of R259 on a descriptor for a FIFO or SHARED queue, in order: the code of the first that fails. -/
def descCheck (s : State) (t : Nat) (m : Msg) : Nat :=
  let q := m.queue
  if s.tstate t = fenced then stTARGET_FENCED
  else if m.epoch ≠ s.tf t (R.QEPOCH_EPOCH q) then stCHANNEL_CLOSED
  else if s.tf t (R.QEPOCH_CLOSED q) = 1 ∨ s.tf t (R.QCFG_EN q) = 0 then stCHANNEL_CLOSED
  else if cdiv m.payload.length 64 > s.tf t (R.QPAY_SIZE q) then stMESSAGE_TOO_LARGE
  else stOK

/-- A dropped old-epoch descriptor is counted (R259, check 2). -/
def countDropped (s : State) (t : Nat) (m : Msg) : State :=
  if s.tstate t ≠ fenced ∧ m.epoch ≠ s.tf t (R.QEPOCH_EPOCH m.queue) then
    s.setTf t (R.QEPOCH_DROPPED m.queue) (satAdd (s.tf t (R.QEPOCH_DROPPED m.queue)) 1 0xFFFF)
  else s

/-- Whether a signal of the QP is stalled: its ejection port is held (R234). -/
def qpStalled (x : Tile) : Bool := x.stalled.any fun st => st.eng == .qp

/-- Whether an arriving message must wait at the ejection port: the hold buffer is full (R256), a message that would be visible finds the
ring full, or a signal of the QP is stalled (R234). -/
def arrivalWaits (s : State) (t : Nat) (m : Msg) : Bool :=
  let x := s.tile t
  (decide (8 ≤ x.hold.length)) ||
    decide (s.tf t (R.QPTR_COUNT m.queue) + (x.hold.filter fun h => h.msg.queue == m.queue).length > s.tf t (R.QCFG_SIZE m.queue)) ||
    qpStalled x

/-- Takes an accepted message in (R248, R255): the payload goes into the payload ring, and the descriptor, its destination replaced, is
held or becomes visible. DEDUCED (log 20). -/
def acceptMsg (s : State) (t : Nat) (m : Msg) : State :=
  let q := m.queue
  let psize := s.tf t (R.QPAY_SIZE q)
  let ptail := s.tf t (R.QPTR_PTAIL q)
  let up := if psize = 0 then (0, 0) else unitsAndPad m.payload.length ptail psize
  let start := if up.2 > 0 then 0 else ptail
  let off := s.tf t (R.QPAY_BASE q) + 64 * start
  let s := if psize = 0 then s
    else (ownWr s t off m.payload).setTf t (R.QPTR_PTAIL q) ((start + up.1) % psize)
  let m := if psize = 0 then m else { m with desc := m.desc.setDst (spadAddr t off) }
  let h : HeldDesc := { msg := m, units := up.1, pad := up.2, wicket := m.desc.wq, slot := slotFor s t m.desc.wq m.sender, short := false }
  recheckHeld (s.modTile t fun x => { x with hold := x.hold ++ [h] }) t

/-- The delivery of a descriptor at the port of its queue (R246–R261), with the status that answers it; `none` while it must wait at the
ejection port. -/
def deliverDesc (s : State) (t : Nat) (m : Msg) : Option (Nat × State) :=
  let st := descCheck s t m
  if st ≠ stOK then some (st, countDropped s t m)
  else if arrivalWaits s t m then none
  else some (stOK, settle (acceptMsg s t m) t)

/-- Whether an earlier message of the same channel is still under way to the tile or waits at its port (R246). -/
def overtakes (s : State) (t : Nat) (m : Msg) : Bool :=
  s.wires.contains (.desc t m) &&
    (s.wires.takeWhile fun w => decide (w ≠ .desc t m)).any fun w => match w with | .desc u k => u == t && sameChannel k m | _ => false

/-- DESCRIPTOR_ARRIVAL (R246, R259): the messages of a channel are taken in the order in which they were sent. -/
def execDescriptorArrival (t : Nat) (m : Msg) (s : State) : Host.Outcome State Fault Refusal :=
  .next (match (if overtakes s t m then none else deliverDesc s t m) with
    | none => s
    | some (st, s') => answerTo (s'.unwire (.desc t m)) m.sender m.tag st)

/-! ### Wickets -/

/-- Whether WOPEN or WCLOSE may name a wicket (R644). -/
def wicketUsable (s : State) (t c w : Nat) : Bool := s.tf t (R.WKLIM_EN w) == 1 && s.tf t (R.WKBASE_OWNER w) == c

/-- What the close or reopening of a wicket does to descriptors held for it and to a DMAF that watches it (R257, R457). -/
def wicketTurned (s : State) (t w : Nat) : State :=
  let s := s.modTile t fun x => { x with hold := x.hold.map fun h =>
    if h.wicket = w ∧ h.msg.desc.expect ≠ 0 then { h with short := true } else h }
  dmafShort (recheckHeld s t) t w

/-- An open takes effect (R120): the flag is set, the landed counts and the rejection count clear; an open wicket stays as it is. -/
def openWicket (s : State) (t w : Nat) : State :=
  if s.tf t (R.WKEPOCH_OPEN w) = 1 then s
  else
    let s := (s.setTf t (R.WKEPOCH_OPEN w) 1).setTf t (R.WKEPOCH_REJECTS w) 0
    wicketTurned ((List.range 32).foldl (fun s k => s.setTf t (R.WKLAND_BYTES w k) 0) s) t w

/-- A close takes effect (R118): the flag clears and the epoch rises; a closed wicket stays as it is (R120). -/
def closeWicket (s : State) (t w : Nat) : State :=
  if s.tf t (R.WKEPOCH_OPEN w) = 0 then s
  else wicketTurned ((s.setTf t (R.WKEPOCH_OPEN w) 0).setTf t (R.WKEPOCH_EPOCH w) ((s.tf t (R.WKEPOCH_EPOCH w) + 1) % 2 ^ 16)) t w

/-- The counter that WOPEN or WCLOSE signals (R644). -/
def wicketCnt (f : FmtD) : Option Nat := if bitOf f.mod.toNat 1 then some f.reg.toNat else none

/-- The fields of WOPEN and WCLOSE (R644); MOD[0] is 0 for open and 1 for close. -/
def wicketReq (t : Nat) (f : FmtD) (close : Bool) : IssueReq :=
  { instr := if close then .wclose t f else .wopen t f, eng := .qp, wait := f.wait,
    legal := f.pred == 0 && decide (f.idx.toNat < 16) && f.a == 0 && f.off == 0 && decide (f.mod.toNat < 4) &&
      (bitOf f.mod.toNat 0 == close) && (bitOf f.mod.toNat 1 || f.reg == 0),
    foot := {}, need := [], vals := [], desc := none }

/-- WOPEN at dispatch. -/
def effWopen (t : Nat) (f : FmtD) (q : Queued) (s : State) : State :=
  if !wicketUsable s t q.ctx f.idx.toNat then progFault s t fACCESS q.pc 0
  else complete (openWicket s t f.idx.toNat) t q.ctx (wicketCnt f) stOK .qp q.pc

/-- WOPEN. -/
def execWopen (t : Nat) (f : FmtD) (s : State) : Host.Outcome State Fault Refusal :=
  .next (issue s t (wicketReq t f false) (effWopen t f))

/-- WCLOSE at dispatch: the close takes effect; it completes under WICKET_CLOSE_COMPLETE. -/
def effWclose (t : Nat) (f : FmtD) (q : Queued) (s : State) : State :=
  if !wicketUsable s t q.ctx f.idx.toNat then progFault s t fACCESS q.pc 0
  else addFlight (closeWicket s t f.idx.toNat) t
    { id := q.id, eng := .qp, ctx := q.ctx, pc := q.pc, foot := {}, cnt := wicketCnt f, kind := .wclose f.idx.toNat }

/-- WCLOSE. -/
def execWclose (t : Nat) (f : FmtD) (s : State) : Host.Outcome State Fault Refusal :=
  .next (issue s t (wicketReq t f true) (effWclose t f))

/-- WICKET_CLOSE_COMPLETE (R118): the oldest close under way completes. -/
def execWicketCloseComplete (t : Nat) (s : State) : Host.Outcome State Fault Refusal :=
  .next (if s.tstate t = fenced then s else match (s.tile t).flights.find? fun f => match f.kind with | .wclose _ => true | _ => false with
    | some f => settle (complete (dropFlight s t f.id) t f.ctx f.cnt stOK .qp f.pc) t
    | none => s)

end Sys2Proof.Machine
end

