-- ==== Sys2Proof/Machine/Numerics.lean ====
section
/-!
DEFINITION. The numbers of the part (R172–R201): exact values, the formats, rounding onto a format's grid, block scales and the recipe,
and the keyed generator. A value is computed exactly and rounded once.
-/

namespace Sys2Proof.Machine

/-- An exact value: NaN, an infinity, or (−1)^neg · m · 2^e, a zero keeping its sign. -/
inductive Num where
  | nan
  | inf (neg : Bool)
  | fin (neg : Bool) (m : Nat) (e : Int)
  deriving DecidableEq, Repr

namespace Num

/-- +0. -/
def zero : Num := .fin false 0 0

/-- An integer as a value. -/
def ofInt (n : Int) : Num := .fin (decide (n < 0)) n.natAbs 0

/-- 2^k · n. -/
def scale (x : Num) (k : Int) : Num :=
  match x with
  | .fin s m e => .fin s m (e + k)
  | y => y

/-- The sign bit. -/
def sign (x : Num) : Bool :=
  match x with
  | .nan => false
  | .inf s => s
  | .fin s _ _ => s

/-- −x. -/
def neg (x : Num) : Num :=
  match x with
  | .nan => .nan
  | .inf s => .inf (!s)
  | .fin s m e => .fin (!s) m e

/-- |x|. -/
def abs (x : Num) : Num :=
  match x with
  | .nan => .nan
  | .inf _ => .inf false
  | .fin _ m e => .fin false m e

/-- Whether a value is finite. -/
def isFin (x : Num) : Bool :=
  match x with
  | .fin .. => true
  | _ => false

/-- A finite value as an integer multiple of 2^e, for an `e` not above its own exponent. -/
def toIntAt (s : Bool) (m : Nat) (e' e : Int) : Int := (if s then -1 else 1) * ((m : Int) * 2 ^ (e' - e).toNat)

/-- The exact sum; NaN for ∞ − ∞ (R199). An exact zero sum is +0 unless both are −0 (IEEE 754, to nearest). -/
def add (x y : Num) : Num :=
  match x, y with
  | .nan, _ => .nan
  | _, .nan => .nan
  | .inf a, .inf b => if a = b then .inf a else .nan
  | .inf a, _ => .inf a
  | _, .inf b => .inf b
  | .fin s m e, .fin s' m' e' =>
    let k := min e e'
    let v := toIntAt s m e k + toIntAt s' m' e' k
    if v = 0 then .fin (s && s') 0 0 else .fin (decide (v < 0)) v.natAbs k

/-- The exact difference. -/
def sub (x y : Num) : Num := add x (neg y)

/-- The exact product; NaN for 0 × ∞. -/
def mul (x y : Num) : Num :=
  match x, y with
  | .nan, _ => .nan
  | _, .nan => .nan
  | .inf a, .inf b => .inf (a != b)
  | .inf a, .fin s m _ => if m = 0 then .nan else .inf (a != s)
  | .fin s m _, .inf b => if m = 0 then .nan else .inf (s != b)
  | .fin s m e, .fin s' m' e' => .fin (s != s') (m * m') (e + e')

/-- The quotient to more bits than any format holds, the last one sticky, so that rounding it once rounds the exact quotient. -/
def div (x y : Num) : Num :=
  match x, y with
  | .nan, _ => .nan
  | _, .nan => .nan
  | .inf _, .inf _ => .nan
  | .inf a, .fin s _ _ => .inf (a != s)
  | .fin s _ _, .inf b => .fin (s != b) 0 0
  | .fin s m e, .fin s' m' e' =>
    if m' = 0 then if m = 0 then .nan else .inf (s != s')
    else if m = 0 then .fin (s != s') 0 0
    else
      let k := 80 + m'.log2
      let q := m * 2 ^ k / m'
      .fin (s != s') (2 * q + (if m * 2 ^ k % m' = 0 then 0 else 1)) (e - e' - k - 1)

/-- The integer square root, bit by bit from bit `n` downward. -/
def isqrtFrom (x : Nat) : Nat → Nat → Nat
  | 0, r => r
  | n + 1, r => if (r + 2 ^ n) * (r + 2 ^ n) ≤ x then isqrtFrom x n (r + 2 ^ n) else isqrtFrom x n r

/-- The square root to more bits than any format holds, the last one sticky; NaN below zero, −0 for −0. -/
def sqrt (x : Num) : Num :=
  match x with
  | .nan => .nan
  | .inf s => if s then .nan else .inf false
  | .fin s m e =>
    if m = 0 then .fin s 0 0
    else if s then .nan
    else
      let odd := (e % 2).toNat
      let v := m * 2 ^ (odd + 160)
      let r := isqrtFrom v (v.log2 / 2 + 1) 0
      .fin false (2 * r + (if r * r = v then 0 else 1)) ((e - odd) / 2 - 81)

/-- x < y; false where either is NaN. -/
def lt (x y : Num) : Bool :=
  match x, y with
  | .nan, _ => false
  | _, .nan => false
  | .inf a, .inf b => a && !b
  | .inf a, _ => a
  | _, .inf b => !b
  | .fin s m e, .fin s' m' e' => decide (toIntAt s m e (min e e') < toIntAt s' m' e' (min e e'))

/-- x = y; −0 equals +0; false where either is NaN. -/
def eq (x y : Num) : Bool :=
  match x, y with
  | .nan, _ => false
  | _, .nan => false
  | .inf a, .inf b => a == b
  | .inf _, _ => false
  | _, .inf _ => false
  | .fin s m e, .fin s' m' e' => decide (toIntAt s m e (min e e') = toIntAt s' m' e' (min e e'))

/-- The smaller value, −0 below +0, NaN where either is NaN (R673). -/
def minNum (x y : Num) : Num :=
  if x = .nan ∨ y = .nan then .nan else if lt x y || (eq x y && x.sign) then x else y

/-- The larger value, +0 above −0, NaN where either is NaN (R673). -/
def maxNum (x y : Num) : Num :=
  if x = .nan ∨ y = .nan then .nan else if lt y x || (eq x y && !x.sign) then x else y

/-- floor(log₂|x|) of a finite non-zero value. -/
def flog2 (x : Num) : Option Int :=
  match x with
  | .fin _ m e => if m = 0 then none else some (m.log2 + e)
  | _ => none

end Num

/-! ### Formats -/

/-- A floating format (R172): exponent bits, bias, mantissa bits, whether it has IEEE infinities and NaNs, and whether the code of all
ones is NaN (F8P, F8R). -/
structure FFmt where
  ebits : Nat
  bias : Nat
  mbits : Nat
  ieee : Bool
  nanTop : Bool
  deriving DecidableEq, Repr

/-- FP64. -/
def fp64 : FFmt := ⟨11, 1023, 52, true, false⟩
/-- FP32. -/
def fp32 : FFmt := ⟨8, 127, 23, true, false⟩
/-- BF16. -/
def bf16 : FFmt := ⟨8, 127, 7, true, false⟩
/-- F8P. -/
def f8p : FFmt := ⟨4, 7, 3, false, true⟩
/-- F8R. -/
def f8r : FFmt := ⟨6, 31, 1, false, true⟩
/-- F4. -/
def f4 : FFmt := ⟨2, 1, 1, false, false⟩

/-- Bits of a format's code. -/
def FFmt.bits (f : FFmt) : Nat := 1 + f.ebits + f.mbits

/-- The canonical NaN (R199). -/
def FFmt.canonNaN (f : FFmt) : Nat :=
  if f.ieee then (2 ^ f.ebits - 1) * 2 ^ f.mbits + 2 ^ (f.mbits - 1) else 2 ^ (f.ebits + f.mbits) - 1

/-- The magnitude code of the largest finite value. -/
def FFmt.maxCode (f : FFmt) : Nat :=
  if f.ieee then (2 ^ f.ebits - 1) * 2 ^ f.mbits - 1
  else if f.nanTop then 2 ^ (f.ebits + f.mbits) - 2 else 2 ^ (f.ebits + f.mbits) - 1

/-- The value of a code (R173–R175). -/
def FFmt.decode (f : FFmt) (code : Nat) : Num :=
  let s := bitOf code (f.ebits + f.mbits)
  let e := code / 2 ^ f.mbits % 2 ^ f.ebits
  let m := code % 2 ^ f.mbits
  if f.ieee ∧ e = 2 ^ f.ebits - 1 then if m = 0 then .inf s else .nan
  else if f.nanTop ∧ code % 2 ^ (f.ebits + f.mbits) = 2 ^ (f.ebits + f.mbits) - 1 then .nan
  else if e = 0 then .fin s m (1 - f.bias - f.mbits)
  else .fin s (m + 2 ^ f.mbits) (e - f.bias - f.mbits)

/-- How a value is rounded (R183, R184): to nearest with ties to even, toward zero, +∞ or −∞, or stochastically with a 16-bit number. -/
inductive Rnd where
  | near
  | zero
  | up
  | down
  | stoch (r : Nat)
  deriving DecidableEq, Repr

/-- Whether a magnitude q + f/w units (0 ≤ f < w) rounds away from zero. -/
def Rnd.away (r : Rnd) (neg : Bool) (q f w : Nat) : Bool :=
  match r with
  | .near => decide (2 * f > w) || (decide (2 * f = w) && q % 2 == 1)
  | .zero => false
  | .up => !neg && decide (f > 0)
  | .down => neg && decide (f > 0)
  | .stoch k => decide (f * 65536 + k * w ≥ w * 65536)

/-- A finite magnitude m·2^e on the grid of a format, without regard to its largest value: the magnitude code it rounds to, where codes
of values beyond the format go on in order. -/
def FFmt.roundMag (f : FFmt) (r : Rnd) (neg : Bool) (m : Nat) (e : Int) : Nat :=
  if m = 0 then 0
  else
    let k : Int := m.log2 + e
    let u : Int := max (k - f.mbits) (1 - (f.bias : Int) - f.mbits)
    let q := if e ≥ u then m * 2 ^ (e - u).toNat else m / 2 ^ (u - e).toNat
    let rem := if e ≥ u then 0 else m % 2 ^ (u - e).toNat
    let w := if e ≥ u then 1 else 2 ^ (u - e).toNat
    let n := if r.away neg q rem w then q + 1 else q
    -- the code of n units of 2^u: consecutive codes are consecutive units, across binades too
    ((u - (1 - (f.bias : Int) - f.mbits)).toNat) * 2 ^ f.mbits + n

/-- A value rounded to a format: its code, and whether a finite value saturated or overflowed (R172, R173, R200). -/
def FFmt.round (f : FFmt) (r : Rnd) (x : Num) : Nat × Bool :=
  let sgn := fun (s : Bool) => if s then 2 ^ (f.ebits + f.mbits) else 0
  match x with
  | .nan => (f.canonNaN, false)
  | .inf s => (if f.ieee then sgn s + (2 ^ f.ebits - 1) * 2 ^ f.mbits else f.canonNaN, false)
  | .fin s m e =>
    let c := f.roundMag r s m e
    if c ≤ f.maxCode then (sgn s + c, false)
    else
      let toMax := match r with
        | .zero => true
        | .up => s
        | .down => !s
        | _ => false
      (sgn s + (if f.ieee && !toMax then (2 ^ f.ebits - 1) * 2 ^ f.mbits else f.maxCode), true)

/-- RoundNearest of R664: the code alone. -/
def FFmt.near (f : FFmt) (x : Num) : Nat := (f.round .near x).1

/-- The format of a code of R658, for the floating ones. -/
def fmtOf (code : Nat) : Option FFmt :=
  match code with
  | 0 => some fp32 | 1 => some bf16 | 2 => some fp64 | 3 => some f8p | 4 => some f8r | 5 => some f4 | _ => none

/-- The narrow formats. -/
def isNarrow (code : Nat) : Bool := code == 3 || code == 4 || code == 5

/-- A value rounded to the nearest integer, ties to even; 0 for what is not finite. -/
def Num.toIntNear (x : Num) : Int :=
  match x with
  | .fin s m e =>
    let n : Nat := if e ≥ 0 then m * 2 ^ e.toNat
      else
        let w := 2 ^ (-e).toNat
        if Rnd.near.away s (m / w) (m % w) w then m / w + 1 else m / w
    if s then -(n : Int) else n
  | _ => 0

/-- Conversion to INT8 (R176, R200): to nearest, saturating to ±127; NaN gives 0. -/
def toInt8 (x : Num) : Nat :=
  match x with
  | .nan => 0
  | .inf s => if s then 0x81 else 0x7F
  | y => wrap (max (-127) (min 127 y.toIntNear)) 8

/-! ### The keyed generator (R186) -/

/-- One round of Philox4x32. PRESUMED (log 77). -/
def philoxRound (c : Nat × Nat × Nat × Nat) (k : Nat × Nat) : Nat × Nat × Nat × Nat :=
  let (c0, c1, c2, c3) := c
  let p0 := 0xD2511F53 * c0
  let p1 := 0xCD9E8D57 * c2
  ((p1 / 2 ^ 32).xor (c1.xor k.1), p1 % 2 ^ 32, (p0 / 2 ^ 32).xor (c3.xor k.2), p0 % 2 ^ 32)

/-- Philox4x32 with a number of rounds, the key bumped between them. PRESUMED (log 77). -/
def philoxN (c : Nat × Nat × Nat × Nat) (k : Nat × Nat) : Nat → Nat × Nat × Nat × Nat
  | 0 => c
  | n + 1 => philoxN (philoxRound c k) ((k.1 + 0x9E3779B9) % 2 ^ 32, (k.2 + 0xBB67AE85) % 2 ^ 32) n

/-- The four output words for an index, quarter, domain, tensor identity and step under a seed (R186). -/
def keyed (seed index quarter domain tensor step : Nat) : List Nat :=
  let o := philoxN (index % 2 ^ 32, index / 2 ^ 32 % 2 ^ 16 + quarter % 4 * 2 ^ 16 + domain % 64 * 2 ^ 18, tensor % 2 ^ 32, step % 2 ^ 32)
    (seed % 2 ^ 32, seed / 2 ^ 32 % 2 ^ 32) 10
  [o.1, o.2.1, o.2.2.1, o.2.2.2]

/-- The random number of element `j` of a block (R187). -/
def roundKey (seed block tensor step j : Nat) : Nat :=
  let w := (keyed seed block (j / 8) 0 tensor step).getD (j % 8 / 2) 0
  if j % 2 = 0 then w % 65536 else w / 65536 % 65536

/-! ### Block conversion (R177–R182, R200, R201) -/

/-- The target exponent t of a narrow format (R180). -/
def targetExp (fmt : Nat) : Int := if fmt = 3 then 7 else if fmt = 4 then 31 else 1

/-- The head-room h of a class (R179). -/
def headRoom (cls : Nat) : Int := if cls = 1 ∨ cls = 4 then 1 else 0

/-- Whether a class has a ceiling (R179). -/
def hasCeiling (cls : Nat) : Bool := cls == 0 || cls == 1 || cls == 4 || cls == 5

/-- What a conversion of one block gives: the codes, the scale byte, the amax exponent if the block has one, saturations, NaN and
infinite elements. -/
structure BlockOut where
  codes : List Nat
  scale : Nat
  e : Option Int
  sat : Nat
  nans : Nat
  deriving DecidableEq, Repr

/-- The key of a block's stochastic rounding: seed, tensor, step, block index. -/
structure RndKey where
  seed : Nat
  tensor : Nat
  step : Nat
  block : Nat
  deriving DecidableEq, Repr

/-- The largest amax exponent of a list of values (R181, step 1). -/
def amaxExp (xs : List Num) : Option Int :=
  xs.foldl (fun a x => match a, x.flog2 with
    | none, r => r
    | some a, none => some a
    | some a, some b => some (max a b)) none

/-- The block exponent B (R181, step 2) for an amax exponent. -/
def blockExp (fmt cls : Nat) (warm : Bool) (ceil : Int) (e : Option Int) : Int :=
  match e with
  | none => -127
  | some e =>
    let b := e - targetExp fmt + headRoom cls
    let b := if warm then b + 4 else if hasCeiling cls then min b ceil else b
    max (-127) (min 127 b)

/-- ConvertBlock (R181, R200): 32 values to a narrow format under a slot's class, warm-up flag and ceiling. -/
def convertBlock (fmt cls : Nat) (warm : Bool) (ceil : Int) (key : RndKey) (xs : List Num) : BlockOut :=
  let f := (fmtOf fmt).getD f8p
  let e := amaxExp xs
  let b := blockExp fmt cls warm ceil e
  let nans := (xs.filter fun x => !x.isFin).length
  let rs := xs.zipIdx.map fun (x, j) =>
    let r := if cls = 2 then Rnd.stoch (roundKey key.seed key.block key.tensor key.step j) else .near
    f.round r (x.scale (-b))
  if fmt = 5 ∧ nans > 0 then { codes := xs.map fun _ => 0, scale := 0x80, e := e, sat := (rs.filter (·.2)).length, nans := nans }
  else
    { codes := rs.map (·.1), scale := wrap b 8, e := e, sat := (rs.filter (·.2)).length, nans := nans }

/-- DecodeBlock (R178, R664): codes of a narrow format under a scale byte. -/
def decodeBlock (fmt scale : Nat) (codes : List Nat) : List Num :=
  if scale = 0x80 then codes.map fun _ => .nan
  else codes.map fun c => (((fmtOf fmt).getD f8p).decode c).scale (sextInt scale 8)

/-- The element codes of a format packed in bytes, F4 two to a byte (R175). -/
def unpackCodes (fmt : Nat) (n : Nat) (bs : List Byte) : List Nat :=
  match fmt with
  | 5 => (List.range n).map fun i => ((bs.getD (i / 2) 0).toNat / 16 ^ (i % 2)) % 16
  | 0 => (List.range n).map fun i => numAt bs 4 i
  | 7 => (List.range n).map fun i => numAt bs 4 i
  | 1 => (List.range n).map fun i => numAt bs 2 i
  | 2 => (List.range n).map fun i => numAt bs 8 i
  | _ => (List.range n).map fun i => numAt bs 1 i

/-- Bytes of `n` elements of a format (R172). -/
def fmtBytes (fmt n : Nat) : Nat :=
  match fmt with
  | 5 => (n + 1) / 2
  | 0 => 4 * n
  | 7 => 4 * n
  | 1 => 2 * n
  | 2 => 8 * n
  | _ => n

/-- Element codes packed into bytes. -/
def packCodes (fmt : Nat) (cs : List Nat) : List Byte :=
  match fmt with
  | 5 => (List.range ((cs.length + 1) / 2)).map fun i => .ofNat 8 (cs.getD (2 * i) 0 % 16 + cs.getD (2 * i + 1) 0 % 16 * 16)
  | 0 => (cs.map fun c => toBytes c 4).flatten
  | 7 => (cs.map fun c => toBytes c 4).flatten
  | 1 => (cs.map fun c => toBytes c 2).flatten
  | 2 => (cs.map fun c => toBytes c 8).flatten
  | _ => cs.map fun c => .ofNat 8 c

/-- The values of packed elements of a wide format. -/
def unpackNums (fmt n : Nat) (bs : List Byte) : List Num :=
  (unpackCodes fmt n bs).map fun c => match fmtOf fmt with
    | some f => f.decode c
    | none => if fmt = 6 then .ofInt (sextInt c 8) else .ofInt (sextInt c 32)

/-- Whether an output row or column block is in the witness cone's sample (R206): the low `k` bits of output word 0. -/
def coneTest (seed tensor step domain index k : Nat) : Bool :=
  (keyed seed index 0 domain tensor step).getD 0 0 % 2 ^ k == 0

end Sys2Proof.Machine
end

