-- ==== Sys2Proof/Machine/Vector.lean ====
section
/-!
DEFINITION. The vector engine (R656, R671–R678): loads and stores, element-wise operations, comparisons, reductions, conversions,
moves and AMAX, and the cone copies that a conversion writes (R685, R686).
-/

namespace Sys2Proof.Machine

/-! ### Elements of a vector register -/

/-- Bytes of an element of a VOP type (R673): 0 FP32, 1 BF16, 2 FP64, 3 INT32. -/
def tySize (ty : Nat) : Nat := if ty = 1 then 2 else if ty = 2 then 8 else 4

/-- The format of a floating VOP type. -/
def tyFmt (ty : Nat) : FFmt := if ty = 1 then bf16 else if ty = 2 then fp64 else fp32

/-- The lane whose predicate bit governs element `i` of a type (R656). -/
def laneOf (ty i : Nat) : Nat := if ty = 1 then i / 2 else if ty = 2 then 2 * i else i

/-- Elements of a type in a tile's vector register. -/
def elemCount (t ty : Nat) : Nat := vbytes t / tySize ty

/-- Element `i` of size `n` bytes of a vector register. -/
def vElem (v : Vec) (n i : Nat) : Nat := v.toNat / 2 ^ (8 * n * i) % 2 ^ (8 * n)

/-- A vector register made of elements of `n` bytes, from element 0. -/
def vOfElems (n : Nat) (es : List Nat) : Vec :=
  .ofNat 8192 (es.foldr (fun e acc => acc * 2 ^ (8 * n) + e % 2 ^ (8 * n)) 0)

/-- The elements of a type of a register. -/
def vElems (t ty : Nat) (v : Vec) : List Nat := (List.range (elemCount t ty)).map fun i => vElem v (tySize ty) i

/-- A vector from its bytes. -/
def vOfBytes (bs : List Byte) : Vec := .ofNat 8192 (ofBytes bs)

/-- Whether a lane is enabled. -/
def laneOn (p : Pred) (i : Nat) : Bool := bitOf p.toNat i

/-- A result in the enabled elements of a register, its old contents in the others (R656). -/
def mergeElems (t ty : Nat) (p : Pred) (old new : List Nat) : Vec :=
  vOfElems (tySize ty) ((List.range (elemCount t ty)).map fun i => if laneOn p (laneOf ty i) then new.getD i 0 else old.getD i 0)

/-! ### VOP, VCMP, VRED, VMOVX -/

/-- Which operation and type pairs VOP admits (R673). -/
def vopPair (op ty : Nat) : Bool :=
  decide (ty < 4) &&
    (decide (op < 3) || decide (4 ≤ op ∧ op < 8) || op == 10 || op == 17 ||
     ((op == 3 || op == 8 || op == 9) && ty != 3) || (decide (11 ≤ op ∧ op < 17) && ty == 3))

/-- How many of RA, RB, RC an operation reads as vectors; SEL reads RC as a predicate. -/
def vopUses (op : Nat) : Nat :=
  match op with
  | 3 => 3
  | 6 => 1
  | 7 => 1
  | 9 => 1
  | 17 => 1
  | _ => 2

/-- A floating operation on one element (R673): the exact result rounded once. -/
def vopFp (f : FFmt) (op : Nat) (a b c : Nat) : Nat :=
  let x := f.decode a
  let y := f.decode b
  match op with
  | 0 => f.near (x.add y)
  | 1 => f.near (x.sub y)
  | 2 => f.near (x.mul y)
  | 3 => f.near ((x.mul y).add (f.decode c))
  | 4 => f.near (x.minNum y)
  | 5 => f.near (x.maxNum y)
  | 6 => f.near x.abs
  | 7 => f.near x.neg
  | 8 => f.near (x.div y)
  | 9 => f.near x.sqrt
  | _ => a

/-- An INT32 operation on one element, modulo 2^32 (R673). -/
def vopInt (op : Nat) (a b : Nat) : Nat :=
  let x := BitVec.ofNat 32 a
  let y := BitVec.ofNat 32 b
  (match op with
   | 0 => x + y
   | 1 => x - y
   | 2 => x * y
   | 4 => if x.slt y then x else y
   | 5 => if x.slt y then y else x
   | 6 => if x.slt 0 then -x else x
   | 7 => -x
   | 11 => x &&& y
   | 12 => x ||| y
   | 13 => x ^^^ y
   | 14 => x <<< (b % 32)
   | 15 => x >>> (b % 32)
   | 16 => x.sshiftRight (b % 32)
   | _ => x).toNat

/-- VOP on one element; SEL and MOV copy the element's bits. -/
def vopElem (op ty a b c : Nat) (sel : Bool) : Nat :=
  if op = 10 then if sel then a else b
  else if op = 17 then a
  else if ty = 3 then vopInt op a b
  else vopFp (tyFmt ty) op a b c

/-- VOP at dispatch. -/
def effVop (t : Nat) (f : FmtS3) (q : Queued) (s : State) : State :=
  let op := f.func.toNat % 32
  let ty := f.func.toNat / 32
  let p := rp s t q.ctx f.pred.toNat
  let a := vElems t ty (rv s t q.ctx f.ra.toNat)
  let b := vElems t ty (rv s t q.ctx f.rb.toNat)
  let c := vElems t ty (rv s t q.ctx f.rc.toNat)
  let sel := rp s t q.ctx (f.rc.toNat % 8)
  let new := (List.range (elemCount t ty)).map fun i =>
    vopElem op ty (a.getD i 0) (b.getD i 0) (c.getD i 0) (laneOn sel (laneOf ty i))
  setV s t q.ctx f.rd.toNat (mergeElems t ty p (vElems t ty (rv s t q.ctx f.rd.toNat)) new)

/-- The vector registers of a VOP are 0–31, an unused field is 0, a SEL predicate is 0–7. -/
def vopLegal (t : Nat) (f : FmtS3) : Bool :=
  let op := f.func.toNat % 32
  let ty := f.func.toNat / 32
  vopPair op ty && (ty != 2 || classOf t == 1) && f.z == 0 && decide (f.rd.toNat < 32) && decide (f.ra.toNat < 32) &&
    (if 2 ≤ vopUses op then decide (f.rb.toNat < 32) else f.rb == 0) &&
    (if op = 10 then decide (f.rc.toNat < 8) else if vopUses op = 3 then decide (f.rc.toNat < 32) else f.rc == 0)

/-- VOP. -/
def execVop (t : Nat) (f : FmtS3) (s : State) : Host.Outcome State Fault Refusal :=
  let op := f.func.toNat % 32
  .next (issue s t
    { instr := .vop t f, eng := .ve, wait := f.wait, legal := vopLegal t f,
      foot := { reads := [idV f.ra.toNat] ++ (if 2 ≤ vopUses op then [idV f.rb.toNat] else []) ++
                  (if vopUses op = 3 then [idV f.rc.toNat] else []) ++ (if op = 10 then idP f.rc.toNat else []) ++ idP f.pred.toNat,
                writes := [idV f.rd.toNat] },
      need := [], vals := [], desc := none } (effVop t f))

/-- A comparison of two values (R674): false with NaN, except NE. -/
def vcmpNum (func : Nat) (x y : Num) : Bool :=
  match func with
  | 0 => x.eq y
  | 1 => !x.eq y
  | 2 => x.lt y
  | 3 => x.lt y || x.eq y
  | 4 => y.lt x
  | _ => y.lt x || x.eq y

/-- The value of an element of a VOP type. -/
def tyVal (ty e : Nat) : Num := if ty = 3 then .ofInt (sextInt e 32) else (tyFmt ty).decode e

/-- VCMP at dispatch (R674). -/
def effVcmp (t : Nat) (f : FmtS3) (q : Queued) (s : State) : State :=
  let ty := f.func.toNat / 32
  let p := rp s t q.ctx f.pred.toNat
  let a := vElems t ty (rv s t q.ctx f.ra.toNat)
  let b := vElems t ty (rv s t q.ctx f.rb.toNat)
  let old := rp s t q.ctx f.rd.toNat
  let bit := fun lane : Nat =>
    let e := if ty = 1 then 2 * lane else if ty = 2 then lane / 2 else lane
    if laneOn p (if ty = 2 then lane / 2 * 2 else lane) then
      vcmpNum (f.func.toNat % 8) (tyVal ty (a.getD e 0)) (tyVal ty (b.getD e 0))
    else laneOn old lane
  setP s t q.ctx f.rd.toNat (.ofNat 256 ((List.range (lanesOf t)).foldl (fun n i => n + if bit i then 2 ^ i else 0) 0))

/-- VCMP. -/
def execVcmp (t : Nat) (f : FmtS3) (s : State) : Host.Outcome State Fault Refusal :=
  let ty := f.func.toNat / 32
  .next (issue s t
    { instr := .vcmp t f, eng := .ve, wait := f.wait,
      legal := decide (ty < 4) && (ty != 2 || classOf t == 1) && bits f.func.toNat 4 3 == 0 && decide (f.func.toNat % 8 < 6) &&
        f.z == 0 && f.rc == 0 && decide (f.rd.toNat < 8) && decide (f.ra.toNat < 32) && decide (f.rb.toNat < 32),
      foot := { reads := [idV f.ra.toNat, idV f.rb.toNat] ++ idP f.pred.toNat, writes := idP f.rd.toNat },
      need := [], vals := [], desc := none } (effVcmp t f))

/-- One level of the reduction tree (R675). -/
def pairUp {β : Type} (op : β → β → β) : List β → List β
  | x :: y :: l => op x y :: pairUp op l
  | l => l

/-- The reduction tree, level by level. -/
def treeRed {β : Type} (op : β → β → β) : Nat → List β → List β
  | 0, l => l
  | n + 1, l => treeRed op n (pairUp op l)

/-- VRED's result (R675): each level rounds as VOP, BF16 in FP32. -/
def vredVal (t func ty : Nat) (p : Pred) (v : Vec) : Nat :=
  let es := vElems t ty v
  let on := fun i => laneOn p (laneOf ty i)
  if ty = 3 then
    let idt : Int := if func = 0 then 0 else if func = 1 then -2 ^ 31 else 2 ^ 31 - 1
    let xs := es.zipIdx.map fun (e, i) => if on i then sextInt e 32 else idt
    let op := fun (x y : Int) => if func = 0 then x + y else if func = 1 then max x y else min x y
    wrap ((treeRed op 9 xs).headD 0) 64
  else
    let f := if ty = 2 then fp64 else fp32
    let idt : Num := if func = 0 then .zero else .inf (func == 1)
    let xs := es.zipIdx.map fun (e, i) => if on i then (tyFmt ty).decode e else idt
    let op := fun (x y : Num) => f.decode (f.near (if func = 0 then x.add y else if func = 1 then x.maxNum y else x.minNum y))
    f.near ((treeRed op 9 xs).headD .zero)

/-- VRED at dispatch. -/
def effVred (t : Nat) (f : FmtS3) (q : Queued) (s : State) : State :=
  setS s t q.ctx f.rd.toNat (.ofNat 64 (vredVal t (f.func.toNat % 4) (f.func.toNat / 32) (rp s t q.ctx f.pred.toNat)
    (rv s t q.ctx f.ra.toNat)))

/-- VRED. -/
def execVred (t : Nat) (f : FmtS3) (s : State) : Host.Outcome State Fault Refusal :=
  let ty := f.func.toNat / 32
  .next (issue s t
    { instr := .vred t f, eng := .ve, wait := f.wait,
      legal := decide (ty < 4) && (ty != 2 || classOf t == 1) && decide (f.func.toNat % 4 < 3) && bits f.func.toNat 4 2 == 0 &&
        f.z == 0 && f.rb == 0 && f.rc == 0 && decide (f.ra.toNat < 32),
      foot := { reads := [idV f.ra.toNat] ++ idP f.pred.toNat, writes := [idS f.rd.toNat] },
      need := [], vals := [], desc := none } (effVred t f))

/-- VMOVX at dispatch (R676). -/
def effVmovx (t : Nat) (f : FmtSI) (q : Queued) (s : State) : State :=
  let p := rp s t q.ctx f.pred.toNat
  let ty := if f.func = 1 ∨ f.func = 3 then 2 else 0
  if f.func.toNat < 2 then
    let x := (rs s t q.ctx f.ra.toNat).toNat
    setV s t q.ctx f.rd.toNat (mergeElems t ty p (vElems t ty (rv s t q.ctx f.rd.toNat)) (List.replicate (elemCount t ty) x))
  else if laneOn p (laneOf ty f.imm.toNat) then
    setS s t q.ctx f.rd.toNat (.ofNat 64 (vElem (rv s t q.ctx f.ra.toNat) (tySize ty) f.imm.toNat))
  else s

/-- VMOVX's fields (R676). -/
def vmovxLegal (t : Nat) (f : FmtSI) : Bool :=
  match f.func.toNat with
  | 0 => f.imm == 0 && decide (f.rd.toNat < 32)
  | 1 => f.imm == 0 && decide (f.rd.toNat < 32) && classOf t == 1
  | 2 => decide (f.imm.toNat < lanesOf t) && decide (f.ra.toNat < 32)
  | 3 => decide (f.imm.toNat < 128) && decide (f.ra.toNat < 32) && classOf t == 1
  | _ => false

/-- VMOVX. -/
def execVmovx (t : Nat) (f : FmtSI) (s : State) : Host.Outcome State Fault Refusal :=
  .next (issue s t
    { instr := .vmovx t f, eng := .ve, wait := 0, legal := vmovxLegal t f,
      foot := { reads := [if f.func.toNat < 2 then idS f.ra.toNat else idV f.ra.toNat] ++ idP f.pred.toNat,
                writes := [if f.func.toNat < 2 then idV f.rd.toNat else idS f.rd.toNat] },
      need := [], vals := [], desc := none } (effVmovx t f))

/-! ### Loads and stores -/

/-- Whether any lane of a tile is enabled. DESIGN CHOICE (log 21). -/
def anyLane (t : Nat) (p : Pred) : Bool := (List.range (lanesOf t)).any fun i => laneOn p i

/-- The address of VLD and VST (R671): a multiple of 4 within the window, in the tile's own scratchpad. DESIGN CHOICE (log 21). -/
def vecAt (s : State) (t c : Nat) (f : FmtSI) (store : Bool) : Chk Nat :=
  match window s t c f.ra.toNat (immInt f.imm) (vbytes t) with
  | .error e => .error e
  | .ok x => if x % 4 ≠ 0 then .error (fACCESS, x)
    else if store then localDst s t c x (vbytes t) else localOffset s t c x (vbytes t)

/-- VLD at dispatch: enabled lanes are loaded. -/
def effVld (t : Nat) (f : FmtSI) (q : Queued) (s : State) : State :=
  let p := rp s t q.ctx f.pred.toNat
  if !anyLane t p then s
  else chk s t q.pc (vecAt s t q.ctx f false) fun o =>
    let v := vOfBytes (ownRd s t o (vbytes t))
    setV s t q.ctx f.rd.toNat (mergeElems t 0 p (vElems t 0 (rv s t q.ctx f.rd.toNat)) (vElems t 0 v))

/-- What VLD and VST need at issue. -/
def vecReq (s : State) (t : Nat) (f : FmtSI) (i : Instr) (store : Bool) : IssueReq :=
  { instr := i, eng := .ve, wait := 0,
    legal := decide (f.ra.toNat < 16) && decide (f.rd.toNat < 32) && f.func == 0,
    foot := { reads := [idA f.ra.toNat] ++ (if store then [idV f.rd.toNat] else []) ++ idP f.pred.toNat,
              writes := if store then [] else [idV f.rd.toNat],
              ranges := rangeOf (vecAt s t (s.actx t) f store) (vbytes t) store },
    need := [idA f.ra.toNat], vals := [], desc := none }

/-- VLD. -/
def execVld (t : Nat) (f : FmtSI) (s : State) : Host.Outcome State Fault Refusal :=
  .next (issue s t (vecReq s t f (.vld t f) false) (effVld t f))

/-- VST at dispatch: enabled lanes are stored. -/
def effVst (t : Nat) (f : FmtSI) (q : Queued) (s : State) : State :=
  let p := rp s t q.ctx f.pred.toNat
  if !anyLane t p then s
  else chk s t q.pc (vecAt s t q.ctx f true) fun o =>
    let v := rv s t q.ctx f.rd.toNat
    let old := ownRd s t o (vbytes t)
    if (List.range (lanesOf t)).all fun i => laneOn p i then ownWr s t o (toBytes v.toNat (vbytes t))
    else (List.range (lanesOf t)).foldl (fun s i =>
      if laneOn p i then ownWr s t (o + 4 * i) (toBytes (vElem v 4 i) 4) else s) (let _ := old; s)

/-- VST. -/
def execVst (t : Nat) (f : FmtSI) (s : State) : Host.Outcome State Fault Refusal :=
  .next (issue s t (vecReq s t f (.vst t f) true) (effVst t f))

/-- The elements of VLDX and VSTX that are enabled (R672): element number and scratchpad offset, or the first failed check. DESIGN CHOICE (log 21). -/
def idxElems (s : State) (t c : Nat) (f : FmtS3) (store : Bool) : Chk (List (Nat × Nat)) :=
  let ty := if f.func = 1 then 2 else 0
  let e := tySize ty
  let p := rp s t c f.pred.toNat
  let iv := rv s t c f.rb.toNat
  (List.range (elemCount t ty)).foldr (fun j acc =>
    if !laneOn p (laneOf ty j) then acc
    else match window s t c f.ra.toNat (e * vElem iv 4 (laneOf ty j)) e with
      | .error x => .error x
      | .ok x => match (if store then localDst s t c x e else localOffset s t c x e) with
        | .error y => .error (fACCESS, y.2)
        | .ok o => match acc with
          | .error z => .error z
          | .ok l => .ok ((j, o) :: l)) (.ok [])

/-- VLDX at dispatch. -/
def effVldx (t : Nat) (f : FmtS3) (q : Queued) (s : State) : State :=
  let ty := if f.func = 1 then 2 else 0
  chk s t q.pc (idxElems s t q.ctx f false) fun l =>
    let old := vElems t ty (rv s t q.ctx f.rd.toNat)
    let new := l.foldl (fun a (j, o) => a.set j (ofBytes (ownRd s t o (tySize ty)))) old
    setV s t q.ctx f.rd.toNat (vOfElems (tySize ty) new)

/-- VSTX at dispatch: in ascending lanes, so the highest lane's value is kept. -/
def effVstx (t : Nat) (f : FmtS3) (q : Queued) (s : State) : State :=
  let ty := if f.func = 1 then 2 else 0
  chk s t q.pc (idxElems s t q.ctx f true) fun l =>
    let v := rv s t q.ctx f.rd.toNat
    l.foldl (fun s (j, o) => ownWr s t o (toBytes (vElem v (tySize ty) j) (tySize ty))) s

/-- What VLDX and VSTX need at issue: one range entry that bounds the part of the window in the tile's own scratchpad. -/
def idxReq (s : State) (t : Nat) (f : FmtS3) (i : Instr) (store : Bool) : IssueReq :=
  let w := ra s t (s.actx t) f.ra.toNat
  let base := wget w 39 0
  let own := spadAddr t 0
  let lo := max base own
  let hi := min (base + 64 * wget w 63 40) (own + 0x20_0000)
  { instr := i, eng := .ve, wait := f.wait,
    legal := decide (f.func.toNat < 2) && (f.func == 0 || classOf t == 1) && f.z == 0 && f.rc == 0 && decide (f.ra.toNat < 16) &&
      decide (f.rb.toNat < 32) && decide (f.rd.toNat < 32),
    foot := { reads := [idA f.ra.toNat, idV f.rb.toNat] ++ (if store then [idV f.rd.toNat] else []) ++ idP f.pred.toNat,
              writes := if store then [] else [idV f.rd.toNat],
              ranges := if lo < hi then [⟨lo - own, hi - lo, store⟩] else [] },
    need := [idA f.ra.toNat], vals := [], desc := none }

/-- VLDX. -/
def execVldx (t : Nat) (f : FmtS3) (s : State) : Host.Outcome State Fault Refusal :=
  .next (issue s t (idxReq s t f (.vldx t f) false) (effVldx t f))

/-- VSTX. -/
def execVstx (t : Nat) (f : FmtS3) (s : State) : Host.Outcome State Fault Refusal :=
  .next (issue s t (idxReq s t f (.vstx t f) true) (effVstx t f))

/-! ### Scale slots -/

/-- An amax exponent as an 8-bit field (R740): −128 for none, nothing below −127 otherwise, and an exponent above 127, of which the manual says nothing, as 127.
DESIGN CHOICE (log 81). -/
def amaxField (e : Option Int) : Nat :=
  match e with
  | none => 0x80
  | some e => wrap (max (-127) (min 127 e)) 8

/-- The larger of two 8-bit amax exponents (R223). -/
def amaxMax (a b : Nat) : Nat := if sextInt a 8 < sextInt b 8 then b else a

/-- The counts and the exponent of a conversion merged into a slot's status (R201, R214, R223). -/
def slotUpdate (s : State) (t c n : Nat) (e : Option Int) (sat nans : Nat) : State :=
  let s := s.setTf t (R.NSTAT_AMAXE c n) (amaxMax (s.tf t (R.NSTAT_AMAXE c n)) (amaxField e))
  let s := s.setTf t (R.NSTAT_SAT c n) (satAdd (s.tf t (R.NSTAT_SAT c n)) sat 0xFFFF)
  s.setTf t (R.NSTAT_NAN c n) (satAdd (s.tf t (R.NSTAT_NAN c n)) nans 0xFFFF)

/-- The rounding key of a block under a slot (R186–R188). -/
def slotKey (s : State) (t c n block : Nat) : RndKey :=
  { seed := s.tf t (R.NSEED_SEED c), tensor := s.tf t (R.NSLOT_TENSOR c n), step := s.tf t (R.NSCALE_STEP c), block := block % 2 ^ 48 }

/-- ConvertBlock under a slot, without its effect on the status. -/
def slotConvert (s : State) (t c n fmt block : Nat) (xs : List Num) : BlockOut :=
  convertBlock fmt (s.tf t (R.NSLOT_CLASS c n)) (s.tf t (R.NSLOT_WARM c n) == 1) (sextInt (s.tf t (R.NSLOT_CEIL c n)) 8)
    (slotKey s t c n block) xs

/-- The effect of a block conversion on the status. -/
def slotCount (s : State) (t c n : Nat) (b : BlockOut) : State := slotUpdate s t c n b.e b.sat b.nans

/-! ### Cone records (R685, R686) -/

/-- The range entry of an instruction that may write cone records (R55, R742): what is left of the cone area, within which `NEXT` stays. DEDUCED (log 80). -/
def coneFoot (s : State) (t c : Nat) : List Range :=
  let next := s.tf t (R.CONEAREA_NEXT c)
  let own := spadAddr t 0
  let hi := min (next + 16 * s.tf t (R.CONEAREA_LEFT c)) (own + 0x20_0000)
  if own ≤ next ∧ next < hi ∧ s.tf t (R.CONECFG_EN c) = 1 then [⟨next - own, hi - next, true⟩] else []

/-- Writes one cone record at `CONEAREA.NEXT` (R685), or counts it as lost; one in a program area or in a group that is not the context's is refused with
ACCESS (R47, R105). -/
def coneRecord (s : State) (t c pc kind slot part ident idx marks : Nat) (data : List Byte) : State :=
  let next := s.tf t (R.CONEAREA_NEXT c)
  let left := s.tf t (R.CONEAREA_LEFT c)
  let own := spadAddr t 0
  if left < 5 ∨ next < own ∨ next + 80 > own + 0x20_0000 then
    s.setTf t (R.CONEAREA_LOST c) (satAdd (s.tf t (R.CONEAREA_LOST c)) 1 0xFF)
  else
    let hdr := toBytes (kind % 256 + slot % 256 * 2 ^ 8 + part % 2 ^ 16 * 2 ^ 16 + ident % 2 ^ 32 * 2 ^ 32 + idx % 2 ^ 32 * 2 ^ 64 +
      marks % 2 ^ 32 * 2 ^ 96) 16
    chk s t pc (localDst s t c next 80) fun o =>
      let s := ownWr s t o (hdr ++ fitBytes 64 data)
      (s.setTf t (R.CONEAREA_NEXT c) (next + 80)).setTf t (R.CONEAREA_LEFT c) (left - 5)

/-- Values rounded to BF16, as bytes (R207). -/
def bf16Bytes (xs : List Num) : List Byte := (xs.map fun x => toBytes (bf16.near x) 2).flatten

/-- Whether the cone of a context samples a row (domain 1) or a column block (domain 2) of a tensor (R206, R212). -/
def coneSamples (s : State) (t c domain ident idx : Nat) : Bool :=
  s.tf t (R.CONECFG_EN c) == 1 &&
    coneTest (s.tf t (R.NSEED_SEED c)) ident (s.tf t (R.NSCALE_STEP c)) domain idx
      (if domain = 1 then s.tf t (R.CONECFG_ROWK c) else s.tf t (R.CONECFG_COLK c))

/-- The cone copies of a VCVT (R686): blocks from `CONENEXT.NEXT`, which then advances. -/
def vcvtCone (s : State) (t c pc : Nat) (blocks : List (List Num)) : State :=
  let b0 := s.tf t (R.CONENEXT_NEXT c)
  let per := s.tf t (R.CONETAG_PER c)
  let role := s.tf t (R.CONETAG_ROLE c)
  let ident := s.tf t (R.CONETAG_IDENT c)
  let index := s.tf t (R.CONETAG_INDEX c)
  let s := blocks.zipIdx.foldl (fun s (xs, i) =>
    let b := b0 + i
    let sample := if role = 0 then index + b / per else index + b % per
    let part := if role = 0 then b % per else b / per
    if coneSamples s t c (role + 1) ident sample then coneRecord s t c pc (role + 1) 0 part ident sample 0 (bf16Bytes xs) else s) s
  s.setTf t (R.CONENEXT_NEXT c) ((b0 + blocks.length) % 2 ^ 32)

/-! ### VCVT -/

/-- Bytes of the elements of a wide format in a conversion; the number of elements that a conversion covers: those of the wider format
that one register holds (R677). -/
def cvtCount (t src dst : Nat) : Nat :=
  let sz := fun f : Nat => if f = 2 then 8 else if f = 0 ∨ f = 7 then 4 else if f = 1 then 2 else 1
  vbytes t / max (sz src) (sz dst)

/-- Which source and target formats VCVT admits (R677). -/
def cvtPair (src dst : Nat) : Bool :=
  ((src == 0 || src == 1) && isNarrow dst) || (isNarrow src && (dst == 0 || dst == 1)) ||
  (decide (src < 3) && decide (dst < 3)) || (src == 0 && dst == 6) || ((src == 6 || src == 7) && dst == 0)

/-- The fault that a VCVT's formats and the fields of s[RC] raise, if any (R658, R677, R179, R215). DEDUCED (log 22). -/
def vcvtFault (s : State) (t c src dst : Nat) (w : Word) : Option Nat :=
  let slot := wget w 4 0
  let use := wget w 5 5 == 1
  let mode := wget w 7 6
  let cone := wget w 8 8 == 1
  let cls := s.tf t (R.NSLOT_CLASS c slot)
  if !cvtPair src dst ∨ wget w 15 9 ≠ 0 then some fGANG
  else if isNarrow dst && !use then some fGANG
  else if use && s.tf t (R.NSLOT_VALID c slot) == 0 then some fGANG
  else if use && decide (cls ≥ 6) then some fGANG
  else if mode ≠ 0 ∧ (isNarrow dst ∨ (use ∧ cls = 2)) then some fGANG
  else if cone && ((use && cls == 2) || s.tf t (R.CONETAG_PER c) == 0) then some fGANG
  else none

/-- Rounding of a VCVT to a wide format (R183, R185, R677): between FP64, FP32 and BF16 as the mode or the class says. From a narrow format, INT8 or INT32 it is
RoundNearest, as the rows of R677 say, also under a class G slot, of which R185 would have it stochastic. DESIGN CHOICE (log 82). -/
def vcvtRnd (s : State) (t c src : Nat) (w : Word) (i : Nat) : Rnd :=
  if src > 2 then .near
  else match wget w 7 6 with
  | 1 => .zero
  | 2 => .up
  | 3 => .down
  | _ =>
    if wget w 5 5 = 1 ∧ s.tf t (R.NSLOT_CLASS c (wget w 4 0)) = 2 then
      let k := slotKey s t c (wget w 4 0) (wget w 63 16 + i / 32)
      .stoch (roundKey k.seed k.block k.tensor k.step (i % 32))
    else .near

/-- The values that a VCVT converts, in blocks of 32, with the scale bytes of a narrow source (R658, R677). -/
def vcvtBlocks (t src dst : Nat) (v : Vec) (scales : Nat) : List (List Num) :=
  let n := cvtCount t src dst
  let codes := unpackCodes src n (toBytes v.toNat (vbytes t))
  (List.range ((n + 31) / 32)).map fun j =>
    let cs := (codes.drop (32 * j)).take 32
    if isNarrow src then decodeBlock src (bits scales (8 * j + 7) (8 * j)) cs
    else cs.map fun x => match fmtOf src with
      | some g => g.decode x
      | none => if src = 6 then .ofInt (sextInt x 8) else .ofInt (sextInt x 32)

/-- VCVT at dispatch (R677). DEDUCED (log 22). -/
def effVcvt (t : Nat) (f : FmtS3) (q : Queued) (s : State) : State :=
  let c := q.ctx
  let src := f.func.toNat % 16
  let dst := f.func.toNat / 16
  let w := rs s t c f.rc.toNat
  let slot := wget w 4 0
  let use := wget w 5 5 == 1
  match vcvtFault s t c src dst w with
  | some b => progFault s t b q.pc 0
  | none =>
    let n := cvtCount t src dst
    let scales := (rs s t c f.rb.toNat).toNat + (if n / 32 > 8 then (rs s t c (f.rb.toNat + 1)).toNat * 2 ^ 64 else 0)
    let blocks := vcvtBlocks t src dst (rv s t c f.ra.toNat) scales
    let s := if wget w 8 8 = 1 then vcvtCone s t c q.pc blocks else s
    if isNarrow dst then
      let outs := blocks.zipIdx.map fun (xs, j) => slotConvert s t c slot dst (wget w 63 16 + j) xs
      let s := outs.foldl (fun s b => slotCount s t c slot b) s
      let s := setV s t c f.rd.toNat (vOfBytes (packCodes dst (outs.map BlockOut.codes).flatten))
      let sc := outs.zipIdx.foldl (fun a (b, j) => a + b.scale * 2 ^ (8 * j)) 0
      let used := 8 * outs.length
      -- the bytes of s[RB] that hold no scale are not stated: a free value
      if outs.length > 8 then setS (setS s t c f.rb.toNat (.ofNat 64 (sc % 2 ^ 64))) t c (f.rb.toNat + 1)
        (.ofNat 64 (sc / 2 ^ 64 + if used < 128 then (s.freeNat.1 % 2 ^ (128 - used)) * 2 ^ (used - 64) else 0))
        |> fun s => { s with fresh := s.fresh + 1 }
      else (setS s t c f.rb.toNat (.ofNat 64 (sc + if used < 64 then (s.freeNat.1 % 2 ^ (64 - used)) * 2 ^ used else 0)))
        |> fun s => { s with fresh := s.fresh + 1 }
    else
      let xs := blocks.flatten
      let s := if use && s.tf t (R.NSLOT_CLASS c slot) == 2 then
          slotUpdate s t c slot none 0 (xs.filter fun x => !x.isFin).length else s
      let out := xs.zipIdx.map fun (x, i) => match fmtOf dst with
        | some g => (g.round (vcvtRnd s t c src w i) x).1
        | none => toInt8 x
      let bs := packCodes dst out
      let rest := vbytes t - bs.length
      -- the bytes of v[RD] beyond the elements are not stated for a wide target: a free value
      if rest = 0 then setV s t c f.rd.toNat (vOfBytes bs)
      else
        let r := s.freeNat
        setV r.2 t c f.rd.toNat (vOfBytes (bs ++ toBytes r.1 rest))

/-- VCVT's fields at issue: p0, vector registers 0–31, RB only for scale bytes and with room for the second register, FP64 on V-tiles
only. -/
def vcvtLegal (t : Nat) (f : FmtS3) : Bool :=
  let src := f.func.toNat % 16
  let dst := f.func.toNat / 16
  f.pred == 0 && f.z == 0 && decide (f.ra.toNat < 32) && decide (f.rd.toNat < 32) &&
    ((src != 2 && dst != 2) || classOf t == 1) &&
    (if isNarrow src || isNarrow dst then decide (cvtCount t src dst / 32 ≤ 8) || decide (f.rb.toNat ≤ 62) else f.rb == 0)

/-- VCVT. -/
def execVcvt (t : Nat) (f : FmtS3) (s : State) : Host.Outcome State Fault Refusal :=
  let src := f.func.toNat % 16
  let dst := f.func.toNat / 16
  let rbs := if cvtCount t src dst / 32 > 8 then [idS f.rb.toNat, idS (f.rb.toNat + 1)] else [idS f.rb.toNat]
  let cone := wget (rs s t (s.actx t) f.rc.toNat) 8 8 == 1
  .next (issue s t
    { instr := .vcvt t f, eng := .ve, wait := f.wait, legal := vcvtLegal t f,
      foot := { reads := [idV f.ra.toNat, idS f.rc.toNat] ++ (if isNarrow src then rbs else []),
                writes := [idV f.rd.toNat] ++ (if isNarrow dst then rbs else []),
                ranges := if cone then coneFoot s t (s.actx t) else [] },
      need := [idS f.rc.toNat], vals := [], desc := none, locates := cone } (effVcvt t f))

/-! ### AMAX (R678) -/

/-- AMAX at dispatch; s[RX] was read at issue. Its merge into a slot that is not valid raises nothing: R215 speaks of conversions only. DESIGN CHOICE (log 83). -/
def effAmax (t : Nat) (f : FmtM) (q : Queued) (s : State) : State :=
  let x := q.vals.getD 0 0
  let n := wget x 31 0
  let fmt := wget x 35 32
  if fmt > 2 then progFault s t fGANG q.pc 0
  else chk s t q.pc (localWin s t q.ctx f.a.toNat 0 (fmtBytes fmt n)) fun o =>
    let e := amaxExp (unpackNums fmt n (ownRd s t o (fmtBytes fmt n)))
    let s := setS s t q.ctx f.ry.toNat (.ofInt 64 (e.getD (-128)))
    if bitOf f.mod.toNat 5 then slotUpdate s t q.ctx (f.mod.toNat % 32) e 0 0 else s

/-- AMAX. One of FP64 on an M- or S-tile does not issue (R38), as s[RX], once no write to it is pending, says. -/
def execAmax (t : Nat) (f : FmtM) (s : State) : Host.Outcome State Fault Refusal :=
  let fp64 := !pendingWrite (s.tile t) (s.actx t) [idS f.rx.toNat] && wget (rs s t (s.actx t) f.rx.toNat) 35 32 == 2
  let x := rs s t (s.actx t) f.rx.toNat
  let len := fmtBytes (wget x 35 32) (wget x 31 0)
  .next (issue s t
    { instr := .amax t f, eng := .ve, wait := f.wait,
      legal := f.pred == 0 && f.b == 0 && f.c == 0 && f.cnt == 0 && decide (f.mod.toNat < 64) && !(fp64 && classOf t != 1),
      foot := { reads := [idA f.a.toNat], writes := [idS f.ry.toNat],
                ranges := rangeOf (localWin s t (s.actx t) f.a.toNat 0 len) len false },
      need := [idA f.a.toNat], vals := [f.rx.toNat], desc := none } (effAmax t f))

end Sys2Proof.Machine
end

