-- ==== Sys2Proof/Machine/Set.lean ====
section
/-!
DEFINITION. The set engine (R397–R400, R684). An instruction takes its operands when it dispatches and writes its results when it
completes; an SGATHER from other tiles reads their elements as remote reads in between (R399). A field value outside the range that
R684 gives raises ILLEGAL.
-/

namespace Sys2Proof.Machine

/-! ### Records and keys -/

/-- Key size of a set instruction: MOD[0]. -/
def setKey (f : FmtM) : Nat := if bitOf f.mod.toNat 0 then 8 else 4

/-- The key at the front of a record. -/
def keyOf (k : Nat) (r : List Byte) : Nat := ofBytes (r.take k)

/-- Whether a record with key `a` stands before one with key `b` wherever they differ. -/
def goesBefore (desc : Bool) (a b : Nat) : Bool := if desc then decide (b < a) else decide (a < b)

/-- A record put into a sorted run before the first that it does not follow. -/
def sortInsert (k : Nat) (desc : Bool) (r : List Byte) : List (List Byte) → List (List Byte)
  | [] => [r]
  | x :: xs => if goesBefore desc (keyOf k x) (keyOf k r) then x :: sortInsert k desc r xs else r :: x :: xs

/-- SSORT: stable (R397). -/
def sortRecs (k : Nat) (desc : Bool) (rs : List (List Byte)) : List (List Byte) := rs.foldr (sortInsert k desc) []

/-- Whether a run is sorted. -/
def sortedRun (desc : Bool) : List Nat → Bool
  | [] => true
  | [_] => true
  | a :: b :: l => !goesBefore desc b a && sortedRun desc (b :: l)

/-- SMERGE: of equal keys the first run's come first (R397). The number bounds the records. -/
def mergeRecs (k : Nat) (desc : Bool) : Nat → List (List Byte) → List (List Byte) → List (List Byte)
  | 0, xs, ys => xs ++ ys
  | _ + 1, [], ys => ys
  | _ + 1, xs, [] => xs
  | n + 1, x :: xs, y :: ys =>
    if goesBefore desc (keyOf k y) (keyOf k x) then y :: mergeRecs k desc n (x :: xs) ys else x :: mergeRecs k desc n xs (y :: ys)

/-- SINTER: the common keys with their positions (R397). DEDUCED (log 25). -/
def interKeys : Nat → Nat → List Nat → Nat → List Nat → List (Nat × Nat × Nat)
  | 0, _, _, _, _ => []
  | n + 1, i, a :: as, j, b :: bs =>
    if a < b then interKeys n (i + 1) as j (b :: bs)
    else if b < a then interKeys n i (a :: as) (j + 1) bs
    else (a, i, j) :: interKeys n (i + 1) as (j + 1) bs
  | _ + 1, _, _, _, _ => []

/-! ### Hash tables (R398) -/

/-- The slot at which the probing of a key starts. -/
def hashSlot (k key : Nat) : Nat := crc32c (toBytes key 8) % 2 ^ k

/-- The first slot of a probe that is empty or holds the key; none after all have been probed. -/
def probe (tab : Nat → Nat) (k key : Nat) : Option Nat :=
  ((List.range (2 ^ k)).map fun i => (hashSlot k key + i) % 2 ^ k).find? fun i => tab i == key || tab i == 2 ^ 64 - 1

/-- One element of an SHASH on a table of (key, value) pairs: code, value found, the table after it. DEDUCED (log 25). -/
def hashOne (mode k : Nat) (tab : List (Nat × Nat)) (key val : Nat) : Nat × Nat × List (Nat × Nat) :=
  let at_ := fun i => tab.getD i (0, 0)
  if key = 2 ^ 64 - 1 then (5, 0, tab)
  else match probe (fun i => (at_ i).1) k key with
    | none => (if mode = 1 then 3 else 4, 0, tab)
    | some i =>
      if (at_ i).1 = key then
        if mode = 1 then (0, (at_ i).2, tab)
        else if mode = 2 then (2, (at_ i).2, tab.set i (key, ((at_ i).2 + val) % 2 ^ 64))
        else (2, (at_ i).2, tab)
      else if mode = 1 then (3, 0, tab)
      else (1, 0, tab.set i (key, val))

/-! ### Ranges -/

/-- Bytes that are open: a free value. DESIGN CHOICE (log 26). -/
def freeBytes (s : State) (n : Nat) : List Byte × State := (toBytes s.freeNat.1 n, s.freeNat.2)

/-- A destination through an address register. -/
def dstWin (s : State) (t c k : Nat) (len : Nat) : Chk Nat :=
  match window s t c k 0 len with
  | .error e => .error e
  | .ok a => localDst s t c a len

/-- The operation code of a set instruction, by constructor. -/
inductive SetKind where
  | sort | merge | inter | hash | gather | scatter
  deriving DecidableEq, Repr

/-- k of an SHASH. -/
def hashK (x : Word) : Nat := if wget x 19 16 = 0 then 16 else wget x 19 16

/-- Whether the register operands lie in the ranges of R684. DEDUCED (log 25). -/
def setArgsOk (op : SetKind) (x y : Word) : Bool :=
  match op with
  | .sort => decide (1 ≤ x.toNat) && decide (x.toNat ≤ 65536) && y == 0
  | .merge => true
  | .inter => true
  | .hash => wget x 63 20 == 0 && decide (4 ≤ hashK x) && y == 0
  | .gather => y == 0
  | .scatter => y == 0

/-- The package address of element `i` of a table at address register `k`, within its bound; ACCESS otherwise (R399). -/
def elemAt (s : State) (t c k esz i : Nat) : Chk Nat := window s t c k (i * esz) esz

/-- An element of an SGATHER's table: the address, and its offset when it lies in the tile's own scratchpad. -/
def gatherAt (s : State) (t c k esz i : Nat) : Chk (Nat × Option Nat) :=
  match elemAt s t c k esz i with
  | .error e => .error e
  | .ok a =>
    if spadAddr t 0 ≤ a ∧ a < spadAddr t 0 + 0x20_0000 then
      match localOffset s t c a esz with
      | .ok o => .ok (a, some o)
      | .error e => .error e
    else if reservedAt s a esz then .error (fADDRESS, a)
    else match regionOf s.grade a with
      | .spad _ _ => .ok (a, none)
      | _ => .error (fACCESS, a)

/-- All checks in order, or the first failure. -/
def chkAll {α β : Type} (f : α → Chk β) : List α → Chk (List β)
  | [] => .ok []
  | x :: xs =>
    match f x with
    | .error e => .error e
    | .ok y =>
      match chkAll f xs with
      | .error e => .error e
      | .ok ys => .ok (y :: ys)

/-- The whole window of an address register as far as it lies in the tile's own scratchpad (R55, for an SGATHER's table). -/
def tableRange (s : State) (t c k : Nat) (write : Bool) : List Range :=
  let w := ra s t c k
  let lo := max (wget w 39 0) (spadAddr t 0)
  let hi := min (wget w 39 0 + 64 * wget w 63 40) (spadAddr t 0 + 0x20_0000)
  if lo < hi then [⟨lo - spadAddr t 0, hi - lo, write⟩] else []

/-- The local ranges of a set instruction, in the order A, B, C, without an SGATHER's and an SSCATTER's table. -/
def setRanges (op : SetKind) (s : State) (t c : Nat) (f : FmtM) (x y : Word) : Chk (List Range) :=
  let k := setKey f
  let n := x.toNat
  let m := y.toNat
  let rd := fun (reg len : Nat) => match localWin s t c reg 0 len with | .ok o => .ok (⟨o, len, false⟩ : Range) | .error e => .error e
  let wr := fun (reg len : Nat) => match dstWin s t c reg len with | .ok o => .ok (⟨o, len, true⟩ : Range) | .error e => .error e
  let a := f.a.toNat
  let b := f.b.toNat
  let o := f.c.toNat
  match op with
  | .sort => do return [← wr a (2 * k * n), ← wr b (2 * k * n)]
  | .merge => do return [← rd a (2 * k * n), ← rd b (2 * k * m), ← wr o (2 * k * (n + m))]
  | .inter => do return [← rd a (k * n), ← rd b (k * m), ← wr o (8 + 16 * min n m)]
  | .hash => do return [← wr a (16 * 2 ^ hashK x), ← rd b (16 * wget x 15 0), ← wr o (16 * wget x 15 0)]
  | .gather => do return [← rd a (4 * n), ← wr o (k * n)]
  | .scatter => do return [← rd a (4 * n), ← rd b (k * n)]

/-! ### Remote elements of an SGATHER -/

/-- A flight of the SE with a new kind. -/
def setKind (s : State) (t fid : Nat) (k : FlightKind) : State :=
  s.modTile t fun x => { x with flights := x.flights.map fun f => if f.id = fid then { f with kind := k } else f }

/-- Asks for the elements of one gather, as far as the 16 outstanding reads allow (R112). -/
def askElems (s : State) (t fid : Nat) (ws : List (Nat × List Byte)) (pend esz worst : Nat) : List (Nat × Nat) → State
  | [] => setKind s t fid (.setOp ws [] pend esz worst)
  | (a, off) :: rest =>
    if (s.tile t).reads.length ≥ 16 then setKind s t fid (.setOp ws ((a, off) :: rest) pend esz worst)
    else
      let (tag, s) := newTag s t
      let s := s.modTile t fun x => { x with reads := x.reads ++ [{ tag := tag, len := esz, off := off, flight := fid }] }
      askElems (s.post (.readReq a esz t tag)) t fid ws (pend + 1) esz worst rest

/-- Lets every gather of a tile ask for more. -/
def sePump (s : State) (t : Nat) : State :=
  ((s.tile t).flights.filterMap fun f => match f.kind with | .setOp ws todo p e w => some (f.id, ws, todo, p, e, w) | _ => none).foldl
    (fun s (id, ws, todo, p, e, w) => askElems s t id ws p e w todo) s

/-- An element that has been read joins what the gather writes. -/
def landGather (s : State) (t fid off status : Nat) (data : List Byte) : State :=
  match (s.tile t).flights.find? fun f => f.id == fid with
  | some f => (match f.kind with
    | .setOp ws todo p e w => setKind s t fid (.setOp (if status = stOK then ws ++ [(off, data)] else ws) todo (p - 1) e (max w status))
    | _ => s)
  | none => s

/-! ### Dispatch -/

/-- A set operation in flight with what it will write. -/
def setFlight (s : State) (t : Nat) (f : FmtM) (q : Queued) (rs : List Range) (ws : List (Nat × List Byte)) (todo : List (Nat × Nat)) : State :=
  sePump (addFlight s t { id := q.id, eng := .se, ctx := q.ctx, pc := q.pc, foot := { ranges := rs.filter fun r => r.write },
                          cnt := cntM f, kind := .setOp ws todo 0 (setKey f) stOK }) t

/-- The bytes of a range. -/
def rangeBytes (s : State) (t : Nat) (r : Range) : List Byte := ownRd s t r.lo r.len

/-- The records of SSORT and SMERGE. -/
def recsOf (k : Nat) (bs : List Byte) : List (List Byte) := chunks (2 * k) bs

/-- The keys of a run of SINTER. -/
def keysOf (k : Nat) (bs : List Byte) : List Nat := (List.range (bs.length / k)).map fun i => numAt bs k i

/-- SSORT at dispatch: the records sorted; what the scratch area is left with is open. DESIGN CHOICE (log 26). -/
def goSort (s : State) (t : Nat) (f : FmtM) (q : Queued) (rs : List Range) : State :=
  let r := rs.getD 0 ⟨0, 0, true⟩
  let z := rs.getD 1 ⟨0, 0, true⟩
  let (junk, s) := freeBytes s z.len
  setFlight s t f q rs [(z.lo, junk), (r.lo, (sortRecs (setKey f) (bitOf f.mod.toNat 1) (recsOf (setKey f) (rangeBytes s t r))).flatten)] []

/-- SMERGE at dispatch. What runs that are not sorted merge into is open. DESIGN CHOICE (log 26). -/
def goMerge (s : State) (t : Nat) (f : FmtM) (q : Queued) (rs : List Range) : State :=
  let k := setKey f
  let desc := bitOf f.mod.toNat 1
  let xs := recsOf k (rangeBytes s t (rs.getD 0 ⟨0, 0, false⟩))
  let ys := recsOf k (rangeBytes s t (rs.getD 1 ⟨0, 0, false⟩))
  let o := rs.getD 2 ⟨0, 0, true⟩
  if sortedRun desc (xs.map (keyOf k)) && sortedRun desc (ys.map (keyOf k)) then
    setFlight s t f q rs [(o.lo, (mergeRecs k desc (xs.length + ys.length) xs ys).flatten)] []
  else
    let (junk, s) := freeBytes s o.len
    setFlight s t f q rs [(o.lo, junk)] []

/-- SINTER at dispatch. What runs that do not ascend give is open. DESIGN CHOICE (log 26). -/
def goInter (s : State) (t : Nat) (f : FmtM) (q : Queued) (rs : List Range) : State :=
  let xs := keysOf (setKey f) (rangeBytes s t (rs.getD 0 ⟨0, 0, false⟩))
  let ys := keysOf (setKey f) (rangeBytes s t (rs.getD 1 ⟨0, 0, false⟩))
  let o := rs.getD 2 ⟨0, 0, true⟩
  if sortedRun false xs && sortedRun false ys then
    let ms := interKeys (xs.length + ys.length) 0 xs 0 ys
    setFlight s t f q rs [(o.lo, toBytes ms.length 8 ++ (ms.map fun m => toBytes m.1 8 ++ toBytes m.2.1 4 ++ toBytes m.2.2 4).flatten)] []
  else
    let (junk, s) := freeBytes s o.len
    setFlight s t f q rs [(o.lo, junk)] []

/-- SHASH at dispatch (R398): the elements in ascending order. -/
def goHash (s : State) (t : Nat) (f : FmtM) (q : Queued) (rs : List Range) : State :=
  let x := q.vals.getD 0 0
  let r := rs.getD 0 ⟨0, 0, true⟩
  let es := rangeBytes s t (rs.getD 1 ⟨0, 0, false⟩)
  let o := rs.getD 2 ⟨0, 0, true⟩
  let tb := rangeBytes s t r
  let tab := (List.range (2 ^ hashK x)).map fun i => (numAt tb 8 (2 * i), numAt tb 8 (2 * i + 1))
  let out := (List.range (wget x 15 0)).foldl (fun (a : List Byte × List (Nat × Nat)) i =>
    let key := numAt es 8 (2 * i) % 2 ^ (8 * setKey f)
    let r := hashOne (bits f.mod.toNat 2 1) (hashK x) a.2 key (numAt es 8 (2 * i + 1))
    (a.1 ++ toBytes r.1 8 ++ toBytes r.2.1 8, r.2.2)) ([], tab)
  setFlight s t f q rs [(r.lo, (out.2.map fun e => toBytes e.1 8 ++ toBytes e.2 8).flatten), (o.lo, out.1)] []

/-- SGATHER at dispatch (R399): local elements are read at once. -/
def goGather (s : State) (t : Nat) (f : FmtM) (q : Queued) (rs : List Range) : State :=
  let k := setKey f
  let idx := rangeBytes s t (rs.getD 0 ⟨0, 0, false⟩)
  let o := rs.getD 1 ⟨0, 0, true⟩
  let n := idx.length / 4
  chk s t q.pc (chkAll (gatherAt s t q.ctx f.b.toNat k) ((List.range n).map fun i => numAt idx 4 i)) fun es =>
    setFlight s t f q rs
      (es.zipIdx.filterMap fun (e, i) => match e.2 with | some off => some (o.lo + k * i, ownRd s t off k) | none => none)
      (es.zipIdx.filterMap fun (e, i) => match e.2 with | some _ => none | none => some (e.1, o.lo + k * i))

/-- SSCATTER at dispatch (R397, R399): the writes in ascending element order; an addition to what the earlier ones left. DESIGN CHOICE (log 26). -/
def goScatter (s : State) (t : Nat) (f : FmtM) (q : Queued) (rs : List Range) : State :=
  let k := setKey f
  let idx := rangeBytes s t (rs.getD 0 ⟨0, 0, false⟩)
  let ins := rangeBytes s t (rs.getD 1 ⟨0, 0, false⟩)
  let n := idx.length / 4
  let place := fun i => match elemAt s t q.ctx f.c.toNat k i with | .ok a => localDst s t q.ctx a k | .error e => .error e
  chk s t q.pc (chkAll place ((List.range n).map fun i => numAt idx 4 i)) fun os =>
    let ws := os.zipIdx.foldl (fun (m : List (Nat × Nat)) (o, i) =>
      let v := numAt ins k i
      let old := ((m.find? fun e => e.1 == o).map (·.2)).getD (ofBytes (ownRd s t o k))
      let new := if bitOf f.mod.toNat 1 then (old + v) % 2 ^ (8 * k) else v
      (m.filter fun e => e.1 ≠ o) ++ [(o, new)]) []
    setFlight s t f q (rs ++ tableRange s t q.ctx f.c.toNat true) (ws.map fun e => (e.1, toBytes e.2 k)) []

/-- A set instruction at dispatch. -/
def effSet (op : SetKind) (t : Nat) (f : FmtM) (q : Queued) (s : State) : State :=
  let x := q.vals.getD 0 0
  let y := q.vals.getD 1 0
  if !setArgsOk op x y then progFault s t fILLEGAL q.pc 0
  else chk s t q.pc (setRanges op s t q.ctx f x y) fun rs =>
    match op with
    | .sort => goSort s t f q rs
    | .merge => goMerge s t f q rs
    | .inter => goInter s t f q rs
    | .hash => goHash s t f q rs
    | .gather => goGather s t f q rs
    | .scatter => goScatter s t f q rs

/-- The bits of MOD that a set instruction defines, and its unused register fields (R684). -/
def setLegal (op : SetKind) (f : FmtM) : Bool :=
  let m := f.mod.toNat
  f.pred == 0 && cntLegal f &&
  match op with
  | .sort => bits m 6 2 == 0 && f.c == 0
  | .merge => bits m 6 2 == 0
  | .inter => bits m 6 1 == 0
  | .hash => bits m 6 3 == 0 && bits m 2 1 != 3
  | .gather => bits m 6 1 == 0
  | .scatter => bits m 6 2 == 0

/-- What a set instruction needs at issue. -/
def setReq (op : SetKind) (s : State) (t : Nat) (f : FmtM) (i : Instr) : IssueReq :=
  let c := s.actx t
  let x := rs s t c f.rx.toNat
  let y := rs s t c f.ry.toNat
  let ranges := match (if setArgsOk op x y then setRanges op s t c f x y else .ok []) with | .ok l => l | .error _ => []
  let tab := match op with
    | .gather => tableRange s t c f.b.toNat false
    | .scatter => tableRange s t c f.c.toNat true
    | _ => []
  { instr := i, eng := .se, wait := f.wait, legal := setLegal op f,
    foot := { reads := [idA f.a.toNat, idA f.b.toNat, idA f.c.toNat], ranges := ranges ++ tab },
    need := [idA f.a.toNat, idA f.b.toNat, idA f.c.toNat], vals := [f.rx.toNat, f.ry.toNat], desc := none }

/-- SSORT. -/
def execSsort (t : Nat) (f : FmtM) (s : State) : Host.Outcome State Fault Refusal :=
  .next (issue s t (setReq .sort s t f (.ssort t f)) (effSet .sort t f))

/-- SMERGE. -/
def execSmerge (t : Nat) (f : FmtM) (s : State) : Host.Outcome State Fault Refusal :=
  .next (issue s t (setReq .merge s t f (.smerge t f)) (effSet .merge t f))

/-- SINTER. -/
def execSinter (t : Nat) (f : FmtM) (s : State) : Host.Outcome State Fault Refusal :=
  .next (issue s t (setReq .inter s t f (.sinter t f)) (effSet .inter t f))

/-- SHASH. -/
def execShash (t : Nat) (f : FmtM) (s : State) : Host.Outcome State Fault Refusal :=
  .next (issue s t (setReq .hash s t f (.shash t f)) (effSet .hash t f))

/-- SGATHER. -/
def execSgather (t : Nat) (f : FmtM) (s : State) : Host.Outcome State Fault Refusal :=
  .next (issue s t (setReq .gather s t f (.sgather t f)) (effSet .gather t f))

/-- SSCATTER. -/
def execSscatter (t : Nat) (f : FmtM) (s : State) : Host.Outcome State Fault Refusal :=
  .next (issue s t (setReq .scatter s t f (.sscatter t f)) (effSet .scatter t f))

/-- SET_OP_COMPLETE (R684): the results are written and the counter is signalled; a fenced tile stays as it is (R72). -/
def execSetOpComplete (t : Nat) (s : State) : Host.Outcome State Fault Refusal :=
  .next (if s.tstate t = fenced then s else match (s.tile t).flights.find? fun f => match f.kind with | .setOp .. => true | _ => false with
    | some f => (match f.kind with
      | .setOp ws [] 0 _ worst =>
        let s := ws.foldl (fun s (w : Nat × List Byte) => ownWr s t w.1 w.2) (dropFlight s t f.id)
        settle (complete s t f.ctx f.cnt worst .se f.pc) t
      | _ => s)
    | none => s)

end Sys2Proof.Machine
end

