-- ==== Sys2Proof/Machine/Dma.lean ====
section
/-!
DEFINITION. The DMA engine (R382–R396, R441–R445, R457, R659–R670, R752): forms of HBM blocks, conversions, gradient buckets, the DMA
instructions, and what the answers to their requests do.
-/

namespace Sys2Proof.Machine

/-! ### Stored forms (R382, R386, R388–R390) -/

/-- The stored forms of R345. -/
abbrev formDENSE : Nat := 0
abbrev formBPV : Nat := 1
abbrev formRGCSR : Nat := 2
abbrev formSIGN : Nat := 3

/-- Bits of an element of a format (R658) in a stored block; 0 for a code that is none. -/
def fmtWidth (fmt : Nat) : Nat :=
  match fmt with
  | 0 => 32 | 1 => 16 | 2 => 64 | 3 => 8 | 4 => 8 | 5 => 4 | 6 => 8 | 7 => 32 | _ => 0

/-- The elements of `w` bits of a run of bytes. -/
def elemsOf (w : Nat) (bs : List Byte) : List Nat :=
  if w = 4 then unpackCodes 5 (2 * bs.length) bs else (List.range (bs.length / (w / 8))).map fun i => numAt bs (w / 8) i

/-- Elements of `w` bits packed in bytes. -/
def packElems (w : Nat) (es : List Nat) : List Byte := if w = 4 then packCodes 5 es else (es.map fun e => toBytes e (w / 8)).flatten

/-- The BPV form of elements of `w` bits that stand for a 4 KiB block: `keep` says which are stored (R388). -/
def bpvOf (w : Nat) (es : List Nat) (keep : List Bool) : List Byte :=
  let kept := (es.zip keep).filterMap fun (e, k) => if k then some e else none
  toBytes (w.log2 - 2) 1 ++ [0] ++ toBytes kept.length 2 ++ List.replicate 12 0 ++
    (List.range (4096 / w)).map (fun j => BitVec.ofNat 8 ((List.range 8).foldl (fun n i => n + b2n (keep.getD (8 * j + i) false) * 2 ^ i) 0)) ++
    packElems w kept

/-- The form in which a BPV store writes a whole block (R384, R390): form, stored bytes. DEDUCED (log 34). -/
def bpvStore (w : Nat) (bs : List Byte) : Nat × List Byte :=
  let es := elemsOf w bs
  let b := bpvOf w es (es.map fun e => e != 0)
  if b.length < 4096 then (formBPV, b) else (formDENSE, bs)

/-- A BPV block expanded; none where it names a reserved width or its count is wrong (R389). -/
def bpvLoad (bs : List Byte) : Option (List Byte) :=
  let k := (bs.getD 0 0).toNat
  if k > 4 then none
  else
    let w := 2 ^ (k + 2)
    let n := 32768 / w
    let on := fun i => bitOf (bs.getD (16 + i / 8) 0).toNat (i % 8)
    let nz := ((List.range n).filter on).length
    if nz ≠ numAt (bs.drop 2) 2 0 then none
    else
      let vals := elemsOf w (bs.drop (16 + 4096 / w))
      let es := (List.range n).foldl (fun (r : List Nat × Nat) i => if on i then (r.1 ++ [vals.getD r.2 0], r.2 + 1) else (r.1 ++ [0], r.2)) ([], 0)
      some (packElems w es.1)

/-- What a DMA load lands of a whole stored block (R386, R444); none for a block that counts as a checksum mismatch (R348, R389). -/
def landForm (form : Nat) (raw : Bool) (bs : List Byte) : Option (List Byte) :=
  if form > 3 then none
  else if form = formBPV then (bpvLoad bs).bind fun e => some (if raw then bs else e)
  else some bs

/-! ### RG-CSR (R391–R396) -/

/-- Zero bytes up to a 16 B boundary. -/
def pad16 (bs : List Byte) : List Byte := bs ++ List.replicate (roundUp bs.length 16 - bs.length) 0

/-- One record (R393): table-row position of its first row, its rows as (index, column indices, values), slots per row, segment start. -/
structure RgRec where
  pos : Nat
  rows : List (Nat × List Nat × List Nat)
  ws : Nat
  seg : Nat
  deriving DecidableEq, Repr

/-- The data of a record (R393). -/
def RgRec.data (r : RgRec) (w ib : Nat) : List Byte :=
  let slots := fun (f : Nat × List Nat × List Nat → Nat → Nat) => ((List.range r.ws).map fun s => r.rows.map fun x => f x s).flatten
  pad16 ((r.rows.map fun x => toBytes x.1 4).flatten) ++
    pad16 (((slots fun x s => x.2.1.getD (r.seg + s) (2 ^ (8 * ib) - 1)).map fun v => toBytes v ib).flatten) ++
    pad16 (((slots fun x s => x.2.2.getD (r.seg + s) 0).map fun v => toBytes v (w / 8)).flatten)

/-- The bytes of a block of records (R393). -/
def rgBlock (w ib g : Nat) (rs : List RgRec) : List Byte :=
  let datas := rs.map fun r => r.data w ib
  let offs := (List.range rs.length).map fun i => 16 + 16 * rs.length + ((datas.take i).map List.length).foldl (· + ·) 0
  let first := (rs.head?.map RgRec.pos).getD 0
  let last := (rs.getLast?.map fun r => r.pos + r.rows.length).getD 0
  toBytes (w.log2 - 2) 1 ++ toBytes (if ib = 4 then 1 else 0) 1 ++ toBytes g 1 ++ toBytes rs.length 1 ++ toBytes first 4 ++
    toBytes (last - first) 4 ++ [0, 0, 0, 0] ++
    ((rs.zip offs).map fun (r, o) => toBytes r.pos 4 ++ toBytes r.rows.length 2 ++ toBytes r.ws 2 ++ toBytes r.seg 4 ++ toBytes o 2 ++ [0, 0]).flatten ++
    datas.flatten

/-- Whether records make a block of at most 4 KiB. -/
def rgFits (w ib g : Nat) (rs : List RgRec) : Bool := decide ((rgBlock w ib g rs).length ≤ 4096)

/-- The records of one group (R392, R394): one, or segments of the largest width that fits in an empty block. -/
def rgGroup (w ib g pos : Nat) (rows : List (Nat × List Nat × List Nat)) : List RgRec :=
  let width := (rows.map fun x => x.2.1.length).foldl max 0
  if rgFits w ib g [⟨pos, rows, width, 0⟩] then [⟨pos, rows, width, 0⟩]
  else
    let best := (List.range (width + 1)).foldl (fun b k => if rgFits w ib g [⟨pos, rows, k, 0⟩] then k else b) 0
    if best = 0 then [⟨pos, rows, width, 0⟩]
    else (List.range (cdiv width best)).map fun i => ⟨pos, rows, min best (width - i * best), i * best⟩

/-- Records placed in blocks in order (R394). -/
def rgPlace (w ib g : Nat) (rs : List RgRec) : List (List RgRec) :=
  rs.foldl (fun bs r => match bs.getLast? with
    | none => [[r]]
    | some b => if rgFits w ib g (b ++ [r]) then bs.dropLast ++ [b ++ [r]] else bs ++ [[r]]) []

/-- An RG-CSR store (R391–R396): its blocks as (form, stored bytes), or none where a column index does not fit 16 bits. The arrays stand
at places from the source address that the descriptor gives. DESIGN CHOICE (log 33). -/
def rgStore (src : Nat → Nat → List Byte) (ps : List Nat) : Option (List (Nat × List Byte)) :=
  let r := ps.getD 0 0
  let l := ps.getD 1 0
  let w := ps.getD 2 0
  let g := ps.getD 3 0
  let ib := if ps.getD 4 0 = 0 then 2 else 4
  let num := fun (base size i : Nat) => ofBytes (src (base + size * i) size)
  let ptr := fun i => num (ps.getD 5 0) 4 i
  let row := fun (i : Nat) =>
    let a := ptr i
    let n := ptr (i + 1) - a
    ((List.range n).map fun k => num (ps.getD 6 0) 4 (a + k), (List.range n).map fun k => num (ps.getD 7 0) (w / 8) (a + k))
  let tab := (List.range r).map fun k =>
    let i := num (ps.getD 8 0) 8 k / 2 ^ 32
    (i, (row i).1, (row i).2)
  if ib = 2 && (tab.any fun x => x.2.1.any fun c => decide (c ≥ 65535)) then none
  else
    let recs := ((List.range (cdiv r g)).map fun k => rgGroup w ib g (k * g) ((tab.drop (k * g)).take g)).flatten
    let blocks := (rgPlace w ib g recs).map (rgBlock w ib g)
    let total := cdiv (r * l * w) 32768
    if (blocks.map List.length).foldl (· + ·) 0 ≥ r * l * w / 8 then
      let dense := ((List.range r).map fun i =>
        let (cs, vs) := row i
        (List.range l).map fun c => ((cs.zip vs).find? fun x => x.1 == c).elim 0 (·.2)).flatten
      some ((chunks 4096 (packElems w dense)).map fun b => (formDENSE, fitBytes 4096 b))
    else some (blocks.map (fun b => (formRGCSR, b)) ++ List.replicate (total - blocks.length) (formRGCSR, []))

/-! ### Ranges -/

/-- The pieces of a range within 4 KiB blocks: address and length. -/
def pieces4k (a len : Nat) : List (Nat × Nat) :=
  if len = 0 then []
  else (List.range ((a + len - 1) / 4096 + 1 - a / 4096)).map fun i =>
    let lo := max a (4096 * (a / 4096 + i))
    (lo, min (a + len) (4096 * (a / 4096 + i) + 4096) - lo)

/-- The kinds of address that R666 names. -/
inductive AddrKind where
  | hbm
  | spad
  | other
  deriving DecidableEq, Repr

/-- The kind of range that addresses lie in; an unbound tile's scratchpad answers none (R18). DEDUCED (log 15). -/
def kindAt (s : State) (a len : Nat) : AddrKind :=
  let k := fun a => match regionOf s.grade a with
    | .hbm _ => AddrKind.hbm
    | .spad t _ => if s.bound t then .spad else .other
    | _ => .other
  if k a = k (a + len - 1) then k a else .other

/-- The kind of range on another device, whose map is the same (R15). -/
def kindFar (a len : Nat) : AddrKind :=
  if a + len ≤ 0x80_0000_0000 then .hbm else if 0x80_0000_0000 ≤ a ∧ a + len ≤ 0x81_0000_0000 then .spad else .other

/-- R752: ADDRESS where a range is of another kind. -/
def needKind (a : Nat) (k want : AddrKind) : Chk Unit := if k = want then .ok () else .error (fADDRESS, a)

/-- Elements of a format in a number of bytes. -/
def elemsIn (fmt len : Nat) : Nat := if fmtWidth fmt = 0 then 0 else 8 * len / fmtWidth fmt

/-- The place of a scale plane after data (R663). -/
def planeOff (n form : Nat) : Nat := roundUp n (if form = 0 then 64 else 4096)

/-- The checks of a conversion (R665). DEDUCED (log 34). -/
def convCheck (s : State) (t c : Nat) (store : Bool) (d : Desc) : Bool :=
  let pair := if store then ((d.sfmt == 0 || d.sfmt == 1) && isNarrow d.tfmt) || (d.sfmt == 0 && d.tfmt == 1)
    else isNarrow d.sfmt && (d.tfmt == 0 || d.tfmt == 1)
  pair && s.tf t (R.NSLOT_VALID c d.slot) == 1 && s.tf t (R.NSLOT_CLASS c d.slot) == d.cls && decide (d.cls < 6)

/-- Bytes of a conversion's result without its scale plane. -/
def convBytes (d : Desc) : Nat := fmtBytes d.tfmt (elemsIn d.sfmt d.len)

/-- Whether a DMAS compresses a gradient bucket (R670). -/
def bucketStore (op : Nat) (d : Desc) : Bool := op == 1 && (d.form == 3 || d.form == 4)

/-- A DMA operation as it dispatches: kind as in DMAX, JWRITE, descriptor, block or element index, error slots. -/
structure DmaArgs where
  op : Nat
  jw : Bool
  d : Desc
  base : Nat
  ein : Nat
  eout : Nat
  deriving DecidableEq, Repr

/-- A range in HBM or in the tile's own scratchpad; in the latter case its offset. -/
def hbmOrOwn (s : State) (t c a len : Nat) (write : Bool) : Chk (Option Nat) :=
  if kindAt s a len = .hbm then .ok none
  else (if write then localDst s t c a len else localOffset s t c a len).map some

/-- Bytes that a bucket store writes at its destination in scratchpad (R670): 132 for each group of SIGN, 208 of top-k. -/
def bucketSpan (d : Desc) : Nat := d.len / 4096 * (if d.form = 3 then 132 else 208)

/-- The checks of a DMA operation at dispatch (R665–R667, R670, R752): its local ranges in the order source, destination, EIN, EOUT, or
the first that fails. DEDUCED (log 18). -/
def dmaPlan (s : State) (t c : Nat) (a : DmaArgs) : Chk (List Range) :=
  let d := a.d
  let own := d.dev == s.ownDev
  let one := fun (o n : Nat) (w : Bool) => ([⟨o, n, w⟩] : List Range)
  if !d.legal then .error (fILLEGAL, 0)
  else if d.len = 0 then .ok []
  else if d.conv && decide (a.op > 1) then .error (fGANG, 0)
  else if d.conv && !convCheck s t c (a.op == 1) d then .error (fGANG, 0)
  else match a.op with
  | 0 =>
    if !own then .error (fADDRESS, d.src)
    else do
      needKind d.src (kindAt s d.src (if d.conv then planeOff d.len d.form + cdiv (elemsIn d.sfmt d.len) 32 else d.len)) .hbm
      let n := if d.conv then convBytes d else d.len
      let o ← localDst s t c d.dst n
      return one o n true
  | 1 =>
    if d.form > 4 then .error (fGANG, 0)
    else if bucketStore 1 d then
      if d.len % 4096 ≠ 0 ∨ d.sfmt ≠ 0 ∨ d.conv ∨ d.raw ∨ d.tfmt ≠ (if d.form = 3 then 8 else 9) ∨
          s.tf t (R.NSLOT_VALID c d.slot) = 0 ∨ s.tf t (R.NSLOT_CLASS c d.slot) ≠ 2 then .error (fGANG, 0)
      else if !own then .error (fADDRESS, d.dst)
      else do
        let src ← localOffset s t c d.src d.len
        let hb := if d.form = 3 then 4096 * cdiv (d.len / 4096) 31 else d.len
        let dst ← hbmOrOwn s t c d.dst (if kindAt s d.dst hb = .hbm then hb else bucketSpan d) true
        let ei ← hbmOrOwn s t c a.ein d.len false
        let eo ← hbmOrOwn s t c a.eout d.len true
        let r := fun (x : Option Nat) (n : Nat) (w : Bool) => match x with | some o => one o n w | none => []
        return one src d.len false ++ r dst (bucketSpan d) true ++ r ei d.len false ++ r eo d.len true
    else if !own then .error (fADDRESS, d.dst)
    else do
      let src ← localOffset s t c d.src d.len
      needKind d.dst (kindAt s d.dst (if d.conv then planeOff (convBytes d) d.form + (if isNarrow d.tfmt then cdiv (elemsIn d.sfmt d.len) 32 else 0)
        else d.len)) .hbm
      return one src d.len false
  | 2 => do
      let k := if own then kindAt s d.src d.len else kindFar d.src d.len
      (if k = .other then .error (fADDRESS, d.src) else .ok ())
      let o ← localDst s t c d.dst d.len
      return one o d.len true
  | 3 => do
      let o ← localOffset s t c d.src d.len
      if a.jw then (if own then .ok () else needKind d.dst (kindFar d.dst d.len) .hbm)
      else needKind d.dst (if own then kindAt s d.dst d.len else kindFar d.dst d.len) .spad
      return one o d.len false
  | _ => do
      let o ← localOffset s t c d.src d.len
      needKind d.dst (if own then kindAt s d.dst d.len else kindFar d.dst d.len) .spad
      return one o d.len false

/-! ### Requests -/

/-- The entries in use of a tile's HBM read queue (R338, R339): requests on their way, and those whose blocks are on a recovery path. -/
def readEntries (s : State) (t : Nat) : Nat :=
  (s.wires.filter fun w => match w with | .hbmRead q => q.t == t | _ => false).length +
    (s.mcs.map fun e => (e.2.path.filter fun p => p.2.t == t).length).foldl (· + ·) 0

/-- The entries in use of a tile's HBM write queue (R338, R339): requests that their MC has not accepted. -/
def writeEntries (s : State) (t : Nat) : Nat :=
  (s.wires.filter fun w => match w with | .hbmWrite q => q.t == t | _ => false).length +
    (s.mcs.map fun e => (e.2.writeWait.filter fun q => q.t == t).length).foldl (· + ·) 0

/-- Whether a tile's HBM read or write queue has a free entry (R338). -/
def readRoom (s : State) (t : Nat) : Bool := decide (readEntries s t < 48)
def writeRoom (s : State) (t : Nat) : Bool := decide (writeEntries s t < 32)

/-- A job of a flight replaced. -/
def setJob (s : State) (t fid : Nat) (j : DmaJob) : State :=
  s.modTile t fun x => { x with flights := x.flights.map fun f => if f.id = fid then { f with kind := .dma j } else f }

/-- Where a read of a job goes: HBM of the package, a tile of the package, another device; none while its queue is full (R112,
R338). -/
def askRead (s : State) (t fid : Nat) (j : DmaJob) (a len off : Nat) : Option State :=
  if j.desc.dev = s.ownDev ∧ a < 0x80_0000_0000 ∨ j.op ≠ 2 then
    if readRoom s t then some (s.post (.hbmRead { t := t, flight := fid, addr := a, len := len, blk := none, data := [] })) else none
  else if (s.tile t).reads.length ≥ 16 then none
  else
    let (tag, s) := newTag s t
    let s := s.modTile t fun x => { x with reads := x.reads ++ [{ tag := tag, len := len, off := off, flight := fid, addr := a }] }
    if j.desc.dev = s.ownDev then some (s.post (.readReq a len t tag))
    else
      let k := t % 64
      let h := { baseHdr s opREAD j.desc.dev k with addr := a, dlen := len, stile := t, notTile := false, tag := tag % 65536, last := true }
      let s := cxtEmit s j.desc.dev k roleFABRIC h none [] (.read t tag)
      some { s with cxReads := s.cxReads ++ [{ path := pathKey j.desc.dev k, kind := .tile t tag, len := len, got := [] }] }

/-- Asks for what a job still has to read and to write, as far as the queues have room. -/
def pumpJob (s : State) (t fid : Nat) (j : DmaJob) : Nat → State
  | 0 => setJob s t fid j
  | n + 1 =>
    match j.toRead, j.toWrite with
    | (a, len, off) :: rest, _ =>
      (match askRead s t fid j a len off with
       | some s => pumpJob s t fid { j with toRead := rest, busy := j.busy + 1 } n
       | none => setJob s t fid j)
    | [], w :: rest =>
      if writeRoom s t then pumpJob (s.post (.hbmWrite { w with t := t, flight := fid })) t fid { j with toWrite := rest, busy := j.busy + 1 } n
      else setJob s t fid j
    | [], [] => setJob s t fid j

/-- Lets DMA operations ask for more, in dispatch order; one that a full queue keeps waiting keeps those after it waiting (R112, R338). -/
def pumpJobs (s : State) (t : Nat) : List (Nat × DmaJob) → State
  | [] => s
  | (id, j) :: rest =>
    let s := pumpJob s t id j (j.toRead.length + j.toWrite.length + 1)
    if (s.tile t).flights.any fun f => f.id == id && f.asks then s else pumpJobs s t rest

/-- Lets every DMA operation of a tile ask for more. -/
def dmaPump (s : State) (t : Nat) : State :=
  pumpJobs s t ((s.tile t).flights.filterMap fun f => match f.kind with | .dma j => some (f.id, j) | _ => none)

/-! ### Stores -/

/-- The requests that store bytes at an HBM address in a requested form (R382, R390): a whole block under BPV may be compressed. DEDUCED (log 34). -/
def storeReqs (a : Nat) (form w : Nat) (bs : List Byte) : List HbmReq :=
  (pieces4k a bs.length).map fun (p, n) =>
    let data := (bs.drop (p - a)).take n
    if n < 4096 then { t := 0, flight := 0, addr := p, len := n, blk := none, data := data }
    else
      let (f, b) := if form = 1 ∧ w ≠ 0 then bpvStore w data else (formDENSE, data)
      { t := 0, flight := 0, addr := p, len := b.length, blk := some (f, b.length), data := b }

/-- Whole blocks stored in order from an HBM address. -/
def blockReqs (a : Nat) (bs : List (Nat × List Byte)) : List HbmReq :=
  bs.zipIdx.map fun ((f, b), i) => { t := 0, flight := 0, addr := a + 4096 * i, len := b.length, blk := some (f, b.length), data := b }

/-- A DMAS conversion (R383, R665): converted data, scale plane (empty for BF16), and the state with its counts. -/
def storeConv (s : State) (t c : Nat) (d : Desc) (base : Nat) (src : List Byte) : List Byte × List Byte × State :=
  let xs := unpackNums d.sfmt (elemsIn d.sfmt src.length) src
  let blocks := (List.range (cdiv xs.length 32)).map fun j => (xs.drop (32 * j)).take 32
  if isNarrow d.tfmt then
    let outs := blocks.zipIdx.map fun (b, j) => slotConvert s t c d.slot d.tfmt (base + j) b
    (packCodes d.tfmt (outs.map BlockOut.codes).flatten, outs.map fun o => .ofNat 8 o.scale, outs.foldl (fun s o => slotCount s t c d.slot o) s)
  else
    let codes := xs.zipIdx.map fun (x, i) =>
      if d.cls = 2 then
        let k := slotKey s t c d.slot (base + i / 32)
        (bf16.round (.stoch (roundKey k.seed k.block k.tensor k.step (i % 32))) x).1
      else bf16.near x
    let nans := (xs.filter fun x => !x.isFin).length
    (packCodes 1 codes, [], if d.cls = 2 ∧ nans > 0 then slotUpdate s t c d.slot none 0 nans else s)

/-- The values that a DMAL conversion loads (R665), from the loaded bytes, scale plane included. -/
def loadVals (d : Desc) (bs : List Byte) : List Num :=
  let n := elemsIn d.sfmt d.len
  let codes := unpackCodes d.sfmt n bs
  ((List.range (cdiv n 32)).map fun j =>
    decodeBlock d.sfmt (bs.getD (planeOff d.len d.form + j) 0).toNat ((codes.drop (32 * j)).take 32)).flatten

/-- A DMAL conversion (R665): the destination's bytes, rounded to nearest in every class. DESIGN CHOICE (log 82). -/
def loadConv (d : Desc) (bs : List Byte) : List Byte := packCodes d.tfmt ((loadVals d bs).map fun x => ((fmtOf d.tfmt).getD fp32).near x)

/-- A conversion's result lands (R201, R665): under a class G slot its NaN and infinite sources are counted. -/
def landConv (s : State) (t c : Nat) (d : Desc) (bs : List Byte) : State :=
  let s := ownWr s t (d.dst - spadAddr t 0) (loadConv d bs)
  let bad := ((loadVals d bs).filter fun x => !x.isFin).length
  if d.cls = 2 ∧ 0 < bad then slotUpdate s t c d.slot none 0 bad else s

/-! ### Gradient buckets (R441–R445) -/

/-- FP32 sums and differences of codes. -/
def f32add (a b : Nat) : Nat := fp32.near ((fp32.decode a).add (fp32.decode b))
def f32sub (a b : Nat) : Nat := fp32.near ((fp32.decode a).sub (fp32.decode b))

/-- One group of 1,024 entries in SIGN form (R441, R442): s, the sign bits, the new errors, and the elements counted. DEDUCED (log 34). -/
def signGroup (s : State) (t c slot index : Nat) (g : List Nat) : Nat × List Bool × List Nat × Nat :=
  let vals := g.map fp32.decode
  let bad := (vals.filter fun x => !x.isFin).length
  let k := slotKey s t c slot (index / 32)
  let sum := (vals.foldl (fun (a x : Num) => a.add x.abs) Num.zero).scale (-10)
  let sc := (fp32.round (.stoch (roundKey k.seed k.block k.tensor k.step 0)) sum).1
  if bad > 0 ∨ !(fp32.decode sc).isFin then
    (fp32.canonNaN, g.map fun _ => false, g.map fun x => f32sub x fp32.canonNaN, bad)
  else
    let neg := vals.map fun x => x.lt .zero
    (sc, neg, (g.zip neg).map fun (x, n) => f32sub x (if n then sc + 2 ^ 31 else sc), 0)

/-- The sign bytes of a group. -/
def signBytes (ns : List Bool) : List Byte :=
  (List.range (ns.length / 8)).map fun j => .ofNat 8 ((List.range 8).foldl (fun n i => n + b2n (ns.getD (8 * j + i) false) * 2 ^ i) 0)

/-- The entries that top-k keeps of a group (R445): every NaN and infinite one, and the 16 of largest magnitude, the lower index first in
a tie. -/
def topKeep (vals : List Num) : List Bool :=
  let beats := fun (j i : Nat) =>
    let a := (vals.getD j .zero).abs
    let b := (vals.getD i .zero).abs
    b.lt a || (a.eq b && decide (j < i))
  (List.range vals.length).map fun i =>
    !(vals.getD i .zero).isFin || decide (((List.range vals.length).filter fun j => (vals.getD j .zero).isFin && beats j i).length +
      (vals.filter fun x => !x.isFin).length < 16)

/-- What a bucket store writes (R441, R444, R445, R670): its blocks (132 B of SIGN or a BPV block for each group), the new errors, and the
state with its counts. DEDUCED (log 34). -/
def bucketOut (s : State) (t c : Nat) (d : Desc) (base : Nat) (src ein : List Byte) : List (List Byte) × List Byte × State :=
  let n := d.len / 4096
  (List.range n).foldl (fun (r : List (List Byte) × List Byte × State) i =>
    let g := (List.range 1024).map fun k => f32add (numAt src 4 (1024 * i + k)) (numAt ein 4 (1024 * i + k))
    if d.form = 3 then
      let (sc, neg, err, bad) := signGroup s t c d.slot (base + 1024 * i) g
      (r.1 ++ [toBytes sc 4 ++ signBytes neg], r.2.1 ++ packCodes 0 err, if bad = 0 then r.2.2 else slotUpdate r.2.2 t c d.slot none 0 bad)
    else
      let vals := g.map fp32.decode
      let keep := topKeep vals
      let bad := (vals.filter fun x => !x.isFin).length
      (r.1 ++ [bpvOf 32 g ((g.zip keep).map fun (x, k) => k && x != 0)],
       r.2.1 ++ packCodes 0 ((g.zip keep).map fun (x, k) => if k then 0 else x),
       if bad = 0 then r.2.2 else slotUpdate r.2.2 t c d.slot none 0 bad)) ([], [], s)

/-- A SIGN block of up to 31 groups (R444, R670): the scales of its groups, then their signs (R263). -/
def signBlock (gs : List (List Byte)) : List Byte := (gs.map fun g => g.take 4).flatten ++ (gs.map fun g => g.drop 4).flatten

/-- Blocks of up to 31 groups. -/
def signBlocks (gs : List (List Byte)) : List (List Byte) :=
  (List.range (cdiv gs.length 31)).map fun i => signBlock ((gs.drop (31 * i)).take 31)

/-- Pieces put together over zeros. -/
def assemble (n : Nat) (ps : List (Nat × List Byte)) : List Byte :=
  ps.foldl (fun bs (o, p) => bs.take o ++ p ++ bs.drop (o + p.length)) (List.replicate n 0)

/-- A bucket store that has its errors: it computes, writes what stays in the scratchpad, and has the rest to store. -/
def bucketGo (s : State) (t : Nat) (f : Flight) (j : DmaJob) : State :=
  let d := j.desc
  let ein := if kindAt s j.ein d.len = .hbm then assemble d.len j.buf else ownRd s t (j.ein - spadAddr t 0) d.len
  let (gs, err, s) := bucketOut s t f.ctx d j.base j.src ein
  let dHbm := kindAt s d.dst 1 == .hbm
  let s := if dHbm then s else ownWr s t (d.dst - spadAddr t 0) (if d.form = 3 then (signBlocks gs).flatten else (gs.map (fitBytes 208)).flatten)
  let eHbm := kindAt s j.eout d.len == .hbm
  let s := if eHbm then s else ownWr s t (j.eout - spadAddr t 0) err
  let ws := (if dHbm then (if d.form = 3 then blockReqs d.dst ((signBlocks gs).map fun b => (formSIGN, b))
      else blockReqs d.dst (gs.map fun b => (formBPV, fitBytes (max 208 b.length) b))) else []) ++
    (if eHbm then storeReqs j.eout 0 0 err else [])
  setJob s t f.id { j with toWrite := ws, ready := true, buf := [] }

/-! ### Dispatch of one operation -/

/-- A flight of a DMA operation. -/
def dmaFlight (c pc id : Nat) (d : Desc) (rs : List Range) (j : DmaJob) : Flight :=
  { id := id, eng := .dm, ctx := c, pc := pc, foot := { ranges := rs }, cnt := d.cnt, kind := .dma j }

/-- A DMA operation past its checks. `rs` are the ranges it keeps (none for an entry of DMAX). DESIGN CHOICE (log 33). -/
def dmaStart (s : State) (t c pc id : Nat) (a : DmaArgs) (rs : List Range) : State :=
  let d := a.d
  let j0 : DmaJob := { op := a.op, desc := d, base := a.base, ein := a.ein, eout := a.eout }
  let src := fun (n : Nat) => ownRd s t (d.src - spadAddr t 0) n
  let offs := fun (x : Nat) (n : Nat) => (pieces4k x n).map fun (p, k) => (p, k, p - x)
  let go := fun (s : State) (j : DmaJob) => dmaPump (addFlight s t (dmaFlight c pc id d (rs.filter fun r => r.write) j)) t
  if d.len = 0 then go s { j0 with op := 0, ready := true }
  else match a.op with
  | 0 =>
    let plane := planeOff d.len d.form
    go s { j0 with ready := true,
                   toRead := offs d.src d.len ++
                     (if d.conv then (offs (d.src + plane) (cdiv (elemsIn d.sfmt d.len) 32)).map fun (p, k, o) => (p, k, plane + o) else []) }
  | 1 =>
    if bucketStore 1 d then
      let j := { j0 with src := src d.len }
      if kindAt s a.ein d.len = .hbm then go s { j with toRead := offs a.ein d.len }
      else
        let f := dmaFlight c pc id d (rs.filter fun r => r.write) j
        dmaPump (bucketGo (addFlight s t f) t f j) t
    else if d.form = 2 then
      match rgStore (fun o n => ownRd s t (d.src - spadAddr t 0 + o) n) (Config.rgcsr d.w0.toNat d.w1.toNat d.w2.toNat d.w3.toNat) with
      | none => go s { j0 with ready := true, worst := stACCESS }
      | some bs => go s { j0 with ready := true, toWrite := blockReqs d.dst bs }
    else if d.conv then
      let (data, scales, s) := storeConv s t c d a.base (src d.len)
      go s { j0 with ready := true,
                     toWrite := storeReqs d.dst d.form (fmtWidth d.tfmt) data ++ storeReqs (d.dst + planeOff data.length d.form) 0 0 scales }
    else go s { j0 with ready := true, toWrite := storeReqs d.dst d.form (fmtWidth d.sfmt) (src d.len) }
  | 2 =>
    if d.dev ≠ s.ownDev ∧ !cxtReaches s d.dev then go s { j0 with ready := true, worst := stADDRESS }
    else go s { j0 with ready := true, toRead := offs d.src d.len }
  | 3 =>
    if a.jw then sendJwrites s t c pc d.cnt none d.dev d.dst (src d.len)
    else sendWrites s t c pc .dm d.cnt none d.dev d.dst d.epoch d.wq (src d.len)
  | _ =>
    let f := dmaFlight c pc id d (rs.filter fun r => !r.write) { j0 with ready := true }
    dmafForward (addFlight s t f) t

/-! ### The instructions -/

/-- Where a D-format instruction's descriptor stands. -/
def descAt (s : State) (t : Nat) (f : FmtD) : Option Nat :=
  match localWin s t (s.actx t) f.a.toNat (offD f) 32 with | .ok o => some o | .error _ => none

/-- The scalar registers that a DMA instruction reads beside its descriptor (R665, R670). -/
def dmaVals (op : Nat) (f : FmtD) (d : Desc) : List Nat :=
  if bucketStore op d then if f.reg.toNat ≤ 61 then [f.reg.toNat, f.reg.toNat + 1, f.reg.toNat + 2] else []
  else if d.conv ∧ op < 2 then [f.reg.toNat] else []

/-- The arguments of a standalone DMA instruction. -/
def dmaArgs (op : Nat) (f : FmtD) (d : Desc) (vals : List Word) : DmaArgs :=
  { op := op, jw := op == 3 && bitOf f.mod.toNat 0, d := d, base := wget (vals.getD 0 0) 47 0, ein := wget (vals.getD 1 0) 39 0,
    eout := wget (vals.getD 2 0) 39 0 }

/-- REG is 0 where the operation reads none, and leaves room for the error slots (R665, R670). -/
def dmaRegOk (op : Nat) (f : FmtD) (d : Desc) : Bool :=
  if bucketStore op d then decide (f.reg.toNat ≤ 61) else (d.conv && decide (op < 2)) || f.reg == 0

/-- A DMA instruction at dispatch. -/
def effDma (op t : Nat) (f : FmtD) (q : Queued) (s : State) : State :=
  chk s t q.pc (localWin s t q.ctx f.a.toNat (offD f) 32) fun _ =>
    let d := q.desc.getD ⟨0, 0, 0, 0⟩
    if !dmaRegOk op f d then progFault s t fILLEGAL q.pc 0
    else
      let a := dmaArgs op f d q.vals
      chk s t q.pc (dmaPlan s t q.ctx a) fun rs => dmaStart s t q.ctx q.pc q.id a rs

/-- What a DMA instruction needs at issue. DEDUCED (log 80). -/
def dmaReq (s : State) (op t : Nat) (f : FmtD) (i : Instr) : IssueReq :=
  let c := s.actx t
  let off := descAt s t f
  let d := match off with | some o => readDesc s t o | none => ⟨0, 0, 0, 0⟩
  let vals := dmaVals op f d
  { instr := i, eng := .dm, wait := f.wait,
    legal := f.pred == 0 && f.idx == 0 && (if op = 3 then decide (f.mod.toNat < 2) else f.mod == 0),
    foot := { reads := [idA f.a.toNat],
              ranges := match dmaPlan s t c (dmaArgs op f d (vals.map fun n => rs s t c n)) with | .ok l => l | .error _ => [] },
    need := [idA f.a.toNat], vals := vals, desc := off, locates := true }

/-- DMAL. -/
def execDmal (t : Nat) (f : FmtD) (s : State) : Host.Outcome State Fault Refusal := .next (issue s t (dmaReq s 0 t f (.dmal t f)) (effDma 0 t f))

/-- DMAS. -/
def execDmas (t : Nat) (f : FmtD) (s : State) : Host.Outcome State Fault Refusal := .next (issue s t (dmaReq s 1 t f (.dmas t f)) (effDma 1 t f))

/-- DMAR. -/
def execDmar (t : Nat) (f : FmtD) (s : State) : Host.Outcome State Fault Refusal := .next (issue s t (dmaReq s 2 t f (.dmar t f)) (effDma 2 t f))

/-- DMAW. -/
def execDmaw (t : Nat) (f : FmtD) (s : State) : Host.Outcome State Fault Refusal := .next (issue s t (dmaReq s 3 t f (.dmaw t f)) (effDma 3 t f))

/-- DMAF. -/
def execDmaf (t : Nat) (f : FmtD) (s : State) : Host.Outcome State Fault Refusal := .next (issue s t (dmaReq s 5 t f (.dmaf t f)) (effDma 5 t f))

/-! ### DMAM (R432, R668) -/

/-- The list of a DMAM: 16 B entries as two words. -/
def dmamTargets (s : State) (t off n : Nat) : List (Word × Word) :=
  (List.range n).map fun i =>
    let bs := ownRd s t (off + 16 * i) 16
    (.ofNat 64 (numAt bs 8 0), .ofNat 64 (numAt bs 8 1))

/-- The ranges of a DMAM: source and list. -/
def dmamPlan (s : State) (t c n : Nat) (d : Desc) : Chk (Nat × Nat) := do
  (if d.legal then .ok () else .error (fILLEGAL, 0))
  (if d.conv then .error (fGANG, 0) else .ok ())
  let src ← localOffset s t c d.src d.len
  let lst ← localOffset s t c d.dst (16 * n)
  return (src, lst)

/-- A target's fault, if it has one: a reserved kind or bit, the checks of R640 for its channel, the kind of its address (R752). -/
def dmamFault (s : State) (t c : Nat) (d : Desc) (e : Word × Word) : Option (Nat × Nat) :=
  let dev := wget e.1 63 48
  let a := wget e.1 39 0
  let kind := wget e.2 27 26
  if kind = 3 ∨ wget e.1 47 40 ≠ 0 ∨ wget e.2 63 28 ≠ 0 then some (fILLEGAL, 0)
  else if kind = 1 then (match sendCheck s t c (wget e.2 25 20) d with | .error x => some x | .ok _ => none)
  else if d.len = 0 ∨ (kind = 2 ∧ dev = s.ownDev) then none
  else
    let k := if dev = s.ownDev then kindAt s a d.len else kindFar a d.len
    if k = (if kind = 0 then .spad else .hbm) then none else some (fADDRESS, a)

/-- One target of a DMAM (R668) in the group `g`: a remote write, a send, which waits for credit if it must, or a write into the partner's twin region. DEDUCED (log 35). -/
def dmamServe (t c pc g : Nat) (d : Desc) (data : List Byte) (s : State) (e : Word × Word) : State :=
  let dev := wget e.1 63 48
  match wget e.2 27 26 with
  | 0 => sendWrites s t c pc .dm d.cnt (some g) dev (wget e.1 39 0) (wget e.2 15 0) (wget e.2 19 16) data
  | 1 =>
    let ch := wget e.2 25 20
    let pay := if carriesPayload s t ch then data else []
    (match trySend s t c pc .dm (some g) stOK ch d pay with
     | some s => s
     | none =>
       let x := s.tile t
       (addFlight s t { id := x.nextId, eng := .dm, ctx := c, pc := pc, foot := {}, cnt := d.cnt,
                        kind := .sendWait ch d pay (some g) stOK }).modTile t fun x => { x with nextId := x.nextId + 1 })
  | _ => sendJwrites s t c pc d.cnt (some g) dev (wget e.1 39 0) data

/-- The end of the serving of a DMAM's targets: the place that has held its group open goes, with the worst status that it has kept, and the group completes with its last
answer (R432). -/
def dmamEnd (s : State) (t c pc id : Nat) (d : Desc) : State :=
  let worst := ((s.tile t).flights.find? fun f => f.id == id).elim stOK fun f => match f.kind with | .dma j => j.worst | _ => stOK
  let s := dropFlight s t id
  let o : Outst := { tag := (s.tile t).nextTag, ctx := c, pc := pc, eng := .dm, left := 0, worst := worst, cnt := d.cnt,
                     chan := none, units := 0, grp := some (id + 1) }
  endOutst (addOutst (newTag s t).2 t o) t o

/-- DMAM at dispatch: every target is checked, then each gets its copy; the operation completes after the last (R432). DEDUCED (log 35). -/
def effDmam (t : Nat) (f : FmtD) (q : Queued) (s : State) : State :=
  let n := f.idx.toNat % 8 + 1
  chk s t q.pc (localWin s t q.ctx f.a.toNat (offD f) 32) fun _ =>
    let d := q.desc.getD ⟨0, 0, 0, 0⟩
    chk s t q.pc (dmamPlan s t q.ctx n d) fun (src, lst) =>
      let es := dmamTargets s t lst n
      match es.findSome? (dmamFault s t q.ctx d) with
      | some e => progFault s t e.1 q.pc e.2
      | none =>
        let data := ownRd s t src d.len
        -- a place of the group that is taken off last keeps it open while its targets are served
        let hold : Flight := { id := q.id, eng := .dm, ctx := q.ctx, pc := q.pc, foot := {}, cnt := d.cnt, kind := .dma { op := 6, desc := d } }
        dmamEnd (es.foldl (dmamServe t q.ctx q.pc (q.id + 1) d data) (addFlight s t hold)) t q.ctx q.pc q.id d

/-- DMAM. -/
def execDmam (t : Nat) (f : FmtD) (s : State) : Host.Outcome State Fault Refusal :=
  let n := f.idx.toNat % 8 + 1
  let off := descAt s t f
  .next (issue s t
    { instr := .dmam t f, eng := .dm, wait := f.wait, legal := f.pred == 0 && decide (f.idx.toNat < 8) && f.reg == 0 && f.mod == 0,
      foot := { reads := [idA f.a.toNat],
                ranges := match off with
                  | some o =>
                    let d := readDesc s t o
                    (match dmamPlan s t (s.actx t) n d with
                     | .ok (a, b) => [⟨a, d.len, false⟩, ⟨b, 16 * n, false⟩]
                     | .error _ => [])
                  | none => [] },
      need := [idA f.a.toNat], vals := [], desc := off, locates := true } (effDmam t f))

/-! ### DMAX (R669) -/

/-- The list of a DMAX. -/
def dmaxWin (s : State) (t c : Nat) (f : FmtD) (v : Word) : Chk Nat := localWin s t c f.a.toNat (offD f) (32 * wget v 15 0)

/-- DMAX at dispatch: it holds the DM engine while DMAX_ENTRY runs its entries. DEDUCED (log 35). -/
def effDmax (t : Nat) (f : FmtD) (q : Queued) (s : State) : State :=
  let v := q.vals.getD 0 0
  if wget v 15 0 = 0 then s
  else chk s t q.pc (dmaxWin s t q.ctx f v) fun o =>
    addFlight s t { id := q.id, eng := .dm, ctx := q.ctx, pc := q.pc, foot := { ranges := [⟨o, 32 * wget v 15 0, false⟩] }, cnt := none,
                    kind := .dmax (wget v 15 0) o (wget v 63 32) }

/-- DMAX. -/
def execDmax (t : Nat) (f : FmtD) (s : State) : Host.Outcome State Fault Refusal :=
  let v := rs s t (s.actx t) f.reg.toNat
  .next (issue s t
    { instr := .dmax t f, eng := .dm, wait := f.wait, legal := f.pred == 0 && f.idx == 0 && f.mod == 0,
      foot := { reads := [idA f.a.toNat], ranges := rangeOf (dmaxWin s t (s.actx t) f v) (32 * wget v 15 0) false },
      need := [idA f.a.toNat], vals := [f.reg.toNat], desc := none } (effDmax t f))

/-- An entry's extension (R669): the index, EIN and EOUT, or none where another byte is set. -/
def extOf (bucket : Bool) (d : Desc) : Option (Nat × Nat × Nat) :=
  let bs := d.bytes
  let z := fun (lo n : Nat) => ofBytes ((bs.drop lo).take n) == 0
  if z 6 2 && z 13 3 && z 21 11 && (bucket || (z 8 5 && z 16 5)) then some (numAt bs 6 0, ofBytes ((bs.drop 8).take 5), ofBytes ((bs.drop 16).take 5))
  else none

/-- One entry of a DMAX run: `none` while it must wait (its wait, the limits of R661, a send's credit). DEDUCED (log 35). -/
def dmaxRun (s : State) (t : Nat) (f : Flight) (rest next v0 : Nat) : Option State :=
  let x := s.tile t
  let d := readDesc s t next
  let bucket := bucketStore d.kind d
  let ext := (decide (d.kind < 2) && d.conv) || bucket
  let k := if ext then 2 else 1
  let fail := fun (s : State) (b a : Nat) => progFault (dropFlight s t f.id) t b f.pc a
  let s' := if rest ≤ k then dropFlight s t f.id
    else s.modTile t fun x => { x with flights := x.flights.map fun g =>
      if g.id = f.id then { g with kind := .dmax (rest - k) (next + 32 * k) v0 } else g }
  if !d.legal ∨ d.kind > 5 ∨ (ext ∧ rest < 2) then some (fail s fILLEGAL 0)
  else if d.wen && !satisfied (cntVal s t f.ctx d.wcnt) ((v0 + d.winc) % 2 ^ 32) then none
  else if !dmRoom x || x.flights.any Flight.asks then none
  else if d.kind = 4 then
    match sendCheck s t f.ctx d.chan d with
    | .error e => some (fail s e.1 e.2)
    | .ok src =>
      trySend s' t f.ctx f.pc .dm none stOK d.chan d (if carriesPayload s t d.chan then ownRd s t src d.len else [])
  else
    match (if ext then extOf bucket (readDesc s t (next + 32)) else some (0, 0, 0)) with
    | none => some (fail s fILLEGAL 0)
    | some (base, ein, eout) =>
      let a : DmaArgs := { op := d.kind, jw := false, d := d, base := base, ein := ein, eout := eout }
      match dmaPlan s t f.ctx a with
      | .error e => some (fail s e.1 e.2)
      | .ok _ =>
        some (dmaStart (s'.modTile t fun x => { x with nextId := x.nextId + 1 }) t f.ctx f.pc x.nextId a [])

/-- DMAX_ENTRY. -/
def execDmaxEntry (t : Nat) (s : State) : Host.Outcome State Fault Refusal :=
  .next (if s.tstate t = fenced then s else match (s.tile t).flights.findSome? fun f => match f.kind with
      | .dmax rest next v0 => dmaxRun s t f rest next v0
      | _ => none with
    | some s' => settle s' t
    | none => s)

/-! ### What comes back -/

/-- Data for a read of a job land (R386, R661): at once, or into the buffer of a conversion or a bucket store. -/
def landRead (s : State) (t fid off status : Nat) (data : List Byte) : State :=
  match (s.tile t).flights.find? fun f => f.id == fid with
  | some f => (match f.kind with
    | .dma j =>
      let j := { j with busy := j.busy - 1, worst := max j.worst status }
      let hold := (j.op == 0 && j.desc.conv) || j.op == 1
      let j := if hold then { j with buf := j.buf ++ [(off, data)] } else j
      let s := if hold ∨ status ≠ stOK then s else ownWr s t (j.desc.dst - spadAddr t 0 + off) data
      let s := setJob s t fid j
      let s := if j.op = 1 ∧ !j.ready ∧ j.busy = 0 ∧ j.toRead.isEmpty then bucketGo s t f j else s
      dmaPump s t
    | _ => s)
  | none => s

/-- REMOTE_READ_RESPONSE (R105, R111): the data land; an access to a group that is not ON is the reading tile's ACCESS fault. -/
def readBack (s : State) (t tag status : Nat) (data : List Byte) : State :=
  match (s.tile t).reads.find? fun r => r.tag == tag with
  | none => s
  | some r =>
    let pc := ((s.tile t).flights.find? fun f => f.id == r.flight).elim 0 Flight.pc
    let s := s.modTile t fun x => { x with reads := x.reads.filter fun r => r.tag ≠ tag }
    let s := sePump (dmaPump (landGather (landRead s t r.flight r.off status data) t r.flight r.off status data) t) t
    settle (if status = stACCESS then progFault s t fACCESS pc r.addr else s) t

/-- REMOTE_READ_RESPONSE. DEDUCED (log 36). -/
def execRemoteReadResponse (t tag status : Nat) (data : List Byte) (s : State) : Host.Outcome State Fault Refusal :=
  let s := s.unwire (.readData t tag status data)
  .next (if s.tstate t = fenced then s else readBack s t tag status data)

/-- Whether a job has nothing left to do but to complete. -/
def DmaJob.done (j : DmaJob) : Bool := j.ready && j.busy == 0 && j.toRead.isEmpty && j.toWrite.isEmpty && decide (j.op < 3)

/-- DMA_COMPLETE (R339, R661): a conversion's result lands, and the counter is signalled with the worst status. -/
def execDmaComplete (t id : Nat) (s : State) : Host.Outcome State Fault Refusal :=
  .next (if s.tstate t = fenced then s else match (s.tile t).flights.find? fun f => f.id == id with
    | some f => (match f.kind with
      | .dma j =>
        if j.done then
          let d := j.desc
          let s := if j.op = 0 ∧ d.conv ∧ d.len ≠ 0 ∧ j.worst = stOK then
              landConv s t f.ctx d (assemble (planeOff d.len d.form + cdiv (elemsIn d.sfmt d.len) 32) j.buf)
            else s
          settle (dmaPump (complete (dropFlight s t id) t f.ctx d.cnt j.worst .dm f.pc) t) t
        else s
      | _ => s)
    | none => s)

end Sys2Proof.Machine
end

