-- ==== Sys2Proof/Machine/Basin.lean ====
section
/-!
DEFINITION. Basins (R262–R268, R643): BOPEN, contributions, the zeroing and the completion of a bucket. A contribution is added
when it is accepted.
-/

namespace Sys2Proof.Machine

/-- Scratchpad offset of bucket `b`'s table entry (R262). -/
def bucketAt (s : State) (t q b : Nat) : Nat := s.tf t (R.QCFG_BASE q) + 32 * b

/-- The bytes [lo, lo + n) of a bucket's entry as a number. -/
def bktGet (s : State) (t q b lo n : Nat) : Nat := ofBytes (ownRd s t (bucketAt s t q b + lo) n)

/-- The state with the bytes [lo, lo + n) of a bucket's entry set. -/
def bktPut (s : State) (t q b lo n v : Nat) : State := ownWr s t (bucketAt s t q b + lo) (toBytes v n)

/-- Whether a queue is an exact basin (R245). -/
def exactBasin (s : State) (t q : Nat) : Bool := s.tf t (R.QCFG_MODE q) == 2

/-- Whether a queue is an enabled basin. -/
def basinOn (s : State) (t q : Nat) : Bool :=
  s.tf t (R.QCFG_EN q) == 1 && (s.tf t (R.QCFG_MODE q) == 2 || s.tf t (R.QCFG_MODE q) == 3)

/-- Bytes of an accumulator (R262). -/
def accBytes (s : State) (t q : Nat) : Nat := if exactBasin s t q then 8 else 4

/-- Base, Entries and Flags of a bucket. -/
def bktBase (s : State) (t q b : Nat) : Nat := bktGet s t q b 0 4 % 2 ^ 21
def bktEntries (s : State) (t q b : Nat) : Nat := bktGet s t q b 4 4
def bktFlags (s : State) (t q b : Nat) : Nat := bktGet s t q b 11 1
def bktExp (s : State) (t q b : Nat) : Int := sextInt (bktGet s t q b 8 2) 16

/-- Whether a bucket is being zeroed. -/
def zeroing (x : Tile) (q b : Nat) : Bool := x.basins.any fun k => k.q == q && k.b == b && k.zeroing

/-- The tile's record of a bucket replaced. -/
def putBucket (x : Tile) (k : Bucket) : Tile :=
  { x with basins := (x.basins.filter fun j => !(j.q == k.q && j.b == k.b)) ++ [k] }

/-- BOPEN at dispatch (R264, R643): an open bucket stays as it is; otherwise Landed, NaN, Clamp and every flag clear and the zeroing
begins. -/
def effBopen (t : Nat) (f : FmtD) (q : Queued) (s : State) : State :=
  let n := f.idx.toNat
  let b := f.mod.toNat
  if !(basinOn s t n && s.tf t (R.QCFG_OWNER n) == q.ctx) then progFault s t fACCESS q.pc 0
  else if bitOf (bktFlags s t n b) 0 then s
  else
    let s := bktPut (bktPut (bktPut (bktPut s t n b 14 2 0) t n b 20 4 0) t n b 24 4 0) t n b 11 1 0
    s.modTile t fun x => putBucket x { q := n, b := b, accepted := 0, zeroing := true, due := false }

/-- BOPEN. -/
def execBopen (t : Nat) (f : FmtD) (s : State) : Host.Outcome State Fault Refusal :=
  .next (issue s t
    { instr := .bopen t f, eng := .qp, wait := f.wait,
      legal := f.pred == 0 && decide (f.idx.toNat < 16) && f.a == 0 && f.off == 0 && f.reg == 0 && decide (f.mod.toNat < 16),
      foot := { ranges := [⟨bucketAt s t f.idx.toNat f.mod.toNat, 32, false⟩] }, need := [], vals := [], desc := none } (effBopen t f))

/-- BASIN_ZERO_COMPLETE (R264, R266): the accumulators are zero; OPEN is set, and NONREPRO with it in FP32 mode. -/
def execBasinZeroComplete (t q b : Nat) (s : State) : Host.Outcome State Fault Refusal :=
  .next (if s.tstate t = fenced ∨ !zeroing (s.tile t) q b then s
    else
      let s := ownWr s t (bktBase s t q b) (List.replicate (accBytes s t q * bktEntries s t q b) 0)
      let s := bktPut s t q b 11 1 (if exactBasin s t q then 1 else 5)
      s.modTile t fun x => putBucket x { q := q, b := b, accepted := 0, zeroing := false, due := false })

/-- The values of a contribution (R263): none where its length does not suit its format. -/
def contribVals (fmt : Nat) (bs : List Byte) : Option (List Num) :=
  match fmt with
  | 0 => if bs.length % 4 = 0 then some (unpackNums 0 (bs.length / 4) bs) else none
  | 1 => if bs.length % 2 = 0 then some (unpackNums 1 (bs.length / 2) bs) else none
  | 8 =>
    let m := bs.length / 132
    if bs.length % 132 ≠ 0 ∨ m = 0 ∨ m > 31 then none
    else some ((List.range (1024 * m)).map fun i =>
      let mag := (fp32.decode (numAt bs 4 (i / 1024))).abs
      if bitOf (bs.getD (4 * m + i / 8) 0).toNat (i % 8) then mag.neg else mag)
  | _ => none

/-- The Format of a bucket (R262) as a format code (R658). -/
def bktFmt (s : State) (t q b : Nat) : Nat :=
  match bktGet s t q b 10 1 with
  | 0 => 0
  | 1 => 1
  | 2 => 8
  | _ => 15

/-- One element added in exact mode (R265). -/
def addExact (s : State) (t q b i : Nat) (x : Num) : State :=
  if !x.isFin then bktPut s t q b 20 4 (bktGet s t q b 20 4 + 1)
  else
    let k := (x.scale (-(bktExp s t q b))).toIntNear
    let top : Int := 2 ^ 47 - 1
    let big := decide (k > top) || decide (k < -top)
    let s := if big then
        bktPut (bktPut s t q b 24 4 (bktGet s t q b 24 4 + 1)) t q b 11 1 ((bktFlags s t q b).lor 8)
      else s
    let k := if k > top then top else if k < -top then -top else k
    let a := bktBase s t q b + 8 * i
    ownWr s t a (toBytes (wrap (sextInt (ofBytes (ownRd s t a 8)) 64 + k) 64) 8)

/-- One element added in FP32 mode (R266). -/
def addFp32 (s : State) (t q b i : Nat) (x : Num) : State :=
  let s := if x.isFin then s else bktPut s t q b 20 4 (bktGet s t q b 20 4 + 1)
  let a := bktBase s t q b + 4 * i
  ownWr s t a (toBytes (fp32.near ((fp32.decode (ofBytes (ownRd s t a 4))).add x)) 4)

/-- The delivery of a contribution at a basin (R259, R263–R267): `none` while it must wait for the zeroing or a signal of the QP is stalled (R234), otherwise its
status. -/
def deliverContrib (s : State) (t : Nat) (m : Msg) : Option (Nat × State) :=
  let q := m.queue
  let b := m.desc.wq
  if s.tstate t = fenced then some (stTARGET_FENCED, s)
  else if m.epoch ≠ s.tf t (R.QEPOCH_EPOCH q) then some (stCHANNEL_CLOSED, countDropped s t m)
  else if s.tf t (R.QEPOCH_CLOSED q) = 1 ∨ !basinOn s t q then some (stCHANNEL_CLOSED, s)
  else if zeroing (s.tile t) q b || qpStalled (s.tile t) then none
  else if !bitOf (bktFlags s t q b) 0 ∨ bktGet s t q b 14 2 ≥ bktGet s t q b 12 2 then some (stBASIN_CLOSED, s)
  else match contribVals m.desc.tfmt m.payload with
    | none => some (stBASIN_RANGE, s)
    | some xs =>
      let first := m.desc.dst % 2 ^ 16
      if m.desc.tfmt ≠ bktFmt s t q b ∨ first + xs.length > bktEntries s t q b then some (stBASIN_RANGE, s)
      else
        let s := xs.zipIdx.foldl (fun s (x, i) =>
          if exactBasin s t q then addExact s t q b (first + i) x else addFp32 s t q b (first + i) x) s
        let n := bktGet s t q b 14 2 + 1
        let s := bktPut s t q b 14 2 n
        some (stOK, s.modTile t fun x =>
          putBucket x { q := q, b := b, accepted := n, zeroing := false, due := decide (n = bktGet s t q b 12 2) })

/-- BASIN_CONTRIBUTION. -/
def execBasinContribution (t : Nat) (m : Msg) (s : State) : Host.Outcome State Fault Refusal :=
  .next (match deliverContrib s t m with
    | none => s
    | some (st, s') => answerTo (s'.unwire (.contrib t m)) m.sender m.tag st)

/-- BASIN_BUCKET_COMPLETE (R267): the sums become FP32 in place, in ascending order; OPEN clears, DONE is set, the counter is signalled, as
by no instruction (`CNTLAST.PC` 0). DESIGN CHOICE (log 85). -/
def execBasinBucketComplete (t q b : Nat) (s : State) : Host.Outcome State Fault Refusal :=
  .next (if s.tstate t = fenced ∨ !((s.tile t).basins.any fun k => k.q == q && k.b == b && k.due) then s
    else
      let base := bktBase s t q b
      let e := bktExp s t q b
      let s := if exactBasin s t q then
          (List.range (bktEntries s t q b)).foldl (fun s i =>
            let a := sextInt (ofBytes (ownRd s t (base + 8 * i) 8)) 64
            ownWr s t (base + 4 * i) (toBytes (fp32.near ((Num.ofInt a).scale e)) 4)) s
        else s
      let s := bktPut s t q b 11 1 (bktFlags s t q b / 4 * 4 + 2)
      let s := s.modTile t fun x => { x with basins := x.basins.filter fun k => !(k.q == q && k.b == b) }
      let c := bktGet s t q b 16 1
      settle (if bitOf c 7 then signal s t (s.tf t (R.QCFG_OWNER q)) (c % 64) stOK .qp 0 else s) t)

end Sys2Proof.Machine
end

