-- ==== Sys2Proof/Machine/Flags.lean ====
section
/-!
DEFINITION. The scalar operations and the conditions of the tile's instructions: R625, R626, R629, R630. The part keeps no flags: a
comparison writes a predicate (R629), a branch tests a register (R630).
-/

namespace Sys2Proof.Machine

/-- The result of SALU and SALUI (R625) for a FUNC code below 16. -/
def saluOp (func : Nat) (x y : Word) : Word :=
  match func with
  | 0x00 => x + y
  | 0x01 => x - y
  | 0x02 => x &&& y
  | 0x03 => x ||| y
  | 0x04 => x ^^^ y
  | 0x05 => x <<< (y.toNat % 64)
  | 0x06 => x >>> (y.toNat % 64)
  | 0x07 => x.sshiftRight (y.toNat % 64)
  | 0x08 => if x.slt y then x else y
  | 0x09 => if x.slt y then y else x
  | 0x0A => if x.ult y then x else y
  | 0x0B => if x.ult y then y else x
  | 0x0C => if x.slt y then 1 else 0
  | 0x0D => if x.ult y then 1 else 0
  | 0x0E => y
  | _ => .ofNat 64 (y.toNat % 2 ^ 32 * 2 ^ 32 + x.toNat % 2 ^ 32)

/-- The result of SMUL (R626) for a FUNC code below 8; `z` is s[RC]. -/
def smulOp (func : Nat) (x y z : Word) : Word :=
  match func with
  | 0 => x * y
  | 1 => .ofInt 64 ((x.toInt * y.toInt) / 2 ^ 64)
  | 2 => .ofNat 64 (x.toNat * y.toNat / 2 ^ 64)
  | 3 => if y = 0 then .allOnes 64 else if x = .intMin 64 ∧ y = .allOnes 64 then x else .ofInt 64 (x.toInt.tdiv y.toInt)
  | 4 => if y = 0 then .allOnes 64 else .ofNat 64 (x.toNat / y.toNat)
  | 5 => if y = 0 then x else if x = .intMin 64 ∧ y = .allOnes 64 then 0 else .ofInt 64 (x.toInt - y.toInt * x.toInt.tdiv y.toInt)
  | 6 => if y = 0 then x else .ofNat 64 (x.toNat % y.toNat)
  | _ => x * y + z

/-- The condition of SCMP (R629) for a FUNC code below 6. -/
def scmpOp (func : Nat) (x y : Word) : Bool :=
  match func with
  | 0 => x == y
  | 1 => x != y
  | 2 => x.slt y
  | 3 => !x.slt y
  | 4 => x.ult y
  | _ => !x.ult y

/-- The condition of BR (R630) on s[RA], signed, for a code below 7. -/
def brCond (func : Nat) (x : Word) : Bool :=
  match func with
  | 0 => true
  | 1 => x == 0
  | 2 => x != 0
  | 3 => x.slt 0
  | 4 => !x.slt 0
  | 5 => !x.slt 0 && x != 0
  | _ => x.slt 0 || x == 0

end Sys2Proof.Machine
end

