-- ==== Sys2Proof/Machine/Control.lean ====
section
/-!
DEFINITION. The instructions that the sequencer executes itself: NOP, branches, LOOP, counter and barrier waits, CTX, FENCE, TRAP, HALT
(R630–R634, R638, R639, R645–R650), and the barrier commands of a tile (R235–R243).
-/

namespace Sys2Proof.Machine

/-- A C-format word with every field but those an instruction uses at 0. -/
def cOnly (f : FmtC) (g : FmtC) : Bool := decide (f = g)

/-- The C-format word of all zeros. -/
def cZero : FmtC :=
  { pred := 0, cnt := 0, grp := 0, reg := 0, z := 0, sub := 0, clr := false, l := false, k := false, b := false, w := false, v := false,
    eng := 0, imm := 0 }

/-- NOP (R650). -/
def execNop (t : Nat) (f : FmtC) (s : State) : Host.Outcome State Fault Refusal :=
  .next (atIssue s t .sq (cOnly f cZero) fun _ _ => settle (advance s t) t)

/-! ### Branches and loops -/

/-- Whether a sequencer instruction must wait for registers (R53): those it reads or writes have a write pending, or those it writes are still to be
read by an instruction before it. -/
def branchWaits (x : Tile) (c : Nat) (reads writes : List Nat) : Bool := pendingWrite x c (reads ++ writes) || pendingRead x c writes

/-- A taken branch (R630, R632): the link, the target, the loops it leaves, and a fetch buffer that no longer fits (R48). A target at
or beyond the area's end is ILLEGAL. -/
def takeBranch (s : State) (t c pc target : Nat) (link : Option Nat) : State :=
  let x := (s.tile t).ctx c
  if target ≥ areaLen s t c then progFault s t fILLEGAL pc 0
  else
    let s := match link with
      | some rd => setS s t c rd (.ofNat 64 (x.idx + 1))
      | none => s
    (s.modTile t fun y =>
      { (y.modCtx c fun z => { z with last := z.idx, idx := target, loops := branchLoops target z.loops }) with
        fbuf := if y.fbuf.any (fun e => e.1 == target) then y.fbuf else [] }).setTf t R.TSTAT_BOUNDARY 0

/-- BR (R630). -/
def execBr (t : Nat) (f : FmtSI) (s : State) : Host.Outcome State Fault Refusal :=
  .next (atIssue s t .sq (decide (bits f.func.toNat 2 0 < 7) && bits f.func.toNat 6 4 == 0 && bits f.imm.toNat 31 16 == 0) fun c pc =>
    let x := (s.tile t).ctx c
    let rd := if bitOf f.func.toNat 3 then [idS f.rd.toNat] else []
    if branchWaits (s.tile t) c ([idS f.ra.toNat] ++ idP f.pred.toNat) rd then s
    else if endsLoop x.idx x.loops then settle (progFault s t fILLEGAL pc 0) t
    else if lane0 s t c f.pred && brCond (bits f.func.toNat 2 0) (rs s t c f.ra.toNat) then
      settle (takeBranch s t c pc (bits f.imm.toNat 15 0) (if bitOf f.func.toNat 3 then some f.rd.toNat else none)) t
    else settle (advance s t) t)

/-- BRR (R630): the target index is s[RA]. -/
def execBrr (t : Nat) (f : FmtS3) (s : State) : Host.Outcome State Fault Refusal :=
  .next (atIssue s t .sq ((f.func == 0 || f.func == 8) && f.rb == 0 && f.rc == 0 && f.z == 0 && f.wait == 0) fun c pc =>
    let x := (s.tile t).ctx c
    let rd := if f.func = 8 then [idS f.rd.toNat] else []
    if branchWaits (s.tile t) c ([idS f.ra.toNat] ++ idP f.pred.toNat) rd then s
    else if endsLoop x.idx x.loops then settle (progFault s t fILLEGAL pc 0) t
    else if lane0 s t c f.pred then
      settle (takeBranch s t c pc (rs s t c f.ra.toNat).toNat (if f.func = 8 then some f.rd.toNat else none)) t
    else settle (advance s t) t)

/-- LOOP (R631, R632): it pushes its body, or skips it when the count is 0. -/
def execLoop (t : Nat) (f : FmtSI) (s : State) : Host.Outcome State Fault Refusal :=
  .next (atIssue s t .sq (f.pred == 0 && f.rd == 0 && f.func == 0 && bits f.imm.toNat 31 16 == 0) fun c pc =>
    let x := (s.tile t).ctx c
    let e := bits f.imm.toNat 15 0
    let n := (rs s t c f.ra.toNat).toNat % 2 ^ 32
    if pendingWrite (s.tile t) c [idS f.ra.toNat] then s
    else if e ≤ x.idx ∨ endsLoop x.idx x.loops then settle (progFault s t fILLEGAL pc 0) t
    else if n = 0 then
      let r := nextIdx e x.loops
      settle ((s.modCtx t c fun z => { z with last := z.idx, idx := r.1, loops := r.2 }).setTf t R.TSTAT_BOUNDARY 0) t
    else if x.loops.length ≥ 4 then settle (progFault s t fILLEGAL pc 0) t
    else
      settle ((s.modCtx t c fun z =>
        { z with last := z.idx, idx := z.idx + 1, loops := ⟨z.idx + 1, e, n⟩ :: z.loops }).setTf t R.TSTAT_BOUNDARY 0) t)

/-! ### Waits -/

/-- CWAIT (R634): the sequencer is held until the counter reaches the value. -/
def execCwait (t : Nat) (f : FmtC) (s : State) : Host.Outcome State Fault Refusal :=
  .next (atIssue s t .sq (cOnly f { cZero with cnt := f.cnt, reg := f.reg, l := f.l, v := f.v, imm := f.imm } && (f.v || f.reg == 0))
    fun c _ =>
    if pendingWrite (s.tile t) c (if f.v then [idS f.reg.toNat] else []) then s
    else
      let v := ((if f.v then (rs s t c f.reg.toNat).toNat else 0) + f.imm.toNat) % 2 ^ 32
      let s := advance s t
      settle (s.modTile t fun x => { x with held := some (.cwait f.cnt.toNat v f.l), longWait := f.l }) t)

/-- Sends the arrival of a held BARR (R240, R638): the gather buffer has drained; `ARRGEN` takes the generation; with W the wait for it
follows. -/
def sendArrival (s : State) (t g gen : Nat) (w b k long : Bool) : State :=
  let c := s.actx t
  let s := (drainAll s t).setTf t (R.TBAR_ARRGEN c g) gen
  let s := s.send (.arrive (t / 256) g gen)
  s.modTile t fun x => { x with held := if w then some (.bwait g gen b k long) else none }

/-- BARR (R638). -/
def execBarr (t : Nat) (f : FmtC) (s : State) : Host.Outcome State Fault Refusal :=
  .next (atIssue s t .sq (cOnly f { cZero with grp := f.grp, l := f.l, k := f.k, b := f.b, w := f.w } && decide (f.grp.toNat < 48) &&
      (f.w || (!f.b && !f.k && !f.l))) fun c pc =>
    let g := f.grp.toNat
    if s.tf t (R.TBAR_MEMBER c g) = 0 then settle (progFault s t fACCESS pc 0) t
    else
      let gen := (s.tf t (R.TBAR_ARRGEN c g) + 1) % 256
      let h := SeqHold.barr g gen f.w f.b f.k f.l
      let s := drainAll ((advance s t).modTile t fun x => { x with held := some h, longWait := f.l }) t
      settle (if holdReady s t h then sendArrival s t g gen f.w f.b f.k f.l else s) t)

/-- BWAIT (R639). -/
def execBwait (t : Nat) (f : FmtC) (s : State) : Host.Outcome State Fault Refusal :=
  .next (atIssue s t .sq (cOnly f { cZero with grp := f.grp, reg := f.reg, l := f.l, k := f.k, b := f.b, v := f.v } &&
      decide (f.grp.toNat < 48) && (f.v || f.reg == 0)) fun c _ =>
    if pendingWrite (s.tile t) c (if f.v then [idS f.reg.toNat] else []) then s
    else
      let gen := if f.v then (rs s t c f.reg.toNat).toNat % 256 else s.tf t (R.TBAR_ARRGEN c f.grp.toNat)
      let s := advance s t
      settle (s.modTile t fun x => { x with held := some (.bwait f.grp.toNat gen f.b f.k f.l), longWait := f.l }) t)

/-- BARRIER_ARRIVAL_SEND (R238, R240): a stalled arrival whose conditions have come true is sent. -/
def execBarrierArrivalSend (t : Nat) (s : State) : Host.Outcome State Fault Refusal :=
  .next (match (s.tile t).held with
    | some (.barr g gen w b k long) =>
      if s.tstate t = running ∧ holdReady s t (.barr g gen w b k long) then settle (sendArrival s t g gen w b k long) t else settle s t
    | _ => s)

/-! ### Context and system instructions -/

/-- CTX (R66, R645): outside a boundary a CONTEXT fault; otherwise it waits for the earlier instructions, and `releaseHold` switches. The
batch gate releases what it holds (R155). -/
def execCtx (t : Nat) (f : FmtC) (s : State) : Host.Outcome State Fault Refusal :=
  .next (atIssue s t .sq (cOnly f cZero) fun c pc =>
    if s.tf t R.TSTAT_BOUNDARY = 0 then settle (progFault s t fCONTEXT pc 0) t
    else
      settle ((releaseGate (s.modCtx t c Ctx.advance) t).modTile t fun x => { x with held := some .ctx }) t)

/-- FENCE (R646). -/
def execFence (t : Nat) (f : FmtC) (s : State) : Host.Outcome State Fault Refusal :=
  .next (atIssue s t .sq (cOnly f cZero) fun _ _ =>
    settle ((advance s t).modTile t fun x => { x with held := some .fence }) t)

/-- TRAP (R648): the trap code, then the program fault. -/
def execTrap (t : Nat) (f : FmtC) (s : State) : Host.Outcome State Fault Refusal :=
  .next (atIssue s t .sq (cOnly f { cZero with imm := f.imm }) fun _ pc =>
    settle (progFault ((advance s t).setTf t R.TFAULT_TRAPCODE f.imm.toNat) t fTRAP pc 0) t)

/-- HALT (R649): it waits for the earlier instructions and the drain, and releases the batch gate (R155). -/
def execHalt (t : Nat) (f : FmtC) (s : State) : Host.Outcome State Fault Refusal :=
  .next (atIssue s t .sq (cOnly f cZero) fun _ _ =>
    settle ((releaseGate (advance s t) t).modTile t fun x => { x with held := some .halt }) t)

end Sys2Proof.Machine
end

