-- ==== Sys2Proof/Machine/Scalar.lean ====
section
/-!
DEFINITION. The scalar engine's instructions and CSIG (R625–R629, R633, R635): what each needs at issue, and its effect at
dispatch. An instruction whose predicate's lane-0 bit is 0 writes nothing (R621).
-/

namespace Sys2Proof.Machine

/-- The state after an instruction under its predicate (R621). -/
def predicated (s : State) (t c : Nat) (p : BitVec 3) (f : State) : State := if lane0 s t c p then f else s

/-! ### SALU, SALUI, SMUL, SCMP, AOP -/

/-- SALU at dispatch (R625). -/
def effSalu (t : Nat) (f : FmtS3) (q : Queued) (s : State) : State :=
  predicated s t q.ctx f.pred (setS s t q.ctx f.rd.toNat (saluOp f.func.toNat (rs s t q.ctx f.ra.toNat) (rs s t q.ctx f.rb.toNat)))

/-- SALU. -/
def execSalu (t : Nat) (f : FmtS3) (s : State) : Host.Outcome State Fault Refusal :=
  .next (issue s t
    { instr := .salu t f, eng := .sc, wait := f.wait,
      legal := decide (f.func.toNat < 16) && f.z == 0 && (f.func != 0x0E || f.ra == 0),
      foot := { reads := [idS f.ra.toNat, idS f.rb.toNat] ++ idP f.pred.toNat, writes := [idS f.rd.toNat] },
      need := [], vals := [], desc := none } (effSalu t f))

/-- SALUI at dispatch (R625). -/
def effSalui (t : Nat) (f : FmtSI) (q : Queued) (s : State) : State :=
  predicated s t q.ctx f.pred (setS s t q.ctx f.rd.toNat (saluOp f.func.toNat (rs s t q.ctx f.ra.toNat) (immWord f.imm)))

/-- SALUI. -/
def execSalui (t : Nat) (f : FmtSI) (s : State) : Host.Outcome State Fault Refusal :=
  .next (issue s t
    { instr := .salui t f, eng := .sc, wait := 0,
      legal := decide (f.func.toNat < 16) && (f.func != 0x0E || f.ra == 0),
      foot := { reads := [idS f.ra.toNat] ++ idP f.pred.toNat, writes := [idS f.rd.toNat] },
      need := [], vals := [], desc := none } (effSalui t f))

/-- SMUL at dispatch (R626). -/
def effSmul (t : Nat) (f : FmtS3) (q : Queued) (s : State) : State :=
  predicated s t q.ctx f.pred (setS s t q.ctx f.rd.toNat
    (smulOp f.func.toNat (rs s t q.ctx f.ra.toNat) (rs s t q.ctx f.rb.toNat) (rs s t q.ctx f.rc.toNat)))

/-- SMUL. -/
def execSmul (t : Nat) (f : FmtS3) (s : State) : Host.Outcome State Fault Refusal :=
  .next (issue s t
    { instr := .smul t f, eng := .sc, wait := f.wait,
      legal := decide (f.func.toNat < 8) && f.z == 0 && (f.func == 7 || f.rc == 0),
      foot := { reads := [idS f.ra.toNat, idS f.rb.toNat] ++ (if f.func = 7 then [idS f.rc.toNat] else []) ++ idP f.pred.toNat,
                writes := [idS f.rd.toNat] },
      need := [], vals := [], desc := none } (effSmul t f))

/-- SCMP at dispatch (R629). -/
def effScmp (t : Nat) (f : FmtS3) (q : Queued) (s : State) : State :=
  predicated s t q.ctx f.pred (setP s t q.ctx f.rd.toNat
    (if scmpOp f.func.toNat (rs s t q.ctx f.ra.toNat) (rs s t q.ctx f.rb.toNat) then .allOnes 256 else 0))

/-- SCMP. -/
def execScmp (t : Nat) (f : FmtS3) (s : State) : Host.Outcome State Fault Refusal :=
  .next (issue s t
    { instr := .scmp t f, eng := .sc, wait := f.wait,
      legal := decide (f.func.toNat < 6) && decide (f.rd.toNat < 8) && f.z == 0,
      foot := { reads := [idS f.ra.toNat, idS f.rb.toNat] ++ idP f.pred.toNat, writes := idP f.rd.toNat },
      need := [], vals := [], desc := none } (effScmp t f))

/-- The address word that an AOP makes, or the scalar for AGET (R628). -/
def aopOp (func : Nat) (areg sreg : Word) (imm : BitVec 32) : Word :=
  match func with
  | 0 => wset areg 39 0 (wrap (wget areg 39 0 + immInt imm) 40)
  | 1 => .ofNat 64 (wget sreg 39 0 + imm.toNat % 2 ^ 24 * 2 ^ 40)
  | 2 => areg
  | 3 => sreg
  | _ => wset areg 63 40 (imm.toNat % 2 ^ 24)

/-- AOP at dispatch (R628). -/
def effAop (t : Nat) (f : FmtSI) (q : Queued) (s : State) : State :=
  let v := aopOp f.func.toNat (ra s t q.ctx f.ra.toNat) (rs s t q.ctx f.ra.toNat) f.imm
  predicated s t q.ctx f.pred (if f.func = 2 then setS s t q.ctx f.rd.toNat v else setA s t q.ctx f.rd.toNat v)

/-- Whether an AOP's register numbers and immediate are legal (R628): an address register is 0–15; AMK and ABND take 24 bits. -/
def aopLegal (f : FmtSI) : Bool :=
  decide (f.func.toNat < 5) &&
  (f.func == 1 || f.func == 3 || decide (f.ra.toNat < 16)) && (f.func == 2 || decide (f.rd.toNat < 16)) &&
  ((f.func != 1 && f.func != 4) || decide (f.imm.toNat < 2 ^ 24))

/-- AOP. -/
def execAop (t : Nat) (f : FmtSI) (s : State) : Host.Outcome State Fault Refusal :=
  .next (issue s t
    { instr := .aop t f, eng := .sc, wait := 0, legal := aopLegal f,
      foot := { reads := [if f.func = 1 ∨ f.func = 3 then idS f.ra.toNat else idA f.ra.toNat] ++ idP f.pred.toNat,
                writes := [if f.func = 2 then idS f.rd.toNat else idA f.rd.toNat] },
      need := [], vals := [], desc := none } (effAop t f))

/-! ### SLD and SST (R627) -/

/-- Where a scalar access goes: a register slot of the tile's own block, or a range of its own scratchpad. -/
inductive ScalarAt where
  | reg (off : Nat)
  | mem (off : Nat)
  deriving DecidableEq, Repr

/-- The registers of a tile's block that its own store may write (WKEXPn, NSCALE, NSLOTn, NSCLR, CONEAREA, CONETAG, CONENEXT), and
those that only show state, where a store changes nothing; a store to any other is refused with ACCESS (R64, R74, R124, R167, R213). DEDUCED (log 19). -/
def tileMayWrite (off : Nat) : Bool :=
  let o := off % 0x8000
  (decide (0x400 ≤ off) && decide (off < 0x600) && off % 0x20 == 0x18) || o == 0x3200 || o == 0x3220 ||
    (decide (0x3300 ≤ o) && decide (o < 0x3400)) || o == 0x3B00 || o == 0x3B08 || o == 0x3B10

/-- Whether every field of a register is read-only or sticky, so that a tile's own store meets no rule that refuses it. DEDUCED (log 19). -/
def onlyShows (d : RegDesc) : Bool := d.fields.all fun f => f.acc == .RO || f.acc == .RWS

/-- The address part of R627: bound, size and slot checks. DEDUCED (log 19). -/
def scalarAt (s : State) (t c k : Nat) (imm : BitVec 32) (n : Nat) (store : Bool) : Chk ScalarAt :=
  match window s t c k (immInt imm) n with
  | .error e => .error e
  | .ok x =>
    let own := regAddr .tile t 0
    if own ≤ x ∧ x < own + 0x1_0000 then
      let o := x - own
      if n ≠ 8 ∨ x % 8 ≠ 0 then .error (fACCESS, x)
      else match regDescAt .tile o with
        | none => .error (fADDRESS, x)
        | some d =>
          if !store then .ok (.reg o)
          else if d.perCtx && o / 0x8000 != c then .error (fACCESS, x)
          else if tileMayWrite o || onlyShows d then .ok (.reg o)
          else .error (fACCESS, x)
    else if store then
      match localDst s t c x n with
      | .error e => .error e
      | .ok o => .ok (.mem o)
    else
      match localOffset s t c x n with
      | .error e => .error e
      | .ok o => .ok (.mem o)

/-- NSCLR.SLOT (R221): each selected `NSTATn` of the active context returns to its reset value. -/
def clearSlots (s : State) (t c mask : Nat) : State :=
  (List.range 32).foldl (fun s n =>
    if bitOf mask n then s.setReg (regAddr .tile t (R.NSTAT c n)) (resetOf (regAddr .tile t (R.NSTAT c n))) else s) s

/-- NSCLR.CONE (R221, R411): `CONESTAT`, the histograms, the extremes and every `PMISSp` return to their reset values. -/
def clearCone (s : State) (t : Nat) : State :=
  let lo := regAddr .tile t 0
  s.clearRegs fun a => a == lo + R.CONESTAT || (decide (lo + 0x3600 ≤ a) && decide (a < lo + 0x3B00)) ||
    (decide (lo + 0x3C80 ≤ a) && decide (a < lo + 0x3D00))

/-- A write of CONETAG (R692): its fields are set and the block count returns to 0. -/
def writeConetag (s : State) (t c : Nat) (v : Word) : State :=
  (storeReg s (regAddr .tile t (R.CONETAG c)) v).setTf t (R.CONENEXT_NEXT c) 0

/-- A tile's own store into its register block, with the effect of the slot. -/
def tileRegStore (s : State) (t c off : Nat) (v : Word) : State :=
  if off = R.NSCLR then
    let s := clearSlots s t c (wget v 31 0)
    if wget v 32 32 = 1 then clearCone s t else s
  else if off % 0x8000 = 0x3B08 then writeConetag s t c v
  else storeReg s (regAddr .tile t off) v

/-- The size of a scalar access (R627). -/
def scalarSize (func : BitVec 7) : Nat := 2 ^ (func.toNat % 4)

/-- The value that SLD writes (R627). -/
def sldExtend (func : BitVec 7) (x : Nat) : Word :=
  if bitOf func.toNat 2 then .ofInt 64 (sextInt x (8 * scalarSize func)) else .ofNat 64 x

/-- SLD at dispatch (R627). -/
def effSld (t : Nat) (f : FmtSI) (q : Queued) (s : State) : State :=
  predicated s t q.ctx f.pred (
    chk s t q.pc (scalarAt s t q.ctx f.ra.toNat f.imm (scalarSize f.func) false) fun w =>
      match w with
      | .reg o => setS s t q.ctx f.rd.toNat (readReg s (regAddr .tile t o))
      | .mem o =>
        let x := ofBytes (ownRd s t o (scalarSize f.func))
        setS (gbFill s t o (scalarSize f.func)) t q.ctx f.rd.toNat (sldExtend f.func x))

/-- The scoreboard's ranges of a scalar access, located at issue. -/
def scalarFoot (s : State) (t : Nat) (f : FmtSI) (store : Bool) : Foot :=
  let n := scalarSize f.func
  let w := scalarAt s t (s.actx t) f.ra.toNat f.imm n store
  { reads := [idA f.ra.toNat] ++ (if store then [idS f.rd.toNat] else []) ++ idP f.pred.toNat,
    writes := if store then [] else [idS f.rd.toNat],
    ranges := match w with | .ok (.mem o) => [⟨o, n, store⟩] | _ => [],
    own := match w with | .ok (.reg _) => true | _ => false }

/-- SLD. -/
def execSld (t : Nat) (f : FmtSI) (s : State) : Host.Outcome State Fault Refusal :=
  .next (issue s t
    { instr := .sld t f, eng := .sc, wait := 0, legal := decide (f.func.toNat < 8) && decide (f.ra.toNat < 16),
      foot := scalarFoot s t f false, need := [idA f.ra.toNat], vals := [], desc := none } (effSld t f))

/-- SST at dispatch (R627): the scratchpad is written through the gather buffer (R93). -/
def effSst (t : Nat) (f : FmtSI) (q : Queued) (s : State) : State :=
  predicated s t q.ctx f.pred (
    chk s t q.pc (scalarAt s t q.ctx f.ra.toNat f.imm (scalarSize f.func) true) fun w =>
      match w with
      | .reg o => tileRegStore s t q.ctx o (rs s t q.ctx f.rd.toNat)
      | .mem o => gbWrite s t o (toBytes (rs s t q.ctx f.rd.toNat).toNat (scalarSize f.func)) false)

/-- SST. -/
def execSst (t : Nat) (f : FmtSI) (s : State) : Host.Outcome State Fault Refusal :=
  .next (issue s t
    { instr := .sst t f, eng := .sc, wait := 0, legal := decide (f.func.toNat < 4) && decide (f.ra.toNat < 16),
      foot := scalarFoot s t f true, need := [idA f.ra.toNat], vals := [], desc := none } (effSst t f))

/-! ### CSIG and CRD -/

/-- CSIG at dispatch (R633): one signal with OK. -/
def effCsig (t : Nat) (f : FmtC) (q : Queued) (s : State) : State := signal s t q.ctx f.cnt.toNat stOK q.eng q.pc

/-- CSIG names an engine of the tile's class (R633); every other field is 0. -/
def csigLegal (t : Nat) (f : FmtC) : Bool :=
  (match engOf f.eng.toNat with | some e => hasEngine t e | none => false) &&
  f.pred == 0 && f.grp == 0 && f.reg == 0 && f.z == 0 && f.sub == 0 && !f.clr && !f.l && !f.k && !f.b && !f.w && !f.v && f.imm == 0

/-- CSIG. One of SQ is executed by the sequencer at issue (R49): it enters no queue. -/
def execCsig (t : Nat) (f : FmtC) (s : State) : Host.Outcome State Fault Refusal :=
  .next (issue s t
    { instr := .csig t f, eng := (engOf f.eng.toNat).getD .sq, wait := 0, legal := csigLegal t f,
      foot := {}, need := [], vals := [], desc := none } (effCsig t f))

/-- CRD at dispatch (R635): a counter's value, or its status, which CLR clears. -/
def effCrd (t : Nat) (f : FmtC) (q : Queued) (s : State) : State :=
  if f.sub = 0 then setS s t q.ctx f.reg.toNat (.ofNat 64 (cntVal s t q.ctx f.cnt.toNat))
  else
    let a := regAddr .tile t (R.CNTST q.ctx f.cnt.toNat)
    let s' := setS s t q.ctx f.reg.toNat (s.reg a)
    if f.clr then s'.setReg a 0 else s'

/-- CRD. -/
def execCrd (t : Nat) (f : FmtC) (s : State) : Host.Outcome State Fault Refusal :=
  .next (issue s t
    { instr := .crd t f, eng := .sc, wait := 0,
      legal := decide (f.sub.toNat < 2) && (f.sub == 1 || !f.clr) && f.pred == 0 && f.grp == 0 && f.z == 0 && !f.l && !f.k && !f.b &&
        !f.w && !f.v && f.eng == 0 && f.imm == 0,
      foot := { writes := [idS f.reg.toNat] }, need := [], vals := [], desc := none } (effCrd t f))

end Sys2Proof.Machine
end

