-- ==== Sys2Proof/Machine/Remote.lean ====
section
/-!
DEFINITION. What reaches a tile and what its hardware does beside its instructions: remote writes and reads, answers, the gather
buffer's idle drain, stalled signals, bank groups and the end of a task, the clocking of the array, wake, hold, fence, reset and
start, and the barriers of a die.
-/

namespace Sys2Proof.Machine

/-! ### Remote writes (R115–R123) -/

/-- The wicket that a range of the tile's scratchpad lies wholly in (check 2 of R116); 16 where there is none. -/
def wicketOf (s : State) (t off len : Nat) : Nat :=
  ((List.range 16).find? fun n => s.tf t (R.WKLIM_EN n) == 1 && decide (s.tf t (R.WKBASE_BASE n) ≤ off) &&
    decide (off + len ≤ s.tf t (R.WKLIM_LIMIT n) + 1)).getD 16

/-- The checks of R116 but the last: `stOK`, or the code of the first that fails. -/
def writeCheck (s : State) (t : Nat) (p : WritePkt) : Nat :=
  let off := p.addr - spadAddr t 0
  let w := wicketOf s t off p.data.length
  if s.tstate t = fenced then stTARGET_FENCED
  else if p.addr < spadAddr t 0 ∨ w = 16 ∨ slotFor s t w p.sender = 32 then stWICKET_MISS
  else if s.tf t (R.WKEPOCH_OPEN w) = 0 ∨ p.epoch ≠ s.tf t (R.WKEPOCH_EPOCH w) then stWICKET_CLOSED
  else stOK

/-- Whether the port holds an otherwise accepted packet: its group is not ON (R116), or a signal of the QP is stalled (R234). -/
def writeWaits (s : State) (t : Nat) (p : WritePkt) : Bool :=
  groupState s t ((p.addr - spadAddr t 0) / 0x4_0000) != 2 || qpStalled (s.tile t)

/-- An accepted packet enters the gather buffer (R94, R117): its slot's landed count rises, held descriptors and a DMAF that watch it go on. -/
def acceptWrite (s : State) (t : Nat) (p : WritePkt) : State :=
  let off := p.addr - spadAddr t 0
  let w := wicketOf s t off p.data.length
  let k := slotFor s t w p.sender
  let s := gbWrite s t off p.data true
  let s := s.setTf t (R.WKLAND_BYTES w k) ((s.tf t (R.WKLAND_BYTES w k) + p.data.length) % 2 ^ 32)
  settle (dmafForward (recheckHeld s t) t) t

/-- A packet at the owner's port: its status and the state after it; `none` while the port holds it. -/
def deliverWrite (s : State) (t : Nat) (p : WritePkt) : Option (Nat × State) :=
  let st := writeCheck s t p
  if st = stWICKET_CLOSED then
    let w := wicketOf s t (p.addr - spadAddr t 0) p.data.length
    some (st, s.setTf t (R.WKEPOCH_REJECTS w) (satAdd (s.tf t (R.WKEPOCH_REJECTS w)) 1 0xFFFF))
  else if st ≠ stOK then some (st, s)
  else if writeWaits s t p then none
  else some (stOK, acceptWrite s t p)

/-- REMOTE_WRITE_PACKET (R116–R121): a packet that the port holds stands there; packets behind one that is held wait in the network. -/
def execRemoteWritePacket (t : Nat) (p : WritePkt) (s : State) : Host.Outcome State Fault Refusal :=
  .next (if !(s.tile t).port.isEmpty then s
    else match deliverWrite s t p with
      | some (st, s') => answerTo (s'.unwire (.write t p)) p.sender p.tag st
      | none => (s.unwire (.write t p)).modTile t fun x => { x with port := [p] })

/-- HELD_PACKET_RECHECK (R116, check 5): the packet at the port is checked again from check 1. -/
def execHeldPacketRecheck (t : Nat) (s : State) : Host.Outcome State Fault Refusal :=
  .next (match (s.tile t).port with
    | [] => s
    | p :: ps => match deliverWrite (s.modTile t fun x => { x with port := ps }) t p with
      | some (st, s') => answerTo s' p.sender p.tag st
      | none => s)

/-! ### Remote reads served (R105, R107, R113, R114, R306, R308) -/

/-- What a remote read of a tile's scratchpad gets (R105, R107, R321): status, data, and the state after it. -/
def serveRead (s : State) (t off len : Nat) (par : Parity) : Nat × List Byte × State :=
  let groupsOn := (List.range 8).all fun g =>
    decide (g < off / 0x4_0000) || decide ((off + len - 1) / 0x4_0000 < g) || groupState s t g == 2
  if s.tstate t = fenced then (stTARGET_FENCED, [], s)
  else if len > 0 ∧ !groupsOn then (stACCESS, [], s)
  else match par with
    | .unrecovered _ => (stPARITY, [], parityEffect s t (pcOff s t) par)
    | _ => (stOK, s.rd (spadAddr t off) len, parityEffect s t (pcOff s t) par)

/-- What the parity check of a read of `len` bytes at an offset finds (R106, R107), where no operand of the command says it: a free value. DESIGN CHOICE (log 9). -/
def freeParity (s : State) (off len : Nat) : Parity × State :=
  let f := s.freeNat
  let o := off + f.1 / 3 % max 1 len
  (match f.1 % 3 with | 0 => .clean | 1 => .recovered o | _ => .unrecovered o, f.2)

/-- A read meets the merge table for one of its rows (R113, R306): it joins the row's entry, opens one, or is served by its own bank access where the
table or the entry is full. The tile after it, and whether an entry holds it. -/
def mergeRow (x : Tile) (row : Nat) : Tile × Bool :=
  match x.merge.find? fun e => e.row == row with
  | some e =>
    if e.n < 16 then ({ x with merge := x.merge.map fun e' => if e'.row = row then { e' with n := e.n + 1 } else e' }, true) else (x, false)
  | none => if x.merge.length < 8 then ({ x with merge := x.merge ++ [{ row := row, n := 1 }] }, true) else (x, false)

/-- A read that has been served: held by the merge entries of its rows, or answered at once. DESIGN CHOICE (log 79). -/
def mergeRead (s : State) (t : Nat) (who : ReadBy) (off len : Nat) (data : List Byte) : State :=
  let rows := if len = 0 then [] else (List.range ((off + len - 1) / 64 + 1 - off / 64)).map fun i => off / 64 + i
  let r := rows.foldl (fun (r : Tile × List Nat) row =>
    let m := mergeRow r.1 row
    (m.1, if m.2 then r.2 ++ [row] else r.2)) (s.tile t, [])
  if r.2.isEmpty then answerRead s who stOK data
  else s.setTile t { r.1 with merged := r.1.merged ++ [⟨who, r.2, data⟩] }

/-- A read at a tile's port (R7, R17, R105–R107, R113, R321): of a reserved address, or beyond the tile's scratchpad, it gets ADDRESS. DEDUCED (log 15). -/
def readAtPort (s : State) (t : Nat) (who : ReadBy) (addr len : Nat) (par : Parity) : State :=
  let off := addr - spadAddr t 0
  if reservedAt s addr len ∨ addr < spadAddr t 0 ∨ addr + len > spadAddr t 0 + 0x20_0000 then answerRead s who stADDRESS []
  else
    let r := serveRead s t off len par
    if r.1 = stOK then mergeRead r.2.2 t who off len r.2.1 else answerRead r.2.2 who r.1 []

/-- REMOTE_READ_REQUEST; a fenced tile's router answers for it (R321). -/
def execRemoteReadRequest (t : Nat) (rq : ReadReq) (par : Parity) (s : State) : Host.Outcome State Fault Refusal :=
  .next (readAtPort (s.unwire (.readReq rq.addr rq.len rq.sender.tile rq.tag)) t (.tile rq.sender.tile rq.tag) rq.addr rq.len par)

/-- MERGE_WINDOW_EXPIRY (R113): the entry of a row takes no more reads, and the reads that it was the last to hold are answered. DESIGN CHOICE (log 79). -/
def execMergeWindowExpiry (t row : Nat) (s : State) : Host.Outcome State Fault Refusal :=
  let ms := (s.tile t).merged.map fun m => { m with rows := m.rows.filter fun r => r ≠ row }
  .next (answerMerged (s.modTile t fun x => { closeMerge x row with merged := ms.filter fun m => !m.rows.isEmpty }) (ms.filter fun m => m.rows.isEmpty))

/-! ### Answers, drains and stalled signals -/

/-- TRANSFER_ANSWER (R121, R261, R746): an answer to a transfer of the tile; a fenced tile takes none (R72). -/
def execTransferAnswer (t tag status : Nat) (s : State) : Host.Outcome State Fault Refusal :=
  let s := s.unwire (.answer (tileSender s t) tag status)
  .next (if s.tstate t = fenced then s else settle (answerTransfer s t tag status) t)

/-- GATHER_BUFFER_IDLE_DRAIN (R97). -/
def execGatherBufferIdleDrain (t : Nat) (s : State) : Host.Outcome State Fault Refusal := .next (drainAll s t)

/-- STALLED_SIGNAL_APPLY (R233): the first stalled signal that its bound now allows; a fenced tile's counters stay frozen (R72). -/
def execStalledSignalApply (t : Nat) (s : State) : Host.Outcome State Fault Refusal :=
  .next (if s.tstate t = fenced then s else match takeFirst (fun st => !overBound s t st.ctx st.cnt) (s.tile t).stalled with
    | some (st, rest) => settle (applySignal (s.modTile t fun x => { x with stalled := rest }) t st.ctx st.cnt st.code st.eng st.pc) t
    | none => s)

/-- STALLED_SIGNAL_FAULT (R234): a stalled signal that nothing can release is lost with a COUNTER fault. -/
def execStalledSignalFault (t : Nat) (s : State) : Host.Outcome State Fault Refusal :=
  .next (if s.tstate t = fenced then s else match takeFirst (fun st => overBound s t st.ctx st.cnt && !stallLives s t st.ctx st.cnt) (s.tile t).stalled with
    | some (st, rest) => settle (progFault (s.modTile t fun x => { x with stalled := rest }) t fCOUNTER st.pc 0) t
    | none => s)

/-! ### Bank groups (R99–R105) -/

/-- The bytes of a group read as zero. -/
def zeroGroup (s : State) (t g : Nat) : State :=
  let lo := spadAddr t (0x4_0000 * g)
  { s with mem := mdrop (fun a => decide (lo ≤ a) && decide (a < lo + 0x4_0000)) s.mem }

/-- BANK_GROUP_START (R100, R103): an OFF group of a context enters STARTING; a stopping one latches its next owner. -/
def startGroup (s : State) (t c g : Nat) : State :=
  match groupState s t g with
  | 0 => setGroupState s t g 1
  | 3 => s.modTile t fun x => { x with owners := mput (fun _ => 0) x.owners g (c + 1) }
  | _ => s

/-- BANK_GROUP_POWERED (R100): the zero-fill of a group that starts begins. -/
def execBankGroupPowered (t g : Nat) (s : State) : Host.Outcome State Fault Refusal :=
  .next (if groupState s t g = 1 ∧ !(s.tile t).powered.contains g then s.modTile t fun x => { x with powered := x.powered ++ [g] } else s)

/-- Whether an address is that of a counter register of a context of a tile (`CNTn`, `CNTSTn`, `CNTLASTn`). -/
def counterReg (t c a : Nat) : Bool :=
  let lo := regAddr .tile t (0x8000 * c)
  decide (lo ≤ a) && decide (a < lo + 0x8000) &&
    (decide (0x4000 ≤ a - lo ∧ a - lo < 0x4200) || decide (0x4400 ≤ a - lo ∧ a - lo < 0x4600) || decide (0x4E00 ≤ a - lo ∧ a - lo < 0x5000))

/-- A context's registers at task start (R60, R228): `s`, `a`, `v`, `p`, the counters, the program counter and the loops. -/
def ctxStart (s : State) (t c : Nat) : State := (s.modCtx t c fun _ => {}).clearRegs (counterReg t c)

/-- The start of a tile (R60, R68, R81, R140): the active context begins at its first instruction, its registers and the array's panels and accumulators zero. -/
def startTile (s : State) (t : Nat) : State :=
  wake ((ctxStart s t (s.actx t)).modTile t fun x => { zeroArray x with started := true, latchStart := false, fbuf := [] }) t

/-- Whether every group of the active context is ON (R102). -/
def groupsReady (s : State) (t : Nat) : Bool :=
  (List.range 8).all fun g => !bitOf (groupsOf s t (s.actx t)) g || groupState s t g == 2

/-- A latched start takes place once the last group of the starting context is ON (R102). -/
def latched (s : State) (t : Nat) : State :=
  if (s.tile t).latchStart ∧ groupsReady s t ∧ s.tstate t = asleep then startTile s t else s

/-- BANK_GROUP_ZERO_FILL_END (R100, R101, R103). -/
def execBankGroupZeroFillEnd (t g : Nat) (s : State) : Host.Outcome State Fault Refusal :=
  .next (match groupState s t g with
    | 1 =>
      if (s.tile t).powered.contains g then
        latched (setGroupState ((zeroGroup s t g).modTile t fun x => { x with powered := x.powered.filter fun h => h ≠ g }) t g 2) t
      else s
    | 3 =>
      let s := zeroGroup s t g
      if mget (fun _ => 0) (s.tile t).owners g = 0 then setGroupState s t g 0
      else latched (setGroupState (s.modTile t fun x => { x with owners := mput (fun _ => 0) x.owners g 0 }) t g 2) t
    | _ => s)

/-- A queue closes (R258): a closed one stays as it is. DEDUCED (log 74). -/
def closeQueue (s : State) (t q : Nat) : State :=
  if s.tf t (R.QEPOCH_CLOSED q) = 1 then s
  else (s.setTf t (R.QEPOCH_CLOSED q) 1).setTf t (R.QEPOCH_EPOCH q) ((s.tf t (R.QEPOCH_EPOCH q) + 1) % 2 ^ 16)

/-- Lodge ticks in 24 hours of its 25 MHz reference. -/
abbrev dayTicks : Nat := 24 * 3600 * 25_000_000

/-- 24 hours of calendar time in picoseconds. -/
abbrev dayPs : Nat := 24 * 3600 * 10 ^ 12

/-- Whether a physical row has two parity errors within 24 hours of calendar time (R108). DESIGN CHOICE (log 37). -/
def rowBad (s : State) (pos bank row : Nat) : Bool :=
  let ts := (s.rowNotes.filter fun n => n.1 == pos && n.2.1 == bank && n.2.2.1 == row).map fun n => n.2.2.2
  (List.range ts.length).any fun i => decide (i + 1 < ts.length) && decide (ts.getD (i + 1) 0 ≤ ts.getD i 0 + dayPs)

/-- The remaps of a job boundary (R108, R110): each row that is due takes its bank's next spare row, or the position is fenced in the
repair record. DESIGN CHOICE (log 37). -/
def remapRows (s : State) (pos : Nat) : State :=
  let due := (s.rowNotes.filter fun n => n.1 == pos && rowBad s n.1 n.2.1 n.2.2.1).map (fun n => (n.2.1, n.2.2.1)) ++
    (s.rowQueue.filter fun r => r.1 == pos).map (fun r => (r.2.1, r.2.2))
  let s := due.foldl (fun s (bank, row) =>
    let used := s.spareRows.filter fun r => r.1 == pos && r.2.1 == bank
    if used.any fun r => r.2.2.1 == row then s
    else if used.length ≥ 16 then
      let p := (pos / 272, pos % 272 / 16, pos % 16)
      { s with fencedPos := if s.fencedPos.contains p then s.fencedPos else s.fencedPos ++ [p] }
    else { s with spareRows := s.spareRows ++ [(pos, bank, row, used.length)] }) s
  { s with rowNotes := s.rowNotes.filter fun n => !(n.1 == pos && due.contains (n.2.1, n.2.2.1)),
           rowQueue := s.rowQueue.filter fun r => r.1 ≠ pos }

/-- The remap entries of a position in the repair record (R109), by bank · 2,048 + physical row, for the banks that `f` names: spare row i stands as physical
row 1,024 + i. -/
def remapOf (s : State) (pos : Nat) (f : Nat → Bool) (m : List (Nat × Nat)) : List (Nat × Nat) :=
  s.spareRows.foldl (fun m r => if r.1 = pos ∧ f r.2.1 then mput (fun k => k % 2048) m (r.2.1 * 2048 + r.2.2.1) (1024 + r.2.2.2) else m) m

/-- Whether the remap table of a bank may load (R109): its group is not ON, and its start fill has not begun. -/
def remapFree (s : State) (t bank : Nat) : Bool := groupState s t (bank / 4) != 2 && !(s.tile t).powered.contains (bank / 4)

/-- ROW_REMAP_LOAD (R109): the remap tables of a tile's banks, from the repair record. -/
def loadRemap (s : State) (t : Nat) : State :=
  s.modTile t fun x => { x with rowRemap := remapOf s (posOf s t) (remapFree s t) (x.rowRemap.filter fun e => !remapFree s t (e.1 / 2048)) }

/-! ### Binding (R18, R41, R45) -/

/-- What of a tile outlasts a tile reset (R73): what the QP and the port hold for others, and the state of the banks and of the array's clock. The gather
buffer, the hold buffer and all work are discarded. DEDUCED (log 32). -/
def resetTile (x : Tile) : Tile :=
  { nextId := x.nextId, nextTag := x.nextTag, rowRemap := x.rowRemap, owners := x.owners, powered := x.powered, port := x.port, merge := x.merge,
    merged := x.merged, qmsgs := x.qmsgs, freed := x.freed, basins := x.basins, step := x.step, units := x.units, wantUnits := x.wantUnits,
    phase := x.phase, soaked := x.phase != .gated }

/-- Whether an address is that of a register of a tile. -/
def tileRegAt (t a : Nat) : Bool := decide (regAddr .tile t 0 ≤ a) && decide (a < regAddr .tile t 0 + 0x1_0000)

/-- What of a physical tile outlasts the loss of its number (R45): its engines' clocks are stopped and its bank groups off. -/
def looseTile (x : Tile) : Tile :=
  { resetTile x with owners := [], powered := [], step := 0, units := 0, wantUnits := false, phase := .gated }

/-- A number loses its tile (R18, R45): the physical tile is asleep if it is not fenced, its bank groups are off with their contents gone, and it keeps its registers at its
position. DEDUCED (log 86). -/
def unbindTile (s : State) (t : Nat) : State :=
  let s := (if s.tstate t = fenced then s else s.setTstate t asleep).setTf t R.SPGSTATE_G 0
  let regs := (s.regs.filter fun e => tileRegAt t e.1).map fun e => (e.1 - regAddr .tile t 0, e.2)
  let parked := mput (fun _ => {}) s.parked (posOf s t) ⟨looseTile (s.tile t), regs⟩
  let s := (s.clearRegs (tileRegAt t)).setTile t {}
  { s with parked := parked, gov := s.gov.filter fun r => r.1 ≠ t, bind := mput (fun _ => 0) s.bind t 0,
           mem := mdrop (fun a => decide (spadAddr t 0 ≤ a) && decide (a < spadAddr (t + 1) 0)) s.mem }

/-- The physical tile at a position (row · 16 + column) of a number's die answers for the number (R18, R41). DEDUCED (log 86). -/
def bindTile (s : State) (t c : Nat) : State :=
  let s := { s with bind := mput (fun _ => 0) s.bind t (c + 1) }
  let p := mget (fun _ => ({} : Parked)) s.parked (posOf s t)
  let s := p.regs.foldl (fun s e => s.setReg (regAddr .tile t e.1) e.2) s
  { s.setTile t p.tile with parked := mdrop (fun k => k == posOf s t) s.parked }

/-- The end of matrix work in flight and of the gate (R166): the array ramps down. DEDUCED (log 30). -/
def dropMatrix (s : State) (t : Nat) : State := forceDown (s.modTile t endMatrix) t

/-- The end of a context's task on a tile (R104): the context's wickets and queues close, the rows of its groups drain, its groups stop, its matrix work is
discarded (R166), and the job boundary's remaps load (R108–R110). -/
def taskEnd (s : State) (t c : Nat) : State :=
  let own := groupsOf s t c
  let s := (List.range 16).foldl (fun s n => if s.tf t (R.WKBASE_OWNER n) = c then closeWicket s t n else s) s
  let s := (List.range 16).foldl (fun s n => if s.tf t (R.QCFG_OWNER n) = c then closeQueue s t n else s) s
  let s := drainIf s t fun e => bitOf own (e.row * 64 / 0x4_0000)
  let s := (List.range 8).foldl (fun s g => if bitOf own g ∧ groupState s t g = 2 then setGroupState s t g 3 else s) s
  let s := if s.actx t = c then (dropMatrix s t).modTile t fun x => { x with started := false } else s
  loadRemap (remapRows s (posOf s t)) t

/-! ### The array's clock (R158–R165) -/

/-- SOAK_HOLD_END (R160–R163): the hold has lasted its cycles; an M-tile asks for the units of its ramp-down, the lanes of another tile begin it. DEDUCED (log 31). -/
def execSoakHoldEnd (t : Nat) (s : State) : Host.Outcome State Fault Refusal :=
  .next (if (s.tile t).phase = .hold then rampDown s t else s)

/-- GOVERNOR_GRANT (R162): the oldest request of the tile's die is granted when its units are free. -/
def execGovernorGrant (t : Nat) (s : State) : Host.Outcome State Fault Refusal :=
  .next (match s.gov.find? fun r => r.1 / 256 == t / 256 with
    | some (t', n) =>
      let used := ((s.tiles.filter fun e => e.1 / 256 == t / 256).map fun e => e.2.units).foldl (· + ·) 0
      if t' = t ∧ used + n ≤ 64 then
        { s.modTile t (fun x => { x with wantUnits := false, units := n, phase := if x.phase = .hold then .rampDown else x.phase }) with
          gov := s.gov.filter fun r => r.1 ≠ t }
      else s
    | none => s)

/-- RAMP_DOWN_STEP (R161). -/
def execRampDownStep (t : Nat) (s : State) : Host.Outcome State Fault Refusal :=
  .next (s.modTile t fun x => if x.phase = .rampDown then { x with step := x.step - 1 } else x)

/-- RAMP_DOWN_END (R165): the clock is gated, the units are free, a soaking tile sleeps. DEDUCED (log 31). -/
def execRampDownEnd (t : Nat) (s : State) : Host.Outcome State Fault Refusal :=
  let x := s.tile t
  .next (if (x.phase = .rampDown ∧ x.step = 0) ∨ x.phase = .gated then
      let s := (dropUnits s t).modTile t fun x => { x with phase := .gated }
      if s.tstate t = soaking then s.setTstate t asleep else s
    else s)

/-- The end of a ramp-up: full density, no units; a SOAK that waited for it ends with it. -/
def rampedUp (s : State) (t : Nat) : State :=
  settle ((dropUnits s t).modTile t fun x =>
    { x with phase := .full, flights := x.flights.filter fun f => match f.kind with | .soak _ => false | _ => true }) t

/-- RAMP_UP_STEP (R161, R546): on an M-tile with its units, each step of the ramp lasting its cycles, the sixteenth too; a tile with reduced share stays at 8/16. -/
def execRampUpStep (t : Nat) (s : State) : Host.Outcome State Fault Refusal :=
  let x := s.tile t
  .next (if x.phase ≠ .rampUp ∨ x.wantUnits then s
    else if x.step ≥ 16 then rampedUp s t
    else if s.tf t R.TPWR_REDUCED = 1 ∧ x.step ≥ 8 then s
    else s.modTile t fun x => { x with step := x.step + 1 })

/-- SOAK at dispatch (R647): at full density its cycles pass; otherwise the clock ramps up first, and it waits for that. DEDUCED (log 31). -/
def effSoak (t : Nat) (f : FmtC) (q : Queued) (s : State) : State :=
  let s := clockUp s t
  if (s.tile t).phase = .full then s
  else addFlight s t { id := q.id, eng := q.eng, ctx := q.ctx, pc := q.pc, foot := {}, cnt := none, kind := .soak f.imm.toNat }

/-- SOAK. -/
def execSoak (t : Nat) (f : FmtC) (s : State) : Host.Outcome State Fault Refusal :=
  .next (issue s t { instr := .soak t f, eng := if classOf t = 0 then .me else .ve, wait := 0, legal := cOnly f { cZero with imm := f.imm },
                     foot := {}, need := [], vals := [], desc := none } (effSoak t f))

/-! ### Tile states -/

/-- ENGINE_CHECK_FAIL (R76). -/
def execEngineCheckFail (t : Nat) (_e : Engine) (s : State) : Host.Outcome State Fault Refusal :=
  .next (hardFault s t fENGINE (pcOff s t) 0)

/-- WAKE_COMPLETE (R68). -/
def execWakeComplete (t : Nat) (s : State) : Host.Outcome State Fault Refusal :=
  .next (if s.tstate t = waking then settle (s.setTstate t running) t else s)

/-- Whether the only wait of a tile is on a device-to-device barrier (R77). -/
def onDeviceBarrier (s : State) (t : Nat) : Bool :=
  !engineWaits s t 0 && !engineWaits s t 1 && match (s.tile t).held with
  | some (.bwait g ..) => decide (32 ≤ g) && s.fld .die (t / 256) (R.PBAR_DEVICE (g - 32)) == 1
  | _ => false

/-- WATCHDOG_EXPIRY (R77): the report, where the watchdog counts at all. -/
def execWatchdogExpiry (t : Nat) (s : State) : Host.Outcome State Fault Refusal :=
  .next (if (s.tile t).started && s.bound t && s.tf t R.TCTL_WDOG_EN == 1 && s.tf t R.TSTAT_HALTED == 0 && s.tf t R.TSTAT_HELD == 0 &&
      s.tstate t != fenced && !onDeviceBarrier s t then reportTile (recordFault s t fWATCHDOG 0 0) t fWATCHDOG false
    else s)

/-- HOLD_TAKES_EFFECT (R81): at a superstep boundary a running tile that is to be held stops issuing and soaks. DEDUCED (log 74). -/
def execHoldTakesEffect (t : Nat) (s : State) : Host.Outcome State Fault Refusal :=
  .next (if s.tstate t = running ∧ holdWanted s t ∧ s.tf t R.TSTAT_BOUNDARY = 1 ∧ (s.tile t).held = none
    then settle (s.setTf t R.TSTAT_HELD 1) t else s)

/-- The release of a held tile once nothing asks for the hold (R68). -/
def unhold (s : State) (t : Nat) : State :=
  if s.tf t R.TSTAT_HELD = 1 ∧ !holdWanted s t ∧ s.tstate t ≠ fenced then settle (wake (s.setTf t R.TSTAT_HELD 0) t) t else s

/-- TCTL_HOLD (R81). -/
def execTctlHold (t : Nat) (on : Bool) (s : State) : Host.Outcome State Fault Refusal :=
  .next (unhold (s.setTf t R.TCTL_HOLD (b2n on)) t)

/-- TCTL_FENCE (R68, R72, R81, R166); no tile answers at the address of a logical number that is not bound (R18). -/
def execTctlFence (t : Nat) (s : State) : Host.Outcome State Fault Refusal :=
  .next (if s.tstate t = fenced ∨ !s.bound t then s else fenceTile s t)

/-- A write of 1 to `TCTL.START` (R68, R72, R81, R102, R745): it starts a bound tile that has not started, at once or when its groups are ON; of a fenced
tile the attempt is logged. -/
def tctlStart (s : State) (t : Nat) : State :=
  if s.tstate t = fenced then s.logOp (Config.eventCode 64) t
  else if (s.tile t).started ∨ !s.bound t ∨ s.tstate t ≠ asleep then s
  else if groupsReady s t then startTile s t
  else s.modTile t fun x => { x with latchStart := true }

/-- TCTL_START. -/
def execTctlStart (t : Nat) (s : State) : Host.Outcome State Fault Refusal := .next (tctlStart s t)

/-- The registers of a tile that return to their reset values at a tile reset. DEDUCED (log 32). -/
def tileResetClears (t a : Nat) : Bool :=
  let lo := regAddr .tile t 0
  counterReg t 0 a || counterReg t 1 a || a == lo + R.TFAULT || a == lo + R.TFADDR || a == lo + R.TSTAT

/-- Tile reset (R73, R122, R166, R228, R258, R401, R653): all work and both contexts' registers are gone without a change of the scratchpad, open wickets and
queues close, landed counts clear, the array ramps down, the tile is asleep and not started; a fenced tile stays fenced. DEDUCED (log 32). -/
def tileReset (s : State) (t : Nat) : State :=
  let st := s.tstate t
  let s := s.modTile t resetTile
  let s := (List.range 16).foldl (fun s n =>
    (List.range 32).foldl (fun s k => s.setTf t (R.WKLAND_BYTES n k) 0) (closeQueue (closeWicket s t n) t n)) s
  let s := forceDown ((s.clearRegs (tileResetClears t)).setTf t R.TPWR_LENDS 0) t
  if st = fenced then s.setTstate t fenced else s

/-- TCTL_RESET. -/
def execTctlReset (t : Nat) (s : State) : Host.Outcome State Fault Refusal := .next (tileReset s t)

/-- NSCLR_SLOT (R221): the selected `NSTATn` of the active context. -/
def execNsclrSlot (t : Nat) (mask : BitVec 32) (s : State) : Host.Outcome State Fault Refusal :=
  .next (clearSlots s t (s.actx t) mask.toNat)

/-- NSCLR_CONE (R221, R411). -/
def execNsclrCone (t : Nat) (s : State) : Host.Outcome State Fault Refusal := .next (clearCone s t)

/-- CONETAG_WRITE (R692), to the active context's copy. -/
def execConetagWrite (t : Nat) (v : Word) (s : State) : Host.Outcome State Fault Refusal := .next (writeConetag s t (s.actx t) v)

/-! ### Barriers of a die (R235–R239) -/

/-- The release of a generation to the members on one die. -/
def releaseDie (s : State) (die g gen : Nat) : State :=
  (List.range 256).foldl (fun s i => (List.range 2).foldl (fun s c =>
    if s.tf (256 * die + i) (R.TBAR_MEMBER c g) = 1 then s.send (.release (256 * die + i) c g gen) else s) s) s

/-- DIE_BARRIER_ARRIVAL (R237, R286, R287): an arrival at a die group, or at the die's part of a package group, which then goes to GC 1. Only a group in use counts
arrivals, and only those of the generation after the last completed one. -/
def execDieBarrierArrival (die g gen : Nat) (s : State) : Host.Outcome State Fault Refusal :=
  let s := s.unwire (.arrive die g gen)
  .next (if g < 32 then
      let n := s.fld .die die (R.DBAR_ARRIVED g) + 1
      if s.fld .die die (R.DBAR_EN g) = 0 ∨ gen ≠ (s.fld .die die (R.DBAR_GEN g) + 1) % 256 then s
      else if n = s.fld .die die (R.DBAR_PARTS g) then
        releaseDie ((s.setFld .die die (R.DBAR_ARRIVED g) 0).setFld .die die (R.DBAR_GEN g) gen) die g gen
      else s.setFld .die die (R.DBAR_ARRIVED g) n
    else
      let p := g - 32
      let n := s.fld .die die (R.PBAR_ARRIVED p) + 1
      if s.fld .die die (R.PBAR_EN p) = 0 ∨ gen ≠ (s.fld .die die (R.PBAR_GEN p) + 1) % 256 then s else
      let s := s.setFld .die die (R.PBAR_ARRIVED p) n
      if n = s.fld .die die (R.PBAR_PARTS p) then s.send (.pkgArrive die g gen) else s)

/-- BARRIER_RELEASE (R237–R239, R243): a member sees a generation complete; a fenced tile's barrier state stays frozen (R72). DEDUCED (log 74). -/
def execBarrierRelease (t c g gen : Nat) (s : State) : Host.Outcome State Fault Refusal :=
  let s := s.unwire (.release t c g gen)
  .next (if s.tstate t = fenced then s else settle (s.setTf t (R.TBAR_DONEGEN c g) gen) t)

end Sys2Proof.Machine
end

