-- ==== Sys2Proof/Machine/Events.lean ====
section
/-!
DEFINITION. What several units of the part do on a loss: messages to the host, a fabric port that goes down (R422), the failure of a
gatehouse (R30, R517), the loss of the host (R508), and a router fault (R323–R325).
-/

namespace Sys2Proof.Machine

/-- The 64 ports, 8 GCs and 8 stacks are numbered from 0. -/
abbrev nPorts : Nat := 64

/-- An event that is logged and reported to the host. -/
def logAndTell (s : State) (code detail : Nat) : State := hostEvent (s.logOp code detail) code false detail

/-- A CTRL message to each of some devices. -/
def ctrlAll (s : State) (devs : List Nat) (kind len : Nat) (body : List Byte) : State :=
  devs.foldl (fun s d => sendCtrl s d kind len body .none) s

/-- The devices that have a path through a port, in either direction. -/
def peersThrough (s : State) (p : Nat) : List Nat :=
  ((s.sendPaths.filter fun e => e.2.port == some p).map fun e => e.1 / 64).eraseDups

/-- The port notice of a port (R743). -/
def portNoticeBody (s : State) (p : Nat) (back : Bool) : List Byte :=
  toBytes s.ownDev 2 ++ [.ofNat 8 p, .ofNat 8 (b2n back), .ofNat 8 (s.pf p R.FPSTAT_REASON)]

/-- A port goes down (R422): its reason is recorded, OP-0x0800 logged, and every device with a path through it is told. -/
def portGoesDown (s : State) (p reason : Nat) : State :=
  if s.pf p R.FPSTAT_STATE = 0 ∨ s.pf p R.FPSTAT_STATE = 3 then s
  else
    let peers := peersThrough s p
    let s := (s.setPf p R.FPSTAT_STATE 0).setPf p R.FPSTAT_REASON reason
    let s := { s.logOp 0x0800 p with portPeers := mput (fun _ => []) s.portPeers p peers }
    ctrlAll s peers 0x03 16 (portNoticeBody s p false)

/-- The loss of an LD: both of its ports go down (R30, R422). -/
def ldLost (s : State) (ld reason : Nat) : State := portGoesDown (portGoesDown s (2 * ld) reason) (2 * ld + 1) reason

/-- The failure of a gatehouse (R30, R517): it sends nothing further. -/
def ghFails (s : State) (n : Nat) : State :=
  { s with ghUp := s.ghUp.filter fun g => g ≠ n, ghFailed := if s.ghFailed.contains n then s.ghFailed else s.ghFailed ++ [n] }

/-- The loss of the host (R508): OP-0x0905; the device holds at the next step boundary, and a session that stands cannot resume it. -/
def hostIsLost (s : State) : State :=
  if s.hostGone then s
  else { s.logOp 0x0905 0 with hostGone := true, stepHold := true, chp := { s.chp with sessions := s.chp.sessions.map fun x => { x with old := true } } }

/-- `TCTL.HOLD` of every tile of a die. -/
def holdDie (s : State) (d : Nat) : State := (List.range 256).foldl (fun s i => s.setTf (256 * d + i) R.TCTL_HOLD 1) s

/-- `TCTL.HOLD` of every tile. -/
def holdAll (s : State) : State := (List.range 8).foldl holdDie s

/-- The release of every tile of a die that its `TCTL.HOLD` held. -/
def releaseTiles (s : State) (d : Nat) : State :=
  (List.range 256).foldl (fun s i => unhold (s.setTf (256 * d + i) R.TCTL_HOLD 0) (256 * d + i)) s

/-- A switch to the loaded detour set (R325, R327): it waits until the die's buffers are empty. -/
def armDetour (s : State) (d : Nat) : State :=
  if s.fld .die d R.RSCTL_ACTIVE = 1 then s
  else if dieIdle s d then ((s.setFld .die d R.RSCTL_ACTIVE 1).setFld .die d R.RSCTL_PENDING 0).logOp 0x0621 d
  else s.setFld .die d R.RSCTL_PENDING 1

/-- A router of a die fails (R323): the fault is recorded and reported, and the device leaves the job; what the gatehouse then does
waits for the next boundary. With a detour set active the device is unserviceable (R325). DEDUCED (log 43). -/
def routerFails (s : State) (d row col : Nat) : State :=
  let s := ((s.setFld .die d R.RSSTAT_RFAULT 1).setFld .die d R.RSSTAT_FROW row).setFld .die d R.RSSTAT_FCOL col
  let s := leaveJob (dieReport s d 0x0620 0 0 d (.ofNat 64 (row + 256 * col)) 0 true)
  if s.fld .die d R.RSCTL_ACTIVE = 1 then
    { (s.setFld .die d R.RSSTAT_SECOND 1).logOp 0x0622 d with unserviceable := true }
  else { s with detourDue := s.detourDue ++ [(d, row, col)] }

/-- One entry of a die's second route set (R329), under the access types of its fields. -/
def setEntry (s : State) (d n e : Nat) : State := storeReg s (regAddr .die d (R.RSENT n)) (.ofNat 64 e)

/-- A router on the image's list of failed routers. -/
def noteRouter (s : State) (r : Nat × Nat × Nat) : State :=
  { s with badRouters := if s.badRouters.contains r then s.badRouters else s.badRouters ++ [r] }

/-- Steps 1–4 of R323 for one failed router: the die's tiles are held, the repair record takes the position, the route set of the image
is loaded and armed. -/
def loadDetour (s : State) (r : Nat × Nat × Nat) : State :=
  let s := noteRouter (holdDie s r.1) r
  let es := (Config.detourSet s.image r.1 r.2.1 r.2.2).take 64
  let s := ((s.setFld .die r.1 R.RSCTL_AROW r.2.1).setFld .die r.1 R.RSCTL_ACOL r.2.2).setFld .die r.1 R.RSCTL_ENTRIES es.length
  let s := (List.range 64).foldl (fun s n => setEntry s r.1 n (es.getD n 0)) s
  armDetour s r.1

/-- What the gatehouse does at the boundary at which the aborted step ends (R323). DEDUCED (log 43). -/
def loadDetours (s : State) : State := s.detourDue.foldl loadDetour { s with detourDue := [] }

/-! ### The registers of a die's lease, and the reports that it holds -/

/-- The blocks that hold a `DLEASE` (R569, R739): 0–7 the GCs, 8–39 the LDs, 40 the HD. -/
def leaseBlock (n : Nat) : Block × Nat := if n < 8 then (.die, n) else if n < 40 then (.ld, n - 8) else (.hd, 0)

/-- A field of the `DLEASE` of a die. -/
def State.lf (s : State) (n : Nat) (f : Fld) : Nat := s.fld (leaseBlock n).1 (leaseBlock n).2 f

/-- The state with a field of the `DLEASE` of a die set. -/
def State.setLf (s : State) (n : Nat) (f : Fld) (v : Nat) : State := s.setFld (leaseBlock n).1 (leaseBlock n).2 f v

/-- Reports that a die holds enter its control queue while it has room. -/
def feedDie (s : State) (d : Nat) : Nat → State
  | 0 => s
  | k + 1 =>
    match mget (fun _ => []) s.cqHeld d with
    | [] => s
    | r :: rest =>
      if s.fld .die d R.DCQPTR_COUNT ≥ 64 then s
      else feedDie (putReport { s with cqHeld := mput (fun _ => []) s.cqHeld d rest } (regAddr .die d (R.DCQ 0 0)) (regAddr .die d R.DCQPTR) 64 r) d k

end Sys2Proof.Machine
end

