-- ==== Sys2Proof/Machine/Hbm.lean ====
section
/-!
DEFINITION. The memory controllers: placement (R336), stored blocks (R345–R348), the order of a tile's accesses (R340), the recovery of
a block (R349–R353), protected pages (R354–R356) and the stack's temperature and zero-fill (R335, R344).
-/

namespace Sys2Proof.Machine

/-! ### Placement and stored blocks -/

/-- Where a byte of HBM is kept in `State.mem`: by stack and offset. DEDUCED (log 14). -/
def hbmKey (s : State) (a : Nat) : Nat := (hbmPlace s a).1 * 2 ^ 36 + (hbmPlace s a).2

/-- The key of the block of an HBM address: stack · 2²⁴ + block. -/
def blockKey (s : State) (a : Nat) : Nat := hbmKey s a / 4096

/-- The 2 MiB page of a block key, within its stack. -/
def pageOf (bk : Nat) : Nat := bk / 512 % 32768

/-- The form and length of the block at an HBM address (R345). -/
def blockForm (s : State) (a : Nat) : Nat × Nat := mget (fun _ => (0, 4096)) s.blocks (blockKey s a)

/-- Bytes of HBM as stored, from an address, over blocks wherever they lie. -/
def hbmBytes (s : State) (a n : Nat) : List Byte := (pieces4k a n).flatMap fun (p, k) => s.rd (hbmKey s p) k

/-- Bytes at a package address of HBM or of a scratchpad. -/
def pkgBytes (s : State) (a n : Nat) : List Byte := if a < 0x80_0000_0000 then hbmBytes s a n else s.rd a n

/-- The MC of a stack beside its registers. -/
def State.mc (s : State) (k : Nat) : Mc := mget (fun _ => {}) s.mcs k

/-- The state with the MC of a stack set. -/
def State.setMc (s : State) (k : Nat) (m : Mc) : State := { s with mcs := mput (fun _ => {}) s.mcs k m }

/-- Whether a page of a stack is marked in `MCSHARDw`. -/
def isShard (s : State) (k page : Nat) : Bool := bitOf (s.reg (regAddr .mc k (R.MCSHARD (page / 64)))).toNat (page % 64)

/-- Whether a page of a stack is protected (R354); with the copier disabled none is (R483). -/
def isProt (s : State) (k page : Nat) : Bool :=
  s.fld .mc k R.TWCOPY_EN == 1 && bitOf (s.reg (regAddr .mc k (R.MCPROT (page / 64)))).toNat (page % 64)

/-- The state with a page's protection bit cleared. -/
def clearProt (s : State) (k page : Nat) : State :=
  let a := regAddr .mc k (R.MCPROT (page / 64))
  s.setReg a (wset (s.reg a) (page % 64) (page % 64) 0)

/-- A write of bytes within one block (R347, R348): a whole block takes its form, length and zeros beyond; a part of a DENSE block is
merged; a part of any other block is refused (none). -/
def hbmStore (s : State) (a : Nat) (blk : Option (Nat × Nat)) (data : List Byte) : Option State :=
  match blk with
  | some (f, n) =>
    some (({ s with blocks := mput (fun _ => (0, 4096)) s.blocks (blockKey s a) (f, n) }).wr (hbmKey s (a / 4096 * 4096)) (fitBytes 4096 (data.take n)))
  | none => if (blockForm s a).1 = 0 then some (s.wr (hbmKey s a) data) else none

/-- A write of a range, block by block: whole blocks as DENSE, parts merged; the addresses of the parts refused (R362). -/
def hbmWriteRange (s : State) (a : Nat) (data : List Byte) : State × List Nat :=
  (pieces4k a data.length).foldl (fun (r : State × List Nat) (pk : Nat × Nat) =>
    let bs := (data.drop (pk.1 - a)).take pk.2
    match hbmStore r.1 pk.1 (if pk.2 = 4096 then some (0, 4096) else none) bs with
    | some s => (s, r.2)
    | none => (r.1, r.2 ++ [pk.1 / 4096 * 4096])) (s, [])

/-- A write of a range whose refused parts stay unchanged. -/
def hbmPut (s : State) (a : Nat) (data : List Byte) : State := (hbmWriteRange s a data).1

/-! ### Pages -/

/-- A page as the staging buffer holds it. -/
def pageImage (s : State) (k page : Nat) : StagedPage :=
  let lo := k * 2 ^ 36 + page * 0x20_0000
  { page := page,
    cells := (s.mem.filter fun c => decide (lo ≤ c.1) && decide (c.1 < lo + 0x20_0000)).map fun c => (c.1 - lo, c.2),
    forms := (s.blocks.filter fun b => decide (lo / 4096 ≤ b.1) && decide (b.1 < lo / 4096 + 512)).map fun b => (b.1 - lo / 4096, b.2.1, b.2.2) }

/-- Pages in the staging buffer or on their way into it; it holds 8 MiB (R355). -/
def stageUsed (m : Mc) : Nat := m.staging.length + m.staged.length

/-- `TWCOPY.STAGED` kept at the pages staged. -/
def showStaged (s : State) (k : Nat) : State := s.setFld .mc k R.TWCOPY_STAGED (s.mc k).staged.length

/-- A page passes into the staging buffer and its bit clears. -/
def stagePage (s : State) (k page : Nat) : State :=
  let m := s.mc k
  showStaged (clearProt (s.setMc k { m with staged := m.staged ++ [pageImage s k page] }) k page) k

/-- Makes way for writes to a protected page by a unit that does not wait in a queue (R355): true when the page is free to be written. -/
def stageFor (s : State) (k page : Nat) : Bool × State :=
  if !isProt s k page then (true, s)
  else if stageUsed (s.mc k) < 4 then (true, stagePage s k page)
  else (false, s)

/-- A gatehouse's write to HBM (R347, R355): the protected pages that it touches pass into staging first; where the buffer is full it does not wait. DESIGN CHOICE (log 93). -/
def gatePut (s : State) (a : Nat) (data : List Byte) : State :=
  hbmPut ((pieces4k a data.length).foldl (fun s p => (stageFor s (hbmPlace s p.1).1 (pageOf (blockKey s p.1))).2) s) a data

/-! ### Recovery (R349–R353) -/

/-- Whether a page had an error within the 24 hours of calendar time before a moment of UTC (R351). DESIGN CHOICE (log 37). -/
def pageBad (m : Mc) (page now : Nat) : Bool := m.notes.any fun n => n.1 == page && decide (now ≤ n.2 + dayPs)

/-- An event of an MC or UU, reported in its GC's control queue and logged (R530). DEDUCED (log 44). -/
def mcEvent (s : State) (k code detail : Nat) : State := dieReport s k code 0 2 k (.ofNat 64 detail) 0 false

/-- A device fault of an MC (R29, R349, R351, R353). DESIGN CHOICE (log 12). -/
def mcFatal (s : State) (k : Nat) : State := leaveJob (s.setFld .mc k R.MCERR_FATAL 1)

/-- The record of the last checksum error. -/
def noteErr (s : State) (k a stage : Nat) : State :=
  (s.setFld .mc k R.MCEADDR_ADDR (a / 4096 * 4096)).setFld .mc k R.MCEADDR_STAGE stage

/-- Stage 1 with a clean reread (R349, R351). DEDUCED (log 44). -/
def stage1 (s : State) (k a : Nat) : State :=
  let s := noteErr (s.setFld .mc k R.MCERR_RECOVERED (satAdd (s.fld .mc k R.MCERR_RECOVERED) 1 0xFFFF)) k a 0
  let page := pageOf (blockKey s a)
  let m := s.mc k
  let m' := { m with notes := m.notes ++ [(page, s.utcPs)], due := if pageBad m page s.utcPs && !m.due.contains page then m.due ++ [page] else m.due }
  mcEvent (s.setMc k m') k 0x0700 (a / 4096 * 4096)

/-- Stage 4 (R349): the device leaves the job, and the page is retired before the device next reaches READY. DEDUCED (log 44). -/
def stage4 (s : State) (k a : Nat) : State :=
  let s := noteErr s k a 2
  let page := pageOf (blockKey s a)
  let m := s.mc k
  mcFatal (mcEvent (s.setMc k { m with due := if m.due.contains page then m.due else m.due ++ [page] }) k 0x0703 (a / 4096 * 4096)) k

/-- A page retired (R351): it takes a spare page and keeps its address; without one the device is unserviceable. DEDUCED (log 44). -/
def retirePage (s : State) (k page : Nat) : State :=
  let n := s.fld .mc k R.MCERR_RETIRED
  let m := s.mc k
  if n ≥ 32 then { mcFatal s k with unserviceable := true }
  else (s.setFld .mc k R.MCERR_RETIRED (n + 1)).setMc k { m with retired := m.retired ++ [page] }

/-- The retirements that are due at a boundary (R351); a protected page is staged first (R355). DEDUCED (log 44). -/
def retireDue (s : State) (k : Nat) : State :=
  let m := s.mc k
  m.due.foldl (fun s page =>
    let r := stageFor s k page
    if r.1 then
      let s := retirePage r.2 k page
      let m := s.mc k
      s.setMc k { m with due := m.due.filter fun p => p ≠ page, notes := m.notes.filter fun n => n.1 ≠ page }
    else s) s

/-! ### A tile's requests -/

/-- Whether two requests of a tile share a byte. -/
def reqOverlap (a b : HbmReq) : Bool :=
  let la := if a.blk.isSome then 4096 else a.len
  let lb := if b.blk.isSome then 4096 else b.len
  a.t == b.t && decide (a.addr < b.addr + lb) && decide (b.addr < a.addr + la)

/-- Whether an earlier request of the same tile keeps a read waiting (R340): a write that stands before it, or one that the MC has still to accept. -/
def readHeld (s : State) (q : HbmReq) : Bool :=
  ((s.wires.takeWhile fun w => decide (w ≠ .hbmRead q)).any (fun w => match w with | .hbmWrite p => reqOverlap p q | _ => false) &&
    s.wires.contains (.hbmRead q)) || (s.mc (hbmPlace s q.addr).1).writeWait.any fun p => reqOverlap p q

/-- Whether an earlier request of the same tile keeps a write waiting (R340). -/
def writeHeld (s : State) (q : HbmReq) : Bool :=
  (s.wires.takeWhile fun w => decide (w ≠ .hbmWrite q)).any (fun w => match w with
    | .hbmRead p => reqOverlap p q
    | .hbmWrite p => p.t == q.t && p.addr / 4096 == q.addr / 4096
    | _ => false) && s.wires.contains (.hbmWrite q)

/-- The answer of an MC to a write of a tile's DMA (R339); a fenced tile takes none (R72). -/
def writeDone (s : State) (q : HbmReq) (status : Nat) : State :=
  if s.tstate q.t = fenced then s
  else match (s.tile q.t).flights.find? fun f => f.id == q.flight with
  | some f => (match f.kind with
    | .dma j => settle (dmaPump (setJob s q.t q.flight { j with busy := j.busy - 1, worst := max j.worst status }) q.t) q.t
    | _ => s)
  | none => s

/-- Whether the MC of a block holds up accesses to it: the stack does not answer, its page is being retired, or the block is on its recovery path
(R351, R352). -/
def blockHeld (s : State) (a : Nat) : Bool :=
  let k := (hbmPlace s a).1
  let m := s.mc k
  let bk := blockKey s a
  s.fld .mc k R.MCSTAT_STATE ≠ 2 || m.lost || m.retiring == some (pageOf bk) || (m.path.any fun p => p.1 == bk)

/-- Whether the block of a request lies in a hole of the address map. -/
def hbmAddr (a : Nat) : Bool := decide (a < 0x80_0000_0000)

/-- What a read of a block delivers to the tile that asked: for a DMA load the block as it lands (R386), otherwise the bytes as stored; `none` for
a block that counts as a checksum mismatch. -/
def readOut (s : State) (q : HbmReq) : Option (List Byte) :=
  let f := (s.tile q.t).flights.find? fun f => f.id == q.flight
  let load := match f with | some f => (match f.kind with | .dma j => if j.op == 0 then some j.desc.raw else none | _ => none) | none => none
  let base := q.addr / 4096 * 4096
  let form := (blockForm s q.addr).1
  match load with
  | some raw => (landForm form raw (s.rd (hbmKey s base) 4096)).map fun bs => (bs.drop (q.addr - base)).take q.len
  | none => if form > 3 then none else some (s.rd (hbmKey s q.addr) q.len)

/-- The data of a read go to the tile that asked; a fenced tile takes none (R72). -/
def giveRead (s : State) (q : HbmReq) (data : List Byte) : State :=
  if s.tstate q.t = fenced then s else
  let off := match (s.tile q.t).flights.find? fun f => f.id == q.flight with
    | some f => (match f.kind with
      | .dma j =>
        let plane := j.desc.src + planeOff j.desc.len j.desc.form
        if j.op = 0 then (if j.desc.conv ∧ plane ≤ q.addr then planeOff j.desc.len j.desc.form + (q.addr - plane) else q.addr - j.desc.src)
        else if j.op = 1 then q.addr - j.ein else q.addr - j.desc.src
      | _ => 0)
    | none => 0
  settle (dmaPump (landRead s q.t q.flight off stOK data) q.t) q.t

/-- The on-die ECC status that comes with an access is counted (R334, R369); whether the stack corrected an error in it is a free value. DESIGN CHOICE (log 9). -/
def noteEcc (s : State) (k : Nat) : State :=
  let f := s.freeNat
  f.2.setFld .mc k R.MCSTAT_ECCCORR (satAdd (f.2.fld .mc k R.MCSTAT_ECCCORR) (f.1 % 2) 0xFFFF)

/-- HBM_READ_REQUEST (R334, R339, R340, R348, R349, R352). A read whose block recovers at no stage gets no data. -/
def execHbmReadRequest (q : HbmReq) (oc : ReadOutcome) (s : State) : Host.Outcome State Fault Refusal :=
  let k := (hbmPlace s q.addr).1
  .next (if !hbmAddr q.addr || blockHeld s q.addr || readHeld s q then s
    else
      let s := noteEcc (s.unwire (.hbmRead q)) k
      match readOut s q, oc with
      | some data, .ok => giveRead s q data
      | some data, .reread => giveRead (stage1 s k q.addr) q data
      | _, _ =>
        let s := mcEvent s k 0x0700 (q.addr / 4096 * 4096)
        if isShard s k (pageOf (blockKey s q.addr)) ∧ s.fld .ld 0 R.TWCFG_PAIREN = 1 then
          let m := s.mc k
          (mcEvent (s.setMc k { m with path := m.path ++ [(blockKey s q.addr, q)] }) k 0x0701 (q.addr / 4096 * 4096)).send
            (.twinAsk k (q.addr / 4096 * 4096) (s.fld .mc k R.UUSTAT_CSTEP))
        else stage4 (mcEvent s k 0x0701 (q.addr / 4096 * 4096)) k q.addr)

/-- TWIN_BLOCK_RETURN (R349): with the block the data are used and its page is copied to a spare page (stage 3), where there is one; without it the
path ends at stage 4. DEDUCED (log 45). -/
def execTwinBlockReturn (k a : Nat) (data : Option (List Byte)) (s : State) : Host.Outcome State Fault Refusal :=
  let s := s.unwire (.twinGive k a data)
  let bk := blockKey s a
  let m := s.mc k
  .next (match takeFirst (fun (p : Nat × HbmReq) => p.1 == bk) m.path with
    | none => s
    | some ((_, q), rest) =>
      let s := s.setMc k { m with path := rest }
      match data with
      | none => stage4 s k a
      | some bs =>
        let s := s.setFld .mc k R.MCERR_TWINREC (satAdd (s.fld .mc k R.MCERR_TWINREC) 1 0xFFFF)
        let s := (hbmStore s (a / 4096 * 4096) (some (0, 4096)) bs).getD s
        let s := giveRead s q ((bs.drop (q.addr % 4096)).take q.len)
        let s := mcEvent s k 0x0702 (a / 4096 * 4096)
        if s.fld .mc k R.MCERR_RETIRED < 32 then
          let m := s.mc k
          noteErr (s.setMc k { m with retiring := some (pageOf bk) }) k a 1
        else { mcFatal (noteErr s k a 3) k with unserviceable := true })

/-- PAGE_RETIREMENT_COMPLETE (R351): the page's remap entry switches. -/
def execPageRetirementComplete (k : Nat) (s : State) : Host.Outcome State Fault Refusal :=
  .next (match (s.mc k).retiring with
    | none => s
    | some page =>
      let r := stageFor s k page
      if !r.1 then s
      else
        let s := retirePage r.2 k page
        let m := s.mc k
        s.setMc k { m with retiring := none })

/-- An accepted write of a tile (R334, R339, R348). -/
def acceptHbm (s : State) (q : HbmReq) : State :=
  let s := noteEcc s (hbmPlace s q.addr).1
  match hbmStore s q.addr q.blk q.data with
  | some s => writeDone s q stOK
  | none => writeDone s q stACCESS

/-- HBM_WRITE_REQUEST (R339, R340, R348, R355, R356): a write to a protected page waits until the page has passed into staging. -/
def execHbmWriteRequest (q : HbmReq) (s : State) : Host.Outcome State Fault Refusal :=
  let k := (hbmPlace s q.addr).1
  let page := pageOf (blockKey s q.addr)
  .next (if !hbmAddr q.addr || blockHeld s q.addr || writeHeld s q then s
    else if isProt s k page then
      let m := s.mc k
      if m.staging.contains page then (s.unwire (.hbmWrite q)).setMc k { m with writeWait := m.writeWait ++ [q] }
      else if stageUsed m < 4 then
        (s.unwire (.hbmWrite q)).setMc k { m with staging := m.staging ++ [page], writeWait := m.writeWait ++ [q] }
      else s
    else acceptHbm (s.unwire (.hbmWrite q)) q)

/-- PROTECTED_PAGE_STAGED (R355, R356): the first page that is being read passes into staging, its bit clears, and the writes that wait
for it are accepted in order. -/
def execProtectedPageStaged (k : Nat) (s : State) : Host.Outcome State Fault Refusal :=
  let m := s.mc k
  .next (match m.staging with
    | [] => s
    | page :: rest =>
      let mine := fun (q : HbmReq) => (hbmPlace s q.addr).1 == k && pageOf (blockKey s q.addr) == page
      let s := s.setMc k { m with staging := rest, writeWait := m.writeWait.filter fun q => !mine q }
      let s := if isProt s k page then stagePage s k page else s
      (m.writeWait.filter mine).foldl acceptHbm s)

/-! ### The stack -/

/-- STACK_TEMPERATURE_POLL (R334, R344): doubled refresh above 85 °C; half-rate admission above 95 °C until 90 °C or below. -/
def execStackTemperaturePoll (k temp : Nat) (s : State) : Host.Outcome State Fault Refusal :=
  let was := s.fld .mc k R.MCSTAT_THROTTLE
  let s := (s.setFld .mc k R.MCSTAT_TEMP (min temp 255)).setFld .mc k R.MCSTAT_REFX2 (b2n (decide (temp > 85)))
  .next (if temp > 95 then
      let s := s.setFld .mc k R.MCSTAT_THROTTLE 1
      if was = 0 then mcEvent s k 0x0711 temp else s
    else if temp ≤ 90 then s.setFld .mc k R.MCSTAT_THROTTLE 0
    else s)

/-- STACK_LOST (R353): a device fault; the manual gives its report no event code. -/
def execStackLost (k : Nat) (s : State) : Host.Outcome State Fault Refusal :=
  .next (if (s.mc k).lost then s
    else mcFatal (dieReport (s.setMc k { s.mc k with lost := true }) k (Config.eventCode 65) 0 2 k (.ofNat 64 k) 0 true) k)

/-- A stack whose every block is DENSE zeros (R335). -/
def zeroStack (s : State) (k : Nat) : State :=
  { s with mem := mdrop (fun a => decide (k * 2 ^ 36 ≤ a) && decide (a < (k + 1) * 2 ^ 36)) s.mem,
           blocks := mdrop (fun b => decide (k * 2 ^ 24 ≤ b) && decide (b < (k + 1) * 2 ^ 24)) s.blocks }

/-- STACK_ZERO_FILL_COMPLETE (R335). -/
def execStackZeroFillComplete (k : Nat) (s : State) : Host.Outcome State Fault Refusal :=
  .next (if s.fld .mc k R.MCSTAT_ZEROING = 1 then (zeroStack s k).setFld .mc k R.MCSTAT_ZEROING 0 else s)

end Sys2Proof.Machine
end

