-- ==== Sys2Proof/Machine/Uu.lean ====
section
/-!
DEFINITION. The update units (R357–R366) and the copier (R479–R483): the gate, one commit, its notification, and the snapshot
generations that follow it.
-/

namespace Sys2Proof.Machine

/-! ### binary32 arithmetic, each operation rounded to nearest (R361) -/

def f32mul (a b : Nat) : Nat := fp32.near ((fp32.decode a).mul (fp32.decode b))
def f32div (a b : Nat) : Nat := fp32.near ((fp32.decode a).div (fp32.decode b))
def f32sqrt (a : Nat) : Nat := fp32.near (fp32.decode a).sqrt

/-- The code of 1.0. -/
abbrev f32one : Nat := 0x3F80_0000

/-- A BF16 code widened. -/
def widen (b : Nat) : Nat := b * 65536

/-- RoundNearest to BF16 (R183). -/
def toBf16 (a : Nat) : Nat := bf16.near (fp32.decode a)

/-- Whether a binary32 code is finite. -/
def f32finite (a : Nat) : Bool := bits a 30 23 != 255

/-! ### The plan, its rules and one parameter (R357–R361) -/

/-- A segment descriptor (R358). -/
structure Seg where
  state : Nat
  grad : Nat
  work : Nat
  groups : Nat
  rule : Nat
  wfmt : Nat
  hist : Nat
  deriving DecidableEq, Repr

/-- The segments of a stack's plan. -/
def planOf (s : State) (k : Nat) : List Seg :=
  (List.range (s.fld .mc k R.UUPLAN_COUNT)).map fun i =>
    let bs := pkgBytes s (s.fld .mc k R.UUPLAN_BASE + 32 * i) 32
    { state := numAt bs 8 0 % 2 ^ 40, grad := numAt bs 8 1 % 2 ^ 40, work := numAt bs 8 2 % 2 ^ 40, groups := numAt bs 2 12,
      rule := (bs.getD 26 0).toNat % 16, wfmt := (bs.getD 27 0).toNat, hist := numAt bs 2 14 % 4096 }

/-- A rule record with the values of one commit (R359, R361). -/
structure Rule where
  kind : Nat
  nesterov : Bool
  b1 : Nat
  b2 : Nat
  eps : Nat
  wd : Nat
  b1t : Nat
  b2t : Nat
  lr : Nat
  deriving DecidableEq, Repr

/-- The address of a rule record. -/
def ruleAddr (s : State) (k r : Nat) : Nat := s.fld .mc k R.UURULE_BASE + 64 * r

/-- A rule record as read for step `t`, with the step's B1T and B2T. -/
def ruleFor (s : State) (k t r : Nat) : Rule :=
  let bs := pkgBytes s (ruleAddr s k r) 64
  let kind := (bs.getD 0 0).toNat % 4
  let i := min t (max (numAt bs 4 7) 1 - 1)
  let lr := ofBytes (pkgBytes s (numAt bs 8 4 % 2 ^ 40 + 4 * i) 4)
  let b1 := numAt bs 4 1
  let b2 := numAt bs 4 2
  { kind := kind, nesterov := bitOf (bs.getD 0 0).toNat 2, b1 := b1, b2 := b2, eps := numAt bs 4 3, wd := numAt bs 4 4,
    b1t := if kind = 0 then f32mul (numAt bs 4 5) b1 else numAt bs 4 5,
    b2t := if kind = 0 then f32mul (numAt bs 4 6) b2 else numAt bs 4 6, lr := lr }

/-- One parameter (R361): weight, moments and gradient to the new weight and moments. -/
def updateParam (r : Rule) (clip w m v g : Nat) : Nat × Nat × Nat :=
  let g := f32mul g clip
  let ob1 := f32sub f32one r.b1
  let ob2 := f32sub f32one r.b2
  let x := widen m
  let res : Nat × Nat × Nat :=
    match r.kind with
    | 0 =>
      let m1 := f32add (f32mul r.b1 x) (f32mul ob1 g)
      let v1 := f32add (f32mul r.b2 (widen v)) (f32mul ob2 (f32mul g g))
      let c1 := f32div f32one (f32sub f32one r.b1t)
      let c2 := f32div f32one (f32sub f32one r.b2t)
      (f32div (f32mul m1 c1) (f32add (f32sqrt (f32mul v1 c2)) r.eps), toBf16 m1, toBf16 v1)
    | 1 =>
      let m1 := f32add (f32mul r.b1 x) g
      (if r.nesterov then f32add g (f32mul r.b1 m1) else m1, toBf16 m1, v)
    | 2 =>
      let q := fp32.decode (f32add (f32mul r.b1 x) (f32mul ob1 g))
      let m1 := f32add (f32mul r.b2 x) (f32mul ob2 g)
      (if Num.lt .zero q then f32one else if q.lt .zero then 0xBF80_0000 else 0, toBf16 m1, v)
    | _ => (g, m, v)
  (f32sub w (f32mul r.lr (f32add res.1 (f32mul r.wd w))), res.2.1, res.2.2)

/-- One group of 1,024 parameters: the new 8 KiB of state and the new weights that are not finite. -/
def updateGroup (r : Rule) (clip : Nat) (st gr : List Byte) : List Byte × Nat :=
  let ps := (List.range 1024).map fun i => updateParam r clip (numAt st 4 i) (numAt (st.drop 4096) 2 i) (numAt (st.drop 6144) 2 i) (numAt gr 4 i)
  ((ps.map fun p => toBytes p.1 4).flatten ++ (ps.map fun p => toBytes p.2.1 2).flatten ++ (ps.map fun p => toBytes p.2.2 2).flatten,
   (ps.filter fun p => !f32finite p.1).length)

/-- Up to `n` groups of a segment updated, from group `i` upward; the non-finite weights. -/
def updateGroups (s : State) (sg : Seg) (r : Rule) (clip : Nat) (i : Nat) : Nat → State × Nat
  | 0 => (s, 0)
  | n + 1 =>
    let g := updateGroup r clip (hbmBytes s (sg.state + 8192 * i) 8192) (pkgBytes s (sg.grad + 4096 * i) 4096)
    let rest := updateGroups (hbmPut s (sg.state + 8192 * i) g.1) sg r clip (i + 1) n
    (rest.1, rest.2 + g.2)

/-! ### Working copies and the scale history (R190, R193, R362, R363) -/

/-- The address of a scale history record. -/
def histAddr (s : State) (k r : Nat) : Nat := s.fld .mc k R.UUHIST_BASE + 32 * r

/-- The working copy of a segment: its bytes, the largest amax exponent and the saturations of its conversions. DEDUCED (log 45). -/
def workingCopy (s : State) (k : Nat) (sg : Seg) : List Byte × Option Int × Nat :=
  let n := 1024 * sg.groups
  let w := fun (i : Nat) => fp32.decode (ofBytes (hbmBytes s (sg.state + 8192 * (i / 1024) + 4 * (i % 1024)) 4))
  if sg.wfmt = 2 then (((List.range n).map fun i => toBytes (bf16.near (w i)) 2).flatten, none, 0)
  else
    let h := pkgBytes s (histAddr s k sg.hist) 32
    let ceil := sextInt (h.getD 5 0).toNat 8
    let warm := (h.getD 6 0).toNat != 0
    let bs := (List.range (n / 32)).map fun j =>
      convertBlock 3 0 warm ceil ⟨0, 0, 0, 0⟩ ((List.range 32).map fun i => w (32 * j + i))
    ((bs.map fun b => b.codes.map fun c => BitVec.ofNat 8 c).flatten ++ bs.map (fun b => BitVec.ofNat 8 b.scale),
     bs.foldl (fun (a : Option Int) b => match a, b.e with | none, e => e | some x, none => some x | some x, some y => some (max x y)) none,
     (bs.map BlockOut.sat).foldl (· + ·) 0)

/-- An amax exponent as an 8-bit field holds it (R740): −128 for none. -/
def histField (e : Option Int) : Int :=
  match e with
  | none => -128
  | some e => max e (-127)

/-- One scale history record updated (R193) with the step's results. -/
def histUpdate (h : List Byte) (m : Int) (sat : Nat) : List Byte :=
  let cls := (h.getD 4 0).toNat % 8
  let tf := targetExp (if bits (h.getD 4 0).toNat 4 3 = 1 then 5 else 3)
  let hr := headRoom cls
  let ceil := sextInt (h.getD 5 0).toNat 8
  let warm := (h.getD 6 0).toNat
  let ptr := (h.getD 7 0).toNat % 16
  let hist := (List.range 16).map fun i => sextInt (h.getD (8 + i) 0).toNat 8
  let out := fun (ceil : Int) (warm : Nat) (hist : List Int) =>
    h.take 5 ++ [BitVec.ofNat 8 (wrap ceil 8), BitVec.ofNat 8 warm, BitVec.ofNat 8 ((ptr + 1) % 16)] ++
      hist.map (fun e => BitVec.ofNat 8 (wrap e 8)) ++ h.drop 24
  if warm = 0 ∧ sat > 0 then
    let c := min (ceil + 1) 127
    out c warm (hist.set ptr (min 127 (c - 2 + tf - hr)))
  else
    let hist := hist.set ptr m
    let warm := warm - 1
    if warm = 0 then
      let some_ := hist.filter fun e => e != -128
      if some_.isEmpty then out 127 warm hist
      else out (max (-127) (min 127 (some_.foldl max (-127) + 2 - tf + hr))) warm hist
    else out ceil warm hist

/-- The records FIRST–LAST of a stack updated in ascending order, with the results table and the unit's own conversions. -/
def updateHist (s : State) (k : Nat) (own : List (Nat × Option Int × Nat)) : State :=
  let first := s.fld .mc k R.UUHIST_FIRST
  let last := s.fld .mc k R.UUHIST_LAST
  ((List.range (last + 1 - first)).map (first + ·)).foldl (fun s r =>
    let e := ofBytes (pkgBytes s (s.fld .mc k R.UURES_BASE + 8 * r) 8)
    let mine := own.filter fun o => o.1 == r
    let m := mine.foldl (fun (m : Int) o => max m (histField o.2.1)) (sextInt (bits e 7 0) 8)
    let sat := mine.foldl (fun n o => n + o.2.2) (bits e 47 16)
    hbmPut s (histAddr s k r) (histUpdate (pkgBytes s (histAddr s k r) 32) m sat)) s

/-! ### A commit (R361) -/

/-- The working copy of a segment written, whole blocks and parts (R362); a refused part is reported, and the commit goes on. -/
def writeWork (s : State) (k : Nat) (sg : Seg) : State × List (Nat × Option Int × Nat) :=
  if sg.wfmt = 0 then (s, [])
  else
    let c := workingCopy s k sg
    let r := hbmWriteRange s sg.work c.1
    (r.2.foldl (fun s a => hostEvent (mcEvent s k 0x0724 a) 0x0724 false a) r.1, if sg.wfmt = 1 then [(sg.hist, c.2.1, c.2.2)] else [])

/-- The rule records that a plan names, each once, with the values of the step. -/
def rulesOf (s : State) (k t : Nat) (plan : List Seg) : List (Nat × Rule) :=
  ((plan.map Seg.rule).eraseDups).map fun r => (r, ruleFor s k t r)

/-- The rule of a segment. -/
def ruleIn (rs : List (Nat × Rule)) (n : Nat) : Rule := ((rs.find? fun r => r.1 == n).map (·.2)).getD ⟨3, false, 0, 0, 0, 0, 0, 0, 0⟩

/-- Steps 2–4 of R361 but for protection and CSTEP. -/
def commitWrites (s : State) (k t : Nat) : State :=
  let plan := planOf s k
  let clip := s.fld .mc k R.UUCLIP_CLIP
  let rs := rulesOf s k t plan
  let r := plan.foldl (fun (r : State × Nat × List (Nat × Option Int × Nat)) sg =>
    let u := updateGroups r.1 sg (ruleIn rs sg.rule) clip 0 sg.groups
    let w := writeWork u.1 k sg
    (w.1, r.2.1 + u.2, r.2.2 ++ w.2)) (s, 0, [])
  let s := r.1
  let s := if r.2.1 = 0 then s
    else mcEvent (s.setFld .mc k R.UUCNT_NONFINITE (satAdd (s.fld .mc k R.UUCNT_NONFINITE) r.2.1 (2 ^ 32 - 1))) k 0x0720 r.2.1
  let s := updateHist s k r.2.2
  rs.foldl (fun s e => hbmPut s (ruleAddr s k e.1 + 20) (toBytes e.2.b1t 4 ++ toBytes e.2.b2t 4)) s

/-- The 2 MiB pages of an HBM range: stack and page. -/
def pagesIn (s : State) (a n : Nat) : List (Nat × Nat) :=
  if n = 0 then []
  else (List.range ((a + n - 1) / 0x20_0000 + 1 - a / 0x20_0000)).map fun i =>
    let p := max a ((a / 0x20_0000 + i) * 0x20_0000)
    ((hbmPlace s p).1, pageOf (blockKey s p))

/-- The pages that a commit writes. -/
def commitPages (s : State) (k : Nat) : List (Nat × Nat) :=
  let plan := planOf s k
  (plan.flatMap (fun sg => pagesIn s sg.state (8192 * sg.groups) ++
      (if sg.wfmt = 0 then [] else pagesIn s sg.work (if sg.wfmt = 2 then 2048 * sg.groups else 1056 * sg.groups))) ++
    pagesIn s (s.fld .mc k R.UURULE_BASE) 1024 ++
    pagesIn s (histAddr s k (s.fld .mc k R.UUHIST_FIRST)) (32 * (s.fld .mc k R.UUHIST_LAST + 1 - s.fld .mc k R.UUHIST_FIRST))).eraseDups

/-- The protected pages among some pages are staged (R355), as far as the staging buffers have room: whether all are free. -/
def stageAll (s : State) (ps : List (Nat × Nat)) : Bool × State :=
  ps.foldl (fun (r : Bool × State) p => let q := stageFor r.2 p.1 p.2; (r.1 && q.1, q.2)) (true, s)

/-- Whether every gradient of a plan answers a read (R366). -/
def gradsOk (s : State) (k : Nat) : Bool :=
  (planOf s k).all fun sg =>
    if sg.grad < 0x80_0000_0000 then true
    else
      let n := 4096 * sg.groups
      let t := (sg.grad - spadAddr 0 0) / 0x20_0000
      let off := sg.grad - spadAddr t 0
      kindAt s sg.grad n == .spad && s.tstate t != fenced &&
        (List.range 8).all fun g => decide (g < off / 0x4_0000) || decide ((off + n - 1) / 0x4_0000 < g) || groupState s t g == 2

/-! ### The copier (R476–R483) -/

/-- The marked pages of a stack in ascending order. -/
def shardPages (s : State) (k : Nat) : List Nat := (List.range 32768).filter fun p => isShard s k p

/-- CRC-32C of a stored block (R346). -/
def blockCrc (form len : Nat) (bs : List Byte) : BitVec 32 := .ofNat 32 (crc32c (bs.take len ++ [.ofNat 8 form] ++ toBytes len 2))

/-- A JWRITE of the copier of a stack to its partner (R480, R747). -/
def copierWrite (s : State) (k addr : Nat) (blk : Option BlockMeta) (data : List Byte) : State :=
  let dev := s.fld .ld 0 R.TWCFG_PARTNER
  cxtEmit s dev (8 * k) roleTWIN { baseHdr s opJWRITE dev (8 * k) with addr := addr } blk data (.copier k)

/-- The slot's header (R477). -/
def copierHeader (s : State) (k : Nat) (complete : Bool) : State :=
  let slot := s.fld .mc k R.TWCOPY_SLOT
  let sent := s.fld .mc k R.TWSIZE_PAGES - s.fld .mc k R.TWCOPY_LEFT
  copierWrite s k (s.fld .mc k R.TWREGION_BASE + 16 * slot) none
    (toBytes (s.fld .mc k R.TWCOPY_GEN + b2n complete * 2 ^ 32 + sent % 2 ^ 16 * 2 ^ 33) 16)

/-- GENERATION_START (R479, R482, R483): protection is set and a generation of step `t` starts; with the copier disabled nothing
happens. -/
def startGeneration (s : State) (k t : Nat) : State :=
  if s.fld .mc k R.TWCOPY_EN = 0 then s
  else
    let s := (List.range 512).foldl (fun s w => s.setReg (regAddr .mc k (R.MCPROT w)) (s.reg (regAddr .mc k (R.MCSHARD w)))) s
    let s := (s.setFld .mc k R.TWCOPY_GEN t).setFld .mc k R.TWCOPY_STATE 1
    copierHeader (s.setFld .mc k R.TWCOPY_LEFT (shardPages s k).length) k false

/-- One page sent (R480): 512 blocks with their metadata, to its place in the slot (R476). -/
def sendPage (s : State) (k : Nat) (pg : StagedPage) : State :=
  let rank := ((shardPages s k).takeWhile fun p => p != pg.page).length
  let base := s.fld .mc k R.TWREGION_BASE + 0x20_0000 * (1 + s.fld .mc k R.TWCOPY_SLOT * s.fld .mc k R.TWSIZE_PAGES + rank)
  let s := (List.range 512).foldl (fun s b =>
    let f := ((pg.forms.find? fun f => f.1 == b).map (·.2)).getD (0, 4096)
    let bs := (List.range 4096).map fun i => ((pg.cells.find? fun c => c.1 == 4096 * b + i).map (·.2)).getD 0
    copierWrite s k (base + 4096 * b) (some ⟨blockCrc f.1 f.2 bs, f.1, f.2⟩) bs) s
  s.setFld .mc k R.TWCOPY_LEFT (s.fld .mc k R.TWCOPY_LEFT - 1)

/-- COPIER_PAGE_SEND (R480): a staged page first, otherwise the lowest protected page, whose bit clears. -/
def execCopierPageSend (k : Nat) (s : State) : Host.Outcome State Fault Refusal :=
  let m := s.mc k
  .next (if s.fld .mc k R.TWCOPY_STATE ≠ 1 then s
    else match m.staged with
      | pg :: rest => sendPage (showStaged (s.setMc k { m with staged := rest }) k) k pg
      | [] => match (shardPages s k).find? fun p => isProt s k p && !m.staging.contains p with
        | some p => sendPage (clearProt s k p) k (pageImage s k p)
        | none => s)

/-- Whether a packet of a stack's copier awaits its acknowledgement. -/
def copierBusy (s : State) (k : Nat) : Bool :=
  s.sendPaths.any fun e => (e.2.unacked ++ e.2.waiting).any fun p => p.who == .copier k

/-! ### The end of a commit (R361, R365) -/

/-- UU_NOTIFICATION (R365): one descriptor to the queue that `UUNOTIFY` names. DEDUCED (log 45). -/
def notifyStep (s : State) (k t : Nat) (skipped : Bool) : State :=
  if s.fld .mc k R.UUNOTIFY_VALID = 0 then s
  else
    let dst := s.fld .mc k R.UUNOTIFY_TILE
    s.post (.desc dst { queue := s.fld .mc k R.UUNOTIFY_QUEUE, chan := 64 + k, sender := ⟨s.ownDev, 0, true⟩, epoch := s.fld .mc k R.UUNOTIFY_EPOCH,
                        desc := ⟨.ofNat 64 t, .ofNat 64 (b2n skipped), 0, 0⟩, payload := [], tag := 2 ^ 32 + k })

/-- Step 5 of R361 after a commit or a skip of step `t`. -/
def endStep (s : State) (k t : Nat) (skipped : Bool) : State :=
  let s := (s.setFld .mc k R.UUSTAT_CSTEP t).setFld .mc k R.UUSTAT_LASTSKIP (b2n skipped)
  notifyStep ((s.setFld .mc k R.UUGATE_VALID 0).setFld .mc k R.UUSTAT_STATE 0) k t skipped

/-- A commit whose writes are done ends once the copier is idle (R479). DEDUCED (log 45). -/
def finishCommit (s : State) (k : Nat) : State :=
  if s.fld .mc k R.UUSTAT_STATE = 3 ∧ (s.fld .mc k R.TWCOPY_STATE ≠ 1 ∨ s.fld .mc k R.TWCOPY_EN = 0) then
    let t := s.fld .mc k R.UUGATE_STEP
    endStep (startGeneration s k t) k t false
  else s

/-- The unit stops (R366): the device leaves the job. -/
def stopUu (s : State) (k : Nat) : State := leaveJob (s.setFld .mc k R.UUSTAT_STATE 4)

/-- The records of a stack that enter warm-up with a commit (R196, R210): OP-0x0550 with their count. DEDUCED (log 88). -/
def logWarm (s : State) (k : Nat) : State :=
  let first := s.fld .mc k R.UUHIST_FIRST
  let n := ((List.range (s.fld .mc k R.UUHIST_LAST + 1 - first)).filter fun i => ((pkgBytes s (histAddr s k (first + i)) 32).getD 6 0).toNat == 16).length
  if n = 0 then s else s.logOp 0x0550 n

/-- UU_COMMIT_END (R361, R362, R479): a skip ends; a commit writes once the protected pages it writes are staged, and ends once the copier
is idle. A gradient that answers no read stops the unit (R366). DEDUCED (log 88). -/
def execUuCommitEnd (k : Nat) (s : State) : Host.Outcome State Fault Refusal :=
  let t := s.fld .mc k R.UUGATE_STEP
  .next (if s.fld .mc k R.UUSTAT_STATE = 3 then finishCommit s k
    else if s.fld .mc k R.UUSTAT_STATE ≠ 1 then s
    else if s.fld .mc k R.UUGATE_SKIP = 1 then
      endStep (s.setFld .mc k R.UUCNT_SKIPPED (satAdd (s.fld .mc k R.UUCNT_SKIPPED) 1 (2 ^ 32 - 1))) k t true
    else if !gradsOk s k then stopUu s k
    else
      let r := stageAll s (commitPages s k)
      if !r.1 then r.2
      else finishCommit ((commitWrites (logWarm r.2 k) k t).setFld .mc k R.UUSTAT_STATE 3) k)

/-- GENERATION_COMPLETE (R480): every block is acknowledged; the header is written with COMPLETE, the slot toggles, and a commit that
waits for the copier ends (R479). -/
def execGenerationComplete (k : Nat) (s : State) : Host.Outcome State Fault Refusal :=
  let m := s.mc k
  .next (if s.fld .mc k R.TWCOPY_STATE = 1 ∧ s.fld .mc k R.TWCOPY_LEFT = 0 ∧ m.staged.isEmpty ∧ m.staging.isEmpty ∧ !copierBusy s k then
      let s := copierHeader s k true
      finishCommit ((s.setFld .mc k R.TWCOPY_SLOT (1 - s.fld .mc k R.TWCOPY_SLOT)).setFld .mc k R.TWCOPY_STATE 0) k
    else s)

/-- `TWCOPY.EN` (R483): cleared, nothing is protected or staged, the writes that waited are accepted, and the wait of R479 ends. -/
def setCopier (s : State) (k : Nat) (en : Bool) : State :=
  if en then
    let s := s.setFld .mc k R.TWCOPY_EN 1
    if s.fld .mc k R.TWCOPY_STATE = 2 then s.setFld .mc k R.TWCOPY_STATE 0 else s
  else
    let m := s.mc k
    let s := ((s.setFld .mc k R.TWCOPY_EN 0).setFld .mc k R.TWCOPY_STATE 2).setFld .mc k R.TWCOPY_LEFT 0
    let s := (List.range 512).foldl (fun s w => s.setReg (regAddr .mc k (R.MCPROT w)) 0) s
    let s := showStaged (s.setMc k { m with staged := [], staging := [], writeWait := [] }) k
    finishCommit (m.writeWait.foldl acceptHbm s) k

/-- TWCOPY_EN_WRITE. -/
def execTwcopyEnWrite (k : Nat) (en : Bool) (s : State) : Host.Outcome State Fault Refusal := .next (setCopier s k en)

/-! ### The gate (R360) -/

/-- Whether a clip factor is a finite value in (0, 1]. -/
def clipOk (c : Nat) : Bool := decide (0 < c) && decide (c ≤ f32one)

/-- A write of `UUGATE` (R360): with VALID at 1 it offers a gate, which is taken or refused. -/
def writeGate (s : State) (k : Nat) (v : Word) : State :=
  let st := s.fld .mc k R.UUSTAT_STATE
  let a := regAddr .mc k R.UUGATE
  let refused := fun (s : State) => mcEvent (s.setFld .mc k R.UUSTAT_GATEERR 1) k 0x0722 (wget v 31 0)
  if st = 1 ∨ st = 2 ∨ st = 3 then (if wget v 33 33 = 1 then refused s else s)
  else
    let s := storeReg s a v
    if wget v 33 33 = 0 then s
    else if s.fld .mc k R.MCCFG_UUEN = 1 ∧ st = 0 ∧ wget v 31 0 = (s.fld .mc k R.UUSTAT_CSTEP + 1) % 2 ^ 32 ∧
        clipOk (s.fld .mc k R.UUCLIP_CLIP) then (s.setFld .mc k R.UUSTAT_STATE 1).setFld .mc k R.UUSTAT_SEG 0
    else refused (s.setFld .mc k R.UUGATE_VALID 0)

/-- UUGATE_WRITE. -/
def execUugateWrite (k : Nat) (v : Word) (s : State) : Host.Outcome State Fault Refusal := .next (writeGate s k v)

/-- The first groups of a plan updated, as far as a stopped commit has come. DEDUCED (log 45). -/
def partialCommit (s : State) (clip : Nat) (rs : List (Nat × Rule)) : Nat → List Seg → State
  | _, [] => s
  | n, sg :: rest =>
    let u := updateGroups s sg (ruleIn rs sg.rule) clip 0 (min n sg.groups)
    if n < sg.groups then u.1 else partialCommit u.1 clip rs (n - sg.groups) rest

/-- UU_STOP (R366): a commit in progress has updated some of its groups, how many the manual does not say; the unit stops. -/
def execUuStop (k : Nat) (s : State) : Host.Outcome State Fault Refusal :=
  .next (if s.fld .mc k R.UUSTAT_STATE = 1 ∧ s.fld .mc k R.UUGATE_SKIP = 0 then
      let plan := planOf s k
      let f := s.freeNat
      let n := f.1 % ((plan.map Seg.groups).foldl (· + ·) 0 + 1)
      stopUu (partialCommit f.2 (s.fld .mc k R.UUCLIP_CLIP) (rulesOf s k (s.fld .mc k R.UUGATE_STEP) plan) n plan) k
    else if s.fld .mc k R.UUSTAT_STATE = 4 then s
    else stopUu s k)

end Sys2Proof.Machine
end

