-- ==== Sys2Proof/Machine/Cxt.lean ====
section
/-!
DEFINITION. The receiving side of CXT (R423–R433, R749, R750): the checks of R430, delivery in the order of a path, acknowledgements,
grants and retransmission, and the operations that reach a tile or HBM.
-/

namespace Sys2Proof.Machine

/-! ### Ports and counts -/

/-- A 16-bit count of `CXCNT` of a port's LD raised by 1 (R469). -/
def cxCount (s : State) (port : Nat) (f : Fld) : State :=
  s.setFld .ld (port / 2) f (satAdd (s.fld .ld (port / 2) f) 1 0xFFFF)

/-- Whether sequence number `a` lies before `b`, modulo 2³². -/
def psnBefore (a b : Nat) : Bool := a != b && decide ((b + 2 ^ 32 - a) % 2 ^ 32 < 2 ^ 31)

/-- The acknowledgement of a path's packets (R749): cumulative, selective, and with a status for the packet whose PSN it names. DEDUCED (log 48). -/
def sendAck (s : State) (port dev idx status : Nat) (ce : Bool) : State :=
  cxtPlain s port { baseHdr s opACK dev idx with tag := status, ecn := ce } []

/-- An answer to a packet that no path of the present generation takes (R430, checks 2 and 3). -/
def sendStale (s : State) (p : CxtPkt) : State :=
  cxtPlain s p.port { baseHdr s opACK p.hdr.sdev p.hdr.path with ack := p.hdr.psn, sack := 0, tag := stSTALE_EPOCH } []

/-- Whether an operation takes a number of its path (R427); acknowledgements, grants and heartbeats do not. DEDUCED (log 46). -/
def numbered (op : Nat) : Bool := !(op == opACK || op == opGRANT || op == opHEARTBEAT)

/-! ### Grants (R428) -/

/-- Bytes granted on an LD and not received. -/
def grantedOn (s : State) (ld : Nat) : Nat :=
  ((s.recvPaths.filter fun r => r.2.ld == ld).map fun r => r.2.credit).foldl (· + ·) 0

/-- The unit in which a receiver grants, and the receive buffer of an LD. -/
abbrev grantUnit : Nat := 65536
abbrev ldBuffer : Nat := 32 * 2 ^ 20

/-- A grant of one unit on a path. -/
def giveGrant (s : State) (k port : Nat) : State :=
  let r := s.recvPath k
  cxtPlain (s.setRecvPath k { r with ld := port / 2, credit := r.credit + grantUnit }) port
    { baseHdr s opGRANT (k / 64) (k % 64) with tag := grantGIVE } []

/-- Grants to the requests that wait, oldest first, as far as the buffers of their LDs have room. -/
def serveGrants (s : State) : List (Nat × Nat) → State
  | [] => s
  | (k, port) :: rest =>
    if grantedOn s (port / 2) + grantUnit ≤ ldBuffer then serveGrants (giveGrant { s with grantQ := s.grantQ.erase (k, port) } k port) rest
    else serveGrants s rest

/-- Data of a path that have arrived give their room back. -/
def useGrant (s : State) (k n : Nat) : State :=
  let r := s.recvPath k
  let s := s.setRecvPath k { r with credit := r.credit - n }
  serveGrants s s.grantQ

/-! ### Operations that land in a tile or in HBM -/

/-- The sender of a CXT packet as the checks of a tile see it. -/
def cxSender (h : CxtHdr) : Sender := { dev := h.sdev, tile := h.stile, notTile := h.notTile }

/-- A WRITE (R115–R121, R426): its row pieces meet the checks of the tile's port; `none` while the port holds one of them. -/
def deliverCxWrite (s : State) (p : CxtPkt) : Option (Nat × State) :=
  if kindAt s p.hdr.addr p.data.length ≠ .spad then some (stADDRESS, s)
  else
    let t := (p.hdr.addr - spadAddr 0 0) / 0x20_0000
    let ps := (rowPieces p.hdr.addr p.data.length).map fun (a, n) =>
      ({ addr := a, data := (p.data.drop (a - p.hdr.addr)).take n, sender := cxSender p.hdr, epoch := p.hdr.epoch, tag := 0 } : WritePkt)
    if ps.any fun w => writeCheck s t w == stOK && writeWaits s t w then none
    else some (ps.foldl (fun (r : Nat × State) w =>
      match deliverWrite r.2 t w with
      | some q => (max r.1 q.1, q.2)
      | none => r) (stOK, s))

/-- The bytes of a twin region (R475). -/
def twinSize (s : State) (k : Nat) : Nat :=
  (1 + 2 * s.fld .mc k R.TWSIZE_PAGES) * 0x20_0000 + (2 * s.fld .mc k R.TWSIZE_JBLK + 2 * s.fld .mc k R.TWSIZE_EBLK) * 4096

/-- A JWRITE (R486): from the partner only, and only within the twin region of the addressed stack; `none` while the MC holds it. -/
def deliverJwrite (s : State) (p : CxtPkt) : Option (Nat × State) :=
  let a := p.hdr.addr
  let k := (hbmPlace s a).1
  let base := s.fld .mc k R.TWREGION_BASE
  if s.fld .ld 0 R.TWCFG_PAIREN = 0 ∨ p.hdr.sdev ≠ s.fld .ld 0 R.TWCFG_PARTNER ∨ a ≥ 0x80_0000_0000 ∨ s.fld .mc k R.TWREGION_EN = 0 ∨
      a < base ∨ a + p.data.length > base + twinSize s k then some (stADDRESS, s)
  else if blockHeld s a then none
  else
    let r := stageFor s k (pageOf (blockKey s a))
    if !r.1 then none
    else match hbmStore r.2 a (p.blk.map fun b => (b.form, b.len)) p.data with
      | some s => some (stOK, s)
      | none => some (stACCESS, r.2)

/-- The dense FP32 values of a contribution sent as top-k blocks (R445), each a BPV block of 1,024 values. DEDUCED (log 49). -/
def expandTopk (bs : List Byte) : Nat → List Byte
  | 0 => []
  | n + 1 =>
    if bs.length < 144 then []
    else
      let nz := numAt (bs.drop 2) 2 0
      ((bpvLoad (bs.take (144 + 4 * nz))).getD []) ++ expandTopk (bs.drop (max 208 (144 + 4 * nz))) n

/-- A SEND with all its data (R430, R445, R659): the descriptor and payload go to their queue or basin; `none` while the port holds it. -/
def deliverCxSend (s : State) (h : CxtHdr) (bs : List Byte) : Option (Nat × State) :=
  let t := (h.addr - regAddr .tile 0 0) / 0x1_0000
  let off := h.addr % 0x1_0000
  let q := (off - R.QCFG 0) / 0x20
  let d := Desc.ofBytes (bs.take 32)
  if h.addr < regAddr .tile 0 0 ∨ t ≥ 2048 ∨ !s.bound t ∨ off < R.QCFG 0 ∨ off ≥ R.QCFG 16 ∨ off % 0x20 ≠ 0 then some (stADDRESS, s)
  else if !d.legal then some (stADDRESS, s)
  else
    let basin := decide (s.tf t (R.QCFG_MODE q) ≥ 2)
    let payload := bs.drop 32
    let topk := basin && d.form == 4
    let m : Msg := { queue := q, chan := h.path, sender := cxSender h, epoch := h.epoch, desc := d,
                     payload := if topk then expandTopk payload (payload.length / 144 + 1) else payload, tag := 0 }
    if basin then deliverContrib s t m else deliverDesc s t m

/-- A READ (R426, R750): up to 4 KiB of scratchpad or HBM go back as RDATA on the path of the same index, one packet; other targets
are answered with ADDRESS. DEDUCED (log 49). -/
def deliverCxRead (s : State) (h : CxtHdr) : Option (Nat × State) :=
  let n := h.dlen
  let reply := fun (s : State) (status : Nat) (blk : Option BlockMeta) (bs : List Byte) =>
    cxtEmit s h.sdev h.path roleFABRIC { baseHdr s opRDATA h.sdev h.path with addr := h.addr, last := true, tag := status } blk bs .none
  if n > 4096 then some (stADDRESS, s)
  else match kindAt s h.addr n with
    | .hbm =>
      if blockHeld s h.addr then none
      else
        let f := blockForm s h.addr
        let bs := hbmBytes s h.addr n
        let blk := if h.addr % 4096 = 0 ∧ n = 4096 then some (⟨blockCrc f.1 f.2 bs, f.1, f.2⟩ : BlockMeta) else none
        some (stOK, reply s stOK blk bs)
    | .spad =>
      let t := (h.addr - spadAddr 0 0) / 0x20_0000
      let f := freeParity s (h.addr - spadAddr t 0) n
      let r := serveRead f.2 t (h.addr - spadAddr t 0) n f.1
      some (stOK, reply r.2.2 r.1 none r.2.1)
    | .other => some (stADDRESS, s)

/-- The write of pulled bytes into HBM of the spare (R496). -/
def landPull (s : State) (a : Nat) (blk : Option BlockMeta) (bs : List Byte) : State :=
  (hbmStore s a (match blk with | some b => some (b.form, b.len) | none => if bs.length = 4096 then some (0, 4096) else none) bs).getD s

/-- RDATA (R750): data for the oldest READ of the path; with LAST the read is complete. -/
def deliverRdata (s : State) (p : CxtPkt) : State :=
  let k := pathKey p.hdr.sdev p.hdr.path
  match takeFirst (fun (r : CxRead) => r.path == k) s.cxReads with
  | none => s
  | some (r, rest) =>
    let bs := r.got ++ p.data
    if !p.hdr.last then { s with cxReads := modFirst (fun (r : CxRead) => r.path == k) (fun r => { r with got := bs }) s.cxReads }
    else
      let s := { s with cxReads := rest }
      match r.kind with
      | .tile t tag => if s.tstate t = fenced then s else readBack s t tag p.hdr.tag bs
      | .head st => if p.hdr.tag = stOK then { s with heads := s.heads ++ [(st, bs)] } else s
      | .pull a => if p.hdr.tag = stOK then landPull s a p.blk bs else s

/-! ### The checks and the order of a path -/

/-- Whether a whole block's metadata agree with its data (R347, R348). -/
def blockOk (p : CxtPkt) : Bool :=
  match p.blk with
  | none => true
  | some b => decide (b.form ≤ 3) && decide (b.len ≤ 4096) && decide (blockCrc b.form b.len p.data = b.crc)

/-- Whether a SEND's target queue is a basin (R430, check 5). -/
def toBasin (s : State) (h : CxtHdr) : Bool :=
  decide (s.fld .tile ((h.addr - regAddr .tile 0 0) / 0x1_0000) (R.QCFG_MODE ((h.addr % 0x1_0000 - R.QCFG 0) / 0x20 % 16)) ≥ 2)

/-- Whether a SEND to a basin carries another layout epoch than the device's (R430, check 5). -/
def staleLayout (s : State) (h : CxtHdr) : Bool := h.op == opSEND && toBasin s h && h.layout != s.fld .ld 0 R.CXEPOCH_LAYOUT

/-- What the device does with a packet of an operation once its turn in the path has come: its status and the state, or `none` while it must
wait. `f` is the effect of the operations that concern the gatehouse. -/
def landPkt (f : State → CxtPkt → Nat × State) (s : State) (p : CxtPkt) : Option (Nat × State) :=
  let h := p.hdr
  if h.op = opWRITE then deliverCxWrite s p
  else if h.op = opJWRITE then deliverJwrite s p
  else if h.op = opSEND then
    if staleLayout s h then some (stSTALE_EPOCH, cxCount s p.port R.CXCNT_STALE)
    else
      let k := pathKey h.sdev h.path
      let bs := (s.recvPath k).part ++ p.data
      if !h.last then some (stOK, s.setRecvPath k { s.recvPath k with part := bs })
      else match deliverCxSend s h bs with
        | some (st, s) => some (st, s.setRecvPath k { s.recvPath k with part := [] })
        | none => none
  else if h.op = opREAD then deliverCxRead s h
  else if h.op = opRDATA then some (stOK, deliverRdata s p)
  else some (f s p)

/-- Delivers the packets of a path whose turn has come, in order, and acknowledges each (R427, R749). -/
def drainPath (f : State → CxtPkt → Nat × State) (s : State) (k : Nat) : Nat → State
  | 0 => s
  | n + 1 =>
    let r := s.recvPath k
    match r.early.find? fun p => p.hdr.psn == r.next with
    | none => s
    | some p =>
      match landPkt f s p with
      | none => s
      | some (st, s') =>
        -- a write of `CXEPOCH.ALIAS` has returned the path to its start
        if s'.fld .ld 0 R.CXEPOCH_ALIAS ≠ s.fld .ld 0 R.CXEPOCH_ALIAS then sendAck s' p.port (k / 64) (k % 64) st p.ce
        else
        let s := s'
        let r := s.recvPath k
        let s := s.setRecvPath k { r with next := (r.next + 1) % 2 ^ 32, early := r.early.filter (fun q => q.hdr.psn != p.hdr.psn),
                                          last := st, bad := r.bad.filter fun b => b.1 != p.hdr.psn }
        let s := if needsGrant p.hdr.op then useGrant s k p.data.length else s
        drainPath f (sendAck s p.port (k / 64) (k % 64) st p.ce) k n

/-- The checks of R430 on a packet that arrives at a port, and what follows them. An acknowledgement that reports STALE_EPOCH passes check 3, since
it carries the generation that the device lacks (R492). DEDUCED (log 48). -/
def receive (f : State → CxtPkt → Nat × State) (g : State → CxtPkt → State) (s : State) (p : CxtPkt) : State :=
  let h := p.hdr
  if !portUp s p.port ∨ s.fld .ld (p.port / 2) R.CXCFG_EN = 0 ∨ !p.fcsOk ∨ h.ver ≠ 0x20 then s
  else
    let s := if p.ce then cxCount s p.port R.CXCNT_ECN else s
    let staleAck := h.op == opACK && h.tag == stSTALE_EPOCH
    if h.ddev ≠ s.fld .ld (p.port / 2) R.CXCFG_DEV ∨ (h.aliasGen ≠ s.fld .ld (p.port / 2) R.CXEPOCH_ALIAS ∧ !staleAck) then
      let s := cxCount s p.port R.CXCNT_STALE
      if numbered h.op then sendStale s p else s
    else if !numbered h.op then g s p
    else
      let k := pathKey h.sdev h.path
      let r := s.recvPath k
      if psnBefore h.psn r.next then sendAck (cxCount s p.port R.CXCNT_DUP) p.port h.sdev h.path r.last p.ce
      else if !staleLayout s h && !blockOk p then
        -- stage 1 of R350 is a retransmission, up to two
        let n := ((r.bad.find? fun b => b.1 == h.psn).map (·.2)).getD 0 + 1
        let s := s.setRecvPath k { r with bad := (r.bad.filter fun b => b.1 != h.psn) ++ [(h.psn, n)] }
        if n ≥ 3 then portGoesDown (s.setRecvPath k { s.recvPath k with bad := r.bad.filter fun b => b.1 != h.psn }) p.port 3 else s
      else
        let s := if r.early.any fun q => q.hdr.psn == h.psn then s
          else s.setRecvPath k { r with early := r.early ++ [p], ld := p.port / 2 }
        if h.psn = r.next then drainPath f s k (s.recvPath k).early.length
        else sendAck s p.port h.sdev h.path r.last p.ce

/-! ### Acknowledgements (R431, R749) -/

/-- The end of a packet of ours: its transfer learns the status. -/
def ackWho (s : State) (who : CxtWho) (status : Nat) : State :=
  match who with
  | .tile t tag => if s.tstate t = fenced then s else settle (answerTransfer s t tag status) t
  | .read t tag =>
    if status = stOK ∨ s.tstate t = fenced then s
    else readBack { s with cxReads := s.cxReads.filter fun r => r.kind != .tile t tag } t tag status []
  | _ => s

/-- The packets of a path that an ACK acknowledges leave the path, each with its status. DEDUCED (log 48). -/
def takeAck (s : State) (h : CxtHdr) : State :=
  let k := pathKey h.sdev h.path
  let p := s.sendPath k
  let hit := fun (x : SentPkt) =>
    let n := x.pkt.hdr.psn
    n == h.ack || psnBefore n h.ack || (List.range 32).any fun i => bitOf h.sack i && n == (h.ack + 2 + i) % 2 ^ 32
  let done := p.unacked.filter hit
  let s := s.setSendPath k { p with unacked := p.unacked.filter fun x => !hit x }
  let s := done.foldl (fun s x => ackWho s x.who (if x.pkt.hdr.psn = h.ack then h.tag else stOK)) s
  flushPath s k ((s.sendPath k).waiting.length + 1)

/-- A GRANT (R428, R429). DESIGN CHOICE (log 47). -/
def takeGrant (s : State) (p : CxtPkt) : State :=
  let h := p.hdr
  let k := pathKey h.sdev h.path
  if h.tag = grantREQ then
    if grantedOn s (p.port / 2) + grantUnit ≤ ldBuffer then giveGrant s k p.port
    else cxtPlain { s with grantQ := s.grantQ ++ [(k, p.port)] } p.port { baseHdr s opGRANT h.sdev h.path with tag := grantWAIT } []
  else
    let q := s.sendPath k
    if h.tag = grantGIVE then
      flushPath (s.setSendPath k { q with granted := q.granted + grantUnit, asked := false, unheard := 0 }) k (q.waiting.length + 1)
    else s.setSendPath k { q with unheard := 0 }

/-! ### Retransmission (R429, R432) -/

/-- Another up port with the role of a path's present one, which the peer has not reported down: the next higher number, modulo 64. DEDUCED (log 48). -/
def otherPort (s : State) (dev p : Nat) : Option Nat :=
  ((List.range 63).map fun i => (p + 1 + i) % 64).find? fun q =>
    portUp s q && s.pf q R.FPCFG_ROLE == s.pf p R.FPCFG_ROLE && portMeets s q dev && !s.peerDown.contains (dev, q)

/-- Every packet of a path ends with PEER_FAILED (R432), and the path starts afresh. -/
def failPath (s : State) (k : Nat) : State :=
  let p := s.sendPath k
  (p.unacked ++ p.waiting).foldl (fun s x => ackWho s x.who stPEER_FAILED) (s.setSendPath k { p with unacked := [], waiting := [], asked := false })

/-- Sends a probe HEARTBEAT on every port that is up (R491). -/
def sendProbe (s : State) (hb : List Byte) : State :=
  let dev := s.fld .ld 0 R.TWCFG_PARTNER
  (List.range 64).foldl (fun s p => if portUp s p then cxtPlain s p (baseHdr s opHEARTBEAT dev p) hb else s) { s with probing := true }

/-- A peer is declared failed (R429): OP-0x0810; a report that names the partner starts a probe (R491). -/
def peerFailed (s : State) (k : Nat) (hb : List Byte) : State :=
  let dev := k / 64
  let s := (failPath s k).logOp 0x0810 dev
  if s.fld .ld 0 R.TWCFG_PAIREN = 1 ∧ dev = s.fld .ld 0 R.TWCFG_PARTNER then sendProbe s hb else s

/-- Sends the first packet of a path that is not acknowledged again, on another port after three retransmissions on one. -/
def resend (s : State) (k port : Nat) (x : SentPkt) (rest : List SentPkt) : State :=
  let p := s.sendPath k
  let up := p.port.any fun q => portUp s q
  let move := decide (x.onPort ≥ 3) || !up
  let port' := if move then otherPort s (k / 64) port else some port
  match port' with
  | none => s
  | some q =>
    let s := if move then s.logOp 0x0802 (k * 64 + q) else s
    let x' : SentPkt := { x with pkt := { x.pkt with port := q }, outs := x.outs + 1, onPort := if move then 1 else x.onPort + 1 }
    ((cxCount s q R.CXCNT_RETX).setSendPath k { p with port := some q, unacked := x' :: rest }).send (.cxt q x'.pkt)

/-- The record of a HEARTBEAT (R490): device, alias generation, last step released, and whether the device holds, also under an arbiter fault (R529), and its copier is idle. DEDUCED (log 53). -/
def heartbeat (s : State) : List Byte :=
  let step := match s.released with | some r => numAt r 4 0 | none => 0xFFFF_FFFF
  let idle := (List.range 8).all fun k => s.fld .mc k R.TWCOPY_STATE != 1
  fitBytes 32 (toBytes s.ownDev 2 ++ [0, 0] ++ toBytes (s.fld .ld 0 R.CXEPOCH_ALIAS) 4 ++ toBytes step 4 ++
    [.ofNat 8 (b2n (s.stepHold || s.aborting.isSome || s.lodge.arbFault) + 2 * b2n idle)])

/-- CXT_RETRANSMIT_TIMEOUT (R30, R429): the eighth timeout of a packet, or of a request for a grant, declares the peer failed; a path whose port is down moves to
another. -/
def execCxtRetransmitTimeout (port dev idx : Nat) (s : State) : Host.Outcome State Fault Refusal :=
  let k := pathKey dev idx
  let p := s.sendPath k
  .next (match p.unacked with
    | x :: rest => if x.outs ≥ 7 then peerFailed s k (heartbeat s) else resend s k port x rest
    | [] =>
      if !p.waiting.isEmpty && p.port.any (fun q => !portUp s q) then
        match otherPort s dev port with
        | none => s
        | some q =>
          let s := s.logOp 0x0802 (k * 64 + q)
          flushPath (s.setSendPath k { p with port := some q, granted := 0, asked := false }) k (p.waiting.length + 1)
      else if !p.asked then s
      else if p.unheard ≥ 7 then peerFailed s k (heartbeat s)
      else
        let h := { baseHdr s opGRANT dev idx with tag := grantREQ }
        cxtPlain (s.setSendPath k { p with unheard := p.unheard + 1 }) (p.port.getD port) h [])

/-! ### Epochs (R436, R748) -/

/-- All paths of the device return to their start (R748). -/
def resetPaths (s : State) : State := { s with sendPaths := [], recvPaths := [], grantQ := [], cxReads := [] }

/-- A write of `CXEPOCH.ALIAS` in every LD. -/
def setAlias (s : State) (gen : Nat) : State :=
  resetPaths ((List.range 32).foldl (fun s ld => s.setFld .ld ld R.CXEPOCH_ALIAS gen) s)

/-- CXEPOCH_ALIAS_WRITE (R748): the paths of the device start afresh. -/
def execCxepochAliasWrite (ld v : Nat) (s : State) : Host.Outcome State Fault Refusal :=
  .next (resetPaths (s.setFld .ld ld R.CXEPOCH_ALIAS v))

/-- CXCFG_EN_WRITE: a write of `CXCFG` (R463); with EN set to 1 the paths of the device start afresh (R748). -/
def execCxcfgEnWrite (ld : Nat) (v : Word) (s : State) : Host.Outcome State Fault Refusal :=
  let s := storeReg s (regAddr .ld ld R.CXCFG) v
  .next (if wget v 48 48 = 1 then resetPaths s else s)

end Sys2Proof.Machine
end

