-- ==== Sys2Proof/Machine/Network.lean ====
section
/-!
DEFINITION. The package network: packets (R296–R298), routing on the mesh, the edge ring and across dies (R291–R308), detours (R324,
R325), CPL over the die links (R309–R314), link-up and discovery (R316–R320), and lost links (R322).
-/

namespace Sys2Proof.Machine

/-! ### Where edge routers sit (R299) -/

/-- The two entries of an edge router, the first the one of odd row (odd column for routers 4 and 5) or the first of the table. -/
def entriesOf (e : Nat) : (Nat × Nat) × (Nat × Nat) :=
  match e with
  | 0 => ((1, 0), (2, 0)) | 1 => ((5, 0), (6, 0)) | 2 => ((10, 0), (11, 0)) | 3 => ((14, 0), (15, 0))
  | 4 => ((16, 4), (16, 5)) | 5 => ((16, 10), (16, 11)) | 6 => ((14, 15), (15, 15)) | 7 => ((10, 15), (11, 15))
  | 8 => ((5, 15), (6, 15)) | _ => ((1, 15), (2, 15))

/-- The entry at which a packet enters or leaves the mesh (R302), for the position at which it starts or ends on the die. -/
def entryFor (e : Nat) (at_ : Nat × Nat) : Nat × Nat :=
  let es := entriesOf e
  let q := (at_.1 + at_.2) % 2
  let par := fun (x : Nat × Nat) => (if e = 4 ∨ e = 5 then x.2 else x.1) % 2
  if par es.1 = q then es.1 else es.2

/-! ### Routing (R291, R299–R303, R324) -/

/-- The router at which a position joins the mesh (R294). DEDUCED (log 41). -/
def anchor (row col : Nat) : Nat × Nat :=
  if row = 18 then (0, col) else if row = 19 then (8, col) else if row = 20 then (8, 7) else (row, col)

/-- P of R301 for a packet and a destination. -/
def halfOf (s : State) (p : Packet) (d : Nat × Nat × Nat × Nat) : Nat :=
  let snd := p.sender
  let a := if snd.notTile then 1 else snd.tile
  let b := if d.2.1 = 18 ∨ d.2.1 = 19 then d.2.2.1 else if d.2.1 ≤ 16 then (tileAt s d.1 d.2.1 d.2.2.1).getD 0 else 0
  (a + b) % 2

/-- The next edge router on the ring (R300). -/
def ringNext (e x : Nat) : Nat :=
  let up := if x ≥ e then x - e else 13 - (e - x)
  if up ≤ 13 - up then (e + 1) % 10 else (e + 9) % 10

/-- What a packet does next at a position: it is delivered there, goes on to a position of the die, or crosses the edge router's die
link. -/
inductive Hop where
  | deliver
  | to (row col : Nat)
  | link
  deriving DecidableEq, Repr

/-- The direction of the first turn entry that a packet matches (R324). -/
def detour (s : State) (die row col vn : Nat) (tgt : Nat × Nat) : Option Nat :=
  if s.fld .die die R.RSCTL_ACTIVE = 0 then none
  else
    ((List.range (min 64 (s.fld .die die R.RSCTL_ENTRIES))).find? fun n =>
      s.fld .die die (R.RSENT_VALID n) == 1 && s.fld .die die (R.RSENT_ROW n) == row && s.fld .die die (R.RSENT_COL n) == col &&
      bitOf (s.fld .die die (R.RSENT_VNMASK n)) vn &&
      decide (s.fld .die die (R.RSENT_DROWLO n) ≤ tgt.1) && decide (tgt.1 ≤ s.fld .die die (R.RSENT_DROWHI n)) &&
      decide (s.fld .die die (R.RSENT_DCOLLO n) ≤ tgt.2) && decide (tgt.2 ≤ s.fld .die die (R.RSENT_DCOLHI n))).map fun n =>
        s.fld .die die (R.RSENT_DIR n)

/-- A move on the mesh towards a router: along the column first, then along the row (R291), unless a detour matches. -/
def meshMove (s : State) (die row col vn : Nat) (tgt : Nat × Nat) : Hop :=
  match detour s die row col vn tgt with
  | some 0 => .to (row - 1) col
  | some 1 => .to (row + 1) col
  | some 2 => .to row (col - 1)
  | some _ => .to row (col + 1)
  | none =>
    if row < tgt.1 then .to (row + 1) col
    else if tgt.1 < row then .to (row - 1) col
    else if col < tgt.2 then .to row (col + 1)
    else .to row (col - 1)

/-- The next hop of a packet for one of its destinations. -/
def hopOf (s : State) (die row col : Nat) (p : Packet) (d : Nat × Nat × Nat × Nat) : Hop :=
  let here := d.1 == die
  let x := if here then d.2.2.1 else exitFor die d.1 (halfOf s p d)
  if row = 17 then
    if here && d.2.1 != 17 then .to (entryFor col (anchor d.2.1 d.2.2.1)).1 (entryFor col (anchor d.2.1 d.2.2.1)).2
    else if x = col then .link
    else .to 17 (ringNext col x)
  else if here && d.2.1 == row && (row == 20 || d.2.2.1 == col) then .deliver
  else if row ≥ 18 then .to (anchor row col).1 (anchor row col).2
  else if here && d.2.1 != 17 then
    if (row, col) = anchor d.2.1 d.2.2.1 then .to d.2.1 d.2.2.1
    else meshMove s die row col p.vn (anchor d.2.1 d.2.2.1)
  else
    let e := entryFor x (anchor (p.h 37 33) (p.h 41 38))
    if (row, col) = e then .to 17 x else meshMove s die row col p.vn e

/-! ### CPL (R310–R313) -/

/-- The component of a virtual network. -/
def vnGet (v : Nat × Nat × Nat) (n : Nat) : Nat := if n = 0 then v.1 else if n = 1 then v.2.1 else v.2.2

/-- Units added to a virtual network's cumulative count, modulo 2¹⁶. -/
def vnAdd (v : Nat × Nat × Nat) (n k : Nat) : Nat × Nat × Nat :=
  let f := fun x => (x + k) % 2 ^ 16
  if n = 0 then (f v.1, v.2) else if n = 1 then (v.1, f v.2.1, v.2.2) else (v.1, v.2.1, f v.2.2)

/-- Whether a packet has credit on a link (R312), on a virtual network that the peer offers (R317). -/
def linkCredit (l : Link) (p : Packet) : Bool :=
  bitOf l.vns p.vn && decide ((vnGet l.used p.vn + 2 ^ 16 - vnGet l.peer p.vn) % 2 ^ 16 + p.units ≤ l.buf)

/-- Takes for one frame the waiting packets that have credit, in order within each virtual network, up to 1,280 B of slots. -/
def fillFrame (l : Link) (room : Nat) (blocked : List Nat) (taken kept : List Packet) : List Packet → List Packet × List Packet × Link
  | [] => (taken, kept, l)
  | p :: ps =>
    if !blocked.contains p.vn && linkCredit l p && decide (p.units ≤ room) then
      fillFrame { l with used := vnAdd l.used p.vn p.units } (room - p.units) blocked (taken ++ [p]) kept ps
    else fillFrame l room (blocked ++ [p.vn]) taken (kept ++ [p]) ps

/-- A frame with its CRC. -/
def sealFrame (f : CplFrame) : CplFrame := { f with crc := .ofNat 32 f.sum }

/-- A frame of the present acknowledgement and credit counts. -/
def mkFrame (l : Link) (typ : Nat) (ps : List Packet) : CplFrame :=
  sealFrame { seq := l.seq, ack := (l.expect + 2 ^ 16 - 1) % 2 ^ 16, typ := typ, crd := l.freed, crc := 0, packets := ps }

/-- Sends what waits on a link, while it is up and not held, in data frames, 32 of which can be kept (R311). -/
def flushLink (s : State) (die e : Nat) : Nat → State
  | 0 => s
  | n + 1 =>
    let l := s.link die e
    if l.held || linkState s die e != 2 || decide (32 ≤ l.sent.length) then s
    else
      let r := fillFrame l 80 [] [] [] l.wait
      if r.1.isEmpty then s
      else
        let f := mkFrame l 0 r.1
        let q := peerEnd die e
        flushLink ((s.setLink die e { r.2.2 with seq := (l.seq + 1) % 2 ^ 16, wait := r.2.1, sent := l.sent ++ [f] }).send
          (.frame q.1 q.2 f)) die e n

/-- Whether the HD link refuses a packet (R314): kinds 8–10, and virtual network 2, which CPL 1.0 lacks. -/
def hdRefuses (die e : Nat) (p : Packet) : Bool := linkOf (die % 8) e = .hd && (decide (8 ≤ p.kind) || p.vn == 2)

/-- A packet handed to a die link: lost where the link is not up and does not retrain (R319, R322); what the HD link refuses is answered with a status that the manual
does not give. -/
def crossLink (s : State) (die e : Nat) (p : Packet) : State :=
  if !linkTakes s (die, e) then s
  else if hdRefuses die e p then
    let f := s.freeNat
    let r := respond s p 6 (f.1 % 2 ^ 16) []
    if die ≥ 8 then f.2 else f.2.send (.packet die 17 e 4 0 r)
  else
    let s := s.setLink die e { s.link die e with wait := (s.link die e).wait ++ [p] }
    flushLink s die e (s.link die e).wait.length

/-! ### Delivery -/

/-- The queue that an address in a tile's block names (R425: that of `QCFGn`). -/
def queueOfAddr (a : Nat) : Nat := (a % 0x1_0000 - R.QCFG 0) / 0x20 % 16

/-- What keeps a register access from its register, at a unit that serves the blocks of `here` (R14, R16–R18, R27, R321): a fenced tile, an address of no register of
the unit, an access of another width, or one of a tile. DEDUCED (log 41). -/
def registerFault (s : State) (here : Block → Nat → Bool) (p : Packet) : Nat :=
  match regionOf s.grade p.addr with
  | .reg b n off =>
    if b = .tile ∧ s.tstate n = fenced then stTARGET_FENCED
    else if !here b n ∨ (b = .tile ∧ !s.bound n) ∨ (regDescAt b off).isNone then stADDRESS
    else if !p.sender.notTile ∨ (p.kind = 3 ∧ p.data.length ≠ 8) then stACCESS
    else stOK
  | _ => stADDRESS

/-- A register read or write at a unit that serves the blocks of `here`: the value, the completion of the write, or an error completion. -/
def registerPacket (s : State) (here : Block → Nat → Bool) (p : Packet) : Option (Packet × State) :=
  if p.kind ≠ 2 ∧ p.kind ≠ 3 then none
  else if registerFault s here p ≠ stOK then some (respond s p 6 (registerFault s here p) [], s)
  else if p.kind = 2 then some (respond s p 4 0 (toBytes (readReg s p.addr).toNat 8), s)
  else some (respond s p 5 0 [], s.send (.regWrite p.addr (.ofNat 64 (ofBytes (p.data.take 8)))))

/-- The blocks that the units of a GC serve: the die block with the memory ports the die's block and its MC and UU block, a tile its own block. -/
def dieBlocks (d : Nat) (b : Block) (n : Nat) : Bool := (b == .die || b == .mc) && n == d
def tileBlocks (t : Nat) (b : Block) (n : Nat) : Bool := b == .tile && n == t

/-- The blocks that the unit beyond a die link serves. -/
def farBlocks (die e : Nat) (b : Block) (n : Nat) : Bool :=
  match linkOf (die % 8) e with
  | .ld m => b == .ld && n == m
  | .gh m => b == .gh && n == m
  | .hd => b == .hd
  | _ => false

/-- A message that a packet brings (R297): its descriptor is the packet's first 32 B. The kinds of R297 say no more of a payload: that of a descriptor to a queue with a
payload ring is of free bytes, and a contribution holds what follows its descriptor. DEDUCED (log 41). -/
def packetMsg (s : State) (t : Nat) (p : Packet) : Msg × State :=
  let q := queueOfAddr p.addr
  let d := Desc.ofBytes (p.data.take 32)
  let n := if p.kind = 9 ∧ s.tf t (R.QPAY_SIZE q) ≠ 0 then d.len else 0
  ({ queue := q, chan := d.chan, sender := p.sender, epoch := p.tag, desc := d, tag := p.tag,
     payload := if p.kind = 10 then p.data.drop 32 else (List.range n).map fun i => .ofNat 8 (Config.free (s.fresh + i)) }, { s with fresh := s.fresh + n })

/-- A packet delivered to a logical tile. DESIGN CHOICE (log 40). -/
def deliverTile (s : State) (die row col t : Nat) (p : Packet) : State :=
  let snd := p.sender
  match p.kind with
  | 0 =>
    if !snd.notTile then s.send (.readReq p.addr (64 * p.len) snd.tile p.tag)
    else
      let f := freeParity s (p.addr - spadAddr t 0) (64 * p.len)
      readAtPort f.2 t (.packet die row col p) p.addr (64 * p.len) f.1
  | 4 => s.send (.readData t p.tag stOK p.data)
  | 5 => s.send (.answer (⟨s.ownDev, t, false⟩ : Sender) p.tag stOK)
  | 6 =>
    let st := p.addr % 2 ^ 16
    if (s.tile t).reads.any fun r => r.tag % 2 ^ 16 == p.tag then s.send (.readData t p.tag st [])
    else s.send (.answer (⟨s.ownDev, t, false⟩ : Sender) p.tag st)
  | 7 => s.send (.credit (⟨s.ownDev, t, false⟩ : Sender) (bits p.addr 5 0) (bits p.addr 16 8) (bits p.addr 29 17))
  | 8 => s.send (.write t { addr := p.addr, data := p.data, sender := snd, epoch := p.tag, tag := p.tag })
  | 9 => let m := packetMsg s t p; m.2.send (.desc t m.1)
  | 10 => let m := packetMsg s t p; m.2.send (.contrib t m.1)
  | _ => match registerPacket s (tileBlocks t) p with
    | some (r, s) => s.send (.packet die row col 4 0 r)
    | none => s

/-- Whether the MC holds up an access at a memory port of its die (R24, R351, R352, R355): of a stack that does not answer, a block on its recovery path, or a protected
page for which the staging buffer has no room. -/
def portHeld (s : State) (die row : Nat) (p : Packet) : Bool :=
  (row == 18 || row == 19) && (p.kind == 0 || p.kind == 1) && p.sender.notTile && hbmAddr p.addr && (hbmPlace s p.addr).1 == die &&
    (blockHeld s p.addr || (p.kind == 1 && !(stageFor s die (pageOf (blockKey s p.addr))).1))

/-- A packet at a memory port (R24, R294): only an address of the die's own stack is served. -/
def deliverMem (s : State) (die row col : Nat) (p : Packet) : State :=
  if !hbmAddr p.addr ∨ (hbmPlace s p.addr).1 ≠ die then sendResponse s die row col p 6 stADDRESS []
  else if p.kind = 0 then
    if p.sender.notTile then sendRows s die row col p (hbmBytes s p.addr (64 * p.len))
    else s.send (.hbmRead { t := p.sender.tile, flight := p.tag, addr := p.addr, len := 64 * p.len, blk := none, data := [] })
  else if p.sender.notTile then
    let s := (stageFor s die (pageOf (blockKey s p.addr))).2
    match hbmStore s p.addr none p.data with
    | some s => sendResponse s die row col p 5 stOK []
    | none => sendResponse s die row col p 6 stACCESS []
  else s.send (.hbmWrite { t := p.sender.tile, flight := p.tag, addr := p.addr, len := p.data.length, blk := none, data := p.data })

/-- A packet delivered at its position of a die: a tile, a memory port, or the die block. DESIGN CHOICE (log 40). DEDUCED (log 41). -/
def deliverAt (s : State) (die row col : Nat) (p : Packet) : State :=
  if row ≤ 16 then
    match tileAt s die row col with
    | some t => deliverTile s die row col t p
    | none => if p.vn = 1 then s else sendResponse s die row col p 6 stADDRESS []
  else if (row = 18 ∨ row = 19) ∧ p.kind < 2 then deliverMem s die row col p
  else match registerPacket s (dieBlocks die) p with
    | some (r, s) => s.send (.packet die row col 4 0 r)
    | none => s

/-- A packet that has reached the far end of a link: an LD, a gatehouse or the HD answers for its registers; what a third-party die does
with it lies outside the part. DEDUCED (log 41). -/
def farDeliver (s : State) (die e : Nat) (p : Packet) : State :=
  if s.fld .die (die % 8) (R.ERLINK_ROLE e) = 4 then s
  else match registerPacket s (farBlocks die e) p with
    | some (r, s) => crossLink s die e r
    | none => s

/-- Whether a window of a third-party site admits a packet (R320, R333): all that it reads or writes lies in one. Responses pass. -/
def inWindow (s : State) (die e : Nat) (p : Packet) : Bool :=
  let read := p.kind == 0 || p.kind == 2
  let len := if p.kind = 0 then 64 * p.len else if p.kind = 2 then 8 else max 1 p.data.length
  (decide (4 ≤ p.kind) && decide (p.kind ≤ 7)) || (List.range 4).any fun k =>
    s.fld .die die (R.ERWIN_EN e k) == 1 && decide (s.fld .die die (R.ERWIN_BASE e k) ≤ p.addr / 0x20_0000) &&
      decide ((p.addr + len - 1) / 0x20_0000 ≤ s.fld .die die (R.ERWIN_LIMIT e k)) &&
      (if read then s.fld .die die (R.ERWIN_RD e k) == 1 else s.fld .die die (R.ERWIN_WR e k) == 1)

/-- A packet taken out of a frame at the receiving end: what the HD link refuses (R314), and what no window of a third-party site admits (R320), is answered. -/
def arriveFromLink (s : State) (die e : Nat) (p : Packet) : State :=
  let l := s.link die e
  let drop := s.setLink die e { l with freed := vnAdd l.freed p.vn p.units }
  if die ≥ 8 then farDeliver drop die e p
  else
    let third := s.fld .die die (R.ERLINK_ROLE e) == 4
    -- traffic of a third-party die carries NOTTILE and the device's own number (R320)
    let p := if third then ((p.setH 125 125 1).setH 108 98 0).setH 97 82 s.ownDev else p
    if hdRefuses die e p then
      let f := drop.freeNat
      crossLink f.2 die e (respond s p 6 (f.1 % 2 ^ 16) [])
    else if third ∧ !inWindow s die e p then crossLink drop die e (respond s p 6 stADDRESS [])
    else (s.setLink die e { l with recv := l.recv ++ [p] }).send (.packet die 17 e 4 0 p)

/-! ### Hops -/

/-- The distinct elements of a list of hops, each once. -/
def hopsOf (s : State) (die row col : Nat) (p : Packet) : List Hop := (p.targets.map fun d => hopOf s die row col p d).eraseDups

/-- The input by which a packet that leaves one position of a die enters another. -/
def inputAt (row col r c : Nat) : Nat :=
  if r = 17 then (if row = 17 then (if (col + 1) % 10 = c then 0 else 1) else 2)
  else if row = 17 then 5
  else if row > 17 then 4
  else if row < r then 0 else if r < row then 1 else if col < c then 2 else 3

/-- The buffer class of a packet that leaves a position for another (R300): the second once it has crossed the ring's 9–0 segment. -/
def classAt (cls row col r c : Nat) : Nat :=
  if row = 17 ∧ r = 17 then (if (col = 9 ∧ c = 0) ∨ (col = 0 ∧ c = 9) then 1 else cls) else 0

/-- Whether the input of a mesh router holds fewer than 4 packets of a virtual network (R290). -/
def inputRoom (s : State) (die r c inp vn : Nat) : Bool :=
  decide ((s.wires.filter fun w => match w with | .packet d r' c' i _ q => d == die && r' == r && c' == c && i == inp && q.vn == vn | _ => false).length < 4)

/-- Whether a hop can be granted: the input of a mesh router has room; what is delivered, or crosses a link, the unit there takes. -/
def hopFree (s : State) (die row col : Nat) (p : Packet) (h : Hop) : Bool :=
  match h with
  | .to r c => decide (17 ≤ r) || inputRoom s die r c (inputAt row col r c) p.vn
  | .deliver => !portHeld s die row p
  | .link => true

/-- Whether a packet has the same source, virtual network and some destination as another (R293). -/
def sameFlow (p q : Packet) : Bool := p.vn == q.vn && p.h 41 30 == q.h 41 30 && p.targets.any fun d => q.targets.any fun e => d.1 == e.1 && d.2.1 == e.2.1 && d.2.2.1 == e.2.2.1

/-- Whether a packet stands at a position behind one that it must not overtake (R293). -/
def hopBehind (s : State) (die row col : Nat) (p : Packet) : Bool :=
  let here := s.wires.filterMap fun w => match w with | .packet d r c _ _ q => if d = die ∧ r = row ∧ c = col then some q else none | _ => none
  here.contains p && (here.takeWhile (· ≠ p)).any (sameFlow p)

/-- The buffer class in which a packet stands at a position. -/
def packetClass (s : State) (die row col : Nat) (p : Packet) : Nat :=
  (s.wires.findSome? fun w => match w with | .packet d r c _ k q => if d = die ∧ r = row ∧ c = col ∧ q = p then some k else none | _ => none).getD 0

/-- The state without a packet that stood at a position. -/
def State.unpacket (s : State) (die row col : Nat) (p : Packet) : State :=
  { s with wires := s.wires.eraseP fun w => match w with | .packet d r c _ _ q => d == die && r == row && c == col && decide (q = p) | _ => false }

/-- What leaves by one hop: one copy with the destinations that take it; across a link one copy for each destination die, and one for
each destination that is an edge router (R307). DESIGN CHOICE (log 40). -/
def takeHop (s : State) (die row col cls : Nat) (p : Packet) (h : Hop) : State :=
  let ds := p.targets.filter fun d => hopOf s die row col p d == h
  match h with
  | .deliver => ds.foldl (fun s d => deliverAt s die row col (p.copy [d])) s
  | .to r c => s.send (.packet die r c (inputAt row col r c) (classAt cls row col r c) (p.copy ds))
  | .link =>
    let far := ds.filter fun d => d.2.1 == 17
    let s := far.foldl (fun s d => crossLink s die col (p.copy [d])) s
    (List.range 8).foldl (fun s g =>
      let mine := ds.filter fun d => d.1 == g && d.2.1 != 17
      if mine.isEmpty then s else crossLink s die col (p.copy mine)) s

/-- The state in which a packet has left a position, the room that it held in an edge router's receive buffer given back (R312). -/
def packetLeft (s : State) (die row col : Nat) (p : Packet) : State :=
  let s := s.unpacket die row col p
  let l := s.link die col
  if row = 17 ∧ l.recv.contains p then s.setLink die col { l with recv := l.recv.erase p, freed := vnAdd l.freed p.vn p.units } else s

/-- PACKET_HOP (R290, R291, R293, R295, R297, R307): a packet at a router goes on by one hop for each of its destinations, once every hop can be granted and no
packet that it must not overtake stands before it; one of unknown kind is discarded and counted. -/
def execPacketHop (die row col : Nat) (p : Packet) (s : State) : Host.Outcome State Fault Refusal :=
  let u := packetLeft s die row col p
  .next (if p.kind > 10 then u.setFld .die die R.RSSTAT_BADPKT (satAdd (u.fld .die die R.RSSTAT_BADPKT) 1 0xFFFF)
    else if hopBehind s die row col p ∨ !(hopsOf s die row col p).all (hopFree s die row col p) then s
    else (hopsOf u die row col p).foldl (fun v h => takeHop v die row col (packetClass s die row col p) p h) u)

/-! ### Frames -/

/-- Whether sequence number `a` is not after `b`, modulo 2¹⁶. -/
def seqLe (a b : Nat) : Bool := decide ((b + 2 ^ 16 - a) % 2 ^ 16 < 2 ^ 15)

/-- The replays in a row without progress of an end (R311), which `ERCNT.CONSEC` of a GC's end shows (R331). -/
def setConsec (s : State) (die e n : Nat) : State :=
  let s := s.setLink die e { s.link die e with consec := n }
  if die < 8 then s.setFld .die die (R.ERCNT_CONSEC e) n else s

/-- An acknowledgement at a sending end: the frames it covers are no longer kept; with progress the row of replays ends. -/
def ackFrames (s : State) (die e ack : Nat) : State :=
  let l := s.link die e
  let rest := l.sent.filter fun f => !seqLe f.seq ack
  let s := s.setLink die e { l with sent := rest }
  if rest.length < l.sent.length then setConsec s die e 0 else s

/-- The messages whose way takes a link that goes down: whether one was on it then is open. DESIGN CHOICE (log 40). -/
def loseWires (s : State) (ends : List (Nat × Nat)) : List Wire → State
  | [] => s
  | w :: rest =>
    if (wireLinks s w).any ends.contains then
      let f := s.freeNat
      loseWires (if f.1 % 2 = 0 then f.2.unwire w else f.2) ends rest
    else loseWires s ends rest

/-- What is on a link when it goes down is lost (R322). DEDUCED (log 41). -/
def dropLink (s : State) (die e : Nat) : State :=
  let q := peerEnd die e
  let s := loseWires s [(die, e), q] s.wires
  let s := { s with wires := s.wires.filter fun w => match w with
    | .frame d l _ => !((d == die && l == e) || (d == q.1 && l == q.2))
    | .nak d l _ => !((d == die && l == e) || (d == q.1 && l == q.2))
    | .cap d l _ _ => !((d == die && l == e) || (d == q.1 && l == q.2))
    | _ => true }
  let down := fun (s : State) (x : Nat × Nat) =>
    let s := setConsec (s.setLink x.1 x.2 { recv := (s.link x.1 x.2).recv }) x.1 x.2 0
    if x.1 < 8 then (s.setFld .die x.1 (R.ERLINK_STATE x.2) 0).setFld .die x.1 (R.ERLINK_REASON x.2) 5 else s
  down (down s (die, e)) q

/-- The LD of a number is up while its die link is. -/
def ldUp (s : State) (n : Nat) : Bool :=
  s.fld .die (n / 4) (R.ERLINK_STATE (match n % 4 with | 0 => 0 | 1 => 9 | 2 => 3 | _ => 6)) == 2

/-- The norm endpoint (R449): the LD of lowest number that is up. -/
def endpointLd (s : State) : Option Nat := (List.range 32).find? fun n => ldUp s n

/-- `CXNORM.ENDPOINT` set on one LD and cleared on the others. -/
def markEndpoint (s : State) (n : Nat) : State :=
  (List.range 32).foldl (fun s k => s.setFld .ld k R.CXNORM_ENDPOINT (b2n (k == n))) s

/-- The norm endpoint's LD has gone down before the release (R449): the LD of lowest number that is up takes its place. -/
def endpointLost (s : State) (n : Nat) : State :=
  if s.fld .ld n R.CXNORM_ENDPOINT = 1 ∧ s.devBars.any (fun b => b.norm.isSome) then (match endpointLd s with | some m => markEndpoint s m | none => s) else s

/-- A die link goes down (R322): OP-0x0611, and the effect of the kind of link. DEDUCED (log 42). -/
def linkGoesDown (s : State) (die e : Nat) : State :=
  let d := die % 8
  if linkState s d e ≠ 1 ∧ linkState s d e ≠ 2 then s
  else
    let s := (dropLink s die e).logOp 0x0611 (d * 16 + e)
    match linkOf d e with
    | .gc _ _ => routerFails s d 17 e
    | .ld n => ldLost (endpointLost s n) n 1
    | .gh n => ghFails s n
    | .hd => hostIsLost s
    | .none => s

/-- A replay of every frame kept (R311), counted; where 16 in a row have brought no progress the link goes down. -/
def replay (s : State) (die e : Nat) : State :=
  let l := s.link die e
  let q := peerEnd die e
  if 16 ≤ l.consec then linkGoesDown s die e
  else
    let s := setConsec s die e (l.consec + 1)
    let s := if die < 8 then s.setFld .die die (R.ERCNT_REPLAY e) (satAdd (s.fld .die die (R.ERCNT_REPLAY e)) 1 0xFFFF) else s
    l.sent.foldl (fun s f => s.send (.frame q.1 q.2 (sealFrame { f with ack := (mkFrame l 0 []).ack, crd := l.freed }))) s

/-- A receiver's NAK, with the last sequence number it has received in order. DEDUCED (log 41). -/
def sendNak (s : State) (die e : Nat) : State :=
  let q := peerEnd die e
  s.send (.nak q.1 q.2 (mkFrame (s.link die e) 2 []).ack)

/-- CPL_FRAME_RECEIVE (R310–R312). -/
def execCplFrameReceive (die e : Nat) (f : CplFrame) (s : State) : Host.Outcome State Fault Refusal :=
  let s := s.unwire (.frame die e f)
  .next (if linkState s die e ≠ 2 ∨ (s.link die e).held then s
    else if !f.crcOk then
      let s := if die < 8 then s.setFld .die die (R.ERCNT_CRCERR e) (satAdd (s.fld .die die (R.ERCNT_CRCERR e)) 1 0xFFFF) else s
      sendNak s die e
    else if f.typ = 0 ∧ f.seq ≠ (s.link die e).expect then sendNak s die e
    else
      let s := ackFrames s die e f.ack
      let l := s.link die e
      let s := s.setLink die e { l with peer := f.crd, expect := if f.typ = 0 then (l.expect + 1) % 2 ^ 16 else l.expect }
      let s := if f.typ = 0 then f.packets.foldl (fun s p => arriveFromLink s die e p) s else s
      let s := if f.typ = 2 then replay s die e else s
      flushLink s die e (s.link die e).wait.length)

/-- CPL_NAK (R311): what ACK covers is acknowledged, every frame after it is sent again. -/
def execCplNak (die e ack : Nat) (s : State) : Host.Outcome State Fault Refusal :=
  let s := s.unwire (.nak die e ack)
  .next (if linkState s die e ≠ 2 ∨ (s.link die e).held then s
    else
      let s := ackFrames s die e ack
      if (s.link die e).sent.isEmpty then s else replay s die e)

/-- CPL_ACK_TIMEOUT (R311): no progress for 1 µs while frames are outstanding; a link that retrains holds its timers (R313). -/
def execCplAckTimeout (die e : Nat) (s : State) : Host.Outcome State Fault Refusal :=
  .next (if linkState s die e ≠ 2 ∨ (s.link die e).held ∨ (s.link die e).sent.isEmpty then s else replay s die e)

/-- CPL_CONTROL_TIMER (R312): a control frame with the present counts. -/
def execCplControlTimer (die e : Nat) (s : State) : Host.Outcome State Fault Refusal :=
  let q := peerEnd die e
  .next (if linkState s die e ≠ 2 ∨ (s.link die e).held then s else s.send (.frame q.1 q.2 (mkFrame (s.link die e) 1 [])))

/-! ### Training and discovery (R313, R316–R319) -/

/-- UCIE_RETRAIN (R313): CPL holds the link's frames and timers at both ends. -/
def execUcieRetrain (die e : Nat) (s : State) : Host.Outcome State Fault Refusal :=
  let q := peerEnd die e
  .next (if linkState s die e ≠ 2 then s
    else
      let hold := fun (s : State) (x : Nat × Nat) =>
        let s := s.setLink x.1 x.2 { s.link x.1 x.2 with held := true }
        if x.1 < 8 then s.setFld .die x.1 (R.ERLINK_STATE x.2) 1 else s
      hold (hold s (die, e)) q)

/-- UCIE_RETRAIN_TIMEOUT (R313). -/
def execUcieRetrainTimeout (die e : Nat) (s : State) : Host.Outcome State Fault Refusal :=
  .next (if (s.link die e).held then linkGoesDown s die e else s)

/-- What a link shows of its peer (R330, R332): role, negotiated version and identifier. DEDUCED (log 42). -/
def showPeer (s : State) (die e role ver ident : Nat) : State :=
  ((s.setFld .die die (R.ERLINK_ROLE e) role).setFld .die die (R.ERLINK_CPLVER e) ver).setReg (regAddr .die die (R.ERPEER e)) (.ofNat 64 ident)

/-- An unconfigured link (R316, R319): OP-0x0610 with the site and the reason, reported to the host; without a record of its peer it shows none. DEDUCED (log 42). -/
def unconfigured (s : State) (die e reason : Nat) : State :=
  let s := if reason ≤ 2 then showPeer s die e 7 0 0 else s
  let s := (s.setFld .die die (R.ERLINK_STATE e) 3).setFld .die die (R.ERLINK_REASON e) reason
  logAndTell s 0x0610 (die * 16 + e + reason * 2 ^ 32)

/-- LINK_TRAINING_TIMEOUT (R316, step 1). -/
def execLinkTrainingTimeout (die e : Nat) (s : State) : Host.Outcome State Fault Refusal :=
  .next (if linkState s die e = 1 ∧ !(s.link die e).offered ∧ !(s.link die e).held then unconfigured s die e 1 else s)

/-- CAPABILITY_TIMEOUT (R316, step 2). -/
def execCapabilityTimeout (die e : Nat) (s : State) : Host.Outcome State Fault Refusal :=
  .next (if linkState s die e = 1 ∧ (s.link die e).offered ∧ !(s.link die e).held then unconfigured s die e 2 else s)

/-- The role that a site accepts beside a third-party die (R318). -/
def siteRole (k : LinkKind) : Nat :=
  match k with
  | .gc _ _ => 0
  | .ld _ => 1
  | .gh _ => 2
  | .hd => 3
  | .none => 7

/-- The capability record of a GC's end (R316, R317): version 2.0, or 1.0 towards the HD (R314), role 0, the virtual networks, 16 KiB for each, and the die's
identifier. DEDUCED (log 42). -/
def ownCap (die e : Nat) : Nat × Nat :=
  ((if linkOf die e = .hd then 0x10 + 3 * 2 ^ 11 else 0x20 + 7 * 2 ^ 11) + 1024 * 2 ^ 16, (Config.dieIdent die).toNat)

/-- The masks of 1, 2 or 4 modules (R309). -/
def moduleMasks : List Nat := [1, 2, 4, 8, 3, 5, 6, 9, 10, 12, 15]

/-- UCIE_TRAINING_COMPLETE (R313, R316): a retrained link goes on with what it held; a link that starts up sends its capability record. Links between Dexferas
dies run at 32 GT/s in all their modules; at an LD site rate, width and modules are what both sides offer, a free value until the peer is
known. DEDUCED (log 42). -/
def execUcieTrainingComplete (die e : Nat) (s : State) : Host.Outcome State Fault Refusal :=
  let q := peerEnd die e
  .next (if linkState s die e ≠ 1 then s
    else if (s.link die e).held then
      let free := fun (s : State) (x : Nat × Nat) =>
        let s := s.setLink x.1 x.2 { s.link x.1 x.2 with held := false }
        let s := if x.1 < 8 then s.setFld .die x.1 (R.ERLINK_STATE x.2) 2 else s
        flushLink s x.1 x.2 (s.link x.1 x.2).wait.length
      free (free s (die, e)) q
    else
      let s := (s.setLink die e { s.link die e with offered := true }).send (.cap q.1 q.2 (ownCap die e).1 (ownCap die e).2)
      match linkOf die e with
      | .ld _ =>
        let r := s.freeNat
        ((r.2.setFld .die die (R.ERLINK_RATE e) (r.1 % 6)).setFld .die die (R.ERLINK_WIDTH e) (r.1 / 8 % 2)).setFld .die die
          (R.ERLINK_MODULES e) (moduleMasks.getD (r.1 / 16 % 11) 15)
      | .hd => ((s.setFld .die die (R.ERLINK_RATE e) 5).setFld .die die (R.ERLINK_WIDTH e) 2).setFld .die die (R.ERLINK_MODULES e) 1
      | .gh _ => ((s.setFld .die die (R.ERLINK_RATE e) 5).setFld .die die (R.ERLINK_WIDTH e) 0).setFld .die die (R.ERLINK_MODULES e) 3
      | _ => ((s.setFld .die die (R.ERLINK_RATE e) 5).setFld .die die (R.ERLINK_WIDTH e) 0).setFld .die die (R.ERLINK_MODULES e) 0xF)

/-- The ports of an LD site (R320) are OFF beside a third-party die. -/
def sitePortsOff (s : State) (k : LinkKind) : State :=
  match k with
  | .ld n => (s.setPf (2 * n) R.FPSTAT_STATE 3).setPf (2 * n + 1) R.FPSTAT_STATE 3
  | _ => s

/-- CAPABILITY_RECORD (R316–R319): the peer's record is checked for version and role, and the link goes up with the peer's credits or
stays unconfigured. -/
def execCapabilityRecord (die e : Nat) (rec : List Byte) (s : State) : Host.Outcome State Fault Refusal :=
  let w := numAt rec 8 0
  let s := s.unwire (.cap die e w (numAt rec 8 1))
  let major := bits w 7 4
  let role := bits w 10 8
  let site := linkOf die e
  let ver := if site = .hd then 0x10 else 0x20
  .next (if linkState s die e ≠ 1 ∨ !(s.link die e).offered ∨ (s.link die e).held then s
    else if major ≠ (if site = .hd then 1 else 2) then unconfigured (showPeer s die e role 0 (numAt rec 8 1)) die e 3
    else if role ≠ siteRole site ∧ !(role = 4 ∧ siteRole site = 1) then unconfigured (showPeer s die e role ver (numAt rec 8 1)) die e 4
    else
      let s := s.setLink die e { s.link die e with buf := bits w 31 16, vns := bits w 13 11 }
      -- the far end of a Dexferas link has the GC's 16 KiB buffer as its credits
      let q := peerEnd die e
      let s := if q.1 ≥ 8 then s.setLink q.1 q.2 { s.link q.1 q.2 with buf := 1024, vns := bits (ownCap die e).1 13 11 } else s
      let s := (s.setFld .die die (R.ERLINK_STATE e) 2).setFld .die die (R.ERLINK_REASON e) 0
      let s := showPeer s die e role ver (numAt rec 8 1)
      -- a module below ×16 or 32 GT/s at a Dexferas LD site is left out of the link
      let s := if role = 1 then (s.setFld .die die (R.ERLINK_RATE e) 5).setFld .die die (R.ERLINK_WIDTH e) 0 else s
      let s := if role = 4 then sitePortsOff s site else s
      flushLink s die e (s.link die e).wait.length)

/-- DIE_LINK_DOWN (R322). -/
def execDieLinkDown (die e : Nat) (s : State) : Host.Outcome State Fault Refusal := .next (linkGoesDown s die e)

/-! ### Router faults and detours (R323–R325) -/

/-- ROUTER_FAULT (R323, R325). -/
def execRouterFault (die row col : Nat) (s : State) : Host.Outcome State Fault Refusal := .next (routerFails s die row col)

/-- ROUTE_SET_SWITCH (R323, R325): a pending switch takes place once the die's buffers are empty; the leading gatehouse logs it. -/
def execRouteSetSwitch (die : Nat) (s : State) : Host.Outcome State Fault Refusal :=
  .next (if s.fld .die die R.RSCTL_PENDING = 1 then armDetour s die else s)

/-- RSCTL_ARM (R327). -/
def execRsctlArm (die : Nat) (s : State) : Host.Outcome State Fault Refusal := .next (armDetour s die)

end Sys2Proof.Machine
end

