-- ==== Sys2Proof/Machine/Barrier.lean ====
section
/-!
DEFINITION. Package and device barriers (R235, R237, R437), the global norm (R448–R453), the release of a step (R452, R485), and the
step boundary (R744) with what happens at it (R203, R210, R323, R409, R410, R422, R508).
-/

namespace Sys2Proof.Machine

/-! ### The step boundary -/

/-- The bound tiles that have a class. -/
def boundTiles (s : State) : List Nat := (s.bind.filter fun b => b.2 ≠ 0).map (·.1)

/-- The bound V-tiles. -/
def vTiles (s : State) : List Nat := (boundTiles s).filter fun t => classOf t == 1

/-- An FP32 code as an FP64 code. -/
def f32to64 (c : Nat) : Nat := fp64.near (fp32.decode c)

/-- CONE_COUNTER_GATHER for one class (R210): its histogram is logged; a class that exceeds a tile's limit is reported. Without a sample
its minimum is logged as 0; TBIN 0 counts every bin; each tile's active context gives TBIN and TLIMIT. DESIGN CHOICE (log 89). -/
def gatherClass (s : State) (ts : List Nat) (cls : Nat) : State :=
  let bins := (List.range 16).map fun k => (ts.map fun t => s.tf t (R.CONEH_COUNT cls k)).foldl (· + ·) 0
  let total := bins.foldl (· + ·) 0
  let seen := ts.filter fun t => (List.range 16).any fun k => s.tf t (R.CONEH_COUNT cls k) != 0
  let los := seen.map fun t => fp32.decode (s.tf t (R.CONEX_MIN cls))
  let his := seen.map fun t => fp32.decode (s.tf t (R.CONEX_MAX cls))
  let lo := los.foldl Num.minNum (los.headD .zero)
  let hi := his.foldl Num.maxNum (his.headD .zero)
  let s := s.submit { code := 0x0510 + cls, src := 1 + s.fld .die 0 R.DLEASE_HOLDER, kind := 2, count := total, min := fp64.near lo, max := fp64.near hi,
                      bins := bins }
  let beyond := fun (t : Nat) =>
    let c := s.actx t
    decide (s.tf t (R.CONECFG_TLIMIT c) < ((bins.drop (s.tf t (R.CONECFG_TBIN c))).foldl (· + ·) 0)) && s.tf t (R.CONECFG_EN c) == 1
  if ts.any beyond then logAndTell s 0x0520 cls else s

/-- The predictor counts of a slot over the V-tiles (R409): a slot above its limit is logged and reported. -/
def gatherPred (s : State) (ts : List Nat) (p : Nat) : State :=
  let miss := (ts.map fun t => s.tf t (R.PMISS_MISS p)).foldl (· + ·) 0
  let skip := (ts.map fun t => s.tf t (R.PMISS_SKIPPED p)).foldl (· + ·) 0
  if ts.any fun t => decide (s.tf t (R.PREDSLOT_MLIMIT (s.actx t) p) < miss) then logAndTell s 0x0560 (p + miss * 2 ^ 8 + skip * 2 ^ 32) else s

/-- CONE_COUNTER_GATHER (R210, R409): the counters of every V-tile are read, summed, logged and cleared. -/
def gatherCone (s : State) : State :=
  let ts := vTiles s
  let s := (List.range 6).foldl (fun s c => gatherClass s ts c) s
  let s := (List.range 16).foldl (fun s p => gatherPred s ts p) s
  ts.foldl clearCone s

/-- The counts of the scale slots at the end of a step: a NaN in a class other than G (R203), and saturations (R210), each
logged for a tile's slot. DESIGN CHOICE (log 89). -/
def gatherSlots (s : State) : State :=
  (boundTiles s).foldl (fun s t => (List.range 2).foldl (fun s c => (List.range 32).foldl (fun s n =>
    if s.tf t (R.NSLOT_VALID c n) = 0 then s
    else
      let id := s.tf t (R.NSLOT_TENSOR c n)
      let s := if s.tf t (R.NSTAT_NAN c n) > 0 ∧ s.tf t (R.NSLOT_CLASS c n) ≠ 2 then s.logOp 0x0531 id else s
      if s.tf t (R.NSTAT_SAT c n) > 0 then s.logOp 0x0540 (id + s.tf t (R.NSTAT_SAT c n) * 2 ^ 32) else s) s) s) s

/-- PORT_RETURN_TO_SERVICE (R422): the retrained ports are up again, and the devices told of their loss are told. -/
def returnPorts (s : State) : State :=
  s.portsBack.foldl (fun s (p, peers) =>
    let s := (s.setPf p R.FPSTAT_STATE 2).logOp 0x0801 p
    ctrlAll s peers 0x03 16 (portNoticeBody s p true)) { s with portsBack := [] }

/-- The predictor settings that waited for the boundary (R410). -/
def applyPred (s : State) : State :=
  s.predDue.foldl (fun s (p, en) =>
    ((boundTiles s).foldl (fun s t => (s.setTf t (R.PREDSLOT_EN 0 p) (b2n en)).setTf t (R.PREDSLOT_EN 1 p) (b2n en)) s).logOp 0x0561 p)
    { s with predDue := [] }

/-- STEP_BOUNDARY (R744): GC 1 reports the completion, the gatehouse gathers the step's counts, retrained ports return to service, what waited for the
boundary takes place, and a device that is to hold holds. The report has no event code in the manual. -/
def stepBoundary (s : State) (g gen : Nat) : State :=
  let s := dieReport s 1 (Config.eventCode 66) 0 0 1 (.ofNat 64 (g + gen * 2 ^ 8)) 0 false
  let s := loadDetours (applyPred (returnPorts (gatherSlots (gatherCone s))))
  if s.stepHold then holdAll s else s

/-! ### Package barriers -/

/-- A package group's generation completes (R237): every die's copy takes it, and the members are released. After a router fault the step in progress is aborted here
instead (R323): no member is released, and the abort is the step boundary. -/
def completeGroup (s : State) (g gen : Nat) : State :=
  if !s.detourDue.isEmpty then stepBoundary s g gen else
  let s := (List.range 8).foldl (fun s d =>
    releaseDie ((s.setFld .die d (R.PBAR_GEN g) gen).setFld .die d (R.PBAR_ARRIVED g) 0) d (32 + g) gen) s
  if s.fld .die 1 (R.PBAR_STEP g) = 1 then stepBoundary s g gen else s

/-! ### The norm (R448–R452) -/

/-- e_G as `CXNORM.EG` holds it. -/
def eG (s : State) : Int := sextInt (s.fld .ld 0 R.CXNORM_EG) 8

/-- A norm record (R450). -/
structure NormRec where
  total : Nat
  step : Nat
  nans : Nat
  clamps : Nat
  sat : Bool
  mismatch : Bool
  deriving DecidableEq, Repr

/-- The largest total (R449). -/
abbrev totalTop : Nat := 2 ^ 128 - 1

/-- A total held at its largest value, with the flag that says so. -/
def NormRec.clip (r : NormRec) : NormRec :=
  { r with total := min r.total totalTop, sat := r.sat || decide (r.total > totalTop), nans := min r.nans (2 ^ 32 - 1), clamps := min r.clamps (2 ^ 32 - 1) }

/-- The bytes of a record. -/
def NormRec.bytes (r : NormRec) : List Byte :=
  toBytes r.total 16 ++ toBytes r.step 4 ++ toBytes r.nans 4 ++ toBytes r.clamps 4 ++ [.ofNat 8 (b2n r.sat + 2 * b2n r.mismatch), 0, 0, 0]

/-- A record from its bytes. -/
def NormRec.ofBytes (bs : List Byte) : NormRec :=
  let f := (bs.getD 28 0).toNat
  { total := numAt bs 16 0, step := numAt bs 4 4, nans := numAt bs 4 5, clamps := numAt bs 4 6, sat := bitOf f 0, mismatch := bitOf f 1 }

/-- A parent's sum of its own record and a child's (R450). -/
def NormRec.join (own child : NormRec) : NormRec :=
  ({ own with total := own.total + child.total, nans := own.nans + child.nans, clamps := own.clamps + child.clamps, sat := own.sat || child.sat,
              mismatch := own.mismatch || child.mismatch || decide (child.step ≠ own.step) } : NormRec).clip

/-- One entry of the norm area (R448, R449): what it adds to the total, and to the NaN count. -/
def normEntry (eg : Int) (code : Nat) : Nat × Nat :=
  match fp64.decode code with
  | .fin neg m e =>
    if neg && m != 0 then (0, 1) else ((Num.fin false m (e + 64 - 2 * eg)).toIntNear.toNat, 0)
  | _ => (0, 1)

/-- The device's own record from its norm area (R448–R450). -/
def ownRecord (s : State) : NormRec :=
  let a := s.fld .ld 0 R.CXNORMA_BASE
  let es := (List.range 2048).map fun n => hbmBytes s (a + 64 + 16 * n) 16
  let vs := es.map fun bs => normEntry (eG s) (numAt bs 8 0)
  ({ total := (vs.map (·.1)).foldl (· + ·) 0, step := ofBytes (hbmBytes s a 4),
     nans := (vs.map (·.2)).foldl (· + ·) 0 + (es.map fun bs => numAt bs 4 2).foldl (· + ·) 0,
     clamps := (es.map fun bs => numAt bs 4 3).foldl (· + ·) 0, sat := false, mismatch := false } : NormRec).clip

/-- The result that the root computes (R451), as the record of R452. -/
def normResult (s : State) (r : NormRec) : List Byte :=
  let eg := eG s
  let skip := decide (r.nans > 0) || decide (r.clamps > 0) || r.sat || r.mismatch
  let q := fp64.decode (fp64.near (.fin false r.total (2 * eg - 64)))
  let gn := fp64.decode (fp64.near q.sqrt)
  let none_ := skip || Num.eq q .zero
  let mx := fp32.decode (s.fld .ld 0 R.CXNORM_MAXNORM)
  let clip := if none_ then f32one
    else
      let c := if Num.lt mx gn then fp32.near (mx.div gn) else f32one
      if c < 0x0080_0000 then 0x0080_0000 else c
  let egn := if none_ then eg else max (-100) (min 100 (gn.flog2.getD 0))
  toBytes r.step 4 ++ toBytes clip 4 ++ [.ofNat 8 (b2n skip), .ofNat 8 (wrap egn 8), 0, 0, 0, 0, 0, 0]

/-- Whether a package group carries the norm record. -/
def isNorm (s : State) (g : Nat) : Bool := s.fld .ld 0 R.CXNORM_EN == 1 && s.fld .ld 0 R.CXNORM_GROUP == g

/-- JOURNAL_RELEASE_MARK (R485): the release of step `t` is marked in the partner's journal entry of that step, on every stack with a twin region. -/
def markJournal (s : State) (res : List Byte) : State :=
  let t := numAt res 4 0
  if s.fld .ld 0 R.TWCFG_PAIREN = 0 then s
  else
    let s := (List.range 8).foldl (fun s k =>
      if s.fld .mc k R.TWREGION_EN = 0 then s
      else (List.range 2).foldl (fun s e =>
        let a := s.fld .mc k R.TWREGION_BASE + 32 + 16 * e
        if numAt (hbmBytes s a 4) 4 0 = t then
          gatePut s (a + 4) ((res.drop 4).take 4 ++ [.ofNat 8 (1 + 2 * ((res.getD 8 0).toNat % 2)), res.getD 9 0])
        else s) s) s
    (List.range 32).foldl (fun s ld => s.setFld .ld ld R.TWSTAT_RELEASED t) s

/-- NORM_RELEASE (R452, R449): the endpoint, or the LD that takes its place, writes the result record, `CXNORM.EG` of every LD, and the clip factor and
gate of every enabled UU; the release is marked in the journal. -/
def normRelease (s : State) (res : List Byte) : State :=
  let t := numAt res 4 0
  let s := match (List.range 32).find? fun n => s.fld .ld n R.CXNORM_ENDPOINT == 1 && ldUp s n with
    | some _ => s
    | none => match endpointLd s with | some n => markEndpoint s n | none => s
  let s := gatePut s (s.fld .ld 0 R.CXNORMA_BASE + 0x8040) (fitBytes 16 res)
  let s := (List.range 32).foldl (fun s ld => s.setFld .ld ld R.CXNORM_EG (res.getD 9 0).toNat) s
  let s := (List.range 8).foldl (fun s k =>
    if s.fld .mc k R.MCCFG_UUEN = 0 then s
    else
      writeGate (s.setReg (regAddr .mc k R.UUCLIP) (.ofNat 64 (numAt res 4 1))) k
        (.ofNat 64 (t + (res.getD 8 0).toNat % 2 * 2 ^ 32 + 2 ^ 33))) s
  markJournal { s with released := some (fitBytes 16 res) } (fitBytes 16 res)

/-! ### Device barriers (R437) -/

/-- The device barrier of a package group at this device. -/
def devBar (s : State) (g : Nat) : Option DevBar := s.devBars.find? fun b => b.g == g

/-- The state with the device barrier of a group set. -/
def setBar (s : State) (b : DevBar) : State := { s with devBars := (s.devBars.filter fun c => c.g ≠ b.g) ++ [b] }

/-- A BARRIER packet to a device (R425, R426). -/
def sendBarrier (s : State) (dev g gen : Nat) (release : Bool) (rec : List Byte) : State :=
  let idx := gatePath s roleFABRIC
  cxtEmit s dev idx roleFABRIC { baseHdr s opBARRIER dev idx with tag := gen, wq := g, release := release, last := true } none rec .none

/-- Whether the epoch notices of the job's start are exchanged (R434): those sent are acknowledged, those due have come. -/
def noticesDone (s : State) : Bool :=
  s.noticesDue.isEmpty && s.sendPaths.all fun e => (e.2.unacked ++ e.2.waiting).all fun p => p.who != .gate 2

/-- A release at this device (R437, R452): it goes on to the children that arrived, the norm is acted on, and the package group completes. -/
def deviceRelease (s : State) (b : DevBar) (res : List Byte) : State :=
  let s := { s with devBars := s.devBars.filter fun c => c.g ≠ b.g }
  let s := b.kids.foldl (fun s k => sendBarrier s k.1 b.g b.gen true (if res.isEmpty then [] else fitBytes 32 res)) s
  let s := if isNorm s b.g ∧ !res.isEmpty then normRelease s res else s
  completeGroup s b.g b.gen

/-- A device barrier goes on once the device's own group has completed and all its children have arrived (R437): the root releases, any other device
sends its arrival, with the sum of the records below it for the norm group. -/
def tryBar (s : State) (g : Nat) : State :=
  match devBar s g with
  | none => s
  | some b =>
    if !b.own ∨ b.sent ∨ b.kids.length < s.fld .ld 0 R.CXTREE_CHILDREN ∨ !noticesDone s then s
    else
      let norm := b.norm.map fun r => b.kids.foldl (fun a k => a.join (NormRec.ofBytes k.2)) (NormRec.ofBytes r)
      if s.fld .ld 0 R.CXTREE_ROOT = 1 then
        match norm with
        | some r =>
          let s := if r.mismatch then s.logOp 0x0821 r.step else s
          deviceRelease s b (normResult s r)
        | none => deviceRelease s b []
      else
        sendBarrier (setBar s { b with sent := true }) (s.fld .ld 0 R.CXTREE_PARENT) g b.gen false
          (match norm with | some r => r.bytes | none => [])

/-- Every device barrier looked at again. -/
def tryBars (s : State) : State := (s.devBars.map DevBar.g).foldl tryBar s

/-- A package group has completed at GC 1: a group of the device alone is released; one that takes part in a device barrier waits for it, the norm group for
its record (R437, R449). -/
def groupArrived (s : State) (g gen : Nat) : State :=
  if s.fld .die 1 (R.PBAR_DEVICE g) = 0 then completeGroup s g gen
  else
    let b := (devBar s g).getD { g := g, gen := gen }
    tryBar (setBar s { b with gen := gen, own := !isNorm s g }) g

/-- PACKAGE_BARRIER_ARRIVAL (R235, R237, R287): the arrival of one die's part of a package group at GC 1, which waits for every die of the mask `DIES`. Only an arrival
of the generation after the last completed one counts. -/
def execPackageBarrierArrival (die g gen : Nat) (s : State) : Host.Outcome State Fault Refusal :=
  let s := s.unwire (.pkgArrive die g gen)
  let p := g - 32
  let ds := mget (fun _ => []) s.pkgArrived p
  let ds := if ds.contains die then ds else ds ++ [die]
  .next (if g < 32 ∨ s.fld .die 1 (R.PBAR_EN p) = 0 ∨ gen ≠ (s.fld .die 1 (R.PBAR_GEN p) + 1) % 256 then s
    else if (List.range 8).all fun d => !bitOf (s.fld .die 1 (R.PBAR_DIES p)) d || ds.contains d then
      groupArrived { s with pkgArrived := mput (fun _ => []) s.pkgArrived p [] } p gen
    else { s with pkgArrived := mput (fun _ => []) s.pkgArrived p ds })

/-- NORM_GROUP_COMPLETE (R449, R450, R453): the endpoint reads the norm area, and the device's record is ready; the NaN total of that
record, above 0, is logged (R202). DESIGN CHOICE (log 90). -/
def execNormGroupComplete (g : Nat) (s : State) : Host.Outcome State Fault Refusal :=
  .next (match devBar s g with
    | none => s
    | some b =>
      if b.own ∨ !isNorm s g then s
      else match endpointLd s with
        | none => s
        | some n =>
          let s := markEndpoint s n
          let r := ownRecord s
          let s := if r.nans > 0 then s.logOp 0x0530 r.step else s
          let s := if r.clamps > 0 then s.logOp 0x0820 r.step else s
          tryBar (setBar s { b with own := true, norm := some r.bytes }) g)

/-- A BARRIER packet (R437): a child's arrival, or the parent's release. DEDUCED (log 52). -/
def landBarrier (s : State) (p : CxtPkt) : State :=
  let g := p.hdr.wq % 16
  let gen := p.hdr.tag % 256
  if p.hdr.release then
    match devBar s g with
    | some b => if b.sent ∧ b.gen = gen then deviceRelease s b (if isNorm s g then p.data.take 16 else []) else s
    | none => s
  else
    let b := (devBar s g).getD { g := g, gen := gen }
    let s := { s with kids := if s.kids.contains p.hdr.sdev then s.kids else s.kids ++ [p.hdr.sdev] }
    tryBar (setBar s { b with kids := (b.kids.filter fun k => k.1 ≠ p.hdr.sdev) ++ [(p.hdr.sdev, p.data)] }) g

end Sys2Proof.Machine
end

