-- ==== Sys2Proof/Machine/Recovery.lean ====
section
/-!
DEFINITION. Job boundaries, die reset (R526), the start of the tasks of a job (R258, R434), and recovery (R473–R508): the detection of a
failure, the abort, the takeover, the pull and replay of the state, and the restart.
-/

namespace Sys2Proof.Machine

/-! ### Die reset (R526) -/

/-- Every barrier register of a tile at its reset value. -/
def clearTileBars (s : State) (t : Nat) : State :=
  (List.range 2).foldl (fun s c => (List.range 48).foldl (fun s g =>
    ((s.setTf t (R.TBAR_ARRGEN c g) 0xFF).setTf t (R.TBAR_DONEGEN c g) 0xFF).setTf t (R.TBAR_PENDING c g) 0) s) s

/-- Every barrier register of a die and of its package barriers at its reset value. -/
def clearDieBars (s : State) (d : Nat) : State :=
  let s := (List.range 32).foldl (fun s g => (s.setFld .die d (R.DBAR_GEN g) 0xFF).setFld .die d (R.DBAR_ARRIVED g) 0) s
  (List.range 16).foldl (fun s g => (s.setFld .die d (R.PBAR_GEN g) 0xFF).setFld .die d (R.PBAR_ARRIVED g) 0) s

/-- No arrival of a package group remembered at GC 1. -/
def forgetArrivals (s : State) : State := { s with pkgArrived := mdrop (fun _ => true) s.pkgArrived }

/-- What a die reset does (R526): the tiles and barriers are reset, the arrivals that GC 1 keeps go with its reset, the control queue is emptied and takes the reports that the
die held. -/
def dieReset (s : State) (d : Nat) : State :=
  let s := (List.range 256).foldl (fun s i =>
    clearTileBars (tileReset s (256 * d + i)) (256 * d + i)) s
  let s := clearDieBars s d
  let s := if d = 1 then forgetArrivals s else s
  let n := s.fld .die d R.DCQPTR_COUNT
  let s := s.setFld .die d R.DCQPTR_LOST (satAdd (s.fld .die d R.DCQPTR_LOST) n (2 ^ 32 - 1))
  let s := (s.setFld .die d R.DCQPTR_COUNT 0).setFld .die d R.DCQPTR_HEAD (s.fld .die d R.DCQPTR_TAIL)
  feedDie ((s.setFld .die d R.RSSTAT_RFAULT 0).setFld .die d R.DRESET_PENDING 0) d 16

/-- Whether a die may be reset (R526): every tile of it is held, halted, fenced or asleep. -/
def dieStill (s : State) (d : Nat) : Bool := (List.range 256).all fun i =>
  let t := 256 * d + i
  s.tstate t == asleep || s.tstate t == fenced || s.tf t R.TSTAT_HELD == 1 || s.tf t R.TSTAT_HALTED == 1

/-- A request for a die reset (R526, R576), which is made only of a die that is still: it waits until the die's buffers are empty. -/
def askDieReset (s : State) (d : Nat) : State :=
  if !dieStill s d then s else
  let s := s.setFld .die d R.DRESET_COUNT (satAdd (s.fld .die d R.DRESET_COUNT) 1 (2 ^ 32 - 1))
  if dieIdle s d then dieReset s d else s.setFld .die d R.DRESET_PENDING 1

/-- DRESET_GO (R526, R576). -/
def execDresetGo (d : Nat) (s : State) : Host.Outcome State Fault Refusal := .next (askDieReset s d)

/-- DIE_RESET (R526): a die reset that waits takes place once the die's buffers are empty. -/
def execDieReset (d : Nat) (s : State) : Host.Outcome State Fault Refusal :=
  .next (if s.fld .die d R.DRESET_PENDING = 1 ∧ dieIdle s d then dieReset s d else s)

/-! ### The job boundary -/

/-- Whether a package group is the step boundary (R744). -/
def hasStep (s : State) : Bool := (List.range 16).any fun g => s.fld .die 1 (R.PBAR_STEP g) == 1

/-- What waits for the end of a job once no tile works any more: retirements (R351), retrained ports of an image without a step boundary
(R744), and die reset of the dies on which a tile has halted (R526). -/
def jobEnd (s : State) : State :=
  if s.tiles.any fun e => e.2.started then s
  else
    let s := (List.range 8).foldl retireDue s
    let s := if hasStep s then s else returnPorts s
    (List.range 8).foldl (fun s d =>
      if (List.range 256).any fun i => s.tf (256 * d + i) R.TSTAT_HALTED == 1 then askDieReset s d else s) s

/-- TASK_END (R104, R108–R110, R351). -/
def execTaskEnd (t c : Nat) (s : State) : Host.Outcome State Fault Refusal := .next (jobEnd (taskEnd s t c))

/-! ### The start of a job's tasks -/

/-- The pairs of a list of addresses and values. -/
def addrPairs : List Nat → List (Nat × Nat)
  | a :: b :: rest => (a, b) :: addrPairs rest
  | _ => []

/-- The register loads of the image. -/
def imageRegs (s : State) : List (Nat × Nat) := addrPairs (Config.regLoads s.image)

/-- Whether an address is that of a `CHROUTEn` or `CHCRn`. -/
def isRoute (a : Nat) : Bool :=
  decide (regAddr .tile 0 0 ≤ a) && decide (a < regAddr .tile 2048 0) && decide (0x4800 ≤ a % 0x1_0000) && decide (a % 0x1_0000 < 0x4C00)

/-- The valid send channels of the device: tile and channel. -/
def channels (s : State) : List (Nat × Nat) :=
  s.regs.filterMap fun e =>
    let o := e.1 % 0x1_0000
    if regAddr .tile 0 0 ≤ e.1 ∧ e.1 < regAddr .tile 2048 0 ∧ 0x4800 ≤ o ∧ o < 0x4A00 ∧ wget e.2 31 31 = 1 then
      some ((e.1 - regAddr .tile 0 0) / 0x1_0000, (o - 0x4800) / 8)
    else none

/-- The routes rewritten (R258, R261, R498): the image's routes and credits are loaded, no channel is closed, and every channel to a queue of the device
takes the queue's epoch. -/
def writeRoutes (s : State) : State :=
  let s := (imageRegs s).foldl (fun s e => if isRoute e.1 then storeReg s e.1 (.ofNat 64 e.2) else s) s
  (channels s).foldl (fun s (t, n) =>
    let s := s.setTf t (R.CHROUTE_CLOSED n) 0
    if s.tf t (R.CHROUTE_DEV n) = s.ownDev then
      s.setTf t (R.CHROUTE_EPOCH n) (s.tf (s.tf t (R.CHROUTE_TILE n)) (R.QEPOCH_EPOCH (s.tf t (R.CHROUTE_QUEUE n))))
    else s) s

/-- A queue opened at its current epoch, empty (R258). DEDUCED (log 50). -/
def openQueue (s : State) (t q : Nat) : State :=
  if s.tf t (R.QCFG_EN q) = 0 then s
  else
    let s := (s.setTf t (R.QEPOCH_CLOSED q) 0).setReg (regAddr .tile t (R.QPTR q)) 0
    s.modTile t fun x => { x with qmsgs := x.qmsgs.filter fun m => m.q ≠ q, freed := x.freed.filter fun m => m.q ≠ q,
                                  hold := x.hold.filter fun h => h.msg.queue ≠ q }

/-- The epoch notices of R434: those of the image's first list are sent, and every channel to another device awaits one. DEDUCED (log 50). -/
def exchangeEpochs (s : State) : State :=
  let s := (Config.queueList s.image).foldl (fun s (t, q, d) =>
    sendCtrl s d 0x02 16 (toBytes s.ownDev 2 ++ toBytes t 2 ++ [.ofNat 8 q, 0] ++ toBytes (s.tf t (R.QEPOCH_EPOCH q)) 2) (.gate 2)) s
  { s with noticesDue := (channels s).filter fun (t, n) => s.tf t (R.CHROUTE_DEV n) != s.ownDev }

/-- Whether an address is that of a `WKEPOCHn`. -/
def isWicketEpoch (a : Nat) : Bool :=
  decide (regAddr .tile 0 0 ≤ a) && decide (a < regAddr .tile 2048 0) && (List.range 16).any fun n => a % 0x1_0000 == R.WKEPOCH n

/-- A wicket at task start (R122): its landed counts are 0, and it is open where the image says so. -/
def startWicket (s : State) (t n : Nat) : State :=
  let s := (List.range 32).foldl (fun s k => s.setTf t (R.WKLAND_BYTES n k) 0) s
  if s.tf t (R.WKLIM_EN n) = 1 ∧ s.tf t (R.WKBASE_INITOPEN n) = 1 then openWicket s t n else s.setTf t (R.WKEPOCH_OPEN n) 0

/-- The wickets take their epochs and open flags from the image (R122). DEDUCED (log 50). -/
def startWickets (s : State) : State :=
  let s := (imageRegs s).foldl (fun s e => if isWicketEpoch e.1 then storeReg s e.1 (.ofNat 64 e.2) else s) s
  (boundTiles s).foldl (fun s t => (List.range 16).foldl (fun s n => startWicket s t n) s) s

/-- The wickets and queues open, the routes are written and the epochs exchanged. DEDUCED (log 50). -/
def openTasks (s : State) : State :=
  let s := startWickets s
  let s := (boundTiles s).foldl (fun s t => (List.range 16).foldl (fun s q => openQueue s t q) s) s
  exchangeEpochs (writeRoutes s)

/-- QUEUE_EPOCH_NOTICE (R434): the epoch goes to every channel that names the queue; one that names none is ignored. -/
def takeEpochNotice (s : State) (dev t q epoch : Nat) : State :=
  let hit := (channels s).filter fun (u, n) => s.tf u (R.CHROUTE_DEV n) == dev && s.tf u (R.CHROUTE_TILE n) == t && s.tf u (R.CHROUTE_QUEUE n) == q
  let s := hit.foldl (fun s (u, n) => s.setTf u (R.CHROUTE_EPOCH n) epoch) s
  tryBars { s with noticesDue := s.noticesDue.filter fun c => !hit.contains c }

/-- Generations started without a commit (R482). -/
def startGenerations (s : State) : State :=
  if s.fld .ld 0 R.TWCFG_PAIREN = 0 then s
  else (List.range 8).foldl (fun s k =>
    if s.fld .mc k R.TWREGION_EN = 0 then s else startGeneration (setCopier s k true) k (s.fld .mc k R.UUSTAT_CSTEP)) s

/-- The power state shown on every GC (R535, R570). -/
def setPstate (s : State) (v : Nat) : State := (List.range 8).foldl (fun s d => s.setFld .die d R.DPWR_PSTATE v) s

/-- Stage 12 of R533: `TCTL.START` of every bound tile; the part is in RUN. -/
def startTiles (s : State) : State := setPstate ((boundTiles s).foldl tctlStart s) 4

/-! ### The tree, the steps and the pair -/

/-- A field of all 32 LDs. -/
def setLds (s : State) (f : Fld) (v : Nat) : State := (List.range 32).foldl (fun s ld => s.setFld .ld ld f v) s

/-- The devices next to this one in the aggregation tree, but for some. -/
def neighbours (s : State) (but : List Nat) : List Nat :=
  let up := if s.fld .ld 0 R.CXTREE_ROOT = 1 then [] else [s.fld .ld 0 R.CXTREE_PARENT]
  ((up ++ s.kids).eraseDups).filter fun d => !but.contains d

/-- The step of the release record that the device holds; `none` where it holds none. -/
def releasedStep (s : State) : Option Nat := s.released.map fun r => numAt r 4 0

/-- The step in progress (R488): the lowest that is not committed. -/
def stepNow (s : State) : Nat := ((releasedStep s).getD (s.fld .mc 0 R.UUSTAT_CSTEP) + 1) % 2 ^ 32

/-- `TWSTAT.PAIR`; a pair that becomes unprotected, or protected again, is logged (R502, R509). DEDUCED (log 53). -/
def setPair (s : State) (v : Nat) : State :=
  let was := s.fld .ld 0 R.TWSTAT_PAIR
  let s := setLds s R.TWSTAT_PAIR v
  if (was = 1 ∧ v ≠ 1) ∨ (was ≠ 1 ∧ v = 1) then logAndTell s 0x0903 v else s

/-- Whether the newest generation of every stack of this device is complete on the twin. DEDUCED (log 53). -/
def ownComplete (s : State) : Bool :=
  (List.range 8).all fun k => s.fld .mc k R.TWREGION_EN == 0 || (s.fld .mc k R.TWCOPY_EN == 1 && s.fld .mc k R.TWCOPY_STATE == 0)

/-- The pair is protected once the generations of both devices are complete (R502). -/
def checkProtected (s : State) : State :=
  if s.fld .ld 0 R.TWSTAT_PAIR = 2 ∧ ownComplete s ∧ s.partnerIdle then setPair s 1 else s

/-! ### The abort (R488, R489, R495) -/

/-- The abort reaches this device: every tile holds, the abort goes on along the tree, and OP-0x0901 is logged. One abort serves several failures
(R501). -/
def startAbort (s : State) (step : Nat) (takeover : Bool) (failed from_ : Nat) : State :=
  if s.aborting.isSome then s
  else
    let s := logAndTell (holdAll { s with aborting := some { step := step, takeover := takeover, failed := failed } }) 0x0901 (step + b2n takeover * 2 ^ 32)
    ctrlAll s (neighbours s [from_, failed]) 0x06 12 (toBytes step 4 ++ [.ofNat 8 (b2n takeover), 0] ++ toBytes failed 2)

/-- A device that no packet names. -/
abbrev noDev : Nat := 0xFFFF

/-- The last step that this device and all below it hold, as an abort report gives it; `none` where one holds none. DEDUCED (log 51). -/
def reportStep (s : State) (a : Abort) : Option Nat :=
  a.reports.foldl (fun o r => match o, r.2 with
    | some x, some y => some (min x y)
    | _, _ => none) (releasedStep s)

/-- Whether every device below this one has reported. -/
def allReported (s : State) (a : Abort) : Bool := s.kids.all fun k => k == a.failed || a.reports.any fun r => r.1 == k

/-- The state of a pair is lost, or no spare can serve (R503–R505): OP-0x0904, and every device of the job holds. -/
def pairLost (s : State) : State :=
  let s := logAndTell { s with taking := none, pulling := none, replayDue := false } 0x0904 (s.fld .ld 0 R.TWCFG_PARTNER)
  holdAll { startAbort s (stepNow s) false noDev noDev with stepHold := true }

/-- The alias of a failed device moves to a spare (R436, R495): the replaced device is told, the new entry and generation go under the old generation to the tree and to the
spare, which the number now names, and every LD takes them. DEDUCED (log 51). -/
def moveAlias (s : State) (dev station : Nat) : State :=
  let gen := (s.fld .ld 0 R.CXEPOCH_ALIAS + 1) % 2 ^ 32
  let s := sendCtrl s dev 0x05 12 (toBytes dev 2 ++ [0, 0] ++ toBytes gen 4) .none
  let s := setLds (setLds s (R.CXALIAS_STATION dev) station) (R.CXALIAS_VALID dev) 1
  setAlias (ctrlAll s (dev :: neighbours s [dev]) 0x01 16 (toBytes dev 2 ++ toBytes station 2 ++ toBytes gen 4 ++ [1])) gen

/-- The takeover goes on once every device below the twin has reported (R495, steps 3 and 4): the spare is chosen and the alias moves. DEDUCED (log 51). -/
def takeoverOn (s : State) : State :=
  match s.taking, s.aborting with
  | some k, some a =>
    if k.moved ∨ !allReported s a ∨ k.spare ≥ 2 then s
    else
      moveAlias { s with taking := some { k with moved := true, movedAt := s.ticks } } k.dev
        (if k.spare = 0 then s.fld .ld 0 R.TWCFG_SPARE0 else s.fld .ld 0 R.TWCFG_SPARE1)
  | _, _ => s

/-- The reports of an abort (R489): once all below have reported, the device reports to its parent; the root sends the record that it holds to those that
lack it. DEDUCED (log 51). -/
def abortOn (s : State) : State :=
  match s.aborting with
  | none => s
  | some a =>
    if a.reported ∨ !allReported s a then s
    else
      let s := { s with aborting := some { a with reported := true } }
      let s :=
        if s.fld .ld 0 R.CXTREE_ROOT = 1 then
          match s.released with
          | some r => ctrlAll s ((a.reports.filter fun x => x.2 != releasedStep s).map (·.1)) 0x08 20 r
          | none => s
        else
          let o := reportStep s a
          sendCtrl s (s.fld .ld 0 R.CXTREE_PARENT) 0x07 12 (toBytes (o.getD 0) 4 ++ [.ofNat 8 (b2n o.isNone)]) .none
      takeoverOn s

/-- ABORT (R495). -/
def takeAbort (s : State) (step : Nat) (takeover : Bool) (failed from_ : Nat) : State :=
  abortOn (startAbort s step takeover failed from_)

/-- ABORT_REPORT (R489). DEDUCED (log 51). -/
def takeReport (s : State) (dev : Nat) (step : Option Nat) : State :=
  match s.aborting with
  | none => s
  | some a => abortOn { s with aborting := some { a with reports := (a.reports.filter fun r => r.1 ≠ dev) ++ [(dev, step)] } }

/-- RELEASE_RECORD (R489): a device that lacks the record applies it and passes it on to those below it. -/
def takeRelease (s : State) (rec : List Byte) (from_ : Nat) : State :=
  let s := if releasedStep s = some (numAt rec 4 0) then s else normRelease s rec
  let lack : List Nat := match s.aborting with
    | some a => (a.reports.filter fun (r : Nat × Option Nat) => r.2 != some (numAt rec 4 0)).map (fun (r : Nat × Option Nat) => r.1)
    | none => []
  ctrlAll s (lack.filter fun (d : Nat) => d ≠ from_) 0x08 20 rec

/-! ### Detection (R490–R492) -/

/-- The partner is declared failed (R491, R495): OP-0x0900 with the cause (0 five periods missed, 1 a failure notice, 2 no answer to a probe, 3 the host),
the copiers stop, the pair is in takeover and the job aborts. While the pair is unprotected its state is lost (R504). -/
def declareFailed (s : State) (cause : Nat) : State :=
  let dev := s.fld .ld 0 R.TWCFG_PARTNER
  if s.fld .ld 0 R.TWCFG_PAIREN = 0 ∨ s.taking.isSome then s
  else
    let unprotected := decide (s.fld .ld 0 R.TWSTAT_PAIR ≥ 2)
    let s := logAndTell { s with probing := false } 0x0900 (dev + cause * 2 ^ 16)
    let s := (List.range 8).foldl (fun s k => setCopier s k false) s
    if unprotected then pairLost s
    else
      let s := setPair { s with taking := some { dev := dev, began := s.ticks } } 3
      let s := startAbort s (stepNow s) true dev dev
      takeoverOn (abortOn s)

/-- The device has been replaced (R492). DEDUCED (log 48). -/
def isReplaced (s : State) : State :=
  if s.replaced then s
  else
    let s := holdAll { s with replaced := true }
    logAndTell ((List.range 8).foldl (fun s k => setCopier s k false) s) 0x0906 s.ownDev

/-- Whether the lodge is lost entirely: no die receives its keepalives (R528, R529). DEDUCED (log 52). -/
def lodgeLost (s : State) : Bool := (List.range 41).all fun n => s.lf n R.DLEASE_LODGEOK == 0 && s.lf n R.DLEASE_HELD == 1

/-- HEARTBEAT_PERIOD (R490, R491): heartbeats to the partner and the host, unless the lodge is lost (R529); a period without one from the partner is missed, and the fifth in a row
declares it failed. -/
def execHeartbeatPeriod (s : State) : Host.Outcome State Fault Refusal :=
  .next (if s.fld .ld 0 R.TWCFG_PAIREN = 0 ∨ s.fld .ld 0 R.TWCFG_HBEN = 0 then s
    else
      let dev := s.fld .ld 0 R.TWCFG_PARTNER
      let rec_ := heartbeat s
      let up := (List.range 64).filter fun p => portUp s p
      let twin := up.filter fun p => s.pf p R.FPCFG_ROLE == roleTWIN
      let ports := if twin.isEmpty then up.filter fun p => s.pf p R.FPCFG_ROLE == roleFABRIC else twin
      let s := if lodgeLost s then s else ports.foldl (fun s p => cxtPlain s p (baseHdr s opHEARTBEAT dev p) rec_) s
      let s := if lodgeLost s ∨ s.chp.sessions.isEmpty then s else s.tellHost (.heartbeat rec_)
      let n := if s.hbHeard then 0 else min 5 (s.fld .ld 0 R.TWSTAT_HBMISS + 1)
      let s := checkProtected (setLds { s with hbHeard := false } R.TWSTAT_HBMISS n)
      if n = 5 then declareFailed s 0 else s)

/-- PROBE_TIMEOUT (R491). -/
def execProbeTimeout (s : State) : Host.Outcome State Fault Refusal :=
  .next (if s.probing then declareFailed { s with probing := false } 2 else s)

/-- A HEARTBEAT from the partner (R490, R491): an answer to a probe aborts the step without a takeover. DEDUCED (log 52). -/
def takeHeartbeat (s : State) (p : CxtPkt) : State :=
  if s.fld .ld 0 R.TWCFG_PAIREN = 0 ∨ p.hdr.sdev ≠ s.fld .ld 0 R.TWCFG_PARTNER then s
  else
    let s := checkProtected { s with hbHeard := true, partnerIdle := bitOf (p.data.getD 12 0).toNat 1 }
    if s.probing then
      let s := { s with probing := false }
      takeAbort s (stepNow s) false noDev noDev
    else s

/-- TILE_HOLD_TIMEOUT (R495): a tile not held 5 ms after the abort is given tile reset. -/
def execTileHoldTimeout (t : Nat) (s : State) : Host.Outcome State Fault Refusal :=
  .next (if s.aborting.isSome && s.bound t && s.tf t R.TSTAT_HELD == 0 && s.tf t R.TSTAT_HALTED == 0 && s.tstate t != fenced && s.tstate t != asleep
    then tileReset s t else s)

/-- SPARE_ANSWER_TIMEOUT (R503): the other spare is chosen; where neither answers, the job holds. -/
def execSpareAnswerTimeout (s : State) : Host.Outcome State Fault Refusal :=
  .next (match s.taking with
    | none => s
    | some k =>
      if !k.moved ∨ k.spare ≥ 2 then s
      else if k.spare = 0 then takeoverOn { s with taking := some { k with spare := 1, moved := false } }
      else logAndTell { s with taking := some { k with spare := 2, moved := false } } 0x0904 k.dev)

/-! ### The twin region -/

/-- The package address of an offset in a stack; a device with a twin runs stack-local placement (R337). -/
def stackAddr (k o : Nat) : Nat := k * 2 ^ 36 + o

/-- The address of slot `n`, journal entry `e` and error mirror slot `e` of a stack's twin region (R475). -/
def slotAddr (s : State) (k n : Nat) : Nat := s.fld .mc k R.TWREGION_BASE + 0x20_0000 * (1 + n * s.fld .mc k R.TWSIZE_PAGES)
def journalAddr (s : State) (k e : Nat) : Nat := slotAddr s k 2 + 4096 * e * s.fld .mc k R.TWSIZE_JBLK
def mirrorAddr (s : State) (k e : Nat) : Nat := journalAddr s k 2 + 4096 * e * s.fld .mc k R.TWSIZE_EBLK

/-- Header `n` of a control block: slots 0 and 1, journal entries 0 and 1 (R477). -/
def headOf (blk : List Byte) (n : Nat) : Nat := numAt blk 16 n

/-- The slot of the newest complete generation, and its step. -/
def newestGen (blk : List Byte) : Option (Nat × Nat) :=
  let c := (List.range 2).filter fun n => bits (headOf blk n) 32 32 == 1
  match c with
  | [] => none
  | n :: rest =>
    let best := rest.foldl (fun b m => if bits (headOf blk b) 31 0 < bits (headOf blk m) 31 0 then m else b) n
    some (best, bits (headOf blk best) 31 0)

/-- The journal entries marked RELEASED with a step above `g`, in ascending step: entry and step. -/
def releasedAfter (blk : List Byte) (g : Nat) : List (Nat × Nat) :=
  let es := (List.range 2).filter fun e => bits (headOf blk (2 + e)) 64 64 == 1 && decide (g < bits (headOf blk (2 + e)) 31 0)
  let ps := es.map fun e => (e, bits (headOf blk (2 + e)) 31 0)
  match ps with
  | [a, b] => if a.2 ≤ b.2 then [a, b] else [b, a]
  | _ => ps

/-- Those of them with SKIP 0. DEDUCED (log 52). -/
def replayable (blk : List Byte) (g : Nat) : List (Nat × Nat) := (releasedAfter blk g).filter fun e => bits (headOf blk (2 + e.1)) 65 65 == 0

/-- The control block of a stack's own twin region. -/
def controlBlock (s : State) (k : Nat) : List Byte := hbmBytes s (s.fld .mc k R.TWREGION_BASE) 64

/-! ### The spare (R495–R497) -/

/-- A READ of the spare from the twin, over the TWIN rails. -/
def pullRead (s : State) (dev k addr len : Nat) (kind : ReadKind) : State :=
  let s := { s with cxReads := s.cxReads ++ [⟨pathKey dev (8 * k), kind, len, []⟩] }
  cxtEmit s dev (8 * k) roleTWIN { baseHdr s opREAD dev (8 * k) with addr := addr, dlen := len } none [] .none

/-- The reads of the control blocks (R496), the first of the pull. -/
def startPull (s : State) (dev : Nat) : State :=
  (List.range 8).foldl (fun s k =>
    if s.fld .mc k R.TWREGION_EN = 0 then s else pullRead s dev k (s.fld .mc k R.TWREGION_BASE) 64 (.head k)) s

/-- Blocks read from the twin to addresses of the spare. -/
def pullBlocks (s : State) (dev k n from_ dst : Nat) : State :=
  (List.range n).foldl (fun s b => pullRead s dev k (from_ + 4096 * b) 4096 (.pull (dst + 4096 * b))) s

/-- What a stack's control block asks the spare to pull (R496): the newest complete generation, the journal entries to replay, and the error mirror slot of
the last step committed with SKIP 0, which is that of its journal entry. -/
def pullStack (s : State) (dev k : Nat) (blk : List Byte) : State :=
  let s := gatePut s (s.fld .mc k R.TWREGION_BASE) (blk.take 64)
  match newestGen blk with
  | none => s
  | some (slot, g) =>
    let ps := shardPages s k
    let s := (List.range ps.length).foldl (fun s i =>
      pullBlocks s dev k 512 (slotAddr s k slot + 0x20_0000 * i) (stackAddr k (0x20_0000 * ps.getD i 0))) s
    let js := replayable blk g
    let s := js.foldl (fun s e => pullBlocks s dev k (s.fld .mc k R.TWSIZE_JBLK) (journalAddr s k e.1) (journalAddr s k e.1)) s
    let last := ((List.range 2).filter fun e => bits (headOf blk (2 + e)) 64 64 == 1 && bits (headOf blk (2 + e)) 65 65 == 0).map
      fun e => (e, bits (headOf blk (2 + e)) 31 0)
    match last with
    | [] => s
    | a :: rest =>
      let e := (rest.foldl (fun (b : Nat × Nat) m => if b.2 < m.2 then m else b) a).1
      pullBlocks s dev k (s.fld .mc k R.TWSIZE_EBLK) (mirrorAddr s k e) (Config.errorMemory s.image k e)

/-- The control blocks that have come start the pulls of their stacks. -/
def pullOn (s : State) : State :=
  match s.pulling with
  | none => { s with heads := [] }
  | some dev => s.heads.foldl (fun s h => pullStack s dev h.1 h.2) { s with heads := [] }

/-- SPARE_CHOSEN (R495, step 3): the spare loads the failed device's tables, takes its number and is in takeover; the pull starts once the alias names
the spare's station (R495, step 4). -/
def execSpareChosen (dev twin : Nat) (s : State) : Host.Outcome State Fault Refusal :=
  let s := (addrPairs (Config.deviceTables s.image dev)).foldl (fun s e => storeReg s e.1 (.ofNat 64 e.2)) s
  let s := setLds (setLds (setLds s R.CXCFG_DEV dev) R.TWCFG_PARTNER twin) R.TWCFG_PAIREN 1
  let s : State := { setPair s 3 with pulling := some twin, dataReady := false, replayDue := true, stepHold := false,
                                      aborting := some { step := stepNow s, takeover := true, failed := dev, reported := true }, released := none }
  .next (if s.fld .ld 0 (R.CXALIAS_VALID dev) = 1 ∧ s.fld .ld 0 (R.CXALIAS_STATION dev) = s.fld .ld 0 R.CXCFG_STATION then startPull s twin else s)

/-- ALIAS_UPDATE (R436): the entry goes into every LD and the message on along the tree, then the generation; a spare that now answers for its number starts
its pull. -/
def takeAlias (s : State) (dev station gen : Nat) (valid : Bool) (from_ : Nat) : State :=
  let s := setLds (setLds s (R.CXALIAS_STATION dev) station) (R.CXALIAS_VALID dev) (b2n valid)
  let s := ctrlAll s (neighbours s [from_, dev]) 0x01 16 (toBytes dev 2 ++ toBytes station 2 ++ toBytes gen 4 ++ [.ofNat 8 (b2n valid)])
  let s := setAlias s gen
  match s.pulling with
  | some twin => if dev = s.ownDev ∧ station = s.fld .ld 0 R.CXCFG_STATION then startPull s twin else s
  | none => s

/-- STATE_PULL_COMPLETE (R496, R505): the pull ends when all its reads have; a pull that fails loses the pair's state. -/
def execStatePullComplete (ok : Bool) (s : State) : Host.Outcome State Fault Refusal :=
  .next (if s.pulling.isNone then s
    else if !ok then pairLost s
    else if s.cxReads.any fun r => match r.kind with | .tile _ _ => false | _ => true then s
    else { s with pulling := none })

/-- Whether the entry of a step is released with SKIP 1. -/
def skipped (blk : List Byte) (st : Nat) : Bool := (List.range 2).any fun e =>
  bits (headOf blk (2 + e)) 31 0 == st && bits (headOf blk (2 + e)) 64 64 == 1 && bits (headOf blk (2 + e)) 65 65 == 1

/-- The replay of the entries of one stack for a device (R497): `UUSTAT` ends at the last released step, with its SKIP. -/
def replayStack (s : State) (dev k : Nat) (blk : List Byte) (upto : Nat) : State :=
  match newestGen blk with
  | none => s
  | some (_, g) =>
    let plan := s.reg (regAddr .mc k R.UUPLAN)
    let res := s.reg (regAddr .mc k R.UURES)
    let note := s.reg (regAddr .mc k R.UUNOTIFY)
    let s := (s.setReg (regAddr .mc k R.UUPLAN) (.ofNat 64 (Config.replayPlan s.image dev k))).setFld .mc k R.UUNOTIFY_VALID 0
    let s := s.setFld .mc k R.UUSTAT_CSTEP g
    let s := ((replayable blk g).filter fun e => decide (e.2 ≤ upto)).foldl (fun s e =>
      let s := (s.setFld .mc k R.UURES_BASE (journalAddr s k e.1)).setFld .mc k R.UUSTAT_CSTEP (e.2 - 1)
      let s := s.setReg (regAddr .mc k R.UUCLIP) (.ofNat 64 (bits (headOf blk (2 + e.1)) 63 32))
      let s := s.setReg (regAddr .mc k R.UUGATE) (.ofNat 64 e.2)
      endStep (commitWrites s k e.2) k e.2 false) s
    let last := (releasedAfter blk g).foldl (fun m e => max m e.2) g
    let s := (((s.setReg (regAddr .mc k R.UUPLAN) plan).setReg (regAddr .mc k R.UURES) res).setReg (regAddr .mc k R.UUNOTIFY) note).setFld .mc k R.UUSTAT_CSTEP last
    s.setFld .mc k R.UUSTAT_LASTSKIP (b2n (skipped blk last))

/-- JOURNAL_REPLAY (R497): every stack, once the pull is done. -/
def execJournalReplay (s : State) : Host.Outcome State Fault Refusal :=
  .next (if s.fld .ld 0 R.TWSTAT_PAIR ≠ 3 ∨ s.pulling.isSome ∨ s.taking.isSome then s
    else (List.range 8).foldl (fun s k =>
      if s.fld .mc k R.TWREGION_EN = 0 then s else replayStack s s.ownDev k (controlBlock s k) (2 ^ 32)) { s with replayDue := false })

/-! ### Stage 2 at the twin (R494) -/

/-- The block of the partner's stack at an address as it stood after the commit of step `st`: from the complete generation of that step, or rebuilt from the
newest complete one and the journal; `none` where an entry is missing. -/
def twinBlock (s : State) (k addr st : Nat) : Option (List Byte) :=
  let dev := s.fld .ld 0 R.TWCFG_PARTNER
  let blk := controlBlock s k
  let page := bits addr 35 21
  let ps := Config.partnerPages s.image dev k
  let at_ := fun (n : Nat) => hbmBytes s (slotAddr s k n + 0x20_0000 * (ps.takeWhile fun p => p != page).length + addr % 0x20_0000 / 4096 * 4096) 4096
  if s.fld .mc k R.TWREGION_EN = 0 ∨ !ps.contains page then none
  else match (List.range 2).find? fun n => bits (headOf blk n) 32 32 == 1 && bits (headOf blk n) 31 0 == st with
    | some n => some (at_ n)
    | none =>
      match newestGen blk with
      | none => none
      | some (slot, g) =>
        let es := (releasedAfter blk g).filter fun e => decide (e.2 ≤ st)
        if st < g ∨ es.length ≠ st - g then none
        else
          let r := (List.range ps.length).foldl (fun (r : State) i =>
            hbmPut r (stackAddr k (0x20_0000 * ps.getD i 0)) (hbmBytes s (slotAddr s k slot + 0x20_0000 * i) 0x20_0000)) s
          some (hbmBytes (replayStack r dev k blk st) (addr / 4096 * 4096) 4096)

/-- TWIN_BLOCK_REQUEST (R494). -/
def execTwinBlockRequest (k addr st : Nat) (s : State) : Host.Outcome State Fault Refusal :=
  .next ((s.unwire (.twinAsk k addr st)).send (.twinGive k addr (twinBlock s k addr st)))

/-! ### The restart (R498) -/

/-- What OP-0x0902 records (R509): the lodge's ticks from the declaration to the update of the alias in the upper half, and from there to the restart in the lower. DESIGN CHOICE (log 94). -/
def takeoverTimes (s : State) (k : Takeover) : Nat := (k.movedAt - k.began) % 2 ^ 32 * 2 ^ 32 + (s.ticks - k.movedAt) % 2 ^ 32

/-- RESTART (R498): once every tile is still (R526) and a spare has pulled and replayed its state (R495, R501), the dies are reset, which waits until their buffers are empty; then the queues, routes and epochs, the step number, the notifications, the
copiers and the tiles. A device that has left the job or been replaced takes no part (R29, R492). A device that took part in a takeover is unprotected from here on (R502). DEDUCED (log 52). -/
def execRestart (s : State) : Host.Outcome State Fault Refusal :=
  .next (match s.aborting with
    | none => s
    | some _ =>
      if s.left ∨ s.replaced ∨ s.pulling.isSome ∨ s.replayDue ∨ !(List.range 8).all (dieStill s) then s
      else if !(List.range 8).all (dieIdle s) then (List.range 8).foldl (fun s d => if dieIdle s d then s else s.setFld .die d R.DRESET_PENDING 1) s
      else
        let s := (List.range 8).foldl askDieReset s
        let s := (List.range 2048).foldl (fun s t => s.setTf t R.TCTL_HOLD 0) s
        let spare := decide (s.fld .ld 0 R.TWSTAT_PAIR = 3) && s.taking.isNone
        let s := openTasks { s with aborting := none, devBars := [], stepHold := s.hostGone }
        let step := stepNow s
        let s := (boundTiles s).foldl (fun s t => (s.setTf t (R.NSCALE_STEP 0) step).setTf t (R.NSCALE_STEP 1) step) s
        let s := (List.range 8).foldl (fun s k =>
          if s.fld .mc k R.MCCFG_UUEN = 0 then s
          else notifyStep s k (s.fld .mc k R.UUSTAT_CSTEP) (s.fld .mc k R.UUSTAT_LASTSKIP == 1)) s
        let s := startGenerations s
        let s := if s.fld .ld 0 R.TWSTAT_PAIR = 3 then setPair { s with partnerIdle := false } 2 else s
        let s := match s.taking with | some k => logAndTell { s with taking := none } 0x0902 (takeoverTimes s k) | none => s
        if spare ∧ !s.dataReady then { s with startWaits := true } else startTiles { s with dataReady := false })

/-! ### The host, and ports -/

/-- HOST_LOST (R508). -/
def execHostLost (s : State) : Host.Outcome State Fault Refusal := .next (hostIsLost s)

/-- PORT_LINK_DOWN (R422). -/
def execPortLinkDown (p : Nat) (s : State) : Host.Outcome State Fault Refusal := .next (portGoesDown s p 1)

/-- PORT_RETRAIN (R422, R744): a port that is down and trains again returns to service at the next step boundary. -/
def execPortRetrain (p : Nat) (ok : Bool) (s : State) : Host.Outcome State Fault Refusal :=
  .next (if s.pf p R.FPSTAT_STATE = 0 ∧ ok then
      { s.setPf p R.FPSTAT_STATE 1 with portsBack := s.portsBack ++ [(p, mget (fun _ => []) s.portPeers p)] }
    else s)

/-- DIRECT_MODE_LINK_REPLAY (R422, R423): sixteen replays in a row without progress take the port down. -/
def execDirectModeLinkReplay (p : Nat) (progress : Bool) (s : State) : Host.Outcome State Fault Refusal :=
  .next (if s.pf p R.FPCFG_MODE = 0 ∨ !portUp s p then s
    else
      let n := if progress then 0 else mget (fun _ => 0) s.replays p + 1
      let s := { s.setPf p R.FPSTAT_REPLAY (satAdd (s.pf p R.FPSTAT_REPLAY) 1 0xFFFF) with replays := mput (fun _ => 0) s.replays p (if n ≥ 16 then 0 else n) }
      if n ≥ 16 then portGoesDown s p 2 else s)

/-- The paths on a port go on. -/
def flushPort (s : State) (p : Nat) : State :=
  (s.sendPaths.filter fun e => e.2.port == some p).foldl (fun s e => flushPath s e.1 (e.2.waiting.length + 1)) s

/-- PRIORITY_FLOW_CONTROL_FRAME (R423): on a ROUTED-LOSSLESS port and its priority, CXT pauses or goes on. -/
def execPriorityFlowControlFrame (p prio : Nat) (pause : Bool) (s : State) : Host.Outcome State Fault Refusal :=
  .next (if s.pf p R.FPCFG_MODE = 1 ∨ s.pf p R.FPCFG_PFC = 0 ∨ s.pf p R.FPCFG_PRIO ≠ prio then s
    else if pause then { s with paused := if s.paused.contains p then s.paused else s.paused ++ [p] }
    else flushPort { s with paused := s.paused.filter fun q => q ≠ p } p)

/-! ### Re-sharding (R455) -/

/-- Whether a bucket is open in some basin. -/
def bucketOpen (s : State) : Bool :=
  s.tiles.any fun e => (e.2.basins.any fun b => b.zeroing || b.due || decide (b.accepted > 0))

/-- RESHARD_APPLY (R455): at the boundary, with every tile held, every UU idle and no bucket open, the device takes the layout epoch of the new image, marks its shard pages
and resumes. How the pages that change owner travel the manual does not say. DESIGN CHOICE (log 54). -/
def execReshardApply (s : State) : Host.Outcome State Fault Refusal :=
  .next (match s.reshardTo with
    | none => s
    | some l =>
      if bucketOpen s ∨ !(List.range 8).all (fun k => dieStill s k && s.fld .mc k R.UUSTAT_STATE == 0) then s
      else
        let s := (imageRegs s).foldl (fun s e =>
          match regionOf s.grade e.1 with
          | .reg .mc _ off => if R.MCSHARD 0 ≤ off ∧ off < R.MCSHARD 512 then storeReg s e.1 (.ofNat 64 e.2) else s
          | _ => s) s
        let s := logAndTell (setLds { s with reshardTo := none, stepHold := s.hostGone } R.CXEPOCH_LAYOUT l) 0x0830 l
        if s.hostGone then s else (List.range 8).foldl releaseTiles s)

end Sys2Proof.Machine
end

