-- ==== Sys2Proof/Machine/Ctrl.lean ====
section
/-!
DEFINITION. The CXT packets that arrive (R426, R430), and the CTRL messages among them (R743).
-/

namespace Sys2Proof.Machine

/-- The answer to a command of a session that is open (R558–R562). -/
def hostAnswer (s : State) (sid tag result detail : Nat) (data : List Byte) : State :=
  if s.chp.sessions.any fun x => x.sid == sid then s.tellHost (.response sid tag result detail data) else s

/-- The results of R562. -/
abbrev resOK : Nat := 0
abbrev resNOT_CONTROL : Nat := 1
abbrev resBUSY : Nat := 2
abbrev resREFUSED : Nat := 3
abbrev resIDENTITY : Nat := 4
abbrev resEXHAUSTED : Nat := 5
abbrev resAUTH : Nat := 6
abbrev resSTATE : Nat := 7
abbrev resMALFORMED : Nat := 8
abbrev resFAILED : Nat := 9

/-- `TWCFG.PAIREN` and `HBEN` as an ALIAS command asks (R473, R594); a new pair is unprotected (R502). DEDUCED (log 53). -/
def setPairing (s : State) (en hb : Bool) : State :=
  let s := setLds (setLds s R.TWCFG_PAIREN (b2n en)) R.TWCFG_HBEN (b2n hb)
  if en then (if s.fld .ld 0 R.TWSTAT_PAIR = 0 then setLds s R.TWSTAT_PAIR 2 else s) else setLds s R.TWSTAT_PAIR 0

/-- An ALIAS command that waits ends once the partner's certificate has come (R594): alike, the pair is enabled; otherwise the command is answered
IDENTITY and SEC-0x000C is logged. DEDUCED (log 63). -/
def comparePair (s : State) : State :=
  match s.pairAsk with
  | none => s
  | some (sid, tag, en, hb) =>
    match s.gotCerts.find? fun c => c.1 == s.fld .ld 0 R.TWCFG_PARTNER with
    | none => s
    | some (dev, cert) =>
      let s := { s with pairAsk := none, gotCerts := s.gotCerts.filter fun c => c.1 ≠ dev }
      if cert = s.hostCert then hostAnswer (setPairing s en hb) sid tag resOK 0 []
      else hostAnswer (s.logSec 0x000C dev) sid tag resIDENTITY 0 []

/-- The bytes of each kind of CTRL record (R743). -/
def ctrlLen (kind : Nat) : Option Nat :=
  match kind with
  | 1 => some 16 | 2 => some 16 | 3 => some 16 | 4 => some 8 | 5 => some 12 | 6 => some 12 | 7 => some 12 | 8 => some 20 | 9 => some 8 | 10 => some 12
  | 11 => some 2084
  | _ => none

/-- A field of a CTRL record: `n` bytes from byte `i`. -/
def ctl (bs : List Byte) (i n : Nat) : Nat := ofBytes ((bs.drop i).take n)

/-- What a device does with a CTRL record of a kind of the table. -/
def ctrlEffect (s : State) (from_ kind : Nat) (bs : List Byte) : State :=
  match kind with
  | 1 => takeAlias s (ctl bs 4 2) (ctl bs 6 2) (ctl bs 8 4) (bitOf (ctl bs 12 1) 0) from_
  | 2 => takeEpochNotice s (ctl bs 4 2) (ctl bs 6 2) (ctl bs 8 1) (ctl bs 10 2)
  | 3 =>
    let e := (ctl bs 4 2, ctl bs 6 1)
    { s with peerDown := (s.peerDown.filter fun x => x ≠ e) ++ (if ctl bs 7 1 = 0 then [e] else []) }
  | 4 => if ctl bs 4 2 = s.fld .ld 0 R.TWCFG_PARTNER then declareFailed s 1 else s
  | 5 => if ctl bs 4 2 = s.ownDev then isReplaced s else s
  | 6 => takeAbort s (ctl bs 4 4) (bitOf (ctl bs 8 1) 0) (ctl bs 10 2) from_
  | 7 => takeReport s from_ (if bitOf (ctl bs 8 1) 0 then none else some (ctl bs 4 4))
  | 8 => takeRelease s ((bs.drop 4).take 16) from_
  | 9 =>
    let s := ctrlAll s (neighbours s [from_]) 0x09 8 (toBytes (ctl bs 4 2) 2)
    setLds s R.CXEPOCH_LAYOUT (ctl bs 4 2)
  | 10 => s.send (.credit ⟨s.ownDev, ctl bs 4 2, false⟩ (ctl bs 6 2) (ctl bs 8 2) (ctl bs 10 2))
  | 11 => comparePair { s with gotCerts := (s.gotCerts.filter fun c => c.1 ≠ from_) ++ [(from_, (bs.drop 4).take 2080)] }
  | _ => s

/-- A CTRL packet (R743): a kind that the table lacks, or of another length, is answered with ADDRESS. -/
def landCtrl (s : State) (p : CxtPkt) : Nat × State :=
  let kind := ctl p.data 0 2
  if ctrlLen kind = some p.data.length then (stOK, ctrlEffect s p.hdr.sdev kind p.data) else (stADDRESS, s)

/-- The operations that concern the gatehouse: BARRIER and CTRL; any other code is discarded. -/
def landGate (s : State) (p : CxtPkt) : Nat × State :=
  if p.hdr.op = opBARRIER then (stOK, landBarrier s p)
  else if p.hdr.op = opCTRL then landCtrl s p
  else (stADDRESS, s)

/-- The operations without a number: ACK, GRANT and HEARTBEAT. An acknowledgement that carries a newer alias generation than the device's tells it that it
has been replaced (R492). -/
def landPlain (s : State) (p : CxtPkt) : State :=
  if p.hdr.op = opACK then
    if p.hdr.tag = stSTALE_EPOCH ∧ p.hdr.aliasGen ≠ s.fld .ld 0 R.CXEPOCH_ALIAS then
      if psnBefore (s.fld .ld 0 R.CXEPOCH_ALIAS) p.hdr.aliasGen then isReplaced s else s
    else tryBars (takeAck s p.hdr)
  else if p.hdr.op = opGRANT then takeGrant s p
  else if p.hdr.op = opHEARTBEAT then takeHeartbeat s p
  else s

/-- A packet of an operation received. -/
def receiveOp (s : State) (p : CxtPkt) (op : Nat) : State := receive landGate landPlain s { p with hdr := { p.hdr with op := op } }

/-- A CTRL packet of a kind received. -/
def receiveCtrl (s : State) (p : CxtPkt) (kind : Nat) : State := receiveOp s { p with data := toBytes kind 2 ++ p.data.drop 2 } opCTRL

/-- CXT_WRITE (R426, R430). -/
def execCxtWrite (p : CxtPkt) (s : State) : Host.Outcome State Fault Refusal := .next (receiveOp s p opWRITE)

/-- CXT_JWRITE (R426, R486). -/
def execCxtJwrite (p : CxtPkt) (s : State) : Host.Outcome State Fault Refusal := .next (receiveOp s p opJWRITE)

/-- CXT_SEND (R426, R430). -/
def execCxtSend (p : CxtPkt) (s : State) : Host.Outcome State Fault Refusal := .next (receiveOp s p opSEND)

/-- CXT_READ (R426, R750). -/
def execCxtRead (p : CxtPkt) (s : State) : Host.Outcome State Fault Refusal := .next (receiveOp s p opREAD)

/-- CXT_RDATA (R750): a control block that a spare has pulled starts the pull of its stack (R496). -/
def execCxtRdata (p : CxtPkt) (s : State) : Host.Outcome State Fault Refusal := .next (pullOn (receiveOp s p opRDATA))

/-- CXT_BARRIER (R437). -/
def execCxtBarrier (p : CxtPkt) (s : State) : Host.Outcome State Fault Refusal := .next (receiveOp s p opBARRIER)

/-- CXT_ACK (R749). -/
def execCxtAck (p : CxtPkt) (s : State) : Host.Outcome State Fault Refusal := .next (receiveOp s p opACK)

/-- CXT_GRANT (R428). -/
def execCxtGrant (p : CxtPkt) (s : State) : Host.Outcome State Fault Refusal := .next (receiveOp s p opGRANT)

/-- CXT_HEARTBEAT (R490). -/
def execCxtHeartbeat (p : CxtPkt) (s : State) : Host.Outcome State Fault Refusal := .next (receiveOp s p opHEARTBEAT)

/-- ALIAS_UPDATE (R436). -/
def execAliasUpdate (p : CxtPkt) (s : State) : Host.Outcome State Fault Refusal := .next (receiveCtrl s p 1)

/-- QUEUE_EPOCH_NOTICE (R434). -/
def execQueueEpochNotice (p : CxtPkt) (s : State) : Host.Outcome State Fault Refusal := .next (receiveCtrl s p 2)

/-- PORT_NOTICE (R422). -/
def execPortNotice (p : CxtPkt) (s : State) : Host.Outcome State Fault Refusal := .next (receiveCtrl s p 3)

/-- FAILURE_NOTICE (R491). -/
def execFailureNotice (p : CxtPkt) (s : State) : Host.Outcome State Fault Refusal := .next (receiveCtrl s p 4)

/-- REPLACED_NOTICE (R492). -/
def execReplacedNotice (p : CxtPkt) (s : State) : Host.Outcome State Fault Refusal := .next (receiveCtrl s p 5)

/-- ABORT (R495). -/
def execAbort (p : CxtPkt) (s : State) : Host.Outcome State Fault Refusal := .next (receiveCtrl s p 6)

/-- ABORT_REPORT (R489). -/
def execAbortReport (p : CxtPkt) (s : State) : Host.Outcome State Fault Refusal := .next (receiveCtrl s p 7)

/-- RELEASE_RECORD (R489). -/
def execReleaseRecord (p : CxtPkt) (s : State) : Host.Outcome State Fault Refusal := .next (receiveCtrl s p 8)

/-- LAYOUT_EPOCH (R456). -/
def execLayoutEpoch (p : CxtPkt) (s : State) : Host.Outcome State Fault Refusal := .next (receiveCtrl s p 9)

/-- CTRL_CREDIT_RETURN (R741). -/
def execCtrlCreditReturn (p : CxtPkt) (s : State) : Host.Outcome State Fault Refusal := .next (receiveCtrl s p 10)

/-- DEVICE_CERTIFICATE (R594). -/
def execDeviceCertificate (p : CxtPkt) (s : State) : Host.Outcome State Fault Refusal := .next (receiveCtrl s p 11)

end Sys2Proof.Machine
end

