-- ==== Sys2Proof/Machine/Lodge.lean ====
section
/-!
DEFINITION. The lease (R518–R521), the disagreement of the two halves (R527–R529), and the writes that reach registers: by command record (R522–R525), and in
general (R11).
-/

namespace Sys2Proof.Machine

/-- The state with the lodge changed. -/
def State.modLodge (s : State) (f : Lodge → Lodge) : State := { s with lodge := f s.lodge }

/-- The state with MRAM changed. -/
def State.modMram (s : State) (f : Mram → Mram) : State := { s with mram := f s.mram }

/-- A field of every `DLEASE`. -/
def setLease (s : State) (f : Fld) (v : Nat) : State := (List.range 41).foldl (fun s n => s.setLf n f v) s

/-- The gatehouses in the order in which the lodge takes what they submit at once: the holder first (R610). -/
def ghOrder (s : State) : List Nat :=
  s.ghUp.filter (fun g => s.lodge.holder == some g) ++ s.ghUp.filter (fun g => s.lodge.holder != some g)

/-- Both gatehouses log an event and report it to the host, one record each. -/
def bothLog (s : State) (code detail : Nat) : State :=
  hostEvent ((ghOrder s).foldl (fun s g => s.submit { code := code, src := 1 + g, detail := detail }) s) code false detail

/-! ### The lease (R518–R521) -/

/-- ARBITER_FAULT (R529): every die holds, and no lease is renewed or granted. -/
def arbiterFails (s : State) : State :=
  if s.lodge.arbFault then s
  else bothLog (setLease (setLease (s.modLodge fun l => { l with arbFault := true }) R.DLEASE_HELD 1) R.DLEASE_ARBFAULT 1) 0x0A03 0

/-- The configuration hash (R319, R553), which the holder computes anew after every change to the record. DESIGN CHOICE (log 72). -/
def configHash (s : State) : List Byte :=
  Config.sha384 (Config.configRecord (if s.grade = .cg2048 then 0 else 1)
    (s.fencedPos.map fun f => f.1 * 512 + f.2.1 * 16 + f.2.2)
    ((List.range 80).flatMap fun i =>
      let fld := fun (f : Nat → Fld) => s.fld .die (i / 10) (f (i % 10))
      [fld R.ERLINK_ROLE, fld R.ERLINK_CPLVER, fld R.ERLINK_RATE, fld R.ERLINK_MODULES, (s.reg (regAddr .die (i / 10) (R.ERPEER (i % 10)))).toNat])
    (s.badRouters.map fun f => f.1 * 512 + f.2.1 * 16 + f.2.2)
    ((if s.lodge.slot = 0 then s.mram.slotA else s.mram.slotB).image.getD Config.factoryFirmware))

/-- Stage 5 of R533: the end of a trial boot (R590). -/
def stageFive (s : State) : State :=
  let s := s.modLodge fun l => { l with stage := max l.stage 5 }
  let run := if s.lodge.slot = 0 then s.mram.slotA else s.mram.slotB
  if run.st ≠ 3 then s
  else
    let svn := numAt (run.image.getD Config.factoryFirmware) 2 6
    let ok : FwSlot := { run with st := 1 }
    let s := s.modMram fun m =>
      { m with slotA := if s.lodge.slot = 0 then ok else { m.slotA with st := 4 }, slotB := if s.lodge.slot = 0 then { m.slotB with st := 4 } else ok,
               minSvn := max m.minSvn svn }
    s.logSec 0x0008 (s.lodge.slot + svn * 2 ^ 8)

/-- LEASE_GRANT (R518, R520): the epoch rises in MRAM, goes to every die with the holder, and the lease is granted. At the last epoch the arbiter fails (R521). -/
def grantLease (s : State) (gh : Nat) : State :=
  if s.mram.epoch ≥ 2 ^ 32 - 1 then arbiterFails s
  else
    let e := s.mram.epoch + 1
    let s := s.modMram fun m => { m with epoch := e }
    let s := setLease (setLease (setLease s R.DLEASE_EPOCH e) R.DLEASE_HOLDER gh) R.DLEASE_VALID 1
    let s := s.modLodge fun l => { l with holder := some gh, termOver := false, lapse := false, firstAsk := none, stale := l.stale.filter fun g => g ≠ gh }
    if s.lodge.stage = 4 then stageFive s else s

/-- Whether the lodge can grant a lease: the arbiter works, and no term runs. -/
def leaseFree (s : State) : Bool :=
  decide (s.lodge.stage ≥ 4) && !s.lodge.boardTest && !s.lodge.arbFault && (s.lodge.holder.isNone || s.lodge.termOver)

/-- Lodge ticks in 1 ms. -/
abbrev msTicks : Nat := 25_000

/-- LEASE_REQUEST (R520): the first lease goes to the first that asks, to GH-N where both ask within 1 ms. DEDUCED (log 55). -/
def execLeaseRequest (gh : Nat) (s : State) : Host.Outcome State Fault Refusal :=
  .next (if !s.ghUp.contains gh ∨ !leaseFree s then s
    else if s.lodge.stage ≠ 4 ∨ s.lodge.holder.isSome then grantLease s gh
    else match s.lodge.firstAsk with
      | none => if gh = 0 then grantLease s 0 else s.modLodge fun l => { l with firstAsk := some s.ticks }
      | some t => if gh = 0 ∧ s.ticks < t + msTicks then grantLease s 0 else grantLease s 1)

/-- LEASE_RENEW_REQUEST (R518, R519): the holder's term begins anew; after its end a request is a request for the lease. DEDUCED (log 55). -/
def execLeaseRenewRequest (gh : Nat) (s : State) : Host.Outcome State Fault Refusal :=
  .next (if s.lodge.arbFault ∨ !s.ghUp.contains gh then s
    else if s.lodge.holder = some gh ∧ !s.lodge.termOver then s.modLodge fun l => { l with lapse := false }
    else if leaseFree s then grantLease s gh
    else s)

/-- LEASE_RELEASE (R519). -/
def execLeaseRelease (s : State) : Host.Outcome State Fault Refusal := .next (s.modLodge fun l => { l with holder := none, termOver := false })

/-- LEASE_TERM_EXPIRY (R519): the lease may go elsewhere. -/
def execLeaseTermExpiry (s : State) : Host.Outcome State Fault Refusal :=
  .next (s.modLodge fun l => { l with termOver := l.holder.isSome })

/-- HOLDER_RENEWAL_LAPSE (R519): the holder issues no command until a renewal is answered. -/
def execHolderRenewalLapse (s : State) : Host.Outcome State Fault Refusal :=
  .next (s.modLodge fun l => { l with lapse := l.holder.isSome })

/-- ARBITER_FAULT. -/
def execArbiterFault (s : State) : Host.Outcome State Fault Refusal := .next (arbiterFails s)

/-- GATEHOUSE_FAILSTOP (R517). -/
def execGatehouseFailstop (gh : Nat) (s : State) : Host.Outcome State Fault Refusal := .next (ghFails s gh)

/-- STALE_COMMAND (R527): the gatehouse stops issuing commands, logs OP-0x0A01 and goes on as standby. -/
def execStaleCommand (gh : Nat) (s : State) : Host.Outcome State Fault Refusal :=
  .next (if !s.ghUp.contains gh then s
    else (s.modLodge fun l => { l with stale := (l.stale.filter fun g => g ≠ gh) ++ [gh] }).submit { code := 0x0A01, src := 1 + gh, detail := gh })

/-! ### Keepalives (R528) -/

/-- KEEPALIVE_MISSED (R528, R531): the die holds its tiles and reports to the gatehouse that does not lead, which logs and tells the host. -/
def execKeepaliveMissed (n : Nat) (s : State) : Host.Outcome State Fault Refusal :=
  .next (if s.lf n R.DLEASE_LODGEOK = 0 then s
    else
      let s := (s.setLf n R.DLEASE_LODGEOK 0).setLf n R.DLEASE_HELD 1
      let other := 1 - s.lf n R.DLEASE_HOLDER
      let kind := if n < 8 then 0 else if n < 40 then 3 else 4
      let num := (leaseBlock n).2
      let key := kind * 65536 + num
      let seq := mget (fun _ => 0) s.repSeq key
      let s := { s with repSeq := mput (fun _ => 0) s.repSeq key ((seq + 1) % 2 ^ 32) }
      let s := mailReport s other (mkReport 0x0A02 0 kind num (s.lf n R.DLEASE_EPOCH) seq 4 0)
      hostEvent (s.submit { code := 0x0A02, src := 1 + other, detail := n }) 0x0A02 false n)

/-- `DLEASE.HELD` written 0 by the holder (R528, R569): the die's tiles go on, once keepalives have resumed. DEDUCED (log 58). -/
def clearHeld (s : State) (n : Nat) : State :=
  if s.lf n R.DLEASE_LODGEOK = 0 then s
  else
    let s := s.setLf n R.DLEASE_HELD 0
    if n < 8 then (List.range 256).foldl (fun s i => unhold s (256 * n + i)) s else s

/-- DLEASE_HELD_CLEAR. -/
def execDleaseHeldClear (d : Nat) (s : State) : Host.Outcome State Fault Refusal := .next (clearHeld s d)

/-! ### Register writes -/

/-- A write of some bits of a register under the access types of its fields (R11, R523): where the mask is 0 a RW or RWS bit keeps its value, and a W1C bit is not
cleared. -/
def storeMasked (s : State) (a : Nat) (v m : Word) : State :=
  match regionOf s.grade a with
  | .reg b _ off =>
    match regDescAt b off with
    | none => s
    | some d =>
      let old := s.reg a
      storeReg s a (d.fields.foldl (fun w f =>
        match f.acc with
        | .W1C => wset w f.hi f.lo (wget (v &&& m) f.hi f.lo)
        | _ => wset w f.hi f.lo (wget ((old &&& ~~~m) ||| (v &&& m)) f.hi f.lo)) (0 : Word))
  | _ => s

/-- The reader of a queue of reports moves its head (R530, R532): the slots it has passed are free, and held reports enter. -/
def moveHead (s : State) (ptr : Nat) (n head : Nat) : State :=
  let w := s.reg ptr
  let freed := (head + n - wget w 7 0 % n) % n
  let w := wset w 7 0 (head % n)
  s.setReg ptr (wset w 24 16 (wget w 24 16 - freed))

/-- Reports that wait for a gatehouse's mailbox are offered again, in order. -/
def feedMail (s : State) (g : Nat) : State :=
  (mget (fun _ => []) s.mbHeld g).foldl (fun s r => mailReport s g r) { s with mbHeld := mput (fun _ => []) s.mbHeld g [] }

/-- Every bit. -/
abbrev ones : Word := ~~~(0 : Word)

/-- Whether a tile register is written only while the tile is asleep (R85, R124, R167, R213). DEDUCED (log 87). -/
def sleepOnly (off : Nat) : Bool :=
  [R.TPROG, R.SPCFG, R.SOAKCFG, R.MGANG 0, R.MGANG 1, R.NSEED 0, R.NSEED 1, R.CONECFG 0, R.CONECFG 1].contains off || (decide (0x400 ≤ off ∧ off < 0x600) && decide (off % 0x20 < 0x10)) ||
    decide (0x800 ≤ off ∧ off < 0x1800)

/-- The bits of a tile register that a write stores in the tile's state (R85, R124, R167, R213, R410, R414, R575): of `WKEPOCHn` all but EPOCH, of `PREDSLOTp` only EN, and of
`TPWR` all but CLASS, while the tile is not asleep. DEDUCED (log 87). -/
def writableBits (s : State) (t off : Nat) : Word :=
  if s.tstate t = asleep then ones
  else if sleepOnly off then 0
  else if 0x400 ≤ off ∧ off < 0x600 ∧ off % 0x20 = 0x10 then ~~~0xFFFF
  else if 0x3C00 ≤ off % 0x8000 ∧ off % 0x8000 < 0x3C80 then 0x8_0000_0000
  else if off = R.TPWR then ~~~0xC0
  else ones

/-- A route that is rewritten opens again (R261, R279). -/
def routeOpens (s : State) (t off : Nat) : State :=
  if 0x4800 ≤ off ∧ off < 0x4A00 then s.setTf t (R.CHROUTE_CLOSED ((off - 0x4800) / 8)) 0 else s

/-- A write of a tile register through its hardware's effects: those of `TCTL` (R81), `NSCLR` (R221) and `CONETAG` (R692); any other is stored. DEDUCED (log 87). -/
def writeTileReg (s : State) (t off a : Nat) (v m : Word) : State :=
  let x := v &&& m
  if off = R.TCTL then
    let s := storeMasked s a v m
    let s := unhold s t
    let s := if wget x 4 4 = 1 then tileReset s t else s
    let s := if wget x 2 2 = 1 ∧ s.tstate t ≠ fenced ∧ s.bound t then fenceTile s t else s
    if wget x 0 0 = 1 then tctlStart s t else s
  else if off = R.NSCLR then
    let s := clearSlots s t (s.actx t) (wget x 31 0)
    if wget x 32 32 = 1 then clearCone s t else s
  else if off = R.CONETAG 0 ∨ off = R.CONETAG 1 then writeConetag s t (if off = R.CONETAG 0 then 0 else 1) ((s.reg a &&& ~~~m) ||| x)
  else routeOpens (storeMasked s a v (m &&& writableBits s t off)) t off

/-- Every tile of a die is asleep, or fenced. -/
def dieAsleep (s : State) (d : Nat) : Bool :=
  (List.range 256).all fun i => let st := s.tstate (256 * d + i); st == asleep || st == fenced

/-- A write of a register of a die block: `RSCTL.ARM` (R327), `DLEASE.HELD` (R569), `DRESET.GO` (R576) and `DCQPTR.HEAD` (R532); `DMPCFG` is written only while the
die's tiles are asleep (R571). DEDUCED (log 87). -/
def writeDieReg (s : State) (d off a : Nat) (v m : Word) : State :=
  let x := v &&& m
  if off = R.RSCTL then
    let s := storeMasked s a v m
    if wget x 0 0 = 1 then armDetour s d else s
  else if off = R.DLEASE then (if wget m 35 35 = 1 ∧ wget v 35 35 = 0 then clearHeld s d else storeMasked s a v m)
  else if off = R.DRESET then (if wget x 0 0 = 1 then askDieReset s d else s)
  else if off = R.DCQPTR then
    let s := if wget m 63 32 = 0 then s else storeMasked s a v (m &&& ~~~(0xFFFF_FFFF : Word))
    if wget m 5 0 = 0 then s else feedDie (moveHead s a 64 (wget v 5 0)) d 16
  else if off = R.DMPCFG then (if dieAsleep s d then storeMasked s a v m else s)
  else storeMasked s a v m

/-- Whether a job has ended or been aborted and the next has not started. -/
def jobBoundary (s : State) : Bool := s.aborting.isSome || !s.tiles.any fun e => e.2.started

/-- The bits of an MC, UU or twin register that a write stores in the device's state (R367, R380, R510): the placement, the shard bitmap, the plan, the rules, the tables and
the notification only while the UU is idle at a job boundary, `UUSTAT.CSTEP` only while the UU is idle, and the twin region only at a job boundary. DEDUCED (log 87). -/
def mcBits (s : State) (k off : Nat) : Word :=
  let idle := s.fld .mc k R.UUSTAT_STATE == 0
  if off = R.MCCFG ∨ off = R.UUPLAN ∨ off = R.UURULE ∨ off = R.UUHIST ∨ off = R.UURES ∨ off = R.UUNOTIFY ∨ (0x1000 ≤ off ∧ off < 0x2000) then
    if idle && jobBoundary s then ones else 0
  else if off = R.UUSTAT then (if idle then ones else 0xFFFF_FFFF)
  else if off = R.TWREGION ∨ off = R.TWSIZE then (if jobBoundary s then ones else 0)
  else ones

/-- A write of a register of an MC and UU block: `TWCOPY.EN` (R483) and `UUGATE` (R360). -/
def writeMcReg (s : State) (k off a : Nat) (v m : Word) : State :=
  if off = R.TWCOPY then (if wget m 2 2 = 1 then setCopier s k (wget v 2 2 == 1) else s)
  else if off = R.UUGATE then writeGate s k ((s.reg a &&& ~~~m) ||| (v &&& m))
  else storeMasked s a v (m &&& mcBits s k off)

/-- A write of a register of an LD block: `CXEPOCH.ALIAS` and `CXCFG.EN` (R748), `DLEASE.HELD`. -/
def writeLdReg (s : State) (ld off a : Nat) (v m : Word) : State :=
  let s' := storeMasked s a v m
  if off = R.CXEPOCH then (if wget m 47 16 = 0 then s' else resetPaths s')
  else if off = R.CXCFG then (if wget (v &&& m) 48 48 = 1 then resetPaths s' else s')
  else if off = R.DLEASE ∧ wget m 35 35 = 1 ∧ wget v 35 35 = 0 then clearHeld s (8 + ld)
  else s'

/-- A write of the bits of a mask of the register at a package address, with all that it does. -/
def writeReg (s : State) (a : Nat) (v m : Word) : State :=
  match regionOf s.grade a with
  | .reg .tile t off => writeTileReg s t off a v m
  | .reg .die d off => writeDieReg s d off a v m
  | .reg .mc k off => writeMcReg s k off a v m
  | .reg .ld ld off => writeLdReg s ld off a v m
  | .reg .hd _ off => if off = R.DLEASE ∧ wget m 35 35 = 1 ∧ wget v 35 35 = 0 then clearHeld s 40 else storeMasked s a v m
  | .reg .gh g off => if off = R.GHMBOX then
      let s := if wget m 63 32 = 0 then s else storeMasked s a v (m &&& ~~~(0xFFFF_FFFF : Word))
      if wget m 7 0 = 0 then s else feedMail (moveHead s a 256 (wget v 7 0)) g
    else s
  | _ => s

/-! ### Command records (R522–R525) -/

/-- The die whose command port serves a package address, numbered as `leaseBlock`: a GC's serves its die block, its tiles and its MC and UU block. -/
def portFor (s : State) (a : Nat) : Option Nat :=
  match regionOf s.grade a with
  | .reg .tile t _ => some (t / 256)
  | .reg .die d _ => some d
  | .reg .mc k _ => some k
  | .reg .ld n _ => some (8 + n)
  | .reg .hd _ _ => some 40
  | .spad t _ => some (t / 256)
  | _ => none

/-- Whether check 3 of R524 passes for a target of some bytes: within the port's blocks, not reserved, a scratchpad target in groups that are ON, a register target
whole and occupied (R14). -/
def targetOk (s : State) (port a n : Nat) : Bool :=
  match regionOf s.grade a with
  | .spad t off =>
    t / 256 == port && s.bound t && decide (off + n ≤ 0x20_0000) && (List.range 8).all fun g =>
      decide (g < off / 0x4_0000) || decide ((off + n - 1) / 0x4_0000 < g) || groupState s t g == 2
  | .reg b t off =>
    portFor s a == some port && off % 8 == 0 && (b != .tile || s.bound t) && (List.range (n / 8)).all fun i => (regDescAt b (off + 8 * i)).isSome
  | _ => false

/-- A record at a command port of a gatehouse (R524): the checks in order, the status and the epoch of the port, and `eff` where all pass. A gatehouse that has failed, has
had STALE, or whose own lease time has lapsed (R519, R527) issues none. -/
def record (s : State) (port gh epoch : Nat) (ok : Bool) (eff : State → State) : State :=
  if !s.ghUp.contains gh ∨ s.lodge.stale.contains gh ∨ (s.lodge.lapse ∧ s.lodge.holder = some gh) then s
  else
    let blk := leaseBlock port
    let done := fun (s : State) (status : Nat) =>
      (s.setFld blk.1 blk.2 (R.DCMDST_EPOCH gh) epoch).setFld blk.1 blk.2 (R.DCMDST_STATUS gh) status
    let cur := s.lf port R.DLEASE_EPOCH
    if epoch < cur ∨ (epoch = cur ∧ s.lf port R.DLEASE_HOLDER ≠ gh) then done s 1
    else
      let s := if epoch > cur then ((s.setLf port R.DLEASE_EPOCH epoch).setLf port R.DLEASE_HOLDER gh).setLf port R.DLEASE_VALID 1 else s
      if !ok then done s 2 else eff (done s 0)

/-- A command record of a gatehouse at the port that serves its target. -/
def command (s : State) (gh epoch a : Nat) (ok : Bool) (eff : State → State) : State :=
  record s ((portFor s a).getD 0) gh epoch ((portFor s a).isSome && ok) eff

/-- Bytes that a gatehouse writes into a tile's scratchpad; the merge entries of their rows take no more reads (R114). -/
def putSpad (s : State) (t a : Nat) (bs : List Byte) : State :=
  let off := a - spadAddr t 0
  (List.range ((off + bs.length - 1) / 64 + 1 - off / 64)).foldl (fun s i => s.modTile t fun x => closeMerge x (off / 64 + i)) (s.wr a bs)

/-- A word written by a record (R523). -/
def writeWord (a : Nat) (v : Word) (s : State) : State :=
  match regionOf s.grade a with
  | .spad t _ => putSpad s t a (toBytes v.toNat 8)
  | _ => writeReg s a v ones

/-- The bits of a mask of a word written by a record (R523). -/
def maskWord (a : Nat) (v m : Word) (s : State) : State :=
  match regionOf s.grade a with
  | .spad t _ => putSpad s t a (toBytes (((BitVec.ofNat 64 (ofBytes (s.rd a 8))) &&& ~~~m) ||| (v &&& m)).toNat 8)
  | _ => writeReg s a v m

/-- A copy of bytes from HBM to a scratchpad or to registers. -/
def copyIn (s : State) (src dst len : Nat) : State :=
  let bs := hbmBytes s src len
  match regionOf s.grade dst with
  | .spad t _ => putSpad s t dst bs
  | _ => (List.range (len / 8)).foldl (fun s i => writeReg s (dst + 8 * i) (.ofNat 64 (numAt bs 8 i)) ones) s

/-- Whether checks 3 and 4 of R524 pass for a copy. -/
def copyOk (s : State) (port src dst len : Nat) : Bool :=
  targetOk s port dst len && hbmAddr src && hbmAddr (src + len - 1) && decide (8 ≤ len) && decide (len ≤ 4096) && len % 8 == 0

/-- COMMAND_WRITE (R523). -/
def execCommandWrite (gh epoch a : Nat) (v : Word) (s : State) : Host.Outcome State Fault Refusal :=
  .next (command s gh epoch a (targetOk s ((portFor s a).getD 0) a 8) (writeWord a v))

/-- COMMAND_MASKED_WRITE (R523). -/
def execCommandMaskedWrite (gh epoch a : Nat) (v m : Word) (s : State) : Host.Outcome State Fault Refusal :=
  .next (command s gh epoch a (targetOk s ((portFor s a).getD 0) a 8) (maskWord a v m))

/-- COMMAND_COPY (R523, R524). -/
def execCommandCopy (gh epoch src dst len : Nat) (s : State) : Host.Outcome State Fault Refusal :=
  .next (command s gh epoch dst (copyOk s ((portFor s dst).getD 0) src dst len) fun s => copyIn s src dst len)

/-! ### Register writes as commands (R523, R574) -/

/-- The place of a command port's word: the port's die, its gatehouse, and the number of the word. -/
def dcmdAt (s : State) (a : Nat) : Option (Nat × Nat × Nat) :=
  let at_ := fun (port off : Nat) =>
    if 0xF000 ≤ off ∧ off < 0xF080 ∧ off % 0x40 < 0x20 ∧ off % 8 = 0 then some (port, (off - 0xF000) / 0x40, off % 0x40 / 8) else none
  match regionOf s.grade a with
  | .reg .die d off => at_ d off
  | .reg .ld n off => at_ (8 + n) off
  | .reg .hd _ off => at_ 40 off
  | _ => none

/-- The record whose words stand at a command port from address `a` on (R523); a record with another operation, or a bit above it set, ends with ADDRESS. DESIGN CHOICE (log 92). -/
def runRecord (s : State) (port gh a : Nat) : State :=
  let w := fun k => mget (fun _ => (0 : Word)) s.dcmd (a + 8 * k)
  let dst := wget (w 1) 39 0
  let len := wget (w 2) 15 0
  let src := wget (w 3) 39 0
  let run := fun ok eff => record s port gh (wget (w 0) 31 0) ok eff
  match wget (w 0) 63 32 with
  | 0 => run (targetOk s port dst 8) (writeWord dst (w 2))
  | 1 => run (targetOk s port dst 8) (maskWord dst (w 2) (w 3))
  | 2 => run (copyOk s port src dst len) fun s => copyIn s src dst len
  | _ => run false id

/-- REGISTER_WRITE (R11, R13): a write of a register as a whole. A word of a command port is kept, and the last of a record executes it (R523, R574). -/
def execRegisterWrite (a : Nat) (v : Word) (s : State) : Host.Outcome State Fault Refusal :=
  let s := s.unwire (.regWrite a v)
  .next (match dcmdAt s a with
    | some (port, gh, k) =>
      let s := { s with dcmd := mput (fun _ => 0) s.dcmd a v }
      if k = 3 then runRecord s port gh (a - 24) else s
    | none => writeReg s a v ones)

end Sys2Proof.Machine
end

