-- ==== Sys2Proof/Machine/Power.lean ====
section
/-!
DEFINITION. Start-up (R533, R534), power states (R535–R537, R716–R720), switchable functions (R538–R540), alarms (R722–R724), the damper (R543–R548) and
throttling (R549, R550).
-/

namespace Sys2Proof.Machine

/-! ### Alerts (R724, R731) -/

/-- Bits [7:5] and up of the alert cause word hold no cause; a cause is a bit 0–4. -/
abbrev causeSlots : Nat := 0
abbrev causeCrypto : Nat := 1
abbrev causeRefclk : Nat := 2
abbrev causeHot : Nat := 3
abbrev causePmb : Nat := 4

/-- An alert cause arises: `ALERT_N` is asserted, the cause word goes into MRAM, and where a session exists to the control session. -/
def raiseCause (s : State) (bit addr : Nat) : State :=
  let old := if addr = 0 then s.lodge.cause else bits s.lodge.cause 7 0 + addr % 256 * 2 ^ 8
  let c := if bitOf old bit then old else old + 2 ^ bit
  let s := (s.modLodge fun l => { l with cause := c }).modMram fun m => { m with savedCause := c }
  if s.chp.control.isSome then hostEvent s (Config.eventCode 67) false c else s

/-- A cause no longer holds; the address of a failed device goes with its cause. -/
def clearCause (s : State) (bit : Nat) : State := s.modLodge fun l =>
  let c := if bitOf l.cause bit then l.cause - 2 ^ bit else l.cause
  { l with cause := if bit = causePmb then bits c 7 0 else c }

/-- Whether `ALERT_N` is asserted. -/
def alertN (s : State) : Bool := s.lodge.cause % 32 != 0

/-- The alert cause word (R731). -/
def causeWord (s : State) : Nat := s.lodge.cause + s.lodge.prevCause * 2 ^ 32

/-! ### Loss of power to the dies, and package reset -/

/-- What a register keeps short of package reset (R11): its RWS fields; its other fields stand at reset. DEDUCED (log 58). -/
def rwsOf (b : Block) (off : Nat) (w : Word) : Word :=
  match regDescAt b off with
  | some d => d.fields.foldl (fun v f => match f.acc with | .RWS => wset v f.hi f.lo (wget w f.hi f.lo) | _ => v) d.reset
  | none => 0

/-- The registers of the device with their RWS fields alone. -/
def keptRegs (s : State) : List (Nat × Word) :=
  s.regs.foldl (fun m e => match regionOf s.grade e.1 with
    | .reg b _ off => mput resetOf m e.1 (rwsOf b off e.2)
    | _ => m) []

/-- A physical tile that has lost its power: it keeps the RWS fields of its registers, and a fence (R68). -/
def Parked.lost (p : Parked) : Parked :=
  let reset := fun (off : Nat) => resetOf (regAddr .tile 0 off)
  let m := p.regs.foldl (fun m e => mput reset m e.1 (rwsOf .tile e.1 e.2)) []
  let st := wget (mget reset p.regs R.TSTAT) R.TSTAT_STATE.hi R.TSTAT_STATE.lo
  { regs := if st = fenced then mput reset m R.TSTAT (wset (reset R.TSTAT) R.TSTAT_STATE.hi R.TSTAT_STATE.lo fenced) else m }

/-- Every die but the lodge has lost power: what is left is the lodge, MRAM with the repair record, the RWS fields (R11), and what has gone to the host. No number is
bound. DEDUCED (log 58). -/
def diesLost (s : State) : State :=
  let s := s.bind.foldl (fun s b => unbindTile s b.1) s
  { State.reset with
    regs := keptRegs s, parked := s.parked.map fun e => (e.1, e.2.lost),
    grade := s.grade, pending := s.pending, fresh := s.fresh, toHost := s.toHost, ticks := s.ticks, utcPs := s.utcPs, mram := s.mram, lodge := s.lodge, tap := s.tap,
    toLog := s.toLog, rowNotes := s.rowNotes, rowQueue := s.rowQueue, spareRows := s.spareRows, fencedPos := s.fencedPos, badRouters := s.badRouters,
    unserviceable := s.unserviceable, mcs := s.mcs.map fun e => (e.1, ({ retired := e.2.retired, due := e.2.due, notes := e.2.notes } : Mc)),
    chp := { nextSid := s.chp.nextSid } }

/-- The part falls back to AON (R536, R537, R550, R719): PV 0–11 and the HBM rails are off, and the contents of the stacks are lost. DEDUCED (log 58). -/
def toAon (s : State) : State :=
  (diesLost s).modLodge fun l =>
    { l with stage := min l.stage 2, vhbm := false, rails := false, pvX := false, holder := none, termOver := false, lapse := false, firstAsk := none, stale := [],
             latches := [], stopping := [], hbmKept := false, zeroFill := true, power := none, loading := none, starting := none, hostHold := false, loaded := false,
             cool := [], therm := [], samples := [], high := 0, dropped := none, low := 0, capped := false }

/-- The remap tables of every bank as the repair record gives them (R109). -/
def remapAll (s : State) : List (Nat × Parked) :=
  s.spareRows.foldl (fun m r => mput (fun _ => {}) m r.1 { tile := { rowRemap := remapOf s r.1 (fun _ => true) [] } }) []

/-- Package reset (R11, R109, R534, R720, R731): what is volatile in the lodge goes too, the RWS fields clear, the remap tables load, the saved cause word moves up, and
MRAM keeps its contents. -/
def packageReset (s : State) : State :=
  let s' := diesLost s
  { s' with regs := [], parked := remapAll s, toLog := [], tap := {}, mram := { s.mram with savedCause := 0 }, utcPs := s.utcPs,
            lodge := { vinc := s.lodge.vinc, vinx := s.lodge.vinx, prevCause := s.mram.savedCause % 2 ^ 16, domain := 0 } }

/-- PORST_N_ASSERT (R534, R607, R720). -/
def execPorstNAssert (s : State) : Host.Outcome State Fault Refusal := .next (if s.lodge.off then s else packageReset s)

/-- VAON_LOST (R535, R607): power state OFF; the clock of the lodge stops, and what UTC shows afterwards the manual does not say. DESIGN CHOICE (log 8). -/
def execVaonLost (s : State) : Host.Outcome State Fault Refusal :=
  let f := s.freeNat
  .next { (packageReset f.2).modLodge (fun l => { l with off := true, vinc := 0, vinx := false }) with utcPs := f.1, mram := s.mram }

/-- VAON_IN_RANGE (R533, stage 1): from OFF the part comes up into package reset. -/
def execVaonInRange (s : State) : Host.Outcome State Fault Refusal :=
  .next (if s.lodge.off then packageReset (s.modLodge fun l => { l with off := false }) else s)

/-! ### Power states -/

/-- The power state (R535, R570). -/
def pstate (s : State) : Nat := s.fld .die 0 R.DPWR_PSTATE

/-- A stage fails (R534): OP-0x0A10 with the stage, told to the host where a session exists; the command that waits for it is answered FAILED. DEDUCED (log 55). -/
def stageFails (s : State) (n : Nat) : State :=
  let s := s.submit { code := 0x0A10, src := 0, detail := n }
  let s := if s.chp.sessions.isEmpty then s else hostEvent s 0x0A10 false n
  let fail := fun (s : State) (a : Option Ask) => match a with | some a => hostAnswer s a.sid a.tag resFAILED 0x0A10 [] | none => s
  if n = 9 then fail (s.modLodge fun l => { l with power := none }) s.lodge.power
  else if n = 10 then fail (s.modLodge fun l => { l with loading := none }) s.lodge.loading
  else if n ≥ 11 then fail (s.modLodge fun l => { l with starting := none }) s.lodge.starting
  else s.modLodge fun l => { l with failed := true }

/-- The stage in progress; 0 where none is. -/
def stageNow (s : State) : Nat :=
  if (s.lodge.power.map Ask.arg) = some 3 then 9
  else if s.lodge.loading.isSome then 10
  else if s.lodge.starting.isSome then 11
  else if s.lodge.stage < 7 ∧ !s.lodge.porst ∧ !s.lodge.failed then s.lodge.stage + 1
  else 0

/-- BOOT_STAGE_FAIL (R534). -/
def execBootStageFail (s : State) : Host.Outcome State Fault Refusal := .next (if stageNow s = 0 then s else stageFails s (stageNow s))

/-! ### Switchable functions (R538–R540) -/

/-- The state of a function: 0 OFF, 1 STARTING, 2 ON, 3 STOPPING. A fabric port that is down is still ON. -/
def fnState (s : State) (fn : Nat) : Nat :=
  if fn < 8 then s.fld .die fn R.DPWR_TDOM
  else if fn < 16 then s.fld .die (fn - 8) R.DPWR_NPLL
  else if fn < 24 then s.fld .die (fn - 16) R.DPWR_PLL
  else if fn < 32 then s.fld .mc (fn - 24) R.MCSTAT_STATE
  else if fn < 96 then
    if s.lodge.stopping.contains fn then 3
    else match s.pf (fn - 32) R.FPSTAT_STATE with | 3 => 0 | 1 => 1 | _ => 2
  else s.fld .die 0 R.DPWR_HD

/-- The state with a function in a state. -/
def setFn (s : State) (fn v : Nat) : State :=
  if fn < 8 then s.setFld .die fn R.DPWR_TDOM v
  else if fn < 16 then s.setFld .die (fn - 8) R.DPWR_NPLL v
  else if fn < 24 then s.setFld .die (fn - 16) R.DPWR_PLL v
  else if fn < 32 then s.setFld .mc (fn - 24) R.MCSTAT_STATE v
  else if fn < 96 then
    let s := s.modLodge fun l => { l with stopping := (l.stopping.filter fun f => f ≠ fn) ++ (if v = 3 then [fn] else []) }
    match v with
    | 0 => s.setPf (fn - 32) R.FPSTAT_STATE 3
    | 1 => s.setPf (fn - 32) R.FPSTAT_STATE 1
    | 2 => (s.setPf (fn - 32) R.FPSTAT_STATE 2).setPf (fn - 32) R.FPSTAT_LANES (s.pf (fn - 32) R.FPCFG_LANES)
    | _ => s
  else s.setFld .die 0 R.DPWR_HD v

/-- The bank groups of the tiles of a die are all OFF. -/
def groupsOff (s : State) (d : Nat) : Bool := (List.range 256).all fun i => (List.range 8).all fun g => groupState s (256 * d + i) g == 0

/-- The parent of a function is ON, where it has one. -/
def parentOn (s : State) (fn : Nat) : Bool := if 16 ≤ fn ∧ fn < 24 then fnState s (fn - 16) == 2 else true

/-- Every child of a function is OFF; a tile domain also waits until every tile is asleep. -/
def childrenOff (s : State) (fn : Nat) : Bool :=
  if fn < 8 then fnState s (fn + 16) == 0 && dieAsleep s fn
  else if 16 ≤ fn ∧ fn < 24 then groupsOff s (fn - 16)
  else true

/-- The latch of a function. -/
def setLatch (s : State) (fn : Nat) (v : Option Bool) : State :=
  s.modLodge fun l => { l with latches := (l.latches.filter fun x => x.1 ≠ fn) ++ (match v with | some b => [(fn, b)] | none => []) }

/-- An MC that starts from loss of its contents zero-fills its stack (R335). -/
def startsMc (s : State) (fn : Nat) : State :=
  if 24 ≤ fn ∧ fn < 32 ∧ (s.lodge.zeroFill ∨ !s.lodge.hbmKept) then s.setFld .mc (fn - 24) R.MCSTAT_ZEROING 1 else s

/-- Whether a function is a fabric port of a site that holds a third-party die, where it stays OFF (R320). -/
def thirdPartyPort (s : State) (fn : Nat) : Bool :=
  let n := (fn - 32) / 2
  decide (32 ≤ fn) && decide (fn < 96) && s.fld .die (n / 4) (R.ERLINK_ROLE (match n % 4 with | 0 => 0 | 1 => 9 | 2 => 3 | _ => 6)) == 4

/-- A request for a function (R320, R539). -/
def requestFn (s : State) (fn : Nat) (en : Bool) : State :=
  match fnState s fn, en with
  | 0, true => if parentOn s fn && !thirdPartyPort s fn then startsMc (setFn s fn 1) fn else s
  | 2, false => if childrenOff s fn then setFn s fn 3 else s
  | 1, b => setLatch s fn (if b then none else some false)
  | 3, b => setLatch s fn (if b then some true else none)
  | _, _ => s

/-! ### Moving between the states (R533, R536) -/

/-- The functions of stage 9. -/
def tileFns : List Nat := List.range 8 ++ (List.range 8).map (16 + ·)
def mcFns : List Nat := (List.range 8).map (24 + ·)
def portFns : List Nat := (List.range 64).map (32 + ·)

/-- Training begins on the die links that are not yet trained (R316), among some of a die's edge routers. DEDUCED (log 55). -/
def trainLinks (s : State) (want : Nat → Nat → Bool) : State :=
  (List.range 8).foldl (fun s d => (List.range 10).foldl (fun s e =>
    if want d e ∧ linkOf d e ≠ .none ∧ s.fld .die d (R.ERLINK_STATE e) = 0 then s.setFld .die d (R.ERLINK_STATE e) 1 else s) s) s

/-- Stage 9: the rails, the stacks, the tile domains and PLLs, as far as their power-goods have come. -/
def rise (s : State) : State :=
  let s := if s.lodge.vhbm then mcFns.foldl (fun s f => if fnState s f = 0 then requestFn s f true else s) s else s
  let s := (List.range 8).foldl (fun s g =>
    if !bitOf s.lodge.vinc g then s
    else if fnState s g = 0 then requestFn s g true
    else if fnState s g = 2 ∧ fnState s (16 + g) = 0 then requestFn s (16 + g) true
    else s) s
  trainLinks s fun _ _ => true

/-- READY is reached: pages due since a failed recovery are retired first (R349), and the tiles are asleep. -/
def reachReady (s : State) (a : Ask) : State :=
  let s := (List.range 8).foldl retireDue s
  let s := s.modLodge fun l => { l with stage := max l.stage 9, power := none, zeroFill := false, hbmKept := true, loaded := false }
  hostAnswer (setPstate s 3) a.sid a.tag resOK 0 []

/-- The descent to STANDBY (R536): children before parents. -/
def fall (s : State) : State :=
  let s := portFns.foldl (fun s f => if fnState s f = 2 then requestFn s f false else s) s
  let s := (List.range 8).foldl (fun s g => if fnState s (16 + g) = 2 then requestFn s (16 + g) false else s) s
  let s := (List.range 8).foldl (fun s g => if fnState s g = 2 then requestFn s g false else s) s
  mcFns.foldl (fun s f => if fnState s f = 2 then requestFn s f false else s) s

/-- Every function of some is in a state. -/
def allFns (s : State) (fns : List Nat) (v : Nat) : Bool := fns.all fun f => fnState s f == v

/-- The power command in progress goes on as far as it can. DESIGN CHOICE (log 56). -/
def powerOn (s : State) : State :=
  match s.lodge.power with
  | none => s
  | some a =>
    if a.arg = 3 then
      let s := rise s
      if allFns s (tileFns ++ mcFns) 2 then reachReady s a else s
    else
      let s := if pstate s ≥ 3 then fall s else s
      if pstate s ≥ 3 ∧ !allFns s (tileFns ++ mcFns ++ portFns) 0 then s
      else if a.arg = 2 then hostAnswer (setPstate (s.modLodge fun l => { l with power := none, loaded := false }) 2) a.sid a.tag resOK 0 []
      else
        let fns := 96 :: (List.range 8).map (8 + ·)
        let s := fns.foldl (fun s f => if fnState s f = 2 then requestFn s f false else s) s
        if allFns s fns 0 then toAon (hostAnswer s a.sid a.tag resOK 0 []) else s

/-- The stacks begin the zero-fill that a new owner calls for (R335). -/
def startFill (s : State) : State :=
  (List.range 8).foldl (fun s k => s.setFld .mc k R.MCSTAT_ZEROING 1) (s.modLodge fun l => { l with zeroFill := false })

/-- No stack is being zero-filled. -/
def fillsDone (s : State) : Bool := (List.range 8).all fun k => s.fld .mc k R.MCSTAT_ZEROING == 0

/-- The end of the job seen by the lodge (R335, R535): from RUN to READY once every tile is asleep and the job has ended or a HOLD is in force, and the stacks have been
zero-filled where a new owner was admitted. DESIGN CHOICE (log 56). -/
def lookRun (s : State) : State :=
  if pstate s = 4 ∧ (s.lodge.hostHold ∨ s.tiles.all fun e => !e.2.started) ∧ (List.range 8).all (dieAsleep s) then
    if s.lodge.zeroFill then startFill s
    else if fillsDone s then setPstate s 3 else s
  else s

/-- FUNCTION_STOPPING_END (R539). -/
def execFunctionStoppingEnd (fn : Nat) (s : State) : Host.Outcome State Fault Refusal :=
  .next (if fnState s fn ≠ 3 then s
    else
      let on := s.lodge.latches.contains (fn, true)
      let s := setLatch (setFn s fn 0) fn none
      powerOn (if on then requestFn s fn true else s))

/-! ### Start-up (R533) -/

/-- The release of `PORST_N` (R577, R579, R584, R724, R730): `TRST_N` is sampled, the seed is reconstructed, the LMS index read, and the lodge ROM begins stage 2
where `REFCLK_AON` runs. -/
def execPorstNRelease (trst refclk : Bool) (s : State) : Host.Outcome State Fault Refusal :=
  .next (if s.lodge.off ∨ !s.lodge.porst then s
    else
      let seed := Config.pufSeed Config.helperData
      let ok := seed.length == 32
      let s := s.modLodge fun l =>
        { l with porst := false, boardTest := trst, refclk := refclk, stage := if refclk then 1 else 0, seed := if ok then seed else [], cryptoErr := !ok,
                 lms := max (s.mram.lmsA.getD 0) (s.mram.lmsB.getD 0) }
      let s := if ok then s else raiseCause (s.logSec 0x0009 0) causeCrypto 0
      if refclk then s else raiseCause s causeRefclk 0)

/-- REFCLK_AON_ARRIVAL (R724). -/
def execRefclkAonArrival (s : State) : Host.Outcome State Fault Refusal :=
  .next (if s.lodge.off ∨ s.lodge.porst ∨ s.lodge.refclk then s
    else clearCause (s.modLodge fun l => { l with refclk := true, stage := 1 }) causeRefclk)

/-- PV_X_POWER_ON (R533, stage 3; R718): with `PG_VINX` the lodge switches on PV 8–11, and the network PLLs start. -/
def execPvXPowerOn (s : State) : Host.Outcome State Fault Refusal :=
  .next (if s.lodge.stage ≠ 2 ∨ s.lodge.failed ∨ !s.lodge.vinx ∨ s.lodge.pvX then s
    else ((List.range 8).map (8 + ·)).foldl (fun s f => requestFn s f true) (s.modLodge fun l => { l with pvX := true }))

/-- HOST_PORT_TRAINED (R533, stage 7). -/
def execHostPortTrained (s : State) : Host.Outcome State Fault Refusal :=
  .next (if s.lodge.stage ≠ 6 ∨ s.lodge.failed then s else s.modLodge fun l => { l with stage := 7 })

/-! ### Power-goods (R716–R719) -/

/-- POWER_GOOD_RISE (R718): inputs 0–7 `PG_VINC`, 8 `PG_VINX`, 9 `PG_VHBM`; the stage that waited goes on. -/
def execPowerGoodRise (inp : Nat) (s : State) : Host.Outcome State Fault Refusal :=
  .next (if s.lodge.porst then s
    else powerOn (s.modLodge fun l =>
      { l with vinc := if inp < 8 then l.vinc ||| 2 ^ inp else l.vinc, vinx := l.vinx || inp == 8, vhbm := l.vhbm || inp == 9 }))

/-- A tile that loses its supply: it is reset, asleep if it is not fenced (R68), and its bank groups are off. -/
def tileLost (s : State) (t : Nat) : State :=
  let s := ((tileReset s t).modTile t looseTile).setTf t R.SPGSTATE_G 0
  { s with gov := s.gov.filter fun r => r.1 ≠ t }

/-- The scratchpads of a domain lose their contents. -/
def loseScratch (s : State) (g : Nat) : State :=
  { s with mem := mdrop (fun a => decide (spadAddr (256 * g) 0 ≤ a) && decide (a < spadAddr (256 * g + 256) 0)) s.mem }

/-- A GC's tile domain has lost its power (R537). -/
def domainLost (s : State) (g : Nat) : State :=
  loseScratch ((List.range 256).foldl (fun s i => tileLost s (256 * g + i)) (setFn (setFn s (16 + g) 0) g 0)) g

/-- POWER_GOOD_VINC_FALL (R537, R718). -/
def execPowerGoodVincFall (g : Nat) (s : State) : Host.Outcome State Fault Refusal :=
  .next (if s.lodge.porst then s
    else
      let s := s.modLodge fun l => { l with vinc := if bitOf l.vinc g then l.vinc - 2 ^ g else l.vinc }
      if pstate s ≥ 3 then leaveJob (domainLost (s.submit { code := 0x0A12, src := 0, detail := g }) g)
      else if stageNow s = 9 then stageFails s 9
      else s)

/-- POWER_GOOD_VINX_FALL (R535, R537, R718). -/
def execPowerGoodVinxFall (s : State) : Host.Outcome State Fault Refusal :=
  .next (if s.lodge.porst then s
    else
      let s := s.modLodge fun l => { l with vinx := false }
      let n := stageNow s
      let s := if pstate s < 3 ∧ n ≥ 3 then stageFails s n else s
      if pstate s ≥ 2 then toAon (s.submit { code := 0x0A12, src := 0, detail := 8 }) else if s.lodge.pvX then toAon s else s)

/-- The loss of every stack (R719). -/
def stacksLost (s : State) : State :=
  (List.range 8).foldl (fun s k => mcFatal (s.setMc k { s.mc k with lost := true }) k) s

/-- PG_VHBM_FALL (R719): OP-0x0A13; in READY and RUN the stacks are lost, in STANDBY the part returns to AON. -/
def vhbmFalls (s : State) : State :=
  let s := s.modLodge fun l => { l with vhbm := false }
  if !s.lodge.rails then s
  else
    let s := s.submit { code := 0x0A13, src := 0, detail := 0 }
    if pstate s ≥ 3 then stacksLost s
    else toAon (if stageNow s = 9 then stageFails s 9 else s)

/-- PG_VHBM_FALL. -/
def execPgVhbmFall (s : State) : Host.Outcome State Fault Refusal := .next (if s.lodge.porst then s else vhbmFalls s)

/-- POWER_GOOD_TIMEOUT (R718): the stage that waits for an input fails. -/
def execPowerGoodTimeout (s : State) : Host.Outcome State Fault Refusal :=
  .next (if s.lodge.stage = 2 ∧ !s.lodge.porst ∧ !s.lodge.failed ∧ !s.lodge.vinx then stageFails s 3
    else if stageNow s = 9 ∧ (!s.lodge.vhbm ∨ s.lodge.vinc ≠ 0xFF) then stageFails s 9
    else s)

/-! ### The damper (R543–R548) -/

/-- The share of a tile and the extra cost of a clock step (R543), in units of 0.05 W. -/
def shareOf (t : Nat) : Nat := match classOf t with | 0 => 37 | 1 => 11 | _ => 7
def stepCost (t n : Nat) : Nat :=
  match classOf t with
  | 0 => [0, 2, 4, 6, 9, 11, 14].getD n 14
  | 1 => [0, 1, 2, 2, 3, 4, 4].getD n 4
  | _ => [0, 1, 1, 2, 2, 3, 3].getD n 3

/-- The bound tiles of a die. -/
def dieTiles (s : State) (d : Nat) : List Nat := (List.range 256).filterMap fun i => if s.bound (256 * d + i) then some (256 * d + i) else none

/-- The pool of a GC: its budget less the shares that are not lent and the extra costs. DESIGN CHOICE (log 57). -/
def poolOf (s : State) (d : Nat) : Int :=
  let used : Nat := ((dieTiles s d).map fun t => (if s.tf t R.TPWR_LENT = 1 then 0 else shareOf t) + stepCost t (s.tf t R.TPWR_STEP)).foldl (· + ·) 0
  (s.fld .die d R.DMPSTAT_BUDGET : Int) - (used : Int)

/-- `DMPSTAT` brought up to date. -/
def showPool (s : State) (d : Nat) : State :=
  let ts := dieTiles s d
  let s := s.setFld .die d R.DMPSTAT_POOL (wrap (poolOf s d) 16)
  let s := s.setFld .die d R.DMPSTAT_LENT (ts.filter fun t => s.tf t R.TPWR_LENT == 1).length
  s.setFld .die d R.DMPSTAT_BOOSTED (ts.filter fun t => decide (s.tf t R.TPWR_STEP > 0)).length

/-- Every borrowing tile of a GC drops to step 0. -/
def dropSteps (s : State) (d : Nat) : State := showPool ((dieTiles s d).foldl (fun s t => s.setTf t R.TPWR_STEP 0) s) d

/-- The next step offered to a tile (R545). -/
def offerStep (s : State) (d t : Nat) : State :=
  let n := s.tf t R.TPWR_STEP
  if s.tstate t = running ∧ s.tf t R.TPWR_CLASS > 0 ∧ s.tf t R.TPWR_LENT = 0 ∧ s.tf t R.TPWR_RECALL = 0 ∧ n < s.fld .die d R.DMPCFG_MAXSTEP ∧
      ((stepCost t (n + 1) - stepCost t n : Nat) : Int) ≤ poolOf s d then s.setTf t R.TPWR_STEP (n + 1)
  else s

/-- DAMPER_PERIOD (R545, R546): the shares of recalling tiles come back; a pool that is then negative drops every borrower; otherwise each eligible tile is offered
one step, in descending class. DESIGN CHOICE (log 57). -/
def execDamperPeriod (d : Nat) (s : State) : Host.Outcome State Fault Refusal :=
  let ts := dieTiles s d
  let s := ts.foldl (fun s t => if s.tf t R.TPWR_RECALL = 1 then
    ((s.setTf t R.TPWR_LENT 0).setTf t R.TPWR_RECALL 0).setTf t R.TPWR_REDUCED 0 else s) s
  .next (if poolOf s d < 0 then dropSteps s d
    else if s.fld .die d R.DMPCFG_BOOSTEN = 0 ∨ s.fld .die d R.DMPTHR_STRETCH > 0 then showPool s d
    else showPool ([3, 2, 1].foldl (fun s c => (ts.filter fun t => s.tf t R.TPWR_CLASS == c).foldl (fun s t => offerStep s d t) s) s) d)

/-- PACKAGE_DAMPER_PERIOD (R543): the budgets of the GCs; their measured power is what the telemetry gives. DESIGN CHOICE (log 57). -/
def execPackageDamperPeriod (s : State) : Host.Outcome State Fault Refusal :=
  .next ((List.range 8).foldl (fun s d =>
    let f := s.freeNat
    let s := f.2.setFld .die d R.DMPSTAT_POWER (f.1 % 2 ^ 14)
    showPool (s.setFld .die d R.DMPSTAT_BUDGET (((dieTiles s d).map shareOf).foldl (· + ·) 0 + 1125)) d) s)

/-- The stretch of a die (R548, R549): what temperature asks for, and 2 while the package is capped. DESIGN CHOICE (log 57). -/
def showStretch (s : State) (d : Nat) : State :=
  let th := mget (fun _ => 0) s.lodge.therm d
  let n := max th (if s.lodge.capped then 2 else 0)
  let s := ((s.setFld .die d R.DMPTHR_STRETCH n).setFld .die d R.DMPTHR_THERM (b2n (decide (th > 0)))).setFld .die d R.DMPTHR_CAP (b2n s.lodge.capped)
  if n > 0 then dropSteps s d else s

/-- PACKAGE_POWER_SAMPLE (R548). -/
def execPackagePowerSample (w : Nat) (s : State) : Host.Outcome State Fault Refusal :=
  let l := s.lodge
  let samples := (w :: l.samples).take 100
  let avg := samples.foldl (· + ·) 0 / samples.length
  let high := if w > 4500 then l.high + 1 else 0
  let s := if samples.length = 100 ∧ avg > 4500 then
      (List.range 8).foldl (fun s d =>
        showPool (s.setFld .die d R.DMPSTAT_BUDGET (s.fld .die d R.DMPSTAT_BUDGET - (avg - 4500) * 20 / 8)) d) s
    else s
  let trip := (decide (w > 5400) || decide (high = 11)) && l.dropped.isNone && !l.capped
  let s := if trip then ((List.range 8).foldl dropSteps s).submit { code := 0x0A20, src := 0, detail := w } else s
  let dropped := if trip then some 0 else l.dropped.map (· + 1)
  let due := decide (dropped = some 10)
  let low := if l.capped ∧ w < 4500 then l.low + 1 else 0
  let capped := (l.capped && decide (low < 100)) || (due && decide (w > 4500))
  let s := s.modLodge fun l => { l with samples := samples, high := high, dropped := if due then none else dropped, low := if capped then low else 0, capped := capped }
  .next (if capped ≠ l.capped then (List.range 8).foldl showStretch s else s)

/-- TILE_LEND (R544): a tile that soaks on a long wait, or has waited 4,096 cycles, lends its share. DEDUCED (log 31). -/
def execTileLend (t : Nat) (s : State) : Host.Outcome State Fault Refusal :=
  let st := s.tstate t
  .next (if s.fld .die (t / 256) R.DMPCFG_LENDEN = 0 ∨ s.tf t R.TPWR_LENT = 1 ∨ !s.bound t ∨ (st ≠ soaking ∧ st ≠ asleep) ∨
      ((s.tile t).held.isNone ∧ (recvBlockedOn (s.tile t)).isNone) then s
    else showPool (((s.setTf t R.TPWR_LENT 1).setTf t R.TPWR_STEP 0).setTf t R.TPWR_LENDS (satAdd (s.tf t R.TPWR_LENDS) 1 (2 ^ 32 - 1))) (t / 256))

/-! ### Temperature (R549, R550, R723) -/

/-- THERMTRIP (R550, R723): OP-0x0A22, `THERMTRIP_N`, and the part falls to AON. -/
def thermTrip (s : State) (temp : Nat) : State :=
  toAon ((s.submit { code := 0x0A22, src := 0, detail := temp }).modLodge fun l => { l with thermtrip := true })

/-- One GC's reading (R549). -/
def readTemp (s : State) (d temp : Nat) : State :=
  let n := mget (fun _ => 0) s.lodge.therm d
  let c := if temp ≤ 93 then mget (fun _ => 0) s.lodge.cool d + 1 else 0
  let n' := if temp ≥ 97 then min 8 (n + 1) else if c = 10 then n - 1 else n
  let s := (s.setFld .die d R.DMPTHR_TJ (min temp 255)).modLodge fun l =>
    { l with therm := mput (fun _ => 0) l.therm d n', cool := mput (fun _ => 0) l.cool d (if c = 10 then 0 else c) }
  showStretch s d

/-- THERMAL_READ (R549, R550): readings by die, the GCs first. -/
def execThermalRead (temps : List Nat) (s : State) : Host.Outcome State Fault Refusal :=
  .next (if s.lodge.off ∨ s.lodge.porst then s
    else if temps.any fun x => decide (x ≥ 105) then thermTrip s (temps.foldl max 0)
    else (List.range (min 8 temps.length)).foldl (fun s d => readTemp s d (temps.getD d 0)) s)

/-- THERMAL_HOLD (R550): 10 ms at 100 °C with the stretch at 8: the device holds every tile. -/
def execThermalHold (d : Nat) (s : State) : Host.Outcome State Fault Refusal :=
  .next (if s.fld .die d R.DMPTHR_TJ ≥ 105 then thermTrip s (s.fld .die d R.DMPTHR_TJ)
    else if s.fld .die d R.DMPTHR_TJ < 100 ∨ s.fld .die d R.DMPTHR_STRETCH < 8 ∨ s.fld .die d R.DMPTHR_HOTHOLD = 1 then s
    else
      let s := holdAll (s.setFld .die d R.DMPTHR_HOTHOLD 1)
      raiseCause (hostEvent (s.submit { code := 0x0A21, src := 0, detail := d }) 0x0A21 false d) causeHot 0)

end Sys2Proof.Machine
end

