-- ==== Sys2Proof/Machine/Kiln.lean ====
section
/-!
DEFINITION. The kiln log (R608–R615), certificates and signatures (R581–R583), and firmware (R586–R591).
-/

namespace Sys2Proof.Machine

/-! ### The kiln log -/

/-- The records that each partition holds (R608). -/
abbrev opRecords : Nat := 65_536
abbrev secRecords : Nat := 16_384

/-- The entry of a code in the code table of R609; the codes beyond the table share the last entry. DEDUCED (log 60). -/
def codeEntry (k : Kiln) (code : Nat) : Nat := min ((k.codes.takeWhile fun c => c != code).length) 1023

/-- The code table with a code in it, while there is room. DEDUCED (log 60). -/
def learnCode (k : Kiln) (code : Nat) : Kiln := if k.codes.contains code ∨ k.codes.length ≥ 1023 then k else { k with codes := k.codes ++ [code] }

/-- The state with the log changed. -/
def State.modKiln (s : State) (f : Kiln → Kiln) : State := s.modMram fun m => { m with kiln := f m.kiln }

/-- The record of a submission (R608). Its stamp is the later of UTC and the latest stamp written (R567). DEDUCED (log 60). -/
def logRecord (s : State) (l : LogSub) (seq suppressed : Nat) : LogRec :=
  let last := s.mram.kiln.stamp
  { code := l.code, cls := b2n l.sec + 2 * b2n s.lodge.unsync + 4 * l.kind + 16 * b2n (decide (s.utcUs < last)), seq := seq, start := max s.utcUs last, len := 0,
    suppressed := suppressed, count := l.count, min := l.min, max := l.max, bins := l.bins, detail := l.detail }

/-- The event that tells the control session that a partition is full (R612). DESIGN CHOICE (log 12). -/
def tellFull (s : State) (sec : Bool) : State := if s.chp.control.isSome then hostEvent s (Config.eventCode 69) sec (b2n sec) else s

/-- A submission of class SEC (R610, R612). -/
def logSecurity (s : State) (l : LogSub) : State :=
  let n := s.mram.kiln.sec.length
  if n ≥ secRecords then s.modKiln fun k => { k with lostSec := satAdd k.lostSec 1 (2 ^ 32 - 1) }
  else
    let r := logRecord s l n 0
    let s := s.modKiln fun k => { k with sec := k.sec ++ [r], stamp := r.start }
    if n + 1 = secRecords then tellFull s true else s

/-- A submission of class OP (R609, R612): written where no window of its code is open and the partition has room; otherwise counted. -/
def logOperational (s : State) (l : LogSub) : State :=
  let s := s.modKiln fun k => learnCode k l.code
  let k := s.mram.kiln
  let e := codeEntry k l.code
  let n := k.op.length
  let zero := fun (_ : Nat) => (0 : Nat)
  if k.windows.contains e ∨ n ≥ opRecords then
    s.modKiln fun k => { k with overflow := mput zero k.overflow e (satAdd (mget zero k.overflow e) 1 (2 ^ 32 - 1)),
                                suppressed := mput zero k.suppressed e (satAdd (mget zero k.suppressed e) 1 (2 ^ 32 - 1)) }
  else
    let r := logRecord s l n (mget zero k.suppressed e)
    let s := s.modKiln fun k => { k with op := k.op ++ [r], stamp := r.start, windows := k.windows ++ [e], suppressed := mput zero k.suppressed e 0 }
    if n + 1 = opRecords then tellFull s false else s

/-- A submission reaches the log. -/
def logOne (s : State) (l : LogSub) : State := if l.sec then logSecurity s l else logOperational s l

/-- LOG_SUBMISSION (R609–R612): the submission that has waited longest. -/
def execLogSubmission (s : State) : Host.Outcome State Fault Refusal :=
  .next (match s.toLog with
    | [] => s
    | l :: rest => logOne { s with toLog := rest } l)

/-- LOG_WINDOW_EXPIRY (R609). -/
def execLogWindowExpiry (code : Nat) (s : State) : Host.Outcome State Fault Refusal :=
  .next (s.modKiln fun k => { k with windows := k.windows.filter fun e => e ≠ codeEntry k code })

/-- A clear of partitions (R615), with its reason. DEDUCED (log 60). -/
def clearLog (s : State) (op sec : Bool) (reason : Nat) : State :=
  let k := s.mram.kiln
  let total := (k.overflow.map fun e => e.2).foldl (· + ·) 0
  let s := s.modKiln fun k => { k with clears := k.clears + b2n (op || sec) }
  let s := if op then s.modKiln fun k => { k with op := [], overflow := [], suppressed := [], windows := [] } else s
  let s := if sec then s.modKiln fun k => { k with sec := [], lostSec := 0 } else s
  let s := if op then logOne s { code := 0x0A50, count := k.op.length, max := total, detail := reason } else s
  if sec then logOne s { sec := true, code := 0x0010, count := k.sec.length, max := k.lostSec, detail := reason }
  else if op then logOne s { sec := true, code := 0x0011, count := k.op.length, detail := reason }
  else s

/-- The 128 bytes of a record (R608). -/
def LogRec.bytes (r : LogRec) : List Byte :=
  let body := toBytes r.code 2 ++ toBytes r.cls 1 ++ [0] ++ toBytes r.seq 4 ++ toBytes r.start 8 ++ toBytes r.len 4 ++ toBytes r.suppressed 4 ++ toBytes r.count 8 ++
    toBytes r.min 8 ++ toBytes r.max 8 ++ fitBytes 64 (r.bins.flatMap fun b => toBytes b 4) ++ toBytes r.detail 8 ++ toBytes 0 4
  body ++ toBytes (crc32c body) 4

/-- The data of LOG_READ (R563, R613). -/
def logData (s : State) (part first count : Nat) : List Byte :=
  let k := s.mram.kiln
  let rs := if part = 0 then k.op else k.sec
  toBytes rs.length 4 ++ [.ofNat 8 (b2n (decide (rs.length ≥ (if part = 0 then opRecords else secRecords)))), 0, 0, 0] ++ toBytes k.clears 4 ++ toBytes k.lostSec 4 ++
    (if part = 0 then (List.range 1024).flatMap fun e => toBytes (mget (fun _ => 0) k.overflow e) 4 else []) ++
    ((rs.drop first).take count).flatMap LogRec.bytes

/-! ### Certificates (R581–R583) -/

/-- The bytes of a field. -/
def slice (bs : List Byte) (i n : Nat) : List Byte := (bs.drop i).take n

/-- ASCII letters as bytes. -/
def ascii (t : String) : List Byte := t.toList.map fun c => .ofNat 8 c.toNat

/-- UTC in seconds. -/
def State.utcSec (s : State) : Nat := s.utcPs / 10 ^ 12

/-- A dual signature over some bytes, by the keys of a certificate (R581). -/
def signedBy (cert msg ecdsa lms : List Byte) : Bool := Config.ecdsaVerify (slice cert 56 96) msg ecdsa && Config.lmsVerify (slice cert 152 56) msg lms

/-- A certificate of a kind, within its validity, signed by its issuer (R582, R583). DESIGN CHOICE (log 62). -/
def certBy (s : State) (cert issuer : List Byte) (kind : Nat) : Bool :=
  cert.length == 2080 && slice cert 0 4 == ascii "CHCT" && (cert.getD 4 0).toNat == kind && slice cert 24 16 == slice issuer 8 16 &&
    decide (numAt cert 8 5 ≤ s.utcSec) && decide (s.utcSec ≤ numAt cert 8 6) && signedBy issuer (slice cert 0 212) (slice cert 212 96) (slice cert 308 1772)

/-- A Dexferas CA certificate that chains to the root whose digest the lodge ROM holds. -/
def caValid (s : State) (ca : List Byte) : Bool :=
  Config.sha384 Config.rootCert == Config.rootDigest && certBy s Config.rootCert Config.rootCert 0 && certBy s ca Config.rootCert 1

/-- A device certificate is valid (R583); its CA certificate is the one that the device holds. -/
def deviceCertValid (s : State) (cert : List Byte) : Bool := caValid s Config.caCert && certBy s cert Config.caCert 2

/-- An owner session certificate is valid under an owner root. -/
def sessionCertValid (s : State) (cert root : List Byte) : Bool := certBy s root root 3 && certBy s cert root 4

/-- The device identifier (R578). -/
def deviceId (s : State) : List Byte := (Config.sha384 (Config.deviceKey s.lodge.seed 1)).take 16

/-- The MAC address of a port of the device (R580): fabric ports 0–63, and 0x40 for the host port. -/
def macOf (s : State) (p : Nat) : List Byte := 2 :: (deviceId s).take 4 ++ [.ofNat 8 p]

/-- The code of the grade in certificates, images and attestations. -/
def gradeCode (g : Grade) : Nat := match g with | .cg2048 => 0 | .cg1920 => 1

/-! ### Firmware (R586–R591) -/

/-- The firmware image of a slot. -/
def FwSlot.bytes (f : FwSlot) : List Byte := f.image.getD Config.factoryFirmware

/-- The slot of a number. -/
def slotOf (s : State) (n : Nat) : FwSlot := if n = 0 then s.mram.slotA else s.mram.slotB

/-- The state with a slot set. -/
def setSlot (s : State) (n : Nat) (f : FwSlot) : State := s.modMram fun m => if n = 0 then { m with slotA := f } else { m with slotB := f }

/-- Header, signer and SVN of an image (R586, R587). -/
def fwHeaderOk (s : State) (img : List Byte) : Bool :=
  let signer := slice img 2444 2080
  slice img 0 8 == ascii "CHRFWIMG" && numAt img 8 2 == img.length && decide (img.length ≤ 24 * 2 ^ 20) && decide (1 ≤ numAt img 2 7) && decide (numAt img 2 7 ≤ 8) &&
    caValid s signer && signedBy signer (slice img 0 576) (slice img 576 96) (slice img 672 1772) && decide (s.mram.minSvn ≤ numAt img 2 6)

/-- A component of an image matches its digest. -/
def componentOk (img : List Byte) (n : Nat) : Bool :=
  let e := slice img (64 + 64 * n) 64
  Config.sha384 (slice img (numAt e 4 1) (numAt e 4 2)) == slice e 12 48

/-- The components of a type (0 lodge, 1 gatehouse, 2 LD, 3 HD). -/
def componentsOf (img : List Byte) (ty : Nat) : List Nat :=
  (List.range (min 8 (numAt img 2 7))).filter fun n => (img.getD (64 + 64 * n) 0).toNat == ty

/-- A slot verifies for a component that is to be loaded (R587). DEDUCED (log 59). -/
def slotVerifies (s : State) (n ty : Nat) : Bool :=
  let img := (slotOf s n).bytes
  fwHeaderOk s img && !(componentsOf img ty).isEmpty && (componentsOf img ty).all (componentOk img)

/-- Every component of an image verifies (R589). -/
def fwVerifies (s : State) (img : List Byte) : Bool := fwHeaderOk s img && (List.range (numAt img 2 7)).all (componentOk img)

/-- A component of a slot fails its check (R587): OP-0x0A10 with the stage, SEC-0x0001 with the slot and the component. -/
def slotFails (s : State) (slot ty stage : Nat) : State :=
  (s.logSec 0x0001 (slot + ty * 2 ^ 8)).submit { code := 0x0A10, src := 0, detail := stage }

/-- A slot fails at stage 2 whatever its image (R588). -/
def slotBarred (s : State) (n : Nat) : Bool :=
  let st := (slotOf s n).st
  st == 0 || st == 3 || st == 4 || (slotOf s (1 - n)).st == 2

/-- LODGE_FIRMWARE_VERIFY (R533 stage 2, R588, R590, R591): slot A, or slot B if A fails; a TRIAL slot that runs becomes TRIED, and a slot left TRIED by an earlier
boot EMPTY. Where both fail the lodge stays in ROM. -/
def execLodgeFirmwareVerify (s : State) : Host.Outcome State Fault Refusal :=
  .next (if s.lodge.stage ≠ 1 ∨ s.lodge.failed ∨ s.lodge.porst ∨ s.lodge.off then s
    else
      let try_ := fun (s : State) (n : Nat) =>
        if slotBarred s n then (false, s) else if slotVerifies s n 0 then (true, s) else (false, slotFails s n 0 2)
      let a := try_ s 0
      let b := if a.1 then (false, a.2) else try_ a.2 1
      let s := b.2
      if !a.1 ∧ !b.1 then raiseCause (s.modLodge fun l => { l with failed := true }) causeSlots 0
      else
        let n := if a.1 then 0 else 1
        let other := slotOf s (1 - n)
        let s := if other.st = 3 then setSlot s (1 - n) { other with st := 0 } else s
        let run := slotOf s n
        let s := if run.st = 2 then setSlot s n { run with st := 3 } else s
        s.modLodge fun l => { l with slot := n, stage := 2 })

/-- GATEHOUSE_BOOT (R533 stage 4, R587, R730): each gatehouse verifies its component of the running slot, and the links to GC 0 and GC 7 train. DEDUCED (log 59). -/
def execGatehouseBoot (s : State) : Host.Outcome State Fault Refusal :=
  .next (if s.lodge.stage ≠ 3 ∨ s.lodge.failed ∨ s.lodge.boardTest then s
    else if slotVerifies s s.lodge.slot 1 then
      trainLinks { s.modLodge fun l => { l with stage := 4 } with ghUp := [0, 1], ghFailed := [] } fun d e =>
        match linkOf d e with | .gh _ => true | _ => false
    else stageFails (s.logSec 0x0001 (s.lodge.slot + 2 ^ 8)) 4)

/-- HD_POWER_UP (R533 stage 6, R587): the HD's component is checked; the HD is on, its bridge trains, and the part is in STANDBY. DEDUCED (log 59). -/
def execHdPowerUp (s : State) : Host.Outcome State Fault Refusal :=
  .next (if s.lodge.stage ≠ 5 ∨ s.lodge.failed ∨ s.lodge.boardTest then s
    else if slotVerifies s s.lodge.slot 3 then
      setPstate (trainLinks (setFn (s.modLodge fun l => { l with stage := 6 }) 96 2) fun d e => linkOf d e == .hd) 2
    else stageFails (s.logSec 0x0001 (s.lodge.slot + 3 * 2 ^ 8)) 6)

/-! ### The cryptographic module -/

/-- ATTEST_TOKEN_REFILL (R600). -/
def execAttestTokenRefill (s : State) : Host.Outcome State Fault Refusal :=
  .next (if s.lodge.off then s else s.modMram fun m => { m with tokens := min 64 (m.tokens + 1), tokenRef := s.ticks })

/-- The end of a session (R559, R598): SEC-0x0005 with the cause and the refused packets; at the end of the control session nobody holds the claim and its streams are
closed; the loss of every session is the loss of the host. DESIGN CHOICE (log 62). DEDUCED (log 65). -/
def endSession (s : State) (sid cause : Nat) : State :=
  match s.chp.sessions.find? fun x => x.sid == sid with
  | none => s
  | some x =>
    let c := s.chp
    let mine := decide (c.control = some sid)
    let s := { s with chp := { c with sessions := c.sessions.filter (fun y => y.sid ≠ sid), control := if mine then none else c.control,
                                      streams := if mine then [] else c.streams, queue := c.queue.filter fun q => q.1 ≠ sid } }
    let s := s.logSec 0x0005 (Config.sessionEnd cause x.refused)
    if s.chp.sessions.isEmpty then hostIsLost s else s

/-- SELF_TEST_FAIL (R605–R607, R724): the module's error state. -/
def execSelfTestFail (test : Nat) (s : State) : Host.Outcome State Fault Refusal :=
  .next (if s.lodge.off ∨ s.lodge.porst ∨ s.lodge.cryptoErr then s
    else
      let s := (s.modLodge fun l => { l with cryptoErr := true, seed := [] }).logSec 0x0009 test
      let s := raiseCause s causeCrypto 0
      let s := (s.chp.sessions.map Sess.sid).foldl (fun s i => endSession s i 4) s
      { s with chp := { s.chp with halves := [] } })

end Sys2Proof.Machine
end

