-- ==== Sys2Proof/Machine/Image.lean ====
section
/-!
DEFINITION. Parterres (R551–R555): what an image holds, the checks that a gatehouse makes before it accepts one, and what its load does.
-/

namespace Sys2Proof.Machine

/-! ### The header and the sections (R551, R552) -/

/-- A section of an image: type, target, offset, length. -/
structure Section where
  ty : Nat
  target : Nat
  off : Nat
  len : Nat
  deriving DecidableEq, Repr

/-- The section table. -/
def sections (img : List Byte) : List Section :=
  (List.range (numAt img 4 3)).map fun i =>
    let e := slice img (256 + 32 * i) 32
    ⟨numAt e 2 0, numAt e 4 1, numAt e 8 1, numAt e 8 2⟩

/-- Version of the verifier; layout epoch; kind (1: a spare's image). -/
def imgVerifier (img : List Byte) : Nat := numAt img 4 31
def imgLayout (img : List Byte) : Nat := numAt img 2 64
def imgKind (img : List Byte) : Nat := (img.getD 11 0).toNat

/-- The header is that of a parterre of the device's grade (R5), and its sections lie within the image. -/
def headerOk (s : State) (img : List Byte) : Bool :=
  slice img 0 8 == ascii "PARTERRE" && numAt img 2 4 == 0x0200 && (img.getD 10 0).toNat == gradeCode s.grade && decide (imgKind img ≤ 1) &&
    numAt img 8 2 == img.length && decide (256 + 32 * numAt img 4 3 ≤ img.length) && (slice img 130 126).all (· == 0) &&
    (sections img).all fun x => decide (1 ≤ x.ty) && decide (x.ty ≤ 10) && decide (x.off + x.len ≤ img.length)

/-- The pairs of logical tile and physical position that the binding tables give. -/
def imgBinding (img : List Byte) : List (Nat × Nat) := addrPairs (Config.binding img)

/-! ### The load (R555) -/

/-- One program area of a tile (R46), instruction by instruction. -/
def loadProgram (s : State) (t c : Nat) (bs : List Byte) : State :=
  (List.range (bs.length / 8)).foldl (fun s i =>
    match progOffset s t c i with
    | some off => putSpad s t (spadAddr t off) (slice bs (8 * i) 8)
    | none => s) s

/-- A task of a context whose program the image brings (R60, R228): the program in its area, the context's registers at their start. -/
def loadTask (s : State) (t c : Nat) (bs : List Byte) : State := ctxStart (loadProgram s t c bs) t c

/-- The HBM contents that an image brings. -/
def loadHbm (img : List Byte) (loads : List (Nat × Nat × Nat)) (s : State) : State :=
  loads.foldl (fun s (a, off, n) => gatePut s a (slice img off n)) s

/-- The state with an image's binding (R18, R41, R45): the numbers that leave their position lose their tile, then those that the image moves take theirs. DEDUCED (log 86). -/
def bindImage (s : State) (img : List Byte) : State :=
  let new := imgBinding img
  let s := s.bind.foldl (fun s b => if new.contains (b.1, b.2 - 1) then s else unbindTile s b.1) s
  new.foldl (fun s b => if mget (fun _ => 0) s.bind b.1 = b.2 + 1 then s else bindTile s b.1 b.2) s

/-- A register load of an image; a route that is rewritten opens again (R279). -/
def loadReg (s : State) (e : Nat × Nat) : State :=
  let s := storeReg s e.1 (.ofNat 64 e.2)
  match regionOf s.grade e.1 with
  | .reg .tile t off => routeOpens s t off
  | _ => s

/-- The register loads of an image. -/
def loadRegs (s : State) (img : List Byte) : State := (addrPairs (Config.regLoads img)).foldl loadReg s

/-- All that the load of an image writes. -/
def loadImage (s : State) (img : List Byte) : State :=
  let s := loadRegs s img
  let s := (sections img).foldl (fun s x =>
    if x.ty = 2 then loadTask s x.target 0 (slice img x.off x.len)
    else if x.ty = 3 then loadTask s x.target 1 (slice img x.off x.len) else s) s
  loadHbm img (Config.hbmLoads img) s

/-! ### The structural checks (R554), on the state as the load would leave it -/

/-- The class of a column (R39): 0 M, 1 V, 2 S. -/
def colClass (col : Nat) : Nat := if col = 15 then 2 else if col % 4 = 3 then 1 else 0

/-- Spare positions of a class on a die (R39, R40). -/
def spares (g : Grade) (cls : Nat) : Nat := (match cls with | 0 => 12 | 1 => 3 | _ => 1) * (match g with | .cg2048 => 1 | .cg1920 => 2)

/-- Whether the spare positions of every die suffice (R44). -/
def sparesOk (s : State) : Bool := (List.range 8).all fun d => (List.range 3).all fun c =>
  decide ((s.fencedPos.filter fun f => f.1 == d && colClass f.2.2 == c).length ≤ spares s.grade c)

/-- Row 1: binding (R41, R44). -/
def checkBinding (s : State) (img : List Byte) : Bool :=
  let bs := imgBinding img
  sparesOk s && decide (bs.map Prod.fst).Nodup && decide (bs.map fun b => b.1 / 256 * 272 + b.2).Nodup && bs.all fun b =>
    populated s.grade b.1 && decide (b.2 < 272) && classOf b.1 == colClass (b.2 % 16) && !s.fencedPos.contains (b.1 / 256, b.2 / 16, b.2 % 16)

/-- A range of a tile's scratchpad and the context that owns it. -/
structure Area where
  ctx : Nat
  lo : Nat
  len : Nat
  deriving DecidableEq, Repr

/-- Wickets of a tile that are defined, with their owners. -/
def wicketAreas (s : State) (t : Nat) : List Area :=
  ((List.range 16).filter fun n => s.tf t (R.WKLIM_EN n) == 1).map fun n =>
    ⟨s.tf t (R.WKBASE_OWNER n), s.tf t (R.WKBASE_BASE n), s.tf t (R.WKLIM_LIMIT n) + 1 - s.tf t (R.WKBASE_BASE n)⟩

/-- Descriptor rings, payload rings and bucket tables of a tile (R247, R262, R282). -/
def ringAreas (s : State) (t : Nat) : List Area :=
  ((List.range 16).filter fun n => s.tf t (R.QCFG_EN n) == 1).flatMap fun n =>
    let c := s.tf t (R.QCFG_OWNER n)
    ⟨c, s.tf t (R.QCFG_BASE n), if s.tf t (R.QCFG_MODE n) ≥ 2 then 512 else 32 * (s.tf t (R.QCFG_SIZE n) + 1)⟩ ::
      (if s.tf t (R.QPAY_SIZE n) = 0 then [] else [⟨c, s.tf t (R.QPAY_BASE n), 64 * s.tf t (R.QPAY_SIZE n)⟩])

/-- Whether an area meets a program area of either context. -/
def hitsProgram (s : State) (t : Nat) (a : Area) : Bool :=
  (List.range 8).any fun g =>
    let lo := max a.lo (g * 0x4_0000)
    let hi := min (a.lo + a.len) ((g + 1) * 0x4_0000)
    (List.range 4).any fun i =>
      let o := lo / 64 * 64 + 64 * i
      decide (lo < hi) && decide (o < hi) && inProgArea s t o

/-- The contexts of a tile for which an image holds a program. -/
def programs (img : List Byte) (t : Nat) : List Nat :=
  (if (sections img).any fun x => x.ty == 2 && x.target == t then [0] else []) ++ (if (sections img).any fun x => x.ty == 3 && x.target == t then [1] else [])

/-- First bank and width of a program area. -/
def programBank (s : State) (t c : Nat) : Nat × Bool :=
  if c = 0 then (s.tf t R.TPROG_PBANK, s.tf t R.TPROG_PWIDE == 1) else (s.tf t R.TPROG_BBANK, s.tf t R.TPROG_BWIDE == 1)

/-- The basin accumulators of a tile that an image declares. -/
def basinAreas (img : List Byte) (t : Nat) : List Area :=
  ((Config.basinRanges img).filter fun r => r.1 == t).map fun r => ⟨r.2.1, r.2.2.1, r.2.2.2⟩

/-- Row 2: program areas (R46, R47, R86, R99). -/
def checkPrograms (s : State) (img : List Byte) (t : Nat) : Bool :=
  ((List.range 2).all fun c => let b := programBank s t c; b.1 % (if b.2 then 4 else 2) == 0) &&
    (wicketAreas s t ++ ringAreas s t ++ basinAreas img t).all fun a => !hitsProgram s t a

/-- An area lies in one bank group, which its owner holds. -/
def inOwnGroup (s : State) (t : Nat) (a : Area) : Bool :=
  let g := a.lo / 0x4_0000
  decide (0 < a.len) && decide ((a.lo + a.len - 1) / 0x4_0000 = g) && bitOf (groupsOf s t a.ctx) g

/-- Row 3: bank groups (R99, R247, R262, R282). -/
def checkGroups (s : State) (img : List Byte) (t : Nat) : Bool :=
  (List.range 8).all (fun g => !(bitOf (groupsOf s t 0) g && bitOf (groupsOf s t 1) g)) &&
    ((programs img t).all fun c => bitOf (groupsOf s t c) ((programBank s t c).1 / 4)) &&
    (wicketAreas s t).all (fun a => bitOf (groupsOf s t a.ctx) (a.lo / 0x4_0000)) && (ringAreas s t ++ basinAreas img t).all (inOwnGroup s t)

/-- Whether two areas share a byte. -/
def areasMeet (a b : Area) : Bool := decide (a.lo < b.lo + b.len) && decide (b.lo < a.lo + a.len)

/-- Whether no two areas of a list share a byte. -/
def areasApart : List Area → Bool
  | [] => true
  | a :: rest => rest.all (fun b => !areasMeet a b) && areasApart rest

/-- Row 4: wicket alignment and overlap (R115, R130, R131). -/
def checkWickets (s : State) (t : Nat) : Bool :=
  (wicketAreas s t).all (fun a => a.lo % 64 == 0 && decide (64 ≤ a.len) && a.len % 64 == 0 && decide ((a.lo + a.len - 1) / 0x4_0000 = a.lo / 0x4_0000)) &&
    areasApart (wicketAreas s t)

/-- Row 5: matrix-engine settings (R167). -/
def checkMatrix (s : State) (t : Nat) : Bool :=
  decide (s.tf t R.SOAKCFG_HOLD ≤ 4096) && [2048, 4096, 8192].contains (s.tf t R.SOAKCFG_RAMP)

/-- Row 6: numerics and predictor settings, the same on every tile of a context (R213, R414), and no NaN as a constant scale (R178). -/
def checkUniform (s : State) (img : List Byte) (ts : List Nat) : Bool :=
  let same := fun (off : Nat) => match ts with
    | [] => true
    | t :: rest => rest.all fun u => s.reg (regAddr .tile u off) == s.reg (regAddr .tile t off)
  !Config.nanScales img && (List.range 2).all fun c => same (R.CONECFG c) && (List.range 16).all fun p => same (R.PREDSLOT c p)

/-- Row 7: counter pairs (R232). -/
def checkPairs (s : State) (t : Nat) : Bool :=
  (List.range 2).all fun c => (List.range 64).all fun p =>
    s.tf t (R.CNTBOUND_EN c p) == 0 || (s.tf t (R.CNTBOUND_PARTNER c p) != p && s.tf t (R.CNTBOUND_DEPTH c p) != 0)

/-- The member tiles of group `g` on a die (R236). -/
def members (s : State) (ts : List Nat) (d g : Nat) : Nat :=
  (ts.filter fun t => t / 256 == d && (s.tf t (R.TBAR_MEMBER 0 g) == 1 || s.tf t (R.TBAR_MEMBER 1 g) == 1)).length

/-- Row 8: barrier member counts (R236). -/
def checkBarriers (s : State) (ts : List Nat) : Bool :=
  (List.range 8).all fun d =>
    ((List.range 32).all fun g => s.fld .die d (R.DBAR_PARTS g) == members s ts d g) &&
    (List.range 16).all fun g => s.fld .die d (R.PBAR_PARTS g) == members s ts d (32 + g) && s.fld .die d (R.PBAR_DIES g) == s.fld .die 1 (R.PBAR_DIES g)

/-- The channels of the device that target a queue of it. -/
def feeders (s : State) (t q : Nat) : List (Nat × Nat) :=
  (channels s).filter fun (u, n) => s.tf u (R.CHROUTE_DEV n) == s.ownDev && s.tf u (R.CHROUTE_TILE n) == t && s.tf u (R.CHROUTE_QUEUE n) == q

/-- Row 9: queue modes (R245, R250, R281), with the channels of other devices that the image lists (R434), and routes on the package (R279). -/
def checkQueues (s : State) (img : List Byte) (t : Nat) : Bool :=
  ((List.range 16).all fun q => decide (s.tf t (R.QCFG_MODE q) ≤ 3) && (s.tf t (R.QCFG_EN q) == 0 ||
    (let m := s.tf t (R.QCFG_MODE q)
     let fs := feeders s t q
     let far := (Config.queueList img).filter fun e => e.1 == t && e.2.1 == q
     if m = 0 then fs.length + far.length == 1 && decide (7 ≤ s.tf t (R.QCFG_SIZE q))
     else if m = 1 then decide (7 ≤ s.tf t (R.QCFG_SIZE q)) && s.tf t (R.QPAY_SIZE q) == 0 &&
       decide ((fs.map fun (u, n) => s.tf u (R.CHCR_DCRED n)).foldl (· + ·) 0 ≤ s.tf t (R.QCFG_SIZE q) + 1)
     else classOf t == 1 && s.tf t (R.QPAY_SIZE q) == 0))) &&
    (List.range 64).all fun n =>
      let u := s.tf t (R.CHROUTE_TILE n)
      let q := s.tf t (R.CHROUTE_QUEUE n)
      s.tf t (R.CHROUTE_VALID n) == 0 || s.tf t (R.CHROUTE_DEV n) != s.ownDev ||
        (s.bound u && s.tf u (R.QCFG_EN q) == 1 && ((s.tf t (R.CHROUTE_BASIN n) == 1) == decide (s.tf u (R.QCFG_MODE q) ≥ 2)))

/-- Row 10: placement, plans and history ranges, working copies (R337, R357, R358, R363). -/
def checkUu (s : State) : Bool :=
  let mode := s.fld .mc 0 R.MCCFG_MODE
  let uus := (List.range 8).filter fun k => s.fld .mc k R.MCCFG_UUEN == 1
  let first := fun (k : Nat) => s.fld .mc k R.UUHIST_FIRST
  let last := fun (k : Nat) => s.fld .mc k R.UUHIST_LAST
  ((List.range 8).all fun k => s.fld .mc k R.MCCFG_MODE == mode) && (mode == 0 || uus.isEmpty) &&
    (uus.all fun k => (planOf s k).all fun g =>
      decide (1 ≤ g.groups) && g.state % 8192 == 0 && g.state / 2 ^ 36 == k && (g.state + 8192 * g.groups - 1) / 2 ^ 36 == k && decide (g.wfmt ≤ 2) &&
        decide (first k ≤ g.hist) && decide (g.hist ≤ last k)) &&
    uus.all fun k => uus.all fun j => k == j || decide (last k < first k) || decide (last j < first j) || decide (last k < first j) || decide (last j < first k)

/-- The devices that an image's routes, wicket senders and tree name. -/
def namedDevices (s : State) : List Nat :=
  let lo := regAddr .tile 0 0
  let hi := regAddr .tile 2048 0
  ((channels s).map fun (t, n) => s.tf t (R.CHROUTE_DEV n)) ++
    ((s.regs.filter fun e => decide (lo ≤ e.1) && decide (e.1 < hi) && decide (0x800 ≤ e.1 % 0x1_0000) && decide (e.1 % 0x1_0000 < 0x1800) && wget e.2 31 30 == 2).map
      fun e => wget e.2 15 0) ++
    (if s.fld .ld 0 R.CXTREE_ROOT = 1 ∨ s.fld .ld 0 R.CXCFG_EN = 0 then [] else [s.fld .ld 0 R.CXTREE_PARENT])

/-- Row 11: alias entries (R435). -/
def checkAlias (s : State) : Bool := (namedDevices s).all fun d => d == s.ownDev || s.fld .ld 0 (R.CXALIAS_VALID d) == 1

/-- Row 13: backfill limits (R459). -/
def checkBackfill (s : State) (t : Nat) : Bool :=
  ((List.range 16).all fun g => s.tf t (R.TBAR_MEMBER 1 (32 + g)) == 0 ||
    (s.fld .die (t / 256) (R.PBAR_DEVICE g) == 0 && (s.fld .ld 0 R.CXNORM_EN == 0 || s.fld .ld 0 R.CXNORM_GROUP != g))) &&
  ((List.range 64).all fun n => s.tf t (R.CHROUTE_VALID n) == 0 || s.tf t (R.CHROUTE_OWNER n) == 0 || s.tf t (R.CHROUTE_BASIN n) == 0) &&
  (List.range 16).all fun q => s.tf t (R.QCFG_EN q) == 0 || s.tf t (R.QCFG_OWNER q) == 0 || decide (s.tf t (R.QCFG_MODE q) < 2)

/-- The job spans more than one device: CXT is in use, and a route, an alias or the tree names another device (R435, R437). -/
def manyDevices (s : State) : Bool :=
  let lo := regAddr .ld 0 (R.CXALIAS 0)
  s.fld .ld 0 R.CXCFG_EN == 1 && ((namedDevices s).any (fun d => d != s.ownDev) || decide (s.fld .ld 0 R.CXTREE_CHILDREN > 0) ||
    s.regs.any fun e => decide (lo ≤ e.1) && decide (e.1 < regAddr .ld 0 (R.CXALIAS 65536)) && wget e.2 16 16 == 1 && (e.1 - lo) / 8 != s.ownDev)

/-- Row 14: the step-boundary group (R744). -/
def checkStep (s : State) : Bool :=
  let gs := (List.range 16).filter fun g => s.fld .die 1 (R.PBAR_STEP g) == 1
  decide (gs.length ≤ 1) && (List.range 8).all fun d => (List.range 16).all fun g =>
    s.fld .die d (R.PBAR_STEP g) == s.fld .die 1 (R.PBAR_STEP g) &&
      (s.fld .die d (R.PBAR_STEP g) == 0 || !manyDevices s || s.fld .die d (R.PBAR_DEVICE g) == 1)

/-- Row 15: the clip limit (R467). -/
def checkClip (s : State) : Bool := (List.range 32).all fun n =>
  let v := s.fld .ld n R.CXNORM_MAXNORM
  decide (0 < v) && decide (v ≤ 0x7F80_0000)

/-- Row 16: the twin region (R475). -/
def checkTwin (s : State) : Bool := (List.range 8).all fun k =>
  let b := s.fld .mc k R.TWREGION_BASE
  s.fld .mc k R.TWREGION_EN == 0 || (b / 2 ^ 36 == k && decide (b % 2 ^ 36 + twinSize s k ≤ 2 ^ 36) &&
    (List.range (cdiv (b % 0x20_0000 + twinSize s k) 0x20_0000)).all fun i => !isShard s k (b % 2 ^ 36 / 0x20_0000 + i))

/-- The first failing row of the table of R554, against the layout epoch that the device is to run. -/
def failingRow (s : State) (img : List Byte) (layout : Nat) : Option Nat :=
  let c := loadImage (bindImage s img) img
  let ts := (imgBinding img).map Prod.fst
  let each := fun (f : Nat → Bool) => ts.all f
  ([checkBinding s img, each (checkPrograms c img), each (checkGroups c img), each (checkWickets c), each (checkMatrix c), checkUniform c img ts, each (checkPairs c),
    checkBarriers c ts, each (checkQueues c img), checkUu c, checkAlias c, imgLayout img == layout, each (checkBackfill c), checkStep c, checkClip c, checkTwin c].zipIdx.find?
      fun (r : Bool × Nat) => !r.1).map fun r => r.2 + 1

/-- The running firmware's version. -/
def fwVersion (s : State) : Nat := numAt (slotOf s s.lodge.slot).bytes 4 2

/-- The check of an image in the order of R554: the detail of the refusal, `none` where it is accepted. DESIGN CHOICE (log 69). -/
def imageFault (s : State) (img : List Byte) (layout : Nat) : Option Nat :=
  if !headerOk s img then some 0x100
  else if slice img 24 48 ≠ configHash s then some 0x101
  else if slice img 72 48 ≠ Config.sha384 (img.drop 256) then some 0x102
  else if !Config.dwverifySupported (fwVersion s) (imgVerifier img) then some 0x103
  else failingRow s img layout

/-- A refused image: OP-0x0A30; a device that no image fits is unserviceable (R44). -/
def imageRefused (s : State) (sid tag fault : Nat) : State :=
  let s := hostAnswer (s.logOp 0x0A30 fault) sid tag resREFUSED fault []
  if sparesOk s ∨ s.unserviceable then s else { s.logOp (Config.eventCode 68) 0 with unserviceable := true }

/-- Every tile whose program an image loads is asleep. -/
def tilesAsleep (s : State) (img : List Byte) : Bool := (sections img).all fun x => (x.ty != 2 && x.ty != 3) || s.tstate x.target == asleep

/-- An accepted image: its binding takes effect and its bank groups start for their contexts (R100, R103, R555). With a spare's image a device that has left its job is a
spare (R29). -/
def acceptImage (s : State) (img : List Byte) : State :=
  let s := if imgKind img = 1 then { s with left := false, replaced := false, aborting := none, released := none } else s
  let s := bindImage { s with image := img } img
  let s := (addrPairs (Config.regLoads img)).foldl (fun s e =>
    match regionOf s.grade e.1 with
    | .reg .tile _ off => if off = R.SPCFG then storeReg s e.1 (.ofNat 64 e.2) else s
    | _ => s) s
  (boundTiles s).foldl (fun s t => (List.range 2).foldl (fun s c => (List.range 8).foldl (fun s g =>
    if bitOf (groupsOf s t c) g then startGroup s t c g else s) s) (loadRemap s t)) s

/-- Every bank group of the image is ON. -/
def groupsOn (s : State) : Bool := (boundTiles s).all fun t => (List.range 8).all fun g =>
  !(bitOf (groupsOf s t 0) g || bitOf (groupsOf s t 1) g) || groupState s t g == 2

/-- IMAGE_COPY_LOAD (R555): once every group is ON, the image is loaded and the IMAGE_LOAD answered. -/
def execImageCopyLoad (s : State) : Host.Outcome State Fault Refusal :=
  .next (match s.lodge.loading with
    | none => s
    | some a =>
      if !groupsOn s then s
      else
        let s := (loadImage s s.image).modLodge fun l => { l with loading := none, loaded := true, stage := max l.stage 10 }
        hostAnswer s a.sid a.tag resOK 0 [])

end Sys2Proof.Machine
end

