-- ==== Sys2Proof/Machine/Chp.lean ====
section
/-!
DEFINITION. CHP: the commands of the host (R558–R563), what of them goes on after the command (R533), and attestation (R599–R601).
-/

namespace Sys2Proof.Machine

/-! ### What commands share (R560–R562) -/

/-- A command that only the control session may issue. DESIGN CHOICE (log 64). -/
def controlOnly (s : State) (sid tag : Nat) (eff : State) : State :=
  if s.chp.control = some sid then eff else hostAnswer s sid tag resNOT_CONTROL 0 []

/-- A command that the power state must allow. DESIGN CHOICE (log 64). -/
def ifState (s : State) (sid tag : Nat) (ok : Bool) (eff : State) : State := if ok then eff else hostAnswer s sid tag resSTATE (pstate s) []

/-- A command with a parameter that cannot be: the byte offset of the first fault. DESIGN CHOICE (log 64). -/
def malformed (s : State) (sid tag off : Nat) : State := hostAnswer s sid tag resMALFORMED off []

/-- A command that a check refuses. DESIGN CHOICE (log 64). -/
def refused (s : State) (sid tag : Nat) : State := hostAnswer s sid tag resREFUSED 0 []

/-- A command done. -/
def okay (s : State) (sid tag : Nat) (data : List Byte) : State := hostAnswer s sid tag resOK 0 data

/-- A command of this kind that still runs keeps another one out. DESIGN CHOICE (log 64). -/
def orBusy (s : State) (sid tag : Nat) (free : Bool) (eff : State) : State := if free then eff else hostAnswer s sid tag resBUSY 0 []

/-- A staging range lies in HBM. -/
def stagingOk (addr len : Nat) : Bool := decide (0 < len) && hbmAddr addr && hbmAddr (addr + len - 1)

/-- No long command of the lodge runs. -/
def lodgeFree (s : State) : Bool := s.lodge.power.isNone && s.lodge.loading.isNone && s.lodge.starting.isNone

/-! ### Sessions and power -/

/-- CLAIM (R559): the session is the control session. -/
def effClaim (sid tag : Nat) (s : State) : State := okay { s with chp := { s.chp with control := some sid } } sid tag []

/-- POWER (R535, R536, R563): the answer comes when the state is reached. Leaving READY ends every task; READY needs the HBM rails. -/
def effPower (sid tag target : Nat) (s : State) : State :=
  controlOnly s sid tag
    (if target < 1 ∨ 3 < target then malformed s sid tag 24
     else orBusy s sid tag (lodgeFree s) (ifState s sid tag (pstate s == 2 || pstate s == 3)
       (if target = pstate s then okay s sid tag []
        else
          let s := if pstate s = 3 then (boundTiles s).foldl (fun s t => taskEnd (taskEnd s t 0) t 1) s else s
          powerOn (s.modLodge fun l => { l with power := some ⟨sid, tag, target⟩, rails := l.rails || target == 3 }))))

/-- CLOSE (R559). -/
def effClose (sid tag : Nat) (s : State) : State := endSession (okay s sid tag []) sid 2

/-! ### Images and the job -/

/-- IMAGE_LOAD (R554, R555). -/
def effImageLoad (sid tag addr len : Nat) (s : State) : State :=
  controlOnly s sid tag (orBusy s sid tag (lodgeFree s) (ifState s sid tag (pstate s == 3)
    (if !stagingOk addr len then refused s sid tag
     else
       let img := hbmBytes s addr len
       match imageFault s img (s.fld .ld 0 R.CXEPOCH_LAYOUT) with
       | some n => imageRefused s sid tag n
       | none => orBusy s sid tag (tilesAsleep s img)
           (acceptImage (s.modLodge fun l => { l with loading := some ⟨sid, tag, 0⟩, loaded := false }) img))))

/-- The ports whose role is set. -/
def usedPorts (s : State) : List Nat := (List.range 64).filter fun p => s.pf p R.FPCFG_ROLE != 0

/-- Stages 11 and 12 (R533): once no port trains any more the tasks open and the tiles start. A spare's image starts no tile: the spare stays in READY (R478). DESIGN CHOICE (log 56). DEDUCED (log 58). -/
def startOn (s : State) : State :=
  match s.lodge.starting with
  | none => s
  | some a =>
    if (portFns.any fun f => fnState s f == 1) then s
    else
      let s := s.modLodge fun l => { l with starting := none, stage := max l.stage 12, hostHold := false }
      okay (if imgKind s.image = 1 then s else startTiles (startGenerations (openTasks s))) a.sid a.tag []

/-- START (R533): the ports of the image train. A device that has left its job or been replaced rejoins only as a spare, under a new image (R29). LD firmware that fails its check starts none (R587). DEDUCED (log 59, log 70). -/
def effStart (sid tag : Nat) (s : State) : State :=
  controlOnly s sid tag (orBusy s sid tag (lodgeFree s) (ifState s sid tag (pstate s == 3 && s.lodge.loaded && !s.left && !s.replaced)
    (let s := s.modLodge fun l => { l with starting := some ⟨sid, tag, 0⟩ }
     startOn (if slotVerifies s s.lodge.slot 2 then (usedPorts s).foldl (fun s p => requestFn s (32 + p) true) s else slotFails s s.lodge.slot 2 11))))

/-- HOLD (R535, R560). -/
def effHold (sid tag : Nat) (s : State) : State :=
  controlOnly s sid tag (ifState s sid tag (decide (pstate s ≥ 3)) (okay ((holdAll s).modLodge fun l => { l with hostHold := true }) sid tag []))

/-- Whether a session may end the hold of the host's loss: it was opened since (R508). DEDUCED (log 70). -/
def mayResume (s : State) (sid : Nat) : Bool := !s.hostGone || !s.chp.sessions.any fun x => x.sid == sid && x.old

/-- RESUME (R508, R560): the hold of the host's loss ends with it, in a session opened since; tiles that an abort holds wait for the restart. DEDUCED (log 70). -/
def effResume (sid tag : Nat) (s : State) : State :=
  controlOnly s sid tag (ifState s sid tag (decide (pstate s ≥ 3) && mayResume s sid)
    (let s : State := { s.modLodge (fun l => { l with hostHold := false }) with hostGone := false, stepHold := s.reshardTo.isSome }
     let s := if s.aborting.isSome then s else (List.range 8).foldl releaseTiles s
     okay (if s.tiles.any fun e => e.2.started then setPstate s 4 else s) sid tag []))

/-- DATA_READY (R500): a spare that waits starts its tiles. DEDUCED (log 70). -/
def effDataReady (sid tag _step : Nat) (s : State) : State :=
  controlOnly s sid tag
    (okay (if s.startWaits then startTiles { s with startWaits := false, dataReady := false } else { s with dataReady := true }) sid tag [])

/-- PRED_EN (R410): the setting waits for the next step boundary. -/
def effPredEn (sid tag slot : Nat) (en : Bool) (s : State) : State :=
  controlOnly s sid tag (if slot ≥ 16 then malformed s sid tag 24
    else okay { s with predDue := (s.predDue.filter fun e => e.1 ≠ slot) ++ [(slot, en)] } sid tag [])

/-- A CHECKPOINT that waits is answered once every tile holds and the generation of every stack is complete (R506). DESIGN CHOICE (log 56). -/
def checkpointOn (s : State) : State :=
  match s.chp.checkpoint with
  | none => s
  | some a =>
    let held := (boundTiles s).all fun t => !(s.tile t).started || s.tf t R.TSTAT_HELD == 1 || s.tf t R.TSTAT_HALTED == 1 || s.tstate t == fenced
    if !held ∨ (List.range 8).any (fun k => s.fld .mc k R.TWCOPY_STATE == 1) then s
    else okay { s with chp := { s.chp with checkpoint := none } } a.sid a.tag
      (((List.range 8).flatMap fun k => toBytes (s.fld .mc k R.UUSTAT_CSTEP) 4) ++
        [.ofNat 8 (s.fld .ld 0 R.CXNORM_EG), 0] ++ toBytes (s.fld .ld 0 R.CXEPOCH_LAYOUT) 2)

/-- CHECKPOINT (R506): the device holds at the next step boundary. -/
def effCheckpoint (sid tag : Nat) (s : State) : State :=
  controlOnly s sid tag (orBusy s sid tag s.chp.checkpoint.isNone (ifState s sid tag (decide (pstate s ≥ 3))
    (checkpointOn { s with stepHold := true, chp := { s.chp with checkpoint := some ⟨sid, tag, 0⟩ } })))

/-- RESHARD (R455): the new image is checked, and the device is to hold at the step boundary. DESIGN CHOICE (log 54). -/
def effReshard (sid tag addr len layout : Nat) (s : State) : State :=
  controlOnly s sid tag (orBusy s sid tag (s.reshardTo.isNone && lodgeFree s) (ifState s sid tag (decide (pstate s ≥ 3))
    (if !stagingOk addr len then refused s sid tag
     else
       let img := hbmBytes s addr len
       match imageFault s img layout with
       | some n => imageRefused s sid tag n
       | none => okay { s with image := img, reshardTo := some layout, stepHold := true } sid tag [])))

/-- TAKEOVER (R491, R560). -/
def effTakeover (sid tag dev : Nat) (s : State) : State :=
  controlOnly s sid tag (if s.fld .ld 0 R.TWCFG_PAIREN = 0 ∨ dev ≠ s.fld .ld 0 R.TWCFG_PARTNER then refused s sid tag
    else okay (declareFailed s 3) sid tag [])

/-! ### State, log and configuration -/

/-- Whether a register stands at an address that the host may read (R14, R560). -/
def readable (s : State) (a : Nat) : Bool :=
  match regionOf s.grade a with
  | .reg b n off => a % 8 == 0 && (regDescAt b off).isSome && (b != .tile || s.bound n)
  | _ => false

/-- Whether an address is that of a cone or predictor count of a tile (R210, R409): `CONEH`, `CONEX`, `PMISS`. -/
def isCount (s : State) (a : Nat) : Bool :=
  match regionOf s.grade a with
  | .reg .tile _ off => decide (0x3600 ≤ off ∧ off < 0x3A30) || decide (0x3C80 ≤ off ∧ off < 0x3D00)
  | _ => false

/-- STATE_READ of registers (R563). Where the image has no step boundary, the cone and predictor counts are gathered when the host reads them (R744). -/
def effStateReadRegisters (sid tag addr count : Nat) (s : State) : State :=
  if count < 1 ∨ 512 < count then malformed s sid tag 32
  else
    let as := (List.range count).map fun i => addr + 8 * i
    if as.all (readable s) then
      let s' := okay s sid tag (as.flatMap fun a => toBytes (readReg s a).toNat 8)
      if !hasStep s ∧ as.any (isCount s) then gatherCone s' else s'
    else refused s sid tag

/-- STATE_READ of the lodge (R563): the fields in the order that the manual names them. DEDUCED (log 65). -/
def effStateReadLodgeStatus (sid tag : Nat) (s : State) : State :=
  okay s sid tag (toBytes (pstate s) 4 ++ toBytes s.mram.epoch 4 ++ toBytes (causeWord s) 8 ++ toBytes s.utcUs 8 ++ toBytes (b2n s.lodge.unsync) 8)

/-- LOG_READ (R613). -/
def effLogRead (sid tag part first count : Nat) (s : State) : State :=
  if part ≥ 2 then malformed s sid tag 24
  else if count < 1 ∨ 256 < count then malformed s sid tag 32
  else okay s sid tag (logData s part first count)

/-- LOG_CLEAR (R614, R615). -/
def effLogClear (sid tag : Nat) (auth : List Byte) (s : State) : State :=
  controlOnly s sid tag (if auth.length ≠ 1896 then malformed s sid tag 24
    else if slice auth 0 4 = ascii "CHCL" ∧ slice auth 4 16 = deviceId s ∧ numAt auth 4 6 = s.mram.kiln.clears + 1 ∧ s.mram.owner ≠ [] ∧
        signedBy s.mram.owner (slice auth 0 28) (slice auth 28 96) (slice auth 124 1772) then
      okay (clearLog s (bitOf (auth.getD 20 0).toNat 0) (bitOf (auth.getD 20 0).toNat 1) 0) sid tag []
    else refused (s.logSec 0x0012 0) sid tag)

/-- CONFIG: the configuration hash (R553, R563). -/
def effConfigRead (sid tag : Nat) (s : State) : State := okay s sid tag (fitBytes 48 (configHash s))

/-- CONFIG: the PTP domain (R566). -/
def effConfigSetPtpDomain (sid tag dom : Nat) (s : State) : State :=
  controlOnly s sid tag (okay (s.modLodge fun l => { l with domain := dom % 256, master := none }) sid tag [])

/-- FW_UPDATE (R589). -/
def effFwUpdate (sid tag addr len : Nat) (s : State) : State :=
  controlOnly s sid tag (ifState s sid tag (decide (pstate s ≥ 3))
    (if !stagingOk addr len ∨ 24 * 2 ^ 20 < len then refused s sid tag
     else
       let n := 1 - s.lodge.slot
       let img := hbmBytes s addr len
       if fwVerifies s img then okay ((setSlot s n { st := 2, image := some img }).logSec 0x0002 n) sid tag []
       else refused (setSlot s n { st := 0, image := some img }) sid tag))

/-! ### Attestation (R584, R585, R599–R601) -/

/-- The record of R599 before its signatures. -/
def attestRecord (s : State) (nonce : List Byte) (q : Nat) : List Byte :=
  let fw := (slotOf s s.lodge.slot).bytes
  let k := s.mram.kiln
  ascii "CHAT" ++ nonce ++ fitBytes 16 (deviceId s) ++ toBytes (gradeCode s.grade) 1 ++ fitBytes 4 Config.steppings ++ toBytes 0 7 ++
    toBytes s.utcUs 8 ++ toBytes (b2n s.lodge.unsync * 2 ^ 31) 4 ++ toBytes s.mram.epoch 4 ++ fitBytes 48 (configHash s) ++
    (if s.image.isEmpty ∨ s.lodge.loading.isSome then toBytes 0 48 else fitBytes 48 (slice s.image 72 48)) ++
    toBytes (s.fld .ld 0 R.CXEPOCH_LAYOUT) 2 ++ toBytes s.lodge.slot 2 ++ toBytes (numAt fw 4 2) 4 ++ toBytes (numAt fw 2 6) 2 ++ toBytes s.mram.minSvn 2 ++
    (if s.mram.owner.isEmpty then toBytes 0 48 else fitBytes 48 (Config.sha384 s.mram.owner)) ++ toBytes s.mram.admissions 4 ++ toBytes q 4 ++
    toBytes s.fencedPos.length 2 ++ toBytes ((s.mcs.map fun e => e.2.retired.length).foldl (· + ·) 0) 2 ++
    toBytes k.op.length 4 ++ toBytes k.sec.length 4 ++ toBytes k.lostSec 4 ++ toBytes k.clears 4

/-- The LMS indices of a device (R585), and the seconds for a token (R600). -/
abbrev lmsTop : Nat := 1_048_576
abbrev tokenTicks : Nat := 256 * 25_000_000

/-- An LMS index is taken (R584): both copies in MRAM show it as used before the signature is made. -/
def takeIndex (s : State) : State :=
  let q := s.lodge.lms + 1
  let s := (s.modMram fun m => { m with lmsA := some q, lmsB := some q }).modLodge fun l => { l with lms := q }
  if lmsTop - q < 65_536 ∧ !s.mram.lmsLow then (s.modMram fun m => { m with lmsLow := true }).logSec 0x000B (lmsTop - q) else s

/-- Attestations are recorded once for every 1,024 indices (R601). -/
def countAttest (s : State) (q : Nat) : State :=
  let low := if s.mram.attests = 0 then q else s.mram.attestLow
  let n := s.mram.attests + 1
  if n ≥ 1024 then (s.modMram fun m => { m with attests := 0, attestLow := 0 }).submit { sec := true, code := 0x000A, count := n, min := low, max := q }
  else s.modMram fun m => { m with attests := n, attestLow := low }

/-- The answer of ATTEST, whose indicator marks its LMS signature as a service that is not approved (R603). DESIGN CHOICE (log 62). -/
def signedAnswer (s : State) (sid tag : Nat) (data : List Byte) : State :=
  if s.chp.sessions.any fun x => x.sid == sid then s.tellHost (.response sid tag resOK 0 data true) else s

/-- ATTEST (R585, R599, R600). DEDUCED (log 63). -/
def effAttest (sid tag : Nat) (nonce : List Byte) (s : State) : State :=
  if nonce.length ≠ 32 then malformed s sid tag 24
  else if s.lodge.lms ≥ lmsTop then hostAnswer s sid tag resEXHAUSTED 0 []
  else if s.mram.tokens = 0 then hostAnswer s sid tag resBUSY (cdiv (tokenTicks - (s.ticks - s.mram.tokenRef)) 25_000_000) []
  else
    let q := s.lodge.lms
    let s := takeIndex (s.modMram fun m => { m with tokens := m.tokens - 1 })
    let rec_ := attestRecord s nonce q
    let draw := s.fresh
    let s := countAttest { s with fresh := s.fresh + 1 } q
    signedAnswer s sid tag (rec_ ++ fitBytes 96 (Config.ecdsaSign (Config.deviceKey s.lodge.seed 0) rec_ draw) ++
      fitBytes 1772 (Config.lmsSign (Config.deviceKey s.lodge.seed 2) rec_ q) ++ Config.deviceCert ++ Config.caCert)

/-! ### The alias table and the pair -/

/-- ALIAS table (R435, R472, R563), from staging into every LD. -/
def effAliasTable (sid tag addr first count : Nat) (s : State) : State :=
  controlOnly s sid tag (ifState s sid tag (decide (pstate s ≥ 3))
    (if 65_536 < first + count then malformed s sid tag 36
     else if count = 0 then okay s sid tag []
     else if !stagingOk addr (4 * count) then refused s sid tag
     else
       let bs := hbmBytes s addr (4 * count)
       okay ((List.range count).foldl (fun s i =>
         let e := numAt bs 4 i
         setLds (setLds s (R.CXALIAS_STATION (first + i)) (bits e 15 0)) (R.CXALIAS_VALID (first + i)) (bits e 16 16)) s) sid tag []))

/-- ALIAS own numbers (R435, R563). -/
def effAliasOwnNumbers (sid tag dev station : Nat) (s : State) : State :=
  controlOnly s sid tag (okay (setLds (setLds s R.CXCFG_DEV dev) R.CXCFG_STATION station) sid tag [])

/-- ALIAS pair (R473, R594): the partner's certificate is checked here and against the one that the partner sends. -/
def effAliasPair (sid tag partner spare0 spare1 : Nat) (pairEn hbEn : Bool) (cert : List Byte) (s : State) : State :=
  controlOnly s sid tag (if cert.length ≠ 2080 then malformed s sid tag 32
    else
      let s := setLds (setLds (setLds s R.TWCFG_PARTNER partner) R.TWCFG_SPARE0 spare0) R.TWCFG_SPARE1 spare1
      if !deviceCertValid s cert ∨ (cert.getD 208 0).toNat ≠ gradeCode s.grade then
        hostAnswer ((setPairing s false hbEn).logSec 0x000C partner) sid tag resIDENTITY 0 []
      else
        let s := sendCtrl s partner 0x0B 2084 Config.deviceCert .none
        comparePair { s with hostCert := cert, pairAsk := some (sid, tag, pairEn, hbEn) })

/-! ### Bulk streams (R565) -/

/-- The credit unit of R565. -/
abbrev creditUnit : Nat := 262_144

/-- STREAM_OPEN (R565): on ingest the device grants credit for the whole range. DEDUCED (log 65). -/
def effStreamOpen (sid tag dir addr len : Nat) (s : State) : State :=
  controlOnly s sid tag (if dir ≥ 2 then malformed s sid tag 24
    else ifState s sid tag (decide (pstate s ≥ 3)) (if !stagingOk addr len then refused s sid tag
    else match (List.range 16).find? fun n => s.chp.streams.all fun x => x.n != n with
      | none => hostAnswer s sid tag resBUSY 0 []
      | some n =>
        let units := if dir = 0 then cdiv len creditUnit else 0
        let s : State := { s with chp := { s.chp with streams := s.chp.streams ++ [{ n := n, dir := dir, addr := addr, len := len, credit := units }] } }
        let s := okay s sid tag [.ofNat 8 n]
        if dir = 0 then s.tellHost (.credit n units 0) else s))

/-- STREAM_CLOSE. -/
def effStreamClose (sid tag n : Nat) (s : State) : State :=
  controlOnly s sid tag (if s.chp.streams.any fun x => x.n == n then
      okay { s with chp := { s.chp with streams := s.chp.streams.filter fun x => x.n ≠ n } } sid tag []
    else refused s sid tag)

/-! ### The order of a session's commands (R560) -/

/-- A command of the session still runs. DEDUCED (log 65). -/
def sessionBusy (s : State) (sid : Nat) : Bool :=
  [s.lodge.power, s.lodge.loading, s.lodge.starting, s.chp.checkpoint].any (fun a => a.map Ask.sid == some sid) ||
    (match s.pairAsk with | some a => a.1 == sid | none => false)

/-- The effect of a queued command. -/
def runCommand (i : Instr) (s : State) : State :=
  match i with
  | .claim d g => effClaim d.sid g s
  | .power d g x => effPower d.sid g x s
  | .imageLoad d g a n => effImageLoad d.sid g a n s
  | .start d g => effStart d.sid g s
  | .hold d g => effHold d.sid g s
  | .resume d g => effResume d.sid g s
  | .stateReadRegisters d g a n => effStateReadRegisters d.sid g a n s
  | .stateReadLodgeStatus d g => effStateReadLodgeStatus d.sid g s
  | .logRead d g p f n => effLogRead d.sid g p f n s
  | .logClear d g a => effLogClear d.sid g a s
  | .fwUpdate d g a n => effFwUpdate d.sid g a n s
  | .attest d g n => effAttest d.sid g n s
  | .aliasTable d g a f n => effAliasTable d.sid g a f n s
  | .aliasOwnNumbers d g x y => effAliasOwnNumbers d.sid g x y s
  | .aliasPair d g p x y e h c => effAliasPair d.sid g p x y e h c s
  | .dataReady d g x => effDataReady d.sid g x s
  | .predEn d g p e => effPredEn d.sid g p e s
  | .checkpoint d g => effCheckpoint d.sid g s
  | .reshard d g a n l => effReshard d.sid g a n l s
  | .streamOpen d g r a n => effStreamOpen d.sid g r a n s
  | .streamClose d g n => effStreamClose d.sid g n s
  | .takeoverCommand d g x => effTakeover d.sid g x s
  | .configRead d g => effConfigRead d.sid g s
  | .configSetPtpDomain d g x => effConfigSetPtpDomain d.sid g x s
  | .close d g => effClose d.sid g s
  | _ => s

/-- The queued commands whose session is free again run, each session's in order. -/
def serveQueue (s : State) : Nat → State
  | 0 => s
  | n + 1 =>
    match takeFirst (fun q => !sessionBusy s q.1) s.chp.queue with
    | none => s
    | some (q, rest) => serveQueue (runCommand q.2.2 { s with chp := { s.chp with queue := rest } }) n

/-- What waits is served. DESIGN CHOICE (log 56). -/
def serve (s : State) : State := serveQueue s s.chp.queue.length

/-- A packet of a session is accepted (R559): its tag opens, and its sequence number has not been seen and lies above the highest seen less 1,024. DEDUCED (log 67). -/
def pktFits (s : State) (p : ChpPkt) : Bool :=
  p.sealOk && s.chp.sessions.any fun x => x.sid == p.sid && !x.seen.contains p.seq && decide (x.high < p.seq + 1024)

/-- The session of a packet is changed. -/
def State.modSess (s : State) (sid : Nat) (f : Sess → Sess) : State :=
  { s with chp := { s.chp with sessions := s.chp.sessions.map fun x => if x.sid = sid then f x else x } }

/-- What a session keeps of an accepted packet (R559). -/
def Sess.take (x : Sess) (seq : Nat) : Sess :=
  let high := max x.high seq
  { x with high := high, seen := (x.seen ++ [seq]).filter fun n => decide (high < n + 1024), got := x.got + 1 }

/-- The state with a packet accepted. DEDUCED (log 67). -/
def takePkt (s : State) (p : ChpPkt) : State := s.modSess p.sid fun x => x.take p.seq

/-- The state with a packet refused: it is counted (R598). DEDUCED (log 67). -/
def refusePkt (s : State) (p : ChpPkt) : State := s.modSess p.sid fun x => { x with refused := x.refused + 1 }

/-- A packet of a session has its effect where it is accepted. -/
def withPkt (s : State) (p : ChpPkt) (eff : State → State) : State := if pktFits s p then eff (takePkt s p) else refusePkt s p

/-- A command enters the queue before those of its session with higher sequence numbers: they run in sequence order (R560). -/
def enqueue (q : List (Nat × Nat × Instr)) (e : Nat × Nat × Instr) : List (Nat × Nat × Instr) :=
  let first := q.takeWhile fun x => !(x.1 == e.1 && decide (e.2.1 < x.2.1))
  first ++ e :: q.drop first.length

/-- A command of a session arrives: it runs, or waits behind one that still runs; a seventeenth is turned away. One of no open session is dropped. DEDUCED (log 65). -/
def takeCommand (s : State) (pk : ChpPkt) (tag : Nat) (i : Instr) : State :=
  withPkt s pk fun s =>
    let s := serve s
    if !s.chp.sessions.any fun x => x.sid == pk.sid then s
    else if !sessionBusy s pk.sid then runCommand i s
    else if (s.chp.queue.filter fun q => q.1 == pk.sid).length ≥ 16 then hostAnswer s pk.sid tag resBUSY 0 []
    else { s with chp := { s.chp with queue := enqueue s.chp.queue (pk.sid, pk.seq, i) } }

/-- CLAIM. -/
def execClaim (pk : ChpPkt) (tag : Nat) (s : State) : Host.Outcome State Fault Refusal := .next (takeCommand s pk tag (.claim pk tag))

/-- POWER. -/
def execPower (pk : ChpPkt) (tag x : Nat) (s : State) : Host.Outcome State Fault Refusal := .next (takeCommand s pk tag (.power pk tag x))

/-- IMAGE_LOAD. -/
def execImageLoad (pk : ChpPkt) (tag a n : Nat) (s : State) : Host.Outcome State Fault Refusal := .next (takeCommand s pk tag (.imageLoad pk tag a n))

/-- START. -/
def execStart (pk : ChpPkt) (tag : Nat) (s : State) : Host.Outcome State Fault Refusal := .next (takeCommand s pk tag (.start pk tag))

/-- HOLD. -/
def execHold (pk : ChpPkt) (tag : Nat) (s : State) : Host.Outcome State Fault Refusal := .next (takeCommand s pk tag (.hold pk tag))

/-- RESUME. -/
def execResume (pk : ChpPkt) (tag : Nat) (s : State) : Host.Outcome State Fault Refusal := .next (takeCommand s pk tag (.resume pk tag))

/-- STATE_READ_REGISTERS. -/
def execStateReadRegisters (pk : ChpPkt) (tag a n : Nat) (s : State) : Host.Outcome State Fault Refusal :=
  .next (takeCommand s pk tag (.stateReadRegisters pk tag a n))

/-- STATE_READ_LODGE_STATUS. -/
def execStateReadLodgeStatus (pk : ChpPkt) (tag : Nat) (s : State) : Host.Outcome State Fault Refusal := .next (takeCommand s pk tag (.stateReadLodgeStatus pk tag))

/-- LOG_READ. -/
def execLogRead (pk : ChpPkt) (tag p f n : Nat) (s : State) : Host.Outcome State Fault Refusal := .next (takeCommand s pk tag (.logRead pk tag p f n))

/-- LOG_CLEAR. -/
def execLogClear (pk : ChpPkt) (tag : Nat) (a : List Byte) (s : State) : Host.Outcome State Fault Refusal := .next (takeCommand s pk tag (.logClear pk tag a))

/-- FW_UPDATE. -/
def execFwUpdate (pk : ChpPkt) (tag a n : Nat) (s : State) : Host.Outcome State Fault Refusal := .next (takeCommand s pk tag (.fwUpdate pk tag a n))

/-- ATTEST. -/
def execAttest (pk : ChpPkt) (tag : Nat) (n : List Byte) (s : State) : Host.Outcome State Fault Refusal := .next (takeCommand s pk tag (.attest pk tag n))

/-- ALIAS_TABLE. -/
def execAliasTable (pk : ChpPkt) (tag a f n : Nat) (s : State) : Host.Outcome State Fault Refusal := .next (takeCommand s pk tag (.aliasTable pk tag a f n))

/-- ALIAS_OWN_NUMBERS. -/
def execAliasOwnNumbers (pk : ChpPkt) (tag x y : Nat) (s : State) : Host.Outcome State Fault Refusal := .next (takeCommand s pk tag (.aliasOwnNumbers pk tag x y))

/-- ALIAS_PAIR. -/
def execAliasPair (pk : ChpPkt) (tag p x y : Nat) (e h : Bool) (c : List Byte) (s : State) : Host.Outcome State Fault Refusal :=
  .next (takeCommand s pk tag (.aliasPair pk tag p x y e h c))

/-- DATA_READY. -/
def execDataReady (pk : ChpPkt) (tag x : Nat) (s : State) : Host.Outcome State Fault Refusal := .next (takeCommand s pk tag (.dataReady pk tag x))

/-- PRED_EN. -/
def execPredEn (pk : ChpPkt) (tag p : Nat) (e : Bool) (s : State) : Host.Outcome State Fault Refusal := .next (takeCommand s pk tag (.predEn pk tag p e))

/-- CHECKPOINT. -/
def execCheckpoint (pk : ChpPkt) (tag : Nat) (s : State) : Host.Outcome State Fault Refusal := .next (takeCommand s pk tag (.checkpoint pk tag))

/-- RESHARD. -/
def execReshard (pk : ChpPkt) (tag a n l : Nat) (s : State) : Host.Outcome State Fault Refusal := .next (takeCommand s pk tag (.reshard pk tag a n l))

/-- STREAM_OPEN. -/
def execStreamOpen (pk : ChpPkt) (tag d a n : Nat) (s : State) : Host.Outcome State Fault Refusal := .next (takeCommand s pk tag (.streamOpen pk tag d a n))

/-- STREAM_CLOSE. -/
def execStreamClose (pk : ChpPkt) (tag n : Nat) (s : State) : Host.Outcome State Fault Refusal := .next (takeCommand s pk tag (.streamClose pk tag n))

/-- TAKEOVER. -/
def execTakeoverCommand (pk : ChpPkt) (tag x : Nat) (s : State) : Host.Outcome State Fault Refusal := .next (takeCommand s pk tag (.takeoverCommand pk tag x))

/-- CONFIG_READ. -/
def execConfigRead (pk : ChpPkt) (tag : Nat) (s : State) : Host.Outcome State Fault Refusal := .next (takeCommand s pk tag (.configRead pk tag))

/-- CONFIG_SET_PTP_DOMAIN. -/
def execConfigSetPtpDomain (pk : ChpPkt) (tag x : Nat) (s : State) : Host.Outcome State Fault Refusal := .next (takeCommand s pk tag (.configSetPtpDomain pk tag x))

/-- CLOSE. -/
def execClose (pk : ChpPkt) (tag : Nat) (s : State) : Host.Outcome State Fault Refusal := .next (takeCommand s pk tag (.close pk tag))

/-! ### What waits and goes on -/

/-- FUNCTION_STARTING_END (R538, R539): an MC is not ON before its stack is zero-filled. -/
def execFunctionStartingEnd (fn : Nat) (s : State) : Host.Outcome State Fault Refusal :=
  .next (if fnState s fn ≠ 1 ∨ (24 ≤ fn ∧ fn < 32 ∧ s.fld .mc (fn - 24) R.MCSTAT_ZEROING = 1) then s
    else
      let off := s.lodge.latches.contains (fn, false)
      let s := setLatch (setFn s fn 2) fn none
      let s := if off then requestFn s fn false else s
      let s := if s.lodge.stage = 2 ∧ s.lodge.pvX ∧ allFns s ((List.range 8).map (8 + ·)) 2 then s.modLodge fun l => { l with stage := 3 } else s
      startOn (powerOn s))

/-- FUNCTION_START_FAIL (R540): a function of stage 3 or 9 fails its stage; a port stays OFF, and the start goes on without it. -/
def execFunctionStartFail (fn : Nat) (s : State) : Host.Outcome State Fault Refusal :=
  .next (if fnState s fn ≠ 1 then s
    else
      let s := (setLatch (setFn s fn 3) fn none).submit { code := 0x0A11, src := 0, detail := fn }
      if (fn < 8 ∨ (16 ≤ fn ∧ fn < 32)) ∧ (s.lodge.power.map Ask.arg) = some 3 then stageFails s 9
      else if 8 ≤ fn ∧ fn < 16 ∧ s.lodge.stage = 2 then stageFails s 3
      else startOn s)

/-- LODGE_KEEPALIVE (R516, R528): every powered die sees the keepalive; the lodge and the gatehouse look after what is under way. DESIGN CHOICE (log 56). -/
def execLodgeKeepalive (s : State) : Host.Outcome State Fault Refusal :=
  .next (if s.lodge.off ∨ s.lodge.porst ∨ !s.lodge.pvX then s else serve (checkpointOn (startOn (lookRun (powerOn (setLease s R.DLEASE_LODGEOK 1))))))

end Sys2Proof.Machine
end

