-- ==== Sys2Proof/Machine/Cone.lean ====
section
/-!
DEFINITION. CONE (R208, R209, R408, R688): the comparison of sampled narrow outputs with a recomputation in FP64.
-/

namespace Sys2Proof.Machine

/-- A cone record (R685): kind, predictor slot, part, identity, sample index, mark word, data. -/
structure ConeRec where
  kind : Nat
  slot : Nat
  part : Nat
  ident : Nat
  idx : Nat
  marks : Nat
  data : List Byte
  deriving DecidableEq, Repr

/-- A record read from its 80 bytes. -/
def coneRec (bs : List Byte) : ConeRec :=
  { kind := numAt bs 1 0, slot := numAt bs 1 1, part := numAt bs 2 1, ident := numAt bs 4 1, idx := numAt bs 4 2, marks := numAt bs 4 3,
    data := bs.drop 16 }

/-- The copies of a kind for an identity and a sample index, in ascending part. -/
def copiesOf (rs : List ConeRec) (kind ident idx : Nat) : List ConeRec :=
  (rs.filter fun r => r.kind == kind && r.ident == ident && r.idx == idx).foldr (fun r l =>
    let lo := l.takeWhile fun x => decide (x.part < r.part)
    lo ++ r :: l.drop lo.length) []

/-- Whether the parts are 0 to n − 1, each once: a second copy of a part leaves the sample without whole copies. DESIGN CHOICE (log 27). -/
def partsWhole (rs : List ConeRec) (n : Nat) : Bool := rs.map ConeRec.part == List.range n

/-- One FP64 operation. -/
def f64 (x : Num) : Num := fp64.decode (fp64.near x)

/-- The recomputed output of column `col`: the exact products summed in ascending K order in FP64. DESIGN CHOICE (log 27). -/
def coneSum (as ws : List ConeRec) (col : Nat) : Num :=
  (List.range (32 * as.length)).foldl (fun (acc : Num) k =>
    let a := bf16.decode (numAt ((as.getD (k / 32) ⟨0, 0, 0, 0, 0, 0, []⟩).data) 2 (k % 32))
    let w := bf16.decode (numAt ((ws.getD k ⟨0, 0, 0, 0, 0, 0, []⟩).data) 2 col)
    f64 (acc.add (a.mul w))) Num.zero

/-- The relative error of R208. -/
def relError (n w : Num) : Num :=
  if w = .nan ∨ n = .nan then .nan
  else if w.eq .zero then (if n.eq .zero then .zero else .inf false)
  else f64 ((f64 (n.sub w)).abs.div w.abs)

/-- The bin of R209. -/
def errorBin (e : Num) : Nat :=
  match e with
  | .fin .. => ((List.range 15).find? fun (i : Nat) => e.lt (.fin false 1 (Int.ofNat i - 16))).getD 15
  | _ => 15

/-- A sample counted in a bin of a class, with its error (R209, R220, R224, R225). The FP64 error is rounded to the nearest FP32 code, which is +∞ above its range. DESIGN CHOICE (log 27). -/
def countSample (s : State) (t cls : Nat) (e : Num) : State :=
  let b := errorBin e
  let s := s.setTf t (R.CONEH_COUNT cls b) (satAdd (s.tf t (R.CONEH_COUNT cls b)) 1 (2 ^ 32 - 1))
  let s := s.setTf t R.CONESTAT_SAMPLES (satAdd (s.tf t R.CONESTAT_SAMPLES) 1 (2 ^ 32 - 1))
  if e.isFin then
    let c := fp32.near e
    let s := if (fp32.decode c).lt (fp32.decode (s.tf t (R.CONEX_MIN cls))) then s.setTf t (R.CONEX_MIN cls) c else s
    if (fp32.decode (s.tf t (R.CONEX_MAX cls))).lt (fp32.decode c) then s.setTf t (R.CONEX_MAX cls) c else s
  else s

/-- The tensor class of a sample: that of the valid scale slot of the context that names its identity, the codes 6 and 7 taken modulo 6. DESIGN CHOICE (log 27). -/
def coneClassOf (s : State) (t c ident : Nat) : Nat :=
  match (List.range 32).find? fun n => s.tf t (R.NSLOT_VALID c n) == 1 && s.tf t (R.NSLOT_TENSOR c n) == ident with
  | some n => s.tf t (R.NSLOT_CLASS c n) % 6
  | none => Config.coneClass ident % 6

/-- The narrow output of a column with its block scale; what a record of a wide format holds is open. DESIGN CHOICE (log 27). -/
def coneOut (s : State) (r : ConeRec) (col : Nat) : Num × State :=
  let fmt := (r.data.getD 33 0).toNat
  if isNarrow fmt then
    (((decodeBlock fmt (r.data.getD 32 0).toNat [(r.data.getD col 0).toNat]).head?).getD .nan, s)
  else (fp64.decode (s.freeNat.1 % 2 ^ 64), s.freeNat.2)

/-- A skipped output (R408). -/
def countSkipped (s : State) (t c p : Nat) (w : Option Num) : State :=
  let s := s.setTf t (R.PMISS_SKIPPED p) (satAdd (s.tf t (R.PMISS_SKIPPED p)) 1 0xFFFF)
  match w with
  | some w =>
    let th := fp32.decode (s.tf t (R.PREDSLOT_THRESH c p))
    if th.lt w.abs || th.eq w.abs then
      let s := s.setTf t (R.PMISS_MISS p) (satAdd (s.tf t (R.PMISS_MISS p)) 1 0xFFFF)
      s.setTf t R.CONESTAT_MISS (satAdd (s.tf t R.CONESTAT_MISS) 1 0xFFFF)
    else s
  | none => s

/-- One kind 3 record counted (R688). DESIGN CHOICE (log 27). -/
def countRecord (s : State) (t c : Nat) (rs : List ConeRec) (r : ConeRec) : State :=
  let as := copiesOf rs 1 r.ident r.idx
  let ws := copiesOf rs 2 r.ident r.part
  let cls := coneClassOf s t c r.ident
  let whole := !as.isEmpty && partsWhole as as.length && partsWhole ws (32 * as.length)
  let s := (List.range 32).foldl (fun s col =>
    if !bitOf r.marks col then countSkipped s t c (r.slot % 16) (if whole then some (coneSum as ws col) else none)
    else if whole then
      let (n, s) := coneOut s r col
      countSample s t cls (relError n (coneSum as ws col))
    else s) s
  if whole then s else countSample s t cls .nan

/-- CONE at dispatch: it reads its records. DESIGN CHOICE (log 27). -/
def effCone (t : Nat) (f : FmtM) (q : Queued) (s : State) : State :=
  let n := wget (q.vals.getD 0 0) 31 0
  if q.vals.getD 1 0 ≠ 0 then progFault s t fILLEGAL q.pc 0
  else chk s t q.pc (localWin s t q.ctx f.a.toNat 0 (80 * n)) fun o =>
    addFlight s t { id := q.id, eng := .ve, ctx := q.ctx, pc := q.pc, foot := {}, cnt := cntM f, kind := .cone (ownRd s t o (80 * n)) }

/-- CONE, on a V-tile. -/
def execCone (t : Nat) (f : FmtM) (s : State) : Host.Outcome State Fault Refusal :=
  let c := s.actx t
  let len := 80 * wget (rs s t c f.rx.toNat) 31 0
  .next (issue s t
    { instr := .cone t f, eng := .ve, wait := f.wait,
      legal := classOf t == 1 && f.pred == 0 && f.b == 0 && f.c == 0 && bits f.mod.toNat 6 0 == 0 && cntLegal f,
      foot := { reads := [idA f.a.toNat], ranges := rangeOf (localWin s t c f.a.toNat 0 len) len false },
      need := [idA f.a.toNat], vals := [f.rx.toNat, f.ry.toNat], desc := none } (effCone t f))

/-- CONE_COMPLETE (R688): every sample is counted (none where the cone is not enabled, R212), and the counter is signalled; a fenced
tile stays as it is (R72). -/
def execConeComplete (t : Nat) (s : State) : Host.Outcome State Fault Refusal :=
  .next (if s.tstate t = fenced then s else match (s.tile t).flights.find? fun f => match f.kind with | .cone _ => true | _ => false with
    | some f => (match f.kind with
      | .cone bs =>
        let rs := (chunks 80 bs).map coneRec
        let s := dropFlight s t f.id
        let s := if s.tf t (R.CONECFG_EN f.ctx) = 1 then (rs.filter fun r => r.kind == 3).foldl (fun s r => countRecord s t f.ctx rs r) s else s
        settle (complete s t f.ctx f.cnt stOK .ve f.pc) t
      | _ => s)
    | none => s)

end Sys2Proof.Machine
end

