-- ==== Sys2Proof/Machine/Matrix.lean ====
section
/-!
DEFINITION. The matrix engine (R135–R157, R401–R406, R679–R683, R687): panels, multiplies, predictor passes, drains and the batch
gate. An instruction takes its operands when it dispatches; the accumulators change when it completes.
-/

namespace Sys2Proof.Machine

/-! ### Shapes (R141, R143, R144, R680) -/

/-- The gang mode of a context. -/
def gangMode (s : State) (t c : Nat) : Nat := s.tf t (R.MGANG_MODE c)

/-- The gang mode that an ME instruction which comes to issue will find (R742): that of the last MGANG of its context still queued, else the present one. DEDUCED (log 80). -/
def issueMode (s : State) (t c : Nat) : Nat :=
  (s.tile t).queue.foldl (fun m q => match q.instr with
    | .mgang _ f => if q.ctx = c then bits f.imm.toNat 1 0 else m
    | _ => m) (gangMode s t c)

/-- Accumulator rows of a mode, of each sub-array in SEP. -/
def modeRows (mode : Nat) : Nat := match mode with | 2 => 2048 | 3 => 1024 | _ => 512

/-- Columns of a mode. -/
def modeCols (mode : Nat) : Nat := match mode with | 1 => 64 | 3 => 32 | _ => 16

/-- K positions of a sub-array, two to a cell row in F4. -/
def subK (fmt : Nat) : Nat := if fmt = 5 then 128 else 64

/-- K positions of a panel. -/
def panelK (mode fmt : Nat) : Nat := subK fmt * (match mode with | 2 => 4 | 3 => 2 | _ => 1)

/-- Whether the ME multiplies a pair of formats. -/
def mmulPair (a b : Nat) : Bool :=
  ((a == 3 || a == 4) && (b == 3 || b == 4)) || (a == 5 && b == 5) || (a == 6 && b == 6) || (a == 1 && b == 1)

/-- Whether a panel may have a format. -/
def panelFmt (b : Nat) : Bool := b == 1 || isNarrow b || b == 6

/-- Bytes of one sub-array's part of a panel. -/
def partBytes (fmt : Nat) : Nat := if fmt = 1 then 2048 else 1024

/-- Runs of 32 K positions in a sub-array, and the scale bytes of one part. -/
def partScales (fmt : Nat) : Nat := if isNarrow fmt then 16 * (subK fmt / 32) else 0

/-- Parts of a panel in one range: one in SEP, two otherwise. -/
def partsOf (mode : Nat) : Nat := if mode = 0 then 1 else 2

/-- Bytes of a panel range of `n` panels, its scale plane included. -/
def panelSpan (mode fmt n : Nat) : Nat := n * partsOf mode * (partBytes fmt + partScales fmt)

/-- Bytes of the data of an A operand. -/
def aBytes (mode fmt rows panels : Nat) : Nat := fmtBytes fmt (rows * panels * panelK mode fmt)

/-- Bytes of an A operand, its scale plane included. -/
def aSpan (mode fmt rows panels : Nat) : Nat :=
  if isNarrow fmt then roundUp (aBytes mode fmt rows panels) 64 + rows * panels * panelK mode fmt / 32 else aBytes mode fmt rows panels

/-- Panel `i` of a range of `n` panels: its data and its scales. -/
def panelAt (mode fmt n i : Nat) (bs : List Byte) : List Byte × List Byte :=
  let d := partsOf mode * partBytes fmt
  let k := partsOf mode * partScales fmt
  ((bs.drop (i * d)).take d, (bs.drop (n * d + i * k)).take k)

/-- Panel `i` of the ranges of a multiply. -/
def jobPanel (mode : Nat) (j : MmulJob) (n i : Nat) : PanelSet :=
  let l := panelAt mode j.pfmt n i j.bData
  let h := if mode = 0 then ([], []) else panelAt mode j.pfmt n i j.cData
  { fmt := j.pfmt, low := l.1, high := h.1, lowScale := l.2, highScale := h.2 }

/-! ### Sums (R138) -/

/-- One element's code at an index of packed data. -/
def codeAt (fmt : Nat) (bs : List Byte) (i : Nat) : Nat :=
  if fmt = 5 then (bs.getD (i / 2) 0).toNat / 16 ^ (i % 2) % 16
  else if fmt = 1 then numAt bs 2 i
  else (bs.getD i 0).toNat

/-- Codes as operands of a run under their scale byte. -/
def operands (fmt scale : Nat) (codes : List Nat) : List Num :=
  if isNarrow fmt then decodeBlock fmt scale codes
  else if fmt = 6 then codes.map fun c => .ofInt (sextInt c 8)
  else codes.map bf16.decode

/-- The sub-array that holds K position `k` of a panel for output column `n`. -/
def subFor (mode fmt n k : Nat) : Nat :=
  match mode with
  | 1 => n / 16
  | 2 => k / subK fmt
  | 3 => n / 16 * 2 + k / subK fmt
  | _ => 0

/-- The weights of column `n` at run `r` of a panel. -/
def weightRun (mode : Nat) (ps : PanelSet) (n r : Nat) : List Num :=
  let fmt := ps.fmt
  let sub := subFor mode fmt n (32 * r)
  let r' := r % (subK fmt / 32)
  let data := if sub < 2 then ps.low else ps.high
  let scales := if sub < 2 then ps.lowScale else ps.highScale
  let part := sub % 2
  let at_ := fun k => codeAt fmt (data.drop (part * partBytes fmt)) ((32 * r' + k) * 16 + n % 16)
  operands fmt (scales.getD (part * partScales fmt + n % 16 * (subK fmt / 32) + r') 0).toNat ((List.range 32).map at_)

/-- The A row `i` at run `r` of panel `p`. -/
def aRun (mode : Nat) (j : MmulJob) (i p r : Nat) : List Num :=
  let k := panelK mode j.afmt
  let e := i * (j.panels * k) + p * k + 32 * r
  let sc := (j.aData.getD (roundUp (aBytes mode j.afmt j.rows j.panels) 64 + e / 32) 0).toNat
  operands j.afmt sc ((List.range 32).map fun q => codeAt j.afmt j.aData (e + q))

/-- A running value plus an exact term, rounded once to FP32; an exact zero term counts as +0. -/
def accAdd (acc : Nat) (x : Num) : Nat :=
  let x := match x with | .fin _ 0 _ => Num.zero | y => y
  fp32.near ((fp32.decode acc).add x)

/-- One run added: its exact sum, or in BF16 each product. DEDUCED (log 28). -/
def addRun (fmt acc : Nat) (a b : List Num) : Nat :=
  let ps := a.zipWith Num.mul b
  if fmt = 1 then ps.foldl accAdd acc else accAdd acc (ps.foldl Num.add .zero)

/-- The panels of a multiply, in order. -/
def jobPanels (mode : Nat) (j : MmulJob) : List PanelSet :=
  match j.held with
  | some ps => ps :: (List.range (j.panels - 1)).map fun i => jobPanel mode j (j.panels - 1) i
  | none => (List.range j.panels).map fun i => jobPanel mode j j.panels i

/-- The FP32 value of output column `n` of row `i`, from the running value it starts with. -/
def outputOf (mode : Nat) (j : MmulJob) (i n start : Nat) : Nat :=
  (jobPanels mode j).zipIdx.foldl (fun acc (ps, p) =>
    (List.range (panelK mode j.afmt / 32)).foldl (fun acc r => addRun j.afmt acc (aRun mode j i p r) (weightRun mode ps n r)) acc) start

/-- The key of an accumulator element. -/
def accKey (mode sub row col : Nat) : Nat := sub * 8192 + row * modeCols mode + col

/-- An accumulator element's FP32 code. -/
def accGet (x : Tile) (k : Nat) : Nat := (mget (fun _ => (0 : BitVec 32)) x.acc k).toNat

/-- The tile with an accumulator element set. -/
def accPut (x : Tile) (k v : Nat) : Tile := { x with acc := mput (fun _ => 0) x.acc k (.ofNat 32 v) }

/-- The keys of the elements of rows. -/
def rowKeys (mode sub first rows : Nat) : List Nat :=
  (List.range (rows * modeCols mode)).map fun i => accKey mode sub (first + i / modeCols mode) (i % modeCols mode)

/-- A multiply's results enter the accumulators (R138, R403). DEDUCED (log 17). -/
def applyJob (s : State) (t : Nat) (j : MmulJob) : State :=
  let mode := gangMode s t j.ctx
  s.modTile t fun x => (List.range (j.rows * modeCols mode)).foldl (fun y i =>
    let k := accKey mode j.sub (j.first + i / modeCols mode) (i % modeCols mode)
    if j.mark && x.unmarked.contains k then y
    else accPut y k (outputOf mode j (i / modeCols mode) (i % modeCols mode) (if j.accum then accGet y k else 0))) x

/-! ### MGANG and MPANEL -/

/-- MGANG at dispatch (R146). -/
def effMgang (t : Nat) (f : FmtSI) (q : Queued) (s : State) : State :=
  let n := f.imm.toNat
  let fill := bits n 8 2
  if fill = 0 ∨ fill > 64 then progFault s t fGANG q.pc 0
  else
    let s := (s.setTf t (R.MGANG_MODE q.ctx) (bits n 1 0)).setTf t (R.MGANG_FILL q.ctx) fill
    (s.setTf t (R.MGANG_DEADLINE q.ctx) (bits n 24 9)).modTile t zeroArray

/-- MGANG. -/
def execMgang (t : Nat) (f : FmtSI) (s : State) : Host.Outcome State Fault Refusal :=
  .next (issue s t { instr := .mgang t f, eng := .me, wait := 0,
                     legal := f.pred == 0 && f.rd == 0 && f.ra == 0 && f.func == 0 && bits f.imm.toNat 31 25 == 0,
                     foot := {}, need := [], vals := [], desc := none } (effMgang t f))

/-- The key of a panel slot. -/
def slotKey2 (mode sub slot : Nat) : Nat := 2 * (if mode = 0 then sub else 0) + slot

/-- The ranges of an MPANEL: GANG for what R141, R145 and R679 do not admit, then the checks of its ranges. -/
def mpanelPlan (s : State) (t c mode : Nat) (f : FmtM) (x y : Word) : Chk (List Range) :=
  let fmt := wget y 3 0
  let n := panelSpan mode fmt 1
  if !panelFmt fmt ∨ wget y 63 4 ≠ 0 ∨ wget x 36 0 ≠ wget x 36 36 * 2 ^ 36 ∨ wget x 63 38 ≠ 0 then .error (fGANG, 0)
  else if mode ≠ 0 ∧ wget x 37 36 ≠ 0 then .error (fGANG, 0)
  else if mode = 0 ∧ f.c ≠ 0 then .error (fGANG, 0)
  else match localWin s t c f.b.toNat 0 n with
    | .error e => .error e
    | .ok lo =>
      if mode = 0 then .ok [⟨lo, n, false⟩]
      else match localWin s t c f.c.toNat 0 n with
        | .error e => .error e
        | .ok hi => .ok [⟨lo, n, false⟩, ⟨hi, n, false⟩]

/-- A plan's ranges for the scoreboard; none where a check fails, whose fault comes at dispatch. -/
def planRanges (r : Chk (List Range)) : List Range := match r with | .ok l => l | .error _ => []

/-- MPANEL at dispatch. -/
def effMpanel (t : Nat) (f : FmtM) (q : Queued) (s : State) : State :=
  let x := q.vals.getD 0 0
  let fmt := wget (q.vals.getD 1 0) 3 0
  let mode := gangMode s t q.ctx
  chk s t q.pc (mpanelPlan s t q.ctx (gangMode s t q.ctx) f x (q.vals.getD 1 0)) fun rs =>
    let rdAt := fun i => match rs[i]? with | some (r : Range) => panelAt mode fmt 1 0 (ownRd s t r.lo r.len) | none => ([], [])
    addFlight s t { id := q.id, eng := .me, ctx := q.ctx, pc := q.pc, foot := {}, cnt := cntM f,
                    kind := .mpanel (slotKey2 mode (wget x 37 36) (f.mod.toNat % 2))
                      { fmt := fmt, low := (rdAt 0).1, high := (rdAt 1).1, lowScale := (rdAt 0).2, highScale := (rdAt 1).2 } }

/-- MPANEL. -/
def execMpanel (t : Nat) (f : FmtM) (s : State) : Host.Outcome State Fault Refusal :=
  let c := s.actx t
  .next (issue s t
    { instr := .mpanel t f, eng := .me, wait := f.wait,
      legal := f.pred == 0 && f.a == 0 && bits f.mod.toNat 6 1 == 0 && cntLegal f,
      foot := { reads := [idA f.b.toNat, idA f.c.toNat],
                ranges := planRanges (mpanelPlan s t c (issueMode s t c) f (rs s t c f.rx.toNat) (rs s t c f.ry.toNat)) },
      need := [idA f.b.toNat, idA f.c.toNat], vals := [f.rx.toNat, f.ry.toNat], desc := none } (effMpanel t f))

/-- A slot takes a panel set. -/
def putSlot (x : Tile) (k : Nat) (ps : PanelSet) : Tile := { x with slots := mput (fun _ => none) x.slots k (some ps) }

/-- MPANEL_LOADED (R681): the oldest panel load under way ends. -/
def execMpanelLoaded (t : Nat) (s : State) : Host.Outcome State Fault Refusal :=
  .next (match (s.tile t).flights.find? fun f => match f.kind with | .mpanel .. => true | _ => false with
    | some f => (match f.kind with
      | .mpanel k ps =>
        let s := (dropFlight s t f.id).modTile t fun x =>
          { putSlot x k ps with lastSlot := mput (fun _ => 0) x.lastSlot (k / 2) (k % 2 + 1) }
        settle (complete s t f.ctx f.cnt stOK .me f.pc) t
      | _ => s)
    | none => s)

/-! ### MMUL and MPRED -/

/-- A multiply's job without its data, and its ranges, in a gang mode: GANG for what R141, R145 and R679 do not admit, then the checks of the ranges. DEDUCED (log 22). -/
def mmulPlan (s : State) (t c pc mode : Nat) (f : FmtM) (x y : Word) (pred : Bool) : Chk (MmulJob × List Range) :=
  let m := wget x 11 0
  let first := wget x 23 12
  let p := wget x 35 24
  let sub := wget x 37 36
  let af := wget y 3 0
  let pf := wget y 7 4
  let held := bitOf f.mod.toNat 3
  let n := if held then p - 1 else p
  if m = 0 ∨ m > 2048 ∨ p = 0 ∨ first + m > modeRows mode ∨ (mode ≠ 0 ∧ sub ≠ 0) ∨ (mode = 0 ∧ f.c ≠ 0) ∨ !mmulPair af pf then
    .error (fGANG, 0)
  else if wget x 63 38 ≠ 0 ∨ wget y 63 12 ≠ 0 ∨ (pred ∧ af ≠ 5) ∨ (!pred ∧ wget y 11 8 ≠ 0) then .error (fGANG, 0)
  else match localWin s t c f.a.toNat 0 (aSpan mode af m p) with
    | .error e => .error e
    | .ok ao =>
      let span := panelSpan mode pf n
      let win := fun (k : Nat) => if n = 0 then .ok 0 else localWin s t c k 0 span
      match win f.b.toNat, (if mode = 0 then .ok 0 else win f.c.toNat) with
      | .error e, _ => .error e
      | _, .error e => .error e
      | .ok bo, .ok co =>
        .ok ({ ctx := c, pc := pc, cnt := cntM f, sub := sub, first := first, rows := m, panels := p, afmt := af, pfmt := pf,
               accum := bitOf f.mod.toNat 0, mark := !pred && bitOf f.mod.toNat 2,
               pred := if pred then some (wget y 11 8, bitOf f.mod.toNat 1) else none,
               held := none, heldSlot := none, aOff := ao, bOff := bo, cOff := co, aData := [], bData := [], cData := [] },
             [⟨ao, aSpan mode af m p, false⟩] ++ (if n = 0 then [] else [⟨bo, span, false⟩]) ++
               (if n = 0 ∨ mode = 0 then [] else [⟨co, span, false⟩]))

/-- The slots after a multiply's own panel loads (R681): alternate slots, from the slot not held, or from slot 0. DEDUCED (log 28). -/
def loadSlots (mode : Nat) (j : MmulJob) (x : Tile) : Tile :=
  let ps := jobPanels mode j
  (List.range j.panels).foldl (fun x i =>
    if j.held.isSome && i == 0 then x
    else if i + 2 < j.panels then x
    else
      let slot := match j.heldSlot with | some h => (h + i) % 2 | none => i % 2
      match ps[i]? with
      | some p => putSlot x (slotKey2 mode j.sub slot) p
      | none => x) x

/-- The panel set that a slot holds for a multiply of a panel format; a slot that has been zeroed since its load reads as zeros of any format (R140). DEDUCED (log 28). -/
def slotPanel (x : Tile) (k fmt : Nat) : PanelSet :=
  (mget (fun _ => none) x.slots k).getD { fmt := fmt, low := [], high := [], lowScale := [], highScale := [] }

/-- A multiply past its plan: the held panel is found (R681), in slot 0 where no MPANEL has loaded one yet; the operands are read; `none` where the held format
differs. DEDUCED (log 28). -/
def loadJob (s : State) (t : Nat) (f : FmtM) (j : MmulJob) : Option MmulJob :=
  let x := s.tile t
  let mode := gangMode s t j.ctx
  let held := bitOf f.mod.toNat 3
  let n := if held then j.panels - 1 else j.panels
  let j := { j with aData := ownRd s t j.aOff (aSpan mode j.afmt j.rows j.panels), bData := ownRd s t j.bOff (panelSpan mode j.pfmt n),
                    cData := if mode = 0 then [] else ownRd s t j.cOff (panelSpan mode j.pfmt n) }
  if !held then some j
  else
    let slot := mget (fun _ => 0) x.lastSlot (if mode = 0 then j.sub else 0) - 1
    let ps := slotPanel x (slotKey2 mode j.sub slot) j.pfmt
    if ps.fmt = j.pfmt then some { j with held := some ps, heldSlot := some slot } else none

/-- Whether a gated request joins the held batch (BATCH_GATE_JOIN, R154, R406, R681). -/
def joins (j : MmulJob) (k : MmulJob) : Bool :=
  j.bOff == k.bOff && j.cOff == k.cOff && j.panels == k.panels && j.afmt == k.afmt && j.pfmt == k.pfmt && j.sub == k.sub &&
    j.mark == k.mark && j.heldSlot == k.heldSlot && !rowsMeet j.sub j.first j.rows k.sub k.first k.rows

/-- Whether the sequencer has issued CTX or HALT and waits for what came before it (R155). -/
def endsBatch (x : Tile) : Bool := match x.held with | some .ctx => true | some .halt => true | _ => false

/-- A gated request (R153–R155): it joins the batch or opens one, which is released when it is full or the sequencer has issued CTX or HALT. -/
def gateJob (s : State) (t : Nat) (j : MmulJob) : State :=
  let s := if (s.tile t).gate.all (joins j) then s else releaseGate s t
  let s := s.modTile t fun x => { x with gate := x.gate ++ [j] }
  let g := (s.tile t).gate
  if g.length ≥ 8 ∨ (g.map MmulJob.rows).foldl (· + ·) 0 ≥ s.tf t (R.MGANG_FILL j.ctx) ∨ endsBatch (s.tile t) then releaseGate s t else s

/-- MMUL or MPRED at dispatch. DEDUCED (log 17). -/
def effMmul (t : Nat) (f : FmtM) (pred : Bool) (q : Queued) (s : State) : State :=
  chk s t q.pc (mmulPlan s t q.ctx q.pc (gangMode s t q.ctx) f (q.vals.getD 0 0) (q.vals.getD 1 0) pred) fun r =>
    match loadJob s t f r.1 with
    | none => progFault s t fGANG q.pc 0
    | some j =>
      let s := s.modTile t (loadSlots (gangMode s t j.ctx) j)
      if gatedInstr s t q.ctx q.instr then gateJob s t j
      else addFlight (clockUp s t) t { id := q.id, eng := .me, ctx := q.ctx, pc := q.pc, foot := {}, cnt := j.cnt, kind := .mmul j }

/-- What MMUL and MPRED need at issue. DEDUCED (log 80). -/
def mmulReq (s : State) (t : Nat) (f : FmtM) (i : Instr) (pred : Bool) : IssueReq :=
  let c := s.actx t
  { instr := i, eng := .me, wait := f.wait,
    legal := f.pred == 0 && bits f.mod.toNat 6 4 == 0 && (!pred || !bitOf f.mod.toNat 2) && cntLegal f,
    foot := { reads := [idA f.a.toNat, idA f.b.toNat, idA f.c.toNat],
              ranges := match mmulPlan s t c 0 (issueMode s t c) f (rs s t c f.rx.toNat) (rs s t c f.ry.toNat) pred with
                | .ok r => r.2 | .error _ => [] },
    need := [idA f.a.toNat, idA f.b.toNat, idA f.c.toNat], vals := [f.rx.toNat, f.ry.toNat], desc := none }

/-- MMUL. -/
def execMmul (t : Nat) (f : FmtM) (s : State) : Host.Outcome State Fault Refusal :=
  .next (issue s t (mmulReq s t f (.mmul t f) false) (effMmul t f false))

/-- MPRED. -/
def execMpred (t : Nat) (f : FmtM) (s : State) : Host.Outcome State Fault Refusal :=
  .next (issue s t (mmulReq s t f (.mpred t f) true) (effMmul t f true))

/-- The sub-array whose pipe an operation holds, if any. -/
def pipeOf (f : Flight) : Option Nat :=
  match f.kind with
  | .mmul j => some j.sub
  | .predMark j => some j.sub
  | .batch js => js.head?.map MmulJob.sub
  | _ => none

/-- MMUL_COMPLETE (R149, R161, R402): the oldest multiply of a sub-array's pipe has its results in the accumulators, unless its rows still wait for a ramp-up. A
final MPRED then sets its marks. -/
def execMmulComplete (t sub : Nat) (s : State) : Host.Outcome State Fault Refusal :=
  .next (match (s.tile t).flights.find? fun f => pipeOf f == some sub with
    | some f => if !rowsEnter (s.tile t) then s else (match f.kind with
      | .mmul j =>
        let s := applyJob s t j
        (match j.pred with
         | some (_, true) => s.modTile t fun x =>
             { x with flights := x.flights.map fun g => if g.id = f.id then { g with kind := .predMark j } else g }
         | _ => settle (complete (dropFlight s t f.id) t f.ctx f.cnt stOK .me f.pc) t)
      | _ => s)
    | none => s)

/-- Whether a final MPRED marks an element (R402). -/
def marked (s : State) (t c p acc : Nat) : Bool :=
  s.tf t (R.PREDSLOT_EN c p) == 0 ||
  match fp32.decode acc with
  | .nan => true
  | x => !(x.abs.lt ((fp32.decode (s.tf t (R.PREDSLOT_THRESH c p))).scale (-(s.tf t (R.PREDSLOT_GUARD c p) : Int))))

/-- MPRED_FINAL_MARK (R402): marks set, rows zeroed, counter signalled. -/
def execMpredFinalMark (t sub : Nat) (s : State) : Host.Outcome State Fault Refusal :=
  .next (match (s.tile t).flights.find? fun f => pipeOf f == some sub with
    | some f => (match f.kind with
      | .predMark j =>
        let p := (j.pred.getD (0, true)).1
        let ks := rowKeys (gangMode s t j.ctx) j.sub j.first j.rows
        let off := ks.filter fun k => !marked s t j.ctx p (accGet (s.tile t) k)
        let s := s.modTile t fun x =>
          { ks.foldl (fun x k => accPut x k 0) x with unmarked := (x.unmarked.filter fun k => !ks.contains k) ++ off, predSlot := p }
        settle (complete (dropFlight s t f.id) t f.ctx f.cnt stOK .me f.pc) t
      | _ => s)
    | none => s)

/-- GATE_DEADLINE_EXPIRY (R155). -/
def execGateDeadlineExpiry (t : Nat) (s : State) : Host.Outcome State Fault Refusal := .next (releaseGate s t)

/-- BATCH_COMPLETE (R156): the members' results enter in admission order, and their counters are signalled in that order. -/
def execBatchComplete (t : Nat) (s : State) : Host.Outcome State Fault Refusal :=
  .next (match (s.tile t).flights.find? fun f => match f.kind with | .batch _ => true | _ => false with
    | some f => (match f.kind with
      | .batch js =>
        if ((s.tile t).flights.find? fun g => pipeOf g == pipeOf f) ≠ some f ∨ !rowsEnter (s.tile t) then s
        else
          let s := js.foldl (fun s j => applyJob s t j) (dropFlight s t f.id)
          settle (js.foldl (fun s j => complete s t j.ctx j.cnt stOK .me j.pc) s) t
      | _ => s)
    | none => s)

/-! ### MDRAIN (R151, R683, R687) -/

/-- Blocks of a drain of `rows` rows. -/
def drainBlocks (mode rows : Nat) : Nat :=
  match mode with
  | 1 => 2 * rows
  | 3 => rows
  | _ => cdiv rows 2

/-- The accumulator keys of the 32 outputs of block `b`; none for those that complete an odd row count. -/
def blockKeys (mode sub first rows b : Nat) : List (Option Nat) :=
  (List.range 32).map fun i =>
    match mode with
    | 1 => some (accKey mode sub (first + b / 2) (32 * (b % 2) + i))
    | 3 => some (accKey mode sub (first + b) i)
    | _ => if 2 * b + i / 16 < rows then some (accKey mode sub (first + 2 * b + i / 16) (i % 16)) else none

/-- Output row index and column block index of block `b`. -/
def blockIndex (mode row0 col0 b : Nat) : Nat × Nat :=
  if mode = 1 then (row0 + b / 2, col0 + b % 2) else (row0 + b, col0)

/-- Bytes that a drain writes: its data, and for a narrow target the scale plane after it (R663). -/
def drainSpan (tfmt nb : Nat) : Nat :=
  if isNarrow tfmt then roundUp (fmtBytes tfmt (32 * nb)) 64 + nb else fmtBytes tfmt (32 * nb)

/-- The destination of a drain: GANG for what R145, R215 and R683 do not admit, then the checks of its range. DEDUCED (log 22, log 28). -/
def mdrainPlan (s : State) (t c mode : Nat) (f : FmtM) (x y : Word) : Chk Nat :=
  let rows := wget x 11 0
  let tfmt := wget y 8 5
  if rows = 0 ∨ wget x 23 12 + rows > modeRows mode ∨ (mode ≠ 0 ∧ wget x 41 40 ≠ 0) ∨ wget x 63 42 ≠ 0 ∨ wget y 11 9 ≠ 0 ∨
      wget y 63 52 ≠ 0 ∨ !(tfmt == 0 || tfmt == 1 || isNarrow tfmt) then .error (fGANG, 0)
  else if s.tf t (R.NSLOT_VALID c (wget y 4 0)) = 0 ∨ s.tf t (R.NSLOT_CLASS c (wget y 4 0)) ≥ 6 then .error (fGANG, 0)
  else
    let n := drainSpan tfmt (drainBlocks mode rows)
    match window s t c f.a.toNat 0 n with
    | .error e => .error e
    | .ok a => localDst s t c a n

/-- One block of a drain converted (R181, R183, R185, R404): codes and scale byte, and the state with its counts. -/
def drainBlock (s : State) (t c slot tfmt block : Nat) (xs : List Num) : List Nat × Nat × State :=
  if isNarrow tfmt then
    let b := slotConvert s t c slot tfmt block xs
    (b.codes, b.scale, slotCount s t c slot b)
  else
    let nans := (xs.filter fun x => !x.isFin).length
    let key := slotKey s t c slot block
    let codes := xs.zipIdx.map fun (x, j) =>
      if tfmt = 0 then fp32.near x
      else if s.tf t (R.NSLOT_CLASS c slot) = 2 then (bf16.round (.stoch (roundKey key.seed key.block key.tensor key.step j)) x).1
      else bf16.near x
    (codes, 0, if nans = 0 then s else slotUpdate s t c slot none 0 nans)

/-- The cone records of one block (R687). DEDUCED: without MARK, where no output has been skipped, the mark word is all ones. A wide target has no 32 codes of one byte: what its record holds is a free value. DEDUCED (log 28). DESIGN CHOICE (log 29). -/
def drainCone (s : State) (t c pc : Nat) (f : FmtM) (slot tfmt row col : Nat) (codes : List Nat) (scale marks : Nat) (xs : List Num) : State :=
  let ident := s.tf t (R.NSLOT_TENSOR c slot)
  let s :=
    if bitOf f.mod.toNat 2 && coneSamples s t c 1 ident row && coneSamples s t c 2 ident col then
      let mk := bitOf f.mod.toNat 1
      let body := if isNarrow tfmt then (codes.map fun c => BitVec.ofNat 8 c) ++ [.ofNat 8 scale] else toBytes s.freeNat.1 33
      let s := if isNarrow tfmt then s else s.freeNat.2
      coneRecord s t c pc 3 (if mk then (s.tile t).predSlot else 0) col ident row (if mk then marks else 2 ^ 32 - 1) (body ++ [.ofNat 8 tfmt])
    else s
  let tag := s.tf t (R.CONETAG_IDENT c)
  if bitOf f.mod.toNat 3 && coneSamples s t c 1 tag row then coneRecord s t c pc 1 0 col tag row 0 (bf16Bytes xs) else s

/-- One block of a drain whose rows read as in `s₀` (R151, R404): its codes and scale byte join those before it, and the counts and the cone's records take it in. -/
def drainStep (s₀ : State) (t c pc : Nat) (f : FmtM) (x y : Word) (r : List Nat × List Byte × State) (b : Nat) : List Nat × List Byte × State :=
  let mode := gangMode s₀ t c
  let slot := wget y 4 0
  let tfmt := wget y 8 5
  let tile := s₀.tile t
  let ks := blockKeys mode (wget x 41 40) (wget x 23 12) (wget x 11 0) b
  let on := fun k => !bitOf f.mod.toNat 1 || !tile.unmarked.contains k
  let xs := ks.map fun k => match k with | some k => if on k then fp32.decode (accGet tile k) else .zero | none => .zero
  let marks := ks.zipIdx.foldl (fun n (k, i) => n + (match k with | some k => if on k then 2 ^ i else 0 | none => 0)) 0
  let (row, col) := blockIndex mode (wget y 35 12) (wget y 51 36) b
  let (codes, scale, s) := drainBlock r.2.2 t c slot tfmt (row * wget x 39 24 + col) xs
  (r.1 ++ codes, r.2.1 ++ [.ofNat 8 scale], drainCone s t c pc f slot tfmt row col codes scale marks xs)

/-- MDRAIN at dispatch: it reads, converts and, if asked, zeroes its rows; the results are written when it completes. DEDUCED (log 17). -/
def effMdrain (t : Nat) (f : FmtM) (q : Queued) (s : State) : State :=
  let c := q.ctx
  let x := q.vals.getD 0 0
  let y := q.vals.getD 1 0
  let mode := gangMode s t c
  let tfmt := wget y 8 5
  chk s t q.pc (mdrainPlan s t c mode f x y) fun off =>
    let r := (List.range (drainBlocks mode (wget x 11 0))).foldl (drainStep s t c q.pc f x y) ([], [], s)
    let data := packCodes tfmt r.1
    let s := if bitOf f.mod.toNat 0 then
        r.2.2.modTile t fun z => (rowKeys mode (wget x 41 40) (wget x 23 12) (wget x 11 0)).foldl (fun z k => accPut z k 0) z
      else r.2.2
    addFlight s t { id := q.id, eng := .me, ctx := c, pc := q.pc, cnt := cntM f,
                    foot := { ranges := [⟨off, drainSpan tfmt (drainBlocks mode (wget x 11 0)), true⟩] },
                    kind := .mdrain off data (off + roundUp data.length 64) (if isNarrow tfmt then r.2.1 else []) }

/-- MDRAIN. -/
def execMdrain (t : Nat) (f : FmtM) (s : State) : Host.Outcome State Fault Refusal :=
  let c := s.actx t
  let x := rs s t c f.rx.toNat
  let y := rs s t c f.ry.toNat
  .next (issue s t
    { instr := .mdrain t f, eng := .me, wait := f.wait,
      legal := f.pred == 0 && f.b == 0 && f.c == 0 && bits f.mod.toNat 6 4 == 0 && cntLegal f,
      foot := { reads := [idA f.a.toNat],
                ranges := rangeOf (mdrainPlan s t c (issueMode s t c) f x y)
                    (drainSpan (wget y 8 5) (drainBlocks (issueMode s t c) (wget x 11 0))) true ++
                  (if bits f.mod.toNat 3 2 = 0 then [] else coneFoot s t c) },
      need := [idA f.a.toNat], vals := [f.rx.toNat, f.ry.toNat], desc := none, locates := true } (effMdrain t f))

/-- MDRAIN_COMPLETE (R151): the oldest drain's results and scale plane are written, and its counter is signalled. -/
def execMdrainComplete (t : Nat) (s : State) : Host.Outcome State Fault Refusal :=
  .next (match (s.tile t).flights.find? fun f => match f.kind with | .mdrain .. => true | _ => false with
    | some f => (match f.kind with
      | .mdrain off data soff scales =>
        settle (complete (ownWr (ownWr (dropFlight s t f.id) t off data) t soff scales) t f.ctx f.cnt stOK .me f.pc) t
      | _ => s)
    | none => s)

end Sys2Proof.Machine
end

