-- ==== Sys2Proof/Machine/Session.lean ====
section
/-!
DEFINITION. Handshakes and sessions (R559, R592–R598), the data and credit of bulk streams (R565), and time (R566, R567).
-/

namespace Sys2Proof.Machine

/-! ### The handshake (R595–R597) -/

/-- The parts of a HELLO (R595): whether it asks for an admission, nonce, ephemeral key, session certificate, owner root certificate, release authorisation. -/
structure Hello where
  admission : Bool
  nonce : List Byte
  eph : List Byte
  cert : List Byte
  root : List Byte
  release : List Byte
  deriving DecidableEq, Repr

/-- A HELLO read; `none` where it cannot be parsed. The flags take one byte, and the fields follow one another in the order of R595. DEDUCED (log 66). -/
def parseHello (bs : List Byte) : Option Hello :=
  let admission := bitOf (bs.getD 0 0).toNat 0
  let h : Hello := ⟨admission, slice bs 1 32, slice bs 33 96, slice bs 129 2080, slice bs 2209 2080, slice bs 4289 1944⟩
  if admission then (if bs.length = 4289 ∨ bs.length = 6233 then some h else none)
  else if bs.length = 2209 then some h else none

/-- The release authorisation of R592 names this device, the new owner and the count. -/
def releaseNames (s : State) (h : Hello) : Bool :=
  h.release.length == 1944 && slice h.release 0 4 == ascii "CHRL" && slice h.release 4 16 == deviceId s && slice h.release 20 48 == Config.sha384 h.root &&
    numAt h.release 4 17 == s.mram.admissions + 1 && (slice h.release 72 4).all (· == 0)

/-- The release authorisation is signed by the current owner. -/
def releaseSigned (s : State) (h : Hello) : Bool := signedBy s.mram.owner (slice h.release 0 76) (slice h.release 76 96) (slice h.release 172 1772)

/-- Every certificate and signature of a HELLO verifies (R583, R592). -/
def helloSigned (s : State) (h : Hello) : Bool :=
  if h.admission then sessionCertValid s h.cert h.root && (s.mram.owner.isEmpty || releaseSigned s h)
  else !s.mram.owner.isEmpty && sessionCertValid s h.cert s.mram.owner

/-- The state without a half-open handshake. -/
def dropHalf (s : State) (hs : Nat) : State := { s with chp := { s.chp with halves := s.chp.halves.filter fun x => x.hs ≠ hs } }

/-- Random bytes of the module's DRBG (R602). -/
def draw (s : State) (n : Nat) : List Byte × State := (fitBytes n (Config.drbg s.fresh n), { s with fresh := s.fresh + 1 })

/-- A handshake refused for a certificate or signature (R597), or an admission refused (R593). -/
def refuseHandshake (s : State) (hs : Nat) (auth admission : Bool) : State :=
  let s := if auth then s.logSec 0x0003 hs else s
  let s := if admission then s.logSec 0x0007 hs else s
  (dropHalf s hs).tellHost (.refusal hs resAUTH 0)

/-- The REPLY of the device to a HELLO that passes its checks (R595). DEDUCED (log 66). -/
def answerHello (s : State) (hs : Nat) (body : List Byte) (h : Hello) : State :=
  let eph := draw s 48
  let nonce := draw eph.2 32
  let s := nonce.2
  let sid := s.chp.nextSid
  let front := toBytes sid 8 ++ nonce.1 ++ fitBytes 96 (Config.ephemeralPublic eph.1) ++ Config.deviceCert ++ Config.caCert
  let reply := front ++ fitBytes 96 (Config.ecdsaSign (Config.deviceKey s.lodge.seed 0) (Config.sha384 (body ++ front)) s.fresh)
  let half : Half := { hs := hs, hello := body, reply := reply, sid := sid, eph := eph.1, nonce := nonce.1, hostEph := h.eph, hostKey := slice h.cert 56 96,
                       hostNonce := h.nonce, admission := if h.admission then some h.root else none }
  State.tellHost { s with fresh := s.fresh + 1, chp := { s.chp with halves := s.chp.halves ++ [half], nextSid := sid + 1 } } (.handshake hs reply)

/-- HELLO (R579, R592, R593, R595, R597). The host port answers once it has trained; a HELLO that comes again draws the same REPLY. DEDUCED (log 66). -/
def execHello (hs : Nat) (body : List Byte) (s : State) : Host.Outcome State Fault Refusal :=
  .next (if s.lodge.stage < 7 ∨ s.lodge.boardTest then s
    else if s.lodge.cryptoErr then s.tellHost (.refusal hs resAUTH 0)
    else match s.chp.halves.find? fun x => x.hs == hs with
      | some x => if x.hello = body then s.tellHost (.handshake hs x.reply) else dropHalf s hs
      | none =>
        match parseHello body with
        | none => s
        | some h =>
          if s.chp.halves.length ≥ 8 ∨ s.chp.sessions.length ≥ 4 then s.tellHost (.refusal hs resBUSY 0)
          else if !helloSigned s h then refuseHandshake s hs true h.admission
          else if h.admission && !s.mram.owner.isEmpty && !releaseNames s h then refuseHandshake s hs false true
          else answerHello s hs body h)

/-- An admission (R593): the new owner root, both partitions cleared, SEC-0x0006, and the stacks marked for zero-fill. -/
def admitOwner (s : State) (root : List Byte) : State :=
  let s := s.modMram fun m => { m with owner := root, admissions := m.admissions + 1 }
  let s := (clearLog s true true 1).logSec 0x0006 s.mram.admissions
  s.modLodge fun l => { l with zeroFill := true }

/-- The session that a FINISH opens (R596, R598); the sessions of a former owner end (R559). -/
def openSession (s : State) (x : Half) : State :=
  let former := s.chp.sessions.map Sess.sid
  let keys := fitBytes 72 (Config.hkdf (Config.ecdh x.eph x.hostEph) (x.hostNonce ++ x.nonce))
  let y : Sess := { sid := x.sid, opened := s.ticks, keys := keys }
  let s := { s with chp := { s.chp with sessions := s.chp.sessions ++ [y] } }
  let s := s.logSec 0x0004 x.sid
  let s := if x.admission.isSome then former.foldl (fun s i => endSession s i 5) s else s
  s.modLodge fun l => { l with stage := max l.stage 8 }

/-- FINISH (R593, R596, R597, R607): the session key signs the transcript of HELLO and REPLY; the ephemeral key goes with the half-open handshake. -/
def execFinish (hs : Nat) (body : List Byte) (s : State) : Host.Outcome State Fault Refusal :=
  .next (match s.chp.halves.find? fun x => x.hs == hs with
    | none => s
    | some x =>
      if !Config.ecdsaVerify x.hostKey (Config.sha384 (x.hello ++ x.reply)) body then refuseHandshake s hs true x.admission.isSome
      else if s.chp.sessions.length ≥ 4 then (dropHalf s hs).tellHost (.refusal hs resBUSY 0)
      else
        let s := dropHalf s hs
        openSession (match x.admission with | some root => admitOwner s root | none => s) x)

/-- HANDSHAKE_TIMEOUT (R597, R607). -/
def execHandshakeTimeout (hs : Nat) (s : State) : Host.Outcome State Fault Refusal := .next (dropHalf s hs)

/-- CHP_HEARTBEAT (R559, R564): the session goes on; its queued commands are served. The periods that pass without one are what SESSION_TIMEOUT tells of. -/
def execChpHeartbeat (pk : ChpPkt) (s : State) : Host.Outcome State Fault Refusal := .next (withPkt s pk serve)

/-- Why a session is at its end (R559). -/
def endCause (s : State) (x : Sess) : Nat := if s.ticks ≥ x.opened + dayTicks then 1 else if 2 ^ 32 ≤ x.got ∨ 2 ^ 32 ≤ x.sent then 6 else 3

/-- SESSION_TIMEOUT (R559, R598): the cause is 1 where 24 hours have passed, 6 after 2³² packets in a direction, otherwise 3 for the heartbeats of the session. -/
def execSessionTimeout (sid : Nat) (s : State) : Host.Outcome State Fault Refusal :=
  .next (match s.chp.sessions.find? fun x => x.sid == sid with
    | none => s
    | some x => endSession s sid (endCause s x))

/-! ### Bulk data (R565) -/

/-- The pieces of a stream received beyond its contiguous part are joined to it as far as they reach. -/
def joinParts (contig : Nat) (parts : List (Nat × Nat)) : Nat → Nat × List (Nat × Nat)
  | 0 => (contig, parts)
  | n + 1 =>
    match takeFirst (fun (p : Nat × Nat) => decide (p.1 ≤ contig)) parts with
    | none => (contig, parts)
    | some (p, rest) => joinParts (max contig (p.1 + p.2)) rest n

/-- The pages that a range of HBM touches, each once: stack and page. -/
def pagesOf (s : State) (a n : Nat) : List (Nat × Nat) :=
  ((pieces4k a n).map fun (p, _) => ((hbmPlace s p).1, pageOf (blockKey s p))).eraseDups

/-- Every protected page of a range passes into staging (R355); none where the staging buffers have no room. -/
def stageRange (s : State) : List (Nat × Nat) → Option State
  | [] => some s
  | p :: rest => let r := stageFor s p.1 p.2; if r.1 then stageRange r.2 rest else none

/-- Data of a bulk stream (R347, R355, R565): within the stream's range and the credit; the MC writes the checksums. What it cannot take the host sends again. -/
def takeBulk (n off : Nat) (data : List Byte) (s : State) : State :=
  match s.chp.streams.find? fun x => x.n == n with
    | none => s
    | some x =>
      let hi := off + data.length
      if x.dir ≠ 0 ∨ data.length = 0 ∨ 4096 < data.length ∨ x.len < hi ∨ x.credit * creditUnit < hi then s
      else if (pieces4k (x.addr + off) data.length).any fun p => blockHeld s p.1 then s
      else match stageRange s (pagesOf s (x.addr + off) data.length) with
        | none => s
        | some s =>
          let s := hbmPut s (x.addr + off) data
          let j := joinParts x.contig (x.parts ++ [(off, data.length)]) (x.parts.length + 1)
          let x' : Stream := { x with contig := j.1, parts := j.2 }
          State.tellHost { s with chp := { s.chp with streams := s.chp.streams.map fun y => if y.n = n then x' else y } } (.credit n x.credit j.1)

/-- BULK_DATA of the control session (R565). -/
def execBulkData (pk : ChpPkt) (n off : Nat) (data : List Byte) (s : State) : Host.Outcome State Fault Refusal :=
  .next (withPkt s pk fun s => if s.chp.control = some pk.sid then takeBulk n off data s else s)

/-- The blocks of an egress stream that its credit lets leave, each with its metadata; a block that the MC has still to verify, and those behind it, wait for the next
credit (R565). -/
def sendEgress (s : State) (x : Stream) : State :=
  let ps := (pieces4k (x.addr + x.contig) (min x.len (x.credit * creditUnit) - x.contig)).takeWhile fun p => !blockHeld s p.1
  let top := x.contig + (ps.map (·.2)).sum
  let s := ps.foldl (fun s (p, n) =>
    let f := blockForm s p
    let blk : Option BlockMeta := if n = 4096 then some ⟨blockCrc f.1 f.2 (hbmBytes s p 4096), f.1, f.2⟩ else none
    s.tellHost (.bulk x.n (p - x.addr) blk (hbmBytes s p n))) s
  { s with chp := { s.chp with streams := s.chp.streams.map fun y => if y.n = x.n then { x with contig := max x.contig top } else y } }

/-- Cumulative credit of the host on egress (R565). -/
def takeCredit (n units : Nat) (s : State) : State :=
  match s.chp.streams.find? fun x => x.n == n with
    | none => s
    | some x => if x.dir ≠ 1 then s else sendEgress s { x with credit := max x.credit units }

/-- BULK_CREDIT of the control session (R565). -/
def execBulkCredit (pk : ChpPkt) (n units _contig : Nat) (s : State) : Host.Outcome State Fault Refusal :=
  .next (withPkt s pk fun s => if s.chp.control = some pk.sid then takeCredit n units s else s)

/-! ### Time (R566, R567) -/

/-- PTP_MESSAGE: the offset of a master of the device's domain, in nanoseconds. Below 1 ms UTC is slewed; otherwise it steps, with OP-0x0A40. DESIGN CHOICE (log 68). -/
def execPtpMessage (master dom : Nat) (offset : Int) (s : State) : Host.Outcome State Fault Refusal :=
  .next (if s.lodge.stage < 7 ∨ dom ≠ s.lodge.domain ∨ (s.lodge.master ≠ none ∧ s.lodge.master ≠ some master) then s
    else
      let s := s.modLodge fun l => { l with master := some master, unsync := false }
      if offset.natAbs < 1_000_000 then s.modLodge fun l => { l with slew := offset * 1000 }
      else
        let s := { s with utcPs := ((s.utcPs : Int) + offset * 1000).toNat }
        (s.modLodge fun l => { l with slew := 0 }).submit { code := 0x0A40, src := 0, kind := 1, min := wrap offset 64, max := wrap offset 64, detail := master })

/-- PTP_MASTER_TIMEOUT. DESIGN CHOICE (log 68). -/
def execPtpMasterTimeout (s : State) : Host.Outcome State Fault Refusal :=
  .next (s.modLodge fun l => { l with master := none, unsync := true, slew := 0 })

/-- The correction that one tick of 40 ns may make at 100 ppm, in picoseconds. DESIGN CHOICE (log 3). -/
abbrev slewStep : Int := 4

/-- A tick of the lodge's 25 MHz reference: its count, and UTC with what is still to be slewed. It stands still without power, in package reset, and while
`REFCLK_AON` is absent. DESIGN CHOICE (log 3). -/
def tick (s : State) : State :=
  if s.lodge.off ∨ s.lodge.porst ∨ !s.lodge.refclk then s
  else
    let d := max (-slewStep) (min slewStep s.lodge.slew)
    { s.modLodge (fun l => { l with slew := l.slew - d }) with ticks := s.ticks + 1, utcPs := ((s.utcPs : Int) + 40_000 + d).toNat }

end Sys2Proof.Machine
end

