-- ==== Sys2Proof/Machine/Pins.lean ====
section
/-!
DEFINITION. PMBus (R725, R726), the crystal (R728) and the test access port (R729–R731).
-/

namespace Sys2Proof.Machine

/-! ### PMBus (R725, R726) -/

/-- The devices on the bus; those that are switched. -/
def pmbDevices : List Nat := [0x40, 0x41, 0x42, 0x48, 0x49]
def pmbSwitched (dev : Nat) : Bool := decide (0x40 ≤ dev) && decide (dev ≤ 0x42)

/-- The bus runs. -/
def pmbRuns (s : State) : Bool := !s.lodge.off && !s.lodge.porst && s.lodge.refclk

/-- A device that has answered has not failed. DESIGN CHOICE (log 71). -/
def pmbAnswers (s : State) (dev : Nat) : State :=
  let s := s.modLodge fun l => { l with pmbTries := l.pmbTries.filter (fun e => e.1 ≠ dev), pmbFailed := l.pmbFailed.filter fun d => d ≠ dev }
  if s.lodge.pmbFailed.isEmpty then clearCause s causePmb else s

/-- A status with a fault (R726): OP-0x0A14; for a rail of the stacks as a fall of `PG_VHBM`. -/
def pmbStatus (s : State) (dev status : Nat) : State :=
  if status = 0 then s
  else
    let s := s.submit { code := 0x0A14, src := 0, detail := dev + status * 2 ^ 8 }
    if pmbSwitched dev then vhbmFalls s else s

/-- A device fails (R724, R726). -/
def pmbFails (s : State) (dev : Nat) : State :=
  let s := s.modLodge fun l =>
    { l with pmbTries := l.pmbTries.filter (fun e => e.1 ≠ dev), pmbFailed := (l.pmbFailed.filter fun d => d ≠ dev) ++ [dev] }
  let s := raiseCause s causePmb dev
  if !pmbSwitched dev then s.submit { code := 0x0A14, src := 0, detail := dev }
  else if stageNow s = 9 then stageFails s 9
  else vhbmFalls s

/-- PMBUS_POLL (R725, R726): a transaction that fails is to be tried again. -/
def execPmbusPoll (dev status pout : Nat) (ok : Bool) (s : State) : Host.Outcome State Fault Refusal :=
  .next (if !pmbRuns s ∨ !pmbDevices.contains dev then s
    else if ok then pmbStatus ((pmbAnswers s dev).modLodge fun l => { l with pout := mput (fun _ => 0) l.pout dev pout }) dev status
    else s.modLodge fun l => { l with pmbTries := (l.pmbTries.filter fun e => e.1 ≠ dev) ++ [(dev, 0)] })

/-- PMB_ALERT (R725). -/
def execPmbAlert (dev status : Nat) (s : State) : Host.Outcome State Fault Refusal :=
  .next (if !pmbRuns s ∨ !pmbDevices.contains dev then s else pmbStatus (pmbAnswers s dev) dev status)

/-- PMBUS_RETRY (R726): after the third retry the device counts as failed. -/
def execPmbusRetry (dev : Nat) (ok : Bool) (s : State) : Host.Outcome State Fault Refusal :=
  .next (match s.lodge.pmbTries.find? fun e => e.1 == dev with
    | none => s
    | some e =>
      if ok then pmbAnswers s dev
      else if e.2 ≥ 2 then pmbFails s dev
      else s.modLodge fun l => { l with pmbTries := l.pmbTries.map fun x => if x.1 = dev then (dev, x.2 + 1) else x })

/-- CRYSTAL_TIMEOUT (R728): OP-0x0A41. -/
def execCrystalTimeout (s : State) : Host.Outcome State Fault Refusal :=
  .next (if s.lodge.off ∨ s.lodge.porst ∨ s.lodge.rtcDerived then s
    else (s.modLodge fun l => { l with rtcDerived := true }).submit { code := 0x0A41, src := 0 })

/-! ### The test access port (R729–R731) -/

/-- The TAP works in board-test mode only, once the lodge has handed it the chain (R730). DESIGN CHOICE (log 71). -/
def tapRuns (s : State) : Bool := s.lodge.boardTest && !s.lodge.porst && !s.lodge.off

/-- An instruction of the TAP: its code, the data register as it is captured, and how the lands are driven. DESIGN CHOICE (log 71). -/
def tapSelect (s : State) (ir dr drive : Nat) (boundary : Option Nat) : State :=
  if tapRuns s then { s with tap := { ir := ir, dr := dr, drive := drive, boundary := boundary.getD s.tap.boundary } } else s

/-- What the boundary register captures from the lands. DESIGN CHOICE (log 71). -/
def captured (s : State) : Nat × State := s.freeNat

/-- The identity register (R729). DESIGN CHOICE (log 71). -/
def idcodeValue : Nat := 1 * 2 ^ 28 + 0xC2A8 * 2 ^ 12 + Config.jep106 % 2048 * 2 + 1

/-- EXTEST: the lands are driven with the boundary values and sampled. -/
def execExtest (v : Nat) (s : State) : Host.Outcome State Fault Refusal := .next (let c := captured s; tapSelect c.2 0x00 c.1 1 (some v))

/-- IDCODE. -/
def execIdcode (s : State) : Host.Outcome State Fault Refusal := .next (tapSelect s 0x01 idcodeValue 0 none)

/-- SAMPLE/PRELOAD: the lands are sampled, and the boundary values loaded; the part drives its lands. -/
def execSamplePreload (v : Nat) (s : State) : Host.Outcome State Fault Refusal := .next (let c := captured s; tapSelect c.2 0x02 c.1 0 (some v))

/-- CLAMP: the lands hold the boundary values; the bypass register is selected, which captures 0. -/
def execClamp (s : State) : Host.Outcome State Fault Refusal := .next (tapSelect s 0x04 0 1 none)

/-- HIGHZ: no land is driven; the bypass register is selected. -/
def execHighz (s : State) : Host.Outcome State Fault Refusal := .next (tapSelect s 0x05 0 2 none)

/-- EXTEST_PULSE. -/
def execExtestPulse (v : Nat) (s : State) : Host.Outcome State Fault Refusal := .next (let c := captured s; tapSelect c.2 0x06 c.1 3 (some v))

/-- EXTEST_TRAIN. -/
def execExtestTrain (v : Nat) (s : State) : Host.Outcome State Fault Refusal := .next (let c := captured s; tapSelect c.2 0x07 c.1 4 (some v))

/-- ALERTCAUSE (R731): the alert cause word; no land is driven by it. -/
def execAlertcause (s : State) : Host.Outcome State Fault Refusal := .next (tapSelect s 0xA1 (causeWord s) 0 none)

/-- BYPASS. -/
def execBypass (s : State) : Host.Outcome State Fault Refusal := .next (tapSelect s 0xFF 0 0 none)

end Sys2Proof.Machine
end

