-- ==== Sys2Proof/Machine/Seq.lean ====
section
/-!
DEFINITION. The sequencer's fetch (R48, R619) and the dispatch of an engine queue's head (R50–R56, R620).
-/

namespace Sys2Proof.Machine

/-- The eight instructions of the row that holds instruction index `i` of a context's program area, by index. DEDUCED (log 73). -/
def fetchRow (s : State) (t c i : Nat) : List (Nat × Word) :=
  (List.range 8).filterMap fun k =>
    let j := i / 8 * 8 + k
    (progOffset s t c j).map fun o => (j, BitVec.ofNat 64 (ofBytes (s.rd (spadAddr t o) 8)))

/-- SEQUENCER_FETCH (R48, R105, R106): the row of the next instruction enters the fetch buffer, which holds two rows. A next instruction beyond
the area, or a word that encodes no instruction, raises ILLEGAL, and nothing issues (R619). DEDUCED (log 73). -/
def execSequencerFetch (t : Nat) (par : Parity) (s : State) : Host.Outcome State Fault Refusal :=
  .next (if !canIssue s t then s
    else
      let c := s.actx t
      let i := ((s.tile t).ctx c).idx
      match progOffset s t c i with
      | none => settle (progFault s t fILLEGAL ((progOffset s t c ((s.tile t).ctx c).last).getD 0) 0) t
      | some pc =>
        if !groupsOk s t c pc 8 then settle (progFault s t fACCESS pc (spadAddr t pc)) t
        else
        let s := parityEffect s t pc par
        match par with
        | .unrecovered _ => s
        | _ =>
          let row := fetchRow s t c i
          let s := s.modTile t fun x => { x with fbuf := (x.fbuf.filter fun e => e.1 / 8 ≠ i / 8).drop (x.fbuf.length - 8) ++ row }
          match ((row.find? fun e => e.1 == i).bind fun e => decodeInstr t e.2) with
          | some _ => s
          | none => settle (progFault s t fILLEGAL pc 0) t)

/-- What an instruction of a queue does when it dispatches. The instructions that the sequencer executes itself, and the commands that
are no instructions, stand in no queue. DESIGN CHOICE (log 11). -/
def effOf (i : Instr) : Queued → State → State :=
  match i with
  | .salu t f => effSalu t f
  | .salui t f => effSalui t f
  | .smul t f => effSmul t f
  | .sld t f => effSld t f
  | .sst t f => effSst t f
  | .aop t f => effAop t f
  | .scmp t f => effScmp t f
  | .csig t f => effCsig t f
  | .crd t f => effCrd t f
  | .send t f => effSend t f
  | .recv t f => effRecv t f false
  | .tryrecv t f => effRecv t f true
  | .qrel t f => effQrel t f
  | .bopen t f => effBopen t f
  | .wopen t f => effWopen t f
  | .wclose t f => effWclose t f
  | .soak t f => effSoak t f
  | .dmal t f => effDma 0 t f
  | .dmas t f => effDma 1 t f
  | .dmar t f => effDma 2 t f
  | .dmaw t f => effDma 3 t f
  | .dmaf t f => effDma 5 t f
  | .dmam t f => effDmam t f
  | .dmax t f => effDmax t f
  | .vld t f => effVld t f
  | .vst t f => effVst t f
  | .vldx t f => effVldx t f
  | .vstx t f => effVstx t f
  | .vop t f => effVop t f
  | .vcmp t f => effVcmp t f
  | .vred t f => effVred t f
  | .vcvt t f => effVcvt t f
  | .vmovx t f => effVmovx t f
  | .amax t f => effAmax t f
  | .cone t f => effCone t f
  | .mgang t f => effMgang t f
  | .mpanel t f => effMpanel t f
  | .mmul t f => effMmul t f false
  | .mpred t f => effMmul t f true
  | .mdrain t f => effMdrain t f
  | .ssort t f => effSet .sort t f
  | .smerge t f => effSet .merge t f
  | .sinter t f => effSet .inter t f
  | .shash t f => effSet .hash t f
  | .sgather t f => effSet .gather t f
  | .sscatter t f => effSet .scatter t f
  | _ => fun _ s => s

/-- The next head of an engine's queue, once its predecessor has left. -/
def nextHead (s : State) (t : Nat) (e : Engine) : State :=
  match (s.tile t).queue.find? fun q => q.eng == e with
  | some q => atHead s t e q.ctx q.instr
  | none => s

/-- The offset that a parity error records for an instruction that dispatches (R84): its own, but `TSTAT.PC` for a scalar load, whose read is a gather-buffer
fill. -/
def readPc (s : State) (t : Nat) (q : Queued) : Nat := match q.instr with | .sld .. => pcOff s t | _ => q.pc

/-- ENGINE_DISPATCH: the head of the engine's queue leaves it and takes effect once nothing keeps it; an unrecovered parity error on what
it reads is a hardware fault instead. -/
def execEngineDispatch (t : Nat) (e : Engine) (par : Parity) (s : State) : Host.Outcome State Fault Refusal :=
  .next (if s.tstate t = fenced ∨ s.tf t R.TSTAT_HALTED = 1 then s
    else match (s.tile t).queue.find? fun q => q.eng == e with
      | none => s
      | some q =>
        if !canDispatch s t q then s
        else
          let s := s.modTile t fun x => { x with queue := x.queue.filter fun p => p.id ≠ q.id }
          let s := parityEffect s t (readPc s t q) par
          match par with
          | .unrecovered _ => s
          | _ => settle (nextHead (effOf q.instr q (clockLanes s t e)) t e) t)

end Sys2Proof.Machine
end

