-- ==== Sys2Proof/Machine/Dispatch.lean ====
section
/-!
DEFINITION. The dispatcher: one arm for each command of `Instr`, each one direct call of the command's meaning.
-/

namespace Sys2Proof.Machine

/-- What a command does to everything but the queue of pending commands. -/
def exec (i : Instr) (s : State) : Host.Outcome State Fault Refusal :=
  match i with
  | .sequencerFetch t par => Sys2Proof.Machine.execSequencerFetch t par s
  | .engineDispatch t e par => Sys2Proof.Machine.execEngineDispatch t e par s
  | .nop t f => Sys2Proof.Machine.execNop t f s
  | .salu t f => Sys2Proof.Machine.execSalu t f s
  | .salui t f => Sys2Proof.Machine.execSalui t f s
  | .smul t f => Sys2Proof.Machine.execSmul t f s
  | .sld t f => Sys2Proof.Machine.execSld t f s
  | .sst t f => Sys2Proof.Machine.execSst t f s
  | .aop t f => Sys2Proof.Machine.execAop t f s
  | .scmp t f => Sys2Proof.Machine.execScmp t f s
  | .br t f => Sys2Proof.Machine.execBr t f s
  | .brr t f => Sys2Proof.Machine.execBrr t f s
  | .loop t f => Sys2Proof.Machine.execLoop t f s
  | .csig t f => Sys2Proof.Machine.execCsig t f s
  | .cwait t f => Sys2Proof.Machine.execCwait t f s
  | .crd t f => Sys2Proof.Machine.execCrd t f s
  | .barr t f => Sys2Proof.Machine.execBarr t f s
  | .bwait t f => Sys2Proof.Machine.execBwait t f s
  | .send t f => Sys2Proof.Machine.execSend t f s
  | .sendInject t => Sys2Proof.Machine.execSendInject t s
  | .recv t f => Sys2Proof.Machine.execRecv t f s
  | .recvUnblock t => Sys2Proof.Machine.execRecvUnblock t s
  | .tryrecv t f => Sys2Proof.Machine.execTryrecv t f s
  | .qrel t f => Sys2Proof.Machine.execQrel t f s
  | .bopen t f => Sys2Proof.Machine.execBopen t f s
  | .wopen t f => Sys2Proof.Machine.execWopen t f s
  | .wclose t f => Sys2Proof.Machine.execWclose t f s
  | .ctx t f => Sys2Proof.Machine.execCtx t f s
  | .fence t f => Sys2Proof.Machine.execFence t f s
  | .soak t f => Sys2Proof.Machine.execSoak t f s
  | .trap t f => Sys2Proof.Machine.execTrap t f s
  | .halt t f => Sys2Proof.Machine.execHalt t f s
  | .dmal t f => Sys2Proof.Machine.execDmal t f s
  | .dmas t f => Sys2Proof.Machine.execDmas t f s
  | .dmar t f => Sys2Proof.Machine.execDmar t f s
  | .dmaw t f => Sys2Proof.Machine.execDmaw t f s
  | .dmax t f => Sys2Proof.Machine.execDmax t f s
  | .dmaxEntry t => Sys2Proof.Machine.execDmaxEntry t s
  | .dmaf t f => Sys2Proof.Machine.execDmaf t f s
  | .dmam t f => Sys2Proof.Machine.execDmam t f s
  | .dmaComplete t id => Sys2Proof.Machine.execDmaComplete t id s
  | .vld t f => Sys2Proof.Machine.execVld t f s
  | .vst t f => Sys2Proof.Machine.execVst t f s
  | .vldx t f => Sys2Proof.Machine.execVldx t f s
  | .vstx t f => Sys2Proof.Machine.execVstx t f s
  | .vop t f => Sys2Proof.Machine.execVop t f s
  | .vcmp t f => Sys2Proof.Machine.execVcmp t f s
  | .vred t f => Sys2Proof.Machine.execVred t f s
  | .vcvt t f => Sys2Proof.Machine.execVcvt t f s
  | .vmovx t f => Sys2Proof.Machine.execVmovx t f s
  | .amax t f => Sys2Proof.Machine.execAmax t f s
  | .cone t f => Sys2Proof.Machine.execCone t f s
  | .mgang t f => Sys2Proof.Machine.execMgang t f s
  | .mpanel t f => Sys2Proof.Machine.execMpanel t f s
  | .mpanelLoaded t => Sys2Proof.Machine.execMpanelLoaded t s
  | .mmul t f => Sys2Proof.Machine.execMmul t f s
  | .mmulComplete t sub => Sys2Proof.Machine.execMmulComplete t sub s
  | .mpred t f => Sys2Proof.Machine.execMpred t f s
  | .mpredFinalMark t sub => Sys2Proof.Machine.execMpredFinalMark t sub s
  | .mdrain t f => Sys2Proof.Machine.execMdrain t f s
  | .mdrainComplete t => Sys2Proof.Machine.execMdrainComplete t s
  | .gateDeadlineExpiry t => Sys2Proof.Machine.execGateDeadlineExpiry t s
  | .batchComplete t => Sys2Proof.Machine.execBatchComplete t s
  | .ssort t f => Sys2Proof.Machine.execSsort t f s
  | .smerge t f => Sys2Proof.Machine.execSmerge t f s
  | .sinter t f => Sys2Proof.Machine.execSinter t f s
  | .shash t f => Sys2Proof.Machine.execShash t f s
  | .sgather t f => Sys2Proof.Machine.execSgather t f s
  | .sscatter t f => Sys2Proof.Machine.execSscatter t f s
  | .setOpComplete t => Sys2Proof.Machine.execSetOpComplete t s
  | .engineCheckFail t e => Sys2Proof.Machine.execEngineCheckFail t e s
  | .wakeComplete t => Sys2Proof.Machine.execWakeComplete t s
  | .soakHoldEnd t => Sys2Proof.Machine.execSoakHoldEnd t s
  | .rampDownStep t => Sys2Proof.Machine.execRampDownStep t s
  | .rampDownEnd t => Sys2Proof.Machine.execRampDownEnd t s
  | .rampUpStep t => Sys2Proof.Machine.execRampUpStep t s
  | .governorGrant t => Sys2Proof.Machine.execGovernorGrant t s
  | .watchdogExpiry t => Sys2Proof.Machine.execWatchdogExpiry t s
  | .holdTakesEffect t => Sys2Proof.Machine.execHoldTakesEffect t s
  | .stalledSignalApply t => Sys2Proof.Machine.execStalledSignalApply t s
  | .stalledSignalFault t => Sys2Proof.Machine.execStalledSignalFault t s
  | .gatherBufferIdleDrain t => Sys2Proof.Machine.execGatherBufferIdleDrain t s
  | .remoteWritePacket t pkt => Sys2Proof.Machine.execRemoteWritePacket t pkt s
  | .heldPacketRecheck t => Sys2Proof.Machine.execHeldPacketRecheck t s
  | .wicketCloseComplete t => Sys2Proof.Machine.execWicketCloseComplete t s
  | .remoteReadRequest t rq par => Sys2Proof.Machine.execRemoteReadRequest t rq par s
  | .mergeWindowExpiry t row => Sys2Proof.Machine.execMergeWindowExpiry t row s
  | .remoteReadResponse t tag status data => Sys2Proof.Machine.execRemoteReadResponse t tag status data s
  | .transferAnswer t tag status => Sys2Proof.Machine.execTransferAnswer t tag status s
  | .bankGroupPowered t g => Sys2Proof.Machine.execBankGroupPowered t g s
  | .bankGroupZeroFillEnd t g => Sys2Proof.Machine.execBankGroupZeroFillEnd t g s
  | .taskEnd t c => Sys2Proof.Machine.execTaskEnd t c s
  | .descriptorArrival t m => Sys2Proof.Machine.execDescriptorArrival t m s
  | .creditReturnTimer t q => Sys2Proof.Machine.execCreditReturnTimer t q s
  | .creditReturn t ch slots units => Sys2Proof.Machine.execCreditReturn t ch slots units s
  | .basinContribution t m => Sys2Proof.Machine.execBasinContribution t m s
  | .basinZeroComplete t q b => Sys2Proof.Machine.execBasinZeroComplete t q b s
  | .basinBucketComplete t q b => Sys2Proof.Machine.execBasinBucketComplete t q b s
  | .barrierArrivalSend t => Sys2Proof.Machine.execBarrierArrivalSend t s
  | .dieBarrierArrival die g gen => Sys2Proof.Machine.execDieBarrierArrival die g gen s
  | .packageBarrierArrival die g gen => Sys2Proof.Machine.execPackageBarrierArrival die g gen s
  | .barrierRelease t c g gen => Sys2Proof.Machine.execBarrierRelease t c g gen s
  | .packetHop die row col pkt => Sys2Proof.Machine.execPacketHop die row col pkt s
  | .cplFrameReceive die link fr => Sys2Proof.Machine.execCplFrameReceive die link fr s
  | .cplNak die link ack => Sys2Proof.Machine.execCplNak die link ack s
  | .cplAckTimeout die link => Sys2Proof.Machine.execCplAckTimeout die link s
  | .cplControlTimer die link => Sys2Proof.Machine.execCplControlTimer die link s
  | .ucieRetrain die link => Sys2Proof.Machine.execUcieRetrain die link s
  | .ucieRetrainTimeout die link => Sys2Proof.Machine.execUcieRetrainTimeout die link s
  | .linkTrainingTimeout die link => Sys2Proof.Machine.execLinkTrainingTimeout die link s
  | .capabilityRecord die link rec => Sys2Proof.Machine.execCapabilityRecord die link rec s
  | .capabilityTimeout die link => Sys2Proof.Machine.execCapabilityTimeout die link s
  | .dieLinkDown die link => Sys2Proof.Machine.execDieLinkDown die link s
  | .routerFault die row col => Sys2Proof.Machine.execRouterFault die row col s
  | .routeSetSwitch die => Sys2Proof.Machine.execRouteSetSwitch die s
  | .hbmReadRequest q oc => Sys2Proof.Machine.execHbmReadRequest q oc s
  | .hbmWriteRequest q => Sys2Proof.Machine.execHbmWriteRequest q s
  | .twinBlockReturn stack addr data => Sys2Proof.Machine.execTwinBlockReturn stack addr data s
  | .pageRetirementComplete stack => Sys2Proof.Machine.execPageRetirementComplete stack s
  | .protectedPageStaged stack => Sys2Proof.Machine.execProtectedPageStaged stack s
  | .stackTemperaturePoll stack temp => Sys2Proof.Machine.execStackTemperaturePoll stack temp s
  | .stackLost stack => Sys2Proof.Machine.execStackLost stack s
  | .stackZeroFillComplete stack => Sys2Proof.Machine.execStackZeroFillComplete stack s
  | .uugateWrite stack v => Sys2Proof.Machine.execUugateWrite stack v s
  | .uuCommitEnd stack => Sys2Proof.Machine.execUuCommitEnd stack s
  | .uuStop stack => Sys2Proof.Machine.execUuStop stack s
  | .cxtWrite p => Sys2Proof.Machine.execCxtWrite p s
  | .cxtJwrite p => Sys2Proof.Machine.execCxtJwrite p s
  | .cxtSend p => Sys2Proof.Machine.execCxtSend p s
  | .cxtRead p => Sys2Proof.Machine.execCxtRead p s
  | .cxtRdata p => Sys2Proof.Machine.execCxtRdata p s
  | .cxtBarrier p => Sys2Proof.Machine.execCxtBarrier p s
  | .cxtAck p => Sys2Proof.Machine.execCxtAck p s
  | .cxtGrant p => Sys2Proof.Machine.execCxtGrant p s
  | .cxtHeartbeat p => Sys2Proof.Machine.execCxtHeartbeat p s
  | .aliasUpdate p => Sys2Proof.Machine.execAliasUpdate p s
  | .queueEpochNotice p => Sys2Proof.Machine.execQueueEpochNotice p s
  | .portNotice p => Sys2Proof.Machine.execPortNotice p s
  | .failureNotice p => Sys2Proof.Machine.execFailureNotice p s
  | .replacedNotice p => Sys2Proof.Machine.execReplacedNotice p s
  | .abort p => Sys2Proof.Machine.execAbort p s
  | .abortReport p => Sys2Proof.Machine.execAbortReport p s
  | .releaseRecord p => Sys2Proof.Machine.execReleaseRecord p s
  | .layoutEpoch p => Sys2Proof.Machine.execLayoutEpoch p s
  | .ctrlCreditReturn p => Sys2Proof.Machine.execCtrlCreditReturn p s
  | .deviceCertificate p => Sys2Proof.Machine.execDeviceCertificate p s
  | .cxtRetransmitTimeout port peer path => Sys2Proof.Machine.execCxtRetransmitTimeout port peer path s
  | .portLinkDown port => Sys2Proof.Machine.execPortLinkDown port s
  | .portRetrain port ok => Sys2Proof.Machine.execPortRetrain port ok s
  | .normGroupComplete g => Sys2Proof.Machine.execNormGroupComplete g s
  | .reshardApply => Sys2Proof.Machine.execReshardApply s
  | .heartbeatPeriod => Sys2Proof.Machine.execHeartbeatPeriod s
  | .probeTimeout => Sys2Proof.Machine.execProbeTimeout s
  | .copierPageSend stack => Sys2Proof.Machine.execCopierPageSend stack s
  | .generationComplete stack => Sys2Proof.Machine.execGenerationComplete stack s
  | .tileHoldTimeout t => Sys2Proof.Machine.execTileHoldTimeout t s
  | .spareAnswerTimeout => Sys2Proof.Machine.execSpareAnswerTimeout s
  | .statePullComplete ok => Sys2Proof.Machine.execStatePullComplete ok s
  | .journalReplay => Sys2Proof.Machine.execJournalReplay s
  | .restart => Sys2Proof.Machine.execRestart s
  | .hostLost => Sys2Proof.Machine.execHostLost s
  | .vaonInRange => Sys2Proof.Machine.execVaonInRange s
  | .porstNRelease trst refclk => Sys2Proof.Machine.execPorstNRelease trst refclk s
  | .porstNAssert => Sys2Proof.Machine.execPorstNAssert s
  | .lodgeFirmwareVerify => Sys2Proof.Machine.execLodgeFirmwareVerify s
  | .pvXPowerOn => Sys2Proof.Machine.execPvXPowerOn s
  | .gatehouseBoot => Sys2Proof.Machine.execGatehouseBoot s
  | .hdPowerUp => Sys2Proof.Machine.execHdPowerUp s
  | .hostPortTrained => Sys2Proof.Machine.execHostPortTrained s
  | .bootStageFail => Sys2Proof.Machine.execBootStageFail s
  | .leaseRenewRequest gh => Sys2Proof.Machine.execLeaseRenewRequest gh s
  | .leaseRequest gh => Sys2Proof.Machine.execLeaseRequest gh s
  | .leaseRelease => Sys2Proof.Machine.execLeaseRelease s
  | .leaseTermExpiry => Sys2Proof.Machine.execLeaseTermExpiry s
  | .holderRenewalLapse => Sys2Proof.Machine.execHolderRenewalLapse s
  | .lodgeKeepalive => Sys2Proof.Machine.execLodgeKeepalive s
  | .keepaliveMissed die => Sys2Proof.Machine.execKeepaliveMissed die s
  | .arbiterFault => Sys2Proof.Machine.execArbiterFault s
  | .gatehouseFailstop gh => Sys2Proof.Machine.execGatehouseFailstop gh s
  | .commandWrite gh epoch addr value => Sys2Proof.Machine.execCommandWrite gh epoch addr value s
  | .commandMaskedWrite gh epoch addr value mask => Sys2Proof.Machine.execCommandMaskedWrite gh epoch addr value mask s
  | .commandCopy gh epoch src dst len => Sys2Proof.Machine.execCommandCopy gh epoch src dst len s
  | .staleCommand gh => Sys2Proof.Machine.execStaleCommand gh s
  | .dresetGo die => Sys2Proof.Machine.execDresetGo die s
  | .dieReset die => Sys2Proof.Machine.execDieReset die s
  | .tctlStart t => Sys2Proof.Machine.execTctlStart t s
  | .tctlHold t on => Sys2Proof.Machine.execTctlHold t on s
  | .tctlFence t => Sys2Proof.Machine.execTctlFence t s
  | .tctlReset t => Sys2Proof.Machine.execTctlReset t s
  | .nsclrSlot t mask => Sys2Proof.Machine.execNsclrSlot t mask s
  | .nsclrCone t => Sys2Proof.Machine.execNsclrCone t s
  | .rsctlArm die => Sys2Proof.Machine.execRsctlArm die s
  | .dleaseHeldClear die => Sys2Proof.Machine.execDleaseHeldClear die s
  | .conetagWrite t v => Sys2Proof.Machine.execConetagWrite t v s
  | .twcopyEnWrite stack en => Sys2Proof.Machine.execTwcopyEnWrite stack en s
  | .cxepochAliasWrite ld v => Sys2Proof.Machine.execCxepochAliasWrite ld v s
  | .cxcfgEnWrite ld v => Sys2Proof.Machine.execCxcfgEnWrite ld v s
  | .registerWrite addr v => Sys2Proof.Machine.execRegisterWrite addr v s
  | .powerGoodVincFall g => Sys2Proof.Machine.execPowerGoodVincFall g s
  | .powerGoodVinxFall => Sys2Proof.Machine.execPowerGoodVinxFall s
  | .pgVhbmFall => Sys2Proof.Machine.execPgVhbmFall s
  | .powerGoodTimeout => Sys2Proof.Machine.execPowerGoodTimeout s
  | .functionStartingEnd fn => Sys2Proof.Machine.execFunctionStartingEnd fn s
  | .functionStoppingEnd fn => Sys2Proof.Machine.execFunctionStoppingEnd fn s
  | .functionStartFail fn => Sys2Proof.Machine.execFunctionStartFail fn s
  | .damperPeriod die => Sys2Proof.Machine.execDamperPeriod die s
  | .packageDamperPeriod => Sys2Proof.Machine.execPackageDamperPeriod s
  | .packagePowerSample watts => Sys2Proof.Machine.execPackagePowerSample watts s
  | .tileLend t => Sys2Proof.Machine.execTileLend t s
  | .thermalRead temps => Sys2Proof.Machine.execThermalRead temps s
  | .thermalHold die => Sys2Proof.Machine.execThermalHold die s
  | .imageCopyLoad => Sys2Proof.Machine.execImageCopyLoad s
  | .claim pk tag => Sys2Proof.Machine.execClaim pk tag s
  | .power pk tag target => Sys2Proof.Machine.execPower pk tag target s
  | .imageLoad pk tag addr len => Sys2Proof.Machine.execImageLoad pk tag addr len s
  | .start pk tag => Sys2Proof.Machine.execStart pk tag s
  | .hold pk tag => Sys2Proof.Machine.execHold pk tag s
  | .resume pk tag => Sys2Proof.Machine.execResume pk tag s
  | .stateReadRegisters pk tag addr count => Sys2Proof.Machine.execStateReadRegisters pk tag addr count s
  | .stateReadLodgeStatus pk tag => Sys2Proof.Machine.execStateReadLodgeStatus pk tag s
  | .logRead pk tag part from_ count => Sys2Proof.Machine.execLogRead pk tag part from_ count s
  | .logClear pk tag auth => Sys2Proof.Machine.execLogClear pk tag auth s
  | .fwUpdate pk tag addr len => Sys2Proof.Machine.execFwUpdate pk tag addr len s
  | .attest pk tag nonce => Sys2Proof.Machine.execAttest pk tag nonce s
  | .aliasTable pk tag addr first count => Sys2Proof.Machine.execAliasTable pk tag addr first count s
  | .aliasOwnNumbers pk tag dev station => Sys2Proof.Machine.execAliasOwnNumbers pk tag dev station s
  | .aliasPair pk tag partner spare0 spare1 pairEn hbEn cert => Sys2Proof.Machine.execAliasPair pk tag partner spare0 spare1 pairEn hbEn cert s
  | .dataReady pk tag st => Sys2Proof.Machine.execDataReady pk tag st s
  | .predEn pk tag slot en => Sys2Proof.Machine.execPredEn pk tag slot en s
  | .checkpoint pk tag => Sys2Proof.Machine.execCheckpoint pk tag s
  | .reshard pk tag addr len layout => Sys2Proof.Machine.execReshard pk tag addr len layout s
  | .streamOpen pk tag dir addr len => Sys2Proof.Machine.execStreamOpen pk tag dir addr len s
  | .streamClose pk tag n => Sys2Proof.Machine.execStreamClose pk tag n s
  | .takeoverCommand pk tag dev => Sys2Proof.Machine.execTakeoverCommand pk tag dev s
  | .configRead pk tag => Sys2Proof.Machine.execConfigRead pk tag s
  | .configSetPtpDomain pk tag dom => Sys2Proof.Machine.execConfigSetPtpDomain pk tag dom s
  | .close pk tag => Sys2Proof.Machine.execClose pk tag s
  | .hello hs body => Sys2Proof.Machine.execHello hs body s
  | .finish hs body => Sys2Proof.Machine.execFinish hs body s
  | .handshakeTimeout hs => Sys2Proof.Machine.execHandshakeTimeout hs s
  | .chpHeartbeat pk => Sys2Proof.Machine.execChpHeartbeat pk s
  | .sessionTimeout sid => Sys2Proof.Machine.execSessionTimeout sid s
  | .bulkData pk stream off data => Sys2Proof.Machine.execBulkData pk stream off data s
  | .bulkCredit pk stream units contig => Sys2Proof.Machine.execBulkCredit pk stream units contig s
  | .ptpMessage master domain offset => Sys2Proof.Machine.execPtpMessage master domain offset s
  | .ptpMasterTimeout => Sys2Proof.Machine.execPtpMasterTimeout s
  | .logSubmission => Sys2Proof.Machine.execLogSubmission s
  | .logWindowExpiry code => Sys2Proof.Machine.execLogWindowExpiry code s
  | .attestTokenRefill => Sys2Proof.Machine.execAttestTokenRefill s
  | .selfTestFail test => Sys2Proof.Machine.execSelfTestFail test s
  | .pmbusPoll dev status pout ok => Sys2Proof.Machine.execPmbusPoll dev status pout ok s
  | .pmbAlert dev status => Sys2Proof.Machine.execPmbAlert dev status s
  | .pmbusRetry dev ok => Sys2Proof.Machine.execPmbusRetry dev ok s
  | .crystalTimeout => Sys2Proof.Machine.execCrystalTimeout s
  | .extest v => Sys2Proof.Machine.execExtest v s
  | .idcode => Sys2Proof.Machine.execIdcode s
  | .samplePreload v => Sys2Proof.Machine.execSamplePreload v s
  | .clamp => Sys2Proof.Machine.execClamp s
  | .highz => Sys2Proof.Machine.execHighz s
  | .extestPulse v => Sys2Proof.Machine.execExtestPulse v s
  | .extestTrain v => Sys2Proof.Machine.execExtestTrain v s
  | .alertcause => Sys2Proof.Machine.execAlertcause s
  | .bypass => Sys2Proof.Machine.execBypass s
  | .vaonLost => Sys2Proof.Machine.execVaonLost s
  | .powerGoodRise inp => Sys2Proof.Machine.execPowerGoodRise inp s
  | .refclkAonArrival => Sys2Proof.Machine.execRefclkAonArrival s
  | .ucieTrainingComplete die link => Sys2Proof.Machine.execUcieTrainingComplete die link s
  | .directModeLinkReplay port progress => Sys2Proof.Machine.execDirectModeLinkReplay port progress s
  | .priorityFlowControlFrame port prio pause => Sys2Proof.Machine.execPriorityFlowControlFrame port prio pause s
  | .twinBlockRequest stack addr st => Sys2Proof.Machine.execTwinBlockRequest stack addr st s
  | .spareChosen dev twin => Sys2Proof.Machine.execSpareChosen dev twin s
  | .coneComplete t => Sys2Proof.Machine.execConeComplete t s

end Sys2Proof.Machine
end

