-- ==== Sys2Proof/Safety.lean ====
section
/-!
DEFINITION. What counts as a safe step, the invariants of the machine, and the terms that statements use of a tile of which nothing is
under way.
-/

namespace Sys2Proof.Machine

/-- A step that neither stops with a fault nor refuses its command. -/
def Completes (o : Host.Outcome State Fault Refusal) : Prop := ∃ s, o = .next s

/-- The canonical form of the sparse maps: registers, memory and tiles have strictly rising keys and no entry at its default, so that equal contents are equal
data. -/
def State.Canon (s : State) : Prop :=
  mwf resetOf none s.regs = true ∧ Memory.wf s.mem = true ∧ mwf (fun _ => ({} : Tile)) none s.tiles = true

/-- Two states that no reader can tell apart: every register, every byte of memory and every tile reads the same, and every other field is the same. In states of
canonical form it is equality. -/
def SameState (u v : State) : Prop :=
  u = { v with regs := u.regs, mem := u.mem, tiles := u.tiles } ∧ (∀ a, u.reg a = v.reg a) ∧ (∀ a, u.byte a = v.byte a) ∧ ∀ k, u.tile k = v.tile k

/-- A command that answers the next state `v`, up to `SameState`. -/
def Gives (o : Host.Outcome State Fault Refusal) (v : State) : Prop := ∃ u, o = .next u ∧ SameState u v

/-- Two states that agree in everything but the registers that satisfy `A`, and the tiles that satisfy `K`. -/
def OnlyIn (A K : Nat → Prop) (s u : State) : Prop :=
  u = { s with regs := u.regs, tiles := u.tiles } ∧ (∀ a, ¬ A a → u.reg a = s.reg a) ∧ ∀ k, ¬ K k → u.tile k = s.tile k

/-- A tile whose sequencer may issue and of which nothing is queued, in flight, held or awaited (R46, R68, R745), and whose next
instruction lies in its program area. -/
structure Quiet (s : State) (t : Nat) : Prop where
  issues : canIssue s t = true
  area : (progOffset s t (s.actx t) ((s.tile t).ctx (s.actx t)).idx).isSome = true
  queue : (s.tile t).queue = []
  flights : (s.tile t).flights = []
  gate : (s.tile t).gate = []
  stalled : (s.tile t).stalled = []
  outst : (s.tile t).outst = []

/-- The scratchpad offset of the instruction that a quiet tile issues. -/
def issuePc (s : State) (t : Nat) : Nat := (progOffset s t (s.actx t) ((s.tile t).ctx (s.actx t)).idx).getD 0

/-- A wait field is legal, and is absent or satisfied (R620). -/
def waitMet (s : State) (t : Nat) (w : BitVec 13) : Bool :=
  waitLegal w && (!bitOf w.toNat 12 ||
    satisfied (cntVal s t (s.actx t) (bits w.toNat 11 6)) ((rs s t (s.actx t) (bits w.toNat 5 0)).toNat % 2 ^ 32))

/-- A tile that has issued the instruction of an engine: index and loops of the active context go on (R632), `BOUNDARY` clears (R67), and the
issue number rises. -/
def issued (s : State) (t : Nat) : State := (advance s t).modTile t fun x => { x with nextId := x.nextId + 1 }

/-- The state in which an instruction of a quiet tile dispatches: it has issued, its empty batch gate has nothing to release, and the clock of the array or
of the lanes is called up where its engine needs it (R155, R163, R164). -/
def dispatched (s : State) (t : Nat) (e : Engine) (i : Instr) : State := clockLanes (atHead (issued s t) t e (s.actx t) i) t e

/-- What the engine's queue holds of an instruction that a quiet tile has issued. -/
def queuedOf (s : State) (t : Nat) (r : IssueReq) : Queued :=
  { id := (s.tile t).nextId, instr := r.instr, eng := r.eng, ctx := s.actx t, pc := issuePc s t, foot := r.foot,
    wait := if bitOf r.wait.toNat 12 then
        some (bits r.wait.toNat 11 6, (rs s t (s.actx t) (bits r.wait.toNat 5 0)).toNat % 2 ^ 32) else none,
    vals := r.vals.map fun n => rs s t (s.actx t) n, desc := r.desc.map fun o => readDesc s t o }

/-! ### CXT packets -/

/-- A packet as a packet of an operation. -/
def asOp (p : CxtPkt) (op : Nat) : CxtPkt := { p with hdr := { p.hdr with op := op } }

/-- A packet as a CTRL packet of a kind. -/
def asCtrl (p : CxtPkt) (kind : Nat) : CxtPkt := asOp { p with data := toBytes kind 2 ++ p.data.drop 2 } opCTRL

/-- A packet that arrives at a port that is up, without an error or a congestion mark, under the number and the generation of the device: checks 1 to 3 of
R430. -/
structure Arrives (s : State) (p : CxtPkt) : Prop where
  up : portUp s p.port = true
  enabled : s.fld .ld (p.port / 2) R.CXCFG_EN ≠ 0
  frame : p.fcsOk = true
  version : p.hdr.ver = 0x20
  unmarked : p.ce = false
  device : p.hdr.ddev = s.fld .ld (p.port / 2) R.CXCFG_DEV
  generation : p.hdr.aliasGen = s.fld .ld (p.port / 2) R.CXEPOCH_ALIAS

/-- The key of a packet's path. -/
def pathOf (p : CxtPkt) : Nat := pathKey p.hdr.sdev p.hdr.path

/-- A packet that arrives with sound metadata as the next of its path, of which nothing has come early (R427). -/
structure InTurn (s : State) (p : CxtPkt) : Prop extends Arrives s p where
  block : blockOk p = true
  turn : p.hdr.psn = (s.recvPath (pathOf p)).next
  none_early : (s.recvPath (pathOf p)).early = []

/-- The state in which the packet whose turn has come stands at the receiving end of its path. -/
def placed (s : State) (p : CxtPkt) : State := s.setRecvPath (pathOf p) { s.recvPath (pathOf p) with early := [p], ld := p.port / 2 }

/-- The state after the packet at the head of a path has had its effect, which left `v` and gave status `st`: the path goes on to the next number, its room is
given back where the operation took some, and the packet is acknowledged (R428, R749). -/
def accepted (v : State) (p : CxtPkt) (st : Nat) : State :=
  let k := pathOf p
  let r := v.recvPath k
  let w := v.setRecvPath k { r with next := (r.next + 1) % 2 ^ 32, early := r.early.filter (fun q => q.hdr.psn != p.hdr.psn), last := st,
                                    bad := r.bad.filter fun b => b.1 != p.hdr.psn }
  sendAck (if needsGrant p.hdr.op then useGrant w k p.data.length else w) p.port (k / 64) (k % 64) st p.ce

/-- The state after a packet's effect, which took `u` to `v` with status `st`: the path goes on, but where the effect has returned every path to its start by a write of the
alias generation (R748), the packet is only acknowledged. -/
def passed (u v : State) (p : CxtPkt) (st : Nat) : State :=
  if v.fld .ld 0 R.CXEPOCH_ALIAS = u.fld .ld 0 R.CXEPOCH_ALIAS then accepted v p st else sendAck v p.port (pathOf p / 64) (pathOf p % 64) st p.ce

end Sys2Proof.Machine
end

