-- ==== Sys2Proof/Certificates/Slice0/Obligations.lean ====
section
/-!
DEFINITION. The statements that the provers prove of the model. Each says in its docstring which rules of the manual it is about.
-/

open Sys2Proof Sys2Proof.Machine

/-! ### The machine as a whole -/

/-- A step takes the command at the front of the queue and gives it its effect on a state that holds the rest of the queue. -/
def Obligations.StepRunsFront : Prop :=
  ∀ (c : Instr) (s : State) (rest : List Instr), step { s with pending := c :: rest } = exec c { s with pending := rest }

/-! ### The sequencer and the scalar engine -/

/-- R625–R629, R635 on a quiet tile, under a set lane-0 bit of the predicate and a met wait: the destination takes the operation's result, and nothing else
changes but what every issue changes (`issued`: index and loops, `BOUNDARY`, the issue number) and the clock of idle matrix pipes or lanes, which rests (`clockRest`, R160). R635: CRD writes a counter's value (SUB 0), or its status (SUB 1), which CLR then clears. -/
def Obligations.ScalarResults : Prop :=
  (∀ (s : State) (t : Nat), Quiet s t →
     let c := s.actx t
     (∀ f : FmtS3, waitMet s t f.wait = true → lane0 s t c f.pred = true → f.z = 0 → f.func.toNat < 16 → (f.func = 0x0E → f.ra = 0) →
       exec (.salu t f) s = .next (clockRest (setS (issued s t) t c f.rd.toNat (saluOp f.func.toNat (rs s t c f.ra.toNat) (rs s t c f.rb.toNat))) t)) ∧
     (∀ f : FmtSI, lane0 s t c f.pred = true → f.func.toNat < 16 → (f.func = 0x0E → f.ra = 0) →
       exec (.salui t f) s = .next (clockRest (setS (issued s t) t c f.rd.toNat (saluOp f.func.toNat (rs s t c f.ra.toNat) (f.imm.signExtend 64))) t)) ∧
     (∀ f : FmtS3, waitMet s t f.wait = true → lane0 s t c f.pred = true → f.z = 0 → f.func.toNat < 8 → (f.func ≠ 7 → f.rc = 0) →
       exec (.smul t f) s = .next (clockRest (setS (issued s t) t c f.rd.toNat
         (smulOp f.func.toNat (rs s t c f.ra.toNat) (rs s t c f.rb.toNat) (rs s t c f.rc.toNat))) t)) ∧
     (∀ f : FmtS3, waitMet s t f.wait = true → lane0 s t c f.pred = true → f.z = 0 → f.func.toNat < 6 → f.rd.toNat < 8 →
       exec (.scmp t f) s = .next (clockRest (setP (issued s t) t c f.rd.toNat
         (if scmpOp f.func.toNat (rs s t c f.ra.toNat) (rs s t c f.rb.toNat) then BitVec.allOnes 256 else 0)) t)) ∧
     (∀ f : FmtSI, lane0 s t c f.pred = true → aopLegal f = true →
       exec (.aop t f) s = .next (
         let v := aopOp f.func.toNat (ra s t c f.ra.toNat) (rs s t c f.ra.toNat) f.imm
         clockRest (if f.func = 2 then setS (issued s t) t c f.rd.toNat v else setA (issued s t) t c f.rd.toNat v) t))) ∧
  (∀ (s : State) (t : Nat), Quiet s t →
     let c := s.actx t
     ∀ (cnt reg : BitVec 6),
       exec (.crd t { cZero with cnt := cnt, reg := reg }) s =
         .next (clockRest (setS (issued s t) t c reg.toNat (.ofNat 64 (cntVal s t c cnt.toNat))) t) ∧
       exec (.crd t { cZero with cnt := cnt, reg := reg, sub := 1 }) s =
         .next (clockRest (setS (issued s t) t c reg.toNat (s.reg (regAddr .tile t (R.CNTST c cnt.toNat)))) t) ∧
       exec (.crd t { cZero with cnt := cnt, reg := reg, sub := 1, clr := true }) s =
         .next (clockRest ((setS (issued s t) t c reg.toNat (s.reg (regAddr .tile t (R.CNTST c cnt.toNat)))).setReg
           (regAddr .tile t (R.CNTST c cnt.toNat)) 0) t))

/-- R621: under a clear lane-0 bit of the predicate a legal instruction writes no register and no memory, raises no fault and takes no branch: it only issues. -/
def Obligations.PredicateOff : Prop :=
  ∀ (s : State) (t : Nat), Quiet s t →
    let c := s.actx t
    (∀ f : FmtS3, waitMet s t f.wait = true → lane0 s t c f.pred = false → f.z = 0 →
      (f.func.toNat < 16 → (f.func = 0x0E → f.ra = 0) → exec (.salu t f) s = .next (clockRest (issued s t) t)) ∧
      (f.func.toNat < 8 → (f.func ≠ 7 → f.rc = 0) → exec (.smul t f) s = .next (clockRest (issued s t) t)) ∧
      (f.func.toNat < 6 → f.rd.toNat < 8 → exec (.scmp t f) s = .next (clockRest (issued s t) t))) ∧
    (∀ f : FmtSI, lane0 s t c f.pred = false →
      (f.func.toNat < 16 → (f.func = 0x0E → f.ra = 0) → exec (.salui t f) s = .next (clockRest (issued s t) t)) ∧
      (aopLegal f = true → exec (.aop t f) s = .next (clockRest (issued s t) t)) ∧
      (f.func.toNat < 8 → f.ra.toNat < 16 → exec (.sld t f) s = .next (clockRest (issued s t) t)) ∧
      (f.func.toNat < 4 → f.ra.toNat < 16 → exec (.sst t f) s = .next (clockRest (issued s t) t)) ∧
      (bits f.func.toNat 2 0 < 7 → bits f.func.toNat 6 4 = 0 → bits f.imm.toNat 31 16 = 0 →
        endsLoop ((s.tile t).ctx c).idx ((s.tile t).ctx c).loops = false → exec (.br t f) s = .next (clockRest (advance s t) t))) ∧
    (∀ f : FmtS3, lane0 s t c f.pred = false → f.func = 0 ∨ f.func = 8 → f.rb = 0 → f.rc = 0 → f.z = 0 → f.wait = 0 →
      endsLoop ((s.tile t).ctx c).idx ((s.tile t).ctx c).loops = false → exec (.brr t f) s = .next (clockRest (advance s t) t))

/-- R627, R93, R94: SLD reads its bytes through the gather buffer, which it fills, or a register of its own block; SST writes through the gather buffer, or a register with
the effect of its slot. The place is that of `scalarAt`. -/
def Obligations.ScalarMemory : Prop :=
  ∀ (s : State) (t : Nat) (f : FmtSI), Quiet s t → lane0 s t (s.actx t) f.pred = true → f.ra.toNat < 16 →
    let c := s.actx t
    let n := scalarSize f.func
    (f.func.toNat < 8 → ∀ o, scalarAt s t c f.ra.toNat f.imm n false = .ok (.mem o) →
      exec (.sld t f) s = .next (clockRest (setS (gbFill (issued s t) t o n) t c f.rd.toNat (sldExtend f.func (ofBytes (ownRd s t o n)))) t)) ∧
    (f.func.toNat < 8 → ∀ o, scalarAt s t c f.ra.toNat f.imm n false = .ok (.reg o) →
      exec (.sld t f) s = .next (clockRest (setS (issued s t) t c f.rd.toNat (readReg (issued s t) (regAddr .tile t o))) t)) ∧
    (f.func.toNat < 4 → ∀ o, scalarAt s t c f.ra.toNat f.imm n true = .ok (.mem o) →
      exec (.sst t f) s = .next (clockRest (gbWrite (issued s t) t o (toBytes (rs s t c f.rd.toNat).toNat n) false) t)) ∧
    (f.func.toNat < 4 → ∀ o, scalarAt s t c f.ra.toNat f.imm n true = .ok (.reg o) →
      exec (.sst t f) s = .next (settle (tileRegStore (issued s t) t c o (rs s t c f.rd.toNat)) t))

/-- R57, R93–R98: after a write through the gather buffer the tile's own engines see the bytes written where they were written and every other byte as before; what memory itself
shows of a byte of the scratchpad changes only to what the tile sees there; and no byte below the scratchpad changes. -/
def Obligations.GatherBufferView : Prop :=
  ∀ (s : State) (t o : Nat) (bs : List Byte) (qp : Bool),
    let u := gbWrite s t o bs qp
    (∀ x, ownByte u t x = if o ≤ x ∧ x < o + bs.length then bs.getD (x - o) 0 else ownByte s t x) ∧
    (∀ x, u.byte (spadAddr t x) = s.byte (spadAddr t x) ∨ u.byte (spadAddr t x) = ownByte u t x) ∧
    (∀ a, a < spadAddr t 0 → u.byte a = s.byte a) ∧
    u.regs = s.regs ∧ ∀ k, k ≠ t → u.tile k = s.tile k

/-- R630–R632, R650: NOP goes to the next index; a taken branch to its target, with the link and the end of the loops that it leaves; a LOOP pushes its body, or goes past it when the
count is 0. R630, R632: what a taken branch does. -/
def Obligations.SequencerIndex : Prop :=
  (∀ (s : State) (t : Nat), Quiet s t →
     let c := s.actx t
     let x := (s.tile t).ctx c
     exec (.nop t cZero) s = .next (clockRest (advance s t) t) ∧
     (endsLoop x.idx x.loops = false →
       (∀ f : FmtSI, lane0 s t c f.pred = true → bits f.func.toNat 2 0 < 7 → bits f.func.toNat 6 4 = 0 → f.imm.toNat < areaLen s t c → f.imm.toNat < 2 ^ 16 →
         (brCond (bits f.func.toNat 2 0) (rs s t c f.ra.toNat) = true →
           exec (.br t f) s = .next (clockRest (takeBranch s t c (issuePc s t) f.imm.toNat (if bitOf f.func.toNat 3 then some f.rd.toNat else none)) t)) ∧
         (brCond (bits f.func.toNat 2 0) (rs s t c f.ra.toNat) = false → exec (.br t f) s = .next (clockRest (advance s t) t))) ∧
       (∀ f : FmtS3, lane0 s t c f.pred = true → f.func = 0 ∨ f.func = 8 → f.rb = 0 → f.rc = 0 → f.z = 0 → f.wait = 0 →
         (rs s t c f.ra.toNat).toNat < areaLen s t c →
         exec (.brr t f) s = .next (clockRest (takeBranch s t c (issuePc s t) (rs s t c f.ra.toNat).toNat (if f.func = 8 then some f.rd.toNat else none)) t)) ∧
       (∀ f : FmtSI, f.pred = 0 → f.rd = 0 → f.func = 0 → f.imm.toNat < 2 ^ 16 → x.idx < f.imm.toNat →
         let n := (rs s t c f.ra.toNat).toNat % 2 ^ 32
         (n = 0 → exec (.loop t f) s = .next (clockRest ((s.modCtx t c fun z =>
           { z with last := z.idx, idx := (nextIdx f.imm.toNat z.loops).1, loops := (nextIdx f.imm.toNat z.loops).2 }).setTf t R.TSTAT_BOUNDARY 0) t)) ∧
         (n ≠ 0 → x.loops.length < 4 → exec (.loop t f) s = .next (clockRest ((s.modCtx t c fun z =>
           { z with last := z.idx, idx := z.idx + 1, loops := ⟨z.idx + 1, f.imm.toNat, n⟩ :: z.loops }).setTf t R.TSTAT_BOUNDARY 0) t))))) ∧
  (∀ (s : State) (t c pc target : Nat) (link : Option Nat), c < 2 → target < areaLen s t c →
     let u := takeBranch s t c pc target link
     let x := (s.tile t).ctx c
     ((u.tile t).ctx c).idx = target ∧ ((u.tile t).ctx c).loops = branchLoops target x.loops ∧ u.tf t R.TSTAT_BOUNDARY = 0 ∧
     (∀ n, rs u t c n = if link = some n then .ofNat 64 (x.idx + 1) else rs s t c n) ∧
     (∀ n, ra u t c n = ra s t c n ∧ rp u t c n = rp s t c n ∧ rv u t c n = rv s t c n) ∧
     (u.tile t).ctx (1 - c) = (s.tile t).ctx (1 - c) ∧
     OnlyIn (fun a => a = regAddr .tile t R.TSTAT) (fun k => k = t) s u)

/-- R634, R639, R646, R649, R66, R645: what the instructions that hold the sequencer do when nothing is left to wait for. R68, R634, R639: a wait that is not over holds the sequencer, and the idle tile soaks. -/
def Obligations.HoldsTheSequencer : Prop :=
  (∀ (s : State) (t : Nat), Quiet s t →
     let c := s.actx t
     (∀ (f : FmtC), f = { cZero with cnt := f.cnt, reg := f.reg, l := f.l, v := f.v, imm := f.imm } → (f.v = false → f.reg = 0) →
       satisfied (cntVal s t c f.cnt.toNat) (((if f.v then (rs s t c f.reg.toNat).toNat else 0) + f.imm.toNat) % 2 ^ 32) = true →
       Gives (exec (.cwait t f) s) (clockRest ((advance s t).modTile t fun x => { x with longWait := false }) t)) ∧
     (∀ (f : FmtC), f = { cZero with grp := f.grp, reg := f.reg, l := f.l, k := f.k, b := f.b, v := f.v } → f.grp.toNat < 48 → (f.v = false → f.reg = 0) →
       (f.k = true → landedOk s t = true) →
       (s.tf t (R.TBAR_DONEGEN c f.grp.toNat) + 256 -
         (if f.v then (rs s t c f.reg.toNat).toNat % 256 else s.tf t (R.TBAR_ARRGEN c f.grp.toNat))) % 256 < 128 →
       Gives (exec (.bwait t f) s) (clockRest ((if f.b then (advance s t).setTf t R.TSTAT_BOUNDARY 1 else advance s t).modTile t fun x =>
         { x with longWait := false }) t)) ∧
     exec (.fence t cZero) s = .next (clockRest ((drainAll ((advance s t).modTile t fun x => { x with held := some .fence }) t).modTile t fun x => { x with held := none }) t) ∧
     (s.tf t R.TSTAT_BOUNDARY = 1 →
       Gives (exec (.ctx t cZero) s) (clockRest (((drainAll ((s.modCtx t c Ctx.advance).modTile t fun x => { x with held := some .ctx }) t).modTile t fun x =>
         { zeroArray x with held := none, fbuf := [] }).setTf t R.TSTAT_CTX (1 - c)) t)) ∧
     Gives (exec (.halt t cZero) s) (clockRest ((((drainAll ((advance s t).modTile t fun x => { x with held := some .halt }) t).modTile t fun x =>
       { x with held := none }).setTf t R.TSTAT_HALTED 1).setTstate t soaking) t)) ∧
  (∀ (s : State) (t : Nat), Quiet s t →
     let c := s.actx t
     (∀ (f : FmtC), f = { cZero with cnt := f.cnt, reg := f.reg, l := f.l, v := f.v, imm := f.imm } → (f.v = false → f.reg = 0) →
       let v := ((if f.v then (rs s t c f.reg.toNat).toNat else 0) + f.imm.toNat) % 2 ^ 32
       satisfied (cntVal s t c f.cnt.toNat) v = false →
       Gives (exec (.cwait t f) s) (clockRest (((advance s t).setTstate t soaking).modTile t fun x =>
         { x with held := some (.cwait f.cnt.toNat v f.l), longWait := f.l }) t)) ∧
     (∀ (f : FmtC), f = { cZero with grp := f.grp, reg := f.reg, l := f.l, k := f.k, b := f.b, v := f.v } → f.grp.toNat < 48 → (f.v = false → f.reg = 0) →
       let gen := if f.v then (rs s t c f.reg.toNat).toNat % 256 else s.tf t (R.TBAR_ARRGEN c f.grp.toNat)
       ¬ (s.tf t (R.TBAR_DONEGEN c f.grp.toNat) + 256 - gen) % 256 < 128 →
       Gives (exec (.bwait t f) s) (clockRest (((advance s t).setTstate t soaking).modTile t fun x =>
         { x with held := some (.bwait f.grp.toNat gen f.b f.k f.l), longWait := f.l }) t)))

/-! ### Queues, wickets and basins -/

/-- R640, R249: SEND with an open channel of the active context and credit for its payload injects the message at issue; SEND_INJECT does so for one that has waited for credit. R249, R258: what the injection of a message to a queue of the same device does: one descriptor credit and the payload's units and pad are spent, the tail moves on, and the message
is under way under the channel's epoch (or lost on a die link that is down, R322); no other register and no other tile changes. -/
def Obligations.SendInjects : Prop :=
  ((∀ (s : State) (t : Nat) (f : FmtD) (o src : Nat), Quiet s t → waitMet s t f.wait = true → f.pred = 0 → f.reg = 0 → f.mod = 0 →
     let c := s.actx t
     let d := readDesc s t o
     let ch := f.idx.toNat
     let payload := if carriesPayload s t ch then ownRd s t src d.len else []
     localWin s t c f.a.toNat (offD f) 32 = .ok o → sendCheck s t c ch d = .ok src → s.tf t (R.CHROUTE_CLOSED ch) = 0 → creditOk s t ch payload.length = true →
     exec (.send t f) s = .next (settle (injectMsg (issued s t) t c (issuePc s t) .qp none stOK ch d payload) t)) ∧
   (∀ (s : State) (t : Nat) (f : Flight) (rest : List Flight) (ch : Nat) (d : Desc) (payload : List Byte) (grp : Option Nat) (w : Nat),
     s.tstate t ≠ fenced → (s.tile t).flights = f :: rest → f.kind = .sendWait ch d payload grp w → s.tf t (R.CHROUTE_CLOSED ch) = 0 → creditOk s t ch payload.length = true →
     exec (.sendInject t) s = .next (settle (injectMsg (dropFlight s t f.id) t f.ctx f.pc f.eng grp w ch d payload) t))) ∧
  (∀ (s : State) (t c pc ch w0 : Nat) (e : Engine) (grp : Option Nat) (d : Desc) (payload : List Byte),
     s.tf t (R.CHROUTE_DEV ch) = s.ownDev → s.tf t (R.CHROUTE_BASIN ch) = 0 → 0 < s.tf t (R.CHCR_PSIZE ch) → t < 2048 → ch < 64 →
     let u := injectMsg s t c pc e grp w0 ch d payload
     let up := unitsAndPad payload.length (s.tf t (R.CHCR_PTAIL ch)) (s.tf t (R.CHCR_PSIZE ch))
     u.tf t (R.CHCR_DCRED ch) = (s.tf t (R.CHCR_DCRED ch) - 1) ∧
     u.tf t (R.CHCR_PCRED ch) = (s.tf t (R.CHCR_PCRED ch) - (up.1 + up.2)) ∧
     u.wires = (s.post (.desc (s.tf t (R.CHROUTE_TILE ch))
       { queue := s.tf t (R.CHROUTE_QUEUE ch), chan := ch, sender := tileSender s t, epoch := (d.setEpoch (s.tf t (R.CHROUTE_EPOCH ch))).epoch,
         desc := d.setEpoch (s.tf t (R.CHROUTE_EPOCH ch)), payload := payload, tag := (s.tile t).nextTag })).wires ∧
     u = { s with regs := u.regs, tiles := u.tiles, wires := u.wires } ∧
     (∀ a, a ≠ regAddr .tile t (R.CHCR ch) → u.reg a = s.reg a) ∧ (∀ k, k ≠ t → u.tile k = s.tile k))

/-- R641, R642: RECV and TRYRECV take the descriptor at the head of an open FIFO or SHARED queue; TRYRECV of an empty one writes EMPTY; QREL frees the payload of the oldest received
message, and changes nothing where there is none. R641, R745: a blocked RECV takes the head once a descriptor is visible: the tile wakes, the RECV leaves the QP, and the head is taken, whose
status the register REG then reads. -/
def Obligations.Receives : Prop :=
  (∀ (s : State) (t : Nat), Quiet s t →
     let c := s.actx t
     (∀ (f : FmtD) (o dst : Nat), waitMet s t f.wait = true → f.pred = 0 → f.idx.toNat < 16 → f.mod.toNat < 4 → queueOpenTo s t c f.idx.toNat = true →
       localWin s t c f.a.toNat (offD f) 32 = .ok o → localDst s t c (spadAddr t o) 32 = .ok dst →
       (bitOf f.mod.toNat 0 = false → s.tf t (R.QPTR_COUNT f.idx.toNat) ≠ 0 →
         exec (.recv t f) s = .next (settle (takeHead (issued s t) t c (issuePc s t) f.idx.toNat dst f.reg.toNat) t)) ∧
       (bitOf f.mod.toNat 0 = true → s.tf t (R.QPTR_COUNT f.idx.toNat) ≠ 0 →
         exec (.tryrecv t f) s = .next (settle (takeHead (issued s t) t c (issuePc s t) f.idx.toNat dst f.reg.toNat) t)) ∧
       (bitOf f.mod.toNat 0 = true → s.tf t (R.QPTR_COUNT f.idx.toNat) = 0 →
         exec (.tryrecv t f) s = .next (clockRest (setS (issued s t) t c f.reg.toNat 0x1_0000) t))) ∧
     (∀ f : FmtD, waitMet s t f.wait = true → f.pred = 0 → f.idx.toNat < 16 → f.a = 0 → f.off = 0 → f.reg = 0 → f.mod = 0 →
       queueOpenTo s t c f.idx.toNat = true → s.tf t (R.QPAY_SIZE f.idx.toNat) ≠ 0 →
       (takeFirst (fun m : QMsg => m.q == f.idx.toNat && m.received) (s.tile t).qmsgs = none → exec (.qrel t f) s = .next (clockRest (issued s t) t)) ∧
       (∀ m rest, takeFirst (fun m : QMsg => m.q == f.idx.toNat && m.received) (s.tile t).qmsgs = some (m, rest) →
         exec (.qrel t f) s = .next (settle (freeCredit (((issued s t).modTile t fun x => { x with qmsgs := rest }).setTf t (R.QPTR_PHEAD f.idx.toNat)
           ((s.tf t (R.QPTR_PHEAD f.idx.toNat) + m.units + m.pad) % s.tf t (R.QPAY_SIZE f.idx.toNat))) t f.idx.toNat m 0 (m.units + m.pad)) t)))) ∧
  (∀ (s : State) (t : Nat) (f : Flight) (rest : List Flight) (n dst reg : Nat) (long : Bool),
     (s.tile t).flights = f :: rest → f.kind = .recv n dst reg long → s.tf t (R.QPTR_COUNT n) ≠ 0 → s.tstate t ≠ fenced →
     exec (.recvUnblock t) s =
       .next (settle (takeHead ((dropFlight (if s.tf t R.TSTAT_HALTED = 1 then s else wake s t) t f.id).modTile t fun x => { x with longWait := false })
         t f.ctx f.pc n dst reg) t)) ∧
  (∀ (s : State) (t c pc q dst reg : Nat), groupsOk s t c (s.tf t (R.QCFG_BASE q) + 32 * s.tf t (R.QPTR_HEAD q)) 32 = true → c < 2 →
     rs (takeHead s t c pc q dst reg) t c reg = .ofNat 64 (match (s.tile t).qmsgs.find? fun m => m.q == q && !m.received with | some m => m.status | none => stOK) ∧
     (∀ n, n ≠ reg → rs (takeHead s t c pc q dst reg) t c n = rs s t c n))

/-- R247, R259, R260: an arriving descriptor is taken in and answered with OK where every check passes and it need not wait; otherwise it is answered with the code of the first
check that fails and is not taken in; behind an earlier message of its channel, or while it must wait, it stays where it is (R246). R251, R741: a credit return that arrives raises the channel's two credits by the amounts freed and changes no other register; the timer sends the credits of a queue that have not
been returned, and none is left. -/
def Obligations.DescriptorsAndCredits : Prop :=
  (∀ (s : State) (t : Nat) (m : Msg), overtakes s t m = false →
     (descCheck s t m = stOK → arrivalWaits s t m = false →
       exec (.descriptorArrival t m) s = .next (answerTo ((settle (acceptMsg s t m) t).unwire (.desc t m)) m.sender m.tag stOK)) ∧
     (descCheck s t m ≠ stOK →
       exec (.descriptorArrival t m) s = .next (answerTo ((countDropped s t m).unwire (.desc t m)) m.sender m.tag (descCheck s t m)))) ∧
  (∀ (s : State) (t : Nat) (m : Msg), overtakes s t m = true ∨ descCheck s t m = stOK ∧ arrivalWaits s t m = true → exec (.descriptorArrival t m) s = .next s) ∧
  ((∀ (s : State) (t ch slots units : Nat), s.tstate t ≠ fenced → s.tf t (R.CHCR_DCRED ch) + slots < 2 ^ 9 → s.tf t (R.CHCR_PCRED ch) + units < 2 ^ 13 →
     ∃ u, exec (.creditReturn t ch slots units) s = .next u ∧
       u.tf t (R.CHCR_DCRED ch) = s.tf t (R.CHCR_DCRED ch) + slots ∧ u.tf t (R.CHCR_PCRED ch) = s.tf t (R.CHCR_PCRED ch) + units ∧
       u = { s with regs := u.regs, wires := s.wires.erase (.credit (tileSender s t) ch slots units) } ∧
       ∀ a, a ≠ regAddr .tile t (R.CHCR ch) → u.reg a = s.reg a) ∧
   (∀ (s : State) (t q : Nat), s.tstate t ≠ fenced → (∀ r ∈ (s.tile t).freed, r.sender.dev = s.ownDev) →
     ∃ u, exec (.creditReturnTimer t q) s = .next u ∧ (∀ r ∈ (u.tile t).freed, r.q ≠ q) ∧
       u.wires = s.wires ++ (((s.tile t).freed.filter fun r => r.q == q).map fun r => Wire.credit r.sender r.chan r.slots r.units).filter
         (fun w => (wireLinks s w).all (linkTakes s)) ∧
       u = { s with tiles := u.tiles, wires := u.wires } ∧ ∀ k, k ≠ t → u.tile k = s.tile k))

/-- R118, R120, R644: WOPEN and WCLOSE of a usable wicket of the active context take effect at issue; an open completes at once, a close under WICKET_CLOSE_COMPLETE. R118, R120: opening a closed wicket sets `OPEN`, clears every landed count and `REJECTS` and leaves the epoch; closing an open one clears `OPEN` and raises the epoch modulo 2¹⁶;
an open of an open wicket and a close of a closed one change nothing. -/
def Obligations.WicketsOpenAndClose : Prop :=
  ((∀ (s : State) (t : Nat) (f : FmtD), Quiet s t → waitMet s t f.wait = true → f.pred = 0 → f.idx.toNat < 16 → f.a = 0 → f.off = 0 → f.mod.toNat < 4 →
     (bitOf f.mod.toNat 1 = false → f.reg = 0) → wicketUsable s t (s.actx t) f.idx.toNat = true →
     (bitOf f.mod.toNat 0 = false →
       exec (.wopen t f) s = .next (settle (complete (openWicket (issued s t) t f.idx.toNat) t (s.actx t) (wicketCnt f) stOK .qp (issuePc s t)) t)) ∧
     (bitOf f.mod.toNat 0 = true →
       exec (.wclose t f) s = .next (settle (addFlight (closeWicket (issued s t) t f.idx.toNat) t
         { id := (s.tile t).nextId, eng := .qp, ctx := s.actx t, pc := issuePc s t, foot := {}, cnt := wicketCnt f, kind := .wclose f.idx.toNat }) t))) ∧
   (∀ (s : State) (t : Nat) (f : Flight) (rest : List Flight) (w : Nat), s.tstate t ≠ fenced → (s.tile t).flights = f :: rest → f.kind = .wclose w →
     exec (.wicketCloseComplete t) s = .next (settle (complete (dropFlight s t f.id) t f.ctx f.cnt stOK .qp f.pc) t))) ∧
  (∀ (s : State) (t w : Nat), w < 16 →
     (s.tf t (R.WKEPOCH_OPEN w) = 1 → openWicket s t w = s) ∧ (s.tf t (R.WKEPOCH_OPEN w) = 0 → closeWicket s t w = s) ∧
     ((s.tile t).hold = [] → (s.tile t).flights = [] →
       (s.tf t (R.WKEPOCH_OPEN w) = 0 →
         let u := openWicket s t w
         u.tf t (R.WKEPOCH_OPEN w) = 1 ∧ u.tf t (R.WKEPOCH_REJECTS w) = 0 ∧ u.tf t (R.WKEPOCH_EPOCH w) = s.tf t (R.WKEPOCH_EPOCH w) ∧
         (∀ k, k < 32 → u.tf t (R.WKLAND_BYTES w k) = 0) ∧
         OnlyIn (fun a => a = regAddr .tile t (R.WKEPOCH w) ∨ ∃ k, k < 32 ∧ a = regAddr .tile t (R.WKLAND w k)) (fun k => k = t) s u) ∧
       (s.tf t (R.WKEPOCH_OPEN w) = 1 →
         let u := closeWicket s t w
         u.tf t (R.WKEPOCH_OPEN w) = 0 ∧ u.tf t (R.WKEPOCH_EPOCH w) = (s.tf t (R.WKEPOCH_EPOCH w) + 1) % 2 ^ 16 ∧
         OnlyIn (fun a => a = regAddr .tile t (R.WKEPOCH w)) (fun k => k = t) s u)))

/-- R264, R266, R643: BOPEN of a closed bucket of an enabled basin of the active context clears its counts and flags and begins the zeroing; an open bucket stays as it is. The end of the
zeroing makes every accumulator zero and sets `OPEN`, with `NONREPRO` in FP32 mode. R263–R267: a contribution to an open bucket of its format and range is added element by element and counted, and answered with OK; the last one due makes the bucket complete: the
sums of an exact basin become FP32 in place, `OPEN` clears, `DONE` is set, and the bucket's counter is signalled where it is enabled. -/
def Obligations.BucketsAndContributions : Prop :=
  ((∀ (s : State) (t : Nat) (f : FmtD), Quiet s t → waitMet s t f.wait = true → f.pred = 0 → f.idx.toNat < 16 → f.a = 0 → f.off = 0 → f.reg = 0 → f.mod.toNat < 16 →
     let n := f.idx.toNat
     let b := f.mod.toNat
     basinOn s t n = true → s.tf t (R.QCFG_OWNER n) = s.actx t →
     (bitOf (bktFlags s t n b) 0 = true → exec (.bopen t f) s = .next (clockRest (issued s t) t)) ∧
     (bitOf (bktFlags s t n b) 0 = false →
       exec (.bopen t f) s = .next (settle ((bktPut (bktPut (bktPut (bktPut (issued s t) t n b 14 2 0) t n b 20 4 0) t n b 24 4 0) t n b 11 1 0).modTile t fun x =>
         putBucket x { q := n, b := b, accepted := 0, zeroing := true, due := false }) t))) ∧
   (∀ (s : State) (t q b : Nat), s.tstate t ≠ fenced → zeroing (s.tile t) q b = true →
     ∃ u, exec (.basinZeroComplete t q b) s = .next u ∧ zeroing (u.tile t) q b = false ∧
       (bucketAt s t q b + 32 ≤ bktBase s t q b ∨ bktBase s t q b + accBytes s t q * bktEntries s t q b ≤ bucketAt s t q b →
         bktFlags u t q b = (if exactBasin s t q then 1 else 5) ∧
         ∀ i, i < accBytes s t q * bktEntries s t q b → ownByte u t (bktBase s t q b + i) = 0) ∧
       u = { s with mem := u.mem, tiles := u.tiles } ∧ ∀ k, k ≠ t → u.tile k = s.tile k)) ∧
  ((∀ (s : State) (t : Nat) (m : Msg) (xs : List Machine.Num),
     let q := m.queue
     let b := m.desc.wq
     let first := m.desc.dst % 2 ^ 16
     s.tstate t ≠ fenced → m.epoch = s.tf t (R.QEPOCH_EPOCH q) → s.tf t (R.QEPOCH_CLOSED q) = 0 → basinOn s t q = true → zeroing (s.tile t) q b = false → qpStalled (s.tile t) = false →
     bitOf (bktFlags s t q b) 0 = true → bktGet s t q b 14 2 < bktGet s t q b 12 2 → contribVals m.desc.tfmt m.payload = some xs →
     m.desc.tfmt = bktFmt s t q b → first + xs.length ≤ bktEntries s t q b →
     let u := xs.zipIdx.foldl (fun s (x, i) => if exactBasin s t q then addExact s t q b (first + i) x else addFp32 s t q b (first + i) x) s
     let n := bktGet u t q b 14 2 + 1
     let v := bktPut u t q b 14 2 n
     exec (.basinContribution t m) s = .next (answerTo ((v.modTile t fun x =>
       putBucket x { q := q, b := b, accepted := n, zeroing := false, due := decide (n = bktGet v t q b 12 2) }).unwire (.contrib t m)) m.sender m.tag stOK)) ∧
   (∀ (s : State) (t q b : Nat), s.tstate t ≠ fenced → ((s.tile t).basins.any fun k => k.q == q && k.b == b && k.due) = true →
     let base := bktBase s t q b
     let u := if exactBasin s t q then
         (List.range (bktEntries s t q b)).foldl (fun s i =>
           ownWr s t (base + 4 * i) (toBytes (fp32.near ((Num.ofInt (sextInt (ofBytes (ownRd s t (base + 8 * i) 8)) 64)).scale (bktExp s t q b))) 4)) s
       else s
     ∃ v, exec (.basinBucketComplete t q b) s = .next (settle v t) ∧
       ∃ w, w = (bktPut u t q b 11 1 (bktFlags u t q b / 4 * 4 + 2)).modTile t (fun x => { x with basins := x.basins.filter fun k => !(k.q == q && k.b == b) }) ∧
       v = if bitOf (bktGet w t q b 16 1) 7 then signal w t (s.tf t (R.QCFG_OWNER q)) (bktGet w t q b 16 1 % 64) stOK .qp 0 else w))

/-! ### Barrier arrival, signals, soaking and traps -/

/-- R638, R240: BARR of a member of a quiet tile sends its arrival once the generation before it has completed, with `ARRGEN` at the new generation; until then the sequencer is held by it, and
BARRIER_ARRIVAL_SEND sends it as soon as they have come true. R235–R239, R243, R437, R449, R453: an arrival counts at its die; the last one of a die group releases its members, and the last of a die's part of a package group goes to GC 1, where the last
die of the mask DIES completes the group; an arrival at a group that is not in use, or of another generation, counts nothing; a member sees the release as its completed generation; the norm group of a device waits for its record. -/
def Obligations.Barriers : Prop :=
  ((∀ (s : State) (t : Nat) (f : FmtC), Quiet s t → f = { cZero with grp := f.grp, l := f.l, k := f.k, b := f.b, w := f.w } → f.grp.toNat < 48 →
     (f.w = false → f.b = false ∧ f.k = false ∧ f.l = false) → s.tf t (R.TBAR_MEMBER (s.actx t) f.grp.toNat) = 1 →
     let g := f.grp.toNat
     let gen := (s.tf t (R.TBAR_ARRGEN (s.actx t) g) + 1) % 256
     let h := SeqHold.barr g gen f.w f.b f.k f.l
     let u := drainAll ((advance s t).modTile t fun x => { x with held := some h, longWait := f.l }) t
     ((s.tf t (R.TBAR_DONEGEN (s.actx t) g) + 1) % 256 = gen → exec (.barr t f) s = .next (settle (sendArrival u t g gen f.w f.b f.k f.l) t)) ∧
     ((s.tf t (R.TBAR_DONEGEN (s.actx t) g) + 1) % 256 ≠ gen → exec (.barr t f) s = .next (settle u t))) ∧
   (∀ (s : State) (t g gen : Nat) (w b k long : Bool), (s.tile t).held = some (.barr g gen w b k long) → s.tstate t = running →
     holdReady s t (.barr g gen w b k long) = true → exec (.barrierArrivalSend t) s = .next (settle (sendArrival s t g gen w b k long) t)) ∧
   (∀ (s : State) (t g gen : Nat) (w b k long : Bool),
     let u := sendArrival s t g gen w b k long
     u.tf t (R.TBAR_ARRGEN (s.actx t) g) = gen % 256 ∧ (u.tile t).held = (if w then some (.bwait g gen b k long) else none) ∧
     u.wires = s.wires ++ [.arrive (t / 256) g gen])) ∧
  ((∀ (s : State) (die g gen : Nat), let u := s.unwire (.arrive die g gen)
     (g < 32 → s.fld .die die (R.DBAR_EN g) ≠ 0 → gen = (s.fld .die die (R.DBAR_GEN g) + 1) % 256 → s.fld .die die (R.DBAR_ARRIVED g) + 1 = s.fld .die die (R.DBAR_PARTS g) → exec (.dieBarrierArrival die g gen) s =
       .next (releaseDie ((u.setFld .die die (R.DBAR_ARRIVED g) 0).setFld .die die (R.DBAR_GEN g) gen) die g gen)) ∧
     (g < 32 → s.fld .die die (R.DBAR_EN g) ≠ 0 → gen = (s.fld .die die (R.DBAR_GEN g) + 1) % 256 → s.fld .die die (R.DBAR_ARRIVED g) + 1 ≠ s.fld .die die (R.DBAR_PARTS g) →
       exec (.dieBarrierArrival die g gen) s = .next (u.setFld .die die (R.DBAR_ARRIVED g) (s.fld .die die (R.DBAR_ARRIVED g) + 1))) ∧
     (g < 32 → s.fld .die die (R.DBAR_EN g) = 0 ∨ gen ≠ (s.fld .die die (R.DBAR_GEN g) + 1) % 256 → exec (.dieBarrierArrival die g gen) s = .next u) ∧
     (32 ≤ g → s.fld .die die (R.PBAR_EN (g - 32)) = 0 ∨ gen ≠ (s.fld .die die (R.PBAR_GEN (g - 32)) + 1) % 256 → exec (.dieBarrierArrival die g gen) s = .next u) ∧
     (32 ≤ g → s.fld .die die (R.PBAR_EN (g - 32)) ≠ 0 → gen = (s.fld .die die (R.PBAR_GEN (g - 32)) + 1) % 256 →
       let n := s.fld .die die (R.PBAR_ARRIVED (g - 32)) + 1
       let v := u.setFld .die die (R.PBAR_ARRIVED (g - 32)) n
       (n = s.fld .die die (R.PBAR_PARTS (g - 32)) → exec (.dieBarrierArrival die g gen) s = .next (v.send (.pkgArrive die g gen))) ∧
       (n ≠ s.fld .die die (R.PBAR_PARTS (g - 32)) → exec (.dieBarrierArrival die g gen) s = .next v))) ∧
   (∀ (s : State) (die g gen : Nat), 32 ≤ g → s.fld .die 1 (R.PBAR_EN (g - 32)) = 1 → gen = (s.fld .die 1 (R.PBAR_GEN (g - 32)) + 1) % 256 →
     let u := s.unwire (.pkgArrive die g gen)
     let ds := mget (fun _ => []) s.pkgArrived (g - 32)
     let es := if ds.contains die then ds else ds ++ [die]
     ((∀ d, d < 8 → bitOf (s.fld .die 1 (R.PBAR_DIES (g - 32))) d = true → d ∈ es) →
       exec (.packageBarrierArrival die g gen) s = .next (groupArrived { u with pkgArrived := mput (fun _ => []) s.pkgArrived (g - 32) [] } (g - 32) gen)) ∧
     (∀ d, d < 8 → bitOf (s.fld .die 1 (R.PBAR_DIES (g - 32))) d = true → d ∉ es →
       exec (.packageBarrierArrival die g gen) s = .next { u with pkgArrived := mput (fun _ => []) s.pkgArrived (g - 32) es })) ∧
   (∀ (s : State) (t c g gen : Nat), s.tstate t ≠ fenced →
     exec (.barrierRelease t c g gen) s = .next (settle ((s.unwire (.release t c g gen)).setTf t (R.TBAR_DONEGEN c g) gen) t)) ∧
   (∀ (s : State) (g n : Nat) (b : DevBar), devBar s g = some b → b.own = false → isNorm s g = true → endpointLd s = some n →
     let u := markEndpoint s n
     let r := ownRecord u
     let v := if r.nans > 0 then u.logOp 0x0530 r.step else u
     let w := if r.clamps > 0 then v.logOp 0x0820 r.step else v
     exec (.normGroupComplete g) s = .next (tryBar (setBar w { b with own := true, norm := some r.bytes }) g)) ∧
   (∀ (s : State) (die g gen : Nat), let u := releaseDie s die g gen
     (∀ t c, t / 256 = die → c < 2 → s.tf t (R.TBAR_MEMBER c g) = 1 → Wire.release t c g gen ∈ u.wires) ∧ u = { s with wires := u.wires } ∧
     ∀ t c, Wire.release t c g gen ∈ u.wires → Wire.release t c g gen ∈ s.wires ∨ t / 256 = die ∧ c < 2 ∧ s.tf t (R.TBAR_MEMBER c g) = 1))

/-- R228, R633, R636: CSIG signals its counter once with OK; the counter rises by 1 modulo 2³², `CNTLAST` names the engine and the instruction, and the status stays. R233, R234: a signal that would break its counter's bound stalls while a wait or an instruction on the partner may release it, and is otherwise lost with a COUNTER fault; a stalled
one is applied once the bound allows it, and is lost once nothing can release it. -/
def Obligations.CounterSignal : Prop :=
  ((∀ (s : State) (t : Nat) (f : FmtC) (e : Engine), Quiet s t → f = { cZero with cnt := f.cnt, eng := f.eng } → engOf f.eng.toNat = some e → hasEngine t e = true →
     let u := dispatched s t e (.csig t f)
     overBound u t (s.actx t) f.cnt.toNat = false →
     exec (.csig t f) s = .next (settle (applySignal u t (s.actx t) f.cnt.toNat stOK e (issuePc s t)) t)) ∧
   (∀ (s : State) (t c n code pc : Nat) (e : Engine), c < 2 → n < 64 → pc < 2 ^ 21 → code < 16 →
     let u := applySignal s t c n code e pc
     cntVal u t c n = (cntVal s t c n + 1) % 2 ^ 32 ∧ u.tf t (R.CNTLAST_PC c n) = pc ∧ u.tf t (R.CNTLAST_ENGINE c n) = engCode e ∧
     u.tf t (R.CNTST_WORST c n) = (if code = stOK then s.tf t (R.CNTST_WORST c n) else max (s.tf t (R.CNTST_WORST c n)) code) ∧
     u.tf t (R.CNTST_ERRS c n) = (if code = stOK then s.tf t (R.CNTST_ERRS c n) else satAdd (s.tf t (R.CNTST_ERRS c n)) 1 0xFFFF) ∧
     ∀ k, k < 64 → k ≠ n → cntVal u t c k = cntVal s t c k ∧ cntVal u t (1 - c) k = cntVal s t (1 - c) k)) ∧
  ((∀ (s : State) (t c n code pc : Nat) (e : Engine),
     (overBound s t c n = false → signal s t c n code e pc = applySignal s t c n code e pc) ∧
     (overBound s t c n = true → stallLives s t c n = true →
       signal s t c n code e pc = s.modTile t fun x => { x with stalled := x.stalled ++ [{ ctx := c, cnt := n, code := code, eng := e, pc := pc }] }) ∧
     (overBound s t c n = true → stallLives s t c n = false → signal s t c n code e pc = progFault s t fCOUNTER pc 0)) ∧
   (∀ (s : State) (t : Nat) (st : Stalled) (rest : List Stalled), s.tstate t ≠ fenced → (s.tile t).stalled = st :: rest →
     (overBound s t st.ctx st.cnt = false → exec (.stalledSignalApply t) s =
       .next (settle (applySignal (s.modTile t fun x => { x with stalled := rest }) t st.ctx st.cnt st.code st.eng st.pc) t)) ∧
     (overBound s t st.ctx st.cnt = true → stallLives s t st.ctx st.cnt = false → exec (.stalledSignalFault t) s =
       .next (settle (progFault (s.modTile t fun x => { x with stalled := rest }) t fCOUNTER st.pc 0) t))))

/-- R647, R648, R75, R78, R83, R84: SOAK calls the clock up, passes at full density and otherwise waits for it in its engine; TRAP records its code and raises TRAP. A program fault sets the fault's bit, halts
the tile, discards its queues, and names the first fault with its instruction and address. -/
def Obligations.SoaksAndTraps : Prop :=
  (∀ (s : State) (t : Nat) (f : FmtC), Quiet s t → f = { cZero with imm := f.imm } →
    let e := if classOf t = 0 then Engine.me else Engine.ve
    let u := dispatched s t e (.soak t f)
    let v := clockUp u t
    ((v.tile t).phase = .full → exec (.soak t f) s = .next (settle v t)) ∧
    ((v.tile t).phase ≠ .full → exec (.soak t f) s = .next (settle (addFlight v t
      { id := (s.tile t).nextId, eng := e, ctx := s.actx t, pc := issuePc s t, foot := {}, cnt := none, kind := .soak f.imm.toNat }) t)) ∧
    exec (.trap t f) s = .next (settle (progFault ((advance s t).setTf t R.TFAULT_TRAPCODE f.imm.toNat) t fTRAP (issuePc s t) 0) t)) ∧
  (∀ (s : State) (t bit pc daddr : Nat), t < 2048 → s.tstate t ≠ fenced → bit < 14 → bit ≠ fWATCHDOG → pc < 2 ^ 21 → daddr < 2 ^ 40 →
    let u := progFault s t bit pc daddr
    bitOf (u.reg (regAddr .tile t R.TFAULT)).toNat bit = true ∧ u.tf t R.TSTAT_HALTED = 1 ∧ u.tstate t = s.tstate t ∧
    (u.tile t).queue = [] ∧ (u.tile t).held = none ∧ (u.tile t).gate = [] ∧ (u.tile t).flights = (s.tile t).flights.filter (fun f => f.eng ≠ .me) ∧
    (s.tf t R.TFAULT_FIRST = 0 → u.tf t R.TFAULT_FIRST = bit + 1 ∧ u.tf t R.TFADDR_PC = pc ∧ u.tf t R.TFADDR_DADDR = daddr) ∧
    (s.tf t R.TFAULT_FIRST ≠ 0 → u.tf t R.TFAULT_FIRST = s.tf t R.TFAULT_FIRST ∧ u.reg (regAddr .tile t R.TFADDR) = s.reg (regAddr .tile t R.TFADDR)) ∧
    u.mem = s.mem ∧ ∀ k, k ≠ t → u.tile k = s.tile k) ∧
  (∀ (s : State) (t bit pc daddr : Nat), s.tstate t = fenced → progFault s t bit pc daddr = s)

/-- R48, R106, R107, R619: the sequencer fetches the row of the next instruction without an error, or records one that the second read does not find, or fences the tile for one that it
finds again; a word that is no instruction raises ILLEGAL, a row of a group that is not ON or not the context's ACCESS (R105). A queue's head that nothing keeps leaves it and takes effect: an
SALU writes its result. -/
def Obligations.FetchAndDispatch : Prop :=
  (∀ (s : State) (t pc : Nat), canIssue s t = true →
    let c := s.actx t
    let i := ((s.tile t).ctx c).idx
    let w := BitVec.ofNat 64 (ofBytes (s.rd (spadAddr t pc) 8))
    let got := fun u : State => u.modTile t fun x => { x with fbuf := (x.fbuf.filter fun e => e.1 / 8 ≠ i / 8).drop (x.fbuf.length - 8) ++ fetchRow s t c i }
    progOffset s t c i = some pc →
    (groupsOk s t c pc 8 = true →
      (∀ o, (decodeInstr t w).isSome = true → exec (.sequencerFetch t .clean) s = .next (got s) ∧
        exec (.sequencerFetch t (.recovered o)) s = .next (got (parityEffect s t pc (.recovered o)))) ∧
      ((decodeInstr t w).isSome = false → exec (.sequencerFetch t .clean) s = .next (settle (progFault (got s) t fILLEGAL pc 0) t)) ∧
      (∀ o, exec (.sequencerFetch t (.unrecovered o)) s = .next (hardFault (noteRow s t o) t fPARITY pc (spadAddr t (o / 64 * 64))))) ∧
    (groupsOk s t c pc 8 = false → ∀ par, exec (.sequencerFetch t par) s = .next (settle (progFault s t fACCESS pc (spadAddr t pc)) t))) ∧
  (∀ (s : State) (t : Nat) (e : Engine) (q : Queued) (rest : List Queued), s.tstate t ≠ fenced → s.tf t R.TSTAT_HALTED = 0 → (s.tile t).queue = q :: rest → q.eng = e →
    canDispatch s t q = true →
    let u := s.modTile t fun x => { x with queue := x.queue.filter fun p => p.id ≠ q.id }
    exec (.engineDispatch t e .clean) s = .next (settle (nextHead (effOf q.instr q (clockLanes u t e)) t e) t) ∧
    (∀ f : FmtS3, q.instr = .salu t f → e = .sc → lane0 s t q.ctx f.pred = true → exec (.engineDispatch t e .clean) s =
      .next (settle (setS u t q.ctx f.rd.toNat (saluOp f.func.toNat (rs s t q.ctx f.ra.toNat) (rs s t q.ctx f.rb.toNat))) t)) ∧
    (∀ f : FmtS3, q.instr = .salu t f → e = .sc → lane0 s t q.ctx f.pred = false → exec (.engineDispatch t e .clean) s = .next (settle u t)))

/-! ### The DMA engine -/

/-- R661, R665–R670: a DMA instruction of a quiet tile whose descriptor and ranges pass their checks starts its transfer, with the registers that it reads
beside the descriptor; one whose check fails raises the fault that the check names. R339, R661: a transfer that has nothing left to do lands a conversion's result,
whose NaN and infinite sources a class G slot counts (R201), and signals its counter with the worst status of its parts. -/
def Obligations.TransfersDispatch : Prop :=
  (∀ (s : State) (t : Nat) (f : FmtD) (o : Nat), Quiet s t → waitMet s t f.wait = true → f.pred = 0 → f.idx = 0 →
     let c := s.actx t
     let d := readDesc s t o
     let args := fun (op : Nat) => dmaArgs op f d ((dmaVals op f d).map fun n => rs s t c n)
     let goes := fun (op : Nat) (i : Instr) =>
       let u := dispatched s t .dm i
       (∀ l, dmaPlan u t c (args op) = .ok l → exec i s = .next (settle (dmaStart u t c (issuePc s t) (s.tile t).nextId (args op) l) t)) ∧
       (∀ b x, dmaPlan u t c (args op) = .error (b, x) → exec i s = .next (settle (progFault u t b (issuePc s t) x) t))
     localWin s t c f.a.toNat (offD f) 32 = .ok o →
     (f.mod = 0 → (dmaRegOk 0 f d = true → goes 0 (.dmal t f)) ∧ (dmaRegOk 1 f d = true → goes 1 (.dmas t f)) ∧ (dmaRegOk 2 f d = true → goes 2 (.dmar t f)) ∧
       (dmaRegOk 5 f d = true → goes 5 (.dmaf t f))) ∧
     (f.mod.toNat < 2 → dmaRegOk 3 f d = true → goes 3 (.dmaw t f))) ∧
  (∀ (s : State) (t : Nat) (f : Flight) (fs : List Flight) (j : DmaJob), s.tstate t ≠ fenced → (s.tile t).flights = f :: fs → f.kind = .dma j → j.done = true →
     let d := j.desc
     let done := fun (s : State) => settle (dmaPump (complete (dropFlight s t f.id) t f.ctx d.cnt j.worst .dm f.pc) t) t
     (j.op ≠ 0 ∨ d.conv = false ∨ d.len = 0 ∨ j.worst ≠ stOK → exec (.dmaComplete t f.id) s = .next (done s)) ∧
     (j.op = 0 → d.conv = true → d.len ≠ 0 → j.worst = stOK → exec (.dmaComplete t f.id) s = .next (done (landConv s t f.ctx d
       (assemble (planeOff d.len d.form + cdiv (elemsIn d.sfmt d.len) 32) j.buf))))) ∧
  (∀ (s : State) (t c : Nat) (d : Desc) (bs : List Byte),
     let u := ownWr s t (d.dst - spadAddr t 0) (loadConv d bs)
     let bad := ((loadVals d bs).filter fun x => !x.isFin).length
     landConv s t c d bs = if d.cls = 2 ∧ 0 < bad then slotUpdate u t c d.slot none 0 bad else u)

/-- R382, R383, R391, R441, R457, R661, R665, R666, R670: how each kind of transfer starts: nothing to move completes at once; a load and a remote read ask for their
pieces; a store asks for the writes of its blocks in their form, converted with CONV; a bucket reads its errors first; a write sends its packets; a DMAF its landed rows. -/
def Obligations.TransferForms : Prop :=
  ∀ (s : State) (t c pc id : Nat) (a : DmaArgs) (l : List Range),
    let d := a.d
    let src := ownRd s t (d.src - spadAddr t 0) d.len
    let j : DmaJob := { op := a.op, desc := d, base := a.base, ein := a.ein, eout := a.eout }
    let offs := fun (x n : Nat) => (pieces4k x n).map fun (p, k) => (p, k, p - x)
    let go := fun (s : State) (j : DmaJob) => dmaPump (addFlight s t (dmaFlight c pc id d (l.filter fun r => r.write) j)) t
    (d.len = 0 → dmaStart s t c pc id a l = go s { j with op := 0, ready := true }) ∧
    (d.len ≠ 0 →
      (a.op = 0 → d.conv = false → dmaStart s t c pc id a l = go s { j with ready := true, toRead := offs d.src d.len }) ∧
      (a.op = 0 → d.conv = true → 
        let plane := (offs (d.src + planeOff d.len d.form) (cdiv (elemsIn d.sfmt d.len) 32)).map fun (p, k, o) => (p, k, planeOff d.len d.form + o)
        dmaStart s t c pc id a l = go s { j with ready := true, toRead := offs d.src d.len ++ plane }) ∧
      (a.op = 1 → bucketStore 1 d = false → d.form ≠ 2 → d.conv = false →
        dmaStart s t c pc id a l = go s { j with ready := true, toWrite := storeReqs d.dst d.form (fmtWidth d.sfmt) src }) ∧
      (a.op = 1 → bucketStore 1 d = false → d.form ≠ 2 → d.conv = true →
        let r := storeConv s t c d a.base src
        let ws := storeReqs d.dst d.form (fmtWidth d.tfmt) r.1 ++ storeReqs (d.dst + planeOff r.1.length d.form) 0 0 r.2.1
        dmaStart s t c pc id a l = go r.2.2 { j with ready := true, toWrite := ws }) ∧
      (a.op = 1 → bucketStore 1 d = false → d.form = 2 → dmaStart s t c pc id a l =
        match rgStore (fun o n => ownRd s t (d.src - spadAddr t 0 + o) n) (Config.rgcsr d.w0.toNat d.w1.toNat d.w2.toNat d.w3.toNat) with
        | some bs => go s { j with ready := true, toWrite := blockReqs d.dst bs }
        | none => go s { j with ready := true, worst := stACCESS }) ∧
      (a.op = 1 → bucketStore 1 d = true → kindAt s a.ein d.len = .hbm → dmaStart s t c pc id a l = go s { j with src := src, toRead := offs a.ein d.len }) ∧
      (a.op = 1 → bucketStore 1 d = true → kindAt s a.ein d.len ≠ .hbm →
        let f := dmaFlight c pc id d (l.filter fun r => r.write) { j with src := src }
        dmaStart s t c pc id a l = dmaPump (bucketGo (addFlight s t f) t f { j with src := src }) t) ∧
      (a.op = 2 → d.dev = s.ownDev ∨ cxtReaches s d.dev = true → dmaStart s t c pc id a l = go s { j with ready := true, toRead := offs d.src d.len }) ∧
      (a.op = 2 → d.dev ≠ s.ownDev → cxtReaches s d.dev = false → dmaStart s t c pc id a l = go s { j with ready := true, worst := stADDRESS }) ∧
      (a.op = 3 → a.jw = false → dmaStart s t c pc id a l = sendWrites s t c pc .dm d.cnt none d.dev d.dst d.epoch d.wq src) ∧
      (a.op = 3 → a.jw = true → dmaStart s t c pc id a l = sendJwrites s t c pc d.cnt none d.dev d.dst src) ∧
      (a.op = 5 → dmaStart s t c pc id a l =
        dmafForward (addFlight s t (dmaFlight c pc id d (l.filter fun r => !r.write) { j with ready := true })) t))

/-- R115, R667: a write to a tile of the same device leaves as one packet for each row that it touches, under one tag, and awaits as many answers; the packets carry all of the data in
order, those whose way takes a die link that is down are lost (R322), and no register and no other tile changes. -/
def Obligations.WritePackets : Prop :=
  ∀ (s : State) (t c pc : Nat) (e : Engine) (cnt grp : Option Nat) (dev addr epoch wq : Nat) (data : List Byte), data ≠ [] → dev = s.ownDev →
    let u := sendWrites s t c pc e cnt grp dev addr epoch wq data
    let ps := rowPieces addr data.length
    u = { s with tiles := u.tiles, wires := u.wires } ∧ (∀ k, k ≠ t → u.tile k = s.tile k) ∧
    u.wires = s.wires ++ (ps.map fun p =>
      Wire.write ((addr - spadAddr 0 0) / 0x20_0000) ⟨p.1, (data.drop (p.1 - addr)).take p.2, tileSender s t, epoch, (s.tile t).nextTag⟩).filter
        (fun w => (wireLinks s w).all (linkTakes s)) ∧
    (ps.map fun p => (data.drop (p.1 - addr)).take p.2).flatten = data ∧ (∀ p ∈ ps, 0 < p.2 ∧ p.2 ≤ 64 ∧ p.1 / 64 = (p.1 + p.2 - 1) / 64) ∧
    (u.tile t).outst = (s.tile t).outst ++ [{ tag := (s.tile t).nextTag, ctx := c, pc := pc, eng := e, left := ps.length, worst := stOK, cnt := cnt, chan := none,
                                               units := 0, grp := grp, addr := addr }]

/-- R432, R668: a DMAM whose targets all pass their checks serves them in the order of its list, and completes after the last. R669: DMAX holds the DM engine with its list and value, or does nothing where the list is empty; DMAX_ENTRY runs the next entry once its wait is satisfied and the engine has room. -/
def Obligations.ListedTransfers : Prop :=
  (∀ (s : State) (t : Nat) (f : FmtD) (o src lst : Nat), Quiet s t → waitMet s t f.wait = true → f.pred = 0 → f.idx.toNat < 8 → f.reg = 0 → f.mod = 0 →
     let c := s.actx t
     let d := readDesc s t o
     let id := (s.tile t).nextId
     let u := dispatched s t .dm (.dmam t f)
     let es := dmamTargets u t lst (f.idx.toNat + 1)
     localWin s t c f.a.toNat (offD f) 32 = .ok o → dmamPlan u t c (f.idx.toNat + 1) d = .ok (src, lst) → es.all (fun e => (dmamFault u t c d e).isNone) = true →
     exec (.dmam t f) s = .next (settle (dmamEnd (es.foldl (dmamServe t c (issuePc s t) (id + 1) d (ownRd u t src d.len))
       (addFlight u t { id := id, eng := .dm, ctx := c, pc := issuePc s t, foot := {}, cnt := d.cnt, kind := .dma { op := 6, desc := d } })) t c (issuePc s t) id d) t)) ∧
  ((∀ (s : State) (t : Nat) (f : FmtD), Quiet s t → waitMet s t f.wait = true → f.pred = 0 → f.idx = 0 → f.mod = 0 →
     let c := s.actx t
     let v := rs s t c f.reg.toNat
     let u := dispatched s t .dm (.dmax t f)
     (wget v 15 0 = 0 → exec (.dmax t f) s = .next (settle u t)) ∧
     (wget v 15 0 ≠ 0 → ∀ o, localWin s t c f.a.toNat (offD f) (32 * wget v 15 0) = .ok o →
       let foot : Foot := { ranges := [⟨o, 32 * wget v 15 0, false⟩] }
       exec (.dmax t f) s = .next (settle (addFlight u t
         { id := (s.tile t).nextId, eng := .dm, ctx := c, pc := issuePc s t, foot := foot, cnt := none, kind := .dmax (wget v 15 0) o (wget v 63 32) }) t))) ∧
   (∀ (s : State) (t : Nat) (f : Flight) (fs : List Flight) (rest next v0 : Nat), s.tstate t ≠ fenced → (s.tile t).flights = f :: fs → f.kind = .dmax rest next v0 →
     let d := readDesc s t next
     d.legal = true → d.wen = false ∨ satisfied (cntVal s t f.ctx d.wcnt) ((v0 + d.winc) % 2 ^ 32) = true → dmRoom (s.tile t) = true → fs.any Flight.asks = false →
     let left := fun (k : Nat) => if rest ≤ k then dropFlight s t f.id
       else s.modTile t fun x => { x with flights := x.flights.map fun g => if g.id = f.id then { g with kind := .dmax (rest - k) (next + 32 * k) v0 } else g }
     let runs := fun (k : Nat) (a : DmaArgs) (l : List Range) => dmaPlan s t f.ctx a = .ok l →
       exec (.dmaxEntry t) s =
         .next (settle (dmaStart ((left k).modTile t fun x => { x with nextId := x.nextId + 1 }) t f.ctx f.pc (s.tile t).nextId a []) t)
     (d.kind ≠ 4 → d.kind ≤ 5 → bucketStore d.kind d = false → (d.kind < 2 → d.conv = false) →
       ∀ l, runs 1 { op := d.kind, jw := false, d := d, base := 0, ein := 0, eout := 0 } l) ∧
     (d.kind < 2 → bucketStore d.kind d = true ∨ d.conv = true → 2 ≤ rest → ∀ x l, extOf (bucketStore d.kind d) (readDesc s t (next + 32)) = some x →
       runs 2 { op := d.kind, jw := false, d := d, base := x.1, ein := x.2.1, eout := x.2.2 } l) ∧
     (d.kind = 4 → ∀ src, sendCheck s t f.ctx d.chan d = .ok src → s.tf t (R.CHROUTE_CLOSED d.chan) = 0 →
       let pay := if carriesPayload s t d.chan then ownRd s t src d.len else []
       creditOk s t d.chan pay.length = true →
       exec (.dmaxEntry t) s = .next (settle (injectMsg (left 1) t f.ctx f.pc .dm none stOK d.chan d pay) t))))

/-! ### The vector engine and the cone -/

/-- R656, R673: VOP writes the operation's result, rounded as its type says, into the elements whose lane the predicate enables; the others, every other register, memory and
every other tile stay. -/
def Obligations.VectorElements : Prop :=
  ∀ (s : State) (t : Nat) (f : FmtS3), Quiet s t → waitMet s t f.wait = true → vopLegal t f = true →
    let c := s.actx t
    let op := f.func.toNat % 32
    let ty := f.func.toNat / 32
    let el := fun (r : BitVec 6) (i : Nat) => vElem (rv s t c r.toNat) (tySize ty) i
    ∃ u, exec (.vop t f) s = .next u ∧
      (∀ i, i < elemCount t ty → vElem (rv u t c f.rd.toNat) (tySize ty) i =
        if laneOn (rp s t c f.pred.toNat) (laneOf ty i) then
          vopElem op ty (el f.ra i) (el f.rb i) (el f.rc i) (laneOn (rp s t c (f.rc.toNat % 8)) (laneOf ty i)) % 2 ^ (8 * tySize ty)
        else el f.rd i) ∧
      (∀ n, n ≠ f.rd.toNat → rv u t c n = rv s t c n) ∧ (∀ n, rs u t c n = rs s t c n ∧ ra u t c n = ra s t c n ∧ rp u t c n = rp s t c n) ∧
      u = { s with regs := u.regs, tiles := u.tiles, gov := u.gov } ∧ (∀ a, a ≠ regAddr .tile t R.TSTAT → u.reg a = s.reg a) ∧
      ∀ k, k ≠ t → u.tile k = s.tile k

/-- R656, R674–R676: VCMP writes the predicate bits of its enabled lanes, VRED the value that its tree of operations gives, VMOVX a scalar into its enabled elements or the element that it
selects into a scalar. -/
def Obligations.VectorMoves : Prop :=
  ∀ (s : State) (t : Nat), Quiet s t →
    let c := s.actx t
    (∀ f : FmtS3, waitMet s t f.wait = true → f.func.toNat / 32 < 4 → (f.func.toNat / 32 = 2 → classOf t = 1) → bits f.func.toNat 4 3 = 0 → f.func.toNat % 8 < 6 →
      f.z = 0 → f.rc = 0 → f.rd.toNat < 8 → f.ra.toNat < 32 → f.rb.toNat < 32 →
      let ty := f.func.toNat / 32
      let el := fun (r : BitVec 6) (i : Nat) => tyVal ty (vElem (rv s t c r.toNat) (tySize ty) i)
      ∃ u, exec (.vcmp t f) s = .next u ∧ (∀ i, i < lanesOf t → f.rd ≠ 0 →
        laneOn (rp u t c f.rd.toNat) i = if laneOn (rp s t c f.pred.toNat) (if ty = 2 then i / 2 * 2 else i) then
          (let e := if ty = 1 then 2 * i else if ty = 2 then i / 2 else i
           vcmpNum (f.func.toNat % 8) (el f.ra e) (el f.rb e))
          else laneOn (rp s t c f.rd.toNat) i)) ∧
    (∀ f : FmtS3, waitMet s t f.wait = true → f.func.toNat / 32 < 4 → (f.func.toNat / 32 = 2 → classOf t = 1) → bits f.func.toNat 4 2 = 0 → f.func.toNat % 4 < 3 →
      f.z = 0 → f.rb = 0 → f.rc = 0 → f.ra.toNat < 32 →
      exec (.vred t f) s = .next (settle (setS (dispatched s t .ve (.vred t f)) t c f.rd.toNat
        (.ofNat 64 (vredVal t (f.func.toNat % 4) (f.func.toNat / 32) (rp s t c f.pred.toNat) (rv s t c f.ra.toNat)))) t)) ∧
    (∀ f : FmtSI, vmovxLegal t f = true →
      let u := dispatched s t .ve (.vmovx t f)
      let ty := if f.func = 1 ∨ f.func = 3 then 2 else 0
      let p := rp s t c f.pred.toNat
      (f.func.toNat < 2 → exec (.vmovx t f) s = .next (settle (setV u t c f.rd.toNat (mergeElems t ty p (vElems t ty (rv s t c f.rd.toNat))
        (List.replicate (elemCount t ty) (rs s t c f.ra.toNat).toNat))) t)) ∧
      (¬ f.func.toNat < 2 → laneOn p (laneOf ty f.imm.toNat) = true →
        exec (.vmovx t f) s = .next (settle (setS u t c f.rd.toNat (.ofNat 64 (vElem (rv s t c f.ra.toNat) (tySize ty) f.imm.toNat))) t)) ∧
      (¬ f.func.toNat < 2 → laneOn p (laneOf ty f.imm.toNat) = false → exec (.vmovx t f) s = .next (settle u t)))

/-- R656, R671, R672: VLD and VLDX load the enabled elements of a vector register, VST and VSTX store them, in ascending order; under a predicate that enables no lane a load or
store checks nothing and does nothing. -/
def Obligations.VectorMemory : Prop :=
  ∀ (s : State) (t : Nat), Quiet s t →
    let c := s.actx t
    (∀ f : FmtSI, f.ra.toNat < 16 → f.rd.toNat < 32 → f.func = 0 →
      let p := rp s t c f.pred.toNat
      let v := rv s t c f.rd.toNat
      let ul := dispatched s t .ve (.vld t f)
      let us := dispatched s t .ve (.vst t f)
      (anyLane t p = false → exec (.vld t f) s = .next (settle ul t) ∧ exec (.vst t f) s = .next (settle us t)) ∧
      (∀ o, anyLane t p = true → vecAt ul t c f false = .ok o →
        exec (.vld t f) s = .next (settle (setV ul t c f.rd.toNat (mergeElems t 0 p (vElems t 0 v) (vElems t 0 (vOfBytes (ownRd ul t o (vbytes t)))))) t)) ∧
      (∀ o, vecAt us t c f true = .ok o → (∀ i, i < lanesOf t → laneOn p i = true) → exec (.vst t f) s = .next (settle (ownWr us t o (toBytes v.toNat (vbytes t))) t)) ∧
      (∀ o i, vecAt us t c f true = .ok o → i < lanesOf t → laneOn p i = false → anyLane t p = true → exec (.vst t f) s =
        .next (settle ((List.range (lanesOf t)).foldl (fun s i => if laneOn p i then ownWr s t (o + 4 * i) (toBytes (vElem v 4 i) 4) else s) us) t))) ∧
    (∀ f : FmtS3, waitMet s t f.wait = true → f.func.toNat < 2 → (f.func = 1 → classOf t = 1) → f.z = 0 → f.rc = 0 → f.ra.toNat < 16 → f.rb.toNat < 32 → f.rd.toNat < 32 →
      let n := tySize (if f.func = 1 then 2 else 0)
      let ul := dispatched s t .ve (.vldx t f)
      let us := dispatched s t .ve (.vstx t f)
      (∀ l, idxElems ul t c f false = .ok l → exec (.vldx t f) s = .next (settle (setV ul t c f.rd.toNat
        (vOfElems n (l.foldl (fun a (j, o) => a.set j (ofBytes (ownRd ul t o n))) (vElems t (if f.func = 1 then 2 else 0) (rv s t c f.rd.toNat))))) t)) ∧
      (∀ l, idxElems us t c f true = .ok l → exec (.vstx t f) s = .next (settle (l.foldl (fun u (j, o) =>
        ownWr u t o (toBytes (vElem (rv s t c f.rd.toNat) n j) n)) us) t)))

/-- R658, R677, R183, R185: VCVT without a fault converts the values of its source: a wide target takes each value rounded under the mode that s[RC] or the slot's class gives and leaves the
bytes beyond its elements open, a narrow one the codes of its blocks, whose scale bytes enter s[RB] and, beyond eight, the register after it. -/
def Obligations.VectorConverts : Prop :=
  ∀ (s : State) (t : Nat) (f : FmtS3), Quiet s t → waitMet s t f.wait = true → vcvtLegal t f = true →
    let c := s.actx t
    let src := f.func.toNat % 16
    let dst := f.func.toNat / 16
    let w := rs s t c f.rc.toNat
    let slot := wget w 4 0
    let n := cvtCount t src dst
    let blocks := vcvtBlocks t src dst (rv s t c f.ra.toNat)
      ((rs s t c f.rb.toNat).toNat + (if n / 32 > 8 then (rs s t c (f.rb.toNat + 1)).toNat * 2 ^ 64 else 0))
    let d := dispatched s t .ve (.vcvt t f)
    let u := if wget w 8 8 = 1 then vcvtCone d t c (issuePc s t) blocks else d
    vcvtFault d t c src dst w = none →
    (isNarrow dst = false →
      let xs := blocks.flatten
      let v := if wget w 5 5 = 1 ∧ u.tf t (R.NSLOT_CLASS c slot) = 2 then slotUpdate u t c slot none 0 (xs.filter fun x => !x.isFin).length else u
      let out := xs.zipIdx.map fun (x, i) => match fmtOf dst with
        | some g => (g.round (vcvtRnd v t c src w i) x).1
        | none => toInt8 x
      let bs := packCodes dst out
      (vbytes t ≤ bs.length → exec (.vcvt t f) s = .next (settle (setV v t c f.rd.toNat (vOfBytes bs)) t)) ∧
      (bs.length < vbytes t → ∃ tail : List Byte, tail.length = vbytes t - bs.length ∧
        exec (.vcvt t f) s = .next (settle (setV { v with fresh := v.fresh + 1 } t c f.rd.toNat (vOfBytes (bs ++ tail))) t))) ∧
    (isNarrow dst = true →
      let outs := blocks.zipIdx.map fun (xs, j) => slotConvert u t c slot dst (wget w 63 16 + j) xs
      let v := setV (outs.foldl (fun s b => slotCount s t c slot b) u) t c f.rd.toNat (vOfBytes (packCodes dst (outs.map BlockOut.codes).flatten))
      ∃ z, exec (.vcvt t f) s = .next (settle z t) ∧ (∀ r, rv z t c r = rv v t c r) ∧ z.fresh = v.fresh + 1 ∧ (∀ a, z.reg a = v.reg a) ∧ (∀ a, z.byte a = v.byte a) ∧
        (∀ r, r ≠ f.rb.toNat → (outs.length ≤ 8 ∨ r ≠ f.rb.toNat + 1) → rs z t c r = rs s t c r) ∧
        ((rs z t c f.rb.toNat).toNat + (if outs.length > 8 then (rs z t c (f.rb.toNat + 1)).toNat * 2 ^ 64 else 0)) % 2 ^ (8 * outs.length) =
          (outs.zipIdx.foldl (fun a (b, j) => a + b.scale * 2 ^ (8 * j)) 0) % 2 ^ (8 * outs.length))

/-- R678, R685–R688, R208, R209: AMAX writes the exponent of the largest magnitude of its values, which SLOT also notes; CONE reads its records, and its end counts every sample
where the cone is enabled and signals its counter. -/
def Obligations.MaximaAndCones : Prop :=
  (∀ (s : State) (t : Nat) (f : FmtM), Quiet s t → waitMet s t f.wait = true → f.pred = 0 → f.b = 0 → f.c = 0 →
    let c := s.actx t
    let x := rs s t c f.rx.toNat
    let u := dispatched s t .ve (.amax t f)
    let v := dispatched s t .ve (.cone t f)
    (f.cnt = 0 → f.mod.toNat < 64 → wget x 35 32 < 3 → (wget x 35 32 = 2 → classOf t = 1) →
      ∀ o, localWin s t c f.a.toNat 0 (fmtBytes (wget x 35 32) (wget x 31 0)) = .ok o →
      let e := amaxExp (unpackNums (wget x 35 32) (wget x 31 0) (ownRd u t o (fmtBytes (wget x 35 32) (wget x 31 0))))
      let z := setS u t c f.ry.toNat (.ofInt 64 (e.getD (-128)))
      exec (.amax t f) s = .next (settle (if bitOf f.mod.toNat 5 then slotUpdate z t c (f.mod.toNat % 32) e 0 0 else z) t)) ∧
    (classOf t = 1 → bits f.mod.toNat 6 0 = 0 → cntLegal f = true → rs s t c f.ry.toNat = 0 →
      ∀ o, localWin s t c f.a.toNat 0 (80 * wget x 31 0) = .ok o →
      exec (.cone t f) s = .next (settle (addFlight v t { id := (s.tile t).nextId, eng := .ve, ctx := c, pc := issuePc s t, foot := {}, cnt := cntM f,
                                                           kind := .cone (ownRd v t o (80 * wget x 31 0)) }) t))) ∧
  (∀ (s : State) (t : Nat) (f : Flight) (fs : List Flight) (bs : List Byte), s.tstate t ≠ fenced → (s.tile t).flights = f :: fs → f.kind = .cone bs →
    let rs := (chunks 80 bs).map coneRec
    let u := dropFlight s t f.id
    (s.tf t (R.CONECFG_EN f.ctx) = 1 → exec (.coneComplete t) s =
      .next (settle (complete ((rs.filter fun r => r.kind == 3).foldl (fun s r => countRecord s t f.ctx rs r) u) t f.ctx f.cnt stOK .ve f.pc) t)) ∧
    (s.tf t (R.CONECFG_EN f.ctx) ≠ 1 → exec (.coneComplete t) s = .next (settle (complete u t f.ctx f.cnt stOK .ve f.pc) t)))

/-! ### The matrix engine -/

/-- R146, R140, R679: MGANG sets the gang's mode, fill and deadline, and the panels, accumulators and marks read as zero; a fill outside 1 to 64 raises GANG. R681, R144: MPANEL reads its panel set, and its end puts it in the slot and makes that slot the last one loaded. -/
def Obligations.GangSetsAndPanelsLoad : Prop :=
  (∀ (s : State) (t : Nat) (f : FmtSI), Quiet s t → classOf t = 0 → f.pred = 0 → f.rd = 0 → f.ra = 0 → f.func = 0 → f.imm.toNat < 2 ^ 25 →
     let c := s.actx t
     let u := dispatched s t .me (.mgang t f)
     let fill := bits f.imm.toNat 8 2
     (fill = 0 ∨ 64 < fill → exec (.mgang t f) s = .next (settle (progFault u t fGANG (issuePc s t) 0) t)) ∧
     (0 < fill → fill ≤ 64 → ∃ v, exec (.mgang t f) s = .next (settle v t) ∧
       v.tf t (R.MGANG_MODE c) = bits f.imm.toNat 1 0 ∧ v.tf t (R.MGANG_FILL c) = fill ∧ v.tf t (R.MGANG_DEADLINE c) = bits f.imm.toNat 24 9 ∧
       v.tile t = zeroArray (u.tile t) ∧ (∀ a, a ≠ regAddr .tile t (R.MGANG c) → v.reg a = u.reg a) ∧ (∀ k, k ≠ t → v.tile k = u.tile k) ∧
       v = { u with regs := v.regs, tiles := v.tiles })) ∧
  ((∀ (s : State) (t : Nat) (f : FmtM) (l : List Machine.Range), Quiet s t → classOf t = 0 → waitMet s t f.wait = true → f.pred = 0 → f.a = 0 → bits f.mod.toNat 6 1 = 0 → cntLegal f = true →
     let c := s.actx t
     let x := rs s t c f.rx.toNat
     let fmt := wget (rs s t c f.ry.toNat) 3 0
     let u := dispatched s t .me (.mpanel t f)
     mpanelPlan u t c (gangMode u t c) f x (rs s t c f.ry.toNat) = .ok l →
     let at_ := fun (i : Nat) => match l[i]? with | some (r : Machine.Range) => panelAt (gangMode u t c) fmt 1 0 (ownRd u t r.lo r.len) | none => ([], [])
     let ps : PanelSet := { fmt := fmt, low := (at_ 0).1, high := (at_ 1).1, lowScale := (at_ 0).2, highScale := (at_ 1).2 }
     exec (.mpanel t f) s = .next (settle (addFlight u t { id := (s.tile t).nextId, eng := .me, ctx := c, pc := issuePc s t, foot := {}, cnt := cntM f,
                                                            kind := .mpanel (slotKey2 (gangMode u t c) (wget x 37 36) (f.mod.toNat % 2)) ps }) t)) ∧
   (∀ (s : State) (t : Nat) (f : Flight) (fs : List Flight) (k : Nat) (ps : PanelSet), (s.tile t).flights = f :: fs → f.kind = .mpanel k ps →
     ∃ v, exec (.mpanelLoaded t) s = .next (settle (complete v t f.ctx f.cnt stOK .me f.pc) t) ∧ mget (fun _ => none) (v.tile t).slots k = some ps ∧
       (∀ j, j ≠ k → mget (fun _ => none) (v.tile t).slots j = mget (fun _ => none) (s.tile t).slots j) ∧
       mget (fun _ => 0) (v.tile t).lastSlot (k / 2) = k % 2 + 1 ∧ (v.tile t).flights = (s.tile t).flights.filter (fun g => g.id ≠ f.id) ∧
       v = { s with tiles := v.tiles } ∧ ∀ j, j ≠ t → v.tile j = s.tile j))

/-- R149, R153, R681, R682: a multiply whose plan and held panel pass their checks reads its operands and loads its panels; it is in flight at once, or joins the batch gate where GATE is
set and the gate is enabled. R138, R149, R402–R404, R155, R156: the oldest multiply of a sub-array's pipe, once its rows may enter the array (R161), enters its accumulators and signals its counter; a final MPRED then marks its elements and zeroes its rows;
the gate's deadline releases the held batch, whose members enter and signal in the order in which they were admitted. -/
def Obligations.Multiplies : Prop :=
  (∀ (s : State) (t : Nat) (f : FmtM) (p : Bool) (l : List Machine.Range) (j0 j : MmulJob), Quiet s t → classOf t = 0 → waitMet s t f.wait = true → f.pred = 0 → bits f.mod.toNat 6 4 = 0 →
     (p = true → bitOf f.mod.toNat 2 = false) → cntLegal f = true →
     let c := s.actx t
     let i : Instr := if p then .mpred t f else .mmul t f
     let u := dispatched s t .me i
     mmulPlan u t c (issuePc s t) (gangMode u t c) f (rs s t c f.rx.toNat) (rs s t c f.ry.toNat) p = .ok (j0, l) → loadJob u t f j0 = some j →
     let v := u.modTile t (loadSlots (gangMode u t c) j)
     (gatedInstr u t c i = false →
       exec i s = .next (settle (addFlight (clockUp v t) t { id := (s.tile t).nextId, eng := .me, ctx := c, pc := issuePc s t, foot := {}, cnt := cntM f, kind := .mmul j }) t)) ∧
     (gatedInstr u t c i = true → exec i s = .next (settle (gateJob v t j) t))) ∧
  ((∀ (s : State) (t : Nat) (f : Flight) (fs : List Flight) (j : MmulJob), (s.tile t).flights = f :: fs → f.kind = .mmul j →
     (rowsEnter (s.tile t) = false → exec (.mmulComplete t j.sub) s = .next s) ∧
     (rowsEnter (s.tile t) = true →
     ((∀ p, j.pred ≠ some (p, true)) → exec (.mmulComplete t j.sub) s = .next (settle (complete (dropFlight (applyJob s t j) t f.id) t f.ctx f.cnt stOK .me f.pc) t)) ∧
     (∀ p, j.pred = some (p, true) → exec (.mmulComplete t j.sub) s = .next ((applyJob s t j).modTile t fun x =>
       { x with flights := x.flights.map fun g => if g.id = f.id then { g with kind := .predMark j } else g })))) ∧
   (∀ (s : State) (t : Nat) (f : Flight) (fs : List Flight) (j : MmulJob) (p : Nat), (s.tile t).flights = f :: fs → f.kind = .predMark j → j.pred = some (p, true) →
     let ks := rowKeys (gangMode s t j.ctx) j.sub j.first j.rows
     ∃ v, exec (.mpredFinalMark t j.sub) s = .next (settle (complete v t f.ctx f.cnt stOK .me f.pc) t) ∧ (v.tile t).predSlot = p ∧
       (∀ k, accGet (v.tile t) k = if k ∈ ks then 0 else accGet (s.tile t) k) ∧
       (∀ k, k ∈ ks → (k ∈ (v.tile t).unmarked ↔ marked s t j.ctx p (accGet (s.tile t) k) = false)) ∧
       (∀ k, k ∉ ks → (k ∈ (v.tile t).unmarked ↔ k ∈ (s.tile t).unmarked))) ∧
   (∀ (s : State) (t : Nat) (j : MmulJob) (js : List MmulJob), (s.tile t).gate = j :: js →
     exec (.gateDeadlineExpiry t) s = .next ((clockUp s t).modTile t fun x =>
       let f : Flight := { id := x.nextId, eng := .me, ctx := j.ctx, pc := j.pc, foot := {}, cnt := none, kind := .batch (j :: js) }
       { x with gate := [], nextId := x.nextId + 1, flights := x.flights ++ [f] })) ∧
   (∀ (s : State) (t : Nat) (f : Flight) (fs : List Flight) (js : List MmulJob), rowsEnter (s.tile t) = true → (s.tile t).flights = f :: fs → f.kind = .batch js →
     exec (.batchComplete t) s = .next (settle (js.foldl (fun s j => complete s t j.ctx j.cnt stOK .me j.pc)
       (js.foldl (fun s j => applyJob s t j) (dropFlight s t f.id))) t)))

/-- R151, R183, R185, R404, R683, R687: MDRAIN converts the rows that it reads block by block, with the cone's records and the slot's counts, zeroes them where it is asked to, and holds its
destination; its end writes the codes and, for a narrow target, the scale plane, and signals its counter. -/
def Obligations.DrainsWrite : Prop :=
  (∀ (s : State) (t : Nat) (f : FmtM) (off : Nat), Quiet s t → classOf t = 0 → waitMet s t f.wait = true → f.pred = 0 → f.b = 0 → f.c = 0 → bits f.mod.toNat 6 4 = 0 → cntLegal f = true →
    let c := s.actx t
    let x := rs s t c f.rx.toNat
    let y := rs s t c f.ry.toNat
    let u := dispatched s t .me (.mdrain t f)
    let tfmt := wget y 8 5
    let n := drainBlocks (gangMode u t c) (wget x 11 0)
    mdrainPlan u t c (gangMode u t c) f x y = .ok off →
    let r := (List.range n).foldl (drainStep u t c (issuePc s t) f x y) ([], [], u)
    let v := if bitOf f.mod.toNat 0 then
        r.2.2.modTile t fun z => (rowKeys (gangMode u t c) (wget x 41 40) (wget x 23 12) (wget x 11 0)).foldl (fun z k => accPut z k 0) z
      else r.2.2
    let fl : Flight :=
      { id := (s.tile t).nextId, eng := .me, ctx := c, pc := issuePc s t, cnt := cntM f, foot := { ranges := [⟨off, drainSpan tfmt n, true⟩] },
        kind := .mdrain off (packCodes tfmt r.1) (off + roundUp (packCodes tfmt r.1).length 64) (if isNarrow tfmt then r.2.1 else []) }
    exec (.mdrain t f) s = .next (settle (addFlight v t fl) t)) ∧
  (∀ (s : State) (t : Nat) (f : Flight) (fs : List Flight) (off soff : Nat) (data scales : List Byte), (s.tile t).flights = f :: fs → f.kind = .mdrain off data soff scales →
    exec (.mdrainComplete t) s = .next (settle (complete (ownWr (ownWr (dropFlight s t f.id) t off data) t soff scales) t f.ctx f.cnt stOK .me f.pc) t))

/-! ### The set engine -/

/-- R684, R397–R399: a set instruction of a quiet S-tile whose operands and ranges pass their checks is in flight with what it will write: SSORT its sorted records and a scratch area that is open,
SMERGE the merge of its runs and SINTER their common keys with their positions, where the runs are sorted (open bytes where not), SHASH its table and a code with a value for each element, SGATHER the elements of
the tile's own scratchpad, asking for the others, SSCATTER its values, or their sums with what stood there. Its end writes the results and signals its counter with the worst status. -/
def Obligations.SetOperations : Prop :=
  (∀ (s : State) (t : Nat) (f : FmtM) (l : List Machine.Range), Quiet s t → classOf t = 2 → waitMet s t f.wait = true →
    let c := s.actx t
    let x := rs s t c f.rx.toNat
    let y := rs s t c f.ry.toNat
    let u := issued s t
    let k := setKey f
    let bs := fun (i : Nat) => rangeBytes s t (l.getD i ⟨0, 0, false⟩)
    let at_ := fun (i : Nat) => (l.getD i ⟨0, 0, true⟩).lo
    let fl := fun (rs : List Machine.Range) (ws : List (Nat × List Byte)) (todo : List (Nat × Nat)) =>
      ({ id := (s.tile t).nextId, eng := .se, ctx := c, pc := issuePc s t, foot := { ranges := rs.filter fun r => r.write }, cnt := cntM f,
         kind := .setOp ws todo 0 k stOK } : Flight)
    (setLegal .sort f = true → setArgsOk .sort x y = true → setRanges .sort s t c f x y = .ok l → ∃ junk : List Byte, junk.length = (l.getD 1 ⟨0, 0, true⟩).len ∧
      exec (.ssort t f) s = .next (settle (sePump (addFlight { u with fresh := s.fresh + 1 } t
        (fl l [(at_ 1, junk), (at_ 0, (sortRecs k (bitOf f.mod.toNat 1) (recsOf k (bs 0))).flatten)] [])) t) t)) ∧
    (setLegal .merge f = true → setRanges .merge s t c f x y = .ok l → let desc := bitOf f.mod.toNat 1
      let xs := recsOf k (bs 0)
      let ys := recsOf k (bs 1)
      (sortedRun desc (xs.map (keyOf k)) = true → sortedRun desc (ys.map (keyOf k)) = true → exec (.smerge t f) s =
        .next (settle (sePump (addFlight u t (fl l [(at_ 2, (mergeRecs k desc (xs.length + ys.length) xs ys).flatten)] [])) t) t)) ∧
      (sortedRun desc (xs.map (keyOf k)) = false ∨ sortedRun desc (ys.map (keyOf k)) = false → ∃ junk : List Byte, junk.length = (l.getD 2 ⟨0, 0, true⟩).len ∧
        exec (.smerge t f) s = .next (settle (sePump (addFlight { u with fresh := s.fresh + 1 } t (fl l [(at_ 2, junk)] [])) t) t))) ∧
    (setLegal .inter f = true → setRanges .inter s t c f x y = .ok l →
      let xs := keysOf k (bs 0)
      let ys := keysOf k (bs 1)
      (sortedRun false xs = true → sortedRun false ys = true → let ms := interKeys (xs.length + ys.length) 0 xs 0 ys
        exec (.sinter t f) s = .next (settle (sePump (addFlight u t
          (fl l [(at_ 2, toBytes ms.length 8 ++ (ms.map fun m => toBytes m.1 8 ++ toBytes m.2.1 4 ++ toBytes m.2.2 4).flatten)] [])) t) t)) ∧
      (sortedRun false xs = false ∨ sortedRun false ys = false → ∃ junk : List Byte, junk.length = (l.getD 2 ⟨0, 0, true⟩).len ∧
        exec (.sinter t f) s = .next (settle (sePump (addFlight { u with fresh := s.fresh + 1 } t (fl l [(at_ 2, junk)] [])) t) t))) ∧
    (setLegal .hash f = true → setArgsOk .hash x y = true → setRanges .hash s t c f x y = .ok l → ∃ tab out : List Byte,
      (∀ i, i < wget x 15 0 → ∃ code, code < 6 ∧ numAt out 8 (2 * i) = code) ∧ tab.length = 16 * 2 ^ hashK x ∧ out.length = 16 * wget x 15 0 ∧
      exec (.shash t f) s = .next (settle (sePump (addFlight u t (fl l [(at_ 0, tab), (at_ 2, out)] [])) t) t)) ∧
    (setLegal .gather f = true → setArgsOk .gather x y = true → setRanges .gather s t c f x y = .ok l → ∀ es,
      chkAll (gatherAt s t c f.b.toNat k) ((List.range x.toNat).map fun i => numAt (bs 0) 4 i) = .ok es → exec (.sgather t f) s = .next (settle (sePump (addFlight u t
        (fl l (es.zipIdx.filterMap fun (e, i) => match e.2 with | some off => some (at_ 1 + k * i, ownRd s t off k) | none => none)
          (es.zipIdx.filterMap fun (e, i) => match e.2 with | some _ => none | none => some (e.1, at_ 1 + k * i)))) t) t)) ∧
    (setLegal .scatter f = true → setArgsOk .scatter x y = true → setRanges .scatter s t c f x y = .ok l → ∀ os,
      chkAll (fun i => match elemAt s t c f.c.toNat k i with | .ok a => localDst s t c a k | .error e => .error e)
        ((List.range x.toNat).map fun i => numAt (bs 0) 4 i) = .ok os → os.Nodup → exec (.sscatter t f) s = .next (settle (sePump (addFlight u t
          (fl (l ++ tableRange s t c f.c.toNat true) (os.zipIdx.map fun (o, i) =>
            (o, toBytes (if bitOf f.mod.toNat 1 then (ofBytes (ownRd s t o k) + numAt (bs 1) k i) % 2 ^ (8 * k) else numAt (bs 1) k i) k)) [])) t) t))) ∧
  (∀ (s : State) (t : Nat) (f : FmtM) (l : List Machine.Range), Quiet s t → classOf t = 2 → waitMet s t f.wait = true →
    let c := s.actx t
    let x := rs s t c f.rx.toNat
    let y := rs s t c f.ry.toNat
    let goes := fun (op : SetKind) (i : Instr) (go : State → FmtM → Queued → List Machine.Range → State) => setLegal op f = true → setArgsOk op x y = true →
      let u := dispatched s t .se i
      setRanges op u t c f x y = .ok l → exec i s = .next (settle (go u f (queuedOf s t (setReq op s t f i)) l) t)
    goes .sort (.ssort t f) (goSort · t) ∧ goes .merge (.smerge t f) (goMerge · t) ∧ goes .inter (.sinter t f) (goInter · t) ∧
    goes .hash (.shash t f) (goHash · t) ∧ goes .gather (.sgather t f) (goGather · t) ∧ goes .scatter (.sscatter t f) (goScatter · t)) ∧
  (∀ (s : State) (t : Nat) (f : Flight) (fs : List Flight) (ws : List (Nat × List Byte)) (esz worst : Nat), s.tstate t ≠ fenced → (s.tile t).flights = f :: fs →
    f.kind = .setOp ws [] 0 esz worst →
    exec (.setOpComplete t) s = .next (settle (complete (ws.foldl (fun s (w : Nat × List Byte) => ownWr s t w.1 w.2) (dropFlight s t f.id)) t f.ctx f.cnt worst .se f.pc) t))

/-- R397, R684: the results of the set engine's orders: a sort keeps every record and puts the keys in order; a merge of two sorted runs keeps every record of both, in order. -/
def Obligations.SortsInOrder : Prop :=
  ∀ (k : Nat) (desc : Bool) (xs ys : List (List Byte)),
    let ok := fun (l : List (List Byte)) => (l.map (keyOf k)).Pairwise fun a b => if desc then b ≤ a else a ≤ b
    (sortRecs k desc xs).Perm xs ∧ ok (sortRecs k desc xs) ∧
    (ok xs → ok ys → (mergeRecs k desc (xs.length + ys.length) xs ys).Perm (xs ++ ys) ∧ ok (mergeRecs k desc (xs.length + ys.length) xs ys))

/-! ### A tile's hardware -/

/-- R68, R158–R165, R546: the clock of the array: a tile that wakes runs; at the hold's end the lanes begin their ramp-down and an M-tile asks its governor, which grants the oldest
request that fits in 64 units; the steps go down to 0, where the clock is gated and a soaking tile sleeps, and up to 16, but no further than 8 with a reduced share. -/
def Obligations.ClockPhases : Prop :=
  ∀ (s : State) (t : Nat),
    (s.tstate t = waking → exec (.wakeComplete t) s = .next (settle (s.setTstate t running) t)) ∧
    ((s.tile t).phase = .hold → classOf t ≠ 0 → exec (.soakHoldEnd t) s = .next (s.modTile t fun x => { x with phase := .rampDown })) ∧
    ((s.tile t).phase = .hold → classOf t = 0 →
      exec (.soakHoldEnd t) s = .next (askUnits s t (rampDownUnits s t))) ∧
    (∀ n rest, s.gov = (t, n) :: rest → ((s.tiles.filter fun e => e.1 / 256 == t / 256).map fun e => e.2.units).foldl (· + ·) 0 + n ≤ 64 →
      ∃ u, exec (.governorGrant t) s = .next u ∧ (u.tile t).wantUnits = false ∧ (u.tile t).units = n ∧
        (u.tile t).phase = (if (s.tile t).phase = .hold then .rampDown else (s.tile t).phase) ∧ u.gov = s.gov.filter (fun r => r.1 ≠ t) ∧
        u = { s with tiles := u.tiles, gov := u.gov } ∧ ∀ k, k ≠ t → u.tile k = s.tile k) ∧
    ((s.tile t).phase = .rampDown → ∃ u, exec (.rampDownStep t) s = .next u ∧ u.tile t = { s.tile t with step := (s.tile t).step - 1 } ∧
      u = { s with tiles := u.tiles } ∧ ∀ k, k ≠ t → u.tile k = s.tile k) ∧
    ((s.tile t).phase = .rampDown → (s.tile t).step = 0 → ∃ u, exec (.rampDownEnd t) s = .next u ∧ (u.tile t).phase = .gated ∧ (u.tile t).units = 0 ∧
      u.tstate t = (if s.tstate t = soaking then asleep else s.tstate t) ∧ (∀ r ∈ u.gov, r.1 ≠ t) ∧
      OnlyIn (fun a => a = regAddr .tile t R.TSTAT) (fun k => k = t) { s with gov := u.gov } u) ∧
    ((s.tile t).phase = .rampUp → (s.tile t).wantUnits = false →
      (16 ≤ (s.tile t).step → exec (.rampUpStep t) s = .next (rampedUp s t)) ∧
      ((s.tile t).step < 16 → s.tf t R.TPWR_REDUCED ≠ 1 ∨ (s.tile t).step < 8 →
        exec (.rampUpStep t) s = .next (s.modTile t fun x => { x with step := x.step + 1 })) ∧
      ((s.tile t).step < 16 → 8 ≤ (s.tile t).step → s.tf t R.TPWR_REDUCED = 1 → exec (.rampUpStep t) s = .next s))

/-- R76, R77, R81, R110: an engine's failed check is a hardware fault: the tile is fenced, its position enters the repair record and the device leaves the job; the watchdog reports a tile that
neither halts nor is held and waits on no device barrier; a hold takes effect at a boundary. -/
def Obligations.TileTroubles : Prop :=
  (∀ (s : State) (t : Nat) (e : Engine), t < 2048 → s.tstate t ≠ fenced → s.bound t = true → ∃ u, exec (.engineCheckFail t e) s = .next u ∧ u.tstate t = fenced ∧ u.left = true ∧
    (t / 256, (s.physOf t).1, (s.physOf t).2) ∈ u.fencedPos ∧ (u.tile t).queue = [] ∧ (u.tile t).gate = [] ∧ (∀ f ∈ (u.tile t).flights, f.eng ≠ .me) ∧
    u.tf t R.TSTAT_HALTED = 1 ∧ bitOf (u.reg (regAddr .tile t R.TFAULT)).toNat fENGINE = true) ∧
  (∀ (s : State) (t : Nat) (e : Engine), s.tstate t = fenced ∨ s.bound t = false → exec (.engineCheckFail t e) s = .next s) ∧
  (∀ (s : State) (t : Nat), t < 2048 → (s.tile t).started = true → s.bound t = true → s.tf t R.TCTL_WDOG_EN = 1 → s.tf t R.TSTAT_HALTED = 0 → s.tf t R.TSTAT_HELD = 0 → s.tstate t ≠ fenced →
    onDeviceBarrier s t = false → ∃ u, exec (.watchdogExpiry t) s = .next u ∧ bitOf (u.reg (regAddr .tile t R.TFAULT)).toNat fWATCHDOG = true ∧
      u.tf t R.TFAULT_FIRST = s.tf t R.TFAULT_FIRST ∧ u.reg (regAddr .tile t R.TFADDR) = s.reg (regAddr .tile t R.TFADDR) ∧
      u.reg (regAddr .tile t R.TSTAT) = s.reg (regAddr .tile t R.TSTAT) ∧ u.tiles = s.tiles ∧ u.mem = s.mem) ∧
  (∀ (s : State) (t : Nat), s.tstate t = running → holdWanted s t = true → s.tf t R.TSTAT_BOUNDARY = 1 → (s.tile t).held = none →
    exec (.holdTakesEffect t) s = .next (settle (s.setTf t R.TSTAT_HELD 1) t))

/-- R94, R97, R115–R121: a remote write is taken, refused or held by the checks of R116 in their order; one taken enters the gather buffer, its slot's landed count rises and its sender is
answered. The idle drain empties the buffer's dirty entries. -/
def Obligations.RemoteWrites : Prop :=
  (∀ (s : State) (t : Nat) (p : WritePkt), (s.tile t).port = [] →
    (writeCheck s t p = stOK → writeWaits s t p = false →
      exec (.remoteWritePacket t p) s = .next (answerTo ((acceptWrite s t p).unwire (.write t p)) p.sender p.tag stOK)) ∧
    (writeCheck s t p = stOK → writeWaits s t p = true → exec (.remoteWritePacket t p) s = .next ((s.unwire (.write t p)).modTile t fun x => { x with port := [p] })) ∧
    (writeCheck s t p ≠ stOK → writeCheck s t p ≠ stWICKET_CLOSED →
      exec (.remoteWritePacket t p) s = .next (answerTo (s.unwire (.write t p)) p.sender p.tag (writeCheck s t p))) ∧
    (writeCheck s t p = stWICKET_CLOSED →
      let w := wicketOf s t (p.addr - spadAddr t 0) p.data.length
      exec (.remoteWritePacket t p) s = .next (answerTo ((s.setTf t (R.WKEPOCH_REJECTS w) (satAdd (s.tf t (R.WKEPOCH_REJECTS w)) 1 0xFFFF)).unwire (.write t p))
        p.sender p.tag stWICKET_CLOSED))) ∧
  (∀ (s : State) (t : Nat) (p : WritePkt) (ps : List WritePkt), (s.tile t).port = p :: ps →
    let u := s.modTile t fun x => { x with port := ps }
    (writeCheck u t p = stOK → writeWaits u t p = false → exec (.heldPacketRecheck t) s = .next (answerTo (acceptWrite u t p) p.sender p.tag stOK)) ∧
    (writeCheck u t p = stOK → writeWaits u t p = true → exec (.heldPacketRecheck t) s = .next s)) ∧
  (∀ (s : State) (t : Nat), exec (.gatherBufferIdleDrain t) s = .next (drainAll s t)) ∧
  (∀ (s : State) (t x : Nat), ((s.tile t).gb.map GbEntry.row).Nodup →
    let u := drainAll s t
    (∀ e ∈ (u.tile t).gb, e.mask = 0) ∧ u.byte (spadAddr t x) = ownByte s t x ∧ ownByte u t x = ownByte s t x)

/-- R105, R107, R111–R114, R121, R261, R306, R321: a remote read gets the status that says why not, or its rows, at once where the merge table cannot take it, and otherwise when the merge windows of its rows end (that a
merged read waits for them is the model's choice, log 79); what comes back lands at its reader; an answer counts for the transfer that its tag names. -/
def Obligations.ReadsAndAnswers : Prop :=
  (∀ (s : State) (t : Nat) (rq : ReadReq) (par : Parity), let u := s.unwire (.readReq rq.addr rq.len rq.sender.tile rq.tag)
    let off := rq.addr - spadAddr t 0
    let who := ReadBy.tile rq.sender.tile rq.tag
    let outside := reservedAt s rq.addr rq.len = true ∨ rq.addr < spadAddr t 0 ∨ spadAddr t 0 + 0x20_0000 < rq.addr + rq.len
    let on := ∀ g, g < 8 → off / 0x4_0000 ≤ g → g ≤ (off + rq.len - 1) / 0x4_0000 → groupState s t g = 2
    (outside → exec (.remoteReadRequest t rq par) s = .next (u.post (.readData rq.sender.tile rq.tag stADDRESS []))) ∧
    (¬ outside → s.tstate t = fenced → exec (.remoteReadRequest t rq par) s = .next (u.post (.readData rq.sender.tile rq.tag stTARGET_FENCED []))) ∧
    (¬ outside → s.tstate t ≠ fenced → rq.len ≠ 0 → ¬ on → exec (.remoteReadRequest t rq par) s = .next (u.post (.readData rq.sender.tile rq.tag stACCESS []))) ∧
    (¬ outside → s.tstate t ≠ fenced → rq.len = 0 ∨ on →
      (exec (.remoteReadRequest t rq .clean) s = .next (mergeRead u t who off rq.len (s.rd (spadAddr t off) rq.len))) ∧
      (∀ o, exec (.remoteReadRequest t rq (.recovered o)) s =
        .next (mergeRead (parityEffect u t (pcOff u t) (.recovered o)) t who off rq.len (s.rd (spadAddr t off) rq.len))) ∧
      (∀ o, exec (.remoteReadRequest t rq (.unrecovered o)) s =
        .next ((parityEffect u t (pcOff u t) (.unrecovered o)).post (.readData rq.sender.tile rq.tag stPARITY []))))) ∧
  (∀ (s : State) (t : Nat) (who : ReadBy) (off len : Nat) (data : List Byte), let v := mergeRead s t who off len data
    let held := ∃ rows, rows ≠ [] ∧ (∀ r ∈ rows, off / 64 ≤ r ∧ r ≤ (off + len - 1) / 64) ∧ (v.tile t).merged = (s.tile t).merged ++ [⟨who, rows, data⟩] ∧
      v = { s with tiles := v.tiles } ∧ ∀ k, k ≠ t → v.tile k = s.tile k
    (v = answerRead s who stOK data ∨ held) ∧ (len = 0 → v = answerRead s who stOK data) ∧
    (len ≠ 0 → (s.tile t).merge.length < 8 → (∀ e ∈ (s.tile t).merge, e.n < 16) → held) ∧
    (8 ≤ (s.tile t).merge.length → (∀ e ∈ (s.tile t).merge, e.row < off / 64 ∨ (off + len - 1) / 64 < e.row) → v = answerRead s who stOK data)) ∧
  (∀ (s : State) (t row : Nat), let ms := (s.tile t).merged.map fun m => { m with rows := m.rows.filter fun r => r ≠ row }
    let u := s.modTile t fun x => { x with merge := x.merge.filter (fun e => e.row ≠ row), merged := ms.filter fun m => !m.rows.isEmpty }
    exec (.mergeWindowExpiry t row) s = .next (answerMerged u (ms.filter fun m => m.rows.isEmpty)) ∧ ((s.tile t).merged = [] → exec (.mergeWindowExpiry t row) s = .next u) ∧
    ∀ src tag data, answerMerged u [⟨.tile src tag, [], data⟩] = u.post (.readData src tag stOK data)) ∧
  (∀ (s : State) (t tag status : Nat) (data : List Byte) (r : OutRead) (rs : List OutRead), s.tstate t ≠ fenced → (s.tile t).reads = r :: rs → r.tag = tag →
    let u := (s.unwire (.readData t tag status data)).modTile t fun x => { x with reads := x.reads.filter fun r => r.tag ≠ tag }
    let v := sePump (dmaPump (landGather (landRead u t r.flight r.off status data) t r.flight r.off status data) t) t
    (status ≠ stACCESS → exec (.remoteReadResponse t tag status data) s = .next (settle v t)) ∧
    (status = stACCESS → ∃ pc, exec (.remoteReadResponse t tag status data) s = .next (settle (progFault v t fACCESS pc r.addr) t))) ∧
  (∀ (s : State) (t tag status : Nat), s.tstate t ≠ fenced →
    exec (.transferAnswer t tag status) s = .next (settle (answerTransfer (s.unwire (.answer (tileSender s t) tag status)) t tag status) t)) ∧
  (∀ (s : State) (t tag status : Nat) (o : Outst) (os : List Outst), (s.tile t).outst = o :: os → o.tag = tag → o.chan = none → status ≠ stWICKET_MISS →
    let o' := { o with left := o.left - 1, worst := max o.worst status }
    (o.left ≤ 1 → answerTransfer s t tag status = endOutst s t o') ∧
    (1 < o.left → answerTransfer s t tag status = s.modTile t fun x => { x with outst := x.outst.map fun p => if p.tag = tag then o' else p }))

/-- R99–R104: a bank group that starts is zero-filled once it is powered and is then ON, reading zero; one that stops is OFF after its zero-fill, or ON for the owner that has been
latched; the end of a context's task closes its wickets and queues and stops its groups. -/
def Obligations.BankGroups : Prop :=
  (∀ (s : State) (t g : Nat), g < 8 →
    (groupState s t g = 1 → (s.tile t).powered.contains g = false →
      exec (.bankGroupPowered t g) s = .next (s.modTile t fun x => { x with powered := x.powered ++ [g] })) ∧
    (groupState s t g = 1 → (s.tile t).powered.contains g = true → (s.tile t).latchStart = false → ∃ u, exec (.bankGroupZeroFillEnd t g) s = .next u ∧
      groupState u t g = 2 ∧ (∀ h, h < 8 → h ≠ g → groupState u t h = groupState s t h) ∧ (∀ o, o < 0x4_0000 → u.byte (spadAddr t (0x4_0000 * g + o)) = 0) ∧
      (∀ a, a < spadAddr t (0x4_0000 * g) ∨ spadAddr t (0x4_0000 * g) + 0x4_0000 ≤ a → u.byte a = s.byte a) ∧ ∀ a, a ≠ regAddr .tile t R.SPGSTATE → u.reg a = s.reg a) ∧
    (groupState s t g = 3 → (s.tile t).latchStart = false → ∃ u, exec (.bankGroupZeroFillEnd t g) s = .next u ∧
      groupState u t g = (if mget (fun _ => 0) (s.tile t).owners g = 0 then 0 else 2) ∧ mget (fun _ => 0) (u.tile t).owners g = 0 ∧
      (∀ h, h < 8 → h ≠ g → groupState u t h = groupState s t h) ∧ (∀ o, o < 0x4_0000 → u.byte (spadAddr t (0x4_0000 * g + o)) = 0) ∧
      ∀ a, a < spadAddr t (0x4_0000 * g) ∨ spadAddr t (0x4_0000 * g) + 0x4_0000 ≤ a → u.byte a = s.byte a)) ∧
  (∀ (s : State) (t c : Nat), exec (.taskEnd t c) s = .next (jobEnd (taskEnd s t c)) ∧
    (c < 2 → (s.tile t).hold = [] → (s.tile t).flights = [] → let u := taskEnd s t c
      (∀ n, n < 16 → s.tf t (R.WKBASE_OWNER n) = c → u.tf t (R.WKEPOCH_OPEN n) = 0) ∧ (∀ n, n < 16 → s.tf t (R.QCFG_OWNER n) = c → u.tf t (R.QEPOCH_CLOSED n) = 1) ∧
      ∀ g, g < 8 → groupState u t g = if bitOf (groupsOf s t c) g = true ∧ groupState s t g = 2 then 3 else groupState s t g))

/-- R68, R71–R73, R81, R102, R221, R411, R546, R692: the writes of a tile's control registers: a start of an asleep bound tile begins the active context at index 0 and wakes it, or is
latched until its groups are ON; a hold is taken or released; a fence stops the tile for good; a reset clears its faults, queues and work; counts of scale slots and cone return to reset. -/
def Obligations.TileCommands : Prop :=
  (∀ (s : State) (t : Nat), s.tstate t = asleep → s.bound t = true → (s.tile t).started = false →
    (groupsReady s t = true → exec (.tctlStart t) s = .next (startTile s t)) ∧
    (groupsReady s t = false → exec (.tctlStart t) s = .next (s.modTile t fun x => { x with latchStart := true })) ∧
    (let u := startTile s t
     let c := s.actx t
     (c = 0 ∨ c = 1) → u.tstate t = waking ∧ ((u.tile t).ctx c).idx = 0 ∧ ((u.tile t).ctx c).loops = [] ∧ (u.tile t).started = true ∧
       (u.tile t).ctx (1 - c) = (s.tile t).ctx (1 - c) ∧ (s.tf t R.TPWR_LENT = 1 → u.tf t R.TPWR_RECALL = 1) ∧
       (∀ n, rs u t c n = 0 ∧ ra u t c n = 0 ∧ rv u t c n = 0) ∧ (∀ n, n < 64 → cntVal u t c n = 0) ∧ (∀ k, accGet (u.tile t) k = 0))) ∧
  (∀ (s : State) (t : Nat), t < 2048 →
    exec (.tctlHold t true) s = .next (unhold (s.setTf t R.TCTL_HOLD 1) t) ∧ exec (.tctlHold t false) s = .next (unhold (s.setTf t R.TCTL_HOLD 0) t) ∧
    (s.tf t R.TSTAT_HELD = 0 → exec (.tctlHold t true) s = .next (s.setTf t R.TCTL_HOLD 1)) ∧
    (s.tstate t = fenced ∨ s.bound t = false → exec (.tctlFence t) s = .next s) ∧
    (s.tstate t ≠ fenced → s.bound t = true → ∃ u, exec (.tctlFence t) s = .next u ∧ u.tstate t = fenced ∧ (u.tile t).gate = [] ∧ (∀ f ∈ (u.tile t).flights, f.eng ≠ .me) ∧
      (u.tile t).merge = [] ∧ (u.tile t).merged = [] ∧ (u.tile t).phase ≠ .full ∧ (u.tile t).phase ≠ .rampUp ∧ (∀ r, r.1 ≠ t → (r ∈ u.gov ↔ r ∈ s.gov)) ∧
      ((s.tile t).merged = [] → OnlyIn (fun a => a = regAddr .tile t R.TSTAT) (fun k => k = t) { s with gov := u.gov } u)) ∧
    (∃ u, exec (.tctlReset t) s = .next u ∧ u.tf t R.TSTAT_HALTED = 0 ∧ u.tstate t = (if s.tstate t = fenced then fenced else asleep) ∧
      u.reg (regAddr .tile t R.TFAULT) = 0 ∧ (u.tile t).queue = [] ∧ (u.tile t).flights = [] ∧ (u.tile t).outst = [] ∧ (u.tile t).held = none ∧ (u.tile t).started = false ∧
      (∀ c n, rs u t c n = 0 ∧ ra u t c n = 0 ∧ rv u t c n = 0) ∧ (∀ c n, c < 2 → n < 64 → cntVal u t c n = 0) ∧ (∀ n, n < 16 → u.tf t (R.WKEPOCH_OPEN n) = 0)) ∧
    (∀ mask : BitVec 32, ∃ u, exec (.nsclrSlot t mask) s = .next u ∧ (∀ n, n < 32 → bitOf mask.toNat n = true →
        u.reg (regAddr .tile t (R.NSTAT (s.actx t) n)) = resetOf (regAddr .tile t (R.NSTAT (s.actx t) n))) ∧
      OnlyIn (fun a => ∃ n, n < 32 ∧ bitOf mask.toNat n = true ∧ a = regAddr .tile t (R.NSTAT (s.actx t) n)) (fun _ => False) s u) ∧
    (∃ u, exec (.nsclrCone t) s = .next u ∧ u.reg (regAddr .tile t R.CONESTAT) = resetOf (regAddr .tile t R.CONESTAT) ∧
      (∀ k b, k < 6 → b < 16 → u.tf t (R.CONEH_COUNT k b) = 0) ∧ (∀ p, p < 16 → u.tf t (R.PMISS_MISS p) = 0 ∧ u.tf t (R.PMISS_SKIPPED p) = 0) ∧
      OnlyIn (fun a => regAddr .tile t 0 ≤ a ∧ a < regAddr .tile t 0x4000) (fun _ => False) s u) ∧
    (∀ v : Word, exec (.conetagWrite t v) s = .next ((storeReg s (regAddr .tile t (R.CONETAG (s.actx t))) v).setTf t (R.CONENEXT_NEXT (s.actx t)) 0)) ∧
    (s.fld .die (t / 256) R.DMPCFG_LENDEN = 1 → s.tf t R.TPWR_LENT = 0 → s.bound t = true → (s.tstate t = soaking ∨ s.tstate t = asleep) →
      ((s.tile t).held.isSome = true ∨ (recvBlockedOn (s.tile t)).isSome = true) → exec (.tileLend t) s =
        .next (showPool (((s.setTf t R.TPWR_LENT 1).setTf t R.TPWR_STEP 0).setTf t R.TPWR_LENDS (satAdd (s.tf t R.TPWR_LENDS) 1 (2 ^ 32 - 1))) (t / 256))))

/-! ### Barriers -/

/-! ### The package network -/

/-- R290, R291, R293, R295, R297, R307, R310–R313, R322: a packet of a known kind goes on by one hop for each of its destinations once every hop is free and none that it must not overtake stands before
it, and one of an unknown kind is counted; a frame in order is taken and its packets arrive, one out of order or with a wrong CRC is answered with a NAK; a NAK or a timeout sends the kept frames again, and
where 16 in a row have brought nothing the link goes down; the timer sends the counts. -/
def Obligations.PacketsMove : Prop :=
  (∀ (s : State) (die row col : Nat) (p : Packet), let u := packetLeft s die row col p
    let k := packetClass s die row col p
    let free := (hopsOf s die row col p).all (hopFree s die row col p)
    (p.kind ≤ 10 → hopBehind s die row col p = false → free = true →
      exec (.packetHop die row col p) s = .next ((hopsOf u die row col p).foldl (fun v h => takeHop v die row col k p h) u)) ∧
    (p.kind ≤ 10 → hopBehind s die row col p = true ∨ free = false → exec (.packetHop die row col p) s = .next s) ∧
    (10 < p.kind → exec (.packetHop die row col p) s = .next (u.setFld .die die R.RSSTAT_BADPKT (satAdd (u.fld .die die R.RSSTAT_BADPKT) 1 0xFFFF)))) ∧
  (∀ (s : State) (die row col : Nat) (p : Packet), let l := s.link die col
    (row ≠ 17 ∨ l.recv.contains p = false → packetLeft s die row col p = s.unpacket die row col p) ∧
    (l.recv.contains p = true →
      packetLeft s die 17 col p = (s.unpacket die 17 col p).setLink die col { l with recv := l.recv.erase p, freed := vnAdd l.freed p.vn p.units })) ∧
  (∀ (s : State) (die e : Nat), linkState s die e = 2 → (s.link die e).held = false →
    (∀ f : CplFrame, let u := s.unwire (.frame die e f)
      (f.crcOk = false → die < 8 →
        exec (.cplFrameReceive die e f) s = .next (sendNak (u.setFld .die die (R.ERCNT_CRCERR e) (satAdd (s.fld .die die (R.ERCNT_CRCERR e)) 1 0xFFFF)) die e)) ∧
      (f.crcOk = true → f.typ = 0 → f.seq ≠ (s.link die e).expect → exec (.cplFrameReceive die e f) s = .next (sendNak u die e)) ∧
      (f.crcOk = true → f.typ = 0 → f.seq = (s.link die e).expect →
        let v := ackFrames u die e f.ack
        let w := f.packets.foldl (fun s p => arriveFromLink s die e p) (v.setLink die e { v.link die e with peer := f.crd, expect := ((v.link die e).expect + 1) % 2 ^ 16 })
        exec (.cplFrameReceive die e f) s = .next (flushLink w die e (w.link die e).wait.length)) ∧
      (f.crcOk = true → f.typ = 1 →
        let v := ackFrames u die e f.ack
        let w := v.setLink die e { v.link die e with peer := f.crd }
        exec (.cplFrameReceive die e f) s = .next (flushLink w die e (w.link die e).wait.length))) ∧
    (∀ ack, let u := ackFrames (s.unwire (.nak die e ack)) die e ack
      ((u.link die e).sent = [] → exec (.cplNak die e ack) s = .next u) ∧ ((u.link die e).sent ≠ [] → exec (.cplNak die e ack) s = .next (replay u die e))) ∧
    ((s.link die e).sent ≠ [] → exec (.cplAckTimeout die e) s = .next (replay s die e)) ∧
    exec (.cplControlTimer die e) s = .next (s.send (.frame (peerEnd die e).1 (peerEnd die e).2 (mkFrame (s.link die e) 1 [])))) ∧
  (∀ (s : State) (die e : Nat), let q := peerEnd die e
    let l := s.link die e
    (16 ≤ l.consec → replay s die e = linkGoesDown s die e) ∧
    (l.consec < 16 → (replay s die e).wires = s.wires ++ l.sent.map (fun f => .frame q.1 q.2 (sealFrame { f with ack := (mkFrame l 0 []).ack, crd := l.freed })) ∧
      ((replay s die e).link die e).consec = l.consec + 1)) ∧
  (∀ f : CplFrame, (sealFrame f).crc = .ofNat 32 f.sum ∧ (sealFrame f).crcOk = true)

/-- R313, R316–R319, R322–R325, R327: a link that retrains holds its frames at both ends and goes on with them once it is trained, or goes down; a link that starts up sends its capability record, and the
peer's brings it up or leaves it unconfigured for the reason that R319 gives; a router's fault makes the device leave its job; a route set switches once the die is idle. -/
def Obligations.LinksTrain : Prop :=
  (∀ (s : State) (die e : Nat), die < 8 → e < 10 →
    (linkState s die e = 2 → ∃ u, exec (.ucieRetrain die e) s = .next u ∧ (u.link die e).held = true ∧ (u.link (peerEnd die e).1 (peerEnd die e).2).held = true ∧
      linkState u die e = 1 ∧ u = { s with regs := u.regs, links := u.links }) ∧
    ((s.link die e).held = true → exec (.ucieRetrainTimeout die e) s = .next (linkGoesDown s die e)) ∧
    exec (.dieLinkDown die e) s = .next (linkGoesDown s die e) ∧
    (linkState s die e = 1 → (s.link die e).held = false →
      ((s.link die e).offered = false → exec (.linkTrainingTimeout die e) s = .next (unconfigured s die e 1)) ∧
      ((s.link die e).offered = true → exec (.capabilityTimeout die e) s = .next (unconfigured s die e 2)) ∧
      (∃ u, exec (.ucieTrainingComplete die e) s = .next u ∧ (u.link die e).offered = true ∧ linkState u die e = 1 ∧
        u = { s with regs := u.regs, links := u.links, fresh := u.fresh,
                     wires := s.wires ++ [.cap (peerEnd die e).1 (peerEnd die e).2 (ownCap die e).1 (ownCap die e).2] })) ∧
    (linkState s die e = 1 → (s.link die e).held = true → (s.link die e).wait = [] → (s.link (peerEnd die e).1 (peerEnd die e).2).wait = [] →
      ∃ u, exec (.ucieTrainingComplete die e) s = .next u ∧ (u.link die e).held = false ∧ linkState u die e = 2) ∧
    (∀ rec, linkState s die e = 1 → (s.link die e).offered = true → (s.link die e).held = false →
      let w := numAt rec 8 0
      let id := numAt rec 8 1
      let role := bits w 10 8
      let site := linkOf die e
      let major := if site = .hd then 1 else 2
      let r := s.unwire (.cap die e w id)
      (bits w 7 4 ≠ major → exec (.capabilityRecord die e rec) s = .next (unconfigured (showPeer r die e role 0 id) die e 3)) ∧
      (bits w 7 4 = major → role ≠ siteRole site → ¬ (role = 4 ∧ siteRole site = 1) →
        exec (.capabilityRecord die e rec) s = .next (unconfigured (showPeer r die e role (16 * major) id) die e 4)) ∧
      (bits w 7 4 = major → role = siteRole site ∨ (role = 4 ∧ siteRole site = 1) → (s.link die e).wait = [] →
        ∃ u, exec (.capabilityRecord die e rec) s = .next u ∧ linkState u die e = 2 ∧ (u.link die e).buf = bits w 31 16 ∧ (u.link die e).vns = bits w 13 11 ∧
          u.fld .die die (R.ERLINK_ROLE e) = role ∧ u.reg (regAddr .die die (R.ERPEER e)) = .ofNat 64 id ∧
          (∀ n, role = 4 → site = .ld n → u.pf (2 * n) R.FPSTAT_STATE = 3 ∧ u.pf (2 * n + 1) R.FPSTAT_STATE = 3) ∧
          u = { r with regs := u.regs, links := u.links }))) ∧
  (∀ (s : State) (die row col : Nat), exec (.routerFault die row col) s = .next (routerFails s die row col) ∧ exec (.rsctlArm die) s = .next (armDetour s die) ∧
    (s.fld .die die R.RSCTL_PENDING = 1 → exec (.routeSetSwitch die) s = .next (armDetour s die)) ∧ (routerFails s die row col).left = true ∧
    (s.fld .die die R.RSCTL_ACTIVE = 0 → (dieIdle s die = true → (armDetour s die).fld .die die R.RSCTL_ACTIVE = 1 ∧ (armDetour s die).fld .die die R.RSCTL_PENDING = 0) ∧
      (dieIdle s die = false → armDetour s die = s.setFld .die die R.RSCTL_PENDING 1)))

/-! ### HBM and the update units -/

/-- R334, R335, R339, R340, R344, R348–R353, R355, R494: a read that no earlier request holds delivers its data, after a reread with its record; a block that cannot be read is asked of the twin, or the
device leaves the job; a write is accepted, or its protected page is staged first; retirement, temperature, loss and zero-fill of a stack. -/
def Obligations.MemoryRequests : Prop :=
  (∀ (s : State) (q : HbmReq), hbmAddr q.addr = true → blockHeld s q.addr = false → readHeld s q = false →
    let k := (hbmPlace s q.addr).1
    let u := noteEcc (s.unwire (.hbmRead q)) k
    let a := q.addr / 4096 * 4096
    (∀ data, readOut u q = some data → exec (.hbmReadRequest q .ok) s = .next (giveRead u q data) ∧
      exec (.hbmReadRequest q .reread) s = .next (giveRead (stage1 u k q.addr) q data)) ∧
    (let v := mcEvent u k 0x0700 a
     let asked := isShard v k (pageOf (blockKey v q.addr)) = true ∧ v.fld .ld 0 R.TWCFG_PAIREN = 1
     (asked → exec (.hbmReadRequest q .bad) s =
       .next ((mcEvent (v.setMc k { v.mc k with path := (v.mc k).path ++ [(blockKey v q.addr, q)] }) k 0x0701 a).send (.twinAsk k a (v.fld .mc k R.UUSTAT_CSTEP)))) ∧
     (¬ asked → exec (.hbmReadRequest q .bad) s = .next (stage4 (mcEvent v k 0x0701 a) k q.addr)))) ∧
  (∀ (s : State) (q : HbmReq), hbmAddr q.addr = true → blockHeld s q.addr = false → writeHeld s q = false →
    let k := (hbmPlace s q.addr).1
    let page := pageOf (blockKey s q.addr)
    let u := s.unwire (.hbmWrite q)
    (isProt s k page = false → exec (.hbmWriteRequest q) s = .next (acceptHbm u q)) ∧
    (isProt s k page = true → (s.mc k).staging.contains page = false → stageUsed (s.mc k) < 4 → exec (.hbmWriteRequest q) s =
      .next (u.setMc k { s.mc k with staging := (s.mc k).staging ++ [page], writeWait := (s.mc k).writeWait ++ [q] }))) ∧
  (∀ (s : State) (k page : Nat) (rest : List Nat), (s.mc k).staging = page :: rest →
    let mine := fun (q : HbmReq) => (hbmPlace s q.addr).1 == k && pageOf (blockKey s q.addr) == page
    let u := s.setMc k { s.mc k with staging := rest, writeWait := (s.mc k).writeWait.filter fun q => !mine q }
    exec (.protectedPageStaged k) s = .next (((s.mc k).writeWait.filter mine).foldl acceptHbm (if isProt u k page then stagePage u k page else u))) ∧
  (∀ (s : State) (k : Nat), let n := s.fld .mc k R.MCSTAT_ECCCORR
    ∃ d, d < 2 ∧ noteEcc s k = State.setFld { s with fresh := s.fresh + 1 } .mc k R.MCSTAT_ECCCORR (satAdd n d 0xFFFF)) ∧
  (∀ (s : State) (q : HbmReq), let u := noteEcc s (hbmPlace s q.addr).1
    acceptHbm s q = match hbmStore u q.addr q.blk q.data with
      | some v => writeDone v q stOK
      | none => writeDone u q stACCESS) ∧
  (∀ (s : State) (k a : Nat) (q : HbmReq) (rest : List (Nat × HbmReq)),
    let u := s.unwire (.twinGive k a none)
    takeFirst (fun (p : Nat × HbmReq) => p.1 == blockKey u a) (u.mc k).path = some ((blockKey u a, q), rest) →
    exec (.twinBlockReturn k a none) s = .next (stage4 (u.setMc k { u.mc k with path := rest }) k a)) ∧
  (∀ (s : State) (k a st : Nat), exec (.twinBlockRequest k a st) s = .next ((s.unwire (.twinAsk k a st)).send (.twinGive k a (twinBlock s k a st)))) ∧
  (∀ (s : State) (k page : Nat), (s.mc k).retiring = some page → isProt s k page = false →
    exec (.pageRetirementComplete k) s = .next ((retirePage s k page).setMc k { (retirePage s k page).mc k with retiring := none })) ∧
  (∀ (s : State) (k temp : Nat), k < 8 → ∃ u, exec (.stackTemperaturePoll k temp) s = .next u ∧ u.fld .mc k R.MCSTAT_TEMP = min temp 255 ∧
    u.fld .mc k R.MCSTAT_REFX2 = (if temp > 85 then 1 else 0) ∧
    u.fld .mc k R.MCSTAT_THROTTLE = (if temp > 95 then 1 else if temp ≤ 90 then 0 else s.fld .mc k R.MCSTAT_THROTTLE)) ∧
  (∀ (s : State) (k : Nat), k < 8 → (s.mc k).lost = false → ∃ u, exec (.stackLost k) s = .next u ∧ (u.mc k).lost = true ∧ u.fld .mc k R.MCERR_FATAL = 1 ∧ u.left = true) ∧
  (∀ (s : State) (k : Nat), k < 8 → s.fld .mc k R.MCSTAT_ZEROING = 1 → ∃ u, exec (.stackZeroFillComplete k) s = .next u ∧ u.fld .mc k R.MCSTAT_ZEROING = 0 ∧
    (∀ o, o < 2 ^ 36 → u.byte (k * 2 ^ 36 + o) = 0) ∧ (∀ a, a < k * 2 ^ 36 ∨ (k + 1) * 2 ^ 36 ≤ a → u.byte a = s.byte a) ∧
    ∀ a, a ≠ regAddr .mc k R.MCSTAT → u.reg a = s.reg a)

/-- R360–R362, R365, R366, R479, R480, R483: a gate is taken or refused; a skip ends the step without a write; a commit writes once its protected pages are staged and ends once the copier is idle; the
copier sends its pages in ascending order and completes its generation. -/
def Obligations.UpdateUnits : Prop :=
  (∀ (s : State) (k : Nat) (v : Word), k < 8 → wget v 33 33 = 1 →
    let st := s.fld .mc k R.UUSTAT_STATE
    (st = 0 → s.fld .mc k R.MCCFG_UUEN = 1 → wget v 31 0 = (s.fld .mc k R.UUSTAT_CSTEP + 1) % 2 ^ 32 → clipOk (s.fld .mc k R.UUCLIP_CLIP) = true →
      ∃ u, exec (.uugateWrite k v) s = .next u ∧ u.fld .mc k R.UUSTAT_STATE = 1 ∧ u.fld .mc k R.UUSTAT_SEG = 0 ∧ u.fld .mc k R.UUGATE_STEP = wget v 31 0 ∧
        OnlyIn (fun a => a = regAddr .mc k R.UUGATE ∨ a = regAddr .mc k R.UUSTAT) (fun _ => False) s u) ∧
    (st = 1 ∨ st = 2 ∨ st = 3 → exec (.uugateWrite k v) s = .next (mcEvent (s.setFld .mc k R.UUSTAT_GATEERR 1) k 0x0722 (wget v 31 0)))) ∧
  (∀ (s : State) (k : Nat), s.fld .mc k R.UUSTAT_STATE = 1 →
    let t := s.fld .mc k R.UUGATE_STEP
    (s.fld .mc k R.UUGATE_SKIP = 1 → exec (.uuCommitEnd k) s =
      .next (endStep (s.setFld .mc k R.UUCNT_SKIPPED (satAdd (s.fld .mc k R.UUCNT_SKIPPED) 1 (2 ^ 32 - 1))) k t true)) ∧
    (s.fld .mc k R.UUGATE_SKIP ≠ 1 → gradsOk s k = false → exec (.uuCommitEnd k) s = .next (leaveJob (s.setFld .mc k R.UUSTAT_STATE 4))) ∧
    (s.fld .mc k R.UUGATE_SKIP ≠ 1 → gradsOk s k = true → (stageAll s (commitPages s k)).1 = true → exec (.uuCommitEnd k) s =
      .next (finishCommit ((commitWrites (logWarm (stageAll s (commitPages s k)).2 k) k t).setFld .mc k R.UUSTAT_STATE 3) k))) ∧
  (∀ (s : State) (k t : Nat) (skipped : Bool), k < 8 → t < 2 ^ 32 → let u := endStep s k t skipped
    u.fld .mc k R.UUSTAT_CSTEP = t ∧ u.fld .mc k R.UUSTAT_LASTSKIP = (if skipped then 1 else 0) ∧ u.fld .mc k R.UUGATE_VALID = 0 ∧ u.fld .mc k R.UUSTAT_STATE = 0 ∧
    (∀ a, u.byte a = s.byte a) ∧ (∀ a, a ≠ regAddr .mc k R.UUSTAT → a ≠ regAddr .mc k R.UUGATE → u.reg a = s.reg a)) ∧
  (∀ (s : State) (k : Nat), ¬ (s.fld .mc k R.UUSTAT_STATE = 1 ∧ s.fld .mc k R.UUGATE_SKIP = 0) → s.fld .mc k R.UUSTAT_STATE ≠ 4 →
    exec (.uuStop k) s = .next (leaveJob (s.setFld .mc k R.UUSTAT_STATE 4))) ∧
  (∀ (s : State) (k : Nat), s.fld .mc k R.UUSTAT_STATE = 1 ∧ s.fld .mc k R.UUGATE_SKIP = 0 →
    ∃ u, exec (.uuStop k) s = .next u ∧ u.left = true ∧ u.fresh = s.fresh + 1) ∧
  (∀ (s : State) (k : Nat), s.fld .mc k R.TWCOPY_STATE = 1 →
    (∀ pg rest, (s.mc k).staged = pg :: rest → exec (.copierPageSend k) s = .next (sendPage (showStaged (s.setMc k { s.mc k with staged := rest }) k) k pg)) ∧
    (∀ p, (s.mc k).staged = [] → (shardPages s k).find? (fun p => isProt s k p && !(s.mc k).staging.contains p) = some p →
      exec (.copierPageSend k) s = .next (sendPage (clearProt s k p) k (pageImage s k p))) ∧
    (s.fld .mc k R.TWCOPY_LEFT = 0 → (s.mc k).staged = [] → (s.mc k).staging = [] → copierBusy s k = false → exec (.generationComplete k) s =
      .next (let u := copierHeader s k true
             finishCommit ((u.setFld .mc k R.TWCOPY_SLOT (1 - u.fld .mc k R.TWCOPY_SLOT)).setFld .mc k R.TWCOPY_STATE 0) k))) ∧
  (∀ (s : State) (k : Nat), k < 8 → exec (.twcopyEnWrite k true) s = .next (setCopier s k true) ∧ (setCopier s k true).fld .mc k R.TWCOPY_EN = 1 ∧
    exec (.twcopyEnWrite k false) s = .next (setCopier s k false) ∧ ((s.mc k).writeWait = [] → s.fld .mc k R.UUSTAT_STATE ≠ 3 →
      (setCopier s k false).fld .mc k R.TWCOPY_EN = 0 ∧ (setCopier s k false).fld .mc k R.TWCOPY_STATE = 2 ∧ ((setCopier s k false).mc k).staged = [] ∧
      ∀ p, p < 32768 → isProt (setCopier s k false) k p = false))

/-! ### CXT -/

/-- R426–R430, R445, R486, R749: a packet whose turn has come has the effect of its operation and is acknowledged with its status; while it must wait it stays at the end of its path. A WRITE meets
the checks of the tile's port row by row; a JWRITE of the partner to its twin region is stored; a SEND goes to its queue or basin with its last packet; a READ is answered; a BARRIER reaches the gatehouse. -/
def Obligations.CxtDelivers : Prop :=
  (∀ (s : State) (p q : CxtPkt) (i : Instr),
    (i = .cxtWrite p ∧ q = asOp p opWRITE) ∨ (i = .cxtJwrite p ∧ q = asOp p opJWRITE) ∨ (i = .cxtSend p ∧ q = asOp p opSEND) ∨ (i = .cxtRead p ∧ q = asOp p opREAD) ∨
    (i = .cxtBarrier p ∧ q = asOp p opBARRIER) ∨ (i = .aliasUpdate p ∧ q = asCtrl p 1) ∨ (i = .queueEpochNotice p ∧ q = asCtrl p 2) ∨ (i = .portNotice p ∧ q = asCtrl p 3) ∨
    (i = .failureNotice p ∧ q = asCtrl p 4) ∨ (i = .replacedNotice p ∧ q = asCtrl p 5) ∨ (i = .abort p ∧ q = asCtrl p 6) ∨ (i = .abortReport p ∧ q = asCtrl p 7) ∨
    (i = .releaseRecord p ∧ q = asCtrl p 8) ∨ (i = .layoutEpoch p ∧ q = asCtrl p 9) ∨ (i = .ctrlCreditReturn p ∧ q = asCtrl p 10) ∨
    (i = .deviceCertificate p ∧ q = asCtrl p 11) →
    InTurn s q →
    let u := placed s q
    exec i s = .next (match landPkt landGate u q with
      | none => u
      | some r => passed u r.2 q r.1) ∧
    (q.hdr.op = opCTRL → ctrlLen (ctl q.data 0 2) = some q.data.length → exec i s = .next (passed u (ctrlEffect u q.hdr.sdev (ctl q.data 0 2) q.data) q stOK)) ∧
    (q.hdr.op = opCTRL → ctrlLen (ctl q.data 0 2) ≠ some q.data.length → exec i s = .next (passed u u q stADDRESS))) ∧
  (∀ (s : State) (p : CxtPkt), let q := asOp p opWRITE
    let u := placed s q
    let a := p.hdr.addr
    let t := (a - spadAddr 0 0) / 0x20_0000
    let ps := (rowPieces a p.data.length).map fun (b, n) =>
      ({ addr := b, data := (p.data.drop (b - a)).take n, sender := cxSender p.hdr, epoch := p.hdr.epoch, tag := 0 } : WritePkt)
    InTurn s q → (kindAt u a p.data.length ≠ .spad → exec (.cxtWrite p) s = .next (passed u u q stADDRESS)) ∧
      (kindAt u a p.data.length = .spad → (∀ w ∈ ps, writeCheck u t w = stOK → writeWaits u t w = false) →
        let r := ps.foldl (fun (r : Nat × State) w => match deliverWrite r.2 t w with
          | some q => (max r.1 q.1, q.2)
          | none => r) (stOK, u)
        exec (.cxtWrite p) s = .next (passed u r.2 q r.1))) ∧
  (∀ (s : State) (p : CxtPkt), let q := asOp p opJWRITE
    let u := placed s q
    let a := p.hdr.addr
    let k := (hbmPlace u a).1
    let base := u.fld .mc k R.TWREGION_BASE
    let r := stageFor u k (pageOf (blockKey u a))
    InTurn s q → u.fld .ld 0 R.TWCFG_PAIREN ≠ 0 → p.hdr.sdev = u.fld .ld 0 R.TWCFG_PARTNER → a < 0x80_0000_0000 → u.fld .mc k R.TWREGION_EN ≠ 0 → base ≤ a →
      a + p.data.length ≤ base + twinSize u k → blockHeld u a = false → r.1 = true →
      (∀ b, p.blk = some b → exec (.cxtJwrite p) s = .next (passed u (State.wr { r.2 with blocks := mput (fun _ => (0, 4096)) r.2.blocks (blockKey r.2 a) (b.form, b.len) }
        (hbmKey r.2 (a / 4096 * 4096)) (fitBytes 4096 (p.data.take b.len))) q stOK)) ∧
      (p.blk = none → (blockForm r.2 a).1 = 0 → exec (.cxtJwrite p) s = .next (passed u (r.2.wr (hbmKey r.2 a) p.data) q stOK)) ∧
      (p.blk = none → (blockForm r.2 a).1 ≠ 0 → exec (.cxtJwrite p) s = .next (passed u r.2 q stACCESS))) ∧
  (∀ (s : State) (p : CxtPkt), let q := asOp p opSEND
    let u := placed s q
    let k := pathOf q
    let bs := (u.recvPath k).part ++ p.data
    let t := (p.hdr.addr - regAddr .tile 0 0) / 0x1_0000
    let n := (p.hdr.addr % 0x1_0000 - R.QCFG 0) / 0x20
    let d := Desc.ofBytes (bs.take 32)
    let m : Msg := { queue := n, chan := p.hdr.path, sender := cxSender p.hdr, epoch := p.hdr.epoch, desc := d, payload := bs.drop 32, tag := 0 }
    InTurn s q → toBasin u q.hdr = false →
      (p.hdr.last = false → exec (.cxtSend p) s = .next (passed u (u.setRecvPath k { u.recvPath k with part := bs }) q stOK)) ∧
      (p.hdr.last = true → n < 16 → p.hdr.addr = regAddr .tile t (R.QCFG n) → t < 2048 → u.bound t = true → d.legal = true →
        descCheck u t m = stOK → arrivalWaits u t m = false →
        let v := settle (acceptMsg u t m) t
        exec (.cxtSend p) s = .next (passed u (v.setRecvPath k { v.recvPath k with part := [] }) q stOK))) ∧
  (∀ (s : State) (p : CxtPkt), let q := asOp p opREAD
    let u := placed s q
    let a := p.hdr.addr
    let n := p.hdr.dlen
    let h := { baseHdr u opRDATA p.hdr.sdev p.hdr.path with addr := a, last := true, tag := stOK }
    InTurn s q → n ≤ 4096 →
      (kindAt u a n = .hbm → blockHeld u a = false → a % 4096 ≠ 0 ∨ n ≠ 4096 → exec (.cxtRead p) s =
        .next (passed u (cxtEmit u p.hdr.sdev p.hdr.path roleFABRIC h none (hbmBytes u a n) .none) q stOK)) ∧
      (kindAt u a n = .hbm → blockHeld u a = false → a % 4096 = 0 → n = 4096 → let f := blockForm u a
        exec (.cxtRead p) s = .next (passed u (cxtEmit u p.hdr.sdev p.hdr.path roleFABRIC h (some ⟨blockCrc f.1 f.2 (hbmBytes u a n), f.1, f.2⟩) (hbmBytes u a n) .none) q stOK)) ∧
      (kindAt u a n = .spad → let t := (a - spadAddr 0 0) / 0x20_0000
        let f := freeParity u (a - spadAddr t 0) n
        let r := serveRead f.2 t (a - spadAddr t 0) n f.1
        exec (.cxtRead p) s = .next (passed u (cxtEmit r.2.2 p.hdr.sdev p.hdr.path roleFABRIC
          { baseHdr r.2.2 opRDATA p.hdr.sdev p.hdr.path with addr := a, last := true, tag := r.1 } none r.2.1 .none) q stOK)) ∧
      (kindAt u a n = .other → exec (.cxtRead p) s = .next (passed u u q stADDRESS))) ∧
  (∀ (s : State) (p : CxtPkt), let q := asOp p opBARRIER
    InTurn s q → exec (.cxtBarrier p) s = .next (passed (placed s q) (landBarrier (placed s q) q) q stOK))

/-- R428, R430, R490, R749, R750: an RDATA delivers its data; an ACK ends packets of the path, a GRANT gives room or answers a request, a HEARTBEAT is noted; a packet of another generation is counted and
answered with STALE_EPOCH, and one that has come before is acknowledged again. -/
def Obligations.CxtAnswers : Prop :=
  (∀ (s : State) (p : CxtPkt), let q := asOp p opRDATA
    let u := placed s q
    InTurn s q → exec (.cxtRdata p) s = .next (pullOn (passed u (deliverRdata u q) q stOK)) ∧
      (∀ r rest, takeFirst (fun (r : CxRead) => r.path == pathOf q) s.cxReads = some (r, rest) →
        (q.hdr.last = false → exec (.cxtRdata p) s = .next (pullOn (accepted
          { u with cxReads := modFirst (fun (r : CxRead) => r.path == pathOf q) (fun x => { x with got := r.got ++ q.data }) s.cxReads } q stOK))) ∧
        (∀ t tag, q.hdr.last = true → r.kind = .tile t tag → s.tstate t ≠ fenced → exec (.cxtRdata p) s =
          .next (pullOn (passed u (readBack { u with cxReads := rest } t tag q.hdr.tag (r.got ++ q.data)) q stOK))))) ∧
  (∀ (s : State) (p : CxtPkt),
    (Arrives s (asOp p opACK) → s.fld .ld 0 R.CXEPOCH_ALIAS = p.hdr.aliasGen → exec (.cxtAck p) s = .next (tryBars (takeAck s (asOp p opACK).hdr))) ∧
    (Arrives s (asOp p opGRANT) → exec (.cxtGrant p) s = .next (takeGrant s (asOp p opGRANT))) ∧
    (Arrives s (asOp p opHEARTBEAT) → exec (.cxtHeartbeat p) s = .next (takeHeartbeat s (asOp p opHEARTBEAT)))) ∧
  (∀ (s : State) (p : CxtPkt) (op : Nat), numbered op = true → portUp s p.port = true → s.fld .ld (p.port / 2) R.CXCFG_EN ≠ 0 → p.fcsOk = true → p.hdr.ver = 0x20 →
    p.ce = false →
    (p.hdr.ddev ≠ s.fld .ld (p.port / 2) R.CXCFG_DEV ∨ p.hdr.aliasGen ≠ s.fld .ld (p.port / 2) R.CXEPOCH_ALIAS →
      receiveOp s p op = sendStale (cxCount s p.port R.CXCNT_STALE) (asOp p op)) ∧
    (Arrives s p → psnBefore p.hdr.psn (s.recvPath (pathOf p)).next = true →
      receiveOp s p op = sendAck (cxCount s p.port R.CXCNT_DUP) p.port p.hdr.sdev p.hdr.path (s.recvPath (pathOf p)).last false)) ∧
  (∀ (s : State) (p : CxtPkt) (op : Nat), portUp s p.port = false ∨ s.fld .ld (p.port / 2) R.CXCFG_EN = 0 ∨ p.fcsOk = false ∨ p.hdr.ver ≠ 0x20 → receiveOp s p op = s)

/-- R30, R420, R422, R423, R429, R455, R463, R744, R748: two ports that share a prefix have two addresses; a packet not acknowledged is sent again, and after the eighth time its peer has failed; what waits on a path whose port is down moves to another; a port goes down, retrains and returns at a boundary, and stops on a flow
control frame; a new layout is applied once every tile is still, every UU idle and no bucket open; a write of the alias generation starts every path afresh. -/
def Obligations.CxtPorts : Prop :=
  (∀ (s : State) (port dev idx : Nat) (x : SentPkt) (rest : List SentPkt), (s.sendPath (pathKey dev idx)).unacked = x :: rest →
    (x.outs < 7 → exec (.cxtRetransmitTimeout port dev idx) s = .next (resend s (pathKey dev idx) port x rest)) ∧
    (7 ≤ x.outs → exec (.cxtRetransmitTimeout port dev idx) s = .next (peerFailed s (pathKey dev idx) (heartbeat s))) ∧
    (x.onPort < 3 → (s.sendPath (pathKey dev idx)).port = some port → portUp s port = true →
      resend s (pathKey dev idx) port x rest = State.send ((cxCount s port R.CXCNT_RETX).setSendPath (pathKey dev idx)
        { s.sendPath (pathKey dev idx) with port := some port, unacked := { x with pkt := { x.pkt with port := port }, outs := x.outs + 1, onPort := x.onPort + 1 } :: rest })
        (.cxt port { x.pkt with port := port }))) ∧
  (∀ (s : State) (port dev idx n : Nat), let k := pathKey dev idx
    let x := s.sendPath k
    x.unacked = [] →
    (x.waiting ≠ [] → x.port = some n → portUp s n = false → ∀ m, otherPort s dev port = some m →
      let u := s.logOp 0x0802 (k * 64 + m)
      exec (.cxtRetransmitTimeout port dev idx) s = .next (flushPath (u.setSendPath k { x with port := some m, granted := 0, asked := false }) k (x.waiting.length + 1))) ∧
    (x.waiting = [] → x.asked = false → exec (.cxtRetransmitTimeout port dev idx) s = .next s) ∧
    (x.port = some n → portUp s n = true → x.asked = true →
      (7 ≤ x.unheard → exec (.cxtRetransmitTimeout port dev idx) s = .next (peerFailed s k (heartbeat s))) ∧
      (x.unheard < 7 → exec (.cxtRetransmitTimeout port dev idx) s = .next (cxtPlain (s.setSendPath k { x with unheard := x.unheard + 1 }) n
        { baseHdr s opGRANT dev idx with tag := grantREQ } [])))) ∧
  (∀ (s : State) (p : Nat), p < 64 →
    (s.pf p R.FPSTAT_STATE = 0 ∨ s.pf p R.FPSTAT_STATE = 3 → exec (.portLinkDown p) s = .next s) ∧
    (s.pf p R.FPSTAT_STATE ≠ 0 → s.pf p R.FPSTAT_STATE ≠ 3 → ∃ u, exec (.portLinkDown p) s = .next u ∧ u.pf p R.FPSTAT_STATE = 0 ∧ u.pf p R.FPSTAT_REASON = 1) ∧
    (s.pf p R.FPSTAT_STATE = 0 → exec (.portRetrain p true) s =
      .next { s.setPf p R.FPSTAT_STATE 1 with portsBack := s.portsBack ++ [(p, mget (fun _ => []) s.portPeers p)] }) ∧
    exec (.portRetrain p false) s = .next s ∧
    (∀ prio, s.pf p R.FPCFG_MODE = 0 → s.pf p R.FPCFG_PFC = 1 → s.pf p R.FPCFG_PRIO = prio →
      (s.paused.contains p = false → exec (.priorityFlowControlFrame p prio true) s = .next { s with paused := s.paused ++ [p] }) ∧
      exec (.priorityFlowControlFrame p prio false) s = .next (flushPort { s with paused := s.paused.filter fun q => q ≠ p } p)) ∧
    (s.pf p R.FPCFG_MODE = 1 → portUp s p = true → mget (fun _ => 0) s.replays p < 15 → ∃ u, exec (.directModeLinkReplay p false) s = .next u ∧
      mget (fun _ => 0) u.replays p = mget (fun _ => 0) s.replays p + 1 ∧ u.pf p R.FPSTAT_STATE = 2) ∧
    (s.pf p R.FPCFG_MODE = 1 → portUp s p = true → 15 ≤ mget (fun _ => 0) s.replays p → ∃ u, exec (.directModeLinkReplay p false) s = .next u ∧
      u.pf p R.FPSTAT_STATE = 0 ∧ u.pf p R.FPSTAT_REASON = 2)) ∧
  (∀ (s : State) (st₁ st₂ p₁ p₂ : Nat), st₁ < 2 ^ 16 → st₂ < 2 ^ 16 → p₁ < 64 → p₂ < 64 → s.fld .ld (p₁ / 2) R.CXPREFIX_PREFIX = s.fld .ld (p₂ / 2) R.CXPREFIX_PREFIX →
    ip6Of s st₁ p₁ = ip6Of s st₂ p₂ → st₁ = st₂ ∧ p₁ = p₂) ∧
  (∀ (s : State) (l : Nat), s.reshardTo = some l → bucketOpen s = false → (∀ k, k < 8 → dieStill s k = true ∧ s.fld .mc k R.UUSTAT_STATE = 0) → s.hostGone = true → l < 2 ^ 16 →
    ∃ u, exec .reshardApply s = .next u ∧ u.reshardTo = none ∧ u.stepHold = true ∧ ∀ ld, ld < 32 → u.fld .ld ld R.CXEPOCH_LAYOUT = l) ∧
  (∀ (s : State) (ld v : Nat), ld < 32 → v < 2 ^ 32 → ∃ u, exec (.cxepochAliasWrite ld v) s = .next u ∧ u.fld .ld ld R.CXEPOCH_ALIAS = v ∧ u.sendPaths = [] ∧ u.recvPaths = [] ∧
    u.cxReads = [] ∧ ∀ a, a ≠ regAddr .ld ld R.CXEPOCH → u.reg a = s.reg a) ∧
  (∀ (s : State) (ld : Nat) (v : Word), let u := storeReg s (regAddr .ld ld R.CXCFG) v
    (wget v 48 48 = 1 → exec (.cxcfgEnWrite ld v) s = .next (resetPaths u)) ∧ (wget v 48 48 = 0 → exec (.cxcfgEnWrite ld v) s = .next u))

/-! ### The twin and recovery -/

/-- R488–R492, R495, R503: a period without a heartbeat is missed and the fifth in a row declares the partner failed, as a probe without an answer does; that puts the pair into takeover and aborts the
step, with every tile held; a tile that does not hold is reset, and a spare that does not answer gives way to the other. -/
def Obligations.FailureDetected : Prop :=
  (∀ (s : State), s.fld .ld 0 R.TWCFG_PAIREN = 1 → s.fld .ld 0 R.TWCFG_HBEN = 1 →
    let n := if s.hbHeard then 0 else min 5 (s.fld .ld 0 R.TWSTAT_HBMISS + 1)
    ∃ u, (∀ ld, ld < 32 → u.fld .ld ld R.TWSTAT_HBMISS = n) ∧ u.hbHeard = false ∧ u.tiles = s.tiles ∧ u.mem = s.mem ∧
      (n < 5 → exec .heartbeatPeriod s = .next u) ∧ (n = 5 → exec .heartbeatPeriod s = .next (declareFailed u 0))) ∧
  (∀ (s : State), (s.probing = true → exec .probeTimeout s = .next (declareFailed { s with probing := false } 2)) ∧
    (s.probing = false → exec .probeTimeout s = .next s)) ∧
  (∀ (s : State) (cause : Nat), s.fld .ld 0 R.TWCFG_PAIREN = 1 → s.taking = none → s.fld .ld 0 R.TWSTAT_PAIR = 1 →
    let u := declareFailed s cause
    (∀ ld, ld < 32 → u.fld .ld ld R.TWSTAT_PAIR = 3) ∧ u.aborting.isSome = true ∧ u.taking.isSome = true) ∧
  (∀ (s : State) (step failed from_ : Nat) (b : Bool), s.aborting = none → let u := startAbort s step b failed from_
    u.aborting = some { step := step, takeover := b, failed := failed } ∧ ∀ t, t < 2048 → u.tf t R.TCTL_HOLD = 1) ∧
  (∀ (s : State) (t : Nat), s.aborting.isSome = true → s.bound t = true → s.tf t R.TSTAT_HELD = 0 → s.tf t R.TSTAT_HALTED = 0 → s.tstate t ≠ fenced → s.tstate t ≠ asleep →
    exec (.tileHoldTimeout t) s = .next (tileReset s t)) ∧
  (∀ (s : State) (k : Takeover), s.taking = some k → k.moved = true →
    (k.spare = 0 → exec .spareAnswerTimeout s = .next (takeoverOn { s with taking := some { k with spare := 1, moved := false } })) ∧
    (k.spare = 1 → exec .spareAnswerTimeout s = .next (logAndTell { s with taking := some { k with spare := 2, moved := false } } 0x0904 k.dev))) ∧
  (∀ (s : State), (s.hostGone = false → exec .hostLost s = .next { s.logOp 0x0905 0 with
      hostGone := true, stepHold := true, chp := { s.chp with sessions := s.chp.sessions.map fun x => { x with old := true } } }) ∧
    (s.hostGone = true → exec .hostLost s = .next s))

/-- R29, R495–R498, R500, R502: a chosen spare takes the number and the twin of the failed device and pulls; the pull ends or loses the pair's state; the journal is replayed on every stack with a twin region;
the restart, in which a device that has left its job or been replaced takes no part, waits for the pull and the replay, for still tiles and for idle dies, then resets them, opens the tasks at the step in progress and starts the tiles. -/
def Obligations.SpareRestarts : Prop :=
  (∀ (s : State) (dev twin : Nat), dev < 2 ^ 16 → twin < 2 ^ 16 → ∃ u, exec (.spareChosen dev twin) s = .next u ∧ u.pulling = some twin ∧ u.dataReady = false ∧ u.replayDue = true ∧ u.released = none ∧
    (∃ st, u.aborting = some { step := st, takeover := true, failed := dev, reported := true }) ∧
    ∀ ld, ld < 32 → u.fld .ld ld R.CXCFG_DEV = dev ∧ u.fld .ld ld R.TWCFG_PARTNER = twin ∧ u.fld .ld ld R.TWCFG_PAIREN = 1 ∧ u.fld .ld ld R.TWSTAT_PAIR = 3) ∧
  (∀ (s : State) (dev : Nat), s.pulling = some dev → exec (.statePullComplete false) s = .next (pairLost s) ∧
    ((∀ r ∈ s.cxReads, ∃ t tag, r.kind = .tile t tag) → exec (.statePullComplete true) s = .next { s with pulling := none })) ∧
  (∀ (s : State), s.fld .ld 0 R.TWSTAT_PAIR = 3 → s.pulling = none → s.taking = none → exec .journalReplay s = .next ((List.range 8).foldl (fun s k =>
    if s.fld .mc k R.TWREGION_EN = 0 then s else replayStack s s.ownDev k (controlBlock s k) (2 ^ 32)) { s with replayDue := false })) ∧
  (∀ (s : State) (dev k upto n g : Nat) (blk : List Byte), k < 8 → newestGen blk = some (n, g) → let u := replayStack s dev k blk upto
    let last := (releasedAfter blk g).foldl (fun m e => max m e.2) g
    (last < 2 ^ 32 → u.fld .mc k R.UUSTAT_CSTEP = last) ∧ u.fld .mc k R.UUSTAT_LASTSKIP = (if skipped blk last then 1 else 0)) ∧
  (∀ (s : State), s.left = true ∨ s.replaced = true ∨ s.pulling.isSome = true ∨ s.replayDue = true ∨ (∃ d, d < 8 ∧ dieStill s d = false) → exec .restart s = .next s) ∧
  (∀ (s : State) (a : Abort), s.aborting = some a → s.left = false → s.replaced = false → s.pulling = none → s.replayDue = false → (∀ d, d < 8 → dieStill s d = true) →
    ((∃ d, d < 8 ∧ dieIdle s d = false) → exec .restart s =
      .next ((List.range 8).foldl (fun s d => if dieIdle s d then s else s.setFld .die d R.DRESET_PENDING 1) s)) ∧
    ((∀ d, d < 8 → dieIdle s d = true) → 
      let r := (List.range 2048).foldl (fun s t => s.setTf t R.TCTL_HOLD 0) ((List.range 8).foldl askDieReset s)
      let o := openTasks { r with aborting := none, devBars := [], stepHold := r.hostGone }
      let p := (boundTiles o).foldl (fun s t => (s.setTf t (R.NSCALE_STEP 0) (stepNow o)).setTf t (R.NSCALE_STEP 1) (stepNow o)) o
      let n := (List.range 8).foldl (fun s k =>
        if s.fld .mc k R.MCCFG_UUEN = 0 then s else notifyStep s k (s.fld .mc k R.UUSTAT_CSTEP) (s.fld .mc k R.UUSTAT_LASTSKIP == 1)) p
      let g := startGenerations n
      let q := if g.fld .ld 0 R.TWSTAT_PAIR = 3 then setPair { g with partnerIdle := false } 2 else g
      let w := match q.taking with | some k => logAndTell { q with taking := none } 0x0902 (takeoverTimes q k) | none => q
      let spare := decide (r.fld .ld 0 R.TWSTAT_PAIR = 3) && r.taking.isNone
      exec .restart s = .next (if spare ∧ !w.dataReady then { w with startWaits := true } else startTiles { w with dataReady := false })))

/-! ### Start-up, the lease and commands -/

/-- R533, R534, R577, R579, R588, R718, R720, R724, R730: each stage of the start-up begins where the one before it has ended and is passed when what it waits for has come, or fails and stops the start;
package reset keeps MRAM and sends the part back to its beginning. -/
def Obligations.StartUpStages : Prop :=
  (∀ (s : State), (s.lodge.off = true → exec .vaonInRange s = .next (packageReset (s.modLodge fun l => { l with off := false }))) ∧
    (s.lodge.off = false → exec .vaonInRange s = .next s ∧ exec .porstNAssert s = .next (packageReset s)) ∧
    (∃ u, exec .vaonLost s = .next u ∧ u.lodge.off = true ∧ u.lodge.stage = 0 ∧ u.mram = s.mram ∧ u.regs = [] ∧ u.mem = [] ∧ u.tiles = []) ∧
    (let u := packageReset s
     u.lodge.porst = true ∧ u.lodge.stage = 0 ∧ u.mram = { s.mram with savedCause := 0 } ∧ u.lodge.prevCause = s.mram.savedCause % 2 ^ 16 ∧ u.regs = [] ∧ u.mem = [] ∧ u.tiles = [] ∧
       u.bind = [] ∧ u.parked = remapAll s ∧ u.chp.sessions = [] ∧ u.pending = s.pending ∧ u.toHost = s.toHost)) ∧
  (∀ (s : State) (trst refclk : Bool), s.lodge.off = false → s.lodge.porst = true → ∃ u, exec (.porstNRelease trst refclk) s = .next u ∧
    u.lodge.porst = false ∧ u.lodge.boardTest = trst ∧ u.lodge.refclk = refclk ∧ u.lodge.stage = (if refclk then 1 else 0) ∧
    (u.lodge.cryptoErr = true ↔ (Config.pufSeed Config.helperData).length ≠ 32) ∧
    u.lodge.lms = max (s.mram.lmsA.getD 0) (s.mram.lmsB.getD 0)) ∧
  (∀ (s : State), s.lodge.off = false → s.lodge.porst = false → s.lodge.refclk = false → ∃ u, exec .refclkAonArrival s = .next u ∧ u.lodge.refclk = true ∧ u.lodge.stage = 1 ∧
    bitOf u.lodge.cause causeRefclk = false ∧ u.regs = s.regs) ∧
  (∀ (s : State), s.lodge.off = false → s.lodge.porst = false → s.lodge.failed = false → s.lodge.stage = 1 →
    (∀ n, n < 2 → slotBarred s n = false → slotBarred s (1 - n) = true → (slotOf s (1 - n)).st ≠ 3 → (slotOf s n).st ≠ 2 → exec .lodgeFirmwareVerify s =
      .next (if slotVerifies s n 0 then s.modLodge fun l => { l with slot := n, stage := 2 }
        else raiseCause ((slotFails s n 0 2).modLodge fun l => { l with failed := true }) causeSlots 0)) ∧
    (slotBarred s 0 = true → slotBarred s 1 = true → exec .lodgeFirmwareVerify s = .next (raiseCause (s.modLodge fun l => { l with failed := true }) causeSlots 0))) ∧
  (∀ (s : State), s.lodge.failed = false → s.lodge.porst = false →
    (s.lodge.stage = 2 → s.lodge.vinx = true → s.lodge.pvX = false → exec .pvXPowerOn s =
      .next (((List.range 8).map (8 + ·)).foldl (fun s f => requestFn s f true) (s.modLodge fun l => { l with pvX := true }))) ∧
    (s.lodge.stage = 3 → s.lodge.boardTest = false → ∃ u, exec .gatehouseBoot s = .next u ∧
      (slotVerifies s s.lodge.slot 1 = true → u.lodge.stage = 4 ∧ u.ghUp = [0, 1] ∧ u.ghFailed = [] ∧ u.tiles = s.tiles) ∧
      (slotVerifies s s.lodge.slot 1 = false → u = stageFails (s.logSec 0x0001 (s.lodge.slot + 2 ^ 8)) 4)) ∧
    (s.lodge.stage = 5 → s.lodge.boardTest = false → ∃ u, exec .hdPowerUp s = .next u ∧
      (slotVerifies s s.lodge.slot 3 = true → u.lodge.stage = 6 ∧ ∀ d, d < 8 → u.fld .die d R.DPWR_PSTATE = 2) ∧
      (slotVerifies s s.lodge.slot 3 = false → u = stageFails (s.logSec 0x0001 (s.lodge.slot + 3 * 2 ^ 8)) 6)) ∧
    (s.lodge.stage = 6 → exec .hostPortTrained s = .next (s.modLodge fun l => { l with stage := 7 })) ∧
    (stageNow s ≠ 0 → exec .bootStageFail s = .next (stageFails s (stageNow s))) ∧
    (s.lodge.stage < 7 → s.lodge.power = none → s.lodge.loading = none → s.lodge.starting = none → stageNow s = s.lodge.stage + 1 ∧
      (stageFails s (s.lodge.stage + 1)).lodge.failed = true ∧ (stageFails s (s.lodge.stage + 1)).lodge.stage = s.lodge.stage) ∧
    (∀ inp, inp < 10 → s.lodge.power = none → ∃ u, exec (.powerGoodRise inp) s = .next u ∧ u = { s with lodge := u.lodge } ∧
      (∀ g, g < 8 → bitOf u.lodge.vinc g = (bitOf s.lodge.vinc g || inp == g)) ∧ u.lodge.vinx = (s.lodge.vinx || inp == 8) ∧ u.lodge.vhbm = (s.lodge.vhbm || inp == 9)))

/-- R516–R521, R527–R529: the lodge grants the lease under a new epoch, which every die takes, to a gatehouse that asks while no term runs; the holder's renewal begins its term anew; a die that misses
its keepalives holds until they have resumed and the holder lets it go; the failure of the arbiter holds every die. -/
def Obligations.LeaseAndLodge : Prop :=
  (∀ (s : State) (gh : Nat), gh < 2 → s.ghUp.contains gh = true → leaseFree s = true →
    (s.lodge.stage ≠ 4 ∨ s.lodge.holder.isSome = true ∨ (gh = 0 ∧ s.lodge.firstAsk = none) → exec (.leaseRequest gh) s = .next (grantLease s gh)) ∧
    (s.lodge.stage = 4 → s.lodge.holder = none → gh = 1 →
      (s.lodge.firstAsk = none → exec (.leaseRequest gh) s = .next (s.modLodge fun l => { l with firstAsk := some s.ticks })) ∧
      (∀ t, s.lodge.firstAsk = some t → exec (.leaseRequest gh) s = .next (grantLease s 1))) ∧
    (s.lodge.stage = 4 → s.lodge.holder = none → gh = 0 → ∀ t, s.lodge.firstAsk = some t → s.ticks < t + msTicks → exec (.leaseRequest gh) s = .next (grantLease s 0)) ∧
    (¬ (s.lodge.holder = some gh ∧ s.lodge.termOver = false) → exec (.leaseRenewRequest gh) s = .next (grantLease s gh)) ∧
    (s.mram.epoch < 2 ^ 32 - 1 → let u := grantLease s gh
      u.mram.epoch = s.mram.epoch + 1 ∧ u.lodge.holder = some gh ∧ u.lodge.termOver = false ∧
        (∀ n, n < 41 → u.lf n R.DLEASE_EPOCH = s.mram.epoch + 1 ∧ u.lf n R.DLEASE_HOLDER = gh ∧ u.lf n R.DLEASE_VALID = 1)) ∧
    (2 ^ 32 - 1 ≤ s.mram.epoch → (grantLease s gh).mram.epoch = s.mram.epoch ∧ (grantLease s gh).lodge.arbFault = true)) ∧
  (∀ (s : State) (gh : Nat), s.lodge.arbFault = false → s.ghUp.contains gh = true → s.lodge.holder = some gh → s.lodge.termOver = false →
    exec (.leaseRenewRequest gh) s = .next (s.modLodge fun l => { l with lapse := false })) ∧
  (∀ (s : State), exec .leaseRelease s = .next (s.modLodge fun l => { l with holder := none, termOver := false }) ∧
    exec .leaseTermExpiry s = .next (s.modLodge fun l => { l with termOver := l.holder.isSome }) ∧
    exec .holderRenewalLapse s = .next (s.modLodge fun l => { l with lapse := l.holder.isSome }) ∧
    (s.lodge.arbFault = false → ∃ u, exec .arbiterFault s = .next u ∧ u.lodge.arbFault = true ∧ ∀ n, n < 41 → u.lf n R.DLEASE_HELD = 1 ∧ u.lf n R.DLEASE_ARBFAULT = 1) ∧
    (∀ gh, ∃ u, exec (.gatehouseFailstop gh) s = .next u ∧ gh ∉ u.ghUp ∧ gh ∈ u.ghFailed ∧ (∀ g, g ≠ gh → (g ∈ u.ghUp ↔ g ∈ s.ghUp)) ∧
      u = { s with ghUp := u.ghUp, ghFailed := u.ghFailed }) ∧
    (s.lodge.off = false → s.lodge.porst = false → s.lodge.pvX = true →
      exec .lodgeKeepalive s = .next (serve (checkpointOn (startOn (lookRun (powerOn (setLease s R.DLEASE_LODGEOK 1))))))) ∧
    (∀ n, n < 41 → (setLease s R.DLEASE_LODGEOK 1).lf n R.DLEASE_LODGEOK = 1)) ∧
  (∀ (s : State) (n : Nat), n < 41 → s.lf n R.DLEASE_LODGEOK = 1 → ∃ u, exec (.keepaliveMissed n) s = .next u ∧ u.lf n R.DLEASE_LODGEOK = 0 ∧ u.lf n R.DLEASE_HELD = 1 ∧
    u.tiles = s.tiles ∧ u.mem = s.mem) ∧
  (∀ (s : State) (n : Nat), n < 41 → (s.lf n R.DLEASE_LODGEOK = 0 → exec (.dleaseHeldClear n) s = .next s) ∧
    (s.lf n R.DLEASE_LODGEOK = 1 → exec (.dleaseHeldClear n) s = .next (if n < 8 then (List.range 256).foldl (fun s i => unhold s (256 * n + i)) (s.setLf n R.DLEASE_HELD 0)
      else s.setLf n R.DLEASE_HELD 0)) ∧ (s.setLf n R.DLEASE_HELD 0).lf n R.DLEASE_HELD = 0) ∧
  (∀ (s : State) (gh : Nat), s.ghUp.contains gh = true → ∃ u, exec (.staleCommand gh) s = .next u ∧ gh ∈ u.lodge.stale ∧ u.regs = s.regs ∧ u.tiles = s.tiles)

/-- R11, R85, R124, R213, R261, R522–R526, R527: a command record of a gatehouse that may issue it is refused as STALE under an epoch that has passed, as a target error where its target does not stand at the port, and otherwise has
its effect; the port keeps the epoch and the status. A register that is written only while its tile is asleep keeps its value at other times, and a route that is rewritten opens. The words of a command port are kept, and the last executes
the record. A die reset is made only of a die whose tiles are still, and waits until the die's buffers are empty. -/
def Obligations.RegisterCommands : Prop :=
  (∀ (s : State) (gh epoch a : Nat) (v m : Word) (src len : Nat), s.ghUp.contains gh = true → s.lodge.stale.contains gh = false →
    ¬ (s.lodge.lapse = true ∧ s.lodge.holder = some gh) →
    let port := (portFor s a).getD 0
    let b := leaseBlock port
    let cur := s.lf port R.DLEASE_EPOCH
    let late := epoch < cur ∨ (epoch = cur ∧ s.lf port R.DLEASE_HOLDER ≠ gh)
    let done := fun (s : State) (st : Nat) => (s.setFld b.1 b.2 (R.DCMDST_EPOCH gh) epoch).setFld b.1 b.2 (R.DCMDST_STATUS gh) st
    let taken := if epoch > cur then ((s.setLf port R.DLEASE_EPOCH epoch).setLf port R.DLEASE_HOLDER gh).setLf port R.DLEASE_VALID 1 else s
    (late → exec (.commandWrite gh epoch a v) s = .next (done s 1) ∧ exec (.commandMaskedWrite gh epoch a v m) s = .next (done s 1) ∧
      exec (.commandCopy gh epoch src a len) s = .next (done s 1)) ∧
    (¬ late → targetOk s port a 8 = false → exec (.commandWrite gh epoch a v) s = .next (done taken 2) ∧
      exec (.commandMaskedWrite gh epoch a v m) s = .next (done taken 2)) ∧
    (¬ late → (portFor s a).isSome = true → targetOk s port a 8 = true →
      ((∀ t o, regionOf s.grade a ≠ .spad t o) → exec (.commandWrite gh epoch a v) s = .next (writeReg (done taken 0) a v ones) ∧
        exec (.commandMaskedWrite gh epoch a v m) s = .next (writeReg (done taken 0) a v m)) ∧
      (∀ t o, regionOf s.grade a = .spad t o → exec (.commandWrite gh epoch a v) s = .next (putSpad (done taken 0) t a (toBytes v.toNat 8)) ∧
        exec (.commandMaskedWrite gh epoch a v m) s =
          .next (putSpad (done taken 0) t a (toBytes (((BitVec.ofNat 64 (ofBytes ((done taken 0).rd a 8))) &&& ~~~m) ||| (v &&& m)).toNat 8)))) ∧
    (¬ late → (portFor s a).isSome = true → targetOk s port a len = true → hbmAddr src = true → hbmAddr (src + len - 1) = true → 8 ≤ len → len ≤ 4096 → len % 8 = 0 →
      exec (.commandCopy gh epoch src a len) s = .next (copyIn (done taken 0) src a len))) ∧
  (∀ (s : State) (t a : Nat) (bs : List Byte), let u := putSpad s t a bs
    (∀ x, u.byte x = (s.wr a bs).byte x) ∧ (∀ x, u.reg x = s.reg x) ∧ ∀ k, k ≠ t → u.tile k = s.tile k) ∧
  (∀ (s : State) (t off a : Nat) (v m : Word), s.tstate t ≠ asleep → sleepOnly off = true → regionOf s.grade a = .reg .tile t off → ∀ x, (writeReg s a v m).reg x = s.reg x) ∧
  (∀ (s : State) (t n : Nat) (v : Word), t < 2048 → n < 64 → s.grade = .cg2048 → (writeReg s (regAddr .tile t (R.CHROUTE n)) v ones).tf t (R.CHROUTE_CLOSED n) = 0) ∧
  (∀ (s : State) (gh epoch a : Nat) (v : Word), s.ghUp.contains gh = false ∨ s.lodge.stale.contains gh = true ∨ (s.lodge.lapse = true ∧ s.lodge.holder = some gh) →
    exec (.commandWrite gh epoch a v) s = .next s) ∧
  (∀ (s : State) (a : Nat) (v : Word), let u := s.unwire (.regWrite a v)
    (dcmdAt s a = none → exec (.registerWrite a v) s = .next (writeReg u a v ones)) ∧
    (∀ port gh k, dcmdAt s a = some (port, gh, k) → let w := { u with dcmd := mput (fun _ => 0) u.dcmd a v }
      exec (.registerWrite a v) s = .next (if k = 3 then runRecord w port gh (a - 24) else w))) ∧
  (∀ (s : State) (d : Nat), d < 8 → dieStill s d = false → exec (.dresetGo d) s = .next s) ∧
  (∀ (s : State) (d : Nat), d < 8 →
    let u := s.setFld .die d R.DRESET_COUNT (satAdd (s.fld .die d R.DRESET_COUNT) 1 (2 ^ 32 - 1))
    (dieStill s d = true → (dieIdle u d = true → exec (.dresetGo d) s = .next (dieReset u d)) ∧
      (dieIdle u d = false → exec (.dresetGo d) s = .next (u.setFld .die d R.DRESET_PENDING 1))) ∧
    (s.fld .die d R.DRESET_PENDING = 1 → dieIdle s d = true → exec (.dieReset d) s = .next (dieReset s d)) ∧
    (let w := dieReset s d
     w.fld .die d R.DRESET_PENDING = 0 ∧ w.fld .die d R.RSSTAT_RFAULT = 0 ∧
       (mget (fun _ => []) s.cqHeld d = [] → w.fld .die d R.DCQPTR_COUNT = 0 ∧ w.fld .die d R.DCQPTR_HEAD = w.fld .die d R.DCQPTR_TAIL) ∧
       ∀ g, g < 32 → w.fld .die d (R.DBAR_GEN g) = 0xFF ∧ w.fld .die d (R.DBAR_ARRIVED g) = 0))

/-! ### Power, temperature and the damper -/

/-- R11, R535–R540, R555, R716–R719: a power-good that falls takes away what it feeds, and short of package reset the RWS fields stay; a function that has started or stopped is ON or OFF, and one that fails is logged; a stage that waits in vain fails; an image is
loaded once its bank groups are ON. -/
def Obligations.PowerEvents : Prop :=
  (∀ (s : State), s.lodge.porst = false →
    (∀ g, let u := s.modLodge fun l => { l with vinc := if bitOf l.vinc g then l.vinc - 2 ^ g else l.vinc }
      (3 ≤ pstate s → exec (.powerGoodVincFall g) s = .next (leaveJob (domainLost (u.submit { code := 0x0A12, src := 0, detail := g }) g))) ∧
      (pstate s < 3 → stageNow u ≠ 9 → exec (.powerGoodVincFall g) s = .next u)) ∧
    (let u := s.modLodge fun l => { l with vinx := false }
     (3 ≤ pstate s → exec .powerGoodVinxFall s = .next (toAon (u.submit { code := 0x0A12, src := 0, detail := 8 }))) ∧
     (pstate s < 2 → stageNow u < 3 → exec .powerGoodVinxFall s = .next (if s.lodge.pvX then toAon u else u))) ∧
    (let u := s.modLodge fun l => { l with vhbm := false }
     (s.lodge.rails = false → exec .pgVhbmFall s = .next u) ∧
     (s.lodge.rails = true → 3 ≤ pstate s → exec .pgVhbmFall s = .next (stacksLost (u.submit { code := 0x0A13, src := 0, detail := 0 }))) ∧
     (s.lodge.rails = true → pstate s < 3 → stageNow u ≠ 9 → exec .pgVhbmFall s = .next (toAon (u.submit { code := 0x0A13, src := 0, detail := 0 })))) ∧
    (s.lodge.stage = 2 → s.lodge.failed = false → s.lodge.vinx = false → exec .powerGoodTimeout s = .next (stageFails s 3)) ∧
    (s.lodge.stage ≠ 2 → stageNow s = 9 → s.lodge.vhbm = false ∨ s.lodge.vinc ≠ 0xFF → exec .powerGoodTimeout s = .next (stageFails s 9))) ∧
  (∀ (s : State) (g : Nat), g < 8 → let u := domainLost s g
    ∀ a, spadAddr (256 * g) 0 ≤ a → a < spadAddr (256 * g + 256) 0 → u.byte a = 0) ∧
  (∀ (s : State), let u := toAon s
    u.lodge.stage = min s.lodge.stage 2 ∧ u.lodge.holder = none ∧ u.lodge.pvX = false ∧ u.lodge.rails = false ∧ u.lodge.hbmKept = false ∧ u.bind = [] ∧ u.mem = [] ∧ u.tiles = [] ∧
      u.mram = s.mram ∧ u.toHost = s.toHost ∧ u.pending = s.pending ∧ u.chp.sessions = []) ∧
  (∀ (s : State), s.Canon → (∀ e ∈ s.bind, e.1 < 2048) → ∀ (a n off : Nat) (b : Block) (d : RegDesc) (f : FieldDesc), regionOf s.grade a = .reg b n off → b ≠ .tile → regDescAt b off = some d → f ∈ d.fields →
    wget ((toAon s).reg a) f.hi f.lo = if f.acc = .RWS then wget (s.reg a) f.hi f.lo else wget d.reset f.hi f.lo) ∧
  (∀ (s : State) (fn : Nat), (∀ v, fn < 97 → v < 4 → fnState (setFn s fn v) fn = v) ∧
    (fnState s fn = 1 → ¬ (24 ≤ fn ∧ fn < 32 ∧ s.fld .mc (fn - 24) R.MCSTAT_ZEROING = 1) → s.lodge.latches.contains (fn, false) = false → s.lodge.stage ≠ 2 → s.lodge.power = none →
      s.lodge.starting = none → exec (.functionStartingEnd fn) s = .next (setLatch (setFn s fn 2) fn none)) ∧
    (fnState s fn = 3 → s.lodge.latches.contains (fn, true) = false → s.lodge.power = none → exec (.functionStoppingEnd fn) s = .next (setLatch (setFn s fn 0) fn none)) ∧
    (let u := (setLatch (setFn s fn 3) fn none).submit { code := 0x0A11, src := 0, detail := fn }
     (fnState s fn = 1 → 32 ≤ fn → s.lodge.starting = none → exec (.functionStartFail fn) s = .next u) ∧
     (fnState s fn = 1 → fn < 8 → s.lodge.power.map Ask.arg = some 3 → exec (.functionStartFail fn) s = .next (stageFails u 9)) ∧
     (fnState s fn = 1 → 8 ≤ fn → fn < 16 → s.lodge.stage = 2 → exec (.functionStartFail fn) s = .next (stageFails u 3)))) ∧
  (∀ (s : State) (a : Ask), s.lodge.loading = some a → (groupsOn s = false → exec .imageCopyLoad s = .next s) ∧
    (groupsOn s = true → exec .imageCopyLoad s = .next (hostAnswer
      ((loadImage s s.image).modLodge fun l => { l with loading := none, loaded := true, stage := max l.stage 10 }) a.sid a.tag resOK 0 [])))

/-- R543–R550, R723: a damper period takes lent shares back, then drops every borrower of a negative pool or offers steps; the package's period sets the budgets; too much power drops every borrower at once;
temperature stretches the clock, holds every tile, and at 105 °C takes the part to AON. -/
def Obligations.DamperAndTemperature : Prop :=
  (∀ (s : State) (d : Nat), d < 8 →
    let ts := dieTiles s d
    let r := ts.foldl (fun s t => if s.tf t R.TPWR_RECALL = 1 then ((s.setTf t R.TPWR_LENT 0).setTf t R.TPWR_RECALL 0).setTf t R.TPWR_REDUCED 0 else s) s
    (poolOf r d < 0 → exec (.damperPeriod d) s = .next (dropSteps r d)) ∧
    (¬ poolOf r d < 0 → r.fld .die d R.DMPCFG_BOOSTEN = 0 ∨ 0 < r.fld .die d R.DMPTHR_STRETCH → exec (.damperPeriod d) s = .next (showPool r d)) ∧
    (¬ poolOf r d < 0 → ¬ (r.fld .die d R.DMPCFG_BOOSTEN = 0 ∨ 0 < r.fld .die d R.DMPTHR_STRETCH) → exec (.damperPeriod d) s =
      .next (showPool ([3, 2, 1].foldl (fun s c => (ts.filter fun t => s.tf t R.TPWR_CLASS == c).foldl (fun s t => offerStep s d t) s) r) d)) ∧
    (∀ t ∈ ts, (dropSteps s d).tf t R.TPWR_STEP = 0)) ∧
  (∀ (s : State), ∃ u, exec .packageDamperPeriod s = .next u ∧ u.fresh = s.fresh + 8 ∧ u.tiles = s.tiles ∧
    ∀ d, d < 8 → u.fld .die d R.DMPSTAT_BUDGET = ((dieTiles s d).map shareOf).foldl (· + ·) 0 + 1125) ∧
  (∀ (s : State) (w : Nat), s.lodge.samples.length < 99 → s.lodge.dropped = none → s.lodge.capped = false →
    (w ≤ 4500 → exec (.packagePowerSample w) s = .next (s.modLodge fun l => { l with samples := (w :: l.samples).take 100, high := 0, dropped := none, low := 0, capped := false })) ∧
    (5400 < w → exec (.packagePowerSample w) s = .next ((((List.range 8).foldl dropSteps s).submit { code := 0x0A20, src := 0, detail := w }).modLodge fun l =>
      { l with samples := (w :: s.lodge.samples).take 100, high := s.lodge.high + 1, dropped := some 0, low := 0, capped := false }))) ∧
  (∀ (s : State) (temps : List Nat), s.lodge.off = false → s.lodge.porst = false →
    ((∃ x ∈ temps, 105 ≤ x) → exec (.thermalRead temps) s = .next (thermTrip s (temps.foldl max 0))) ∧
    ((∀ x ∈ temps, x < 105) → exec (.thermalRead temps) s = .next ((List.range (min 8 temps.length)).foldl (fun s d => readTemp s d (temps.getD d 0)) s))) ∧
  (∀ (s : State) (d temp : Nat), d < 8 → let u := readTemp s d temp
    let n := mget (fun _ => 0) s.lodge.therm d
    u.fld .die d R.DMPTHR_TJ = min temp 255 ∧ (97 ≤ temp → mget (fun _ => 0) u.lodge.therm d = min 8 (n + 1)) ∧ (93 < temp → temp < 97 → mget (fun _ => 0) u.lodge.therm d = n) ∧
      (temp ≤ 93 → mget (fun _ => 0) s.lodge.cool d = 9 → mget (fun _ => 0) u.lodge.therm d = n - 1)) ∧
  (∀ (s : State) (d : Nat), d < 8 → let tj := s.fld .die d R.DMPTHR_TJ
    (105 ≤ tj → exec (.thermalHold d) s = .next (thermTrip s tj)) ∧
    (100 ≤ tj → tj < 105 → 8 ≤ s.fld .die d R.DMPTHR_STRETCH → s.fld .die d R.DMPTHR_HOTHOLD = 0 → ∃ u, exec (.thermalHold d) s = .next u ∧
      u.fld .die d R.DMPTHR_HOTHOLD = 1 ∧ ∀ t, t < 2048 → u.tf t R.TCTL_HOLD = 1))

/-! ### The host -/

/-- R410, R455, R491, R500, R506, R508, R535, R554, R559–R563: a command of the control session that the power state allows, of a session with nothing waiting, has its effect and is answered; from another
session it is answered NOT_CONTROL. -/
def Obligations.ControlCommands : Prop :=
  ∀ (s₀ : State) (pk : ChpPkt) (tag : Nat), pktFits s₀ pk = true → s₀.chp.queue = [] → sessionBusy s₀ pk.sid = false →
    let s := takePkt s₀ pk
    let sid := pk.sid
    let answer := fun (s : State) (result : Nat) => s.tellHost (.response sid tag result 0 [])
    exec (.claim pk tag) s₀ = .next (answer { s with chp := { s.chp with control := some sid } } 0) ∧
    exec (.close pk tag) s₀ = .next (endSession (answer s 0) sid 2) ∧
    (∀ i, (i = .start pk tag ∨ i = .hold pk tag ∨ i = .resume pk tag ∨ i = .checkpoint pk tag ∨ (∃ x, i = .power pk tag x) ∨ (∃ a n, i = .imageLoad pk tag a n) ∨
      (∃ x, i = .dataReady pk tag x) ∨ (∃ p e, i = .predEn pk tag p e) ∨ (∃ a n l, i = .reshard pk tag a n l) ∨ (∃ x, i = .takeoverCommand pk tag x)) →
      s.chp.control ≠ some sid → exec i s₀ = .next (answer s 1)) ∧
    (s.chp.control = some sid →
      (∀ target, 1 ≤ target → target ≤ 3 → lodgeFree s = true → pstate s = 2 ∨ pstate s = 3 →
        (target = pstate s → exec (.power pk tag target) s₀ = .next (answer s 0)) ∧
        (target ≠ pstate s → exec (.power pk tag target) s₀ = .next (powerOn (State.modLodge
          (if pstate s = 3 then (boundTiles s).foldl (fun s t => taskEnd (taskEnd s t 0) t 1) s else s)
          fun l => { l with power := some ⟨sid, tag, target⟩, rails := l.rails || target == 3 })))) ∧
      (∀ addr len, lodgeFree s = true → pstate s = 3 → stagingOk addr len = true → tilesAsleep s (hbmBytes s addr len) = true → exec (.imageLoad pk tag addr len) s₀ =
        .next (match imageFault s (hbmBytes s addr len) (s.fld .ld 0 R.CXEPOCH_LAYOUT) with
          | some n => imageRefused s sid tag n
          | none => acceptImage (s.modLodge fun l => { l with loading := some ⟨sid, tag, 0⟩, loaded := false }) (hbmBytes s addr len))) ∧
      (lodgeFree s = true → pstate s = 3 → s.lodge.loaded = true → s.left = false → s.replaced = false →
        let u := s.modLodge fun l => { l with starting := some ⟨sid, tag, 0⟩ }
        exec (.start pk tag) s₀ = .next (startOn (if slotVerifies u u.lodge.slot 2 then (usedPorts u).foldl (fun s p => requestFn s (32 + p) true) u
          else slotFails u u.lodge.slot 2 11))) ∧
      (3 ≤ pstate s →
        (∃ u, exec (.hold pk tag) s₀ = .next u ∧ u.lodge.hostHold = true ∧ u.toHost = s.toHost ++ [.response sid tag 0 0 []] ∧ ∀ t, t < 2048 → u.tf t R.TCTL_HOLD = 1) ∧
        (mayResume s sid = false → exec (.resume pk tag) s₀ = .next (hostAnswer s sid tag resSTATE (pstate s) [])) ∧
        (mayResume s sid = true → s.aborting.isSome = true → s.tiles.any (fun e => e.2.started) = false → exec (.resume pk tag) s₀ =
          .next (answer { s.modLodge (fun l => { l with hostHold := false }) with hostGone := false, stepHold := s.reshardTo.isSome } 0)) ∧
        (mayResume s sid = true → s.aborting = none →
          let u := (List.range 8).foldl releaseTiles { s.modLodge (fun l => { l with hostHold := false }) with hostGone := false, stepHold := s.reshardTo.isSome }
          exec (.resume pk tag) s₀ = .next (okay (if u.tiles.any fun e => e.2.started then setPstate u 4 else u) sid tag [])) ∧
        (s.chp.checkpoint = none → exec (.checkpoint pk tag) s₀ =
          .next (checkpointOn { s with stepHold := true, chp := { s.chp with checkpoint := some ⟨sid, tag, 0⟩ } })) ∧
        (∀ addr len layout, s.reshardTo = none → lodgeFree s = true → stagingOk addr len = true → exec (.reshard pk tag addr len layout) s₀ =
          .next (match imageFault s (hbmBytes s addr len) layout with
            | some n => imageRefused s sid tag n
            | none => answer { s with image := hbmBytes s addr len, reshardTo := some layout, stepHold := true } 0))) ∧
      (∀ x, s.startWaits = false → exec (.dataReady pk tag x) s₀ = .next (answer { s with dataReady := true } 0)) ∧
      (∀ x, s.startWaits = true → exec (.dataReady pk tag x) s₀ = .next (okay (startTiles { s with startWaits := false, dataReady := false }) sid tag [])) ∧
      (∀ p e, p < 16 → exec (.predEn pk tag p e) s₀ = .next (answer { s with predDue := (s.predDue.filter fun x => x.1 ≠ p) ++ [(p, e)] } 0)) ∧
      (s.fld .ld 0 R.TWCFG_PAIREN = 1 → exec (.takeoverCommand pk tag (s.fld .ld 0 R.TWCFG_PARTNER)) s₀ = .next (okay (declareFailed s 3) sid tag [])))

/-- R435, R473, R553, R563, R565, R566, R585, R589, R594, R599, R600, R613–R615, R744: the commands that read the device's state, log and configuration or load its tables are answered with what they ask for. -/
def Obligations.QueriesAndTables : Prop :=
  ∀ (s₀ : State) (pk : ChpPkt) (tag : Nat), pktFits s₀ pk = true → s₀.chp.queue = [] → sessionBusy s₀ pk.sid = false →
    let s := takePkt s₀ pk
    let sid := pk.sid
    let answer := fun (s : State) (data : List Byte) => s.tellHost (.response sid tag 0 0 data)
    (∀ addr count, 1 ≤ count → count ≤ 512 → (∀ i, i < count → readable s (addr + 8 * i) = true) →
      let u := answer s (((List.range count).map fun i => addr + 8 * i).flatMap fun a => toBytes (readReg s a).toNat 8)
      (hasStep s = true ∨ (∀ i, i < count → isCount s (addr + 8 * i) = false) → exec (.stateReadRegisters pk tag addr count) s₀ = .next u) ∧
      (hasStep s = false → (∃ i, i < count ∧ isCount s (addr + 8 * i) = true) → exec (.stateReadRegisters pk tag addr count) s₀ = .next (gatherCone u))) ∧
    exec (.stateReadLodgeStatus pk tag) s₀ =
      .next (answer s (toBytes (pstate s) 4 ++ toBytes s.mram.epoch 4 ++ toBytes (causeWord s) 8 ++ toBytes s.utcUs 8 ++ toBytes (b2n s.lodge.unsync) 8)) ∧
    (∀ part first count, part < 2 → 1 ≤ count → count ≤ 256 → exec (.logRead pk tag part first count) s₀ = .next (answer s (logData s part first count))) ∧
    exec (.configRead pk tag) s₀ = .next (answer s (fitBytes 48 (configHash s))) ∧
    (∀ nonce, nonce.length = 32 → s.lodge.lms < lmsTop → 0 < s.mram.tokens → ∃ u sigs,
      exec (.attest pk tag nonce) s₀ = .next u ∧ u.mram.tokens = s.mram.tokens - 1 ∧ u.mram.lmsA = some (s.lodge.lms + 1) ∧ u.mram.lmsB = some (s.lodge.lms + 1) ∧
        u.lodge.lms = s.lodge.lms + 1 ∧ u.regs = s.regs ∧
        u.toHost = s.toHost ++ [.response sid tag 0 0 (attestRecord (takeIndex (s.modMram fun m => { m with tokens := m.tokens - 1 })) nonce s.lodge.lms ++ sigs) true]) ∧
    (s.chp.control = some sid →
      (∀ auth, auth.length = 1896 → exec (.logClear pk tag auth) s₀ = .next (if slice auth 0 4 = ascii "CHCL" ∧ slice auth 4 16 = deviceId s ∧
          numAt auth 4 6 = s.mram.kiln.clears + 1 ∧ s.mram.owner ≠ [] ∧ signedBy s.mram.owner (slice auth 0 28) (slice auth 28 96) (slice auth 124 1772) then
          okay (clearLog s (bitOf (auth.getD 20 0).toNat 0) (bitOf (auth.getD 20 0).toNat 1) 0) sid tag []
        else refused (s.logSec 0x0012 0) sid tag)) ∧
      (∀ addr len, 3 ≤ pstate s → stagingOk addr len = true → len ≤ 24 * 2 ^ 20 →
        let img := hbmBytes s addr len
        exec (.fwUpdate pk tag addr len) s₀ = .next (if fwVerifies s img then okay ((setSlot s (1 - s.lodge.slot) { st := 2, image := some img }).logSec 0x0002 (1 - s.lodge.slot)) sid tag []
          else refused (setSlot s (1 - s.lodge.slot) { st := 0, image := some img }) sid tag)) ∧
      (∀ addr first count, 3 ≤ pstate s → first + count ≤ 65536 → 0 < count → stagingOk addr (4 * count) = true → exec (.aliasTable pk tag addr first count) s₀ =
        .next (okay ((List.range count).foldl (fun u i =>
          let e := numAt (hbmBytes s addr (4 * count)) 4 i
          setLds (setLds u (R.CXALIAS_STATION (first + i)) (bits e 15 0)) (R.CXALIAS_VALID (first + i)) (bits e 16 16)) s) sid tag [])) ∧
      (∀ dev station, dev < 2 ^ 16 → station < 2 ^ 16 → ∃ u, exec (.aliasOwnNumbers pk tag dev station) s₀ = .next u ∧
        (∀ ld, ld < 32 → u.fld .ld ld R.CXCFG_DEV = dev ∧ u.fld .ld ld R.CXCFG_STATION = station) ∧ u = { s with regs := u.regs, toHost := u.toHost, chp := u.chp } ∧ u.toHost = s.toHost ++ [.response sid tag 0 0 []]) ∧
      (∀ partner s0 s1 pe he cert, cert.length = 2080 →
        let u := setLds (setLds (setLds s R.TWCFG_PARTNER partner) R.TWCFG_SPARE0 s0) R.TWCFG_SPARE1 s1
        exec (.aliasPair pk tag partner s0 s1 pe he cert) s₀ = .next (if !deviceCertValid u cert ∨ (cert.getD 208 0).toNat ≠ gradeCode u.grade then
            hostAnswer ((setPairing u false he).logSec 0x000C partner) sid tag resIDENTITY 0 []
          else comparePair { sendCtrl u partner 0x0B 2084 Config.deviceCert .none with hostCert := cert, pairAsk := some (sid, tag, pe, he) })) ∧
      (∀ dom, exec (.configSetPtpDomain pk tag dom) s₀ = .next (answer (s.modLodge fun l => { l with domain := dom % 256, master := none }) [])) ∧
      (∀ dir addr len n, dir < 2 → 3 ≤ pstate s → stagingOk addr len = true → (List.range 16).find? (fun n => s.chp.streams.all fun x => x.n != n) = some n →
        let units := if dir = 0 then cdiv len creditUnit else 0
        let u := answer { s with chp := { s.chp with streams := s.chp.streams ++ [{ n := n, dir := dir, addr := addr, len := len, credit := units }] } } [.ofNat 8 n]
        exec (.streamOpen pk tag dir addr len) s₀ = .next (if dir = 0 then u.tellHost (.credit n units 0) else u)) ∧
      (∀ n, s.chp.streams.any (fun x => x.n == n) = true → exec (.streamClose pk tag n) s₀ =
        .next (answer { s with chp := { s.chp with streams := s.chp.streams.filter fun x => x.n ≠ n } } [])))

/-- R559, R564–R567, R592–R598: a HELLO is answered with a REPLY, a FINISH whose signature verifies opens the session, and each goes when its time is over; a packet of a session is accepted where its tag opens and its sequence number is new and lies above the highest seen less 1,024, and counted as refused otherwise; data of a stream within its range and credit enter HBM;
time follows the master of the device's domain. On an empty queue one tick of the 25 MHz reference of the lodge passes while it runs (the model's choice, log 3): the count rises by one, UTC goes on by 40 ns and at most 4 ps of what is still to be slewed, and
nothing else changes. -/
def Obligations.SessionsAndTime : Prop :=
  ((∀ (s : State) (hs : Nat) (body : List Byte), 7 ≤ s.lodge.stage → s.lodge.boardTest = false →
     (s.lodge.cryptoErr = true → exec (.hello hs body) s = .next (s.tellHost (.refusal hs 6 0))) ∧
     (s.lodge.cryptoErr = false →
       (∀ x, s.chp.halves.find? (fun x => x.hs == hs) = some x → x.hello = body → exec (.hello hs body) s = .next (s.tellHost (.handshake hs x.reply))) ∧
       (∀ h, s.chp.halves.find? (fun x => x.hs == hs) = none → parseHello body = some h →
         (8 ≤ s.chp.halves.length ∨ 4 ≤ s.chp.sessions.length → exec (.hello hs body) s = .next (s.tellHost (.refusal hs 2 0))) ∧
         (s.chp.halves.length < 8 → s.chp.sessions.length < 4 → exec (.hello hs body) s = .next (if !helloSigned s h then refuseHandshake s hs true h.admission
           else if h.admission && !s.mram.owner.isEmpty && !releaseNames s h then refuseHandshake s hs false true
           else answerHello s hs body h))))) ∧
   (∀ (s : State) (hs : Nat) (body : List Byte) (h : Hello), let u := answerHello s hs body h
     ∃ x r, u.chp.halves = s.chp.halves ++ [x] ∧ u.toHost = s.toHost ++ [.handshake hs r] ∧ x.hs = hs ∧ x.hello = body ∧ x.reply = r ∧ x.sid = s.chp.nextSid ∧
       u.chp.nextSid = s.chp.nextSid + 1 ∧ u.chp.sessions = s.chp.sessions ∧ u.regs = s.regs ∧ u.mram = s.mram) ∧
   (∀ (s : State) (hs : Nat) (body : List Byte) (x : Half), s.chp.halves.find? (fun x => x.hs == hs) = some x → s.chp.sessions.length < 4 →
     exec (.finish hs body) s = .next (if Config.ecdsaVerify x.hostKey (Config.sha384 (x.hello ++ x.reply)) body then
         openSession (match x.admission with | some root => admitOwner (dropHalf s hs) root | none => dropHalf s hs) x
       else refuseHandshake s hs true x.admission.isSome)) ∧
   (∀ (s : State) (x : Half), x.admission = none → let u := openSession s x
     (∃ y, u.chp.sessions = s.chp.sessions ++ [y] ∧ y.sid = x.sid ∧ y.opened = s.ticks) ∧ u.lodge.stage = max s.lodge.stage 8 ∧ u.regs = s.regs ∧ u.mram = s.mram) ∧
   (∀ (s : State) (root : List Byte), let u := admitOwner s root
     u.mram.owner = root ∧ u.mram.admissions = s.mram.admissions + 1 ∧ u.mram.kiln.clears = s.mram.kiln.clears + 1 ∧ u.lodge.zeroFill = true) ∧
   (∀ (s : State) (hs : Nat), exec (.handshakeTimeout hs) s = .next (dropHalf s hs) ∧ ∀ x ∈ (dropHalf s hs).chp.halves, x.hs ≠ hs) ∧
   (∀ (s : State) (pk : ChpPkt), (pktFits s pk = true → exec (.chpHeartbeat pk) s = .next (serve (takePkt s pk))) ∧
     (pktFits s pk = false → exec (.chpHeartbeat pk) s = .next (refusePkt s pk)) ∧ (s.chp.queue = [] → serve s = s) ∧
     (∀ x ∈ s.chp.sessions, x.sid = pk.sid → pk.seq ∉ x.seen → x.high < pk.seq + 1024 → pk.sealOk = true → pktFits s pk = true) ∧
     (pk.sealOk = false → pktFits s pk = false) ∧
     ((∀ x ∈ s.chp.sessions, x.sid = pk.sid → pk.seq ∈ x.seen ∨ pk.seq + 1024 ≤ x.high) → pktFits s pk = false) ∧
     (takePkt s pk = { s with chp := { s.chp with sessions := (takePkt s pk).chp.sessions } } ∧ (takePkt s pk).chp.sessions.length = s.chp.sessions.length ∧
       ∀ y ∈ (takePkt s pk).chp.sessions, y ∈ s.chp.sessions ∧ y.sid ≠ pk.sid ∨ ∃ x ∈ s.chp.sessions, x.sid = pk.sid ∧
         y = { x with high := max x.high pk.seq, seen := y.seen, got := x.got + 1 } ∧
         ∀ n, n ∈ y.seen ↔ (n ∈ x.seen ∨ n = pk.seq) ∧ max x.high pk.seq < n + 1024) ∧
     (refusePkt s pk = { s with chp := { s.chp with sessions := (refusePkt s pk).chp.sessions } } ∧
       ∀ y ∈ (refusePkt s pk).chp.sessions, y ∈ s.chp.sessions ∧ y.sid ≠ pk.sid ∨ ∃ x ∈ s.chp.sessions, x.sid = pk.sid ∧ y = { x with refused := x.refused + 1 })) ∧
   (∀ (s : State) (sid : Nat) (x : Sess), s.chp.sessions.find? (fun x => x.sid == sid) = some x →
     exec (.sessionTimeout sid) s =
       .next (endSession s sid (if s.ticks ≥ x.opened + dayTicks then 1 else if 2 ^ 32 ≤ x.got ∨ 2 ^ 32 ≤ x.sent then 6 else 3)) ∧
     (∀ cause, let u := endSession s sid cause
       (∀ y, y ∈ u.chp.sessions ↔ y ∈ s.chp.sessions ∧ y.sid ≠ sid) ∧ (s.chp.control = some sid → u.chp.control = none ∧ u.chp.streams = []) ∧
         ((∀ y ∈ s.chp.sessions, y.sid = sid) → u.hostGone = true ∧ (s.hostGone = false → u.stepHold = true)))) ∧
   (∀ (s₀ : State) (pk : ChpPkt) (n off : Nat) (data : List Byte) (x : Stream), pktFits s₀ pk = true → s₀.chp.control = some pk.sid → let s := takePkt s₀ pk
     s.chp.streams.find? (fun x => x.n == n) = some x → x.dir = 0 → data ≠ [] → data.length ≤ 4096 →
     off + data.length ≤ x.len → off + data.length ≤ x.credit * creditUnit → (∀ p ∈ pieces4k (x.addr + off) data.length, blockHeld s p.1 = false) →
     ∀ v, stageRange s (pagesOf s (x.addr + off) data.length) = some v → exec (.bulkData pk n off data) s₀ = .next (
       let j := joinParts x.contig (x.parts ++ [(off, data.length)]) (x.parts.length + 1)
       let w := hbmPut v (x.addr + off) data
       State.tellHost { w with chp := { w.chp with streams := w.chp.streams.map fun y => if y.n = n then { x with contig := j.1, parts := j.2 } else y } }
         (.credit n x.credit j.1))) ∧
   (∀ (s₀ : State) (pk : ChpPkt) (n units contig : Nat) (x : Stream), pktFits s₀ pk = true → s₀.chp.control = some pk.sid → let s := takePkt s₀ pk
     s.chp.streams.find? (fun x => x.n == n) = some x →
     (x.dir = 1 → exec (.bulkCredit pk n units contig) s₀ = .next (sendEgress s { x with credit := max x.credit units })) ∧
     (x.dir ≠ 1 → exec (.bulkCredit pk n units contig) s₀ = .next s)) ∧
   (∀ (s : State) (master : Nat) (offset : Int), 7 ≤ s.lodge.stage → s.lodge.master = none ∨ s.lodge.master = some master →
     ∃ u, exec (.ptpMessage master s.lodge.domain offset) s = .next u ∧ u.lodge.master = some master ∧ u.lodge.unsync = false ∧
       (offset.natAbs < 1000000 → u.utcPs = s.utcPs ∧ u.lodge.slew = offset * 1000 ∧ u.toLog = s.toLog) ∧
       (1000000 ≤ offset.natAbs → u.utcPs = ((s.utcPs : Int) + offset * 1000).toNat ∧ u.lodge.slew = 0 ∧ u.toLog.length = s.toLog.length + 1)) ∧
   (∀ (s : State), exec .ptpMasterTimeout s = .next (s.modLodge fun l => { l with master := none, unsync := true, slew := 0 }))) ∧
  (∀ (s : State), s.pending = [] →
     (s.lodge.off = true ∨ s.lodge.porst = true ∨ s.lodge.refclk = false → step s = .next s) ∧
     (s.lodge.off = false → s.lodge.porst = false → s.lodge.refclk = true → ∃ u d, step s = .next u ∧ u.ticks = s.ticks + 1 ∧ (-4 ≤ d ∧ d ≤ 4) ∧
       u.lodge.slew = s.lodge.slew - d ∧ u.utcPs = ((s.utcPs : Int) + 40000 + d).toNat ∧ (s.lodge.slew = 0 → d = 0) ∧
       u = { s with ticks := u.ticks, utcPs := u.utcPs, lodge := { s.lodge with slew := u.lodge.slew } }))

/-- R567, R600, R605–R612, R724–R728: the oldest submission reaches the log, where a SEC record is always written while there is room and an OP record once in the window of its code; attestation tokens refill; a
failed self-test ends every session; PMBus is polled, and a device that fails three retries has failed. R729–R731: in board-test mode an instruction of the test access port selects its data register and the drive of the lands, and changes nothing else; otherwise it does nothing. Boundary values that are sampled
are free. -/
def Obligations.MonitoringAndTest : Prop :=
  ((∀ (s : State) (l : LogSub) (rest : List LogSub), s.toLog = l :: rest → exec .logSubmission s = .next (logOne { s with toLog := rest } l)) ∧
   (∀ (s : State) (l : LogSub), let k := s.mram.kiln
     let u := logOne s l
     (l.sec = true → k.sec.length < secRecords → u.mram.kiln.sec = k.sec ++ [logRecord s l k.sec.length 0] ∧ u.mram.kiln.op = k.op) ∧
     (l.sec = true → secRecords ≤ k.sec.length → u.mram.kiln.sec = k.sec ∧ u.mram.kiln.lostSec = satAdd k.lostSec 1 (2 ^ 32 - 1)) ∧
     (l.sec = false → let k' := learnCode k l.code
       let e := codeEntry k' l.code
       (k'.windows.contains e = false → k'.op.length < opRecords → u.mram.kiln.op = k.op ++ [logRecord s l k.op.length (mget (fun _ => 0) k.suppressed e)] ∧
         e ∈ u.mram.kiln.windows ∧ mget (fun _ => 0) u.mram.kiln.suppressed e = 0) ∧
       (k'.windows.contains e = true ∨ opRecords ≤ k'.op.length → u.mram.kiln.op = k.op ∧
         mget (fun _ => 0) u.mram.kiln.overflow e = satAdd (mget (fun _ => 0) k.overflow e) 1 (2 ^ 32 - 1))) ∧
     (let r := logRecord s l 0 0
      r.start = max s.utcUs k.stamp ∧ k.stamp ≤ r.start)) ∧
   (∀ (s : State) (code : Nat), ∃ u, exec (.logWindowExpiry code) s = .next u ∧ codeEntry s.mram.kiln code ∉ u.mram.kiln.windows ∧ u.mram.kiln.op = s.mram.kiln.op) ∧
   (∀ (s : State), s.lodge.off = false → exec .attestTokenRefill s = .next (s.modMram fun m => { m with tokens := min 64 (m.tokens + 1), tokenRef := s.ticks })) ∧
   (∀ (s : State) (test : Nat), s.lodge.off = false → s.lodge.porst = false → s.lodge.cryptoErr = false → ∃ u, exec (.selfTestFail test) s = .next u ∧
     u.lodge.cryptoErr = true ∧ u.lodge.seed = [] ∧ u.chp.sessions = [] ∧ u.chp.halves = [] ∧ bitOf u.lodge.cause causeCrypto = true) ∧
   (∀ (s : State) (dev status pout : Nat), pmbRuns s = true → pmbDevices.contains dev = true →
     exec (.pmbusPoll dev status pout true) s = .next (pmbStatus ((pmbAnswers s dev).modLodge fun l => { l with pout := mput (fun _ => 0) l.pout dev pout }) dev status) ∧
     exec (.pmbusPoll dev status pout false) s = .next (s.modLodge fun l => { l with pmbTries := (l.pmbTries.filter fun e => e.1 ≠ dev) ++ [(dev, 0)] }) ∧
     exec (.pmbAlert dev status) s = .next (pmbStatus (pmbAnswers s dev) dev status) ∧ pmbStatus s dev 0 = s) ∧
   (∀ (s : State) (dev n : Nat), s.lodge.pmbTries.find? (fun e => e.1 == dev) = some (dev, n) →
     exec (.pmbusRetry dev true) s = .next (pmbAnswers s dev) ∧
     (n < 2 → exec (.pmbusRetry dev false) s = .next (s.modLodge fun l => { l with pmbTries := l.pmbTries.map fun x => if x.1 = dev then (dev, x.2 + 1) else x })) ∧
     (2 ≤ n → exec (.pmbusRetry dev false) s = .next (pmbFails s dev))) ∧
   (∀ (s : State), s.lodge.off = false → s.lodge.porst = false → s.lodge.rtcDerived = false →
     exec .crystalTimeout s = .next ((s.modLodge fun l => { l with rtcDerived := true }).submit { code := 0x0A41, src := 0 }))) ∧
  ((∀ (s : State), s.lodge.boardTest = true → s.lodge.porst = false → s.lodge.off = false →
     let b := s.tap.boundary
     exec .idcode s = .next { s with tap := { ir := 0x01, dr := idcodeValue, drive := 0, boundary := b } } ∧
     exec .clamp s = .next { s with tap := { ir := 0x04, dr := 0, drive := 1, boundary := b } } ∧
     exec .highz s = .next { s with tap := { ir := 0x05, dr := 0, drive := 2, boundary := b } } ∧
     exec .alertcause s = .next { s with tap := { ir := 0xA1, dr := s.lodge.cause + s.lodge.prevCause * 2 ^ 32, drive := 0, boundary := b } } ∧
     exec .bypass s = .next { s with tap := { ir := 0xFF, dr := 0, drive := 0, boundary := b } } ∧
     (∀ v, ∃ dr, exec (.extest v) s = .next { s with fresh := s.fresh + 1, tap := { ir := 0x00, dr := dr, drive := 1, boundary := v } } ∧
       exec (.samplePreload v) s = .next { s with fresh := s.fresh + 1, tap := { ir := 0x02, dr := dr, drive := 0, boundary := v } } ∧
       exec (.extestPulse v) s = .next { s with fresh := s.fresh + 1, tap := { ir := 0x06, dr := dr, drive := 3, boundary := v } } ∧
       exec (.extestTrain v) s = .next { s with fresh := s.fresh + 1, tap := { ir := 0x07, dr := dr, drive := 4, boundary := v } })) ∧
   (∀ (s : State), s.lodge.boardTest = false → exec .idcode s = .next s ∧ exec .clamp s = .next s ∧ exec .highz s = .next s ∧ exec .alertcause s = .next s ∧ exec .bypass s = .next s))

/-! ### The block as a whole -/

/-- What reset leaves: every register reads its reset value, memory and every tile are empty, `PORST_N` is asserted, no session is open and no command waits; the maps are in canonical form. The values that the
manual does not give for reset are the model's (the assumption log). -/
def Obligations.ResetState : Prop :=
  let s := State.reset
  s.Canon ∧ s.pending = [] ∧ (∀ a, s.reg a = resetOf a) ∧ (∀ a, s.byte a = 0) ∧ s.lodge.porst = true ∧ s.lodge.stage = 0 ∧ s.chp.sessions = [] ∧ s.wires = [] ∧ s.parked = [] ∧
    (∀ t, t < 2048 → s.bound t = false ∧ s.tstate t = asleep ∧ (s.tile t).queue = [] ∧ (s.tile t).flights = [] ∧ groupState s t 0 = 0) ∧
    (∀ t c g, t < 2048 → c < 2 → g < 48 → s.tf t (R.TBAR_ARRGEN c g) = 0xFF ∧ s.tf t (R.TBAR_DONEGEN c g) = 0xFF)

/-- R61: the predicate register p0 reads all ones and a write to it changes nothing; a write to another predicate, scalar, address or vector register is what it reads then, and changes no other register of any
tile. -/
def Obligations.RegisterFiles : Prop :=
  ∀ (s : State) (t c : Nat), c < 2 →
    (∀ v, rp s t c 0 = BitVec.allOnes 256 ∧ setP s t c 0 v = s) ∧
    (∀ n v, n ≠ 0 → rp (setP s t c n v) t c n = .ofNat 256 (v.toNat % 2 ^ lanesOf t) ∧ (∀ m, m ≠ n → rp (setP s t c n v) t c m = rp s t c m)) ∧
    (∀ n v, rs (setS s t c n v) t c n = v ∧ (∀ m, m ≠ n → rs (setS s t c n v) t c m = rs s t c m) ∧ (∀ m, rp (setS s t c n v) t c m = rp s t c m)) ∧
    (∀ n v, ra (setA s t c n v) t c n = v ∧ ∀ m, m ≠ n → ra (setA s t c n v) t c m = ra s t c m) ∧
    (∀ n v, rv (setV s t c n v) t c n = .ofNat 8192 (v.toNat % 2 ^ (8 * vbytes t)) ∧ ∀ m, m ≠ n → rv (setV s t c n v) t c m = rv s t c m) ∧
    (∀ n v p x k, k ≠ t → (setS s t c n v).tile k = s.tile k ∧ (setA s t c n v).tile k = s.tile k ∧ (setV s t c n x).tile k = s.tile k ∧ (setP s t c n p).tile k = s.tile k)

/-- R11: a write of a register sets its RW and RWS fields, clears the W1C bits at which it is 1, leaves its RO fields and stores nothing of its WO fields, and changes no other register; the fields of a register lie
apart. Cleared faults of `TFAULT` are those at which the write is 1 (R78). -/
def Obligations.RegisterAccess : Prop :=
  (∀ (b : Block) (off : Nat) (d : RegDesc), regDescAt b off = some d → ∀ f ∈ d.fields, f.lo ≤ f.hi ∧ f.hi < 64 ∧ ∀ g ∈ d.fields, g = f ∨ g.hi < f.lo ∨ f.hi < g.lo) ∧
  (∀ (s : State) (a off n : Nat) (v : Word) (b : Block) (d : RegDesc) (f : FieldDesc), regionOf s.grade a = .reg b n off → regDescAt b off = some d → f ∈ d.fields →
    let w := (storeReg s a v).reg a
    (¬ (b = .tile ∧ off = R.TFAULT) →
      (f.acc = .RW ∨ f.acc = .RWS → wget w f.hi f.lo = wget v f.hi f.lo) ∧ (f.acc = .RO ∨ f.acc = .WO → wget w f.hi f.lo = wget (s.reg a) f.hi f.lo) ∧
      (f.acc = .W1C → ∀ i, f.lo ≤ i → i ≤ f.hi → bitOf w.toNat i = (bitOf (s.reg a).toNat i && !bitOf v.toNat i))) ∧
    OnlyIn (fun x => x = a) (fun _ => False) s (storeReg s a v)) ∧
  (∀ (s : State) (t : Nat) (v : Word), t < 2048 → s.grade = .cg2048 → let a := regAddr .tile t R.TFAULT
    let w := (storeReg s a v).reg a
    (∀ i, i < 14 → bitOf w.toNat i = (bitOf (s.reg a).toNat i && !bitOf v.toNat i)) ∧ (wget w 13 0 = 0 → wget w 23 16 = 0))

/-- Every command answers a next state, whatever the state, and leaves the commands that wait as they are. -/
def Obligations.EveryCommandCompletes : Prop :=
  ∀ (c : Instr) (s : State), ∃ t, exec c s = .next t ∧ t.pending = s.pending

/-- R7, R11: every step keeps the canonical form of registers, memory and tiles. -/
def Obligations.StepKeepsCanon : Prop :=
  ∀ (s t : State), s.Canon → step s = .next t → t.Canon

/-- R521, R529: the lease epoch is 32 bits wide and monotonic: no step lowers it, through the loss of power too; each grant raises it by one, so that none is used again, until it reaches its last value: then no
lease is granted, and the arbiter has failed. -/
def Obligations.LeaseEpochNeverFalls : Prop :=
  (∀ (s t : State), step s = .next t → s.mram.epoch ≤ t.mram.epoch ∧ (s.mram.epoch < 2 ^ 32 → t.mram.epoch < 2 ^ 32)) ∧
  (∀ (s : State) (gh : Nat), (s.mram.epoch < 2 ^ 32 - 1 → (grantLease s gh).mram.epoch = s.mram.epoch + 1) ∧ (s.mram.epoch = 2 ^ 32 - 1 → grantLease s gh = arbiterFails s)) ∧
  (∀ (s : State), s.lodge.arbFault = false → (arbiterFails s).lodge.arbFault = true ∧ (arbiterFails s).lodge.holder = s.lodge.holder ∧ (∀ gh, (s.ghUp.contains gh = true →
    exec (.leaseRequest gh) (arbiterFails s) = .next (arbiterFails s)) ∧ exec (.leaseRenewRequest gh) (arbiterFails s) = .next (arbiterFails s)))
end

