-- ==== Sys2Proof/Laws/Bits.lean ====
section
/-!
SUPPORT. What is read from a register's field after a field of it has been set.
-/

namespace Sys2Proof.Machine

theorem bits_lt (n hi lo : Nat) : bits n hi lo < 2 ^ (hi + 1 - lo) := Nat.mod_lt _ (Nat.two_pow_pos _)

theorem wget_lt (w : Word) (hi lo : Nat) : wget w hi lo < 2 ^ (hi + 1 - lo) := bits_lt _ _ _

/-- A register with a field set, as a number. -/
theorem wset_toNat (w : Word) {hi lo : Nat} (v : Nat) (hl : lo ≤ hi) (hh : hi < 64) :
    (wset w hi lo v).toNat = w.toNat / 2 ^ (hi + 1) * 2 ^ (hi + 1) + v % 2 ^ (hi + 1 - lo) * 2 ^ lo + w.toNat % 2 ^ lo := by
  unfold wset
  rw [BitVec.toNat_ofNat]
  apply Nat.mod_eq_of_lt
  have h1 : v % 2 ^ (hi + 1 - lo) < 2 ^ (hi + 1 - lo) := Nat.mod_lt _ (Nat.two_pow_pos _)
  have h2 : w.toNat % 2 ^ lo < 2 ^ lo := Nat.mod_lt _ (Nat.two_pow_pos _)
  have h3 : 2 ^ (hi + 1 - lo) * 2 ^ lo = 2 ^ (hi + 1) := by rw [← Nat.pow_add]; congr 1; omega
  have h4 : v % 2 ^ (hi + 1 - lo) * 2 ^ lo + w.toNat % 2 ^ lo < 2 ^ (hi + 1) := by
    have : (v % 2 ^ (hi + 1 - lo) + 1) * 2 ^ lo ≤ 2 ^ (hi + 1 - lo) * 2 ^ lo := Nat.mul_le_mul_right _ h1
    rw [h3, Nat.add_mul] at this
    omega
  have h5 : 2 ^ (63 - hi) * 2 ^ (hi + 1) = 2 ^ 64 := by rw [← Nat.pow_add]; congr 1; omega
  have h6 : w.toNat / 2 ^ (hi + 1) < 2 ^ (63 - hi) := by
    rw [Nat.div_lt_iff_lt_mul (Nat.two_pow_pos _), h5]; exact w.isLt
  have h7 : (w.toNat / 2 ^ (hi + 1) + 1) * 2 ^ (hi + 1) ≤ 2 ^ 64 := by
    rw [← h5]; exact Nat.mul_le_mul_right _ h6
  rw [Nat.add_mul] at h7
  omega

/-- A field reads as what it was set to. -/
theorem wget_wset_self (w : Word) {hi lo : Nat} (v : Nat) (hl : lo ≤ hi) (hh : hi < 64) : wget (wset w hi lo v) hi lo = v % 2 ^ (hi + 1 - lo) := by
  unfold wget bits
  rw [wset_toNat w v hl hh]
  have h2 : w.toNat % 2 ^ lo < 2 ^ lo := Nat.mod_lt _ (Nat.two_pow_pos _)
  have h3 : 2 ^ (hi + 1) = 2 ^ (hi + 1 - lo) * 2 ^ lo := by rw [← Nat.pow_add]; congr 1; omega
  rw [Nat.add_div_of_dvd_right (by rw [h3, ← Nat.mul_assoc]; exact Dvd.dvd.add (Dvd.intro_left _ rfl) (Dvd.intro_left _ rfl)),
    Nat.div_eq_of_lt h2, Nat.add_zero, h3, ← Nat.mul_assoc, ← Nat.add_mul, Nat.mul_div_cancel _ (Nat.two_pow_pos _)]
  rw [Nat.add_mod, Nat.mul_mod_left, Nat.zero_add, Nat.mod_mod, Nat.mod_mod]

/-- A field above the one set reads as before. -/
theorem wget_wset_above (w : Word) {hi lo hi' lo' : Nat} (v : Nat) (hl : lo ≤ hi) (hh : hi < 64) (h : hi < lo') : wget (wset w hi lo v) hi' lo' = wget w hi' lo' := by
  unfold wget bits
  rw [wset_toNat w v hl hh]
  congr 1
  have h1 : v % 2 ^ (hi + 1 - lo) < 2 ^ (hi + 1 - lo) := Nat.mod_lt _ (Nat.two_pow_pos _)
  have h2 : w.toNat % 2 ^ lo < 2 ^ lo := Nat.mod_lt _ (Nat.two_pow_pos _)
  have h3 : 2 ^ (hi + 1 - lo) * 2 ^ lo = 2 ^ (hi + 1) := by rw [← Nat.pow_add]; congr 1; omega
  have h4 : v % 2 ^ (hi + 1 - lo) * 2 ^ lo + w.toNat % 2 ^ lo < 2 ^ (hi + 1) := by
    have : (v % 2 ^ (hi + 1 - lo) + 1) * 2 ^ lo ≤ 2 ^ (hi + 1 - lo) * 2 ^ lo := Nat.mul_le_mul_right _ h1
    rw [h3, Nat.add_mul] at this
    omega
  have h5 : 2 ^ lo' = 2 ^ (hi + 1) * 2 ^ (lo' - (hi + 1)) := by rw [← Nat.pow_add]; congr 1; omega
  rw [h5, ← Nat.div_div_eq_div_mul, ← Nat.div_div_eq_div_mul]
  congr 1
  rw [Nat.add_assoc, Nat.mul_comm, Nat.mul_add_div (Nat.two_pow_pos _), Nat.div_eq_of_lt h4, Nat.add_zero]

/-- A field below the one set reads as before. -/
theorem wget_wset_below (w : Word) {hi lo hi' lo' : Nat} (v : Nat) (hl : lo ≤ hi) (hh : hi < 64) (h : hi' < lo) : wget (wset w hi lo v) hi' lo' = wget w hi' lo' := by
  unfold wget bits
  rw [wset_toNat w v hl hh]
  have h3 : 2 ^ (hi + 1) = 2 ^ (hi + 1 - lo) * 2 ^ lo := by rw [← Nat.pow_add]; congr 1; omega
  generalize hA : w.toNat / 2 ^ (hi + 1) * 2 ^ (hi + 1) + v % 2 ^ (hi + 1 - lo) * 2 ^ lo = A
  have hd : 2 ^ lo ∣ A := by
    rw [← hA, h3, ← Nat.mul_assoc]; exact Dvd.dvd.add (Dvd.intro_left _ rfl) (Dvd.intro_left _ rfl)
  obtain ⟨q, hq⟩ := hd
  have key : ∀ n, (2 ^ lo * n + w.toNat % 2 ^ lo) / 2 ^ lo' % 2 ^ (hi' + 1 - lo') = w.toNat % 2 ^ lo / 2 ^ lo' % 2 ^ (hi' + 1 - lo') := by
    intro n
    by_cases hc : lo' ≤ hi'
    · have h4 : 2 ^ lo = 2 ^ lo' * (2 ^ (hi' + 1 - lo') * 2 ^ (lo - (hi' + 1))) := by rw [← Nat.pow_add, ← Nat.pow_add]; congr 1; omega
      rw [h4, Nat.mul_assoc, Nat.mul_add_div (Nat.two_pow_pos _), Nat.mul_assoc, Nat.mul_add_mod]
    · have : hi' + 1 - lo' = 0 := by omega
      simp [this, Nat.mod_one]
  rw [hq, key]
  conv_rhs => rw [← Nat.div_add_mod w.toNat (2 ^ lo)]
  exact (key _).symm

end Sys2Proof.Machine
end

