-- ==== Sys2Proof/Laws/Exec.lean ====
section
/-!
SUPPORT. Which meaning `exec` calls for each command.
-/

namespace Sys2Proof.Machine

theorem exec_sequencerFetch (t : Nat) (par : Parity) (s : State) : exec (.sequencerFetch t par) s = execSequencerFetch t par s := rfl
theorem exec_engineDispatch (t : Nat) (e : Engine) (par : Parity) (s : State) : exec (.engineDispatch t e par) s = execEngineDispatch t e par s := rfl
theorem exec_nop (t : Nat) (f : FmtC) (s : State) : exec (.nop t f) s = execNop t f s := rfl
theorem exec_salu (t : Nat) (f : FmtS3) (s : State) : exec (.salu t f) s = execSalu t f s := rfl
theorem exec_salui (t : Nat) (f : FmtSI) (s : State) : exec (.salui t f) s = execSalui t f s := rfl
theorem exec_smul (t : Nat) (f : FmtS3) (s : State) : exec (.smul t f) s = execSmul t f s := rfl
theorem exec_sld (t : Nat) (f : FmtSI) (s : State) : exec (.sld t f) s = execSld t f s := rfl
theorem exec_sst (t : Nat) (f : FmtSI) (s : State) : exec (.sst t f) s = execSst t f s := rfl
theorem exec_aop (t : Nat) (f : FmtSI) (s : State) : exec (.aop t f) s = execAop t f s := rfl
theorem exec_scmp (t : Nat) (f : FmtS3) (s : State) : exec (.scmp t f) s = execScmp t f s := rfl
theorem exec_br (t : Nat) (f : FmtSI) (s : State) : exec (.br t f) s = execBr t f s := rfl
theorem exec_brr (t : Nat) (f : FmtS3) (s : State) : exec (.brr t f) s = execBrr t f s := rfl
theorem exec_loop (t : Nat) (f : FmtSI) (s : State) : exec (.loop t f) s = execLoop t f s := rfl
theorem exec_csig (t : Nat) (f : FmtC) (s : State) : exec (.csig t f) s = execCsig t f s := rfl
theorem exec_cwait (t : Nat) (f : FmtC) (s : State) : exec (.cwait t f) s = execCwait t f s := rfl
theorem exec_crd (t : Nat) (f : FmtC) (s : State) : exec (.crd t f) s = execCrd t f s := rfl
theorem exec_barr (t : Nat) (f : FmtC) (s : State) : exec (.barr t f) s = execBarr t f s := rfl
theorem exec_bwait (t : Nat) (f : FmtC) (s : State) : exec (.bwait t f) s = execBwait t f s := rfl
theorem exec_send (t : Nat) (f : FmtD) (s : State) : exec (.send t f) s = execSend t f s := rfl
theorem exec_sendInject (t : Nat) (s : State) : exec (.sendInject t) s = execSendInject t s := rfl
theorem exec_recv (t : Nat) (f : FmtD) (s : State) : exec (.recv t f) s = execRecv t f s := rfl
theorem exec_recvUnblock (t : Nat) (s : State) : exec (.recvUnblock t) s = execRecvUnblock t s := rfl
theorem exec_tryrecv (t : Nat) (f : FmtD) (s : State) : exec (.tryrecv t f) s = execTryrecv t f s := rfl
theorem exec_qrel (t : Nat) (f : FmtD) (s : State) : exec (.qrel t f) s = execQrel t f s := rfl
theorem exec_bopen (t : Nat) (f : FmtD) (s : State) : exec (.bopen t f) s = execBopen t f s := rfl
theorem exec_wopen (t : Nat) (f : FmtD) (s : State) : exec (.wopen t f) s = execWopen t f s := rfl
theorem exec_wclose (t : Nat) (f : FmtD) (s : State) : exec (.wclose t f) s = execWclose t f s := rfl
theorem exec_ctx (t : Nat) (f : FmtC) (s : State) : exec (.ctx t f) s = execCtx t f s := rfl
theorem exec_fence (t : Nat) (f : FmtC) (s : State) : exec (.fence t f) s = execFence t f s := rfl
theorem exec_soak (t : Nat) (f : FmtC) (s : State) : exec (.soak t f) s = execSoak t f s := rfl
theorem exec_trap (t : Nat) (f : FmtC) (s : State) : exec (.trap t f) s = execTrap t f s := rfl
theorem exec_halt (t : Nat) (f : FmtC) (s : State) : exec (.halt t f) s = execHalt t f s := rfl
theorem exec_dmal (t : Nat) (f : FmtD) (s : State) : exec (.dmal t f) s = execDmal t f s := rfl
theorem exec_dmas (t : Nat) (f : FmtD) (s : State) : exec (.dmas t f) s = execDmas t f s := rfl
theorem exec_dmar (t : Nat) (f : FmtD) (s : State) : exec (.dmar t f) s = execDmar t f s := rfl
theorem exec_dmaw (t : Nat) (f : FmtD) (s : State) : exec (.dmaw t f) s = execDmaw t f s := rfl
theorem exec_dmax (t : Nat) (f : FmtD) (s : State) : exec (.dmax t f) s = execDmax t f s := rfl
theorem exec_dmaxEntry (t : Nat) (s : State) : exec (.dmaxEntry t) s = execDmaxEntry t s := rfl
theorem exec_dmaf (t : Nat) (f : FmtD) (s : State) : exec (.dmaf t f) s = execDmaf t f s := rfl
theorem exec_dmam (t : Nat) (f : FmtD) (s : State) : exec (.dmam t f) s = execDmam t f s := rfl
theorem exec_dmaComplete (t : Nat) (id : Nat) (s : State) : exec (.dmaComplete t id) s = execDmaComplete t id s := rfl
theorem exec_vld (t : Nat) (f : FmtSI) (s : State) : exec (.vld t f) s = execVld t f s := rfl
theorem exec_vst (t : Nat) (f : FmtSI) (s : State) : exec (.vst t f) s = execVst t f s := rfl
theorem exec_vldx (t : Nat) (f : FmtS3) (s : State) : exec (.vldx t f) s = execVldx t f s := rfl
theorem exec_vstx (t : Nat) (f : FmtS3) (s : State) : exec (.vstx t f) s = execVstx t f s := rfl
theorem exec_vop (t : Nat) (f : FmtS3) (s : State) : exec (.vop t f) s = execVop t f s := rfl
theorem exec_vcmp (t : Nat) (f : FmtS3) (s : State) : exec (.vcmp t f) s = execVcmp t f s := rfl
theorem exec_vred (t : Nat) (f : FmtS3) (s : State) : exec (.vred t f) s = execVred t f s := rfl
theorem exec_vcvt (t : Nat) (f : FmtS3) (s : State) : exec (.vcvt t f) s = execVcvt t f s := rfl
theorem exec_vmovx (t : Nat) (f : FmtSI) (s : State) : exec (.vmovx t f) s = execVmovx t f s := rfl
theorem exec_amax (t : Nat) (f : FmtM) (s : State) : exec (.amax t f) s = execAmax t f s := rfl
theorem exec_cone (t : Nat) (f : FmtM) (s : State) : exec (.cone t f) s = execCone t f s := rfl
theorem exec_mgang (t : Nat) (f : FmtSI) (s : State) : exec (.mgang t f) s = execMgang t f s := rfl
theorem exec_mpanel (t : Nat) (f : FmtM) (s : State) : exec (.mpanel t f) s = execMpanel t f s := rfl
theorem exec_mpanelLoaded (t : Nat) (s : State) : exec (.mpanelLoaded t) s = execMpanelLoaded t s := rfl
theorem exec_mmul (t : Nat) (f : FmtM) (s : State) : exec (.mmul t f) s = execMmul t f s := rfl
theorem exec_mmulComplete (t : Nat) (sub : Nat) (s : State) : exec (.mmulComplete t sub) s = execMmulComplete t sub s := rfl
theorem exec_mpred (t : Nat) (f : FmtM) (s : State) : exec (.mpred t f) s = execMpred t f s := rfl
theorem exec_mpredFinalMark (t : Nat) (sub : Nat) (s : State) : exec (.mpredFinalMark t sub) s = execMpredFinalMark t sub s := rfl
theorem exec_mdrain (t : Nat) (f : FmtM) (s : State) : exec (.mdrain t f) s = execMdrain t f s := rfl
theorem exec_mdrainComplete (t : Nat) (s : State) : exec (.mdrainComplete t) s = execMdrainComplete t s := rfl
theorem exec_gateDeadlineExpiry (t : Nat) (s : State) : exec (.gateDeadlineExpiry t) s = execGateDeadlineExpiry t s := rfl
theorem exec_batchComplete (t : Nat) (s : State) : exec (.batchComplete t) s = execBatchComplete t s := rfl
theorem exec_ssort (t : Nat) (f : FmtM) (s : State) : exec (.ssort t f) s = execSsort t f s := rfl
theorem exec_smerge (t : Nat) (f : FmtM) (s : State) : exec (.smerge t f) s = execSmerge t f s := rfl
theorem exec_sinter (t : Nat) (f : FmtM) (s : State) : exec (.sinter t f) s = execSinter t f s := rfl
theorem exec_shash (t : Nat) (f : FmtM) (s : State) : exec (.shash t f) s = execShash t f s := rfl
theorem exec_sgather (t : Nat) (f : FmtM) (s : State) : exec (.sgather t f) s = execSgather t f s := rfl
theorem exec_sscatter (t : Nat) (f : FmtM) (s : State) : exec (.sscatter t f) s = execSscatter t f s := rfl
theorem exec_setOpComplete (t : Nat) (s : State) : exec (.setOpComplete t) s = execSetOpComplete t s := rfl
theorem exec_engineCheckFail (t : Nat) (e : Engine) (s : State) : exec (.engineCheckFail t e) s = execEngineCheckFail t e s := rfl
theorem exec_wakeComplete (t : Nat) (s : State) : exec (.wakeComplete t) s = execWakeComplete t s := rfl
theorem exec_soakHoldEnd (t : Nat) (s : State) : exec (.soakHoldEnd t) s = execSoakHoldEnd t s := rfl
theorem exec_rampDownStep (t : Nat) (s : State) : exec (.rampDownStep t) s = execRampDownStep t s := rfl
theorem exec_rampDownEnd (t : Nat) (s : State) : exec (.rampDownEnd t) s = execRampDownEnd t s := rfl
theorem exec_rampUpStep (t : Nat) (s : State) : exec (.rampUpStep t) s = execRampUpStep t s := rfl
theorem exec_governorGrant (t : Nat) (s : State) : exec (.governorGrant t) s = execGovernorGrant t s := rfl
theorem exec_watchdogExpiry (t : Nat) (s : State) : exec (.watchdogExpiry t) s = execWatchdogExpiry t s := rfl
theorem exec_holdTakesEffect (t : Nat) (s : State) : exec (.holdTakesEffect t) s = execHoldTakesEffect t s := rfl
theorem exec_stalledSignalApply (t : Nat) (s : State) : exec (.stalledSignalApply t) s = execStalledSignalApply t s := rfl
theorem exec_stalledSignalFault (t : Nat) (s : State) : exec (.stalledSignalFault t) s = execStalledSignalFault t s := rfl
theorem exec_gatherBufferIdleDrain (t : Nat) (s : State) : exec (.gatherBufferIdleDrain t) s = execGatherBufferIdleDrain t s := rfl
theorem exec_remoteWritePacket (t : Nat) (pkt : WritePkt) (s : State) : exec (.remoteWritePacket t pkt) s = execRemoteWritePacket t pkt s := rfl
theorem exec_heldPacketRecheck (t : Nat) (s : State) : exec (.heldPacketRecheck t) s = execHeldPacketRecheck t s := rfl
theorem exec_wicketCloseComplete (t : Nat) (s : State) : exec (.wicketCloseComplete t) s = execWicketCloseComplete t s := rfl
theorem exec_remoteReadRequest (t : Nat) (rq : ReadReq) (par : Parity) (s : State) : exec (.remoteReadRequest t rq par) s = execRemoteReadRequest t rq par s := rfl
theorem exec_mergeWindowExpiry (t : Nat) (row : Nat) (s : State) : exec (.mergeWindowExpiry t row) s = execMergeWindowExpiry t row s := rfl
theorem exec_remoteReadResponse (t : Nat) (tag : Nat) (status : Nat) (data : List Byte) (s : State) : exec (.remoteReadResponse t tag status data) s = execRemoteReadResponse t tag status data s := rfl
theorem exec_transferAnswer (t : Nat) (tag : Nat) (status : Nat) (s : State) : exec (.transferAnswer t tag status) s = execTransferAnswer t tag status s := rfl
theorem exec_bankGroupPowered (t : Nat) (g : Nat) (s : State) : exec (.bankGroupPowered t g) s = execBankGroupPowered t g s := rfl
theorem exec_bankGroupZeroFillEnd (t : Nat) (g : Nat) (s : State) : exec (.bankGroupZeroFillEnd t g) s = execBankGroupZeroFillEnd t g s := rfl
theorem exec_taskEnd (t : Nat) (c : Nat) (s : State) : exec (.taskEnd t c) s = execTaskEnd t c s := rfl
theorem exec_descriptorArrival (t : Nat) (m : Msg) (s : State) : exec (.descriptorArrival t m) s = execDescriptorArrival t m s := rfl
theorem exec_creditReturnTimer (t : Nat) (q : Nat) (s : State) : exec (.creditReturnTimer t q) s = execCreditReturnTimer t q s := rfl
theorem exec_creditReturn (t : Nat) (ch : Nat) (slots : Nat) (units : Nat) (s : State) : exec (.creditReturn t ch slots units) s = execCreditReturn t ch slots units s := rfl
theorem exec_basinContribution (t : Nat) (m : Msg) (s : State) : exec (.basinContribution t m) s = execBasinContribution t m s := rfl
theorem exec_basinZeroComplete (t : Nat) (q : Nat) (b : Nat) (s : State) : exec (.basinZeroComplete t q b) s = execBasinZeroComplete t q b s := rfl
theorem exec_basinBucketComplete (t : Nat) (q : Nat) (b : Nat) (s : State) : exec (.basinBucketComplete t q b) s = execBasinBucketComplete t q b s := rfl
theorem exec_barrierArrivalSend (t : Nat) (s : State) : exec (.barrierArrivalSend t) s = execBarrierArrivalSend t s := rfl
theorem exec_dieBarrierArrival (die : Nat) (g : Nat) (gen : Nat) (s : State) : exec (.dieBarrierArrival die g gen) s = execDieBarrierArrival die g gen s := rfl
theorem exec_packageBarrierArrival (die : Nat) (g : Nat) (gen : Nat) (s : State) : exec (.packageBarrierArrival die g gen) s = execPackageBarrierArrival die g gen s := rfl
theorem exec_barrierRelease (t : Nat) (c : Nat) (g : Nat) (gen : Nat) (s : State) : exec (.barrierRelease t c g gen) s = execBarrierRelease t c g gen s := rfl
theorem exec_packetHop (die : Nat) (row : Nat) (col : Nat) (pkt : Packet) (s : State) : exec (.packetHop die row col pkt) s = execPacketHop die row col pkt s := rfl
theorem exec_cplFrameReceive (die : Nat) (link : Nat) (fr : CplFrame) (s : State) : exec (.cplFrameReceive die link fr) s = execCplFrameReceive die link fr s := rfl
theorem exec_cplNak (die : Nat) (link : Nat) (ack : Nat) (s : State) : exec (.cplNak die link ack) s = execCplNak die link ack s := rfl
theorem exec_cplAckTimeout (die : Nat) (link : Nat) (s : State) : exec (.cplAckTimeout die link) s = execCplAckTimeout die link s := rfl
theorem exec_cplControlTimer (die : Nat) (link : Nat) (s : State) : exec (.cplControlTimer die link) s = execCplControlTimer die link s := rfl
theorem exec_ucieRetrain (die : Nat) (link : Nat) (s : State) : exec (.ucieRetrain die link) s = execUcieRetrain die link s := rfl
theorem exec_ucieRetrainTimeout (die : Nat) (link : Nat) (s : State) : exec (.ucieRetrainTimeout die link) s = execUcieRetrainTimeout die link s := rfl
theorem exec_linkTrainingTimeout (die : Nat) (link : Nat) (s : State) : exec (.linkTrainingTimeout die link) s = execLinkTrainingTimeout die link s := rfl
theorem exec_capabilityRecord (die : Nat) (link : Nat) (rec : List Byte) (s : State) : exec (.capabilityRecord die link rec) s = execCapabilityRecord die link rec s := rfl
theorem exec_capabilityTimeout (die : Nat) (link : Nat) (s : State) : exec (.capabilityTimeout die link) s = execCapabilityTimeout die link s := rfl
theorem exec_dieLinkDown (die : Nat) (link : Nat) (s : State) : exec (.dieLinkDown die link) s = execDieLinkDown die link s := rfl
theorem exec_routerFault (die : Nat) (row : Nat) (col : Nat) (s : State) : exec (.routerFault die row col) s = execRouterFault die row col s := rfl
theorem exec_routeSetSwitch (die : Nat) (s : State) : exec (.routeSetSwitch die) s = execRouteSetSwitch die s := rfl
theorem exec_hbmReadRequest (q : HbmReq) (oc : ReadOutcome) (s : State) : exec (.hbmReadRequest q oc) s = execHbmReadRequest q oc s := rfl
theorem exec_hbmWriteRequest (q : HbmReq) (s : State) : exec (.hbmWriteRequest q) s = execHbmWriteRequest q s := rfl
theorem exec_twinBlockReturn (stack : Nat) (addr : Nat) (data : Option (List Byte)) (s : State) : exec (.twinBlockReturn stack addr data) s = execTwinBlockReturn stack addr data s := rfl
theorem exec_pageRetirementComplete (stack : Nat) (s : State) : exec (.pageRetirementComplete stack) s = execPageRetirementComplete stack s := rfl
theorem exec_protectedPageStaged (stack : Nat) (s : State) : exec (.protectedPageStaged stack) s = execProtectedPageStaged stack s := rfl
theorem exec_stackTemperaturePoll (stack : Nat) (temp : Nat) (s : State) : exec (.stackTemperaturePoll stack temp) s = execStackTemperaturePoll stack temp s := rfl
theorem exec_stackLost (stack : Nat) (s : State) : exec (.stackLost stack) s = execStackLost stack s := rfl
theorem exec_stackZeroFillComplete (stack : Nat) (s : State) : exec (.stackZeroFillComplete stack) s = execStackZeroFillComplete stack s := rfl
theorem exec_uugateWrite (stack : Nat) (v : Word) (s : State) : exec (.uugateWrite stack v) s = execUugateWrite stack v s := rfl
theorem exec_uuCommitEnd (stack : Nat) (s : State) : exec (.uuCommitEnd stack) s = execUuCommitEnd stack s := rfl
theorem exec_uuStop (stack : Nat) (s : State) : exec (.uuStop stack) s = execUuStop stack s := rfl
theorem exec_cxtWrite (p : CxtPkt) (s : State) : exec (.cxtWrite p) s = execCxtWrite p s := rfl
theorem exec_cxtJwrite (p : CxtPkt) (s : State) : exec (.cxtJwrite p) s = execCxtJwrite p s := rfl
theorem exec_cxtSend (p : CxtPkt) (s : State) : exec (.cxtSend p) s = execCxtSend p s := rfl
theorem exec_cxtRead (p : CxtPkt) (s : State) : exec (.cxtRead p) s = execCxtRead p s := rfl
theorem exec_cxtRdata (p : CxtPkt) (s : State) : exec (.cxtRdata p) s = execCxtRdata p s := rfl
theorem exec_cxtBarrier (p : CxtPkt) (s : State) : exec (.cxtBarrier p) s = execCxtBarrier p s := rfl
theorem exec_cxtAck (p : CxtPkt) (s : State) : exec (.cxtAck p) s = execCxtAck p s := rfl
theorem exec_cxtGrant (p : CxtPkt) (s : State) : exec (.cxtGrant p) s = execCxtGrant p s := rfl
theorem exec_cxtHeartbeat (p : CxtPkt) (s : State) : exec (.cxtHeartbeat p) s = execCxtHeartbeat p s := rfl
theorem exec_aliasUpdate (p : CxtPkt) (s : State) : exec (.aliasUpdate p) s = execAliasUpdate p s := rfl
theorem exec_queueEpochNotice (p : CxtPkt) (s : State) : exec (.queueEpochNotice p) s = execQueueEpochNotice p s := rfl
theorem exec_portNotice (p : CxtPkt) (s : State) : exec (.portNotice p) s = execPortNotice p s := rfl
theorem exec_failureNotice (p : CxtPkt) (s : State) : exec (.failureNotice p) s = execFailureNotice p s := rfl
theorem exec_replacedNotice (p : CxtPkt) (s : State) : exec (.replacedNotice p) s = execReplacedNotice p s := rfl
theorem exec_abort (p : CxtPkt) (s : State) : exec (.abort p) s = execAbort p s := rfl
theorem exec_abortReport (p : CxtPkt) (s : State) : exec (.abortReport p) s = execAbortReport p s := rfl
theorem exec_releaseRecord (p : CxtPkt) (s : State) : exec (.releaseRecord p) s = execReleaseRecord p s := rfl
theorem exec_layoutEpoch (p : CxtPkt) (s : State) : exec (.layoutEpoch p) s = execLayoutEpoch p s := rfl
theorem exec_ctrlCreditReturn (p : CxtPkt) (s : State) : exec (.ctrlCreditReturn p) s = execCtrlCreditReturn p s := rfl
theorem exec_deviceCertificate (p : CxtPkt) (s : State) : exec (.deviceCertificate p) s = execDeviceCertificate p s := rfl
theorem exec_cxtRetransmitTimeout (port : Nat) (peer : Nat) (path : Nat) (s : State) : exec (.cxtRetransmitTimeout port peer path) s = execCxtRetransmitTimeout port peer path s := rfl
theorem exec_portLinkDown (port : Nat) (s : State) : exec (.portLinkDown port) s = execPortLinkDown port s := rfl
theorem exec_portRetrain (port : Nat) (ok : Bool) (s : State) : exec (.portRetrain port ok) s = execPortRetrain port ok s := rfl
theorem exec_normGroupComplete (g : Nat) (s : State) : exec (.normGroupComplete g) s = execNormGroupComplete g s := rfl
theorem exec_reshardApply (s : State) : exec .reshardApply s = execReshardApply s := rfl
theorem exec_heartbeatPeriod (s : State) : exec .heartbeatPeriod s = execHeartbeatPeriod s := rfl
theorem exec_probeTimeout (s : State) : exec .probeTimeout s = execProbeTimeout s := rfl
theorem exec_copierPageSend (stack : Nat) (s : State) : exec (.copierPageSend stack) s = execCopierPageSend stack s := rfl
theorem exec_generationComplete (stack : Nat) (s : State) : exec (.generationComplete stack) s = execGenerationComplete stack s := rfl
theorem exec_tileHoldTimeout (t : Nat) (s : State) : exec (.tileHoldTimeout t) s = execTileHoldTimeout t s := rfl
theorem exec_spareAnswerTimeout (s : State) : exec .spareAnswerTimeout s = execSpareAnswerTimeout s := rfl
theorem exec_statePullComplete (ok : Bool) (s : State) : exec (.statePullComplete ok) s = execStatePullComplete ok s := rfl
theorem exec_journalReplay (s : State) : exec .journalReplay s = execJournalReplay s := rfl
theorem exec_restart (s : State) : exec .restart s = execRestart s := rfl
theorem exec_hostLost (s : State) : exec .hostLost s = execHostLost s := rfl
theorem exec_vaonInRange (s : State) : exec .vaonInRange s = execVaonInRange s := rfl
theorem exec_porstNRelease (trst refclk : Bool) (s : State) : exec (.porstNRelease trst refclk) s = execPorstNRelease trst refclk s := rfl
theorem exec_porstNAssert (s : State) : exec .porstNAssert s = execPorstNAssert s := rfl
theorem exec_lodgeFirmwareVerify (s : State) : exec .lodgeFirmwareVerify s = execLodgeFirmwareVerify s := rfl
theorem exec_pvXPowerOn (s : State) : exec .pvXPowerOn s = execPvXPowerOn s := rfl
theorem exec_gatehouseBoot (s : State) : exec .gatehouseBoot s = execGatehouseBoot s := rfl
theorem exec_hdPowerUp (s : State) : exec .hdPowerUp s = execHdPowerUp s := rfl
theorem exec_hostPortTrained (s : State) : exec .hostPortTrained s = execHostPortTrained s := rfl
theorem exec_bootStageFail (s : State) : exec .bootStageFail s = execBootStageFail s := rfl
theorem exec_leaseRenewRequest (gh : Nat) (s : State) : exec (.leaseRenewRequest gh) s = execLeaseRenewRequest gh s := rfl
theorem exec_leaseRequest (gh : Nat) (s : State) : exec (.leaseRequest gh) s = execLeaseRequest gh s := rfl
theorem exec_leaseRelease (s : State) : exec .leaseRelease s = execLeaseRelease s := rfl
theorem exec_leaseTermExpiry (s : State) : exec .leaseTermExpiry s = execLeaseTermExpiry s := rfl
theorem exec_holderRenewalLapse (s : State) : exec .holderRenewalLapse s = execHolderRenewalLapse s := rfl
theorem exec_lodgeKeepalive (s : State) : exec .lodgeKeepalive s = execLodgeKeepalive s := rfl
theorem exec_keepaliveMissed (die : Nat) (s : State) : exec (.keepaliveMissed die) s = execKeepaliveMissed die s := rfl
theorem exec_arbiterFault (s : State) : exec .arbiterFault s = execArbiterFault s := rfl
theorem exec_gatehouseFailstop (gh : Nat) (s : State) : exec (.gatehouseFailstop gh) s = execGatehouseFailstop gh s := rfl
theorem exec_commandWrite (gh : Nat) (epoch : Nat) (addr : Nat) (value : Word) (s : State) : exec (.commandWrite gh epoch addr value) s = execCommandWrite gh epoch addr value s := rfl
theorem exec_commandMaskedWrite (gh : Nat) (epoch : Nat) (addr : Nat) (value mask : Word) (s : State) : exec (.commandMaskedWrite gh epoch addr value mask) s = execCommandMaskedWrite gh epoch addr value mask s := rfl
theorem exec_commandCopy (gh : Nat) (epoch : Nat) (src dst len : Nat) (s : State) : exec (.commandCopy gh epoch src dst len) s = execCommandCopy gh epoch src dst len s := rfl
theorem exec_staleCommand (gh : Nat) (s : State) : exec (.staleCommand gh) s = execStaleCommand gh s := rfl
theorem exec_dresetGo (die : Nat) (s : State) : exec (.dresetGo die) s = execDresetGo die s := rfl
theorem exec_dieReset (die : Nat) (s : State) : exec (.dieReset die) s = execDieReset die s := rfl
theorem exec_tctlStart (t : Nat) (s : State) : exec (.tctlStart t) s = execTctlStart t s := rfl
theorem exec_tctlHold (t : Nat) (on : Bool) (s : State) : exec (.tctlHold t on) s = execTctlHold t on s := rfl
theorem exec_tctlFence (t : Nat) (s : State) : exec (.tctlFence t) s = execTctlFence t s := rfl
theorem exec_tctlReset (t : Nat) (s : State) : exec (.tctlReset t) s = execTctlReset t s := rfl
theorem exec_nsclrSlot (t : Nat) (mask : BitVec 32) (s : State) : exec (.nsclrSlot t mask) s = execNsclrSlot t mask s := rfl
theorem exec_nsclrCone (t : Nat) (s : State) : exec (.nsclrCone t) s = execNsclrCone t s := rfl
theorem exec_rsctlArm (die : Nat) (s : State) : exec (.rsctlArm die) s = execRsctlArm die s := rfl
theorem exec_dleaseHeldClear (die : Nat) (s : State) : exec (.dleaseHeldClear die) s = execDleaseHeldClear die s := rfl
theorem exec_conetagWrite (t : Nat) (v : Word) (s : State) : exec (.conetagWrite t v) s = execConetagWrite t v s := rfl
theorem exec_twcopyEnWrite (stack : Nat) (en : Bool) (s : State) : exec (.twcopyEnWrite stack en) s = execTwcopyEnWrite stack en s := rfl
theorem exec_cxepochAliasWrite (ld : Nat) (v : Nat) (s : State) : exec (.cxepochAliasWrite ld v) s = execCxepochAliasWrite ld v s := rfl
theorem exec_cxcfgEnWrite (ld : Nat) (v : Word) (s : State) : exec (.cxcfgEnWrite ld v) s = execCxcfgEnWrite ld v s := rfl
theorem exec_registerWrite (addr : Nat) (v : Word) (s : State) : exec (.registerWrite addr v) s = execRegisterWrite addr v s := rfl
theorem exec_powerGoodVincFall (g : Nat) (s : State) : exec (.powerGoodVincFall g) s = execPowerGoodVincFall g s := rfl
theorem exec_powerGoodVinxFall (s : State) : exec .powerGoodVinxFall s = execPowerGoodVinxFall s := rfl
theorem exec_pgVhbmFall (s : State) : exec .pgVhbmFall s = execPgVhbmFall s := rfl
theorem exec_powerGoodTimeout (s : State) : exec .powerGoodTimeout s = execPowerGoodTimeout s := rfl
theorem exec_functionStartingEnd (fn : Nat) (s : State) : exec (.functionStartingEnd fn) s = execFunctionStartingEnd fn s := rfl
theorem exec_functionStoppingEnd (fn : Nat) (s : State) : exec (.functionStoppingEnd fn) s = execFunctionStoppingEnd fn s := rfl
theorem exec_functionStartFail (fn : Nat) (s : State) : exec (.functionStartFail fn) s = execFunctionStartFail fn s := rfl
theorem exec_damperPeriod (die : Nat) (s : State) : exec (.damperPeriod die) s = execDamperPeriod die s := rfl
theorem exec_packageDamperPeriod (s : State) : exec .packageDamperPeriod s = execPackageDamperPeriod s := rfl
theorem exec_packagePowerSample (watts : Nat) (s : State) : exec (.packagePowerSample watts) s = execPackagePowerSample watts s := rfl
theorem exec_tileLend (t : Nat) (s : State) : exec (.tileLend t) s = execTileLend t s := rfl
theorem exec_thermalRead (temps : List Nat) (s : State) : exec (.thermalRead temps) s = execThermalRead temps s := rfl
theorem exec_thermalHold (die : Nat) (s : State) : exec (.thermalHold die) s = execThermalHold die s := rfl
theorem exec_imageCopyLoad (s : State) : exec .imageCopyLoad s = execImageCopyLoad s := rfl
theorem exec_claim (pk : ChpPkt) (tag : Nat) (s : State) : exec (.claim pk tag) s = execClaim pk tag s := rfl
theorem exec_power (pk : ChpPkt) (tag : Nat) (target : Nat) (s : State) : exec (.power pk tag target) s = execPower pk tag target s := rfl
theorem exec_imageLoad (pk : ChpPkt) (tag : Nat) (addr len : Nat) (s : State) : exec (.imageLoad pk tag addr len) s = execImageLoad pk tag addr len s := rfl
theorem exec_start (pk : ChpPkt) (tag : Nat) (s : State) : exec (.start pk tag) s = execStart pk tag s := rfl
theorem exec_hold (pk : ChpPkt) (tag : Nat) (s : State) : exec (.hold pk tag) s = execHold pk tag s := rfl
theorem exec_resume (pk : ChpPkt) (tag : Nat) (s : State) : exec (.resume pk tag) s = execResume pk tag s := rfl
theorem exec_stateReadRegisters (pk : ChpPkt) (tag : Nat) (addr count : Nat) (s : State) : exec (.stateReadRegisters pk tag addr count) s = execStateReadRegisters pk tag addr count s := rfl
theorem exec_stateReadLodgeStatus (pk : ChpPkt) (tag : Nat) (s : State) : exec (.stateReadLodgeStatus pk tag) s = execStateReadLodgeStatus pk tag s := rfl
theorem exec_logRead (pk : ChpPkt) (tag : Nat) (part from_ count : Nat) (s : State) : exec (.logRead pk tag part from_ count) s = execLogRead pk tag part from_ count s := rfl
theorem exec_logClear (pk : ChpPkt) (tag : Nat) (auth : List Byte) (s : State) : exec (.logClear pk tag auth) s = execLogClear pk tag auth s := rfl
theorem exec_fwUpdate (pk : ChpPkt) (tag : Nat) (addr len : Nat) (s : State) : exec (.fwUpdate pk tag addr len) s = execFwUpdate pk tag addr len s := rfl
theorem exec_attest (pk : ChpPkt) (tag : Nat) (nonce : List Byte) (s : State) : exec (.attest pk tag nonce) s = execAttest pk tag nonce s := rfl
theorem exec_aliasTable (pk : ChpPkt) (tag : Nat) (addr first count : Nat) (s : State) : exec (.aliasTable pk tag addr first count) s = execAliasTable pk tag addr first count s := rfl
theorem exec_aliasOwnNumbers (pk : ChpPkt) (tag : Nat) (dev station : Nat) (s : State) : exec (.aliasOwnNumbers pk tag dev station) s = execAliasOwnNumbers pk tag dev station s := rfl
theorem exec_aliasPair (pk : ChpPkt) (tag : Nat) (partner spare0 spare1 : Nat) (pairEn hbEn : Bool) (cert : List Byte) (s : State) : exec (.aliasPair pk tag partner spare0 spare1 pairEn hbEn cert) s = execAliasPair pk tag partner spare0 spare1 pairEn hbEn cert s := rfl
theorem exec_dataReady (pk : ChpPkt) (tag : Nat) (st : Nat) (s : State) : exec (.dataReady pk tag st) s = execDataReady pk tag st s := rfl
theorem exec_predEn (pk : ChpPkt) (tag : Nat) (slot : Nat) (en : Bool) (s : State) : exec (.predEn pk tag slot en) s = execPredEn pk tag slot en s := rfl
theorem exec_checkpoint (pk : ChpPkt) (tag : Nat) (s : State) : exec (.checkpoint pk tag) s = execCheckpoint pk tag s := rfl
theorem exec_reshard (pk : ChpPkt) (tag : Nat) (addr len layout : Nat) (s : State) : exec (.reshard pk tag addr len layout) s = execReshard pk tag addr len layout s := rfl
theorem exec_streamOpen (pk : ChpPkt) (tag : Nat) (dir addr len : Nat) (s : State) : exec (.streamOpen pk tag dir addr len) s = execStreamOpen pk tag dir addr len s := rfl
theorem exec_streamClose (pk : ChpPkt) (tag : Nat) (n : Nat) (s : State) : exec (.streamClose pk tag n) s = execStreamClose pk tag n s := rfl
theorem exec_takeoverCommand (pk : ChpPkt) (tag : Nat) (dev : Nat) (s : State) : exec (.takeoverCommand pk tag dev) s = execTakeoverCommand pk tag dev s := rfl
theorem exec_configRead (pk : ChpPkt) (tag : Nat) (s : State) : exec (.configRead pk tag) s = execConfigRead pk tag s := rfl
theorem exec_configSetPtpDomain (pk : ChpPkt) (tag : Nat) (dom : Nat) (s : State) : exec (.configSetPtpDomain pk tag dom) s = execConfigSetPtpDomain pk tag dom s := rfl
theorem exec_close (pk : ChpPkt) (tag : Nat) (s : State) : exec (.close pk tag) s = execClose pk tag s := rfl
theorem exec_hello (hs : Nat) (body : List Byte) (s : State) : exec (.hello hs body) s = execHello hs body s := rfl
theorem exec_finish (hs : Nat) (body : List Byte) (s : State) : exec (.finish hs body) s = execFinish hs body s := rfl
theorem exec_handshakeTimeout (hs : Nat) (s : State) : exec (.handshakeTimeout hs) s = execHandshakeTimeout hs s := rfl
theorem exec_chpHeartbeat (pk : ChpPkt) (s : State) : exec (.chpHeartbeat pk) s = execChpHeartbeat pk s := rfl
theorem exec_sessionTimeout (sid : Nat) (s : State) : exec (.sessionTimeout sid) s = execSessionTimeout sid s := rfl
theorem exec_bulkData (pk : ChpPkt) (stream off : Nat) (data : List Byte) (s : State) : exec (.bulkData pk stream off data) s = execBulkData pk stream off data s := rfl
theorem exec_bulkCredit (pk : ChpPkt) (stream units contig : Nat) (s : State) : exec (.bulkCredit pk stream units contig) s = execBulkCredit pk stream units contig s := rfl
theorem exec_ptpMessage (master domain : Nat) (offset : Int) (s : State) : exec (.ptpMessage master domain offset) s = execPtpMessage master domain offset s := rfl
theorem exec_ptpMasterTimeout (s : State) : exec .ptpMasterTimeout s = execPtpMasterTimeout s := rfl
theorem exec_logSubmission (s : State) : exec .logSubmission s = execLogSubmission s := rfl
theorem exec_logWindowExpiry (code : Nat) (s : State) : exec (.logWindowExpiry code) s = execLogWindowExpiry code s := rfl
theorem exec_attestTokenRefill (s : State) : exec .attestTokenRefill s = execAttestTokenRefill s := rfl
theorem exec_selfTestFail (test : Nat) (s : State) : exec (.selfTestFail test) s = execSelfTestFail test s := rfl
theorem exec_pmbusPoll (dev status pout : Nat) (ok : Bool) (s : State) : exec (.pmbusPoll dev status pout ok) s = execPmbusPoll dev status pout ok s := rfl
theorem exec_pmbAlert (dev status : Nat) (s : State) : exec (.pmbAlert dev status) s = execPmbAlert dev status s := rfl
theorem exec_pmbusRetry (dev : Nat) (ok : Bool) (s : State) : exec (.pmbusRetry dev ok) s = execPmbusRetry dev ok s := rfl
theorem exec_crystalTimeout (s : State) : exec .crystalTimeout s = execCrystalTimeout s := rfl
theorem exec_extest (v : Nat) (s : State) : exec (.extest v) s = execExtest v s := rfl
theorem exec_idcode (s : State) : exec .idcode s = execIdcode s := rfl
theorem exec_samplePreload (v : Nat) (s : State) : exec (.samplePreload v) s = execSamplePreload v s := rfl
theorem exec_clamp (s : State) : exec .clamp s = execClamp s := rfl
theorem exec_highz (s : State) : exec .highz s = execHighz s := rfl
theorem exec_extestPulse (v : Nat) (s : State) : exec (.extestPulse v) s = execExtestPulse v s := rfl
theorem exec_extestTrain (v : Nat) (s : State) : exec (.extestTrain v) s = execExtestTrain v s := rfl
theorem exec_alertcause (s : State) : exec .alertcause s = execAlertcause s := rfl
theorem exec_bypass (s : State) : exec .bypass s = execBypass s := rfl
theorem exec_vaonLost (s : State) : exec .vaonLost s = execVaonLost s := rfl
theorem exec_powerGoodRise (inp : Nat) (s : State) : exec (.powerGoodRise inp) s = execPowerGoodRise inp s := rfl
theorem exec_refclkAonArrival (s : State) : exec .refclkAonArrival s = execRefclkAonArrival s := rfl
theorem exec_ucieTrainingComplete (die : Nat) (link : Nat) (s : State) : exec (.ucieTrainingComplete die link) s = execUcieTrainingComplete die link s := rfl
theorem exec_directModeLinkReplay (port : Nat) (progress : Bool) (s : State) : exec (.directModeLinkReplay port progress) s = execDirectModeLinkReplay port progress s := rfl
theorem exec_priorityFlowControlFrame (port prio : Nat) (pause : Bool) (s : State) : exec (.priorityFlowControlFrame port prio pause) s = execPriorityFlowControlFrame port prio pause s := rfl
theorem exec_twinBlockRequest (stack addr st : Nat) (s : State) : exec (.twinBlockRequest stack addr st) s = execTwinBlockRequest stack addr st s := rfl
theorem exec_spareChosen (dev twin : Nat) (s : State) : exec (.spareChosen dev twin) s = execSpareChosen dev twin s := rfl
theorem exec_coneComplete (t : Nat) (s : State) : exec (.coneComplete t) s = execConeComplete t s := rfl

end Sys2Proof.Machine
end

