-- ==== Sys2Proof/Laws/Maps.lean ====
section
/-!
SUPPORT. The laws of the sparse maps: what is read after a write, and that every operation keeps the canonical form.
-/

namespace Sys2Proof.Machine

variable {β : Type} [DecidableEq β] {d : Nat → β}

/-- A map whose keys lie above a bound reads as the default at and below it. -/
theorem mget_of_lt {m : List (Nat × β)} {lo k : Nat} (h : mwf d (some lo) m = true) (hk : k ≤ lo) : mget d m k = d k := by
  induction m generalizing lo with
  | nil => rfl
  | cons e m ih =>
    obtain ⟨k', v⟩ := e
    simp only [mwf, Bool.and_eq_true, decide_eq_true_eq] at h
    have : k ≠ k' := by omega
    simp only [mget, this, if_false]
    exact ih h.2 (by omega)

/-- A bound may be lowered. -/
theorem mwf_weaken {m : List (Nat × β)} {lo lo' : Nat} (h : mwf d (some lo) m = true) (hl : lo' ≤ lo) : mwf d (some lo') m = true := by
  cases m with
  | nil => rfl
  | cons e m =>
    simp only [mwf, Bool.and_eq_true, decide_eq_true_eq] at h ⊢
    exact ⟨⟨by omega, h.1.2⟩, h.2⟩

/-- The bound may be dropped. -/
theorem mwf_none {m : List (Nat × β)} {lo : Option Nat} (h : mwf d lo m = true) : mwf d none m = true := by
  cases m with
  | nil => rfl
  | cons e m =>
    simp only [mwf, Bool.and_eq_true, decide_eq_true_eq] at h ⊢
    exact ⟨⟨trivial, h.1.2⟩, h.2⟩

/-- Dropping keeps the canonical form. -/
theorem mdrop_mwf_bound {m : List (Nat × β)} {f : Nat → Bool} {lo : Option Nat} (h : mwf d lo m = true) : mwf d lo (mdrop f m) = true := by
  induction m generalizing lo with
  | nil => rfl
  | cons e m ih =>
    obtain ⟨k, v⟩ := e
    simp only [mwf, Bool.and_eq_true, decide_eq_true_eq] at h
    by_cases hf : f k = true
    · rw [show mdrop f ((k, v) :: m) = mdrop f m by simp [mdrop, hf]]
      cases lo with
      | none => exact mwf_none (ih h.2)
      | some l => exact mwf_weaken (ih h.2) (by simpa using le_of_lt (by simpa using h.1.1))
    · rw [show mdrop f ((k, v) :: m) = (k, v) :: mdrop f m by simp [mdrop, hf]]
      simp only [mwf, Bool.and_eq_true, decide_eq_true_eq]
      exact ⟨h.1, ih h.2⟩

theorem mdrop_mwf {m : List (Nat × β)} {f : Nat → Bool} (h : mwf d none m = true) : mwf d none (mdrop f m) = true := mdrop_mwf_bound h

omit [DecidableEq β] in
/-- A key that is not dropped reads as before. -/
theorem mget_mdrop {m : List (Nat × β)} {f : Nat → Bool} {k : Nat} (h : f k = false) : mget d (mdrop f m) k = mget d m k := by
  induction m with
  | nil => rfl
  | cons e m ih =>
    obtain ⟨k', v⟩ := e
    by_cases hf : f k' = true
    · have hne : k ≠ k' := by rintro rfl; simp [h] at hf
      rw [show mdrop f ((k', v) :: m) = mdrop f m by simp [mdrop, hf], ih]
      simp [mget, hne]
    · rw [show mdrop f ((k', v) :: m) = (k', v) :: mdrop f m by simp [mdrop, hf]]
      simp only [mget, ih]

omit [DecidableEq β] in
/-- A key that is dropped reads as its default. -/
theorem mget_mdrop_self {m : List (Nat × β)} {f : Nat → Bool} {k : Nat} (h : f k = true) : mget d (mdrop f m) k = d k := by
  induction m with
  | nil => rfl
  | cons e m ih =>
    obtain ⟨k', v⟩ := e
    by_cases hf : f k' = true
    · rw [show mdrop f ((k', v) :: m) = mdrop f m by simp [mdrop, hf], ih]
    · have hne : k ≠ k' := by rintro rfl; exact hf h
      rw [show mdrop f ((k', v) :: m) = (k', v) :: mdrop f m by simp [mdrop, hf]]
      simp [mget, hne, ih]

/-- What is read after a write. -/
theorem mget_mput {m : List (Nat × β)} {k j : Nat} {v : β} : mget d (mput d m k v) j = if j = k then v else mget d m j := by
  induction m with
  | nil => by_cases hv : v = d k <;> by_cases hj : j = k <;> simp [mput, mget, hv, hj]
  | cons e m ih =>
    obtain ⟨k', v'⟩ := e
    unfold mput
    by_cases hk : k = k'
    · subst hk
      rw [if_pos rfl, ih]
      by_cases hj : j = k <;> simp [mget, hj]
    · by_cases hl : k < k'
      · by_cases hj : j = k
        · subst hj
          by_cases hv : v = d j <;> simp [hk, hv, hl, mget, mget_mdrop_self]
        · have hd : mget d (mdrop (fun i => i == k) m) j = mget d m j := mget_mdrop (by simp [hj])
          by_cases hv : v = d k <;> simp [hk, hv, hl, mget, hj, hd]
      · simp only [hk, hl, if_false, mget, ih]
        by_cases hj : j = k
        · subst hj; simp [hk]
        · simp [hj]

theorem mget_mput_self {m : List (Nat × β)} {k : Nat} {v : β} : mget d (mput d m k v) k = v := by simp [mget_mput]

/-- A write leaves every other key alone. -/
theorem mget_mput_ne {m : List (Nat × β)} {k k' : Nat} {v : β} (h : k' ≠ k) : mget d (mput d m k v) k' = mget d m k' := by simp [mget_mput, h]

theorem mput_mwf_bound {m : List (Nat × β)} {k : Nat} {v : β} {lo : Option Nat} (h : mwf d lo m = true) (hl : ∀ l, lo = some l → l < k) :
    mwf d lo (mput d m k v) = true := by
  induction m generalizing lo with
  | nil => by_cases hv : v = d k <;> cases lo <;> simp [mput, mwf, hv]; exact hl _ rfl
  | cons e m ih =>
    obtain ⟨k', v'⟩ := e
    simp only [mwf, Bool.and_eq_true, decide_eq_true_eq] at h
    unfold mput
    by_cases hk : k = k'
    · subst hk
      simp only [if_true]
      cases lo with
      | none => exact ih (mwf_none h.2) hl
      | some l => exact ih (mwf_weaken h.2 (by simpa using le_of_lt (by simpa using h.1.1))) hl
    · by_cases hlt : k < k'
      · have hm : mwf d (some k') (mdrop (fun i => i == k) m) = true := mdrop_mwf_bound h.2
        cases lo with
        | none => by_cases hv : v = d k <;> simp [hk, hlt, hv, mwf, h.1.2, hm]
        | some l =>
          have h1 := hl l rfl
          by_cases hv : v = d k <;> simp [hk, hlt, hv, mwf, h.1.2, hm, h1]
          exact lt_trans h1 hlt
      · simp only [hk, hlt, if_false, mwf, Bool.and_eq_true, decide_eq_true_eq]
        exact ⟨h.1, ih h.2 (by intro l hl'; cases hl'; omega)⟩

/-- A write keeps the canonical form. -/
theorem mput_mwf {m : List (Nat × β)} {k : Nat} {v : β} (h : mwf d none m = true) : mwf d none (mput d m k v) = true :=
  mput_mwf_bound h (by intro l hl; cases hl)

/-- Writing the value an unlisted address reads as removes the entry, so the write of a byte keeps `Memory.wf`. -/
theorem setByte_wf {s : State} (h : Memory.wf s.mem = true) (a : Nat) (b : Byte) : Memory.wf (s.setByte a b).mem = true := mput_mwf h

/-- A write of bytes keeps `Memory.wf`. -/
theorem wr_wf (bs : List Byte) : ∀ {s : State} (_ : Memory.wf s.mem = true) (a : Nat), Memory.wf (s.wr a bs).mem = true := by
  induction bs with
  | nil => intro s h a; exact h
  | cons b bs ih => intro s h a; exact ih (setByte_wf h a b) (a + 1)

/-- A range of memory that is dropped keeps `Memory.wf`. -/
theorem dropped_wf {m : List Host.Cell} (h : Memory.wf m = true) (f : Nat → Bool) : Memory.wf (mdrop f m) = true := mdrop_mwf h

end Sys2Proof.Machine
end

