-- ==== Sys2Proof/Laws/State.lean ====
section
/-!
SUPPORT. What each update of the state leaves alone: one lemma for each update and each field that it does not change.
-/

namespace Sys2Proof.Machine

variable (s : State)

/-! ### `setReg` -/

@[simp] theorem State.setReg_grade (a : Nat) (w : Word) : (s.setReg a w).grade = s.grade := rfl
@[simp] theorem State.setReg_mem (a : Nat) (w : Word) : (s.setReg a w).mem = s.mem := rfl
@[simp] theorem State.setReg_bind (a : Nat) (w : Word) : (s.setReg a w).bind = s.bind := rfl
@[simp] theorem State.setReg_tiles (a : Nat) (w : Word) : (s.setReg a w).tiles = s.tiles := rfl
@[simp] theorem State.setReg_parked (a : Nat) (w : Word) : (s.setReg a w).parked = s.parked := rfl
@[simp] theorem State.setReg_wires (a : Nat) (w : Word) : (s.setReg a w).wires = s.wires := rfl
@[simp] theorem State.setReg_cqHeld (a : Nat) (w : Word) : (s.setReg a w).cqHeld = s.cqHeld := rfl
@[simp] theorem State.setReg_mbHeld (a : Nat) (w : Word) : (s.setReg a w).mbHeld = s.mbHeld := rfl
@[simp] theorem State.setReg_repSeq (a : Nat) (w : Word) : (s.setReg a w).repSeq = s.repSeq := rfl
@[simp] theorem State.setReg_rowNotes (a : Nat) (w : Word) : (s.setReg a w).rowNotes = s.rowNotes := rfl
@[simp] theorem State.setReg_rowQueue (a : Nat) (w : Word) : (s.setReg a w).rowQueue = s.rowQueue := rfl
@[simp] theorem State.setReg_spareRows (a : Nat) (w : Word) : (s.setReg a w).spareRows = s.spareRows := rfl
@[simp] theorem State.setReg_fencedPos (a : Nat) (w : Word) : (s.setReg a w).fencedPos = s.fencedPos := rfl
@[simp] theorem State.setReg_gov (a : Nat) (w : Word) : (s.setReg a w).gov = s.gov := rfl
@[simp] theorem State.setReg_ticks (a : Nat) (w : Word) : (s.setReg a w).ticks = s.ticks := rfl
@[simp] theorem State.setReg_toLog (a : Nat) (w : Word) : (s.setReg a w).toLog = s.toLog := rfl
@[simp] theorem State.setReg_left (a : Nat) (w : Word) : (s.setReg a w).left = s.left := rfl
@[simp] theorem State.setReg_sendPaths (a : Nat) (w : Word) : (s.setReg a w).sendPaths = s.sendPaths := rfl
@[simp] theorem State.setReg_cxReads (a : Nat) (w : Word) : (s.setReg a w).cxReads = s.cxReads := rfl
@[simp] theorem State.setReg_recvPaths (a : Nat) (w : Word) : (s.setReg a w).recvPaths = s.recvPaths := rfl
@[simp] theorem State.setReg_links (a : Nat) (w : Word) : (s.setReg a w).links = s.links := rfl
@[simp] theorem State.setReg_badRouters (a : Nat) (w : Word) : (s.setReg a w).badRouters = s.badRouters := rfl
@[simp] theorem State.setReg_detourDue (a : Nat) (w : Word) : (s.setReg a w).detourDue = s.detourDue := rfl
@[simp] theorem State.setReg_unserviceable (a : Nat) (w : Word) : (s.setReg a w).unserviceable = s.unserviceable := rfl
@[simp] theorem State.setReg_toHost (a : Nat) (w : Word) : (s.setReg a w).toHost = s.toHost := rfl
@[simp] theorem State.setReg_paused (a : Nat) (w : Word) : (s.setReg a w).paused = s.paused := rfl
@[simp] theorem State.setReg_replays (a : Nat) (w : Word) : (s.setReg a w).replays = s.replays := rfl
@[simp] theorem State.setReg_peerDown (a : Nat) (w : Word) : (s.setReg a w).peerDown = s.peerDown := rfl
@[simp] theorem State.setReg_grantQ (a : Nat) (w : Word) : (s.setReg a w).grantQ = s.grantQ := rfl
@[simp] theorem State.setReg_kids (a : Nat) (w : Word) : (s.setReg a w).kids = s.kids := rfl
@[simp] theorem State.setReg_devBars (a : Nat) (w : Word) : (s.setReg a w).devBars = s.devBars := rfl
@[simp] theorem State.setReg_pkgArrived (a : Nat) (w : Word) : (s.setReg a w).pkgArrived = s.pkgArrived := rfl
@[simp] theorem State.setReg_dcmd (a : Nat) (w : Word) : (s.setReg a w).dcmd = s.dcmd := rfl
@[simp] theorem State.setReg_noticesDue (a : Nat) (w : Word) : (s.setReg a w).noticesDue = s.noticesDue := rfl
@[simp] theorem State.setReg_released (a : Nat) (w : Word) : (s.setReg a w).released = s.released := rfl
@[simp] theorem State.setReg_portsBack (a : Nat) (w : Word) : (s.setReg a w).portsBack = s.portsBack := rfl
@[simp] theorem State.setReg_portPeers (a : Nat) (w : Word) : (s.setReg a w).portPeers = s.portPeers := rfl
@[simp] theorem State.setReg_predDue (a : Nat) (w : Word) : (s.setReg a w).predDue = s.predDue := rfl
@[simp] theorem State.setReg_reshardTo (a : Nat) (w : Word) : (s.setReg a w).reshardTo = s.reshardTo := rfl
@[simp] theorem State.setReg_hbHeard (a : Nat) (w : Word) : (s.setReg a w).hbHeard = s.hbHeard := rfl
@[simp] theorem State.setReg_probing (a : Nat) (w : Word) : (s.setReg a w).probing = s.probing := rfl
@[simp] theorem State.setReg_partnerIdle (a : Nat) (w : Word) : (s.setReg a w).partnerIdle = s.partnerIdle := rfl
@[simp] theorem State.setReg_aborting (a : Nat) (w : Word) : (s.setReg a w).aborting = s.aborting := rfl
@[simp] theorem State.setReg_taking (a : Nat) (w : Word) : (s.setReg a w).taking = s.taking := rfl
@[simp] theorem State.setReg_pulling (a : Nat) (w : Word) : (s.setReg a w).pulling = s.pulling := rfl
@[simp] theorem State.setReg_heads (a : Nat) (w : Word) : (s.setReg a w).heads = s.heads := rfl
@[simp] theorem State.setReg_dataReady (a : Nat) (w : Word) : (s.setReg a w).dataReady = s.dataReady := rfl
@[simp] theorem State.setReg_replayDue (a : Nat) (w : Word) : (s.setReg a w).replayDue = s.replayDue := rfl
@[simp] theorem State.setReg_startWaits (a : Nat) (w : Word) : (s.setReg a w).startWaits = s.startWaits := rfl
@[simp] theorem State.setReg_replaced (a : Nat) (w : Word) : (s.setReg a w).replaced = s.replaced := rfl
@[simp] theorem State.setReg_hostCert (a : Nat) (w : Word) : (s.setReg a w).hostCert = s.hostCert := rfl
@[simp] theorem State.setReg_pairAsk (a : Nat) (w : Word) : (s.setReg a w).pairAsk = s.pairAsk := rfl
@[simp] theorem State.setReg_gotCerts (a : Nat) (w : Word) : (s.setReg a w).gotCerts = s.gotCerts := rfl
@[simp] theorem State.setReg_image (a : Nat) (w : Word) : (s.setReg a w).image = s.image := rfl
@[simp] theorem State.setReg_blocks (a : Nat) (w : Word) : (s.setReg a w).blocks = s.blocks := rfl
@[simp] theorem State.setReg_mcs (a : Nat) (w : Word) : (s.setReg a w).mcs = s.mcs := rfl
@[simp] theorem State.setReg_utcPs (a : Nat) (w : Word) : (s.setReg a w).utcPs = s.utcPs := rfl
@[simp] theorem State.setReg_hostGone (a : Nat) (w : Word) : (s.setReg a w).hostGone = s.hostGone := rfl
@[simp] theorem State.setReg_stepHold (a : Nat) (w : Word) : (s.setReg a w).stepHold = s.stepHold := rfl
@[simp] theorem State.setReg_ghUp (a : Nat) (w : Word) : (s.setReg a w).ghUp = s.ghUp := rfl
@[simp] theorem State.setReg_ghFailed (a : Nat) (w : Word) : (s.setReg a w).ghFailed = s.ghFailed := rfl
@[simp] theorem State.setReg_mram (a : Nat) (w : Word) : (s.setReg a w).mram = s.mram := rfl
@[simp] theorem State.setReg_lodge (a : Nat) (w : Word) : (s.setReg a w).lodge = s.lodge := rfl
@[simp] theorem State.setReg_chp (a : Nat) (w : Word) : (s.setReg a w).chp = s.chp := rfl
@[simp] theorem State.setReg_tap (a : Nat) (w : Word) : (s.setReg a w).tap = s.tap := rfl
@[simp] theorem State.setReg_fresh (a : Nat) (w : Word) : (s.setReg a w).fresh = s.fresh := rfl
@[simp] theorem State.setReg_pending (a : Nat) (w : Word) : (s.setReg a w).pending = s.pending := rfl

/-! ### `clearRegs` -/

@[simp] theorem State.clearRegs_grade (f : Nat → Bool) : (s.clearRegs f).grade = s.grade := rfl
@[simp] theorem State.clearRegs_mem (f : Nat → Bool) : (s.clearRegs f).mem = s.mem := rfl
@[simp] theorem State.clearRegs_bind (f : Nat → Bool) : (s.clearRegs f).bind = s.bind := rfl
@[simp] theorem State.clearRegs_tiles (f : Nat → Bool) : (s.clearRegs f).tiles = s.tiles := rfl
@[simp] theorem State.clearRegs_parked (f : Nat → Bool) : (s.clearRegs f).parked = s.parked := rfl
@[simp] theorem State.clearRegs_wires (f : Nat → Bool) : (s.clearRegs f).wires = s.wires := rfl
@[simp] theorem State.clearRegs_cqHeld (f : Nat → Bool) : (s.clearRegs f).cqHeld = s.cqHeld := rfl
@[simp] theorem State.clearRegs_mbHeld (f : Nat → Bool) : (s.clearRegs f).mbHeld = s.mbHeld := rfl
@[simp] theorem State.clearRegs_repSeq (f : Nat → Bool) : (s.clearRegs f).repSeq = s.repSeq := rfl
@[simp] theorem State.clearRegs_rowNotes (f : Nat → Bool) : (s.clearRegs f).rowNotes = s.rowNotes := rfl
@[simp] theorem State.clearRegs_rowQueue (f : Nat → Bool) : (s.clearRegs f).rowQueue = s.rowQueue := rfl
@[simp] theorem State.clearRegs_spareRows (f : Nat → Bool) : (s.clearRegs f).spareRows = s.spareRows := rfl
@[simp] theorem State.clearRegs_fencedPos (f : Nat → Bool) : (s.clearRegs f).fencedPos = s.fencedPos := rfl
@[simp] theorem State.clearRegs_gov (f : Nat → Bool) : (s.clearRegs f).gov = s.gov := rfl
@[simp] theorem State.clearRegs_ticks (f : Nat → Bool) : (s.clearRegs f).ticks = s.ticks := rfl
@[simp] theorem State.clearRegs_toLog (f : Nat → Bool) : (s.clearRegs f).toLog = s.toLog := rfl
@[simp] theorem State.clearRegs_left (f : Nat → Bool) : (s.clearRegs f).left = s.left := rfl
@[simp] theorem State.clearRegs_sendPaths (f : Nat → Bool) : (s.clearRegs f).sendPaths = s.sendPaths := rfl
@[simp] theorem State.clearRegs_cxReads (f : Nat → Bool) : (s.clearRegs f).cxReads = s.cxReads := rfl
@[simp] theorem State.clearRegs_recvPaths (f : Nat → Bool) : (s.clearRegs f).recvPaths = s.recvPaths := rfl
@[simp] theorem State.clearRegs_links (f : Nat → Bool) : (s.clearRegs f).links = s.links := rfl
@[simp] theorem State.clearRegs_badRouters (f : Nat → Bool) : (s.clearRegs f).badRouters = s.badRouters := rfl
@[simp] theorem State.clearRegs_detourDue (f : Nat → Bool) : (s.clearRegs f).detourDue = s.detourDue := rfl
@[simp] theorem State.clearRegs_unserviceable (f : Nat → Bool) : (s.clearRegs f).unserviceable = s.unserviceable := rfl
@[simp] theorem State.clearRegs_toHost (f : Nat → Bool) : (s.clearRegs f).toHost = s.toHost := rfl
@[simp] theorem State.clearRegs_paused (f : Nat → Bool) : (s.clearRegs f).paused = s.paused := rfl
@[simp] theorem State.clearRegs_replays (f : Nat → Bool) : (s.clearRegs f).replays = s.replays := rfl
@[simp] theorem State.clearRegs_peerDown (f : Nat → Bool) : (s.clearRegs f).peerDown = s.peerDown := rfl
@[simp] theorem State.clearRegs_grantQ (f : Nat → Bool) : (s.clearRegs f).grantQ = s.grantQ := rfl
@[simp] theorem State.clearRegs_kids (f : Nat → Bool) : (s.clearRegs f).kids = s.kids := rfl
@[simp] theorem State.clearRegs_devBars (f : Nat → Bool) : (s.clearRegs f).devBars = s.devBars := rfl
@[simp] theorem State.clearRegs_pkgArrived (f : Nat → Bool) : (s.clearRegs f).pkgArrived = s.pkgArrived := rfl
@[simp] theorem State.clearRegs_dcmd (f : Nat → Bool) : (s.clearRegs f).dcmd = s.dcmd := rfl
@[simp] theorem State.clearRegs_noticesDue (f : Nat → Bool) : (s.clearRegs f).noticesDue = s.noticesDue := rfl
@[simp] theorem State.clearRegs_released (f : Nat → Bool) : (s.clearRegs f).released = s.released := rfl
@[simp] theorem State.clearRegs_portsBack (f : Nat → Bool) : (s.clearRegs f).portsBack = s.portsBack := rfl
@[simp] theorem State.clearRegs_portPeers (f : Nat → Bool) : (s.clearRegs f).portPeers = s.portPeers := rfl
@[simp] theorem State.clearRegs_predDue (f : Nat → Bool) : (s.clearRegs f).predDue = s.predDue := rfl
@[simp] theorem State.clearRegs_reshardTo (f : Nat → Bool) : (s.clearRegs f).reshardTo = s.reshardTo := rfl
@[simp] theorem State.clearRegs_hbHeard (f : Nat → Bool) : (s.clearRegs f).hbHeard = s.hbHeard := rfl
@[simp] theorem State.clearRegs_probing (f : Nat → Bool) : (s.clearRegs f).probing = s.probing := rfl
@[simp] theorem State.clearRegs_partnerIdle (f : Nat → Bool) : (s.clearRegs f).partnerIdle = s.partnerIdle := rfl
@[simp] theorem State.clearRegs_aborting (f : Nat → Bool) : (s.clearRegs f).aborting = s.aborting := rfl
@[simp] theorem State.clearRegs_taking (f : Nat → Bool) : (s.clearRegs f).taking = s.taking := rfl
@[simp] theorem State.clearRegs_pulling (f : Nat → Bool) : (s.clearRegs f).pulling = s.pulling := rfl
@[simp] theorem State.clearRegs_heads (f : Nat → Bool) : (s.clearRegs f).heads = s.heads := rfl
@[simp] theorem State.clearRegs_dataReady (f : Nat → Bool) : (s.clearRegs f).dataReady = s.dataReady := rfl
@[simp] theorem State.clearRegs_replayDue (f : Nat → Bool) : (s.clearRegs f).replayDue = s.replayDue := rfl
@[simp] theorem State.clearRegs_startWaits (f : Nat → Bool) : (s.clearRegs f).startWaits = s.startWaits := rfl
@[simp] theorem State.clearRegs_replaced (f : Nat → Bool) : (s.clearRegs f).replaced = s.replaced := rfl
@[simp] theorem State.clearRegs_hostCert (f : Nat → Bool) : (s.clearRegs f).hostCert = s.hostCert := rfl
@[simp] theorem State.clearRegs_pairAsk (f : Nat → Bool) : (s.clearRegs f).pairAsk = s.pairAsk := rfl
@[simp] theorem State.clearRegs_gotCerts (f : Nat → Bool) : (s.clearRegs f).gotCerts = s.gotCerts := rfl
@[simp] theorem State.clearRegs_image (f : Nat → Bool) : (s.clearRegs f).image = s.image := rfl
@[simp] theorem State.clearRegs_blocks (f : Nat → Bool) : (s.clearRegs f).blocks = s.blocks := rfl
@[simp] theorem State.clearRegs_mcs (f : Nat → Bool) : (s.clearRegs f).mcs = s.mcs := rfl
@[simp] theorem State.clearRegs_utcPs (f : Nat → Bool) : (s.clearRegs f).utcPs = s.utcPs := rfl
@[simp] theorem State.clearRegs_hostGone (f : Nat → Bool) : (s.clearRegs f).hostGone = s.hostGone := rfl
@[simp] theorem State.clearRegs_stepHold (f : Nat → Bool) : (s.clearRegs f).stepHold = s.stepHold := rfl
@[simp] theorem State.clearRegs_ghUp (f : Nat → Bool) : (s.clearRegs f).ghUp = s.ghUp := rfl
@[simp] theorem State.clearRegs_ghFailed (f : Nat → Bool) : (s.clearRegs f).ghFailed = s.ghFailed := rfl
@[simp] theorem State.clearRegs_mram (f : Nat → Bool) : (s.clearRegs f).mram = s.mram := rfl
@[simp] theorem State.clearRegs_lodge (f : Nat → Bool) : (s.clearRegs f).lodge = s.lodge := rfl
@[simp] theorem State.clearRegs_chp (f : Nat → Bool) : (s.clearRegs f).chp = s.chp := rfl
@[simp] theorem State.clearRegs_tap (f : Nat → Bool) : (s.clearRegs f).tap = s.tap := rfl
@[simp] theorem State.clearRegs_fresh (f : Nat → Bool) : (s.clearRegs f).fresh = s.fresh := rfl
@[simp] theorem State.clearRegs_pending (f : Nat → Bool) : (s.clearRegs f).pending = s.pending := rfl

/-! ### `setFld` -/

@[simp] theorem State.setFld_grade (b : Block) (n : Nat) (f : Fld) (v : Nat) : (s.setFld b n f v).grade = s.grade := rfl
@[simp] theorem State.setFld_mem (b : Block) (n : Nat) (f : Fld) (v : Nat) : (s.setFld b n f v).mem = s.mem := rfl
@[simp] theorem State.setFld_bind (b : Block) (n : Nat) (f : Fld) (v : Nat) : (s.setFld b n f v).bind = s.bind := rfl
@[simp] theorem State.setFld_tiles (b : Block) (n : Nat) (f : Fld) (v : Nat) : (s.setFld b n f v).tiles = s.tiles := rfl
@[simp] theorem State.setFld_parked (b : Block) (n : Nat) (f : Fld) (v : Nat) : (s.setFld b n f v).parked = s.parked := rfl
@[simp] theorem State.setFld_wires (b : Block) (n : Nat) (f : Fld) (v : Nat) : (s.setFld b n f v).wires = s.wires := rfl
@[simp] theorem State.setFld_cqHeld (b : Block) (n : Nat) (f : Fld) (v : Nat) : (s.setFld b n f v).cqHeld = s.cqHeld := rfl
@[simp] theorem State.setFld_mbHeld (b : Block) (n : Nat) (f : Fld) (v : Nat) : (s.setFld b n f v).mbHeld = s.mbHeld := rfl
@[simp] theorem State.setFld_repSeq (b : Block) (n : Nat) (f : Fld) (v : Nat) : (s.setFld b n f v).repSeq = s.repSeq := rfl
@[simp] theorem State.setFld_rowNotes (b : Block) (n : Nat) (f : Fld) (v : Nat) : (s.setFld b n f v).rowNotes = s.rowNotes := rfl
@[simp] theorem State.setFld_rowQueue (b : Block) (n : Nat) (f : Fld) (v : Nat) : (s.setFld b n f v).rowQueue = s.rowQueue := rfl
@[simp] theorem State.setFld_spareRows (b : Block) (n : Nat) (f : Fld) (v : Nat) : (s.setFld b n f v).spareRows = s.spareRows := rfl
@[simp] theorem State.setFld_fencedPos (b : Block) (n : Nat) (f : Fld) (v : Nat) : (s.setFld b n f v).fencedPos = s.fencedPos := rfl
@[simp] theorem State.setFld_gov (b : Block) (n : Nat) (f : Fld) (v : Nat) : (s.setFld b n f v).gov = s.gov := rfl
@[simp] theorem State.setFld_ticks (b : Block) (n : Nat) (f : Fld) (v : Nat) : (s.setFld b n f v).ticks = s.ticks := rfl
@[simp] theorem State.setFld_toLog (b : Block) (n : Nat) (f : Fld) (v : Nat) : (s.setFld b n f v).toLog = s.toLog := rfl
@[simp] theorem State.setFld_left (b : Block) (n : Nat) (f : Fld) (v : Nat) : (s.setFld b n f v).left = s.left := rfl
@[simp] theorem State.setFld_sendPaths (b : Block) (n : Nat) (f : Fld) (v : Nat) : (s.setFld b n f v).sendPaths = s.sendPaths := rfl
@[simp] theorem State.setFld_cxReads (b : Block) (n : Nat) (f : Fld) (v : Nat) : (s.setFld b n f v).cxReads = s.cxReads := rfl
@[simp] theorem State.setFld_recvPaths (b : Block) (n : Nat) (f : Fld) (v : Nat) : (s.setFld b n f v).recvPaths = s.recvPaths := rfl
@[simp] theorem State.setFld_links (b : Block) (n : Nat) (f : Fld) (v : Nat) : (s.setFld b n f v).links = s.links := rfl
@[simp] theorem State.setFld_badRouters (b : Block) (n : Nat) (f : Fld) (v : Nat) : (s.setFld b n f v).badRouters = s.badRouters := rfl
@[simp] theorem State.setFld_detourDue (b : Block) (n : Nat) (f : Fld) (v : Nat) : (s.setFld b n f v).detourDue = s.detourDue := rfl
@[simp] theorem State.setFld_unserviceable (b : Block) (n : Nat) (f : Fld) (v : Nat) : (s.setFld b n f v).unserviceable = s.unserviceable := rfl
@[simp] theorem State.setFld_toHost (b : Block) (n : Nat) (f : Fld) (v : Nat) : (s.setFld b n f v).toHost = s.toHost := rfl
@[simp] theorem State.setFld_paused (b : Block) (n : Nat) (f : Fld) (v : Nat) : (s.setFld b n f v).paused = s.paused := rfl
@[simp] theorem State.setFld_replays (b : Block) (n : Nat) (f : Fld) (v : Nat) : (s.setFld b n f v).replays = s.replays := rfl
@[simp] theorem State.setFld_peerDown (b : Block) (n : Nat) (f : Fld) (v : Nat) : (s.setFld b n f v).peerDown = s.peerDown := rfl
@[simp] theorem State.setFld_grantQ (b : Block) (n : Nat) (f : Fld) (v : Nat) : (s.setFld b n f v).grantQ = s.grantQ := rfl
@[simp] theorem State.setFld_kids (b : Block) (n : Nat) (f : Fld) (v : Nat) : (s.setFld b n f v).kids = s.kids := rfl
@[simp] theorem State.setFld_devBars (b : Block) (n : Nat) (f : Fld) (v : Nat) : (s.setFld b n f v).devBars = s.devBars := rfl
@[simp] theorem State.setFld_pkgArrived (b : Block) (n : Nat) (f : Fld) (v : Nat) : (s.setFld b n f v).pkgArrived = s.pkgArrived := rfl
@[simp] theorem State.setFld_dcmd (b : Block) (n : Nat) (f : Fld) (v : Nat) : (s.setFld b n f v).dcmd = s.dcmd := rfl
@[simp] theorem State.setFld_noticesDue (b : Block) (n : Nat) (f : Fld) (v : Nat) : (s.setFld b n f v).noticesDue = s.noticesDue := rfl
@[simp] theorem State.setFld_released (b : Block) (n : Nat) (f : Fld) (v : Nat) : (s.setFld b n f v).released = s.released := rfl
@[simp] theorem State.setFld_portsBack (b : Block) (n : Nat) (f : Fld) (v : Nat) : (s.setFld b n f v).portsBack = s.portsBack := rfl
@[simp] theorem State.setFld_portPeers (b : Block) (n : Nat) (f : Fld) (v : Nat) : (s.setFld b n f v).portPeers = s.portPeers := rfl
@[simp] theorem State.setFld_predDue (b : Block) (n : Nat) (f : Fld) (v : Nat) : (s.setFld b n f v).predDue = s.predDue := rfl
@[simp] theorem State.setFld_reshardTo (b : Block) (n : Nat) (f : Fld) (v : Nat) : (s.setFld b n f v).reshardTo = s.reshardTo := rfl
@[simp] theorem State.setFld_hbHeard (b : Block) (n : Nat) (f : Fld) (v : Nat) : (s.setFld b n f v).hbHeard = s.hbHeard := rfl
@[simp] theorem State.setFld_probing (b : Block) (n : Nat) (f : Fld) (v : Nat) : (s.setFld b n f v).probing = s.probing := rfl
@[simp] theorem State.setFld_partnerIdle (b : Block) (n : Nat) (f : Fld) (v : Nat) : (s.setFld b n f v).partnerIdle = s.partnerIdle := rfl
@[simp] theorem State.setFld_aborting (b : Block) (n : Nat) (f : Fld) (v : Nat) : (s.setFld b n f v).aborting = s.aborting := rfl
@[simp] theorem State.setFld_taking (b : Block) (n : Nat) (f : Fld) (v : Nat) : (s.setFld b n f v).taking = s.taking := rfl
@[simp] theorem State.setFld_pulling (b : Block) (n : Nat) (f : Fld) (v : Nat) : (s.setFld b n f v).pulling = s.pulling := rfl
@[simp] theorem State.setFld_heads (b : Block) (n : Nat) (f : Fld) (v : Nat) : (s.setFld b n f v).heads = s.heads := rfl
@[simp] theorem State.setFld_dataReady (b : Block) (n : Nat) (f : Fld) (v : Nat) : (s.setFld b n f v).dataReady = s.dataReady := rfl
@[simp] theorem State.setFld_replayDue (b : Block) (n : Nat) (f : Fld) (v : Nat) : (s.setFld b n f v).replayDue = s.replayDue := rfl
@[simp] theorem State.setFld_startWaits (b : Block) (n : Nat) (f : Fld) (v : Nat) : (s.setFld b n f v).startWaits = s.startWaits := rfl
@[simp] theorem State.setFld_replaced (b : Block) (n : Nat) (f : Fld) (v : Nat) : (s.setFld b n f v).replaced = s.replaced := rfl
@[simp] theorem State.setFld_hostCert (b : Block) (n : Nat) (f : Fld) (v : Nat) : (s.setFld b n f v).hostCert = s.hostCert := rfl
@[simp] theorem State.setFld_pairAsk (b : Block) (n : Nat) (f : Fld) (v : Nat) : (s.setFld b n f v).pairAsk = s.pairAsk := rfl
@[simp] theorem State.setFld_gotCerts (b : Block) (n : Nat) (f : Fld) (v : Nat) : (s.setFld b n f v).gotCerts = s.gotCerts := rfl
@[simp] theorem State.setFld_image (b : Block) (n : Nat) (f : Fld) (v : Nat) : (s.setFld b n f v).image = s.image := rfl
@[simp] theorem State.setFld_blocks (b : Block) (n : Nat) (f : Fld) (v : Nat) : (s.setFld b n f v).blocks = s.blocks := rfl
@[simp] theorem State.setFld_mcs (b : Block) (n : Nat) (f : Fld) (v : Nat) : (s.setFld b n f v).mcs = s.mcs := rfl
@[simp] theorem State.setFld_utcPs (b : Block) (n : Nat) (f : Fld) (v : Nat) : (s.setFld b n f v).utcPs = s.utcPs := rfl
@[simp] theorem State.setFld_hostGone (b : Block) (n : Nat) (f : Fld) (v : Nat) : (s.setFld b n f v).hostGone = s.hostGone := rfl
@[simp] theorem State.setFld_stepHold (b : Block) (n : Nat) (f : Fld) (v : Nat) : (s.setFld b n f v).stepHold = s.stepHold := rfl
@[simp] theorem State.setFld_ghUp (b : Block) (n : Nat) (f : Fld) (v : Nat) : (s.setFld b n f v).ghUp = s.ghUp := rfl
@[simp] theorem State.setFld_ghFailed (b : Block) (n : Nat) (f : Fld) (v : Nat) : (s.setFld b n f v).ghFailed = s.ghFailed := rfl
@[simp] theorem State.setFld_mram (b : Block) (n : Nat) (f : Fld) (v : Nat) : (s.setFld b n f v).mram = s.mram := rfl
@[simp] theorem State.setFld_lodge (b : Block) (n : Nat) (f : Fld) (v : Nat) : (s.setFld b n f v).lodge = s.lodge := rfl
@[simp] theorem State.setFld_chp (b : Block) (n : Nat) (f : Fld) (v : Nat) : (s.setFld b n f v).chp = s.chp := rfl
@[simp] theorem State.setFld_tap (b : Block) (n : Nat) (f : Fld) (v : Nat) : (s.setFld b n f v).tap = s.tap := rfl
@[simp] theorem State.setFld_fresh (b : Block) (n : Nat) (f : Fld) (v : Nat) : (s.setFld b n f v).fresh = s.fresh := rfl
@[simp] theorem State.setFld_pending (b : Block) (n : Nat) (f : Fld) (v : Nat) : (s.setFld b n f v).pending = s.pending := rfl

/-! ### `setTf` -/

@[simp] theorem State.setTf_grade (t : Nat) (f : Fld) (v : Nat) : (s.setTf t f v).grade = s.grade := rfl
@[simp] theorem State.setTf_mem (t : Nat) (f : Fld) (v : Nat) : (s.setTf t f v).mem = s.mem := rfl
@[simp] theorem State.setTf_bind (t : Nat) (f : Fld) (v : Nat) : (s.setTf t f v).bind = s.bind := rfl
@[simp] theorem State.setTf_tiles (t : Nat) (f : Fld) (v : Nat) : (s.setTf t f v).tiles = s.tiles := rfl
@[simp] theorem State.setTf_parked (t : Nat) (f : Fld) (v : Nat) : (s.setTf t f v).parked = s.parked := rfl
@[simp] theorem State.setTf_wires (t : Nat) (f : Fld) (v : Nat) : (s.setTf t f v).wires = s.wires := rfl
@[simp] theorem State.setTf_cqHeld (t : Nat) (f : Fld) (v : Nat) : (s.setTf t f v).cqHeld = s.cqHeld := rfl
@[simp] theorem State.setTf_mbHeld (t : Nat) (f : Fld) (v : Nat) : (s.setTf t f v).mbHeld = s.mbHeld := rfl
@[simp] theorem State.setTf_repSeq (t : Nat) (f : Fld) (v : Nat) : (s.setTf t f v).repSeq = s.repSeq := rfl
@[simp] theorem State.setTf_rowNotes (t : Nat) (f : Fld) (v : Nat) : (s.setTf t f v).rowNotes = s.rowNotes := rfl
@[simp] theorem State.setTf_rowQueue (t : Nat) (f : Fld) (v : Nat) : (s.setTf t f v).rowQueue = s.rowQueue := rfl
@[simp] theorem State.setTf_spareRows (t : Nat) (f : Fld) (v : Nat) : (s.setTf t f v).spareRows = s.spareRows := rfl
@[simp] theorem State.setTf_fencedPos (t : Nat) (f : Fld) (v : Nat) : (s.setTf t f v).fencedPos = s.fencedPos := rfl
@[simp] theorem State.setTf_gov (t : Nat) (f : Fld) (v : Nat) : (s.setTf t f v).gov = s.gov := rfl
@[simp] theorem State.setTf_ticks (t : Nat) (f : Fld) (v : Nat) : (s.setTf t f v).ticks = s.ticks := rfl
@[simp] theorem State.setTf_toLog (t : Nat) (f : Fld) (v : Nat) : (s.setTf t f v).toLog = s.toLog := rfl
@[simp] theorem State.setTf_left (t : Nat) (f : Fld) (v : Nat) : (s.setTf t f v).left = s.left := rfl
@[simp] theorem State.setTf_sendPaths (t : Nat) (f : Fld) (v : Nat) : (s.setTf t f v).sendPaths = s.sendPaths := rfl
@[simp] theorem State.setTf_cxReads (t : Nat) (f : Fld) (v : Nat) : (s.setTf t f v).cxReads = s.cxReads := rfl
@[simp] theorem State.setTf_recvPaths (t : Nat) (f : Fld) (v : Nat) : (s.setTf t f v).recvPaths = s.recvPaths := rfl
@[simp] theorem State.setTf_links (t : Nat) (f : Fld) (v : Nat) : (s.setTf t f v).links = s.links := rfl
@[simp] theorem State.setTf_badRouters (t : Nat) (f : Fld) (v : Nat) : (s.setTf t f v).badRouters = s.badRouters := rfl
@[simp] theorem State.setTf_detourDue (t : Nat) (f : Fld) (v : Nat) : (s.setTf t f v).detourDue = s.detourDue := rfl
@[simp] theorem State.setTf_unserviceable (t : Nat) (f : Fld) (v : Nat) : (s.setTf t f v).unserviceable = s.unserviceable := rfl
@[simp] theorem State.setTf_toHost (t : Nat) (f : Fld) (v : Nat) : (s.setTf t f v).toHost = s.toHost := rfl
@[simp] theorem State.setTf_paused (t : Nat) (f : Fld) (v : Nat) : (s.setTf t f v).paused = s.paused := rfl
@[simp] theorem State.setTf_replays (t : Nat) (f : Fld) (v : Nat) : (s.setTf t f v).replays = s.replays := rfl
@[simp] theorem State.setTf_peerDown (t : Nat) (f : Fld) (v : Nat) : (s.setTf t f v).peerDown = s.peerDown := rfl
@[simp] theorem State.setTf_grantQ (t : Nat) (f : Fld) (v : Nat) : (s.setTf t f v).grantQ = s.grantQ := rfl
@[simp] theorem State.setTf_kids (t : Nat) (f : Fld) (v : Nat) : (s.setTf t f v).kids = s.kids := rfl
@[simp] theorem State.setTf_devBars (t : Nat) (f : Fld) (v : Nat) : (s.setTf t f v).devBars = s.devBars := rfl
@[simp] theorem State.setTf_pkgArrived (t : Nat) (f : Fld) (v : Nat) : (s.setTf t f v).pkgArrived = s.pkgArrived := rfl
@[simp] theorem State.setTf_dcmd (t : Nat) (f : Fld) (v : Nat) : (s.setTf t f v).dcmd = s.dcmd := rfl
@[simp] theorem State.setTf_noticesDue (t : Nat) (f : Fld) (v : Nat) : (s.setTf t f v).noticesDue = s.noticesDue := rfl
@[simp] theorem State.setTf_released (t : Nat) (f : Fld) (v : Nat) : (s.setTf t f v).released = s.released := rfl
@[simp] theorem State.setTf_portsBack (t : Nat) (f : Fld) (v : Nat) : (s.setTf t f v).portsBack = s.portsBack := rfl
@[simp] theorem State.setTf_portPeers (t : Nat) (f : Fld) (v : Nat) : (s.setTf t f v).portPeers = s.portPeers := rfl
@[simp] theorem State.setTf_predDue (t : Nat) (f : Fld) (v : Nat) : (s.setTf t f v).predDue = s.predDue := rfl
@[simp] theorem State.setTf_reshardTo (t : Nat) (f : Fld) (v : Nat) : (s.setTf t f v).reshardTo = s.reshardTo := rfl
@[simp] theorem State.setTf_hbHeard (t : Nat) (f : Fld) (v : Nat) : (s.setTf t f v).hbHeard = s.hbHeard := rfl
@[simp] theorem State.setTf_probing (t : Nat) (f : Fld) (v : Nat) : (s.setTf t f v).probing = s.probing := rfl
@[simp] theorem State.setTf_partnerIdle (t : Nat) (f : Fld) (v : Nat) : (s.setTf t f v).partnerIdle = s.partnerIdle := rfl
@[simp] theorem State.setTf_aborting (t : Nat) (f : Fld) (v : Nat) : (s.setTf t f v).aborting = s.aborting := rfl
@[simp] theorem State.setTf_taking (t : Nat) (f : Fld) (v : Nat) : (s.setTf t f v).taking = s.taking := rfl
@[simp] theorem State.setTf_pulling (t : Nat) (f : Fld) (v : Nat) : (s.setTf t f v).pulling = s.pulling := rfl
@[simp] theorem State.setTf_heads (t : Nat) (f : Fld) (v : Nat) : (s.setTf t f v).heads = s.heads := rfl
@[simp] theorem State.setTf_dataReady (t : Nat) (f : Fld) (v : Nat) : (s.setTf t f v).dataReady = s.dataReady := rfl
@[simp] theorem State.setTf_replayDue (t : Nat) (f : Fld) (v : Nat) : (s.setTf t f v).replayDue = s.replayDue := rfl
@[simp] theorem State.setTf_startWaits (t : Nat) (f : Fld) (v : Nat) : (s.setTf t f v).startWaits = s.startWaits := rfl
@[simp] theorem State.setTf_replaced (t : Nat) (f : Fld) (v : Nat) : (s.setTf t f v).replaced = s.replaced := rfl
@[simp] theorem State.setTf_hostCert (t : Nat) (f : Fld) (v : Nat) : (s.setTf t f v).hostCert = s.hostCert := rfl
@[simp] theorem State.setTf_pairAsk (t : Nat) (f : Fld) (v : Nat) : (s.setTf t f v).pairAsk = s.pairAsk := rfl
@[simp] theorem State.setTf_gotCerts (t : Nat) (f : Fld) (v : Nat) : (s.setTf t f v).gotCerts = s.gotCerts := rfl
@[simp] theorem State.setTf_image (t : Nat) (f : Fld) (v : Nat) : (s.setTf t f v).image = s.image := rfl
@[simp] theorem State.setTf_blocks (t : Nat) (f : Fld) (v : Nat) : (s.setTf t f v).blocks = s.blocks := rfl
@[simp] theorem State.setTf_mcs (t : Nat) (f : Fld) (v : Nat) : (s.setTf t f v).mcs = s.mcs := rfl
@[simp] theorem State.setTf_utcPs (t : Nat) (f : Fld) (v : Nat) : (s.setTf t f v).utcPs = s.utcPs := rfl
@[simp] theorem State.setTf_hostGone (t : Nat) (f : Fld) (v : Nat) : (s.setTf t f v).hostGone = s.hostGone := rfl
@[simp] theorem State.setTf_stepHold (t : Nat) (f : Fld) (v : Nat) : (s.setTf t f v).stepHold = s.stepHold := rfl
@[simp] theorem State.setTf_ghUp (t : Nat) (f : Fld) (v : Nat) : (s.setTf t f v).ghUp = s.ghUp := rfl
@[simp] theorem State.setTf_ghFailed (t : Nat) (f : Fld) (v : Nat) : (s.setTf t f v).ghFailed = s.ghFailed := rfl
@[simp] theorem State.setTf_mram (t : Nat) (f : Fld) (v : Nat) : (s.setTf t f v).mram = s.mram := rfl
@[simp] theorem State.setTf_lodge (t : Nat) (f : Fld) (v : Nat) : (s.setTf t f v).lodge = s.lodge := rfl
@[simp] theorem State.setTf_chp (t : Nat) (f : Fld) (v : Nat) : (s.setTf t f v).chp = s.chp := rfl
@[simp] theorem State.setTf_tap (t : Nat) (f : Fld) (v : Nat) : (s.setTf t f v).tap = s.tap := rfl
@[simp] theorem State.setTf_fresh (t : Nat) (f : Fld) (v : Nat) : (s.setTf t f v).fresh = s.fresh := rfl
@[simp] theorem State.setTf_pending (t : Nat) (f : Fld) (v : Nat) : (s.setTf t f v).pending = s.pending := rfl

/-! ### `setTstate` -/

@[simp] theorem State.setTstate_grade (t v : Nat) : (s.setTstate t v).grade = s.grade := rfl
@[simp] theorem State.setTstate_mem (t v : Nat) : (s.setTstate t v).mem = s.mem := rfl
@[simp] theorem State.setTstate_bind (t v : Nat) : (s.setTstate t v).bind = s.bind := rfl
@[simp] theorem State.setTstate_tiles (t v : Nat) : (s.setTstate t v).tiles = s.tiles := rfl
@[simp] theorem State.setTstate_parked (t v : Nat) : (s.setTstate t v).parked = s.parked := rfl
@[simp] theorem State.setTstate_wires (t v : Nat) : (s.setTstate t v).wires = s.wires := rfl
@[simp] theorem State.setTstate_cqHeld (t v : Nat) : (s.setTstate t v).cqHeld = s.cqHeld := rfl
@[simp] theorem State.setTstate_mbHeld (t v : Nat) : (s.setTstate t v).mbHeld = s.mbHeld := rfl
@[simp] theorem State.setTstate_repSeq (t v : Nat) : (s.setTstate t v).repSeq = s.repSeq := rfl
@[simp] theorem State.setTstate_rowNotes (t v : Nat) : (s.setTstate t v).rowNotes = s.rowNotes := rfl
@[simp] theorem State.setTstate_rowQueue (t v : Nat) : (s.setTstate t v).rowQueue = s.rowQueue := rfl
@[simp] theorem State.setTstate_spareRows (t v : Nat) : (s.setTstate t v).spareRows = s.spareRows := rfl
@[simp] theorem State.setTstate_fencedPos (t v : Nat) : (s.setTstate t v).fencedPos = s.fencedPos := rfl
@[simp] theorem State.setTstate_gov (t v : Nat) : (s.setTstate t v).gov = s.gov := rfl
@[simp] theorem State.setTstate_ticks (t v : Nat) : (s.setTstate t v).ticks = s.ticks := rfl
@[simp] theorem State.setTstate_toLog (t v : Nat) : (s.setTstate t v).toLog = s.toLog := rfl
@[simp] theorem State.setTstate_left (t v : Nat) : (s.setTstate t v).left = s.left := rfl
@[simp] theorem State.setTstate_sendPaths (t v : Nat) : (s.setTstate t v).sendPaths = s.sendPaths := rfl
@[simp] theorem State.setTstate_cxReads (t v : Nat) : (s.setTstate t v).cxReads = s.cxReads := rfl
@[simp] theorem State.setTstate_recvPaths (t v : Nat) : (s.setTstate t v).recvPaths = s.recvPaths := rfl
@[simp] theorem State.setTstate_links (t v : Nat) : (s.setTstate t v).links = s.links := rfl
@[simp] theorem State.setTstate_badRouters (t v : Nat) : (s.setTstate t v).badRouters = s.badRouters := rfl
@[simp] theorem State.setTstate_detourDue (t v : Nat) : (s.setTstate t v).detourDue = s.detourDue := rfl
@[simp] theorem State.setTstate_unserviceable (t v : Nat) : (s.setTstate t v).unserviceable = s.unserviceable := rfl
@[simp] theorem State.setTstate_toHost (t v : Nat) : (s.setTstate t v).toHost = s.toHost := rfl
@[simp] theorem State.setTstate_paused (t v : Nat) : (s.setTstate t v).paused = s.paused := rfl
@[simp] theorem State.setTstate_replays (t v : Nat) : (s.setTstate t v).replays = s.replays := rfl
@[simp] theorem State.setTstate_peerDown (t v : Nat) : (s.setTstate t v).peerDown = s.peerDown := rfl
@[simp] theorem State.setTstate_grantQ (t v : Nat) : (s.setTstate t v).grantQ = s.grantQ := rfl
@[simp] theorem State.setTstate_kids (t v : Nat) : (s.setTstate t v).kids = s.kids := rfl
@[simp] theorem State.setTstate_devBars (t v : Nat) : (s.setTstate t v).devBars = s.devBars := rfl
@[simp] theorem State.setTstate_pkgArrived (t v : Nat) : (s.setTstate t v).pkgArrived = s.pkgArrived := rfl
@[simp] theorem State.setTstate_dcmd (t v : Nat) : (s.setTstate t v).dcmd = s.dcmd := rfl
@[simp] theorem State.setTstate_noticesDue (t v : Nat) : (s.setTstate t v).noticesDue = s.noticesDue := rfl
@[simp] theorem State.setTstate_released (t v : Nat) : (s.setTstate t v).released = s.released := rfl
@[simp] theorem State.setTstate_portsBack (t v : Nat) : (s.setTstate t v).portsBack = s.portsBack := rfl
@[simp] theorem State.setTstate_portPeers (t v : Nat) : (s.setTstate t v).portPeers = s.portPeers := rfl
@[simp] theorem State.setTstate_predDue (t v : Nat) : (s.setTstate t v).predDue = s.predDue := rfl
@[simp] theorem State.setTstate_reshardTo (t v : Nat) : (s.setTstate t v).reshardTo = s.reshardTo := rfl
@[simp] theorem State.setTstate_hbHeard (t v : Nat) : (s.setTstate t v).hbHeard = s.hbHeard := rfl
@[simp] theorem State.setTstate_probing (t v : Nat) : (s.setTstate t v).probing = s.probing := rfl
@[simp] theorem State.setTstate_partnerIdle (t v : Nat) : (s.setTstate t v).partnerIdle = s.partnerIdle := rfl
@[simp] theorem State.setTstate_aborting (t v : Nat) : (s.setTstate t v).aborting = s.aborting := rfl
@[simp] theorem State.setTstate_taking (t v : Nat) : (s.setTstate t v).taking = s.taking := rfl
@[simp] theorem State.setTstate_pulling (t v : Nat) : (s.setTstate t v).pulling = s.pulling := rfl
@[simp] theorem State.setTstate_heads (t v : Nat) : (s.setTstate t v).heads = s.heads := rfl
@[simp] theorem State.setTstate_dataReady (t v : Nat) : (s.setTstate t v).dataReady = s.dataReady := rfl
@[simp] theorem State.setTstate_replayDue (t v : Nat) : (s.setTstate t v).replayDue = s.replayDue := rfl
@[simp] theorem State.setTstate_startWaits (t v : Nat) : (s.setTstate t v).startWaits = s.startWaits := rfl
@[simp] theorem State.setTstate_replaced (t v : Nat) : (s.setTstate t v).replaced = s.replaced := rfl
@[simp] theorem State.setTstate_hostCert (t v : Nat) : (s.setTstate t v).hostCert = s.hostCert := rfl
@[simp] theorem State.setTstate_pairAsk (t v : Nat) : (s.setTstate t v).pairAsk = s.pairAsk := rfl
@[simp] theorem State.setTstate_gotCerts (t v : Nat) : (s.setTstate t v).gotCerts = s.gotCerts := rfl
@[simp] theorem State.setTstate_image (t v : Nat) : (s.setTstate t v).image = s.image := rfl
@[simp] theorem State.setTstate_blocks (t v : Nat) : (s.setTstate t v).blocks = s.blocks := rfl
@[simp] theorem State.setTstate_mcs (t v : Nat) : (s.setTstate t v).mcs = s.mcs := rfl
@[simp] theorem State.setTstate_utcPs (t v : Nat) : (s.setTstate t v).utcPs = s.utcPs := rfl
@[simp] theorem State.setTstate_hostGone (t v : Nat) : (s.setTstate t v).hostGone = s.hostGone := rfl
@[simp] theorem State.setTstate_stepHold (t v : Nat) : (s.setTstate t v).stepHold = s.stepHold := rfl
@[simp] theorem State.setTstate_ghUp (t v : Nat) : (s.setTstate t v).ghUp = s.ghUp := rfl
@[simp] theorem State.setTstate_ghFailed (t v : Nat) : (s.setTstate t v).ghFailed = s.ghFailed := rfl
@[simp] theorem State.setTstate_mram (t v : Nat) : (s.setTstate t v).mram = s.mram := rfl
@[simp] theorem State.setTstate_lodge (t v : Nat) : (s.setTstate t v).lodge = s.lodge := rfl
@[simp] theorem State.setTstate_chp (t v : Nat) : (s.setTstate t v).chp = s.chp := rfl
@[simp] theorem State.setTstate_tap (t v : Nat) : (s.setTstate t v).tap = s.tap := rfl
@[simp] theorem State.setTstate_fresh (t v : Nat) : (s.setTstate t v).fresh = s.fresh := rfl
@[simp] theorem State.setTstate_pending (t v : Nat) : (s.setTstate t v).pending = s.pending := rfl

/-! ### `setPf` -/

@[simp] theorem State.setPf_grade (p : Nat) (f : Nat → Fld) (v : Nat) : (s.setPf p f v).grade = s.grade := rfl
@[simp] theorem State.setPf_mem (p : Nat) (f : Nat → Fld) (v : Nat) : (s.setPf p f v).mem = s.mem := rfl
@[simp] theorem State.setPf_bind (p : Nat) (f : Nat → Fld) (v : Nat) : (s.setPf p f v).bind = s.bind := rfl
@[simp] theorem State.setPf_tiles (p : Nat) (f : Nat → Fld) (v : Nat) : (s.setPf p f v).tiles = s.tiles := rfl
@[simp] theorem State.setPf_parked (p : Nat) (f : Nat → Fld) (v : Nat) : (s.setPf p f v).parked = s.parked := rfl
@[simp] theorem State.setPf_wires (p : Nat) (f : Nat → Fld) (v : Nat) : (s.setPf p f v).wires = s.wires := rfl
@[simp] theorem State.setPf_cqHeld (p : Nat) (f : Nat → Fld) (v : Nat) : (s.setPf p f v).cqHeld = s.cqHeld := rfl
@[simp] theorem State.setPf_mbHeld (p : Nat) (f : Nat → Fld) (v : Nat) : (s.setPf p f v).mbHeld = s.mbHeld := rfl
@[simp] theorem State.setPf_repSeq (p : Nat) (f : Nat → Fld) (v : Nat) : (s.setPf p f v).repSeq = s.repSeq := rfl
@[simp] theorem State.setPf_rowNotes (p : Nat) (f : Nat → Fld) (v : Nat) : (s.setPf p f v).rowNotes = s.rowNotes := rfl
@[simp] theorem State.setPf_rowQueue (p : Nat) (f : Nat → Fld) (v : Nat) : (s.setPf p f v).rowQueue = s.rowQueue := rfl
@[simp] theorem State.setPf_spareRows (p : Nat) (f : Nat → Fld) (v : Nat) : (s.setPf p f v).spareRows = s.spareRows := rfl
@[simp] theorem State.setPf_fencedPos (p : Nat) (f : Nat → Fld) (v : Nat) : (s.setPf p f v).fencedPos = s.fencedPos := rfl
@[simp] theorem State.setPf_gov (p : Nat) (f : Nat → Fld) (v : Nat) : (s.setPf p f v).gov = s.gov := rfl
@[simp] theorem State.setPf_ticks (p : Nat) (f : Nat → Fld) (v : Nat) : (s.setPf p f v).ticks = s.ticks := rfl
@[simp] theorem State.setPf_toLog (p : Nat) (f : Nat → Fld) (v : Nat) : (s.setPf p f v).toLog = s.toLog := rfl
@[simp] theorem State.setPf_left (p : Nat) (f : Nat → Fld) (v : Nat) : (s.setPf p f v).left = s.left := rfl
@[simp] theorem State.setPf_sendPaths (p : Nat) (f : Nat → Fld) (v : Nat) : (s.setPf p f v).sendPaths = s.sendPaths := rfl
@[simp] theorem State.setPf_cxReads (p : Nat) (f : Nat → Fld) (v : Nat) : (s.setPf p f v).cxReads = s.cxReads := rfl
@[simp] theorem State.setPf_recvPaths (p : Nat) (f : Nat → Fld) (v : Nat) : (s.setPf p f v).recvPaths = s.recvPaths := rfl
@[simp] theorem State.setPf_links (p : Nat) (f : Nat → Fld) (v : Nat) : (s.setPf p f v).links = s.links := rfl
@[simp] theorem State.setPf_badRouters (p : Nat) (f : Nat → Fld) (v : Nat) : (s.setPf p f v).badRouters = s.badRouters := rfl
@[simp] theorem State.setPf_detourDue (p : Nat) (f : Nat → Fld) (v : Nat) : (s.setPf p f v).detourDue = s.detourDue := rfl
@[simp] theorem State.setPf_unserviceable (p : Nat) (f : Nat → Fld) (v : Nat) : (s.setPf p f v).unserviceable = s.unserviceable := rfl
@[simp] theorem State.setPf_toHost (p : Nat) (f : Nat → Fld) (v : Nat) : (s.setPf p f v).toHost = s.toHost := rfl
@[simp] theorem State.setPf_paused (p : Nat) (f : Nat → Fld) (v : Nat) : (s.setPf p f v).paused = s.paused := rfl
@[simp] theorem State.setPf_replays (p : Nat) (f : Nat → Fld) (v : Nat) : (s.setPf p f v).replays = s.replays := rfl
@[simp] theorem State.setPf_peerDown (p : Nat) (f : Nat → Fld) (v : Nat) : (s.setPf p f v).peerDown = s.peerDown := rfl
@[simp] theorem State.setPf_grantQ (p : Nat) (f : Nat → Fld) (v : Nat) : (s.setPf p f v).grantQ = s.grantQ := rfl
@[simp] theorem State.setPf_kids (p : Nat) (f : Nat → Fld) (v : Nat) : (s.setPf p f v).kids = s.kids := rfl
@[simp] theorem State.setPf_devBars (p : Nat) (f : Nat → Fld) (v : Nat) : (s.setPf p f v).devBars = s.devBars := rfl
@[simp] theorem State.setPf_pkgArrived (p : Nat) (f : Nat → Fld) (v : Nat) : (s.setPf p f v).pkgArrived = s.pkgArrived := rfl
@[simp] theorem State.setPf_dcmd (p : Nat) (f : Nat → Fld) (v : Nat) : (s.setPf p f v).dcmd = s.dcmd := rfl
@[simp] theorem State.setPf_noticesDue (p : Nat) (f : Nat → Fld) (v : Nat) : (s.setPf p f v).noticesDue = s.noticesDue := rfl
@[simp] theorem State.setPf_released (p : Nat) (f : Nat → Fld) (v : Nat) : (s.setPf p f v).released = s.released := rfl
@[simp] theorem State.setPf_portsBack (p : Nat) (f : Nat → Fld) (v : Nat) : (s.setPf p f v).portsBack = s.portsBack := rfl
@[simp] theorem State.setPf_portPeers (p : Nat) (f : Nat → Fld) (v : Nat) : (s.setPf p f v).portPeers = s.portPeers := rfl
@[simp] theorem State.setPf_predDue (p : Nat) (f : Nat → Fld) (v : Nat) : (s.setPf p f v).predDue = s.predDue := rfl
@[simp] theorem State.setPf_reshardTo (p : Nat) (f : Nat → Fld) (v : Nat) : (s.setPf p f v).reshardTo = s.reshardTo := rfl
@[simp] theorem State.setPf_hbHeard (p : Nat) (f : Nat → Fld) (v : Nat) : (s.setPf p f v).hbHeard = s.hbHeard := rfl
@[simp] theorem State.setPf_probing (p : Nat) (f : Nat → Fld) (v : Nat) : (s.setPf p f v).probing = s.probing := rfl
@[simp] theorem State.setPf_partnerIdle (p : Nat) (f : Nat → Fld) (v : Nat) : (s.setPf p f v).partnerIdle = s.partnerIdle := rfl
@[simp] theorem State.setPf_aborting (p : Nat) (f : Nat → Fld) (v : Nat) : (s.setPf p f v).aborting = s.aborting := rfl
@[simp] theorem State.setPf_taking (p : Nat) (f : Nat → Fld) (v : Nat) : (s.setPf p f v).taking = s.taking := rfl
@[simp] theorem State.setPf_pulling (p : Nat) (f : Nat → Fld) (v : Nat) : (s.setPf p f v).pulling = s.pulling := rfl
@[simp] theorem State.setPf_heads (p : Nat) (f : Nat → Fld) (v : Nat) : (s.setPf p f v).heads = s.heads := rfl
@[simp] theorem State.setPf_dataReady (p : Nat) (f : Nat → Fld) (v : Nat) : (s.setPf p f v).dataReady = s.dataReady := rfl
@[simp] theorem State.setPf_replayDue (p : Nat) (f : Nat → Fld) (v : Nat) : (s.setPf p f v).replayDue = s.replayDue := rfl
@[simp] theorem State.setPf_startWaits (p : Nat) (f : Nat → Fld) (v : Nat) : (s.setPf p f v).startWaits = s.startWaits := rfl
@[simp] theorem State.setPf_replaced (p : Nat) (f : Nat → Fld) (v : Nat) : (s.setPf p f v).replaced = s.replaced := rfl
@[simp] theorem State.setPf_hostCert (p : Nat) (f : Nat → Fld) (v : Nat) : (s.setPf p f v).hostCert = s.hostCert := rfl
@[simp] theorem State.setPf_pairAsk (p : Nat) (f : Nat → Fld) (v : Nat) : (s.setPf p f v).pairAsk = s.pairAsk := rfl
@[simp] theorem State.setPf_gotCerts (p : Nat) (f : Nat → Fld) (v : Nat) : (s.setPf p f v).gotCerts = s.gotCerts := rfl
@[simp] theorem State.setPf_image (p : Nat) (f : Nat → Fld) (v : Nat) : (s.setPf p f v).image = s.image := rfl
@[simp] theorem State.setPf_blocks (p : Nat) (f : Nat → Fld) (v : Nat) : (s.setPf p f v).blocks = s.blocks := rfl
@[simp] theorem State.setPf_mcs (p : Nat) (f : Nat → Fld) (v : Nat) : (s.setPf p f v).mcs = s.mcs := rfl
@[simp] theorem State.setPf_utcPs (p : Nat) (f : Nat → Fld) (v : Nat) : (s.setPf p f v).utcPs = s.utcPs := rfl
@[simp] theorem State.setPf_hostGone (p : Nat) (f : Nat → Fld) (v : Nat) : (s.setPf p f v).hostGone = s.hostGone := rfl
@[simp] theorem State.setPf_stepHold (p : Nat) (f : Nat → Fld) (v : Nat) : (s.setPf p f v).stepHold = s.stepHold := rfl
@[simp] theorem State.setPf_ghUp (p : Nat) (f : Nat → Fld) (v : Nat) : (s.setPf p f v).ghUp = s.ghUp := rfl
@[simp] theorem State.setPf_ghFailed (p : Nat) (f : Nat → Fld) (v : Nat) : (s.setPf p f v).ghFailed = s.ghFailed := rfl
@[simp] theorem State.setPf_mram (p : Nat) (f : Nat → Fld) (v : Nat) : (s.setPf p f v).mram = s.mram := rfl
@[simp] theorem State.setPf_lodge (p : Nat) (f : Nat → Fld) (v : Nat) : (s.setPf p f v).lodge = s.lodge := rfl
@[simp] theorem State.setPf_chp (p : Nat) (f : Nat → Fld) (v : Nat) : (s.setPf p f v).chp = s.chp := rfl
@[simp] theorem State.setPf_tap (p : Nat) (f : Nat → Fld) (v : Nat) : (s.setPf p f v).tap = s.tap := rfl
@[simp] theorem State.setPf_fresh (p : Nat) (f : Nat → Fld) (v : Nat) : (s.setPf p f v).fresh = s.fresh := rfl
@[simp] theorem State.setPf_pending (p : Nat) (f : Nat → Fld) (v : Nat) : (s.setPf p f v).pending = s.pending := rfl

/-! ### `setByte` -/

@[simp] theorem State.setByte_grade (a : Nat) (b : Byte) : (s.setByte a b).grade = s.grade := rfl
@[simp] theorem State.setByte_regs (a : Nat) (b : Byte) : (s.setByte a b).regs = s.regs := rfl
@[simp] theorem State.setByte_bind (a : Nat) (b : Byte) : (s.setByte a b).bind = s.bind := rfl
@[simp] theorem State.setByte_tiles (a : Nat) (b : Byte) : (s.setByte a b).tiles = s.tiles := rfl
@[simp] theorem State.setByte_parked (a : Nat) (b : Byte) : (s.setByte a b).parked = s.parked := rfl
@[simp] theorem State.setByte_wires (a : Nat) (b : Byte) : (s.setByte a b).wires = s.wires := rfl
@[simp] theorem State.setByte_cqHeld (a : Nat) (b : Byte) : (s.setByte a b).cqHeld = s.cqHeld := rfl
@[simp] theorem State.setByte_mbHeld (a : Nat) (b : Byte) : (s.setByte a b).mbHeld = s.mbHeld := rfl
@[simp] theorem State.setByte_repSeq (a : Nat) (b : Byte) : (s.setByte a b).repSeq = s.repSeq := rfl
@[simp] theorem State.setByte_rowNotes (a : Nat) (b : Byte) : (s.setByte a b).rowNotes = s.rowNotes := rfl
@[simp] theorem State.setByte_rowQueue (a : Nat) (b : Byte) : (s.setByte a b).rowQueue = s.rowQueue := rfl
@[simp] theorem State.setByte_spareRows (a : Nat) (b : Byte) : (s.setByte a b).spareRows = s.spareRows := rfl
@[simp] theorem State.setByte_fencedPos (a : Nat) (b : Byte) : (s.setByte a b).fencedPos = s.fencedPos := rfl
@[simp] theorem State.setByte_gov (a : Nat) (b : Byte) : (s.setByte a b).gov = s.gov := rfl
@[simp] theorem State.setByte_ticks (a : Nat) (b : Byte) : (s.setByte a b).ticks = s.ticks := rfl
@[simp] theorem State.setByte_toLog (a : Nat) (b : Byte) : (s.setByte a b).toLog = s.toLog := rfl
@[simp] theorem State.setByte_left (a : Nat) (b : Byte) : (s.setByte a b).left = s.left := rfl
@[simp] theorem State.setByte_sendPaths (a : Nat) (b : Byte) : (s.setByte a b).sendPaths = s.sendPaths := rfl
@[simp] theorem State.setByte_cxReads (a : Nat) (b : Byte) : (s.setByte a b).cxReads = s.cxReads := rfl
@[simp] theorem State.setByte_recvPaths (a : Nat) (b : Byte) : (s.setByte a b).recvPaths = s.recvPaths := rfl
@[simp] theorem State.setByte_links (a : Nat) (b : Byte) : (s.setByte a b).links = s.links := rfl
@[simp] theorem State.setByte_badRouters (a : Nat) (b : Byte) : (s.setByte a b).badRouters = s.badRouters := rfl
@[simp] theorem State.setByte_detourDue (a : Nat) (b : Byte) : (s.setByte a b).detourDue = s.detourDue := rfl
@[simp] theorem State.setByte_unserviceable (a : Nat) (b : Byte) : (s.setByte a b).unserviceable = s.unserviceable := rfl
@[simp] theorem State.setByte_toHost (a : Nat) (b : Byte) : (s.setByte a b).toHost = s.toHost := rfl
@[simp] theorem State.setByte_paused (a : Nat) (b : Byte) : (s.setByte a b).paused = s.paused := rfl
@[simp] theorem State.setByte_replays (a : Nat) (b : Byte) : (s.setByte a b).replays = s.replays := rfl
@[simp] theorem State.setByte_peerDown (a : Nat) (b : Byte) : (s.setByte a b).peerDown = s.peerDown := rfl
@[simp] theorem State.setByte_grantQ (a : Nat) (b : Byte) : (s.setByte a b).grantQ = s.grantQ := rfl
@[simp] theorem State.setByte_kids (a : Nat) (b : Byte) : (s.setByte a b).kids = s.kids := rfl
@[simp] theorem State.setByte_devBars (a : Nat) (b : Byte) : (s.setByte a b).devBars = s.devBars := rfl
@[simp] theorem State.setByte_pkgArrived (a : Nat) (b : Byte) : (s.setByte a b).pkgArrived = s.pkgArrived := rfl
@[simp] theorem State.setByte_dcmd (a : Nat) (b : Byte) : (s.setByte a b).dcmd = s.dcmd := rfl
@[simp] theorem State.setByte_noticesDue (a : Nat) (b : Byte) : (s.setByte a b).noticesDue = s.noticesDue := rfl
@[simp] theorem State.setByte_released (a : Nat) (b : Byte) : (s.setByte a b).released = s.released := rfl
@[simp] theorem State.setByte_portsBack (a : Nat) (b : Byte) : (s.setByte a b).portsBack = s.portsBack := rfl
@[simp] theorem State.setByte_portPeers (a : Nat) (b : Byte) : (s.setByte a b).portPeers = s.portPeers := rfl
@[simp] theorem State.setByte_predDue (a : Nat) (b : Byte) : (s.setByte a b).predDue = s.predDue := rfl
@[simp] theorem State.setByte_reshardTo (a : Nat) (b : Byte) : (s.setByte a b).reshardTo = s.reshardTo := rfl
@[simp] theorem State.setByte_hbHeard (a : Nat) (b : Byte) : (s.setByte a b).hbHeard = s.hbHeard := rfl
@[simp] theorem State.setByte_probing (a : Nat) (b : Byte) : (s.setByte a b).probing = s.probing := rfl
@[simp] theorem State.setByte_partnerIdle (a : Nat) (b : Byte) : (s.setByte a b).partnerIdle = s.partnerIdle := rfl
@[simp] theorem State.setByte_aborting (a : Nat) (b : Byte) : (s.setByte a b).aborting = s.aborting := rfl
@[simp] theorem State.setByte_taking (a : Nat) (b : Byte) : (s.setByte a b).taking = s.taking := rfl
@[simp] theorem State.setByte_pulling (a : Nat) (b : Byte) : (s.setByte a b).pulling = s.pulling := rfl
@[simp] theorem State.setByte_heads (a : Nat) (b : Byte) : (s.setByte a b).heads = s.heads := rfl
@[simp] theorem State.setByte_dataReady (a : Nat) (b : Byte) : (s.setByte a b).dataReady = s.dataReady := rfl
@[simp] theorem State.setByte_replayDue (a : Nat) (b : Byte) : (s.setByte a b).replayDue = s.replayDue := rfl
@[simp] theorem State.setByte_startWaits (a : Nat) (b : Byte) : (s.setByte a b).startWaits = s.startWaits := rfl
@[simp] theorem State.setByte_replaced (a : Nat) (b : Byte) : (s.setByte a b).replaced = s.replaced := rfl
@[simp] theorem State.setByte_hostCert (a : Nat) (b : Byte) : (s.setByte a b).hostCert = s.hostCert := rfl
@[simp] theorem State.setByte_pairAsk (a : Nat) (b : Byte) : (s.setByte a b).pairAsk = s.pairAsk := rfl
@[simp] theorem State.setByte_gotCerts (a : Nat) (b : Byte) : (s.setByte a b).gotCerts = s.gotCerts := rfl
@[simp] theorem State.setByte_image (a : Nat) (b : Byte) : (s.setByte a b).image = s.image := rfl
@[simp] theorem State.setByte_blocks (a : Nat) (b : Byte) : (s.setByte a b).blocks = s.blocks := rfl
@[simp] theorem State.setByte_mcs (a : Nat) (b : Byte) : (s.setByte a b).mcs = s.mcs := rfl
@[simp] theorem State.setByte_utcPs (a : Nat) (b : Byte) : (s.setByte a b).utcPs = s.utcPs := rfl
@[simp] theorem State.setByte_hostGone (a : Nat) (b : Byte) : (s.setByte a b).hostGone = s.hostGone := rfl
@[simp] theorem State.setByte_stepHold (a : Nat) (b : Byte) : (s.setByte a b).stepHold = s.stepHold := rfl
@[simp] theorem State.setByte_ghUp (a : Nat) (b : Byte) : (s.setByte a b).ghUp = s.ghUp := rfl
@[simp] theorem State.setByte_ghFailed (a : Nat) (b : Byte) : (s.setByte a b).ghFailed = s.ghFailed := rfl
@[simp] theorem State.setByte_mram (a : Nat) (b : Byte) : (s.setByte a b).mram = s.mram := rfl
@[simp] theorem State.setByte_lodge (a : Nat) (b : Byte) : (s.setByte a b).lodge = s.lodge := rfl
@[simp] theorem State.setByte_chp (a : Nat) (b : Byte) : (s.setByte a b).chp = s.chp := rfl
@[simp] theorem State.setByte_tap (a : Nat) (b : Byte) : (s.setByte a b).tap = s.tap := rfl
@[simp] theorem State.setByte_fresh (a : Nat) (b : Byte) : (s.setByte a b).fresh = s.fresh := rfl
@[simp] theorem State.setByte_pending (a : Nat) (b : Byte) : (s.setByte a b).pending = s.pending := rfl

/-! ### `setTile` -/

@[simp] theorem State.setTile_grade (t : Nat) (x : Tile) : (s.setTile t x).grade = s.grade := rfl
@[simp] theorem State.setTile_regs (t : Nat) (x : Tile) : (s.setTile t x).regs = s.regs := rfl
@[simp] theorem State.setTile_mem (t : Nat) (x : Tile) : (s.setTile t x).mem = s.mem := rfl
@[simp] theorem State.setTile_bind (t : Nat) (x : Tile) : (s.setTile t x).bind = s.bind := rfl
@[simp] theorem State.setTile_parked (t : Nat) (x : Tile) : (s.setTile t x).parked = s.parked := rfl
@[simp] theorem State.setTile_wires (t : Nat) (x : Tile) : (s.setTile t x).wires = s.wires := rfl
@[simp] theorem State.setTile_cqHeld (t : Nat) (x : Tile) : (s.setTile t x).cqHeld = s.cqHeld := rfl
@[simp] theorem State.setTile_mbHeld (t : Nat) (x : Tile) : (s.setTile t x).mbHeld = s.mbHeld := rfl
@[simp] theorem State.setTile_repSeq (t : Nat) (x : Tile) : (s.setTile t x).repSeq = s.repSeq := rfl
@[simp] theorem State.setTile_rowNotes (t : Nat) (x : Tile) : (s.setTile t x).rowNotes = s.rowNotes := rfl
@[simp] theorem State.setTile_rowQueue (t : Nat) (x : Tile) : (s.setTile t x).rowQueue = s.rowQueue := rfl
@[simp] theorem State.setTile_spareRows (t : Nat) (x : Tile) : (s.setTile t x).spareRows = s.spareRows := rfl
@[simp] theorem State.setTile_fencedPos (t : Nat) (x : Tile) : (s.setTile t x).fencedPos = s.fencedPos := rfl
@[simp] theorem State.setTile_gov (t : Nat) (x : Tile) : (s.setTile t x).gov = s.gov := rfl
@[simp] theorem State.setTile_ticks (t : Nat) (x : Tile) : (s.setTile t x).ticks = s.ticks := rfl
@[simp] theorem State.setTile_toLog (t : Nat) (x : Tile) : (s.setTile t x).toLog = s.toLog := rfl
@[simp] theorem State.setTile_left (t : Nat) (x : Tile) : (s.setTile t x).left = s.left := rfl
@[simp] theorem State.setTile_sendPaths (t : Nat) (x : Tile) : (s.setTile t x).sendPaths = s.sendPaths := rfl
@[simp] theorem State.setTile_cxReads (t : Nat) (x : Tile) : (s.setTile t x).cxReads = s.cxReads := rfl
@[simp] theorem State.setTile_recvPaths (t : Nat) (x : Tile) : (s.setTile t x).recvPaths = s.recvPaths := rfl
@[simp] theorem State.setTile_links (t : Nat) (x : Tile) : (s.setTile t x).links = s.links := rfl
@[simp] theorem State.setTile_badRouters (t : Nat) (x : Tile) : (s.setTile t x).badRouters = s.badRouters := rfl
@[simp] theorem State.setTile_detourDue (t : Nat) (x : Tile) : (s.setTile t x).detourDue = s.detourDue := rfl
@[simp] theorem State.setTile_unserviceable (t : Nat) (x : Tile) : (s.setTile t x).unserviceable = s.unserviceable := rfl
@[simp] theorem State.setTile_toHost (t : Nat) (x : Tile) : (s.setTile t x).toHost = s.toHost := rfl
@[simp] theorem State.setTile_paused (t : Nat) (x : Tile) : (s.setTile t x).paused = s.paused := rfl
@[simp] theorem State.setTile_replays (t : Nat) (x : Tile) : (s.setTile t x).replays = s.replays := rfl
@[simp] theorem State.setTile_peerDown (t : Nat) (x : Tile) : (s.setTile t x).peerDown = s.peerDown := rfl
@[simp] theorem State.setTile_grantQ (t : Nat) (x : Tile) : (s.setTile t x).grantQ = s.grantQ := rfl
@[simp] theorem State.setTile_kids (t : Nat) (x : Tile) : (s.setTile t x).kids = s.kids := rfl
@[simp] theorem State.setTile_devBars (t : Nat) (x : Tile) : (s.setTile t x).devBars = s.devBars := rfl
@[simp] theorem State.setTile_pkgArrived (t : Nat) (x : Tile) : (s.setTile t x).pkgArrived = s.pkgArrived := rfl
@[simp] theorem State.setTile_dcmd (t : Nat) (x : Tile) : (s.setTile t x).dcmd = s.dcmd := rfl
@[simp] theorem State.setTile_noticesDue (t : Nat) (x : Tile) : (s.setTile t x).noticesDue = s.noticesDue := rfl
@[simp] theorem State.setTile_released (t : Nat) (x : Tile) : (s.setTile t x).released = s.released := rfl
@[simp] theorem State.setTile_portsBack (t : Nat) (x : Tile) : (s.setTile t x).portsBack = s.portsBack := rfl
@[simp] theorem State.setTile_portPeers (t : Nat) (x : Tile) : (s.setTile t x).portPeers = s.portPeers := rfl
@[simp] theorem State.setTile_predDue (t : Nat) (x : Tile) : (s.setTile t x).predDue = s.predDue := rfl
@[simp] theorem State.setTile_reshardTo (t : Nat) (x : Tile) : (s.setTile t x).reshardTo = s.reshardTo := rfl
@[simp] theorem State.setTile_hbHeard (t : Nat) (x : Tile) : (s.setTile t x).hbHeard = s.hbHeard := rfl
@[simp] theorem State.setTile_probing (t : Nat) (x : Tile) : (s.setTile t x).probing = s.probing := rfl
@[simp] theorem State.setTile_partnerIdle (t : Nat) (x : Tile) : (s.setTile t x).partnerIdle = s.partnerIdle := rfl
@[simp] theorem State.setTile_aborting (t : Nat) (x : Tile) : (s.setTile t x).aborting = s.aborting := rfl
@[simp] theorem State.setTile_taking (t : Nat) (x : Tile) : (s.setTile t x).taking = s.taking := rfl
@[simp] theorem State.setTile_pulling (t : Nat) (x : Tile) : (s.setTile t x).pulling = s.pulling := rfl
@[simp] theorem State.setTile_heads (t : Nat) (x : Tile) : (s.setTile t x).heads = s.heads := rfl
@[simp] theorem State.setTile_dataReady (t : Nat) (x : Tile) : (s.setTile t x).dataReady = s.dataReady := rfl
@[simp] theorem State.setTile_replayDue (t : Nat) (x : Tile) : (s.setTile t x).replayDue = s.replayDue := rfl
@[simp] theorem State.setTile_startWaits (t : Nat) (x : Tile) : (s.setTile t x).startWaits = s.startWaits := rfl
@[simp] theorem State.setTile_replaced (t : Nat) (x : Tile) : (s.setTile t x).replaced = s.replaced := rfl
@[simp] theorem State.setTile_hostCert (t : Nat) (x : Tile) : (s.setTile t x).hostCert = s.hostCert := rfl
@[simp] theorem State.setTile_pairAsk (t : Nat) (x : Tile) : (s.setTile t x).pairAsk = s.pairAsk := rfl
@[simp] theorem State.setTile_gotCerts (t : Nat) (x : Tile) : (s.setTile t x).gotCerts = s.gotCerts := rfl
@[simp] theorem State.setTile_image (t : Nat) (x : Tile) : (s.setTile t x).image = s.image := rfl
@[simp] theorem State.setTile_blocks (t : Nat) (x : Tile) : (s.setTile t x).blocks = s.blocks := rfl
@[simp] theorem State.setTile_mcs (t : Nat) (x : Tile) : (s.setTile t x).mcs = s.mcs := rfl
@[simp] theorem State.setTile_utcPs (t : Nat) (x : Tile) : (s.setTile t x).utcPs = s.utcPs := rfl
@[simp] theorem State.setTile_hostGone (t : Nat) (x : Tile) : (s.setTile t x).hostGone = s.hostGone := rfl
@[simp] theorem State.setTile_stepHold (t : Nat) (x : Tile) : (s.setTile t x).stepHold = s.stepHold := rfl
@[simp] theorem State.setTile_ghUp (t : Nat) (x : Tile) : (s.setTile t x).ghUp = s.ghUp := rfl
@[simp] theorem State.setTile_ghFailed (t : Nat) (x : Tile) : (s.setTile t x).ghFailed = s.ghFailed := rfl
@[simp] theorem State.setTile_mram (t : Nat) (x : Tile) : (s.setTile t x).mram = s.mram := rfl
@[simp] theorem State.setTile_lodge (t : Nat) (x : Tile) : (s.setTile t x).lodge = s.lodge := rfl
@[simp] theorem State.setTile_chp (t : Nat) (x : Tile) : (s.setTile t x).chp = s.chp := rfl
@[simp] theorem State.setTile_tap (t : Nat) (x : Tile) : (s.setTile t x).tap = s.tap := rfl
@[simp] theorem State.setTile_fresh (t : Nat) (x : Tile) : (s.setTile t x).fresh = s.fresh := rfl
@[simp] theorem State.setTile_pending (t : Nat) (x : Tile) : (s.setTile t x).pending = s.pending := rfl

/-! ### `modTile` -/

@[simp] theorem State.modTile_grade (t : Nat) (f : Tile → Tile) : (s.modTile t f).grade = s.grade := rfl
@[simp] theorem State.modTile_regs (t : Nat) (f : Tile → Tile) : (s.modTile t f).regs = s.regs := rfl
@[simp] theorem State.modTile_mem (t : Nat) (f : Tile → Tile) : (s.modTile t f).mem = s.mem := rfl
@[simp] theorem State.modTile_bind (t : Nat) (f : Tile → Tile) : (s.modTile t f).bind = s.bind := rfl
@[simp] theorem State.modTile_parked (t : Nat) (f : Tile → Tile) : (s.modTile t f).parked = s.parked := rfl
@[simp] theorem State.modTile_wires (t : Nat) (f : Tile → Tile) : (s.modTile t f).wires = s.wires := rfl
@[simp] theorem State.modTile_cqHeld (t : Nat) (f : Tile → Tile) : (s.modTile t f).cqHeld = s.cqHeld := rfl
@[simp] theorem State.modTile_mbHeld (t : Nat) (f : Tile → Tile) : (s.modTile t f).mbHeld = s.mbHeld := rfl
@[simp] theorem State.modTile_repSeq (t : Nat) (f : Tile → Tile) : (s.modTile t f).repSeq = s.repSeq := rfl
@[simp] theorem State.modTile_rowNotes (t : Nat) (f : Tile → Tile) : (s.modTile t f).rowNotes = s.rowNotes := rfl
@[simp] theorem State.modTile_rowQueue (t : Nat) (f : Tile → Tile) : (s.modTile t f).rowQueue = s.rowQueue := rfl
@[simp] theorem State.modTile_spareRows (t : Nat) (f : Tile → Tile) : (s.modTile t f).spareRows = s.spareRows := rfl
@[simp] theorem State.modTile_fencedPos (t : Nat) (f : Tile → Tile) : (s.modTile t f).fencedPos = s.fencedPos := rfl
@[simp] theorem State.modTile_gov (t : Nat) (f : Tile → Tile) : (s.modTile t f).gov = s.gov := rfl
@[simp] theorem State.modTile_ticks (t : Nat) (f : Tile → Tile) : (s.modTile t f).ticks = s.ticks := rfl
@[simp] theorem State.modTile_toLog (t : Nat) (f : Tile → Tile) : (s.modTile t f).toLog = s.toLog := rfl
@[simp] theorem State.modTile_left (t : Nat) (f : Tile → Tile) : (s.modTile t f).left = s.left := rfl
@[simp] theorem State.modTile_sendPaths (t : Nat) (f : Tile → Tile) : (s.modTile t f).sendPaths = s.sendPaths := rfl
@[simp] theorem State.modTile_cxReads (t : Nat) (f : Tile → Tile) : (s.modTile t f).cxReads = s.cxReads := rfl
@[simp] theorem State.modTile_recvPaths (t : Nat) (f : Tile → Tile) : (s.modTile t f).recvPaths = s.recvPaths := rfl
@[simp] theorem State.modTile_links (t : Nat) (f : Tile → Tile) : (s.modTile t f).links = s.links := rfl
@[simp] theorem State.modTile_badRouters (t : Nat) (f : Tile → Tile) : (s.modTile t f).badRouters = s.badRouters := rfl
@[simp] theorem State.modTile_detourDue (t : Nat) (f : Tile → Tile) : (s.modTile t f).detourDue = s.detourDue := rfl
@[simp] theorem State.modTile_unserviceable (t : Nat) (f : Tile → Tile) : (s.modTile t f).unserviceable = s.unserviceable := rfl
@[simp] theorem State.modTile_toHost (t : Nat) (f : Tile → Tile) : (s.modTile t f).toHost = s.toHost := rfl
@[simp] theorem State.modTile_paused (t : Nat) (f : Tile → Tile) : (s.modTile t f).paused = s.paused := rfl
@[simp] theorem State.modTile_replays (t : Nat) (f : Tile → Tile) : (s.modTile t f).replays = s.replays := rfl
@[simp] theorem State.modTile_peerDown (t : Nat) (f : Tile → Tile) : (s.modTile t f).peerDown = s.peerDown := rfl
@[simp] theorem State.modTile_grantQ (t : Nat) (f : Tile → Tile) : (s.modTile t f).grantQ = s.grantQ := rfl
@[simp] theorem State.modTile_kids (t : Nat) (f : Tile → Tile) : (s.modTile t f).kids = s.kids := rfl
@[simp] theorem State.modTile_devBars (t : Nat) (f : Tile → Tile) : (s.modTile t f).devBars = s.devBars := rfl
@[simp] theorem State.modTile_pkgArrived (t : Nat) (f : Tile → Tile) : (s.modTile t f).pkgArrived = s.pkgArrived := rfl
@[simp] theorem State.modTile_dcmd (t : Nat) (f : Tile → Tile) : (s.modTile t f).dcmd = s.dcmd := rfl
@[simp] theorem State.modTile_noticesDue (t : Nat) (f : Tile → Tile) : (s.modTile t f).noticesDue = s.noticesDue := rfl
@[simp] theorem State.modTile_released (t : Nat) (f : Tile → Tile) : (s.modTile t f).released = s.released := rfl
@[simp] theorem State.modTile_portsBack (t : Nat) (f : Tile → Tile) : (s.modTile t f).portsBack = s.portsBack := rfl
@[simp] theorem State.modTile_portPeers (t : Nat) (f : Tile → Tile) : (s.modTile t f).portPeers = s.portPeers := rfl
@[simp] theorem State.modTile_predDue (t : Nat) (f : Tile → Tile) : (s.modTile t f).predDue = s.predDue := rfl
@[simp] theorem State.modTile_reshardTo (t : Nat) (f : Tile → Tile) : (s.modTile t f).reshardTo = s.reshardTo := rfl
@[simp] theorem State.modTile_hbHeard (t : Nat) (f : Tile → Tile) : (s.modTile t f).hbHeard = s.hbHeard := rfl
@[simp] theorem State.modTile_probing (t : Nat) (f : Tile → Tile) : (s.modTile t f).probing = s.probing := rfl
@[simp] theorem State.modTile_partnerIdle (t : Nat) (f : Tile → Tile) : (s.modTile t f).partnerIdle = s.partnerIdle := rfl
@[simp] theorem State.modTile_aborting (t : Nat) (f : Tile → Tile) : (s.modTile t f).aborting = s.aborting := rfl
@[simp] theorem State.modTile_taking (t : Nat) (f : Tile → Tile) : (s.modTile t f).taking = s.taking := rfl
@[simp] theorem State.modTile_pulling (t : Nat) (f : Tile → Tile) : (s.modTile t f).pulling = s.pulling := rfl
@[simp] theorem State.modTile_heads (t : Nat) (f : Tile → Tile) : (s.modTile t f).heads = s.heads := rfl
@[simp] theorem State.modTile_dataReady (t : Nat) (f : Tile → Tile) : (s.modTile t f).dataReady = s.dataReady := rfl
@[simp] theorem State.modTile_replayDue (t : Nat) (f : Tile → Tile) : (s.modTile t f).replayDue = s.replayDue := rfl
@[simp] theorem State.modTile_startWaits (t : Nat) (f : Tile → Tile) : (s.modTile t f).startWaits = s.startWaits := rfl
@[simp] theorem State.modTile_replaced (t : Nat) (f : Tile → Tile) : (s.modTile t f).replaced = s.replaced := rfl
@[simp] theorem State.modTile_hostCert (t : Nat) (f : Tile → Tile) : (s.modTile t f).hostCert = s.hostCert := rfl
@[simp] theorem State.modTile_pairAsk (t : Nat) (f : Tile → Tile) : (s.modTile t f).pairAsk = s.pairAsk := rfl
@[simp] theorem State.modTile_gotCerts (t : Nat) (f : Tile → Tile) : (s.modTile t f).gotCerts = s.gotCerts := rfl
@[simp] theorem State.modTile_image (t : Nat) (f : Tile → Tile) : (s.modTile t f).image = s.image := rfl
@[simp] theorem State.modTile_blocks (t : Nat) (f : Tile → Tile) : (s.modTile t f).blocks = s.blocks := rfl
@[simp] theorem State.modTile_mcs (t : Nat) (f : Tile → Tile) : (s.modTile t f).mcs = s.mcs := rfl
@[simp] theorem State.modTile_utcPs (t : Nat) (f : Tile → Tile) : (s.modTile t f).utcPs = s.utcPs := rfl
@[simp] theorem State.modTile_hostGone (t : Nat) (f : Tile → Tile) : (s.modTile t f).hostGone = s.hostGone := rfl
@[simp] theorem State.modTile_stepHold (t : Nat) (f : Tile → Tile) : (s.modTile t f).stepHold = s.stepHold := rfl
@[simp] theorem State.modTile_ghUp (t : Nat) (f : Tile → Tile) : (s.modTile t f).ghUp = s.ghUp := rfl
@[simp] theorem State.modTile_ghFailed (t : Nat) (f : Tile → Tile) : (s.modTile t f).ghFailed = s.ghFailed := rfl
@[simp] theorem State.modTile_mram (t : Nat) (f : Tile → Tile) : (s.modTile t f).mram = s.mram := rfl
@[simp] theorem State.modTile_lodge (t : Nat) (f : Tile → Tile) : (s.modTile t f).lodge = s.lodge := rfl
@[simp] theorem State.modTile_chp (t : Nat) (f : Tile → Tile) : (s.modTile t f).chp = s.chp := rfl
@[simp] theorem State.modTile_tap (t : Nat) (f : Tile → Tile) : (s.modTile t f).tap = s.tap := rfl
@[simp] theorem State.modTile_fresh (t : Nat) (f : Tile → Tile) : (s.modTile t f).fresh = s.fresh := rfl
@[simp] theorem State.modTile_pending (t : Nat) (f : Tile → Tile) : (s.modTile t f).pending = s.pending := rfl

/-! ### `modCtx` -/

@[simp] theorem State.modCtx_grade (t c : Nat) (f : Ctx → Ctx) : (s.modCtx t c f).grade = s.grade := rfl
@[simp] theorem State.modCtx_regs (t c : Nat) (f : Ctx → Ctx) : (s.modCtx t c f).regs = s.regs := rfl
@[simp] theorem State.modCtx_mem (t c : Nat) (f : Ctx → Ctx) : (s.modCtx t c f).mem = s.mem := rfl
@[simp] theorem State.modCtx_bind (t c : Nat) (f : Ctx → Ctx) : (s.modCtx t c f).bind = s.bind := rfl
@[simp] theorem State.modCtx_parked (t c : Nat) (f : Ctx → Ctx) : (s.modCtx t c f).parked = s.parked := rfl
@[simp] theorem State.modCtx_wires (t c : Nat) (f : Ctx → Ctx) : (s.modCtx t c f).wires = s.wires := rfl
@[simp] theorem State.modCtx_cqHeld (t c : Nat) (f : Ctx → Ctx) : (s.modCtx t c f).cqHeld = s.cqHeld := rfl
@[simp] theorem State.modCtx_mbHeld (t c : Nat) (f : Ctx → Ctx) : (s.modCtx t c f).mbHeld = s.mbHeld := rfl
@[simp] theorem State.modCtx_repSeq (t c : Nat) (f : Ctx → Ctx) : (s.modCtx t c f).repSeq = s.repSeq := rfl
@[simp] theorem State.modCtx_rowNotes (t c : Nat) (f : Ctx → Ctx) : (s.modCtx t c f).rowNotes = s.rowNotes := rfl
@[simp] theorem State.modCtx_rowQueue (t c : Nat) (f : Ctx → Ctx) : (s.modCtx t c f).rowQueue = s.rowQueue := rfl
@[simp] theorem State.modCtx_spareRows (t c : Nat) (f : Ctx → Ctx) : (s.modCtx t c f).spareRows = s.spareRows := rfl
@[simp] theorem State.modCtx_fencedPos (t c : Nat) (f : Ctx → Ctx) : (s.modCtx t c f).fencedPos = s.fencedPos := rfl
@[simp] theorem State.modCtx_gov (t c : Nat) (f : Ctx → Ctx) : (s.modCtx t c f).gov = s.gov := rfl
@[simp] theorem State.modCtx_ticks (t c : Nat) (f : Ctx → Ctx) : (s.modCtx t c f).ticks = s.ticks := rfl
@[simp] theorem State.modCtx_toLog (t c : Nat) (f : Ctx → Ctx) : (s.modCtx t c f).toLog = s.toLog := rfl
@[simp] theorem State.modCtx_left (t c : Nat) (f : Ctx → Ctx) : (s.modCtx t c f).left = s.left := rfl
@[simp] theorem State.modCtx_sendPaths (t c : Nat) (f : Ctx → Ctx) : (s.modCtx t c f).sendPaths = s.sendPaths := rfl
@[simp] theorem State.modCtx_cxReads (t c : Nat) (f : Ctx → Ctx) : (s.modCtx t c f).cxReads = s.cxReads := rfl
@[simp] theorem State.modCtx_recvPaths (t c : Nat) (f : Ctx → Ctx) : (s.modCtx t c f).recvPaths = s.recvPaths := rfl
@[simp] theorem State.modCtx_links (t c : Nat) (f : Ctx → Ctx) : (s.modCtx t c f).links = s.links := rfl
@[simp] theorem State.modCtx_badRouters (t c : Nat) (f : Ctx → Ctx) : (s.modCtx t c f).badRouters = s.badRouters := rfl
@[simp] theorem State.modCtx_detourDue (t c : Nat) (f : Ctx → Ctx) : (s.modCtx t c f).detourDue = s.detourDue := rfl
@[simp] theorem State.modCtx_unserviceable (t c : Nat) (f : Ctx → Ctx) : (s.modCtx t c f).unserviceable = s.unserviceable := rfl
@[simp] theorem State.modCtx_toHost (t c : Nat) (f : Ctx → Ctx) : (s.modCtx t c f).toHost = s.toHost := rfl
@[simp] theorem State.modCtx_paused (t c : Nat) (f : Ctx → Ctx) : (s.modCtx t c f).paused = s.paused := rfl
@[simp] theorem State.modCtx_replays (t c : Nat) (f : Ctx → Ctx) : (s.modCtx t c f).replays = s.replays := rfl
@[simp] theorem State.modCtx_peerDown (t c : Nat) (f : Ctx → Ctx) : (s.modCtx t c f).peerDown = s.peerDown := rfl
@[simp] theorem State.modCtx_grantQ (t c : Nat) (f : Ctx → Ctx) : (s.modCtx t c f).grantQ = s.grantQ := rfl
@[simp] theorem State.modCtx_kids (t c : Nat) (f : Ctx → Ctx) : (s.modCtx t c f).kids = s.kids := rfl
@[simp] theorem State.modCtx_devBars (t c : Nat) (f : Ctx → Ctx) : (s.modCtx t c f).devBars = s.devBars := rfl
@[simp] theorem State.modCtx_pkgArrived (t c : Nat) (f : Ctx → Ctx) : (s.modCtx t c f).pkgArrived = s.pkgArrived := rfl
@[simp] theorem State.modCtx_dcmd (t c : Nat) (f : Ctx → Ctx) : (s.modCtx t c f).dcmd = s.dcmd := rfl
@[simp] theorem State.modCtx_noticesDue (t c : Nat) (f : Ctx → Ctx) : (s.modCtx t c f).noticesDue = s.noticesDue := rfl
@[simp] theorem State.modCtx_released (t c : Nat) (f : Ctx → Ctx) : (s.modCtx t c f).released = s.released := rfl
@[simp] theorem State.modCtx_portsBack (t c : Nat) (f : Ctx → Ctx) : (s.modCtx t c f).portsBack = s.portsBack := rfl
@[simp] theorem State.modCtx_portPeers (t c : Nat) (f : Ctx → Ctx) : (s.modCtx t c f).portPeers = s.portPeers := rfl
@[simp] theorem State.modCtx_predDue (t c : Nat) (f : Ctx → Ctx) : (s.modCtx t c f).predDue = s.predDue := rfl
@[simp] theorem State.modCtx_reshardTo (t c : Nat) (f : Ctx → Ctx) : (s.modCtx t c f).reshardTo = s.reshardTo := rfl
@[simp] theorem State.modCtx_hbHeard (t c : Nat) (f : Ctx → Ctx) : (s.modCtx t c f).hbHeard = s.hbHeard := rfl
@[simp] theorem State.modCtx_probing (t c : Nat) (f : Ctx → Ctx) : (s.modCtx t c f).probing = s.probing := rfl
@[simp] theorem State.modCtx_partnerIdle (t c : Nat) (f : Ctx → Ctx) : (s.modCtx t c f).partnerIdle = s.partnerIdle := rfl
@[simp] theorem State.modCtx_aborting (t c : Nat) (f : Ctx → Ctx) : (s.modCtx t c f).aborting = s.aborting := rfl
@[simp] theorem State.modCtx_taking (t c : Nat) (f : Ctx → Ctx) : (s.modCtx t c f).taking = s.taking := rfl
@[simp] theorem State.modCtx_pulling (t c : Nat) (f : Ctx → Ctx) : (s.modCtx t c f).pulling = s.pulling := rfl
@[simp] theorem State.modCtx_heads (t c : Nat) (f : Ctx → Ctx) : (s.modCtx t c f).heads = s.heads := rfl
@[simp] theorem State.modCtx_dataReady (t c : Nat) (f : Ctx → Ctx) : (s.modCtx t c f).dataReady = s.dataReady := rfl
@[simp] theorem State.modCtx_replayDue (t c : Nat) (f : Ctx → Ctx) : (s.modCtx t c f).replayDue = s.replayDue := rfl
@[simp] theorem State.modCtx_startWaits (t c : Nat) (f : Ctx → Ctx) : (s.modCtx t c f).startWaits = s.startWaits := rfl
@[simp] theorem State.modCtx_replaced (t c : Nat) (f : Ctx → Ctx) : (s.modCtx t c f).replaced = s.replaced := rfl
@[simp] theorem State.modCtx_hostCert (t c : Nat) (f : Ctx → Ctx) : (s.modCtx t c f).hostCert = s.hostCert := rfl
@[simp] theorem State.modCtx_pairAsk (t c : Nat) (f : Ctx → Ctx) : (s.modCtx t c f).pairAsk = s.pairAsk := rfl
@[simp] theorem State.modCtx_gotCerts (t c : Nat) (f : Ctx → Ctx) : (s.modCtx t c f).gotCerts = s.gotCerts := rfl
@[simp] theorem State.modCtx_image (t c : Nat) (f : Ctx → Ctx) : (s.modCtx t c f).image = s.image := rfl
@[simp] theorem State.modCtx_blocks (t c : Nat) (f : Ctx → Ctx) : (s.modCtx t c f).blocks = s.blocks := rfl
@[simp] theorem State.modCtx_mcs (t c : Nat) (f : Ctx → Ctx) : (s.modCtx t c f).mcs = s.mcs := rfl
@[simp] theorem State.modCtx_utcPs (t c : Nat) (f : Ctx → Ctx) : (s.modCtx t c f).utcPs = s.utcPs := rfl
@[simp] theorem State.modCtx_hostGone (t c : Nat) (f : Ctx → Ctx) : (s.modCtx t c f).hostGone = s.hostGone := rfl
@[simp] theorem State.modCtx_stepHold (t c : Nat) (f : Ctx → Ctx) : (s.modCtx t c f).stepHold = s.stepHold := rfl
@[simp] theorem State.modCtx_ghUp (t c : Nat) (f : Ctx → Ctx) : (s.modCtx t c f).ghUp = s.ghUp := rfl
@[simp] theorem State.modCtx_ghFailed (t c : Nat) (f : Ctx → Ctx) : (s.modCtx t c f).ghFailed = s.ghFailed := rfl
@[simp] theorem State.modCtx_mram (t c : Nat) (f : Ctx → Ctx) : (s.modCtx t c f).mram = s.mram := rfl
@[simp] theorem State.modCtx_lodge (t c : Nat) (f : Ctx → Ctx) : (s.modCtx t c f).lodge = s.lodge := rfl
@[simp] theorem State.modCtx_chp (t c : Nat) (f : Ctx → Ctx) : (s.modCtx t c f).chp = s.chp := rfl
@[simp] theorem State.modCtx_tap (t c : Nat) (f : Ctx → Ctx) : (s.modCtx t c f).tap = s.tap := rfl
@[simp] theorem State.modCtx_fresh (t c : Nat) (f : Ctx → Ctx) : (s.modCtx t c f).fresh = s.fresh := rfl
@[simp] theorem State.modCtx_pending (t c : Nat) (f : Ctx → Ctx) : (s.modCtx t c f).pending = s.pending := rfl

/-! ### `send` -/

@[simp] theorem State.send_grade (w : Wire) : (s.send w).grade = s.grade := rfl
@[simp] theorem State.send_regs (w : Wire) : (s.send w).regs = s.regs := rfl
@[simp] theorem State.send_mem (w : Wire) : (s.send w).mem = s.mem := rfl
@[simp] theorem State.send_bind (w : Wire) : (s.send w).bind = s.bind := rfl
@[simp] theorem State.send_tiles (w : Wire) : (s.send w).tiles = s.tiles := rfl
@[simp] theorem State.send_parked (w : Wire) : (s.send w).parked = s.parked := rfl
@[simp] theorem State.send_cqHeld (w : Wire) : (s.send w).cqHeld = s.cqHeld := rfl
@[simp] theorem State.send_mbHeld (w : Wire) : (s.send w).mbHeld = s.mbHeld := rfl
@[simp] theorem State.send_repSeq (w : Wire) : (s.send w).repSeq = s.repSeq := rfl
@[simp] theorem State.send_rowNotes (w : Wire) : (s.send w).rowNotes = s.rowNotes := rfl
@[simp] theorem State.send_rowQueue (w : Wire) : (s.send w).rowQueue = s.rowQueue := rfl
@[simp] theorem State.send_spareRows (w : Wire) : (s.send w).spareRows = s.spareRows := rfl
@[simp] theorem State.send_fencedPos (w : Wire) : (s.send w).fencedPos = s.fencedPos := rfl
@[simp] theorem State.send_gov (w : Wire) : (s.send w).gov = s.gov := rfl
@[simp] theorem State.send_ticks (w : Wire) : (s.send w).ticks = s.ticks := rfl
@[simp] theorem State.send_toLog (w : Wire) : (s.send w).toLog = s.toLog := rfl
@[simp] theorem State.send_left (w : Wire) : (s.send w).left = s.left := rfl
@[simp] theorem State.send_sendPaths (w : Wire) : (s.send w).sendPaths = s.sendPaths := rfl
@[simp] theorem State.send_cxReads (w : Wire) : (s.send w).cxReads = s.cxReads := rfl
@[simp] theorem State.send_recvPaths (w : Wire) : (s.send w).recvPaths = s.recvPaths := rfl
@[simp] theorem State.send_links (w : Wire) : (s.send w).links = s.links := rfl
@[simp] theorem State.send_badRouters (w : Wire) : (s.send w).badRouters = s.badRouters := rfl
@[simp] theorem State.send_detourDue (w : Wire) : (s.send w).detourDue = s.detourDue := rfl
@[simp] theorem State.send_unserviceable (w : Wire) : (s.send w).unserviceable = s.unserviceable := rfl
@[simp] theorem State.send_toHost (w : Wire) : (s.send w).toHost = s.toHost := rfl
@[simp] theorem State.send_paused (w : Wire) : (s.send w).paused = s.paused := rfl
@[simp] theorem State.send_replays (w : Wire) : (s.send w).replays = s.replays := rfl
@[simp] theorem State.send_peerDown (w : Wire) : (s.send w).peerDown = s.peerDown := rfl
@[simp] theorem State.send_grantQ (w : Wire) : (s.send w).grantQ = s.grantQ := rfl
@[simp] theorem State.send_kids (w : Wire) : (s.send w).kids = s.kids := rfl
@[simp] theorem State.send_devBars (w : Wire) : (s.send w).devBars = s.devBars := rfl
@[simp] theorem State.send_pkgArrived (w : Wire) : (s.send w).pkgArrived = s.pkgArrived := rfl
@[simp] theorem State.send_dcmd (w : Wire) : (s.send w).dcmd = s.dcmd := rfl
@[simp] theorem State.send_noticesDue (w : Wire) : (s.send w).noticesDue = s.noticesDue := rfl
@[simp] theorem State.send_released (w : Wire) : (s.send w).released = s.released := rfl
@[simp] theorem State.send_portsBack (w : Wire) : (s.send w).portsBack = s.portsBack := rfl
@[simp] theorem State.send_portPeers (w : Wire) : (s.send w).portPeers = s.portPeers := rfl
@[simp] theorem State.send_predDue (w : Wire) : (s.send w).predDue = s.predDue := rfl
@[simp] theorem State.send_reshardTo (w : Wire) : (s.send w).reshardTo = s.reshardTo := rfl
@[simp] theorem State.send_hbHeard (w : Wire) : (s.send w).hbHeard = s.hbHeard := rfl
@[simp] theorem State.send_probing (w : Wire) : (s.send w).probing = s.probing := rfl
@[simp] theorem State.send_partnerIdle (w : Wire) : (s.send w).partnerIdle = s.partnerIdle := rfl
@[simp] theorem State.send_aborting (w : Wire) : (s.send w).aborting = s.aborting := rfl
@[simp] theorem State.send_taking (w : Wire) : (s.send w).taking = s.taking := rfl
@[simp] theorem State.send_pulling (w : Wire) : (s.send w).pulling = s.pulling := rfl
@[simp] theorem State.send_heads (w : Wire) : (s.send w).heads = s.heads := rfl
@[simp] theorem State.send_dataReady (w : Wire) : (s.send w).dataReady = s.dataReady := rfl
@[simp] theorem State.send_replayDue (w : Wire) : (s.send w).replayDue = s.replayDue := rfl
@[simp] theorem State.send_startWaits (w : Wire) : (s.send w).startWaits = s.startWaits := rfl
@[simp] theorem State.send_replaced (w : Wire) : (s.send w).replaced = s.replaced := rfl
@[simp] theorem State.send_hostCert (w : Wire) : (s.send w).hostCert = s.hostCert := rfl
@[simp] theorem State.send_pairAsk (w : Wire) : (s.send w).pairAsk = s.pairAsk := rfl
@[simp] theorem State.send_gotCerts (w : Wire) : (s.send w).gotCerts = s.gotCerts := rfl
@[simp] theorem State.send_image (w : Wire) : (s.send w).image = s.image := rfl
@[simp] theorem State.send_blocks (w : Wire) : (s.send w).blocks = s.blocks := rfl
@[simp] theorem State.send_mcs (w : Wire) : (s.send w).mcs = s.mcs := rfl
@[simp] theorem State.send_utcPs (w : Wire) : (s.send w).utcPs = s.utcPs := rfl
@[simp] theorem State.send_hostGone (w : Wire) : (s.send w).hostGone = s.hostGone := rfl
@[simp] theorem State.send_stepHold (w : Wire) : (s.send w).stepHold = s.stepHold := rfl
@[simp] theorem State.send_ghUp (w : Wire) : (s.send w).ghUp = s.ghUp := rfl
@[simp] theorem State.send_ghFailed (w : Wire) : (s.send w).ghFailed = s.ghFailed := rfl
@[simp] theorem State.send_mram (w : Wire) : (s.send w).mram = s.mram := rfl
@[simp] theorem State.send_lodge (w : Wire) : (s.send w).lodge = s.lodge := rfl
@[simp] theorem State.send_chp (w : Wire) : (s.send w).chp = s.chp := rfl
@[simp] theorem State.send_tap (w : Wire) : (s.send w).tap = s.tap := rfl
@[simp] theorem State.send_fresh (w : Wire) : (s.send w).fresh = s.fresh := rfl
@[simp] theorem State.send_pending (w : Wire) : (s.send w).pending = s.pending := rfl

/-! ### `unwire` -/

@[simp] theorem State.unwire_grade (w : Wire) : (s.unwire w).grade = s.grade := rfl
@[simp] theorem State.unwire_regs (w : Wire) : (s.unwire w).regs = s.regs := rfl
@[simp] theorem State.unwire_mem (w : Wire) : (s.unwire w).mem = s.mem := rfl
@[simp] theorem State.unwire_bind (w : Wire) : (s.unwire w).bind = s.bind := rfl
@[simp] theorem State.unwire_tiles (w : Wire) : (s.unwire w).tiles = s.tiles := rfl
@[simp] theorem State.unwire_parked (w : Wire) : (s.unwire w).parked = s.parked := rfl
@[simp] theorem State.unwire_cqHeld (w : Wire) : (s.unwire w).cqHeld = s.cqHeld := rfl
@[simp] theorem State.unwire_mbHeld (w : Wire) : (s.unwire w).mbHeld = s.mbHeld := rfl
@[simp] theorem State.unwire_repSeq (w : Wire) : (s.unwire w).repSeq = s.repSeq := rfl
@[simp] theorem State.unwire_rowNotes (w : Wire) : (s.unwire w).rowNotes = s.rowNotes := rfl
@[simp] theorem State.unwire_rowQueue (w : Wire) : (s.unwire w).rowQueue = s.rowQueue := rfl
@[simp] theorem State.unwire_spareRows (w : Wire) : (s.unwire w).spareRows = s.spareRows := rfl
@[simp] theorem State.unwire_fencedPos (w : Wire) : (s.unwire w).fencedPos = s.fencedPos := rfl
@[simp] theorem State.unwire_gov (w : Wire) : (s.unwire w).gov = s.gov := rfl
@[simp] theorem State.unwire_ticks (w : Wire) : (s.unwire w).ticks = s.ticks := rfl
@[simp] theorem State.unwire_toLog (w : Wire) : (s.unwire w).toLog = s.toLog := rfl
@[simp] theorem State.unwire_left (w : Wire) : (s.unwire w).left = s.left := rfl
@[simp] theorem State.unwire_sendPaths (w : Wire) : (s.unwire w).sendPaths = s.sendPaths := rfl
@[simp] theorem State.unwire_cxReads (w : Wire) : (s.unwire w).cxReads = s.cxReads := rfl
@[simp] theorem State.unwire_recvPaths (w : Wire) : (s.unwire w).recvPaths = s.recvPaths := rfl
@[simp] theorem State.unwire_links (w : Wire) : (s.unwire w).links = s.links := rfl
@[simp] theorem State.unwire_badRouters (w : Wire) : (s.unwire w).badRouters = s.badRouters := rfl
@[simp] theorem State.unwire_detourDue (w : Wire) : (s.unwire w).detourDue = s.detourDue := rfl
@[simp] theorem State.unwire_unserviceable (w : Wire) : (s.unwire w).unserviceable = s.unserviceable := rfl
@[simp] theorem State.unwire_toHost (w : Wire) : (s.unwire w).toHost = s.toHost := rfl
@[simp] theorem State.unwire_paused (w : Wire) : (s.unwire w).paused = s.paused := rfl
@[simp] theorem State.unwire_replays (w : Wire) : (s.unwire w).replays = s.replays := rfl
@[simp] theorem State.unwire_peerDown (w : Wire) : (s.unwire w).peerDown = s.peerDown := rfl
@[simp] theorem State.unwire_grantQ (w : Wire) : (s.unwire w).grantQ = s.grantQ := rfl
@[simp] theorem State.unwire_kids (w : Wire) : (s.unwire w).kids = s.kids := rfl
@[simp] theorem State.unwire_devBars (w : Wire) : (s.unwire w).devBars = s.devBars := rfl
@[simp] theorem State.unwire_pkgArrived (w : Wire) : (s.unwire w).pkgArrived = s.pkgArrived := rfl
@[simp] theorem State.unwire_dcmd (w : Wire) : (s.unwire w).dcmd = s.dcmd := rfl
@[simp] theorem State.unwire_noticesDue (w : Wire) : (s.unwire w).noticesDue = s.noticesDue := rfl
@[simp] theorem State.unwire_released (w : Wire) : (s.unwire w).released = s.released := rfl
@[simp] theorem State.unwire_portsBack (w : Wire) : (s.unwire w).portsBack = s.portsBack := rfl
@[simp] theorem State.unwire_portPeers (w : Wire) : (s.unwire w).portPeers = s.portPeers := rfl
@[simp] theorem State.unwire_predDue (w : Wire) : (s.unwire w).predDue = s.predDue := rfl
@[simp] theorem State.unwire_reshardTo (w : Wire) : (s.unwire w).reshardTo = s.reshardTo := rfl
@[simp] theorem State.unwire_hbHeard (w : Wire) : (s.unwire w).hbHeard = s.hbHeard := rfl
@[simp] theorem State.unwire_probing (w : Wire) : (s.unwire w).probing = s.probing := rfl
@[simp] theorem State.unwire_partnerIdle (w : Wire) : (s.unwire w).partnerIdle = s.partnerIdle := rfl
@[simp] theorem State.unwire_aborting (w : Wire) : (s.unwire w).aborting = s.aborting := rfl
@[simp] theorem State.unwire_taking (w : Wire) : (s.unwire w).taking = s.taking := rfl
@[simp] theorem State.unwire_pulling (w : Wire) : (s.unwire w).pulling = s.pulling := rfl
@[simp] theorem State.unwire_heads (w : Wire) : (s.unwire w).heads = s.heads := rfl
@[simp] theorem State.unwire_dataReady (w : Wire) : (s.unwire w).dataReady = s.dataReady := rfl
@[simp] theorem State.unwire_replayDue (w : Wire) : (s.unwire w).replayDue = s.replayDue := rfl
@[simp] theorem State.unwire_startWaits (w : Wire) : (s.unwire w).startWaits = s.startWaits := rfl
@[simp] theorem State.unwire_replaced (w : Wire) : (s.unwire w).replaced = s.replaced := rfl
@[simp] theorem State.unwire_hostCert (w : Wire) : (s.unwire w).hostCert = s.hostCert := rfl
@[simp] theorem State.unwire_pairAsk (w : Wire) : (s.unwire w).pairAsk = s.pairAsk := rfl
@[simp] theorem State.unwire_gotCerts (w : Wire) : (s.unwire w).gotCerts = s.gotCerts := rfl
@[simp] theorem State.unwire_image (w : Wire) : (s.unwire w).image = s.image := rfl
@[simp] theorem State.unwire_blocks (w : Wire) : (s.unwire w).blocks = s.blocks := rfl
@[simp] theorem State.unwire_mcs (w : Wire) : (s.unwire w).mcs = s.mcs := rfl
@[simp] theorem State.unwire_utcPs (w : Wire) : (s.unwire w).utcPs = s.utcPs := rfl
@[simp] theorem State.unwire_hostGone (w : Wire) : (s.unwire w).hostGone = s.hostGone := rfl
@[simp] theorem State.unwire_stepHold (w : Wire) : (s.unwire w).stepHold = s.stepHold := rfl
@[simp] theorem State.unwire_ghUp (w : Wire) : (s.unwire w).ghUp = s.ghUp := rfl
@[simp] theorem State.unwire_ghFailed (w : Wire) : (s.unwire w).ghFailed = s.ghFailed := rfl
@[simp] theorem State.unwire_mram (w : Wire) : (s.unwire w).mram = s.mram := rfl
@[simp] theorem State.unwire_lodge (w : Wire) : (s.unwire w).lodge = s.lodge := rfl
@[simp] theorem State.unwire_chp (w : Wire) : (s.unwire w).chp = s.chp := rfl
@[simp] theorem State.unwire_tap (w : Wire) : (s.unwire w).tap = s.tap := rfl
@[simp] theorem State.unwire_fresh (w : Wire) : (s.unwire w).fresh = s.fresh := rfl
@[simp] theorem State.unwire_pending (w : Wire) : (s.unwire w).pending = s.pending := rfl

/-! ### `submit` -/

@[simp] theorem State.submit_grade (l : LogSub) : (s.submit l).grade = s.grade := rfl
@[simp] theorem State.submit_regs (l : LogSub) : (s.submit l).regs = s.regs := rfl
@[simp] theorem State.submit_mem (l : LogSub) : (s.submit l).mem = s.mem := rfl
@[simp] theorem State.submit_bind (l : LogSub) : (s.submit l).bind = s.bind := rfl
@[simp] theorem State.submit_tiles (l : LogSub) : (s.submit l).tiles = s.tiles := rfl
@[simp] theorem State.submit_parked (l : LogSub) : (s.submit l).parked = s.parked := rfl
@[simp] theorem State.submit_wires (l : LogSub) : (s.submit l).wires = s.wires := rfl
@[simp] theorem State.submit_cqHeld (l : LogSub) : (s.submit l).cqHeld = s.cqHeld := rfl
@[simp] theorem State.submit_mbHeld (l : LogSub) : (s.submit l).mbHeld = s.mbHeld := rfl
@[simp] theorem State.submit_repSeq (l : LogSub) : (s.submit l).repSeq = s.repSeq := rfl
@[simp] theorem State.submit_rowNotes (l : LogSub) : (s.submit l).rowNotes = s.rowNotes := rfl
@[simp] theorem State.submit_rowQueue (l : LogSub) : (s.submit l).rowQueue = s.rowQueue := rfl
@[simp] theorem State.submit_spareRows (l : LogSub) : (s.submit l).spareRows = s.spareRows := rfl
@[simp] theorem State.submit_fencedPos (l : LogSub) : (s.submit l).fencedPos = s.fencedPos := rfl
@[simp] theorem State.submit_gov (l : LogSub) : (s.submit l).gov = s.gov := rfl
@[simp] theorem State.submit_ticks (l : LogSub) : (s.submit l).ticks = s.ticks := rfl
@[simp] theorem State.submit_left (l : LogSub) : (s.submit l).left = s.left := rfl
@[simp] theorem State.submit_sendPaths (l : LogSub) : (s.submit l).sendPaths = s.sendPaths := rfl
@[simp] theorem State.submit_cxReads (l : LogSub) : (s.submit l).cxReads = s.cxReads := rfl
@[simp] theorem State.submit_recvPaths (l : LogSub) : (s.submit l).recvPaths = s.recvPaths := rfl
@[simp] theorem State.submit_links (l : LogSub) : (s.submit l).links = s.links := rfl
@[simp] theorem State.submit_badRouters (l : LogSub) : (s.submit l).badRouters = s.badRouters := rfl
@[simp] theorem State.submit_detourDue (l : LogSub) : (s.submit l).detourDue = s.detourDue := rfl
@[simp] theorem State.submit_unserviceable (l : LogSub) : (s.submit l).unserviceable = s.unserviceable := rfl
@[simp] theorem State.submit_toHost (l : LogSub) : (s.submit l).toHost = s.toHost := rfl
@[simp] theorem State.submit_paused (l : LogSub) : (s.submit l).paused = s.paused := rfl
@[simp] theorem State.submit_replays (l : LogSub) : (s.submit l).replays = s.replays := rfl
@[simp] theorem State.submit_peerDown (l : LogSub) : (s.submit l).peerDown = s.peerDown := rfl
@[simp] theorem State.submit_grantQ (l : LogSub) : (s.submit l).grantQ = s.grantQ := rfl
@[simp] theorem State.submit_kids (l : LogSub) : (s.submit l).kids = s.kids := rfl
@[simp] theorem State.submit_devBars (l : LogSub) : (s.submit l).devBars = s.devBars := rfl
@[simp] theorem State.submit_pkgArrived (l : LogSub) : (s.submit l).pkgArrived = s.pkgArrived := rfl
@[simp] theorem State.submit_dcmd (l : LogSub) : (s.submit l).dcmd = s.dcmd := rfl
@[simp] theorem State.submit_noticesDue (l : LogSub) : (s.submit l).noticesDue = s.noticesDue := rfl
@[simp] theorem State.submit_released (l : LogSub) : (s.submit l).released = s.released := rfl
@[simp] theorem State.submit_portsBack (l : LogSub) : (s.submit l).portsBack = s.portsBack := rfl
@[simp] theorem State.submit_portPeers (l : LogSub) : (s.submit l).portPeers = s.portPeers := rfl
@[simp] theorem State.submit_predDue (l : LogSub) : (s.submit l).predDue = s.predDue := rfl
@[simp] theorem State.submit_reshardTo (l : LogSub) : (s.submit l).reshardTo = s.reshardTo := rfl
@[simp] theorem State.submit_hbHeard (l : LogSub) : (s.submit l).hbHeard = s.hbHeard := rfl
@[simp] theorem State.submit_probing (l : LogSub) : (s.submit l).probing = s.probing := rfl
@[simp] theorem State.submit_partnerIdle (l : LogSub) : (s.submit l).partnerIdle = s.partnerIdle := rfl
@[simp] theorem State.submit_aborting (l : LogSub) : (s.submit l).aborting = s.aborting := rfl
@[simp] theorem State.submit_taking (l : LogSub) : (s.submit l).taking = s.taking := rfl
@[simp] theorem State.submit_pulling (l : LogSub) : (s.submit l).pulling = s.pulling := rfl
@[simp] theorem State.submit_heads (l : LogSub) : (s.submit l).heads = s.heads := rfl
@[simp] theorem State.submit_dataReady (l : LogSub) : (s.submit l).dataReady = s.dataReady := rfl
@[simp] theorem State.submit_replayDue (l : LogSub) : (s.submit l).replayDue = s.replayDue := rfl
@[simp] theorem State.submit_startWaits (l : LogSub) : (s.submit l).startWaits = s.startWaits := rfl
@[simp] theorem State.submit_replaced (l : LogSub) : (s.submit l).replaced = s.replaced := rfl
@[simp] theorem State.submit_hostCert (l : LogSub) : (s.submit l).hostCert = s.hostCert := rfl
@[simp] theorem State.submit_pairAsk (l : LogSub) : (s.submit l).pairAsk = s.pairAsk := rfl
@[simp] theorem State.submit_gotCerts (l : LogSub) : (s.submit l).gotCerts = s.gotCerts := rfl
@[simp] theorem State.submit_image (l : LogSub) : (s.submit l).image = s.image := rfl
@[simp] theorem State.submit_blocks (l : LogSub) : (s.submit l).blocks = s.blocks := rfl
@[simp] theorem State.submit_mcs (l : LogSub) : (s.submit l).mcs = s.mcs := rfl
@[simp] theorem State.submit_utcPs (l : LogSub) : (s.submit l).utcPs = s.utcPs := rfl
@[simp] theorem State.submit_hostGone (l : LogSub) : (s.submit l).hostGone = s.hostGone := rfl
@[simp] theorem State.submit_stepHold (l : LogSub) : (s.submit l).stepHold = s.stepHold := rfl
@[simp] theorem State.submit_ghUp (l : LogSub) : (s.submit l).ghUp = s.ghUp := rfl
@[simp] theorem State.submit_ghFailed (l : LogSub) : (s.submit l).ghFailed = s.ghFailed := rfl
@[simp] theorem State.submit_mram (l : LogSub) : (s.submit l).mram = s.mram := rfl
@[simp] theorem State.submit_lodge (l : LogSub) : (s.submit l).lodge = s.lodge := rfl
@[simp] theorem State.submit_chp (l : LogSub) : (s.submit l).chp = s.chp := rfl
@[simp] theorem State.submit_tap (l : LogSub) : (s.submit l).tap = s.tap := rfl
@[simp] theorem State.submit_fresh (l : LogSub) : (s.submit l).fresh = s.fresh := rfl
@[simp] theorem State.submit_pending (l : LogSub) : (s.submit l).pending = s.pending := rfl

/-! ### `tellHost` -/

@[simp] theorem State.tellHost_grade (m : HostMsg) : (s.tellHost m).grade = s.grade := rfl
@[simp] theorem State.tellHost_regs (m : HostMsg) : (s.tellHost m).regs = s.regs := rfl
@[simp] theorem State.tellHost_mem (m : HostMsg) : (s.tellHost m).mem = s.mem := rfl
@[simp] theorem State.tellHost_bind (m : HostMsg) : (s.tellHost m).bind = s.bind := rfl
@[simp] theorem State.tellHost_tiles (m : HostMsg) : (s.tellHost m).tiles = s.tiles := rfl
@[simp] theorem State.tellHost_parked (m : HostMsg) : (s.tellHost m).parked = s.parked := rfl
@[simp] theorem State.tellHost_wires (m : HostMsg) : (s.tellHost m).wires = s.wires := rfl
@[simp] theorem State.tellHost_cqHeld (m : HostMsg) : (s.tellHost m).cqHeld = s.cqHeld := rfl
@[simp] theorem State.tellHost_mbHeld (m : HostMsg) : (s.tellHost m).mbHeld = s.mbHeld := rfl
@[simp] theorem State.tellHost_repSeq (m : HostMsg) : (s.tellHost m).repSeq = s.repSeq := rfl
@[simp] theorem State.tellHost_rowNotes (m : HostMsg) : (s.tellHost m).rowNotes = s.rowNotes := rfl
@[simp] theorem State.tellHost_rowQueue (m : HostMsg) : (s.tellHost m).rowQueue = s.rowQueue := rfl
@[simp] theorem State.tellHost_spareRows (m : HostMsg) : (s.tellHost m).spareRows = s.spareRows := rfl
@[simp] theorem State.tellHost_fencedPos (m : HostMsg) : (s.tellHost m).fencedPos = s.fencedPos := rfl
@[simp] theorem State.tellHost_gov (m : HostMsg) : (s.tellHost m).gov = s.gov := rfl
@[simp] theorem State.tellHost_ticks (m : HostMsg) : (s.tellHost m).ticks = s.ticks := rfl
@[simp] theorem State.tellHost_toLog (m : HostMsg) : (s.tellHost m).toLog = s.toLog := rfl
@[simp] theorem State.tellHost_left (m : HostMsg) : (s.tellHost m).left = s.left := rfl
@[simp] theorem State.tellHost_sendPaths (m : HostMsg) : (s.tellHost m).sendPaths = s.sendPaths := rfl
@[simp] theorem State.tellHost_cxReads (m : HostMsg) : (s.tellHost m).cxReads = s.cxReads := rfl
@[simp] theorem State.tellHost_recvPaths (m : HostMsg) : (s.tellHost m).recvPaths = s.recvPaths := rfl
@[simp] theorem State.tellHost_links (m : HostMsg) : (s.tellHost m).links = s.links := rfl
@[simp] theorem State.tellHost_badRouters (m : HostMsg) : (s.tellHost m).badRouters = s.badRouters := rfl
@[simp] theorem State.tellHost_detourDue (m : HostMsg) : (s.tellHost m).detourDue = s.detourDue := rfl
@[simp] theorem State.tellHost_unserviceable (m : HostMsg) : (s.tellHost m).unserviceable = s.unserviceable := rfl
@[simp] theorem State.tellHost_paused (m : HostMsg) : (s.tellHost m).paused = s.paused := rfl
@[simp] theorem State.tellHost_replays (m : HostMsg) : (s.tellHost m).replays = s.replays := rfl
@[simp] theorem State.tellHost_peerDown (m : HostMsg) : (s.tellHost m).peerDown = s.peerDown := rfl
@[simp] theorem State.tellHost_grantQ (m : HostMsg) : (s.tellHost m).grantQ = s.grantQ := rfl
@[simp] theorem State.tellHost_kids (m : HostMsg) : (s.tellHost m).kids = s.kids := rfl
@[simp] theorem State.tellHost_devBars (m : HostMsg) : (s.tellHost m).devBars = s.devBars := rfl
@[simp] theorem State.tellHost_pkgArrived (m : HostMsg) : (s.tellHost m).pkgArrived = s.pkgArrived := rfl
@[simp] theorem State.tellHost_dcmd (m : HostMsg) : (s.tellHost m).dcmd = s.dcmd := rfl
@[simp] theorem State.tellHost_noticesDue (m : HostMsg) : (s.tellHost m).noticesDue = s.noticesDue := rfl
@[simp] theorem State.tellHost_released (m : HostMsg) : (s.tellHost m).released = s.released := rfl
@[simp] theorem State.tellHost_portsBack (m : HostMsg) : (s.tellHost m).portsBack = s.portsBack := rfl
@[simp] theorem State.tellHost_portPeers (m : HostMsg) : (s.tellHost m).portPeers = s.portPeers := rfl
@[simp] theorem State.tellHost_predDue (m : HostMsg) : (s.tellHost m).predDue = s.predDue := rfl
@[simp] theorem State.tellHost_reshardTo (m : HostMsg) : (s.tellHost m).reshardTo = s.reshardTo := rfl
@[simp] theorem State.tellHost_hbHeard (m : HostMsg) : (s.tellHost m).hbHeard = s.hbHeard := rfl
@[simp] theorem State.tellHost_probing (m : HostMsg) : (s.tellHost m).probing = s.probing := rfl
@[simp] theorem State.tellHost_partnerIdle (m : HostMsg) : (s.tellHost m).partnerIdle = s.partnerIdle := rfl
@[simp] theorem State.tellHost_aborting (m : HostMsg) : (s.tellHost m).aborting = s.aborting := rfl
@[simp] theorem State.tellHost_taking (m : HostMsg) : (s.tellHost m).taking = s.taking := rfl
@[simp] theorem State.tellHost_pulling (m : HostMsg) : (s.tellHost m).pulling = s.pulling := rfl
@[simp] theorem State.tellHost_heads (m : HostMsg) : (s.tellHost m).heads = s.heads := rfl
@[simp] theorem State.tellHost_dataReady (m : HostMsg) : (s.tellHost m).dataReady = s.dataReady := rfl
@[simp] theorem State.tellHost_replayDue (m : HostMsg) : (s.tellHost m).replayDue = s.replayDue := rfl
@[simp] theorem State.tellHost_startWaits (m : HostMsg) : (s.tellHost m).startWaits = s.startWaits := rfl
@[simp] theorem State.tellHost_replaced (m : HostMsg) : (s.tellHost m).replaced = s.replaced := rfl
@[simp] theorem State.tellHost_hostCert (m : HostMsg) : (s.tellHost m).hostCert = s.hostCert := rfl
@[simp] theorem State.tellHost_pairAsk (m : HostMsg) : (s.tellHost m).pairAsk = s.pairAsk := rfl
@[simp] theorem State.tellHost_gotCerts (m : HostMsg) : (s.tellHost m).gotCerts = s.gotCerts := rfl
@[simp] theorem State.tellHost_image (m : HostMsg) : (s.tellHost m).image = s.image := rfl
@[simp] theorem State.tellHost_blocks (m : HostMsg) : (s.tellHost m).blocks = s.blocks := rfl
@[simp] theorem State.tellHost_mcs (m : HostMsg) : (s.tellHost m).mcs = s.mcs := rfl
@[simp] theorem State.tellHost_utcPs (m : HostMsg) : (s.tellHost m).utcPs = s.utcPs := rfl
@[simp] theorem State.tellHost_hostGone (m : HostMsg) : (s.tellHost m).hostGone = s.hostGone := rfl
@[simp] theorem State.tellHost_stepHold (m : HostMsg) : (s.tellHost m).stepHold = s.stepHold := rfl
@[simp] theorem State.tellHost_ghUp (m : HostMsg) : (s.tellHost m).ghUp = s.ghUp := rfl
@[simp] theorem State.tellHost_ghFailed (m : HostMsg) : (s.tellHost m).ghFailed = s.ghFailed := rfl
@[simp] theorem State.tellHost_mram (m : HostMsg) : (s.tellHost m).mram = s.mram := rfl
@[simp] theorem State.tellHost_lodge (m : HostMsg) : (s.tellHost m).lodge = s.lodge := rfl
@[simp] theorem State.tellHost_tap (m : HostMsg) : (s.tellHost m).tap = s.tap := rfl
@[simp] theorem State.tellHost_fresh (m : HostMsg) : (s.tellHost m).fresh = s.fresh := rfl
@[simp] theorem State.tellHost_pending (m : HostMsg) : (s.tellHost m).pending = s.pending := rfl
@[simp] theorem State.tellHost_toHost (m : HostMsg) : (s.tellHost m).toHost = s.toHost ++ [m] := rfl
@[simp] theorem State.tellHost_chp_control (m : HostMsg) : (s.tellHost m).chp.control = s.chp.control := rfl
@[simp] theorem State.tellHost_chp_halves (m : HostMsg) : (s.tellHost m).chp.halves = s.chp.halves := rfl
@[simp] theorem State.tellHost_chp_queue (m : HostMsg) : (s.tellHost m).chp.queue = s.chp.queue := rfl
@[simp] theorem State.tellHost_chp_streams (m : HostMsg) : (s.tellHost m).chp.streams = s.chp.streams := rfl
@[simp] theorem State.tellHost_chp_checkpoint (m : HostMsg) : (s.tellHost m).chp.checkpoint = s.chp.checkpoint := rfl
@[simp] theorem State.tellHost_chp_nextSid (m : HostMsg) : (s.tellHost m).chp.nextSid = s.chp.nextSid := rfl

/-! ### `setMc` -/

@[simp] theorem State.setMc_grade (k : Nat) (m : Mc) : (s.setMc k m).grade = s.grade := rfl
@[simp] theorem State.setMc_regs (k : Nat) (m : Mc) : (s.setMc k m).regs = s.regs := rfl
@[simp] theorem State.setMc_mem (k : Nat) (m : Mc) : (s.setMc k m).mem = s.mem := rfl
@[simp] theorem State.setMc_bind (k : Nat) (m : Mc) : (s.setMc k m).bind = s.bind := rfl
@[simp] theorem State.setMc_tiles (k : Nat) (m : Mc) : (s.setMc k m).tiles = s.tiles := rfl
@[simp] theorem State.setMc_parked (k : Nat) (m : Mc) : (s.setMc k m).parked = s.parked := rfl
@[simp] theorem State.setMc_wires (k : Nat) (m : Mc) : (s.setMc k m).wires = s.wires := rfl
@[simp] theorem State.setMc_cqHeld (k : Nat) (m : Mc) : (s.setMc k m).cqHeld = s.cqHeld := rfl
@[simp] theorem State.setMc_mbHeld (k : Nat) (m : Mc) : (s.setMc k m).mbHeld = s.mbHeld := rfl
@[simp] theorem State.setMc_repSeq (k : Nat) (m : Mc) : (s.setMc k m).repSeq = s.repSeq := rfl
@[simp] theorem State.setMc_rowNotes (k : Nat) (m : Mc) : (s.setMc k m).rowNotes = s.rowNotes := rfl
@[simp] theorem State.setMc_rowQueue (k : Nat) (m : Mc) : (s.setMc k m).rowQueue = s.rowQueue := rfl
@[simp] theorem State.setMc_spareRows (k : Nat) (m : Mc) : (s.setMc k m).spareRows = s.spareRows := rfl
@[simp] theorem State.setMc_fencedPos (k : Nat) (m : Mc) : (s.setMc k m).fencedPos = s.fencedPos := rfl
@[simp] theorem State.setMc_gov (k : Nat) (m : Mc) : (s.setMc k m).gov = s.gov := rfl
@[simp] theorem State.setMc_ticks (k : Nat) (m : Mc) : (s.setMc k m).ticks = s.ticks := rfl
@[simp] theorem State.setMc_toLog (k : Nat) (m : Mc) : (s.setMc k m).toLog = s.toLog := rfl
@[simp] theorem State.setMc_left (k : Nat) (m : Mc) : (s.setMc k m).left = s.left := rfl
@[simp] theorem State.setMc_sendPaths (k : Nat) (m : Mc) : (s.setMc k m).sendPaths = s.sendPaths := rfl
@[simp] theorem State.setMc_cxReads (k : Nat) (m : Mc) : (s.setMc k m).cxReads = s.cxReads := rfl
@[simp] theorem State.setMc_recvPaths (k : Nat) (m : Mc) : (s.setMc k m).recvPaths = s.recvPaths := rfl
@[simp] theorem State.setMc_links (k : Nat) (m : Mc) : (s.setMc k m).links = s.links := rfl
@[simp] theorem State.setMc_badRouters (k : Nat) (m : Mc) : (s.setMc k m).badRouters = s.badRouters := rfl
@[simp] theorem State.setMc_detourDue (k : Nat) (m : Mc) : (s.setMc k m).detourDue = s.detourDue := rfl
@[simp] theorem State.setMc_unserviceable (k : Nat) (m : Mc) : (s.setMc k m).unserviceable = s.unserviceable := rfl
@[simp] theorem State.setMc_toHost (k : Nat) (m : Mc) : (s.setMc k m).toHost = s.toHost := rfl
@[simp] theorem State.setMc_paused (k : Nat) (m : Mc) : (s.setMc k m).paused = s.paused := rfl
@[simp] theorem State.setMc_replays (k : Nat) (m : Mc) : (s.setMc k m).replays = s.replays := rfl
@[simp] theorem State.setMc_peerDown (k : Nat) (m : Mc) : (s.setMc k m).peerDown = s.peerDown := rfl
@[simp] theorem State.setMc_grantQ (k : Nat) (m : Mc) : (s.setMc k m).grantQ = s.grantQ := rfl
@[simp] theorem State.setMc_kids (k : Nat) (m : Mc) : (s.setMc k m).kids = s.kids := rfl
@[simp] theorem State.setMc_devBars (k : Nat) (m : Mc) : (s.setMc k m).devBars = s.devBars := rfl
@[simp] theorem State.setMc_pkgArrived (k : Nat) (m : Mc) : (s.setMc k m).pkgArrived = s.pkgArrived := rfl
@[simp] theorem State.setMc_dcmd (k : Nat) (m : Mc) : (s.setMc k m).dcmd = s.dcmd := rfl
@[simp] theorem State.setMc_noticesDue (k : Nat) (m : Mc) : (s.setMc k m).noticesDue = s.noticesDue := rfl
@[simp] theorem State.setMc_released (k : Nat) (m : Mc) : (s.setMc k m).released = s.released := rfl
@[simp] theorem State.setMc_portsBack (k : Nat) (m : Mc) : (s.setMc k m).portsBack = s.portsBack := rfl
@[simp] theorem State.setMc_portPeers (k : Nat) (m : Mc) : (s.setMc k m).portPeers = s.portPeers := rfl
@[simp] theorem State.setMc_predDue (k : Nat) (m : Mc) : (s.setMc k m).predDue = s.predDue := rfl
@[simp] theorem State.setMc_reshardTo (k : Nat) (m : Mc) : (s.setMc k m).reshardTo = s.reshardTo := rfl
@[simp] theorem State.setMc_hbHeard (k : Nat) (m : Mc) : (s.setMc k m).hbHeard = s.hbHeard := rfl
@[simp] theorem State.setMc_probing (k : Nat) (m : Mc) : (s.setMc k m).probing = s.probing := rfl
@[simp] theorem State.setMc_partnerIdle (k : Nat) (m : Mc) : (s.setMc k m).partnerIdle = s.partnerIdle := rfl
@[simp] theorem State.setMc_aborting (k : Nat) (m : Mc) : (s.setMc k m).aborting = s.aborting := rfl
@[simp] theorem State.setMc_taking (k : Nat) (m : Mc) : (s.setMc k m).taking = s.taking := rfl
@[simp] theorem State.setMc_pulling (k : Nat) (m : Mc) : (s.setMc k m).pulling = s.pulling := rfl
@[simp] theorem State.setMc_heads (k : Nat) (m : Mc) : (s.setMc k m).heads = s.heads := rfl
@[simp] theorem State.setMc_dataReady (k : Nat) (m : Mc) : (s.setMc k m).dataReady = s.dataReady := rfl
@[simp] theorem State.setMc_replayDue (k : Nat) (m : Mc) : (s.setMc k m).replayDue = s.replayDue := rfl
@[simp] theorem State.setMc_startWaits (k : Nat) (m : Mc) : (s.setMc k m).startWaits = s.startWaits := rfl
@[simp] theorem State.setMc_replaced (k : Nat) (m : Mc) : (s.setMc k m).replaced = s.replaced := rfl
@[simp] theorem State.setMc_hostCert (k : Nat) (m : Mc) : (s.setMc k m).hostCert = s.hostCert := rfl
@[simp] theorem State.setMc_pairAsk (k : Nat) (m : Mc) : (s.setMc k m).pairAsk = s.pairAsk := rfl
@[simp] theorem State.setMc_gotCerts (k : Nat) (m : Mc) : (s.setMc k m).gotCerts = s.gotCerts := rfl
@[simp] theorem State.setMc_image (k : Nat) (m : Mc) : (s.setMc k m).image = s.image := rfl
@[simp] theorem State.setMc_blocks (k : Nat) (m : Mc) : (s.setMc k m).blocks = s.blocks := rfl
@[simp] theorem State.setMc_utcPs (k : Nat) (m : Mc) : (s.setMc k m).utcPs = s.utcPs := rfl
@[simp] theorem State.setMc_hostGone (k : Nat) (m : Mc) : (s.setMc k m).hostGone = s.hostGone := rfl
@[simp] theorem State.setMc_stepHold (k : Nat) (m : Mc) : (s.setMc k m).stepHold = s.stepHold := rfl
@[simp] theorem State.setMc_ghUp (k : Nat) (m : Mc) : (s.setMc k m).ghUp = s.ghUp := rfl
@[simp] theorem State.setMc_ghFailed (k : Nat) (m : Mc) : (s.setMc k m).ghFailed = s.ghFailed := rfl
@[simp] theorem State.setMc_mram (k : Nat) (m : Mc) : (s.setMc k m).mram = s.mram := rfl
@[simp] theorem State.setMc_lodge (k : Nat) (m : Mc) : (s.setMc k m).lodge = s.lodge := rfl
@[simp] theorem State.setMc_chp (k : Nat) (m : Mc) : (s.setMc k m).chp = s.chp := rfl
@[simp] theorem State.setMc_tap (k : Nat) (m : Mc) : (s.setMc k m).tap = s.tap := rfl
@[simp] theorem State.setMc_fresh (k : Nat) (m : Mc) : (s.setMc k m).fresh = s.fresh := rfl
@[simp] theorem State.setMc_pending (k : Nat) (m : Mc) : (s.setMc k m).pending = s.pending := rfl

/-! ### `modLodge` -/

@[simp] theorem State.modLodge_grade (f : Lodge → Lodge) : (s.modLodge f).grade = s.grade := rfl
@[simp] theorem State.modLodge_regs (f : Lodge → Lodge) : (s.modLodge f).regs = s.regs := rfl
@[simp] theorem State.modLodge_mem (f : Lodge → Lodge) : (s.modLodge f).mem = s.mem := rfl
@[simp] theorem State.modLodge_bind (f : Lodge → Lodge) : (s.modLodge f).bind = s.bind := rfl
@[simp] theorem State.modLodge_tiles (f : Lodge → Lodge) : (s.modLodge f).tiles = s.tiles := rfl
@[simp] theorem State.modLodge_parked (f : Lodge → Lodge) : (s.modLodge f).parked = s.parked := rfl
@[simp] theorem State.modLodge_wires (f : Lodge → Lodge) : (s.modLodge f).wires = s.wires := rfl
@[simp] theorem State.modLodge_cqHeld (f : Lodge → Lodge) : (s.modLodge f).cqHeld = s.cqHeld := rfl
@[simp] theorem State.modLodge_mbHeld (f : Lodge → Lodge) : (s.modLodge f).mbHeld = s.mbHeld := rfl
@[simp] theorem State.modLodge_repSeq (f : Lodge → Lodge) : (s.modLodge f).repSeq = s.repSeq := rfl
@[simp] theorem State.modLodge_rowNotes (f : Lodge → Lodge) : (s.modLodge f).rowNotes = s.rowNotes := rfl
@[simp] theorem State.modLodge_rowQueue (f : Lodge → Lodge) : (s.modLodge f).rowQueue = s.rowQueue := rfl
@[simp] theorem State.modLodge_spareRows (f : Lodge → Lodge) : (s.modLodge f).spareRows = s.spareRows := rfl
@[simp] theorem State.modLodge_fencedPos (f : Lodge → Lodge) : (s.modLodge f).fencedPos = s.fencedPos := rfl
@[simp] theorem State.modLodge_gov (f : Lodge → Lodge) : (s.modLodge f).gov = s.gov := rfl
@[simp] theorem State.modLodge_ticks (f : Lodge → Lodge) : (s.modLodge f).ticks = s.ticks := rfl
@[simp] theorem State.modLodge_toLog (f : Lodge → Lodge) : (s.modLodge f).toLog = s.toLog := rfl
@[simp] theorem State.modLodge_left (f : Lodge → Lodge) : (s.modLodge f).left = s.left := rfl
@[simp] theorem State.modLodge_sendPaths (f : Lodge → Lodge) : (s.modLodge f).sendPaths = s.sendPaths := rfl
@[simp] theorem State.modLodge_cxReads (f : Lodge → Lodge) : (s.modLodge f).cxReads = s.cxReads := rfl
@[simp] theorem State.modLodge_recvPaths (f : Lodge → Lodge) : (s.modLodge f).recvPaths = s.recvPaths := rfl
@[simp] theorem State.modLodge_links (f : Lodge → Lodge) : (s.modLodge f).links = s.links := rfl
@[simp] theorem State.modLodge_badRouters (f : Lodge → Lodge) : (s.modLodge f).badRouters = s.badRouters := rfl
@[simp] theorem State.modLodge_detourDue (f : Lodge → Lodge) : (s.modLodge f).detourDue = s.detourDue := rfl
@[simp] theorem State.modLodge_unserviceable (f : Lodge → Lodge) : (s.modLodge f).unserviceable = s.unserviceable := rfl
@[simp] theorem State.modLodge_toHost (f : Lodge → Lodge) : (s.modLodge f).toHost = s.toHost := rfl
@[simp] theorem State.modLodge_paused (f : Lodge → Lodge) : (s.modLodge f).paused = s.paused := rfl
@[simp] theorem State.modLodge_replays (f : Lodge → Lodge) : (s.modLodge f).replays = s.replays := rfl
@[simp] theorem State.modLodge_peerDown (f : Lodge → Lodge) : (s.modLodge f).peerDown = s.peerDown := rfl
@[simp] theorem State.modLodge_grantQ (f : Lodge → Lodge) : (s.modLodge f).grantQ = s.grantQ := rfl
@[simp] theorem State.modLodge_kids (f : Lodge → Lodge) : (s.modLodge f).kids = s.kids := rfl
@[simp] theorem State.modLodge_devBars (f : Lodge → Lodge) : (s.modLodge f).devBars = s.devBars := rfl
@[simp] theorem State.modLodge_pkgArrived (f : Lodge → Lodge) : (s.modLodge f).pkgArrived = s.pkgArrived := rfl
@[simp] theorem State.modLodge_dcmd (f : Lodge → Lodge) : (s.modLodge f).dcmd = s.dcmd := rfl
@[simp] theorem State.modLodge_noticesDue (f : Lodge → Lodge) : (s.modLodge f).noticesDue = s.noticesDue := rfl
@[simp] theorem State.modLodge_released (f : Lodge → Lodge) : (s.modLodge f).released = s.released := rfl
@[simp] theorem State.modLodge_portsBack (f : Lodge → Lodge) : (s.modLodge f).portsBack = s.portsBack := rfl
@[simp] theorem State.modLodge_portPeers (f : Lodge → Lodge) : (s.modLodge f).portPeers = s.portPeers := rfl
@[simp] theorem State.modLodge_predDue (f : Lodge → Lodge) : (s.modLodge f).predDue = s.predDue := rfl
@[simp] theorem State.modLodge_reshardTo (f : Lodge → Lodge) : (s.modLodge f).reshardTo = s.reshardTo := rfl
@[simp] theorem State.modLodge_hbHeard (f : Lodge → Lodge) : (s.modLodge f).hbHeard = s.hbHeard := rfl
@[simp] theorem State.modLodge_probing (f : Lodge → Lodge) : (s.modLodge f).probing = s.probing := rfl
@[simp] theorem State.modLodge_partnerIdle (f : Lodge → Lodge) : (s.modLodge f).partnerIdle = s.partnerIdle := rfl
@[simp] theorem State.modLodge_aborting (f : Lodge → Lodge) : (s.modLodge f).aborting = s.aborting := rfl
@[simp] theorem State.modLodge_taking (f : Lodge → Lodge) : (s.modLodge f).taking = s.taking := rfl
@[simp] theorem State.modLodge_pulling (f : Lodge → Lodge) : (s.modLodge f).pulling = s.pulling := rfl
@[simp] theorem State.modLodge_heads (f : Lodge → Lodge) : (s.modLodge f).heads = s.heads := rfl
@[simp] theorem State.modLodge_dataReady (f : Lodge → Lodge) : (s.modLodge f).dataReady = s.dataReady := rfl
@[simp] theorem State.modLodge_replayDue (f : Lodge → Lodge) : (s.modLodge f).replayDue = s.replayDue := rfl
@[simp] theorem State.modLodge_startWaits (f : Lodge → Lodge) : (s.modLodge f).startWaits = s.startWaits := rfl
@[simp] theorem State.modLodge_replaced (f : Lodge → Lodge) : (s.modLodge f).replaced = s.replaced := rfl
@[simp] theorem State.modLodge_hostCert (f : Lodge → Lodge) : (s.modLodge f).hostCert = s.hostCert := rfl
@[simp] theorem State.modLodge_pairAsk (f : Lodge → Lodge) : (s.modLodge f).pairAsk = s.pairAsk := rfl
@[simp] theorem State.modLodge_gotCerts (f : Lodge → Lodge) : (s.modLodge f).gotCerts = s.gotCerts := rfl
@[simp] theorem State.modLodge_image (f : Lodge → Lodge) : (s.modLodge f).image = s.image := rfl
@[simp] theorem State.modLodge_blocks (f : Lodge → Lodge) : (s.modLodge f).blocks = s.blocks := rfl
@[simp] theorem State.modLodge_mcs (f : Lodge → Lodge) : (s.modLodge f).mcs = s.mcs := rfl
@[simp] theorem State.modLodge_utcPs (f : Lodge → Lodge) : (s.modLodge f).utcPs = s.utcPs := rfl
@[simp] theorem State.modLodge_hostGone (f : Lodge → Lodge) : (s.modLodge f).hostGone = s.hostGone := rfl
@[simp] theorem State.modLodge_stepHold (f : Lodge → Lodge) : (s.modLodge f).stepHold = s.stepHold := rfl
@[simp] theorem State.modLodge_ghUp (f : Lodge → Lodge) : (s.modLodge f).ghUp = s.ghUp := rfl
@[simp] theorem State.modLodge_ghFailed (f : Lodge → Lodge) : (s.modLodge f).ghFailed = s.ghFailed := rfl
@[simp] theorem State.modLodge_mram (f : Lodge → Lodge) : (s.modLodge f).mram = s.mram := rfl
@[simp] theorem State.modLodge_chp (f : Lodge → Lodge) : (s.modLodge f).chp = s.chp := rfl
@[simp] theorem State.modLodge_tap (f : Lodge → Lodge) : (s.modLodge f).tap = s.tap := rfl
@[simp] theorem State.modLodge_fresh (f : Lodge → Lodge) : (s.modLodge f).fresh = s.fresh := rfl
@[simp] theorem State.modLodge_pending (f : Lodge → Lodge) : (s.modLodge f).pending = s.pending := rfl

/-! ### `modMram` -/

@[simp] theorem State.modMram_grade (f : Mram → Mram) : (s.modMram f).grade = s.grade := rfl
@[simp] theorem State.modMram_regs (f : Mram → Mram) : (s.modMram f).regs = s.regs := rfl
@[simp] theorem State.modMram_mem (f : Mram → Mram) : (s.modMram f).mem = s.mem := rfl
@[simp] theorem State.modMram_bind (f : Mram → Mram) : (s.modMram f).bind = s.bind := rfl
@[simp] theorem State.modMram_tiles (f : Mram → Mram) : (s.modMram f).tiles = s.tiles := rfl
@[simp] theorem State.modMram_parked (f : Mram → Mram) : (s.modMram f).parked = s.parked := rfl
@[simp] theorem State.modMram_wires (f : Mram → Mram) : (s.modMram f).wires = s.wires := rfl
@[simp] theorem State.modMram_cqHeld (f : Mram → Mram) : (s.modMram f).cqHeld = s.cqHeld := rfl
@[simp] theorem State.modMram_mbHeld (f : Mram → Mram) : (s.modMram f).mbHeld = s.mbHeld := rfl
@[simp] theorem State.modMram_repSeq (f : Mram → Mram) : (s.modMram f).repSeq = s.repSeq := rfl
@[simp] theorem State.modMram_rowNotes (f : Mram → Mram) : (s.modMram f).rowNotes = s.rowNotes := rfl
@[simp] theorem State.modMram_rowQueue (f : Mram → Mram) : (s.modMram f).rowQueue = s.rowQueue := rfl
@[simp] theorem State.modMram_spareRows (f : Mram → Mram) : (s.modMram f).spareRows = s.spareRows := rfl
@[simp] theorem State.modMram_fencedPos (f : Mram → Mram) : (s.modMram f).fencedPos = s.fencedPos := rfl
@[simp] theorem State.modMram_gov (f : Mram → Mram) : (s.modMram f).gov = s.gov := rfl
@[simp] theorem State.modMram_ticks (f : Mram → Mram) : (s.modMram f).ticks = s.ticks := rfl
@[simp] theorem State.modMram_toLog (f : Mram → Mram) : (s.modMram f).toLog = s.toLog := rfl
@[simp] theorem State.modMram_left (f : Mram → Mram) : (s.modMram f).left = s.left := rfl
@[simp] theorem State.modMram_sendPaths (f : Mram → Mram) : (s.modMram f).sendPaths = s.sendPaths := rfl
@[simp] theorem State.modMram_cxReads (f : Mram → Mram) : (s.modMram f).cxReads = s.cxReads := rfl
@[simp] theorem State.modMram_recvPaths (f : Mram → Mram) : (s.modMram f).recvPaths = s.recvPaths := rfl
@[simp] theorem State.modMram_links (f : Mram → Mram) : (s.modMram f).links = s.links := rfl
@[simp] theorem State.modMram_badRouters (f : Mram → Mram) : (s.modMram f).badRouters = s.badRouters := rfl
@[simp] theorem State.modMram_detourDue (f : Mram → Mram) : (s.modMram f).detourDue = s.detourDue := rfl
@[simp] theorem State.modMram_unserviceable (f : Mram → Mram) : (s.modMram f).unserviceable = s.unserviceable := rfl
@[simp] theorem State.modMram_toHost (f : Mram → Mram) : (s.modMram f).toHost = s.toHost := rfl
@[simp] theorem State.modMram_paused (f : Mram → Mram) : (s.modMram f).paused = s.paused := rfl
@[simp] theorem State.modMram_replays (f : Mram → Mram) : (s.modMram f).replays = s.replays := rfl
@[simp] theorem State.modMram_peerDown (f : Mram → Mram) : (s.modMram f).peerDown = s.peerDown := rfl
@[simp] theorem State.modMram_grantQ (f : Mram → Mram) : (s.modMram f).grantQ = s.grantQ := rfl
@[simp] theorem State.modMram_kids (f : Mram → Mram) : (s.modMram f).kids = s.kids := rfl
@[simp] theorem State.modMram_devBars (f : Mram → Mram) : (s.modMram f).devBars = s.devBars := rfl
@[simp] theorem State.modMram_pkgArrived (f : Mram → Mram) : (s.modMram f).pkgArrived = s.pkgArrived := rfl
@[simp] theorem State.modMram_dcmd (f : Mram → Mram) : (s.modMram f).dcmd = s.dcmd := rfl
@[simp] theorem State.modMram_noticesDue (f : Mram → Mram) : (s.modMram f).noticesDue = s.noticesDue := rfl
@[simp] theorem State.modMram_released (f : Mram → Mram) : (s.modMram f).released = s.released := rfl
@[simp] theorem State.modMram_portsBack (f : Mram → Mram) : (s.modMram f).portsBack = s.portsBack := rfl
@[simp] theorem State.modMram_portPeers (f : Mram → Mram) : (s.modMram f).portPeers = s.portPeers := rfl
@[simp] theorem State.modMram_predDue (f : Mram → Mram) : (s.modMram f).predDue = s.predDue := rfl
@[simp] theorem State.modMram_reshardTo (f : Mram → Mram) : (s.modMram f).reshardTo = s.reshardTo := rfl
@[simp] theorem State.modMram_hbHeard (f : Mram → Mram) : (s.modMram f).hbHeard = s.hbHeard := rfl
@[simp] theorem State.modMram_probing (f : Mram → Mram) : (s.modMram f).probing = s.probing := rfl
@[simp] theorem State.modMram_partnerIdle (f : Mram → Mram) : (s.modMram f).partnerIdle = s.partnerIdle := rfl
@[simp] theorem State.modMram_aborting (f : Mram → Mram) : (s.modMram f).aborting = s.aborting := rfl
@[simp] theorem State.modMram_taking (f : Mram → Mram) : (s.modMram f).taking = s.taking := rfl
@[simp] theorem State.modMram_pulling (f : Mram → Mram) : (s.modMram f).pulling = s.pulling := rfl
@[simp] theorem State.modMram_heads (f : Mram → Mram) : (s.modMram f).heads = s.heads := rfl
@[simp] theorem State.modMram_dataReady (f : Mram → Mram) : (s.modMram f).dataReady = s.dataReady := rfl
@[simp] theorem State.modMram_replayDue (f : Mram → Mram) : (s.modMram f).replayDue = s.replayDue := rfl
@[simp] theorem State.modMram_startWaits (f : Mram → Mram) : (s.modMram f).startWaits = s.startWaits := rfl
@[simp] theorem State.modMram_replaced (f : Mram → Mram) : (s.modMram f).replaced = s.replaced := rfl
@[simp] theorem State.modMram_hostCert (f : Mram → Mram) : (s.modMram f).hostCert = s.hostCert := rfl
@[simp] theorem State.modMram_pairAsk (f : Mram → Mram) : (s.modMram f).pairAsk = s.pairAsk := rfl
@[simp] theorem State.modMram_gotCerts (f : Mram → Mram) : (s.modMram f).gotCerts = s.gotCerts := rfl
@[simp] theorem State.modMram_image (f : Mram → Mram) : (s.modMram f).image = s.image := rfl
@[simp] theorem State.modMram_blocks (f : Mram → Mram) : (s.modMram f).blocks = s.blocks := rfl
@[simp] theorem State.modMram_mcs (f : Mram → Mram) : (s.modMram f).mcs = s.mcs := rfl
@[simp] theorem State.modMram_utcPs (f : Mram → Mram) : (s.modMram f).utcPs = s.utcPs := rfl
@[simp] theorem State.modMram_hostGone (f : Mram → Mram) : (s.modMram f).hostGone = s.hostGone := rfl
@[simp] theorem State.modMram_stepHold (f : Mram → Mram) : (s.modMram f).stepHold = s.stepHold := rfl
@[simp] theorem State.modMram_ghUp (f : Mram → Mram) : (s.modMram f).ghUp = s.ghUp := rfl
@[simp] theorem State.modMram_ghFailed (f : Mram → Mram) : (s.modMram f).ghFailed = s.ghFailed := rfl
@[simp] theorem State.modMram_lodge (f : Mram → Mram) : (s.modMram f).lodge = s.lodge := rfl
@[simp] theorem State.modMram_chp (f : Mram → Mram) : (s.modMram f).chp = s.chp := rfl
@[simp] theorem State.modMram_tap (f : Mram → Mram) : (s.modMram f).tap = s.tap := rfl
@[simp] theorem State.modMram_fresh (f : Mram → Mram) : (s.modMram f).fresh = s.fresh := rfl
@[simp] theorem State.modMram_pending (f : Mram → Mram) : (s.modMram f).pending = s.pending := rfl

/-! ### `post` -/

@[simp] theorem State.post_grade (w : Wire) : (s.post w).grade = s.grade := by unfold State.post; split <;> rfl
@[simp] theorem State.post_regs (w : Wire) : (s.post w).regs = s.regs := by unfold State.post; split <;> rfl
@[simp] theorem State.post_mem (w : Wire) : (s.post w).mem = s.mem := by unfold State.post; split <;> rfl
@[simp] theorem State.post_bind (w : Wire) : (s.post w).bind = s.bind := by unfold State.post; split <;> rfl
@[simp] theorem State.post_tiles (w : Wire) : (s.post w).tiles = s.tiles := by unfold State.post; split <;> rfl
@[simp] theorem State.post_parked (w : Wire) : (s.post w).parked = s.parked := by unfold State.post; split <;> rfl
@[simp] theorem State.post_cqHeld (w : Wire) : (s.post w).cqHeld = s.cqHeld := by unfold State.post; split <;> rfl
@[simp] theorem State.post_mbHeld (w : Wire) : (s.post w).mbHeld = s.mbHeld := by unfold State.post; split <;> rfl
@[simp] theorem State.post_repSeq (w : Wire) : (s.post w).repSeq = s.repSeq := by unfold State.post; split <;> rfl
@[simp] theorem State.post_rowNotes (w : Wire) : (s.post w).rowNotes = s.rowNotes := by unfold State.post; split <;> rfl
@[simp] theorem State.post_rowQueue (w : Wire) : (s.post w).rowQueue = s.rowQueue := by unfold State.post; split <;> rfl
@[simp] theorem State.post_spareRows (w : Wire) : (s.post w).spareRows = s.spareRows := by unfold State.post; split <;> rfl
@[simp] theorem State.post_fencedPos (w : Wire) : (s.post w).fencedPos = s.fencedPos := by unfold State.post; split <;> rfl
@[simp] theorem State.post_gov (w : Wire) : (s.post w).gov = s.gov := by unfold State.post; split <;> rfl
@[simp] theorem State.post_ticks (w : Wire) : (s.post w).ticks = s.ticks := by unfold State.post; split <;> rfl
@[simp] theorem State.post_toLog (w : Wire) : (s.post w).toLog = s.toLog := by unfold State.post; split <;> rfl
@[simp] theorem State.post_left (w : Wire) : (s.post w).left = s.left := by unfold State.post; split <;> rfl
@[simp] theorem State.post_sendPaths (w : Wire) : (s.post w).sendPaths = s.sendPaths := by unfold State.post; split <;> rfl
@[simp] theorem State.post_cxReads (w : Wire) : (s.post w).cxReads = s.cxReads := by unfold State.post; split <;> rfl
@[simp] theorem State.post_recvPaths (w : Wire) : (s.post w).recvPaths = s.recvPaths := by unfold State.post; split <;> rfl
@[simp] theorem State.post_links (w : Wire) : (s.post w).links = s.links := by unfold State.post; split <;> rfl
@[simp] theorem State.post_badRouters (w : Wire) : (s.post w).badRouters = s.badRouters := by unfold State.post; split <;> rfl
@[simp] theorem State.post_detourDue (w : Wire) : (s.post w).detourDue = s.detourDue := by unfold State.post; split <;> rfl
@[simp] theorem State.post_unserviceable (w : Wire) : (s.post w).unserviceable = s.unserviceable := by unfold State.post; split <;> rfl
@[simp] theorem State.post_toHost (w : Wire) : (s.post w).toHost = s.toHost := by unfold State.post; split <;> rfl
@[simp] theorem State.post_paused (w : Wire) : (s.post w).paused = s.paused := by unfold State.post; split <;> rfl
@[simp] theorem State.post_replays (w : Wire) : (s.post w).replays = s.replays := by unfold State.post; split <;> rfl
@[simp] theorem State.post_peerDown (w : Wire) : (s.post w).peerDown = s.peerDown := by unfold State.post; split <;> rfl
@[simp] theorem State.post_grantQ (w : Wire) : (s.post w).grantQ = s.grantQ := by unfold State.post; split <;> rfl
@[simp] theorem State.post_kids (w : Wire) : (s.post w).kids = s.kids := by unfold State.post; split <;> rfl
@[simp] theorem State.post_devBars (w : Wire) : (s.post w).devBars = s.devBars := by unfold State.post; split <;> rfl
@[simp] theorem State.post_pkgArrived (w : Wire) : (s.post w).pkgArrived = s.pkgArrived := by unfold State.post; split <;> rfl
@[simp] theorem State.post_dcmd (w : Wire) : (s.post w).dcmd = s.dcmd := by unfold State.post; split <;> rfl
@[simp] theorem State.post_noticesDue (w : Wire) : (s.post w).noticesDue = s.noticesDue := by unfold State.post; split <;> rfl
@[simp] theorem State.post_released (w : Wire) : (s.post w).released = s.released := by unfold State.post; split <;> rfl
@[simp] theorem State.post_portsBack (w : Wire) : (s.post w).portsBack = s.portsBack := by unfold State.post; split <;> rfl
@[simp] theorem State.post_portPeers (w : Wire) : (s.post w).portPeers = s.portPeers := by unfold State.post; split <;> rfl
@[simp] theorem State.post_predDue (w : Wire) : (s.post w).predDue = s.predDue := by unfold State.post; split <;> rfl
@[simp] theorem State.post_reshardTo (w : Wire) : (s.post w).reshardTo = s.reshardTo := by unfold State.post; split <;> rfl
@[simp] theorem State.post_hbHeard (w : Wire) : (s.post w).hbHeard = s.hbHeard := by unfold State.post; split <;> rfl
@[simp] theorem State.post_probing (w : Wire) : (s.post w).probing = s.probing := by unfold State.post; split <;> rfl
@[simp] theorem State.post_partnerIdle (w : Wire) : (s.post w).partnerIdle = s.partnerIdle := by unfold State.post; split <;> rfl
@[simp] theorem State.post_aborting (w : Wire) : (s.post w).aborting = s.aborting := by unfold State.post; split <;> rfl
@[simp] theorem State.post_taking (w : Wire) : (s.post w).taking = s.taking := by unfold State.post; split <;> rfl
@[simp] theorem State.post_pulling (w : Wire) : (s.post w).pulling = s.pulling := by unfold State.post; split <;> rfl
@[simp] theorem State.post_heads (w : Wire) : (s.post w).heads = s.heads := by unfold State.post; split <;> rfl
@[simp] theorem State.post_dataReady (w : Wire) : (s.post w).dataReady = s.dataReady := by unfold State.post; split <;> rfl
@[simp] theorem State.post_replayDue (w : Wire) : (s.post w).replayDue = s.replayDue := by unfold State.post; split <;> rfl
@[simp] theorem State.post_startWaits (w : Wire) : (s.post w).startWaits = s.startWaits := by unfold State.post; split <;> rfl
@[simp] theorem State.post_replaced (w : Wire) : (s.post w).replaced = s.replaced := by unfold State.post; split <;> rfl
@[simp] theorem State.post_hostCert (w : Wire) : (s.post w).hostCert = s.hostCert := by unfold State.post; split <;> rfl
@[simp] theorem State.post_pairAsk (w : Wire) : (s.post w).pairAsk = s.pairAsk := by unfold State.post; split <;> rfl
@[simp] theorem State.post_gotCerts (w : Wire) : (s.post w).gotCerts = s.gotCerts := by unfold State.post; split <;> rfl
@[simp] theorem State.post_image (w : Wire) : (s.post w).image = s.image := by unfold State.post; split <;> rfl
@[simp] theorem State.post_blocks (w : Wire) : (s.post w).blocks = s.blocks := by unfold State.post; split <;> rfl
@[simp] theorem State.post_mcs (w : Wire) : (s.post w).mcs = s.mcs := by unfold State.post; split <;> rfl
@[simp] theorem State.post_utcPs (w : Wire) : (s.post w).utcPs = s.utcPs := by unfold State.post; split <;> rfl
@[simp] theorem State.post_hostGone (w : Wire) : (s.post w).hostGone = s.hostGone := by unfold State.post; split <;> rfl
@[simp] theorem State.post_stepHold (w : Wire) : (s.post w).stepHold = s.stepHold := by unfold State.post; split <;> rfl
@[simp] theorem State.post_ghUp (w : Wire) : (s.post w).ghUp = s.ghUp := by unfold State.post; split <;> rfl
@[simp] theorem State.post_ghFailed (w : Wire) : (s.post w).ghFailed = s.ghFailed := by unfold State.post; split <;> rfl
@[simp] theorem State.post_mram (w : Wire) : (s.post w).mram = s.mram := by unfold State.post; split <;> rfl
@[simp] theorem State.post_lodge (w : Wire) : (s.post w).lodge = s.lodge := by unfold State.post; split <;> rfl
@[simp] theorem State.post_chp (w : Wire) : (s.post w).chp = s.chp := by unfold State.post; split <;> rfl
@[simp] theorem State.post_tap (w : Wire) : (s.post w).tap = s.tap := by unfold State.post; split <;> rfl
@[simp] theorem State.post_fresh (w : Wire) : (s.post w).fresh = s.fresh := by unfold State.post; split <;> rfl
@[simp] theorem State.post_pending (w : Wire) : (s.post w).pending = s.pending := by unfold State.post; split <;> rfl

/-! ### `unpacket` -/

@[simp] theorem State.unpacket_grade (die row col : Nat) (p : Packet) : (s.unpacket die row col p).grade = s.grade := rfl
@[simp] theorem State.unpacket_regs (die row col : Nat) (p : Packet) : (s.unpacket die row col p).regs = s.regs := rfl
@[simp] theorem State.unpacket_mem (die row col : Nat) (p : Packet) : (s.unpacket die row col p).mem = s.mem := rfl
@[simp] theorem State.unpacket_bind (die row col : Nat) (p : Packet) : (s.unpacket die row col p).bind = s.bind := rfl
@[simp] theorem State.unpacket_tiles (die row col : Nat) (p : Packet) : (s.unpacket die row col p).tiles = s.tiles := rfl
@[simp] theorem State.unpacket_parked (die row col : Nat) (p : Packet) : (s.unpacket die row col p).parked = s.parked := rfl
@[simp] theorem State.unpacket_cqHeld (die row col : Nat) (p : Packet) : (s.unpacket die row col p).cqHeld = s.cqHeld := rfl
@[simp] theorem State.unpacket_mbHeld (die row col : Nat) (p : Packet) : (s.unpacket die row col p).mbHeld = s.mbHeld := rfl
@[simp] theorem State.unpacket_repSeq (die row col : Nat) (p : Packet) : (s.unpacket die row col p).repSeq = s.repSeq := rfl
@[simp] theorem State.unpacket_rowNotes (die row col : Nat) (p : Packet) : (s.unpacket die row col p).rowNotes = s.rowNotes := rfl
@[simp] theorem State.unpacket_rowQueue (die row col : Nat) (p : Packet) : (s.unpacket die row col p).rowQueue = s.rowQueue := rfl
@[simp] theorem State.unpacket_spareRows (die row col : Nat) (p : Packet) : (s.unpacket die row col p).spareRows = s.spareRows := rfl
@[simp] theorem State.unpacket_fencedPos (die row col : Nat) (p : Packet) : (s.unpacket die row col p).fencedPos = s.fencedPos := rfl
@[simp] theorem State.unpacket_gov (die row col : Nat) (p : Packet) : (s.unpacket die row col p).gov = s.gov := rfl
@[simp] theorem State.unpacket_ticks (die row col : Nat) (p : Packet) : (s.unpacket die row col p).ticks = s.ticks := rfl
@[simp] theorem State.unpacket_toLog (die row col : Nat) (p : Packet) : (s.unpacket die row col p).toLog = s.toLog := rfl
@[simp] theorem State.unpacket_left (die row col : Nat) (p : Packet) : (s.unpacket die row col p).left = s.left := rfl
@[simp] theorem State.unpacket_sendPaths (die row col : Nat) (p : Packet) : (s.unpacket die row col p).sendPaths = s.sendPaths := rfl
@[simp] theorem State.unpacket_cxReads (die row col : Nat) (p : Packet) : (s.unpacket die row col p).cxReads = s.cxReads := rfl
@[simp] theorem State.unpacket_recvPaths (die row col : Nat) (p : Packet) : (s.unpacket die row col p).recvPaths = s.recvPaths := rfl
@[simp] theorem State.unpacket_links (die row col : Nat) (p : Packet) : (s.unpacket die row col p).links = s.links := rfl
@[simp] theorem State.unpacket_badRouters (die row col : Nat) (p : Packet) : (s.unpacket die row col p).badRouters = s.badRouters := rfl
@[simp] theorem State.unpacket_detourDue (die row col : Nat) (p : Packet) : (s.unpacket die row col p).detourDue = s.detourDue := rfl
@[simp] theorem State.unpacket_unserviceable (die row col : Nat) (p : Packet) : (s.unpacket die row col p).unserviceable = s.unserviceable := rfl
@[simp] theorem State.unpacket_toHost (die row col : Nat) (p : Packet) : (s.unpacket die row col p).toHost = s.toHost := rfl
@[simp] theorem State.unpacket_paused (die row col : Nat) (p : Packet) : (s.unpacket die row col p).paused = s.paused := rfl
@[simp] theorem State.unpacket_replays (die row col : Nat) (p : Packet) : (s.unpacket die row col p).replays = s.replays := rfl
@[simp] theorem State.unpacket_peerDown (die row col : Nat) (p : Packet) : (s.unpacket die row col p).peerDown = s.peerDown := rfl
@[simp] theorem State.unpacket_grantQ (die row col : Nat) (p : Packet) : (s.unpacket die row col p).grantQ = s.grantQ := rfl
@[simp] theorem State.unpacket_kids (die row col : Nat) (p : Packet) : (s.unpacket die row col p).kids = s.kids := rfl
@[simp] theorem State.unpacket_devBars (die row col : Nat) (p : Packet) : (s.unpacket die row col p).devBars = s.devBars := rfl
@[simp] theorem State.unpacket_pkgArrived (die row col : Nat) (p : Packet) : (s.unpacket die row col p).pkgArrived = s.pkgArrived := rfl
@[simp] theorem State.unpacket_dcmd (die row col : Nat) (p : Packet) : (s.unpacket die row col p).dcmd = s.dcmd := rfl
@[simp] theorem State.unpacket_noticesDue (die row col : Nat) (p : Packet) : (s.unpacket die row col p).noticesDue = s.noticesDue := rfl
@[simp] theorem State.unpacket_released (die row col : Nat) (p : Packet) : (s.unpacket die row col p).released = s.released := rfl
@[simp] theorem State.unpacket_portsBack (die row col : Nat) (p : Packet) : (s.unpacket die row col p).portsBack = s.portsBack := rfl
@[simp] theorem State.unpacket_portPeers (die row col : Nat) (p : Packet) : (s.unpacket die row col p).portPeers = s.portPeers := rfl
@[simp] theorem State.unpacket_predDue (die row col : Nat) (p : Packet) : (s.unpacket die row col p).predDue = s.predDue := rfl
@[simp] theorem State.unpacket_reshardTo (die row col : Nat) (p : Packet) : (s.unpacket die row col p).reshardTo = s.reshardTo := rfl
@[simp] theorem State.unpacket_hbHeard (die row col : Nat) (p : Packet) : (s.unpacket die row col p).hbHeard = s.hbHeard := rfl
@[simp] theorem State.unpacket_probing (die row col : Nat) (p : Packet) : (s.unpacket die row col p).probing = s.probing := rfl
@[simp] theorem State.unpacket_partnerIdle (die row col : Nat) (p : Packet) : (s.unpacket die row col p).partnerIdle = s.partnerIdle := rfl
@[simp] theorem State.unpacket_aborting (die row col : Nat) (p : Packet) : (s.unpacket die row col p).aborting = s.aborting := rfl
@[simp] theorem State.unpacket_taking (die row col : Nat) (p : Packet) : (s.unpacket die row col p).taking = s.taking := rfl
@[simp] theorem State.unpacket_pulling (die row col : Nat) (p : Packet) : (s.unpacket die row col p).pulling = s.pulling := rfl
@[simp] theorem State.unpacket_heads (die row col : Nat) (p : Packet) : (s.unpacket die row col p).heads = s.heads := rfl
@[simp] theorem State.unpacket_dataReady (die row col : Nat) (p : Packet) : (s.unpacket die row col p).dataReady = s.dataReady := rfl
@[simp] theorem State.unpacket_replayDue (die row col : Nat) (p : Packet) : (s.unpacket die row col p).replayDue = s.replayDue := rfl
@[simp] theorem State.unpacket_startWaits (die row col : Nat) (p : Packet) : (s.unpacket die row col p).startWaits = s.startWaits := rfl
@[simp] theorem State.unpacket_replaced (die row col : Nat) (p : Packet) : (s.unpacket die row col p).replaced = s.replaced := rfl
@[simp] theorem State.unpacket_hostCert (die row col : Nat) (p : Packet) : (s.unpacket die row col p).hostCert = s.hostCert := rfl
@[simp] theorem State.unpacket_pairAsk (die row col : Nat) (p : Packet) : (s.unpacket die row col p).pairAsk = s.pairAsk := rfl
@[simp] theorem State.unpacket_gotCerts (die row col : Nat) (p : Packet) : (s.unpacket die row col p).gotCerts = s.gotCerts := rfl
@[simp] theorem State.unpacket_image (die row col : Nat) (p : Packet) : (s.unpacket die row col p).image = s.image := rfl
@[simp] theorem State.unpacket_blocks (die row col : Nat) (p : Packet) : (s.unpacket die row col p).blocks = s.blocks := rfl
@[simp] theorem State.unpacket_mcs (die row col : Nat) (p : Packet) : (s.unpacket die row col p).mcs = s.mcs := rfl
@[simp] theorem State.unpacket_utcPs (die row col : Nat) (p : Packet) : (s.unpacket die row col p).utcPs = s.utcPs := rfl
@[simp] theorem State.unpacket_hostGone (die row col : Nat) (p : Packet) : (s.unpacket die row col p).hostGone = s.hostGone := rfl
@[simp] theorem State.unpacket_stepHold (die row col : Nat) (p : Packet) : (s.unpacket die row col p).stepHold = s.stepHold := rfl
@[simp] theorem State.unpacket_ghUp (die row col : Nat) (p : Packet) : (s.unpacket die row col p).ghUp = s.ghUp := rfl
@[simp] theorem State.unpacket_ghFailed (die row col : Nat) (p : Packet) : (s.unpacket die row col p).ghFailed = s.ghFailed := rfl
@[simp] theorem State.unpacket_mram (die row col : Nat) (p : Packet) : (s.unpacket die row col p).mram = s.mram := rfl
@[simp] theorem State.unpacket_lodge (die row col : Nat) (p : Packet) : (s.unpacket die row col p).lodge = s.lodge := rfl
@[simp] theorem State.unpacket_chp (die row col : Nat) (p : Packet) : (s.unpacket die row col p).chp = s.chp := rfl
@[simp] theorem State.unpacket_tap (die row col : Nat) (p : Packet) : (s.unpacket die row col p).tap = s.tap := rfl
@[simp] theorem State.unpacket_fresh (die row col : Nat) (p : Packet) : (s.unpacket die row col p).fresh = s.fresh := rfl
@[simp] theorem State.unpacket_pending (die row col : Nat) (p : Packet) : (s.unpacket die row col p).pending = s.pending := rfl

/-! ### `setLink` -/

@[simp] theorem State.setLink_grade (die e : Nat) (l : Link) : (s.setLink die e l).grade = s.grade := rfl
@[simp] theorem State.setLink_regs (die e : Nat) (l : Link) : (s.setLink die e l).regs = s.regs := rfl
@[simp] theorem State.setLink_mem (die e : Nat) (l : Link) : (s.setLink die e l).mem = s.mem := rfl
@[simp] theorem State.setLink_bind (die e : Nat) (l : Link) : (s.setLink die e l).bind = s.bind := rfl
@[simp] theorem State.setLink_tiles (die e : Nat) (l : Link) : (s.setLink die e l).tiles = s.tiles := rfl
@[simp] theorem State.setLink_parked (die e : Nat) (l : Link) : (s.setLink die e l).parked = s.parked := rfl
@[simp] theorem State.setLink_wires (die e : Nat) (l : Link) : (s.setLink die e l).wires = s.wires := rfl
@[simp] theorem State.setLink_cqHeld (die e : Nat) (l : Link) : (s.setLink die e l).cqHeld = s.cqHeld := rfl
@[simp] theorem State.setLink_mbHeld (die e : Nat) (l : Link) : (s.setLink die e l).mbHeld = s.mbHeld := rfl
@[simp] theorem State.setLink_repSeq (die e : Nat) (l : Link) : (s.setLink die e l).repSeq = s.repSeq := rfl
@[simp] theorem State.setLink_rowNotes (die e : Nat) (l : Link) : (s.setLink die e l).rowNotes = s.rowNotes := rfl
@[simp] theorem State.setLink_rowQueue (die e : Nat) (l : Link) : (s.setLink die e l).rowQueue = s.rowQueue := rfl
@[simp] theorem State.setLink_spareRows (die e : Nat) (l : Link) : (s.setLink die e l).spareRows = s.spareRows := rfl
@[simp] theorem State.setLink_fencedPos (die e : Nat) (l : Link) : (s.setLink die e l).fencedPos = s.fencedPos := rfl
@[simp] theorem State.setLink_gov (die e : Nat) (l : Link) : (s.setLink die e l).gov = s.gov := rfl
@[simp] theorem State.setLink_ticks (die e : Nat) (l : Link) : (s.setLink die e l).ticks = s.ticks := rfl
@[simp] theorem State.setLink_toLog (die e : Nat) (l : Link) : (s.setLink die e l).toLog = s.toLog := rfl
@[simp] theorem State.setLink_left (die e : Nat) (l : Link) : (s.setLink die e l).left = s.left := rfl
@[simp] theorem State.setLink_sendPaths (die e : Nat) (l : Link) : (s.setLink die e l).sendPaths = s.sendPaths := rfl
@[simp] theorem State.setLink_cxReads (die e : Nat) (l : Link) : (s.setLink die e l).cxReads = s.cxReads := rfl
@[simp] theorem State.setLink_recvPaths (die e : Nat) (l : Link) : (s.setLink die e l).recvPaths = s.recvPaths := rfl
@[simp] theorem State.setLink_badRouters (die e : Nat) (l : Link) : (s.setLink die e l).badRouters = s.badRouters := rfl
@[simp] theorem State.setLink_detourDue (die e : Nat) (l : Link) : (s.setLink die e l).detourDue = s.detourDue := rfl
@[simp] theorem State.setLink_unserviceable (die e : Nat) (l : Link) : (s.setLink die e l).unserviceable = s.unserviceable := rfl
@[simp] theorem State.setLink_toHost (die e : Nat) (l : Link) : (s.setLink die e l).toHost = s.toHost := rfl
@[simp] theorem State.setLink_paused (die e : Nat) (l : Link) : (s.setLink die e l).paused = s.paused := rfl
@[simp] theorem State.setLink_replays (die e : Nat) (l : Link) : (s.setLink die e l).replays = s.replays := rfl
@[simp] theorem State.setLink_peerDown (die e : Nat) (l : Link) : (s.setLink die e l).peerDown = s.peerDown := rfl
@[simp] theorem State.setLink_grantQ (die e : Nat) (l : Link) : (s.setLink die e l).grantQ = s.grantQ := rfl
@[simp] theorem State.setLink_kids (die e : Nat) (l : Link) : (s.setLink die e l).kids = s.kids := rfl
@[simp] theorem State.setLink_devBars (die e : Nat) (l : Link) : (s.setLink die e l).devBars = s.devBars := rfl
@[simp] theorem State.setLink_pkgArrived (die e : Nat) (l : Link) : (s.setLink die e l).pkgArrived = s.pkgArrived := rfl
@[simp] theorem State.setLink_dcmd (die e : Nat) (l : Link) : (s.setLink die e l).dcmd = s.dcmd := rfl
@[simp] theorem State.setLink_noticesDue (die e : Nat) (l : Link) : (s.setLink die e l).noticesDue = s.noticesDue := rfl
@[simp] theorem State.setLink_released (die e : Nat) (l : Link) : (s.setLink die e l).released = s.released := rfl
@[simp] theorem State.setLink_portsBack (die e : Nat) (l : Link) : (s.setLink die e l).portsBack = s.portsBack := rfl
@[simp] theorem State.setLink_portPeers (die e : Nat) (l : Link) : (s.setLink die e l).portPeers = s.portPeers := rfl
@[simp] theorem State.setLink_predDue (die e : Nat) (l : Link) : (s.setLink die e l).predDue = s.predDue := rfl
@[simp] theorem State.setLink_reshardTo (die e : Nat) (l : Link) : (s.setLink die e l).reshardTo = s.reshardTo := rfl
@[simp] theorem State.setLink_hbHeard (die e : Nat) (l : Link) : (s.setLink die e l).hbHeard = s.hbHeard := rfl
@[simp] theorem State.setLink_probing (die e : Nat) (l : Link) : (s.setLink die e l).probing = s.probing := rfl
@[simp] theorem State.setLink_partnerIdle (die e : Nat) (l : Link) : (s.setLink die e l).partnerIdle = s.partnerIdle := rfl
@[simp] theorem State.setLink_aborting (die e : Nat) (l : Link) : (s.setLink die e l).aborting = s.aborting := rfl
@[simp] theorem State.setLink_taking (die e : Nat) (l : Link) : (s.setLink die e l).taking = s.taking := rfl
@[simp] theorem State.setLink_pulling (die e : Nat) (l : Link) : (s.setLink die e l).pulling = s.pulling := rfl
@[simp] theorem State.setLink_heads (die e : Nat) (l : Link) : (s.setLink die e l).heads = s.heads := rfl
@[simp] theorem State.setLink_dataReady (die e : Nat) (l : Link) : (s.setLink die e l).dataReady = s.dataReady := rfl
@[simp] theorem State.setLink_replayDue (die e : Nat) (l : Link) : (s.setLink die e l).replayDue = s.replayDue := rfl
@[simp] theorem State.setLink_startWaits (die e : Nat) (l : Link) : (s.setLink die e l).startWaits = s.startWaits := rfl
@[simp] theorem State.setLink_replaced (die e : Nat) (l : Link) : (s.setLink die e l).replaced = s.replaced := rfl
@[simp] theorem State.setLink_hostCert (die e : Nat) (l : Link) : (s.setLink die e l).hostCert = s.hostCert := rfl
@[simp] theorem State.setLink_pairAsk (die e : Nat) (l : Link) : (s.setLink die e l).pairAsk = s.pairAsk := rfl
@[simp] theorem State.setLink_gotCerts (die e : Nat) (l : Link) : (s.setLink die e l).gotCerts = s.gotCerts := rfl
@[simp] theorem State.setLink_image (die e : Nat) (l : Link) : (s.setLink die e l).image = s.image := rfl
@[simp] theorem State.setLink_blocks (die e : Nat) (l : Link) : (s.setLink die e l).blocks = s.blocks := rfl
@[simp] theorem State.setLink_mcs (die e : Nat) (l : Link) : (s.setLink die e l).mcs = s.mcs := rfl
@[simp] theorem State.setLink_utcPs (die e : Nat) (l : Link) : (s.setLink die e l).utcPs = s.utcPs := rfl
@[simp] theorem State.setLink_hostGone (die e : Nat) (l : Link) : (s.setLink die e l).hostGone = s.hostGone := rfl
@[simp] theorem State.setLink_stepHold (die e : Nat) (l : Link) : (s.setLink die e l).stepHold = s.stepHold := rfl
@[simp] theorem State.setLink_ghUp (die e : Nat) (l : Link) : (s.setLink die e l).ghUp = s.ghUp := rfl
@[simp] theorem State.setLink_ghFailed (die e : Nat) (l : Link) : (s.setLink die e l).ghFailed = s.ghFailed := rfl
@[simp] theorem State.setLink_mram (die e : Nat) (l : Link) : (s.setLink die e l).mram = s.mram := rfl
@[simp] theorem State.setLink_lodge (die e : Nat) (l : Link) : (s.setLink die e l).lodge = s.lodge := rfl
@[simp] theorem State.setLink_chp (die e : Nat) (l : Link) : (s.setLink die e l).chp = s.chp := rfl
@[simp] theorem State.setLink_tap (die e : Nat) (l : Link) : (s.setLink die e l).tap = s.tap := rfl
@[simp] theorem State.setLink_fresh (die e : Nat) (l : Link) : (s.setLink die e l).fresh = s.fresh := rfl
@[simp] theorem State.setLink_pending (die e : Nat) (l : Link) : (s.setLink die e l).pending = s.pending := rfl

/-! ### `setSendPath` -/

@[simp] theorem State.setSendPath_grade (k : Nat) (p : SendPath) : (s.setSendPath k p).grade = s.grade := rfl
@[simp] theorem State.setSendPath_regs (k : Nat) (p : SendPath) : (s.setSendPath k p).regs = s.regs := rfl
@[simp] theorem State.setSendPath_mem (k : Nat) (p : SendPath) : (s.setSendPath k p).mem = s.mem := rfl
@[simp] theorem State.setSendPath_bind (k : Nat) (p : SendPath) : (s.setSendPath k p).bind = s.bind := rfl
@[simp] theorem State.setSendPath_tiles (k : Nat) (p : SendPath) : (s.setSendPath k p).tiles = s.tiles := rfl
@[simp] theorem State.setSendPath_parked (k : Nat) (p : SendPath) : (s.setSendPath k p).parked = s.parked := rfl
@[simp] theorem State.setSendPath_wires (k : Nat) (p : SendPath) : (s.setSendPath k p).wires = s.wires := rfl
@[simp] theorem State.setSendPath_cqHeld (k : Nat) (p : SendPath) : (s.setSendPath k p).cqHeld = s.cqHeld := rfl
@[simp] theorem State.setSendPath_mbHeld (k : Nat) (p : SendPath) : (s.setSendPath k p).mbHeld = s.mbHeld := rfl
@[simp] theorem State.setSendPath_repSeq (k : Nat) (p : SendPath) : (s.setSendPath k p).repSeq = s.repSeq := rfl
@[simp] theorem State.setSendPath_rowNotes (k : Nat) (p : SendPath) : (s.setSendPath k p).rowNotes = s.rowNotes := rfl
@[simp] theorem State.setSendPath_rowQueue (k : Nat) (p : SendPath) : (s.setSendPath k p).rowQueue = s.rowQueue := rfl
@[simp] theorem State.setSendPath_spareRows (k : Nat) (p : SendPath) : (s.setSendPath k p).spareRows = s.spareRows := rfl
@[simp] theorem State.setSendPath_fencedPos (k : Nat) (p : SendPath) : (s.setSendPath k p).fencedPos = s.fencedPos := rfl
@[simp] theorem State.setSendPath_gov (k : Nat) (p : SendPath) : (s.setSendPath k p).gov = s.gov := rfl
@[simp] theorem State.setSendPath_ticks (k : Nat) (p : SendPath) : (s.setSendPath k p).ticks = s.ticks := rfl
@[simp] theorem State.setSendPath_toLog (k : Nat) (p : SendPath) : (s.setSendPath k p).toLog = s.toLog := rfl
@[simp] theorem State.setSendPath_left (k : Nat) (p : SendPath) : (s.setSendPath k p).left = s.left := rfl
@[simp] theorem State.setSendPath_cxReads (k : Nat) (p : SendPath) : (s.setSendPath k p).cxReads = s.cxReads := rfl
@[simp] theorem State.setSendPath_recvPaths (k : Nat) (p : SendPath) : (s.setSendPath k p).recvPaths = s.recvPaths := rfl
@[simp] theorem State.setSendPath_links (k : Nat) (p : SendPath) : (s.setSendPath k p).links = s.links := rfl
@[simp] theorem State.setSendPath_badRouters (k : Nat) (p : SendPath) : (s.setSendPath k p).badRouters = s.badRouters := rfl
@[simp] theorem State.setSendPath_detourDue (k : Nat) (p : SendPath) : (s.setSendPath k p).detourDue = s.detourDue := rfl
@[simp] theorem State.setSendPath_unserviceable (k : Nat) (p : SendPath) : (s.setSendPath k p).unserviceable = s.unserviceable := rfl
@[simp] theorem State.setSendPath_toHost (k : Nat) (p : SendPath) : (s.setSendPath k p).toHost = s.toHost := rfl
@[simp] theorem State.setSendPath_paused (k : Nat) (p : SendPath) : (s.setSendPath k p).paused = s.paused := rfl
@[simp] theorem State.setSendPath_replays (k : Nat) (p : SendPath) : (s.setSendPath k p).replays = s.replays := rfl
@[simp] theorem State.setSendPath_peerDown (k : Nat) (p : SendPath) : (s.setSendPath k p).peerDown = s.peerDown := rfl
@[simp] theorem State.setSendPath_grantQ (k : Nat) (p : SendPath) : (s.setSendPath k p).grantQ = s.grantQ := rfl
@[simp] theorem State.setSendPath_kids (k : Nat) (p : SendPath) : (s.setSendPath k p).kids = s.kids := rfl
@[simp] theorem State.setSendPath_devBars (k : Nat) (p : SendPath) : (s.setSendPath k p).devBars = s.devBars := rfl
@[simp] theorem State.setSendPath_pkgArrived (k : Nat) (p : SendPath) : (s.setSendPath k p).pkgArrived = s.pkgArrived := rfl
@[simp] theorem State.setSendPath_dcmd (k : Nat) (p : SendPath) : (s.setSendPath k p).dcmd = s.dcmd := rfl
@[simp] theorem State.setSendPath_noticesDue (k : Nat) (p : SendPath) : (s.setSendPath k p).noticesDue = s.noticesDue := rfl
@[simp] theorem State.setSendPath_released (k : Nat) (p : SendPath) : (s.setSendPath k p).released = s.released := rfl
@[simp] theorem State.setSendPath_portsBack (k : Nat) (p : SendPath) : (s.setSendPath k p).portsBack = s.portsBack := rfl
@[simp] theorem State.setSendPath_portPeers (k : Nat) (p : SendPath) : (s.setSendPath k p).portPeers = s.portPeers := rfl
@[simp] theorem State.setSendPath_predDue (k : Nat) (p : SendPath) : (s.setSendPath k p).predDue = s.predDue := rfl
@[simp] theorem State.setSendPath_reshardTo (k : Nat) (p : SendPath) : (s.setSendPath k p).reshardTo = s.reshardTo := rfl
@[simp] theorem State.setSendPath_hbHeard (k : Nat) (p : SendPath) : (s.setSendPath k p).hbHeard = s.hbHeard := rfl
@[simp] theorem State.setSendPath_probing (k : Nat) (p : SendPath) : (s.setSendPath k p).probing = s.probing := rfl
@[simp] theorem State.setSendPath_partnerIdle (k : Nat) (p : SendPath) : (s.setSendPath k p).partnerIdle = s.partnerIdle := rfl
@[simp] theorem State.setSendPath_aborting (k : Nat) (p : SendPath) : (s.setSendPath k p).aborting = s.aborting := rfl
@[simp] theorem State.setSendPath_taking (k : Nat) (p : SendPath) : (s.setSendPath k p).taking = s.taking := rfl
@[simp] theorem State.setSendPath_pulling (k : Nat) (p : SendPath) : (s.setSendPath k p).pulling = s.pulling := rfl
@[simp] theorem State.setSendPath_heads (k : Nat) (p : SendPath) : (s.setSendPath k p).heads = s.heads := rfl
@[simp] theorem State.setSendPath_dataReady (k : Nat) (p : SendPath) : (s.setSendPath k p).dataReady = s.dataReady := rfl
@[simp] theorem State.setSendPath_replayDue (k : Nat) (p : SendPath) : (s.setSendPath k p).replayDue = s.replayDue := rfl
@[simp] theorem State.setSendPath_startWaits (k : Nat) (p : SendPath) : (s.setSendPath k p).startWaits = s.startWaits := rfl
@[simp] theorem State.setSendPath_replaced (k : Nat) (p : SendPath) : (s.setSendPath k p).replaced = s.replaced := rfl
@[simp] theorem State.setSendPath_hostCert (k : Nat) (p : SendPath) : (s.setSendPath k p).hostCert = s.hostCert := rfl
@[simp] theorem State.setSendPath_pairAsk (k : Nat) (p : SendPath) : (s.setSendPath k p).pairAsk = s.pairAsk := rfl
@[simp] theorem State.setSendPath_gotCerts (k : Nat) (p : SendPath) : (s.setSendPath k p).gotCerts = s.gotCerts := rfl
@[simp] theorem State.setSendPath_image (k : Nat) (p : SendPath) : (s.setSendPath k p).image = s.image := rfl
@[simp] theorem State.setSendPath_blocks (k : Nat) (p : SendPath) : (s.setSendPath k p).blocks = s.blocks := rfl
@[simp] theorem State.setSendPath_mcs (k : Nat) (p : SendPath) : (s.setSendPath k p).mcs = s.mcs := rfl
@[simp] theorem State.setSendPath_utcPs (k : Nat) (p : SendPath) : (s.setSendPath k p).utcPs = s.utcPs := rfl
@[simp] theorem State.setSendPath_hostGone (k : Nat) (p : SendPath) : (s.setSendPath k p).hostGone = s.hostGone := rfl
@[simp] theorem State.setSendPath_stepHold (k : Nat) (p : SendPath) : (s.setSendPath k p).stepHold = s.stepHold := rfl
@[simp] theorem State.setSendPath_ghUp (k : Nat) (p : SendPath) : (s.setSendPath k p).ghUp = s.ghUp := rfl
@[simp] theorem State.setSendPath_ghFailed (k : Nat) (p : SendPath) : (s.setSendPath k p).ghFailed = s.ghFailed := rfl
@[simp] theorem State.setSendPath_mram (k : Nat) (p : SendPath) : (s.setSendPath k p).mram = s.mram := rfl
@[simp] theorem State.setSendPath_lodge (k : Nat) (p : SendPath) : (s.setSendPath k p).lodge = s.lodge := rfl
@[simp] theorem State.setSendPath_chp (k : Nat) (p : SendPath) : (s.setSendPath k p).chp = s.chp := rfl
@[simp] theorem State.setSendPath_tap (k : Nat) (p : SendPath) : (s.setSendPath k p).tap = s.tap := rfl
@[simp] theorem State.setSendPath_fresh (k : Nat) (p : SendPath) : (s.setSendPath k p).fresh = s.fresh := rfl
@[simp] theorem State.setSendPath_pending (k : Nat) (p : SendPath) : (s.setSendPath k p).pending = s.pending := rfl

/-! ### `setRecvPath` -/

@[simp] theorem State.setRecvPath_grade (k : Nat) (p : RecvPath) : (s.setRecvPath k p).grade = s.grade := rfl
@[simp] theorem State.setRecvPath_regs (k : Nat) (p : RecvPath) : (s.setRecvPath k p).regs = s.regs := rfl
@[simp] theorem State.setRecvPath_mem (k : Nat) (p : RecvPath) : (s.setRecvPath k p).mem = s.mem := rfl
@[simp] theorem State.setRecvPath_bind (k : Nat) (p : RecvPath) : (s.setRecvPath k p).bind = s.bind := rfl
@[simp] theorem State.setRecvPath_tiles (k : Nat) (p : RecvPath) : (s.setRecvPath k p).tiles = s.tiles := rfl
@[simp] theorem State.setRecvPath_parked (k : Nat) (p : RecvPath) : (s.setRecvPath k p).parked = s.parked := rfl
@[simp] theorem State.setRecvPath_wires (k : Nat) (p : RecvPath) : (s.setRecvPath k p).wires = s.wires := rfl
@[simp] theorem State.setRecvPath_cqHeld (k : Nat) (p : RecvPath) : (s.setRecvPath k p).cqHeld = s.cqHeld := rfl
@[simp] theorem State.setRecvPath_mbHeld (k : Nat) (p : RecvPath) : (s.setRecvPath k p).mbHeld = s.mbHeld := rfl
@[simp] theorem State.setRecvPath_repSeq (k : Nat) (p : RecvPath) : (s.setRecvPath k p).repSeq = s.repSeq := rfl
@[simp] theorem State.setRecvPath_rowNotes (k : Nat) (p : RecvPath) : (s.setRecvPath k p).rowNotes = s.rowNotes := rfl
@[simp] theorem State.setRecvPath_rowQueue (k : Nat) (p : RecvPath) : (s.setRecvPath k p).rowQueue = s.rowQueue := rfl
@[simp] theorem State.setRecvPath_spareRows (k : Nat) (p : RecvPath) : (s.setRecvPath k p).spareRows = s.spareRows := rfl
@[simp] theorem State.setRecvPath_fencedPos (k : Nat) (p : RecvPath) : (s.setRecvPath k p).fencedPos = s.fencedPos := rfl
@[simp] theorem State.setRecvPath_gov (k : Nat) (p : RecvPath) : (s.setRecvPath k p).gov = s.gov := rfl
@[simp] theorem State.setRecvPath_ticks (k : Nat) (p : RecvPath) : (s.setRecvPath k p).ticks = s.ticks := rfl
@[simp] theorem State.setRecvPath_toLog (k : Nat) (p : RecvPath) : (s.setRecvPath k p).toLog = s.toLog := rfl
@[simp] theorem State.setRecvPath_left (k : Nat) (p : RecvPath) : (s.setRecvPath k p).left = s.left := rfl
@[simp] theorem State.setRecvPath_sendPaths (k : Nat) (p : RecvPath) : (s.setRecvPath k p).sendPaths = s.sendPaths := rfl
@[simp] theorem State.setRecvPath_cxReads (k : Nat) (p : RecvPath) : (s.setRecvPath k p).cxReads = s.cxReads := rfl
@[simp] theorem State.setRecvPath_links (k : Nat) (p : RecvPath) : (s.setRecvPath k p).links = s.links := rfl
@[simp] theorem State.setRecvPath_badRouters (k : Nat) (p : RecvPath) : (s.setRecvPath k p).badRouters = s.badRouters := rfl
@[simp] theorem State.setRecvPath_detourDue (k : Nat) (p : RecvPath) : (s.setRecvPath k p).detourDue = s.detourDue := rfl
@[simp] theorem State.setRecvPath_unserviceable (k : Nat) (p : RecvPath) : (s.setRecvPath k p).unserviceable = s.unserviceable := rfl
@[simp] theorem State.setRecvPath_toHost (k : Nat) (p : RecvPath) : (s.setRecvPath k p).toHost = s.toHost := rfl
@[simp] theorem State.setRecvPath_paused (k : Nat) (p : RecvPath) : (s.setRecvPath k p).paused = s.paused := rfl
@[simp] theorem State.setRecvPath_replays (k : Nat) (p : RecvPath) : (s.setRecvPath k p).replays = s.replays := rfl
@[simp] theorem State.setRecvPath_peerDown (k : Nat) (p : RecvPath) : (s.setRecvPath k p).peerDown = s.peerDown := rfl
@[simp] theorem State.setRecvPath_grantQ (k : Nat) (p : RecvPath) : (s.setRecvPath k p).grantQ = s.grantQ := rfl
@[simp] theorem State.setRecvPath_kids (k : Nat) (p : RecvPath) : (s.setRecvPath k p).kids = s.kids := rfl
@[simp] theorem State.setRecvPath_devBars (k : Nat) (p : RecvPath) : (s.setRecvPath k p).devBars = s.devBars := rfl
@[simp] theorem State.setRecvPath_pkgArrived (k : Nat) (p : RecvPath) : (s.setRecvPath k p).pkgArrived = s.pkgArrived := rfl
@[simp] theorem State.setRecvPath_dcmd (k : Nat) (p : RecvPath) : (s.setRecvPath k p).dcmd = s.dcmd := rfl
@[simp] theorem State.setRecvPath_noticesDue (k : Nat) (p : RecvPath) : (s.setRecvPath k p).noticesDue = s.noticesDue := rfl
@[simp] theorem State.setRecvPath_released (k : Nat) (p : RecvPath) : (s.setRecvPath k p).released = s.released := rfl
@[simp] theorem State.setRecvPath_portsBack (k : Nat) (p : RecvPath) : (s.setRecvPath k p).portsBack = s.portsBack := rfl
@[simp] theorem State.setRecvPath_portPeers (k : Nat) (p : RecvPath) : (s.setRecvPath k p).portPeers = s.portPeers := rfl
@[simp] theorem State.setRecvPath_predDue (k : Nat) (p : RecvPath) : (s.setRecvPath k p).predDue = s.predDue := rfl
@[simp] theorem State.setRecvPath_reshardTo (k : Nat) (p : RecvPath) : (s.setRecvPath k p).reshardTo = s.reshardTo := rfl
@[simp] theorem State.setRecvPath_hbHeard (k : Nat) (p : RecvPath) : (s.setRecvPath k p).hbHeard = s.hbHeard := rfl
@[simp] theorem State.setRecvPath_probing (k : Nat) (p : RecvPath) : (s.setRecvPath k p).probing = s.probing := rfl
@[simp] theorem State.setRecvPath_partnerIdle (k : Nat) (p : RecvPath) : (s.setRecvPath k p).partnerIdle = s.partnerIdle := rfl
@[simp] theorem State.setRecvPath_aborting (k : Nat) (p : RecvPath) : (s.setRecvPath k p).aborting = s.aborting := rfl
@[simp] theorem State.setRecvPath_taking (k : Nat) (p : RecvPath) : (s.setRecvPath k p).taking = s.taking := rfl
@[simp] theorem State.setRecvPath_pulling (k : Nat) (p : RecvPath) : (s.setRecvPath k p).pulling = s.pulling := rfl
@[simp] theorem State.setRecvPath_heads (k : Nat) (p : RecvPath) : (s.setRecvPath k p).heads = s.heads := rfl
@[simp] theorem State.setRecvPath_dataReady (k : Nat) (p : RecvPath) : (s.setRecvPath k p).dataReady = s.dataReady := rfl
@[simp] theorem State.setRecvPath_replayDue (k : Nat) (p : RecvPath) : (s.setRecvPath k p).replayDue = s.replayDue := rfl
@[simp] theorem State.setRecvPath_startWaits (k : Nat) (p : RecvPath) : (s.setRecvPath k p).startWaits = s.startWaits := rfl
@[simp] theorem State.setRecvPath_replaced (k : Nat) (p : RecvPath) : (s.setRecvPath k p).replaced = s.replaced := rfl
@[simp] theorem State.setRecvPath_hostCert (k : Nat) (p : RecvPath) : (s.setRecvPath k p).hostCert = s.hostCert := rfl
@[simp] theorem State.setRecvPath_pairAsk (k : Nat) (p : RecvPath) : (s.setRecvPath k p).pairAsk = s.pairAsk := rfl
@[simp] theorem State.setRecvPath_gotCerts (k : Nat) (p : RecvPath) : (s.setRecvPath k p).gotCerts = s.gotCerts := rfl
@[simp] theorem State.setRecvPath_image (k : Nat) (p : RecvPath) : (s.setRecvPath k p).image = s.image := rfl
@[simp] theorem State.setRecvPath_blocks (k : Nat) (p : RecvPath) : (s.setRecvPath k p).blocks = s.blocks := rfl
@[simp] theorem State.setRecvPath_mcs (k : Nat) (p : RecvPath) : (s.setRecvPath k p).mcs = s.mcs := rfl
@[simp] theorem State.setRecvPath_utcPs (k : Nat) (p : RecvPath) : (s.setRecvPath k p).utcPs = s.utcPs := rfl
@[simp] theorem State.setRecvPath_hostGone (k : Nat) (p : RecvPath) : (s.setRecvPath k p).hostGone = s.hostGone := rfl
@[simp] theorem State.setRecvPath_stepHold (k : Nat) (p : RecvPath) : (s.setRecvPath k p).stepHold = s.stepHold := rfl
@[simp] theorem State.setRecvPath_ghUp (k : Nat) (p : RecvPath) : (s.setRecvPath k p).ghUp = s.ghUp := rfl
@[simp] theorem State.setRecvPath_ghFailed (k : Nat) (p : RecvPath) : (s.setRecvPath k p).ghFailed = s.ghFailed := rfl
@[simp] theorem State.setRecvPath_mram (k : Nat) (p : RecvPath) : (s.setRecvPath k p).mram = s.mram := rfl
@[simp] theorem State.setRecvPath_lodge (k : Nat) (p : RecvPath) : (s.setRecvPath k p).lodge = s.lodge := rfl
@[simp] theorem State.setRecvPath_chp (k : Nat) (p : RecvPath) : (s.setRecvPath k p).chp = s.chp := rfl
@[simp] theorem State.setRecvPath_tap (k : Nat) (p : RecvPath) : (s.setRecvPath k p).tap = s.tap := rfl
@[simp] theorem State.setRecvPath_fresh (k : Nat) (p : RecvPath) : (s.setRecvPath k p).fresh = s.fresh := rfl
@[simp] theorem State.setRecvPath_pending (k : Nat) (p : RecvPath) : (s.setRecvPath k p).pending = s.pending := rfl

end Sys2Proof.Machine
end

