-- ==== Sys2Proof/Laws/Good.lean ====
section
/-!
SUPPORT. What every meaning keeps: the canonical form of the maps, the grade, the queue of commands, and a lease epoch that never falls. `Good s₀ s` says it of a state `s`
that has come from `s₀`; each operation has one lemma, which the lemmas of the operations that use it cite.
-/

namespace Sys2Proof.Machine

/-- `Good` over the parts of a state that it speaks of. -/
def GoodP (s₀ : State) (g : Grade) (r : List (Nat × Word)) (m : List Host.Cell) (t : List (Nat × Tile)) (x : Mram) (p : List Instr) : Prop :=
  (s₀.Canon → mwf resetOf none r = true ∧ Memory.wf m = true ∧ mwf (fun _ => ({} : Tile)) none t = true) ∧ g = s₀.grade ∧ p = s₀.pending ∧
    s₀.mram.epoch ≤ x.epoch ∧ (s₀.mram.epoch < 2 ^ 32 → x.epoch < 2 ^ 32)

/-- What a state keeps that has come from another. -/
def Good (s₀ s : State) : Prop := GoodP s₀ s.grade s.regs s.mem s.tiles s.mram s.pending

variable {s₀ s : State}

theorem Good.refl (s : State) : Good s s := ⟨id, rfl, rfl, le_refl _, id⟩

theorem good_p (h : Good s₀ s) : GoodP s₀ s.grade s.regs s.mem s.tiles s.mram s.pending := h

theorem good_mk {t : State} (h : GoodP s₀ t.grade t.regs t.mem t.tiles t.mram t.pending) : Good s₀ t := h

theorem Good.trans {t : State} (h : Good s₀ s) (g : Good s t) : Good s₀ t :=
  ⟨fun c => g.1 (h.1 c), g.2.1.trans h.2.1, g.2.2.1.trans h.2.2.1, le_trans h.2.2.2.1 g.2.2.2.1, fun c => g.2.2.2.2 (h.2.2.2.2 c)⟩

/-- A state that shares what `Good` speaks of. -/
theorem good_same {t : State} (h : Good s₀ s) (hg : t.grade = s.grade) (hr : t.regs = s.regs) (hm : t.mem = s.mem) (ht : t.tiles = s.tiles) (hx : t.mram = s.mram)
    (hp : t.pending = s.pending) : Good s₀ t := by
  unfold Good; rw [hg, hr, hm, ht, hx, hp]; exact h

theorem ite_good {c : Prop} [Decidable c] {a b : State} (ha : Good s₀ a) (hb : Good s₀ b) : Good s₀ (if c then a else b) := by
  split <;> assumption

theorem foldl_good {α : Type} {f : State → α → State} (hf : ∀ s x, Good s₀ s → Good s₀ (f s x)) (l : List α) : ∀ s, Good s₀ s → Good s₀ (l.foldl f s) := by
  induction l with
  | nil => intro s h; exact h
  | cons a l ih => intro s h; exact ih _ (hf _ _ h)

/-- Every state that an operation may answer is good. -/
def GoodO (s₀ : State) (o : Option State) : Prop := ∀ t, o = some t → Good s₀ t

/-- Every state that an operation may answer beside a value is good. -/
def GoodOP {α : Type} (s₀ : State) (o : Option (α × State)) : Prop := ∀ a t, o = some (a, t) → Good s₀ t

theorem goodO_none : GoodO s₀ none := fun _ h => by cases h

theorem goodO_some (h : Good s₀ s) : GoodO s₀ (some s) := fun _ e => by cases e; exact h

theorem goodP_none {α : Type} : GoodOP (α := α) s₀ none := fun _ _ h => by cases h

theorem goodP_some {α : Type} {a : α} (h : Good s₀ s) : GoodOP s₀ (some (a, s)) := fun _ _ e => by cases e; exact h

theorem goodO_map {α : Type} {f : α → State} {o : Option α} (hf : ∀ a, o = some a → Good s₀ (f a)) : GoodO s₀ (o.map f) := by
  intro t e
  cases o with
  | none => cases e
  | some a => cases e; exact hf a rfl

theorem goodP_map {α β : Type} {f : α → β × State} {o : Option α} (hf : ∀ a, o = some a → Good s₀ (f a).2) : GoodOP s₀ (o.map f) := by
  intro b t e
  cases o with
  | none => cases e
  | some a =>
    have h := hf a rfl
    simp only [Option.map_some, Option.some.injEq] at e
    rw [e] at h; exact h

theorem goodO_bind {α : Type} {f : α → Option State} {o : Option α} (hf : ∀ a, o = some a → GoodO s₀ (f a)) : GoodO s₀ (o.bind f) := by
  cases o with
  | none => exact goodO_none
  | some a => exact hf a rfl

theorem goodP_bind {α β : Type} {f : α → Option (β × State)} {o : Option α} (hf : ∀ a, o = some a → GoodOP s₀ (f a)) : GoodOP s₀ (o.bind f) := by
  cases o with
  | none => exact goodP_none
  | some a => exact hf a rfl

theorem goodO_ite {c : Prop} [Decidable c] {a b : Option State} (ha : GoodO s₀ a) (hb : GoodO s₀ b) : GoodO s₀ (if c then a else b) := by
  split <;> assumption

theorem goodP_ite {α : Type} {c : Prop} [Decidable c] {a b : Option (α × State)} (ha : GoodOP s₀ a) (hb : GoodOP s₀ b) : GoodOP s₀ (if c then a else b) := by
  split <;> assumption

theorem getD_good {o : Option State} (h : GoodO s₀ o) (hs : Good s₀ s) : Good s₀ (o.getD s) := by
  cases o with
  | none => exact hs
  | some t => exact h t rfl

theorem foldl_good_fst {α β : Type} {f : State × β → α → State × β} (hf : ∀ r x, Good s₀ r.1 → Good s₀ (f r x).1) (l : List α) :
    ∀ r, Good s₀ r.1 → Good s₀ (l.foldl f r).1 := by
  induction l with
  | nil => intro r h; exact h
  | cons a l ih => intro r h; exact ih _ (hf _ _ h)

theorem foldl_good_snd {α β : Type} {f : β × State → α → β × State} (hf : ∀ r x, Good s₀ r.2 → Good s₀ (f r x).2) (l : List α) :
    ∀ r, Good s₀ r.2 → Good s₀ (l.foldl f r).2 := by
  induction l with
  | nil => intro r h; exact h
  | cons a l ih => intro r h; exact ih _ (hf _ _ h)

theorem foldl_good_third {α β γ : Type} {f : β × γ × State → α → β × γ × State} (hf : ∀ r x, Good s₀ r.2.2 → Good s₀ (f r x).2.2) (l : List α) :
    ∀ r, Good s₀ r.2.2 → Good s₀ (l.foldl f r).2.2 := by
  induction l with
  | nil => intro r h; exact h
  | cons a l ih => intro r h; exact ih _ (hf _ _ h)

theorem findSome_good {α : Type} {l : List α} {f : α → Option State} (e : l.findSome? f = some s) (hf : ∀ a, GoodO s₀ (f a)) : Good s₀ s := by
  obtain ⟨a, -, h⟩ := List.exists_of_findSome?_eq_some e
  exact hf a s h

theorem setReg_good (h : Good s₀ s) (a : Nat) (w : Word) : Good s₀ (s.setReg a w) :=
  ⟨fun c => ⟨mput_mwf (h.1 c).1, (h.1 c).2⟩, h.2⟩

theorem clearRegs_good (h : Good s₀ s) (f : Nat → Bool) : Good s₀ (s.clearRegs f) :=
  ⟨fun c => ⟨mdrop_mwf (h.1 c).1, (h.1 c).2⟩, h.2⟩

theorem setByte_good (h : Good s₀ s) (a : Nat) (b : Byte) : Good s₀ (s.setByte a b) :=
  ⟨fun c => ⟨(h.1 c).1, mput_mwf (h.1 c).2.1, (h.1 c).2.2⟩, h.2⟩

theorem setTile_good (h : Good s₀ s) (t : Nat) (x : Tile) : Good s₀ (s.setTile t x) :=
  ⟨fun c => ⟨(h.1 c).1, (h.1 c).2.1, mput_mwf (h.1 c).2.2⟩, h.2⟩

theorem wr_good (bs : List Byte) : ∀ {s : State} (_ : Good s₀ s) (a : Nat), Good s₀ (s.wr a bs) := by
  induction bs with
  | nil => intro s h a; exact h
  | cons b bs ih => intro s h a; exact ih (setByte_good h a b) (a + 1)

theorem modMram_good (h : Good s₀ s) (f : Mram → Mram) (hf : ∀ m, (f m).epoch = m.epoch) : Good s₀ (s.modMram f) := by
  refine ⟨h.1, h.2.1, h.2.2.1, ?_, ?_⟩
  · show s₀.mram.epoch ≤ (f s.mram).epoch
    rw [hf]; exact h.2.2.2.1
  · show _ → (f s.mram).epoch < 2 ^ 32
    rw [hf]; exact h.2.2.2.2

theorem modLodge_good (h : Good s₀ s) (f : Lodge → Lodge) : Good s₀ (s.modLodge f) := h

/-- Memory dropped keeps its form. -/
theorem dropMem_good (h : Good s₀ s) (f : Nat → Bool) (t : State) (hm : t.mem = mdrop f s.mem) (hg : t.grade = s.grade) (hr : t.regs = s.regs) (ht : t.tiles = s.tiles)
    (hx : t.mram = s.mram) (hp : t.pending = s.pending) : Good s₀ t := by
  refine ⟨fun c => ?_, hg.trans h.2.1, hp.trans h.2.2.1, ?_, ?_⟩
  · rw [hr, hm, ht]; exact ⟨(h.1 c).1, mdrop_mwf (h.1 c).2.1, (h.1 c).2.2⟩
  · rw [hx]; exact h.2.2.2.1
  · rw [hx]; exact h.2.2.2.2

end Sys2Proof.Machine
end

