-- ==== Sys2Proof/Laws/GoodTile.lean ====
section
/-!
SUPPORT. `Good` for the tile: its registers, memory, queues, basins, programs, remote writes and faults: one lemma per operation.
-/

set_option linter.all false
set_option simprocs false

namespace Sys2Proof.Machine

variable {s₀ s : State}

/-! ### Map -/

theorem State_modTile_good (h : Good s₀ s) (x1 : Nat) (x2 : Tile → Tile) : Good s₀ (State.modTile s x1 x2) := by
  unfold State.modTile
  with_reducible repeat' first | assumption | apply setTile_good

theorem State_send_good (h : Good s₀ s) (x1 : Wire) : Good s₀ (State.send s x1) := by
  unfold State.send
  repeat' first | with_reducible assumption | (refine good_mk ?_; dsimp only; with_reducible refine good_p ?_)

theorem State_setFld_good (h : Good s₀ s) (x1 : Block) (x2 : Nat) (x3 : Fld) (x4 : Nat) : Good s₀ (State.setFld s x1 x2 x3 x4) := by
  unfold State.setFld
  with_reducible repeat' first | assumption | apply setReg_good

theorem State_setTf_good (h : Good s₀ s) (x1 : Nat) (x2 : Fld) (x3 : Nat) : Good s₀ (State.setTf s x1 x2 x3) := by
  unfold State.setTf
  with_reducible repeat' first | assumption | apply State_setFld_good

theorem State_unwire_good (h : Good s₀ s) (x1 : Wire) : Good s₀ (State.unwire s x1) := by
  unfold State.unwire
  repeat' first | with_reducible assumption | (refine good_mk ?_; dsimp only; with_reducible refine good_p ?_)

theorem State_modCtx_good (h : Good s₀ s) (x1 x2 : Nat) (x3 : Ctx → Ctx) : Good s₀ (State.modCtx s x1 x2 x3) := by
  unfold State.modCtx
  with_reducible repeat' first | assumption | apply State_modTile_good

/-! ### Fabric -/

theorem cxtPlain_good (h : Good s₀ s) (x1 : Nat) (x2 : CxtHdr) (x3 : List Byte) : Good s₀ (cxtPlain s x1 x2 x3) := by
  unfold cxtPlain
  with_reducible repeat' first | assumption | apply State_send_good

theorem State_setSendPath_good (h : Good s₀ s) (x1 : Nat) (x2 : SendPath) : Good s₀ (State.setSendPath s x1 x2) := by
  unfold State.setSendPath
  repeat' first | with_reducible assumption | (refine good_mk ?_; dsimp only; with_reducible refine good_p ?_)

theorem flushPath_good_rec : ∀ (x2 : Nat) {s : State} (_ : Good s₀ s) (x1 : Nat), Good s₀ (flushPath s x1 x2) := by
  intro x2
  induction x2 with
  | zero =>
    intro s h x1
    unfold flushPath
    with_reducible repeat' first | assumption

  | succ n ih =>
    intro s h x1
    unfold flushPath
    repeat' first
      | with_reducible assumption | with_reducible apply ih | with_reducible apply State_setSendPath_good | with_reducible apply State_send_good
      | with_reducible refine ite_good ?_ ?_ | split | (refine good_mk ?_; dsimp only; with_reducible refine good_p ?_)

theorem flushPath_good (h : Good s₀ s) (x1 x2 : Nat) : Good s₀ (flushPath s x1 x2) := flushPath_good_rec x2 h x1

theorem cxtEmit_good (h : Good s₀ s) (x1 x2 x3 : Nat) (x4 : CxtHdr) (x5 : Option BlockMeta) (x6 : List Byte) (x7 : CxtWho) : Good s₀ (cxtEmit s x1 x2 x3 x4 x5 x6 x7) := by
  unfold cxtEmit
  with_reducible repeat' first | assumption | apply flushPath_good | apply State_setSendPath_good

theorem sendCtrl_good (h : Good s₀ s) (x1 x2 x3 : Nat) (x4 : List Byte) (x5 : CxtWho) : Good s₀ (sendCtrl s x1 x2 x3 x4 x5) := by
  unfold sendCtrl
  with_reducible repeat' first | assumption | apply cxtEmit_good

theorem State_setPf_good (h : Good s₀ s) (x1 : Nat) (x2 : Nat → Fld) (x3 : Nat) : Good s₀ (State.setPf s x1 x2 x3) := by
  unfold State.setPf
  with_reducible repeat' first | assumption | apply State_setFld_good

theorem State_setRecvPath_good (h : Good s₀ s) (x1 : Nat) (x2 : RecvPath) : Good s₀ (State.setRecvPath s x1 x2) := by
  unfold State.setRecvPath
  repeat' first | with_reducible assumption | (refine good_mk ?_; dsimp only; with_reducible refine good_p ?_)

/-! ### Header -/

theorem State_setLink_good (h : Good s₀ s) (x1 x2 : Nat) (x3 : Link) : Good s₀ (State.setLink s x1 x2 x3) := by
  unfold State.setLink
  repeat' first | with_reducible assumption | (refine good_mk ?_; dsimp only; with_reducible refine good_p ?_)

theorem State_tellHost_good (h : Good s₀ s) (x1 : HostMsg) : Good s₀ (State.tellHost s x1) := by
  unfold State.tellHost
  repeat' first | with_reducible assumption | (refine good_mk ?_; dsimp only; with_reducible refine good_p ?_)

theorem sendResponse_good (h : Good s₀ s) (x1 x2 x3 : Nat) (x4 : Packet) (x5 x6 : Nat) (x7 : List Byte) : Good s₀ (sendResponse s x1 x2 x3 x4 x5 x6 x7) := by
  unfold sendResponse
  with_reducible repeat' first | assumption | apply State_send_good

theorem sendRows_good (h : Good s₀ s) (x1 x2 x3 : Nat) (x4 : Packet) (x5 : List Byte) : Good s₀ (sendRows s x1 x2 x3 x4 x5) := by
  unfold sendRows
  with_reducible repeat' first | assumption | apply State_send_good | (refine foldl_good (fun _ _ _ => ?_) _ _ ?_)

theorem State_post_good (h : Good s₀ s) (x1 : Wire) : Good s₀ (State.post s x1) := by
  unfold State.post
  with_reducible repeat' first | assumption | apply State_send_good | refine ite_good ?_ ?_

theorem hostEvent_good (h : Good s₀ s) (x1 : Nat) (x2 : Bool) (x3 : Nat) : Good s₀ (hostEvent s x1 x2 x3) := by
  unfold hostEvent
  with_reducible repeat' first | assumption | apply State_tellHost_good | refine ite_good ?_ ?_

/-! ### Ops -/

theorem askUnits_good (h : Good s₀ s) (x1 x2 : Nat) : Good s₀ (askUnits s x1 x2) := by
  unfold askUnits
  repeat' first
    | with_reducible assumption | with_reducible apply State_modTile_good | with_reducible refine ite_good ?_ ?_
    | (refine good_mk ?_; dsimp only; with_reducible refine good_p ?_)

theorem dropUnits_good (h : Good s₀ s) (x1 : Nat) : Good s₀ (dropUnits s x1) := by
  unfold dropUnits
  repeat' first | with_reducible assumption | with_reducible apply State_modTile_good | (refine good_mk ?_; dsimp only; with_reducible refine good_p ?_)

theorem clockUp_good (h : Good s₀ s) (x1 : Nat) : Good s₀ (clockUp s x1) := by
  unfold clockUp
  with_reducible repeat' first | assumption | apply askUnits_good | apply State_modTile_good | apply dropUnits_good | refine ite_good ?_ ?_

theorem releaseGate_good (h : Good s₀ s) (x1 : Nat) : Good s₀ (releaseGate s x1) := by
  unfold releaseGate
  repeat' first | with_reducible assumption | with_reducible apply clockUp_good | with_reducible apply State_modTile_good | split

theorem atHead_good (h : Good s₀ s) (x1 : Nat) (x2 : Engine) (x3 : Nat) (x4 : Instr) : Good s₀ (atHead s x1 x2 x3 x4) := by
  unfold atHead
  with_reducible repeat' first | assumption | apply releaseGate_good | refine ite_good ?_ ?_

theorem rampDown_good (h : Good s₀ s) (x1 : Nat) : Good s₀ (rampDown s x1) := by
  unfold rampDown
  with_reducible repeat' first | assumption | apply askUnits_good | apply State_modTile_good | refine ite_good ?_ ?_

theorem clockRest_good (h : Good s₀ s) (x1 : Nat) : Good s₀ (clockRest s x1) := by
  unfold clockRest
  with_reducible repeat' first | assumption | apply rampDown_good | apply State_modTile_good | refine ite_good ?_ ?_

theorem State_setTstate_good (h : Good s₀ s) (x1 x2 : Nat) : Good s₀ (State.setTstate s x1 x2) := by
  unfold State.setTstate
  with_reducible repeat' first | assumption | apply State_setTf_good

theorem tileRecall_good (h : Good s₀ s) (x1 : Nat) : Good s₀ (tileRecall s x1) := by
  unfold tileRecall
  with_reducible repeat' first | assumption | apply State_setTf_good | refine ite_good ?_ ?_

theorem wake_good (h : Good s₀ s) (x1 : Nat) : Good s₀ (wake s x1) := by
  unfold wake
  with_reducible repeat' first | assumption | apply State_setTstate_good | apply tileRecall_good | refine ite_good ?_ ?_

theorem writeEntry_good (h : Good s₀ s) (x1 : Nat) (x2 : GbEntry) : Good s₀ (writeEntry s x1 x2) := by
  unfold writeEntry
  with_reducible repeat' first | assumption | apply setByte_good | (refine foldl_good (fun _ _ _ => ?_) _ _ ?_) | refine ite_good ?_ ?_

theorem drainRow_good (h : Good s₀ s) (x1 x2 : Nat) : Good s₀ (drainRow s x1 x2) := by
  unfold drainRow
  repeat' first
    | with_reducible assumption | with_reducible apply writeEntry_good | with_reducible apply State_modTile_good | with_reducible refine ite_good ?_ ?_
    | split

theorem drainIf_good (h : Good s₀ s) (x1 : Nat) (x2 : GbEntry → Bool) : Good s₀ (drainIf s x1 x2) := by
  unfold drainIf
  with_reducible repeat' first | assumption | apply drainRow_good | (refine foldl_good (fun _ _ _ => ?_) _ _ ?_)

theorem drainAll_good (h : Good s₀ s) (x1 : Nat) : Good s₀ (drainAll s x1) := by
  unfold drainAll
  with_reducible repeat' first | assumption | apply drainIf_good

theorem putReport_good (h : Good s₀ s) (x1 x2 x3 : Nat) (x4 : List Word) : Good s₀ (putReport s x1 x2 x3 x4) := by
  unfold putReport
  with_reducible repeat' first | assumption | apply setReg_good | (refine foldl_good (fun _ _ _ => ?_) _ _ ?_)

theorem mailReport_good (h : Good s₀ s) (x1 : Nat) (x2 : List Word) : Good s₀ (mailReport s x1 x2) := by
  unfold mailReport
  repeat' first
    | with_reducible assumption | with_reducible apply putReport_good | with_reducible apply setReg_good | with_reducible refine ite_good ?_ ?_
    | (refine good_mk ?_; dsimp only; with_reducible refine good_p ?_)

theorem State_submit_good (h : Good s₀ s) (x1 : LogSub) : Good s₀ (State.submit s x1) := by
  unfold State.submit
  repeat' first | with_reducible assumption | (refine good_mk ?_; dsimp only; with_reducible refine good_p ?_)

theorem dieReport_good (h : Good s₀ s) (x1 x2 : Nat) (x3 x4 x5 : Nat) (x6 x7 : Word) (x8 : Bool) : Good s₀ (dieReport s x1 x2 x3 x4 x5 x6 x7 x8) := by
  unfold dieReport
  repeat' first
    | with_reducible assumption | with_reducible apply putReport_good | with_reducible apply setReg_good | with_reducible apply mailReport_good
    | with_reducible apply State_submit_good | with_reducible refine ite_good ?_ ?_ | (refine good_mk ?_; dsimp only; with_reducible refine good_p ?_)

theorem reportTile_good (h : Good s₀ s) (x1 x2 : Nat) (x3 : Bool) : Good s₀ (reportTile s x1 x2 x3) := by
  unfold reportTile
  with_reducible repeat' first | assumption | apply hostEvent_good | apply dieReport_good

theorem recordFault_good (h : Good s₀ s) (x1 x2 : Nat) (x3 x4 : Nat) : Good s₀ (recordFault s x1 x2 x3 x4) := by
  unfold recordFault
  with_reducible repeat' first | assumption | apply setReg_good | apply State_setTf_good | refine ite_good ?_ ?_

theorem forceDown_good (h : Good s₀ s) (x1 : Nat) : Good s₀ (forceDown s x1) := by
  unfold forceDown
  with_reducible repeat' first | assumption | apply rampDown_good | apply State_modTile_good | apply dropUnits_good | refine ite_good ?_ ?_

theorem stopTile_good (h : Good s₀ s) (x1 : Nat) : Good s₀ (stopTile s x1) := by
  unfold stopTile
  with_reducible repeat' first | assumption | apply forceDown_good | apply State_setTf_good | apply State_modTile_good

theorem progFault_good (h : Good s₀ s) (x1 x2 : Nat) (x3 x4 : Nat) : Good s₀ (progFault s x1 x2 x3 x4) := by
  unfold progFault
  with_reducible repeat' first | assumption | apply reportTile_good | apply recordFault_good | apply stopTile_good | refine ite_good ?_ ?_

theorem endBarrierWait_good (h : Good s₀ s) (x1 : Nat) (x2 x3 : Bool) : Good s₀ (endBarrierWait s x1 x2 x3) := by
  unfold endBarrierWait
  with_reducible repeat' first | assumption | apply progFault_good | apply State_setTf_good | apply State_modTile_good | refine ite_good ?_ ?_

theorem releaseHold_good (h : Good s₀ s) (x1 : Nat) : Good s₀ (releaseHold s x1) := by
  unfold releaseHold
  repeat' first
    | with_reducible assumption | with_reducible apply drainAll_good | with_reducible apply State_setTf_good | with_reducible apply endBarrierWait_good
    | with_reducible apply State_modTile_good | with_reducible refine ite_good ?_ ?_ | split

theorem settle_good (h : Good s₀ s) (x1 : Nat) : Good s₀ (settle s x1) := by
  unfold settle
  with_reducible repeat' first
    | assumption | apply clockRest_good | apply State_setTstate_good | apply wake_good | apply releaseHold_good | refine ite_good ?_ ?_

theorem advance_good (h : Good s₀ s) (x1 : Nat) : Good s₀ (advance s x1) := by
  unfold advance
  with_reducible repeat' first | assumption | apply State_setTf_good | apply State_modCtx_good

theorem clockLanes_good (h : Good s₀ s) (x1 : Nat) (x2 : Engine) : Good s₀ (clockLanes s x1 x2) := by
  unfold clockLanes
  with_reducible repeat' first | assumption | apply clockUp_good | refine ite_good ?_ ?_

theorem atIssue_good (h : Good s₀ s) (x1 : Nat) (x2 : Engine) (x3 : Bool) (x4 : Nat → Nat → State) (hx4 : ∀ y0 y1, Good s₀ (x4 y0 y1)) : Good s₀ (atIssue s x1 x2 x3 x4) := by
  unfold atIssue
  repeat' first
    | with_reducible assumption | with_reducible apply hx4 | with_reducible apply progFault_good | with_reducible apply settle_good
    | with_reducible refine ite_good ?_ ?_ | split | (refine good_mk ?_; dsimp only; with_reducible refine good_p ?_)

theorem issue_good (h : Good s₀ s) (x1 : Nat) (x2 : IssueReq) (x3 : Queued → State → State) (hx3 : ∀ y0 y1, Good s₀ y1 → Good s₀ (x3 y0 y1)) : Good s₀ (issue s x1 x2 x3) := by
  unfold issue
  repeat' first
    | with_reducible assumption | with_reducible apply hx3 | with_reducible apply atHead_good | with_reducible apply settle_good
    | with_reducible apply advance_good | with_reducible apply clockLanes_good | with_reducible apply atIssue_good
    | with_reducible apply State_modTile_good | with_reducible refine ite_good ?_ ?_ | split | with_reducible intro _

theorem noteRow_good (h : Good s₀ s) (x1 x2 : Nat) : Good s₀ (noteRow s x1 x2) := by
  unfold noteRow
  repeat' first | with_reducible assumption | (refine good_mk ?_; dsimp only; with_reducible refine good_p ?_)

theorem applySignal_good (h : Good s₀ s) (x1 x2 : Nat) (x3 x4 : Nat) (x5 : Engine) (x6 : Nat) : Good s₀ (applySignal s x1 x2 x3 x4 x5 x6) := by
  unfold applySignal
  with_reducible repeat' first | assumption | apply drainIf_good | apply State_setTf_good | refine ite_good ?_ ?_

theorem gbMakeRoom_good (h : Good s₀ s) (x1 : Nat) : Good s₀ (gbMakeRoom s x1) := by
  unfold gbMakeRoom
  repeat' first
    | with_reducible assumption | with_reducible apply drainRow_good | with_reducible apply State_modTile_good | with_reducible refine ite_good ?_ ?_
    | split

theorem gbWriteRow_good (h : Good s₀ s) (x1 x2 x3 : Nat) (x4 : List Byte) (x5 : Bool) : Good s₀ (gbWriteRow s x1 x2 x3 x4 x5) := by
  unfold gbWriteRow
  with_reducible repeat' first | assumption | apply gbMakeRoom_good | apply drainRow_good | apply State_modTile_good | refine ite_good ?_ ?_

theorem gbWrite_good (h : Good s₀ s) (x1 x2 : Nat) (x3 : List Byte) (x4 : Bool) : Good s₀ (gbWrite s x1 x2 x3 x4) := by
  unfold gbWrite
  with_reducible repeat' first | assumption | apply gbWriteRow_good | (refine foldl_good (fun _ _ _ => ?_) _ _ ?_)

theorem setGroupState_good (h : Good s₀ s) (x1 x2 x3 : Nat) : Good s₀ (setGroupState s x1 x2 x3) := by
  unfold setGroupState
  with_reducible repeat' first | assumption | apply State_setTf_good

theorem answerRead_good (h : Good s₀ s) (x1 : ReadBy) (x2 : Nat) (x3 : List Byte) : Good s₀ (answerRead s x1 x2 x3) := by
  unfold answerRead
  repeat' first
    | with_reducible assumption | with_reducible apply State_post_good | with_reducible apply sendResponse_good | with_reducible apply sendRows_good
    | with_reducible refine ite_good ?_ ?_ | split

theorem answerMerged_good (h : Good s₀ s) (x1 : List MergedRead) : Good s₀ (answerMerged s x1) := by
  unfold answerMerged
  repeat' first
    | with_reducible assumption | with_reducible apply answerRead_good | with_reducible apply State_send_good
    | with_reducible (refine foldl_good (fun _ _ _ => ?_) _ _ ?_) | split | (refine good_mk ?_; dsimp only; with_reducible refine good_p ?_)

theorem addFlight_good (h : Good s₀ s) (x1 : Nat) (x2 : Flight) : Good s₀ (addFlight s x1 x2) := by
  unfold addFlight
  with_reducible repeat' first | assumption | apply State_modTile_good

theorem signal_good (h : Good s₀ s) (x1 x2 : Nat) (x3 x4 : Nat) (x5 : Engine) (x6 : Nat) : Good s₀ (signal s x1 x2 x3 x4 x5 x6) := by
  unfold signal
  with_reducible repeat' first | assumption | apply progFault_good | apply applySignal_good | apply State_modTile_good | refine ite_good ?_ ?_

theorem chk_good {α : Type} (h : Good s₀ s) (x2 x3 : Nat) (x4 : Chk α) (x5 : α → State) (hx5 : ∀ y0, Good s₀ (x5 y0)) : Good s₀ (chk s x2 x3 x4 x5) := by
  unfold chk
  repeat' first | with_reducible assumption | with_reducible apply hx5 | with_reducible apply progFault_good | split

theorem State_logSec_good (h : Good s₀ s) (x1 x2 : Nat) : Good s₀ (State.logSec s x1 x2) := by
  unfold State.logSec
  with_reducible repeat' first | assumption | apply State_submit_good

theorem State_logOp_good (h : Good s₀ s) (x1 x2 : Nat) : Good s₀ (State.logOp s x1 x2) := by
  unfold State.logOp
  with_reducible repeat' first | assumption | apply State_submit_good

theorem gbFill_good (h : Good s₀ s) (x1 x2 x3 : Nat) : Good s₀ (gbFill s x1 x2 x3) := by
  unfold gbFill
  with_reducible repeat' first
    | assumption | apply gbMakeRoom_good | apply State_modTile_good | (refine foldl_good (fun _ _ _ => ?_) _ _ ?_) | refine ite_good ?_ ?_

theorem setA_good (h : Good s₀ s) (x1 x2 x3 : Nat) (x4 : Word) : Good s₀ (setA s x1 x2 x3 x4) := by
  unfold setA
  with_reducible repeat' first | assumption | apply State_modCtx_good

theorem complete_good (h : Good s₀ s) (x1 x2 : Nat) (x3 : Option Nat) (x4 : Nat) (x5 : Engine) (x6 : Nat) : Good s₀ (complete s x1 x2 x3 x4 x5 x6) := by
  unfold complete
  repeat' first | with_reducible assumption | with_reducible apply signal_good | split

theorem State_freeNat_good (h : Good s₀ s) : Good s₀ (State.freeNat s).2 := by
  unfold State.freeNat
  repeat' first | with_reducible assumption | (refine good_mk ?_; dsimp only; with_reducible refine good_p ?_)

theorem State_freeNat_good' {a} {t : State}   (ht : (State.freeNat s) = (a, t)) (h : Good s₀ s) : Good s₀ t := by
  have := State_freeNat_good h ; rw [ht] at this; exact this

theorem ownWr_good (h : Good s₀ s) (x1 x2 : Nat) (x3 : List Byte) : Good s₀ (ownWr s x1 x2 x3) := by
  unfold ownWr
  with_reducible repeat' first | assumption | apply wr_good | apply drainRow_good | apply State_modTile_good | (refine foldl_good (fun _ _ _ => ?_) _ _ ?_)

theorem leaveJob_good (h : Good s₀ s) : Good s₀ (leaveJob s) := by
  unfold leaveJob
  repeat' first
    | with_reducible assumption | with_reducible apply sendCtrl_good | with_reducible refine ite_good ?_ ?_
    | (refine good_mk ?_; dsimp only; with_reducible refine good_p ?_)

theorem setV_good (h : Good s₀ s) (x1 x2 x3 : Nat) (x4 : Vec) : Good s₀ (setV s x1 x2 x3 x4) := by
  unfold setV
  with_reducible repeat' first | assumption | apply State_modCtx_good

theorem dropFlight_good (h : Good s₀ s) (x1 x2 : Nat) : Good s₀ (dropFlight s x1 x2) := by
  unfold dropFlight
  with_reducible repeat' first | assumption | apply State_modTile_good

theorem setS_good (h : Good s₀ s) (x1 x2 x3 : Nat) (x4 : Word) : Good s₀ (setS s x1 x2 x3 x4) := by
  unfold setS
  with_reducible repeat' first | assumption | apply State_modCtx_good

theorem fenceTile_good (h : Good s₀ s) (x1 : Nat) : Good s₀ (fenceTile s x1) := by
  unfold fenceTile
  with_reducible repeat' first
    | assumption | apply forceDown_good | apply answerRead_good | apply State_setTstate_good | apply State_modTile_good
    | (refine foldl_good (fun _ _ _ => ?_) _ _ ?_)

theorem hardFault_good (h : Good s₀ s) (x1 x2 : Nat) (x3 x4 : Nat) : Good s₀ (hardFault s x1 x2 x3 x4) := by
  unfold hardFault
  repeat' first
    | with_reducible assumption | with_reducible apply reportTile_good | with_reducible apply leaveJob_good | with_reducible apply recordFault_good
    | with_reducible apply stopTile_good | with_reducible apply fenceTile_good | with_reducible refine ite_good ?_ ?_ | split
    | (refine good_mk ?_; dsimp only; with_reducible refine good_p ?_)

theorem parityEffect_good (h : Good s₀ s) (x1 x2 : Nat) (x3 : Parity) : Good s₀ (parityEffect s x1 x2 x3) := by
  unfold parityEffect
  repeat' first
    | with_reducible assumption | with_reducible apply noteRow_good | with_reducible apply State_setTf_good | with_reducible apply hardFault_good | split

theorem setP_good (h : Good s₀ s) (x1 x2 x3 : Nat) (x4 : Pred) : Good s₀ (setP s x1 x2 x3 x4) := by
  unfold setP
  with_reducible repeat' first | assumption | apply State_modCtx_good | refine ite_good ?_ ?_

theorem storeReg_good (h : Good s₀ s) (x1 : Nat) (x2 : Word) : Good s₀ (storeReg s x1 x2) := by
  unfold storeReg
  repeat' first | with_reducible assumption | with_reducible apply setReg_good | split

/-! ### Transfer -/

theorem addOutst_good (h : Good s₀ s) (x1 : Nat) (x2 : Outst) : Good s₀ (addOutst s x1 x2) := by
  unfold addOutst
  with_reducible repeat' first | assumption | apply State_modTile_good

theorem endOutst_good (h : Good s₀ s) (x1 : Nat) (x2 : Outst) : Good s₀ (endOutst s x1 x2) := by
  unfold endOutst
  repeat' first
    | with_reducible assumption | with_reducible apply complete_good | with_reducible apply State_modTile_good | with_reducible refine ite_good ?_ ?_
    | split

theorem newTag_good (h : Good s₀ s) (x1 : Nat) : Good s₀ (newTag s x1).2 := by
  unfold newTag
  with_reducible repeat' first | assumption | apply State_modTile_good

theorem newTag_good' {a} {t : State} {x1 : Nat}  (ht : (newTag s x1) = (a, t)) (h : Good s₀ s) : Good s₀ t := by
  have := newTag_good h x1; rw [ht] at this; exact this

theorem injectMsg_good (h : Good s₀ s) (x1 x2 x3 : Nat) (x4 : Engine) (x5 : Option Nat) (x6 x7 : Nat) (x8 : Desc) (x9 : List Byte) : Good s₀ (injectMsg s x1 x2 x3 x4 x5 x6 x7 x8 x9) := by
  unfold injectMsg
  with_reducible repeat' first
    | assumption | apply State_post_good | apply endOutst_good | apply newTag_good | apply State_setTf_good | apply cxtEmit_good | apply addOutst_good
    | (refine foldl_good (fun _ _ _ => ?_) _ _ ?_) | refine ite_good ?_ ?_

theorem dmafShort_good (h : Good s₀ s) (x1 x2 : Nat) : Good s₀ (dmafShort s x1 x2) := by
  unfold dmafShort
  repeat' first
    | with_reducible assumption | with_reducible apply complete_good | with_reducible apply dropFlight_good | with_reducible apply State_modTile_good
    | with_reducible (refine foldl_good (fun _ _ _ => ?_) _ _ ?_) | with_reducible refine ite_good ?_ ?_ | split

theorem sendWrites_good (h : Good s₀ s) (x1 x2 x3 : Nat) (x4 : Engine) (x5 x6 : Option Nat) (x7 x8 : Nat) (x9 x10 : Nat) (x11 : List Byte) : Good s₀ (sendWrites s x1 x2 x3 x4 x5 x6 x7 x8 x9 x10 x11) := by
  unfold sendWrites
  with_reducible repeat' first
    | assumption | apply State_post_good | apply endOutst_good | apply newTag_good | apply cxtEmit_good | apply addOutst_good
    | (refine foldl_good (fun _ _ _ => ?_) _ _ ?_) | refine ite_good ?_ ?_

theorem dmafRows_good_rec : ∀ (x4 : Nat) {s : State} (_ : Good s₀ s) (x1 : Nat) (x2 : Flight) (x3 : DmaJob), Good s₀ (dmafRows s x1 x2 x3 x4).1 := by
  intro x4
  induction x4 with
  | zero =>
    intro s h x1 x2 x3
    unfold dmafRows
    with_reducible repeat' first | assumption

  | succ n ih =>
    intro s h x1 x2 x3
    unfold dmafRows
    repeat' first
      | with_reducible assumption | with_reducible apply ih | with_reducible apply sendWrites_good | split
      | (refine good_mk ?_; dsimp only; with_reducible refine good_p ?_)

theorem dmafRows_good (h : Good s₀ s) (x1 : Nat) (x2 : Flight) (x3 : DmaJob) (x4 : Nat) : Good s₀ (dmafRows s x1 x2 x3 x4).1 := dmafRows_good_rec x4 h x1 x2 x3

theorem dmafRows_good' {a} {t : State} {x1 : Nat} {x2 : Flight} {x3 : DmaJob} {x4 : Nat}  (ht : (dmafRows s x1 x2 x3 x4) = (t, a)) (h : Good s₀ s) : Good s₀ t := by
  have := dmafRows_good h x1 x2 x3 x4; rw [ht] at this; exact this

theorem dmafForward_good (h : Good s₀ s) (x1 : Nat) : Good s₀ (dmafForward s x1) := by
  unfold dmafForward
  repeat' first
    | with_reducible assumption | with_reducible apply endOutst_good | with_reducible apply newTag_good | with_reducible apply dmafRows_good
    | with_reducible apply dropFlight_good | with_reducible apply State_modTile_good | with_reducible apply addOutst_good
    | with_reducible (refine foldl_good (fun _ _ _ => ?_) _ _ ?_) | with_reducible refine ite_good ?_ ?_ | split

theorem answerTransfer_good (h : Good s₀ s) (x1 x2 x3 : Nat) : Good s₀ (answerTransfer s x1 x2 x3) := by
  unfold answerTransfer
  repeat' first
    | with_reducible assumption | with_reducible apply endOutst_good | with_reducible apply progFault_good | with_reducible apply State_setTf_good
    | with_reducible apply State_modTile_good | with_reducible refine ite_good ?_ ?_ | split

theorem trySend_good (h : Good s₀ s) (x1 x2 x3 : Nat) (x4 : Engine) (x5 : Option Nat) (x6 x7 : Nat) (x8 : Desc) (x9 : List Byte) : GoodO s₀ (trySend s x1 x2 x3 x4 x5 x6 x7 x8 x9) := by
  unfold trySend
  try dsimp only
  with_reducible repeat' first
    | assumption | apply endOutst_good | apply newTag_good | apply injectMsg_good | apply addOutst_good | refine goodO_none | refine goodO_ite ?_ ?_
    | refine goodO_some ?_

theorem trySend_good' {t : State} {x1 x2 x3 : Nat} {x4 : Engine} {x5 : Option Nat} {x6 x7 : Nat} {x8 : Desc} {x9 : List Byte}  (ht : (trySend s x1 x2 x3 x4 x5 x6 x7 x8 x9) = some t) (h : Good s₀ s) : Good s₀ t := trySend_good h x1 x2 x3 x4 x5 x6 x7 x8 x9 t ht

theorem sendJwrites_good (h : Good s₀ s) (x1 x2 x3 : Nat) (x4 x5 : Option Nat) (x6 x7 : Nat) (x8 : List Byte) : Good s₀ (sendJwrites s x1 x2 x3 x4 x5 x6 x7 x8) := by
  unfold sendJwrites
  with_reducible repeat' first
    | assumption | apply endOutst_good | apply newTag_good | apply cxtEmit_good | apply addOutst_good | (refine foldl_good (fun _ _ _ => ?_) _ _ ?_)
    | refine ite_good ?_ ?_

/-! ### Queue -/

theorem makeVisible_good (h : Good s₀ s) (x1 : Nat) (x2 : HeldDesc) (x3 : Nat) : Good s₀ (makeVisible s x1 x2 x3) := by
  unfold makeVisible
  with_reducible repeat' first | assumption | apply ownWr_good | apply State_setTf_good | apply signal_good | apply State_modTile_good | refine ite_good ?_ ?_

theorem releaseHeld_good_rec : ∀ (x3 : List HeldDesc) {s : State} (_ : Good s₀ s) (x1 : Nat) (x2 : List HeldDesc), Good s₀ (releaseHeld s x1 x2 x3) := by
  intro x3
  induction x3 with
  | nil =>
    intro s h x1 x2
    unfold releaseHeld
    with_reducible repeat' first | assumption | apply State_modTile_good

  | cons a l ih =>
    intro s h x1 x2
    unfold releaseHeld
    with_reducible repeat' first | assumption | apply ih | apply makeVisible_good | refine ite_good ?_ ?_

theorem releaseHeld_good (h : Good s₀ s) (x1 : Nat) (x2 x3 : List HeldDesc) : Good s₀ (releaseHeld s x1 x2 x3) := releaseHeld_good_rec x3 h x1 x2

theorem recheckHeld_good (h : Good s₀ s) (x1 : Nat) : Good s₀ (recheckHeld s x1) := by
  unfold recheckHeld
  with_reducible repeat' first | assumption | apply releaseHeld_good

theorem wicketTurned_good (h : Good s₀ s) (x1 x2 : Nat) : Good s₀ (wicketTurned s x1 x2) := by
  unfold wicketTurned
  with_reducible repeat' first | assumption | apply dmafShort_good | apply recheckHeld_good | apply State_modTile_good

theorem openWicket_good (h : Good s₀ s) (x1 x2 : Nat) : Good s₀ (openWicket s x1 x2) := by
  unfold openWicket
  with_reducible repeat' first
    | assumption | apply State_setTf_good | apply wicketTurned_good | (refine foldl_good (fun _ _ _ => ?_) _ _ ?_) | refine ite_good ?_ ?_

theorem effWopen_good (h : Good s₀ s) (x0 : Nat) (x1 : FmtD) (x2 : Queued) : Good s₀ (effWopen x0 x1 x2 s) := by
  unfold effWopen
  with_reducible repeat' first | assumption | apply progFault_good | apply complete_good | apply openWicket_good | refine ite_good ?_ ?_

theorem execWopen_good (h : Good s₀ s) (x0 : Nat) (x1 : FmtD) : ∃ t, (execWopen x0 x1 s) = .next t ∧ Good s₀ t := by
  refine ⟨_, rfl, ?_⟩
  with_reducible repeat' first | assumption | apply issue_good | apply effWopen_good | intro _

theorem sendCredit_good (h : Good s₀ s) (x1 : Freed) : Good s₀ (sendCredit s x1) := by
  unfold sendCredit
  with_reducible repeat' first | assumption | apply State_post_good | apply cxtEmit_good | refine ite_good ?_ ?_

theorem returnCredit_good (h : Good s₀ s) (x1 x2 : Nat) : Good s₀ (returnCredit s x1 x2) := by
  unfold returnCredit
  with_reducible repeat' first | assumption | apply sendCredit_good | apply State_modTile_good | (refine foldl_good (fun _ _ _ => ?_) _ _ ?_)

theorem freeCredit_good (h : Good s₀ s) (x1 x2 : Nat) (x3 : QMsg) (x4 x5 : Nat) : Good s₀ (freeCredit s x1 x2 x3 x4 x5) := by
  unfold freeCredit
  with_reducible repeat' first | assumption | apply returnCredit_good | apply State_modTile_good | refine ite_good ?_ ?_

theorem takeHead_good (h : Good s₀ s) (x1 x2 : Nat) (x3 x4 : Nat) (x5 x6 : Nat) : Good s₀ (takeHead s x1 x2 x3 x4 x5 x6) := by
  unfold takeHead
  with_reducible repeat' first
    | assumption | apply ownWr_good | apply progFault_good | apply State_setTf_good | apply setS_good | apply freeCredit_good | apply State_modTile_good
    | refine ite_good ?_ ?_

theorem sendGoes_good (h : Good s₀ s) (x1 : Nat) (x2 : Flight) : GoodO s₀ (sendGoes s x1 x2) := by
  unfold sendGoes
  try dsimp only
  repeat' first
    | with_reducible assumption | with_reducible apply trySend_good | with_reducible apply dropFlight_good | with_reducible refine goodO_none | split

theorem sendGoes_good' {t : State} {x1 : Nat} {x2 : Flight}  (ht : (sendGoes s x1 x2) = some t) (h : Good s₀ s) : Good s₀ t := sendGoes_good h x1 x2 t ht

theorem execSendInject_good (h : Good s₀ s) (x0 : Nat) : ∃ t, (execSendInject x0 s) = .next t ∧ Good s₀ t := by
  refine ⟨_, rfl, ?_⟩
  repeat' first
    | with_reducible assumption | with_reducible apply settle_good | with_reducible apply sendGoes_good
    | with_reducible (refine findSome_good (by assumption) (fun _ => ?_)) | with_reducible refine ite_good ?_ ?_ | split

theorem closeWicket_good (h : Good s₀ s) (x1 x2 : Nat) : Good s₀ (closeWicket s x1 x2) := by
  unfold closeWicket
  with_reducible repeat' first | assumption | apply State_setTf_good | apply wicketTurned_good | refine ite_good ?_ ?_

theorem effWclose_good (h : Good s₀ s) (x0 : Nat) (x1 : FmtD) (x2 : Queued) : Good s₀ (effWclose x0 x1 x2 s) := by
  unfold effWclose
  with_reducible repeat' first | assumption | apply progFault_good | apply closeWicket_good | apply addFlight_good | refine ite_good ?_ ?_

theorem execWclose_good (h : Good s₀ s) (x0 : Nat) (x1 : FmtD) : ∃ t, (execWclose x0 x1 s) = .next t ∧ Good s₀ t := by
  refine ⟨_, rfl, ?_⟩
  with_reducible repeat' first | assumption | apply issue_good | apply effWclose_good | intro _

theorem effQrel_good (h : Good s₀ s) (x0 : Nat) (x1 : FmtD) (x2 : Queued) : Good s₀ (effQrel x0 x1 x2 s) := by
  unfold effQrel
  repeat' first
    | with_reducible assumption | with_reducible apply progFault_good | with_reducible apply State_setTf_good | with_reducible apply freeCredit_good
    | with_reducible apply State_modTile_good | with_reducible refine ite_good ?_ ?_ | split

theorem execCreditReturnTimer_good (h : Good s₀ s) (x0 x1 : Nat) : ∃ t, (execCreditReturnTimer x0 x1 s) = .next t ∧ Good s₀ t := by
  refine ⟨_, rfl, ?_⟩
  with_reducible repeat' first | assumption | apply returnCredit_good | refine ite_good ?_ ?_

theorem answerTo_good (h : Good s₀ s) (x1 : Sender) (x2 x3 : Nat) : Good s₀ (answerTo s x1 x2 x3) := by
  unfold answerTo
  with_reducible repeat' first | assumption | apply State_post_good | apply State_logOp_good | refine ite_good ?_ ?_

theorem effSend_good (h : Good s₀ s) (x0 : Nat) (x1 : FmtD) (x2 : Queued) : Good s₀ (effSend x0 x1 x2 s) := by
  unfold effSend
  repeat' first
    | with_reducible assumption | with_reducible refine trySend_good' (by assumption) ?_ | with_reducible apply chk_good
    | with_reducible apply addFlight_good | split | (refine good_mk ?_; dsimp only; with_reducible refine good_p ?_) | with_reducible intro _

theorem execQrel_good (h : Good s₀ s) (x0 : Nat) (x1 : FmtD) : ∃ t, (execQrel x0 x1 s) = .next t ∧ Good s₀ t := by
  refine ⟨_, rfl, ?_⟩
  with_reducible repeat' first | assumption | apply effQrel_good | apply issue_good | intro _

theorem effRecv_good (h : Good s₀ s) (x0 : Nat) (x1 : FmtD) (x2 : Bool) (x3 : Queued) : Good s₀ (effRecv x0 x1 x2 x3 s) := by
  unfold effRecv
  repeat' first
    | with_reducible assumption | with_reducible apply progFault_good | with_reducible apply chk_good | with_reducible apply takeHead_good
    | with_reducible apply setS_good | with_reducible apply addFlight_good | with_reducible apply State_modTile_good | with_reducible refine ite_good ?_ ?_
    | split | with_reducible intro _

theorem execTryrecv_good (h : Good s₀ s) (x0 : Nat) (x1 : FmtD) : ∃ t, (execTryrecv x0 x1 s) = .next t ∧ Good s₀ t := by
  refine ⟨_, rfl, ?_⟩
  with_reducible repeat' first | assumption | apply issue_good | apply effRecv_good | intro _

theorem execRecv_good (h : Good s₀ s) (x0 : Nat) (x1 : FmtD) : ∃ t, (execRecv x0 x1 s) = .next t ∧ Good s₀ t := by
  refine ⟨_, rfl, ?_⟩
  with_reducible repeat' first | assumption | apply issue_good | apply effRecv_good | intro _

theorem execWicketCloseComplete_good (h : Good s₀ s) (x0 : Nat) : ∃ t, (execWicketCloseComplete x0 s) = .next t ∧ Good s₀ t := by
  refine ⟨_, rfl, ?_⟩
  repeat' first
    | with_reducible assumption | with_reducible apply settle_good | with_reducible apply complete_good | with_reducible apply dropFlight_good
    | with_reducible refine ite_good ?_ ?_ | split

theorem execSend_good (h : Good s₀ s) (x0 : Nat) (x1 : FmtD) : ∃ t, (execSend x0 x1 s) = .next t ∧ Good s₀ t := by
  refine ⟨_, rfl, ?_⟩
  with_reducible repeat' first | assumption | apply effSend_good | apply issue_good | intro _

theorem execCreditReturn_good (h : Good s₀ s) (x0 x1 : Nat) (x2 x3 : Nat) : ∃ t, (execCreditReturn x0 x1 x2 x3 s) = .next t ∧ Good s₀ t := by
  refine ⟨_, rfl, ?_⟩
  with_reducible repeat' first | assumption | apply State_unwire_good | apply State_setTf_good | refine ite_good ?_ ?_

theorem countDropped_good (h : Good s₀ s) (x1 : Nat) (x2 : Msg) : Good s₀ (countDropped s x1 x2) := by
  unfold countDropped
  with_reducible repeat' first | assumption | apply State_setTf_good | refine ite_good ?_ ?_

theorem acceptMsg_good (h : Good s₀ s) (x1 : Nat) (x2 : Msg) : Good s₀ (acceptMsg s x1 x2) := by
  unfold acceptMsg
  with_reducible repeat' first
    | assumption | apply ownWr_good | apply State_setTf_good | apply recheckHeld_good | apply State_modTile_good | refine ite_good ?_ ?_

theorem deliverDesc_good (h : Good s₀ s) (x1 : Nat) (x2 : Msg) : GoodOP s₀ (deliverDesc s x1 x2) := by
  unfold deliverDesc
  try dsimp only
  with_reducible repeat' first
    | assumption | apply settle_good | apply countDropped_good | apply acceptMsg_good | refine goodP_ite ?_ ?_ | refine goodP_none | refine goodP_some ?_

theorem deliverDesc_good' {a} {t : State} {x1 : Nat} {x2 : Msg}  (ht : (deliverDesc s x1 x2) = some (a, t)) (h : Good s₀ s) : Good s₀ t := deliverDesc_good h x1 x2 a t ht

theorem execRecvUnblock_good (h : Good s₀ s) (x0 : Nat) : ∃ t, (execRecvUnblock x0 s) = .next t ∧ Good s₀ t := by
  refine ⟨_, rfl, ?_⟩
  repeat' first
    | with_reducible assumption | with_reducible apply settle_good | with_reducible apply takeHead_good | with_reducible apply dropFlight_good
    | with_reducible apply wake_good | with_reducible apply State_modTile_good | with_reducible refine ite_good ?_ ?_ | split

theorem execDescriptorArrival_good (h : Good s₀ s) (x0 : Nat) (x1 : Msg) : ∃ t, (execDescriptorArrival x0 x1 s) = .next t ∧ Good s₀ t := by
  refine ⟨_, rfl, ?_⟩
  split
  · exact h
  · rename_i e
    split at e
    · cases e
    · exact answerTo_good (State_unwire_good (deliverDesc_good' e h) _) _ _ _

/-! ### Basin -/

theorem bktPut_good (h : Good s₀ s) (x1 x2 : Nat) (x3 x4 : Nat) (x5 x6 : Nat) : Good s₀ (bktPut s x1 x2 x3 x4 x5 x6) := by
  unfold bktPut
  with_reducible repeat' first | assumption | apply ownWr_good

theorem effBopen_good (h : Good s₀ s) (x0 : Nat) (x1 : FmtD) (x2 : Queued) : Good s₀ (effBopen x0 x1 x2 s) := by
  unfold effBopen
  with_reducible repeat' first | assumption | apply progFault_good | apply bktPut_good | apply State_modTile_good | refine ite_good ?_ ?_

theorem execBopen_good (h : Good s₀ s) (x0 : Nat) (x1 : FmtD) : ∃ t, (execBopen x0 x1 s) = .next t ∧ Good s₀ t := by
  refine ⟨_, rfl, ?_⟩
  with_reducible repeat' first | assumption | apply effBopen_good | apply issue_good | intro _

theorem addExact_good (h : Good s₀ s) (x1 x2 : Nat) (x3 x4 : Nat) (x5 : Num) : Good s₀ (addExact s x1 x2 x3 x4 x5) := by
  unfold addExact
  with_reducible repeat' first | assumption | apply ownWr_good | apply bktPut_good | refine ite_good ?_ ?_

theorem execBasinZeroComplete_good (h : Good s₀ s) (x0 x1 x2 : Nat) : ∃ t, (execBasinZeroComplete x0 x1 x2 s) = .next t ∧ Good s₀ t := by
  refine ⟨_, rfl, ?_⟩
  with_reducible repeat' first | assumption | apply ownWr_good | apply bktPut_good | apply State_modTile_good | refine ite_good ?_ ?_

theorem addFp32_good (h : Good s₀ s) (x1 x2 : Nat) (x3 x4 : Nat) (x5 : Num) : Good s₀ (addFp32 s x1 x2 x3 x4 x5) := by
  unfold addFp32
  with_reducible repeat' first | assumption | apply ownWr_good | apply bktPut_good | refine ite_good ?_ ?_

theorem deliverContrib_good (h : Good s₀ s) (x1 : Nat) (x2 : Msg) : GoodOP s₀ (deliverContrib s x1 x2) := by
  unfold deliverContrib
  try dsimp only
  repeat' first
    | with_reducible assumption | with_reducible apply addExact_good | with_reducible apply bktPut_good | with_reducible apply addFp32_good
    | with_reducible apply countDropped_good | with_reducible apply State_modTile_good | with_reducible (refine foldl_good (fun _ _ _ => ?_) _ _ ?_)
    | with_reducible refine goodP_ite ?_ ?_ | with_reducible refine goodP_none | with_reducible refine goodP_some ?_ | with_reducible refine ite_good ?_ ?_
    | split

theorem deliverContrib_good' {a} {t : State} {x1 : Nat} {x2 : Msg}  (ht : (deliverContrib s x1 x2) = some (a, t)) (h : Good s₀ s) : Good s₀ t := deliverContrib_good h x1 x2 a t ht

theorem execBasinContribution_good (h : Good s₀ s) (x0 : Nat) (x1 : Msg) : ∃ t, (execBasinContribution x0 x1 s) = .next t ∧ Good s₀ t := by
  refine ⟨_, rfl, ?_⟩
  repeat' first
    | with_reducible assumption | with_reducible apply State_unwire_good | with_reducible apply answerTo_good
    | with_reducible refine deliverContrib_good' (by assumption) ?_ | split

theorem execBasinBucketComplete_good (h : Good s₀ s) (x0 x1 x2 : Nat) : ∃ t, (execBasinBucketComplete x0 x1 x2 s) = .next t ∧ Good s₀ t := by
  refine ⟨_, rfl, ?_⟩
  with_reducible repeat' first
    | assumption | apply ownWr_good | apply bktPut_good | apply settle_good | apply signal_good | apply State_modTile_good
    | (refine foldl_good (fun _ _ _ => ?_) _ _ ?_) | refine ite_good ?_ ?_

/-! ### Scalar -/

theorem predicated_good (h : Good s₀ s) (x1 x2 : Nat) (x3 : BitVec 3) (x4 : State) (hx4 : Good s₀ x4) : Good s₀ (predicated s x1 x2 x3 x4) := by
  unfold predicated
  with_reducible repeat' first | assumption | refine ite_good ?_ ?_

theorem effSalui_good (h : Good s₀ s) (x0 : Nat) (x1 : FmtSI) (x2 : Queued) : Good s₀ (effSalui x0 x1 x2 s) := by
  unfold effSalui
  with_reducible repeat' first | assumption | apply setS_good | apply predicated_good

theorem effAop_good (h : Good s₀ s) (x0 : Nat) (x1 : FmtSI) (x2 : Queued) : Good s₀ (effAop x0 x1 x2 s) := by
  unfold effAop
  with_reducible repeat' first | assumption | apply setA_good | apply setS_good | apply predicated_good | refine ite_good ?_ ?_

theorem effScmp_good (h : Good s₀ s) (x0 : Nat) (x1 : FmtS3) (x2 : Queued) : Good s₀ (effScmp x0 x1 x2 s) := by
  unfold effScmp
  with_reducible repeat' first | assumption | apply setP_good | apply predicated_good

theorem effCsig_good (h : Good s₀ s) (x0 : Nat) (x1 : FmtC) (x2 : Queued) : Good s₀ (effCsig x0 x1 x2 s) := by
  unfold effCsig
  with_reducible repeat' first | assumption | apply signal_good

theorem execCsig_good (h : Good s₀ s) (x0 : Nat) (x1 : FmtC) : ∃ t, (execCsig x0 x1 s) = .next t ∧ Good s₀ t := by
  refine ⟨_, rfl, ?_⟩
  with_reducible repeat' first | assumption | apply issue_good | apply effCsig_good | intro _

theorem effSalu_good (h : Good s₀ s) (x0 : Nat) (x1 : FmtS3) (x2 : Queued) : Good s₀ (effSalu x0 x1 x2 s) := by
  unfold effSalu
  with_reducible repeat' first | assumption | apply setS_good | apply predicated_good

theorem effSld_good (h : Good s₀ s) (x0 : Nat) (x1 : FmtSI) (x2 : Queued) : Good s₀ (effSld x0 x1 x2 s) := by
  unfold effSld
  repeat' first
    | with_reducible assumption | with_reducible apply chk_good | with_reducible apply gbFill_good | with_reducible apply setS_good
    | with_reducible apply predicated_good | split | with_reducible intro _

theorem execSld_good (h : Good s₀ s) (x0 : Nat) (x1 : FmtSI) : ∃ t, (execSld x0 x1 s) = .next t ∧ Good s₀ t := by
  refine ⟨_, rfl, ?_⟩
  with_reducible repeat' first | assumption | apply issue_good | apply effSld_good | intro _

theorem execSalu_good (h : Good s₀ s) (x0 : Nat) (x1 : FmtS3) : ∃ t, (execSalu x0 x1 s) = .next t ∧ Good s₀ t := by
  refine ⟨_, rfl, ?_⟩
  with_reducible repeat' first | assumption | apply issue_good | apply effSalu_good | intro _

theorem writeConetag_good (h : Good s₀ s) (x1 x2 : Nat) (x3 : Word) : Good s₀ (writeConetag s x1 x2 x3) := by
  unfold writeConetag
  with_reducible repeat' first | assumption | apply State_setTf_good | apply storeReg_good

theorem effCrd_good (h : Good s₀ s) (x0 : Nat) (x1 : FmtC) (x2 : Queued) : Good s₀ (effCrd x0 x1 x2 s) := by
  unfold effCrd
  with_reducible repeat' first | assumption | apply setReg_good | apply setS_good | refine ite_good ?_ ?_

theorem execCrd_good (h : Good s₀ s) (x0 : Nat) (x1 : FmtC) : ∃ t, (execCrd x0 x1 s) = .next t ∧ Good s₀ t := by
  refine ⟨_, rfl, ?_⟩
  with_reducible repeat' first | assumption | apply issue_good | apply effCrd_good | intro _

theorem effSmul_good (h : Good s₀ s) (x0 : Nat) (x1 : FmtS3) (x2 : Queued) : Good s₀ (effSmul x0 x1 x2 s) := by
  unfold effSmul
  with_reducible repeat' first | assumption | apply setS_good | apply predicated_good

theorem clearSlots_good (h : Good s₀ s) (x1 x2 x3 : Nat) : Good s₀ (clearSlots s x1 x2 x3) := by
  unfold clearSlots
  with_reducible repeat' first | assumption | apply setReg_good | (refine foldl_good (fun _ _ _ => ?_) _ _ ?_) | refine ite_good ?_ ?_

theorem clearCone_good (h : Good s₀ s) (x1 : Nat) : Good s₀ (clearCone s x1) := by
  unfold clearCone
  with_reducible repeat' first | assumption | apply clearRegs_good

theorem tileRegStore_good (h : Good s₀ s) (x1 x2 x3 : Nat) (x4 : Word) : Good s₀ (tileRegStore s x1 x2 x3 x4) := by
  unfold tileRegStore
  with_reducible repeat' first
    | assumption | apply writeConetag_good | apply storeReg_good | apply clearCone_good | apply clearSlots_good | refine ite_good ?_ ?_

theorem effSst_good (h : Good s₀ s) (x0 : Nat) (x1 : FmtSI) (x2 : Queued) : Good s₀ (effSst x0 x1 x2 s) := by
  unfold effSst
  repeat' first
    | with_reducible assumption | with_reducible apply tileRegStore_good | with_reducible apply gbWrite_good | with_reducible apply chk_good
    | with_reducible apply predicated_good | split | with_reducible intro _

theorem execSst_good (h : Good s₀ s) (x0 : Nat) (x1 : FmtSI) : ∃ t, (execSst x0 x1 s) = .next t ∧ Good s₀ t := by
  refine ⟨_, rfl, ?_⟩
  with_reducible repeat' first | assumption | apply issue_good | apply effSst_good | intro _

theorem execAop_good (h : Good s₀ s) (x0 : Nat) (x1 : FmtSI) : ∃ t, (execAop x0 x1 s) = .next t ∧ Good s₀ t := by
  refine ⟨_, rfl, ?_⟩
  with_reducible repeat' first | assumption | apply issue_good | apply effAop_good | intro _

theorem execSmul_good (h : Good s₀ s) (x0 : Nat) (x1 : FmtS3) : ∃ t, (execSmul x0 x1 s) = .next t ∧ Good s₀ t := by
  refine ⟨_, rfl, ?_⟩
  with_reducible repeat' first | assumption | apply issue_good | apply effSmul_good | intro _

theorem execSalui_good (h : Good s₀ s) (x0 : Nat) (x1 : FmtSI) : ∃ t, (execSalui x0 x1 s) = .next t ∧ Good s₀ t := by
  refine ⟨_, rfl, ?_⟩
  with_reducible repeat' first | assumption | apply issue_good | apply effSalui_good | intro _

theorem execScmp_good (h : Good s₀ s) (x0 : Nat) (x1 : FmtS3) : ∃ t, (execScmp x0 x1 s) = .next t ∧ Good s₀ t := by
  refine ⟨_, rfl, ?_⟩
  with_reducible repeat' first | assumption | apply issue_good | apply effScmp_good | intro _

/-! ### Control -/

theorem sendArrival_good (h : Good s₀ s) (x1 x2 x3 : Nat) (x4 x5 : Bool) (x6 x7 : Bool) : Good s₀ (sendArrival s x1 x2 x3 x4 x5 x6 x7) := by
  unfold sendArrival
  with_reducible repeat' first | assumption | apply drainAll_good | apply State_setTf_good | apply State_modTile_good | apply State_send_good

theorem execHalt_good (h : Good s₀ s) (x0 : Nat) (x1 : FmtC) : ∃ t, (execHalt x0 x1 s) = .next t ∧ Good s₀ t := by
  refine ⟨_, rfl, ?_⟩
  with_reducible repeat' first
    | assumption | apply settle_good | apply advance_good | apply releaseGate_good | apply atIssue_good | apply State_modTile_good | intro _

theorem execBarr_good (h : Good s₀ s) (x0 : Nat) (x1 : FmtC) : ∃ t, (execBarr x0 x1 s) = .next t ∧ Good s₀ t := by
  refine ⟨_, rfl, ?_⟩
  with_reducible repeat' first
    | assumption | apply drainAll_good | apply progFault_good | apply settle_good | apply advance_good | apply atIssue_good | apply sendArrival_good
    | apply State_modTile_good | refine ite_good ?_ ?_ | intro _

theorem execLoop_good (h : Good s₀ s) (x0 : Nat) (x1 : FmtSI) : ∃ t, (execLoop x0 x1 s) = .next t ∧ Good s₀ t := by
  refine ⟨_, rfl, ?_⟩
  repeat' first
    | with_reducible assumption | with_reducible apply progFault_good | with_reducible apply settle_good | with_reducible apply State_setTf_good
    | with_reducible apply atIssue_good | with_reducible apply State_modCtx_good | with_reducible refine ite_good ?_ ?_ | split | with_reducible intro _

theorem execFence_good (h : Good s₀ s) (x0 : Nat) (x1 : FmtC) : ∃ t, (execFence x0 x1 s) = .next t ∧ Good s₀ t := by
  refine ⟨_, rfl, ?_⟩
  with_reducible repeat' first | assumption | apply settle_good | apply advance_good | apply atIssue_good | apply State_modTile_good | intro _

theorem takeBranch_good (h : Good s₀ s) (x1 x2 : Nat) (x3 x4 : Nat) (x5 : Option Nat) : Good s₀ (takeBranch s x1 x2 x3 x4 x5) := by
  unfold takeBranch
  repeat' first
    | with_reducible assumption | with_reducible apply progFault_good | with_reducible apply State_setTf_good | with_reducible apply setS_good
    | with_reducible apply State_modTile_good | with_reducible refine ite_good ?_ ?_ | split

theorem execBr_good (h : Good s₀ s) (x0 : Nat) (x1 : FmtSI) : ∃ t, (execBr x0 x1 s) = .next t ∧ Good s₀ t := by
  refine ⟨_, rfl, ?_⟩
  repeat' first
    | with_reducible assumption | with_reducible apply progFault_good | with_reducible apply settle_good | with_reducible apply advance_good
    | with_reducible apply atIssue_good | with_reducible apply takeBranch_good | with_reducible refine ite_good ?_ ?_ | split | with_reducible intro _

theorem execBarrierArrivalSend_good (h : Good s₀ s) (x0 : Nat) : ∃ t, (execBarrierArrivalSend x0 s) = .next t ∧ Good s₀ t := by
  refine ⟨_, rfl, ?_⟩
  repeat' first
    | with_reducible assumption | with_reducible apply settle_good | with_reducible apply sendArrival_good | with_reducible refine ite_good ?_ ?_ | split

theorem execCtx_good (h : Good s₀ s) (x0 : Nat) (x1 : FmtC) : ∃ t, (execCtx x0 x1 s) = .next t ∧ Good s₀ t := by
  refine ⟨_, rfl, ?_⟩
  repeat' first
    | with_reducible assumption | with_reducible apply progFault_good | with_reducible apply settle_good | with_reducible apply releaseGate_good
    | with_reducible apply atIssue_good | with_reducible apply State_modCtx_good | with_reducible apply State_modTile_good | split | with_reducible intro _

theorem execCwait_good (h : Good s₀ s) (x0 : Nat) (x1 : FmtC) : ∃ t, (execCwait x0 x1 s) = .next t ∧ Good s₀ t := by
  refine ⟨_, rfl, ?_⟩
  repeat' first
    | with_reducible assumption | with_reducible apply settle_good | with_reducible apply advance_good | with_reducible apply atIssue_good
    | with_reducible apply State_modTile_good | split | with_reducible intro _

theorem execTrap_good (h : Good s₀ s) (x0 : Nat) (x1 : FmtC) : ∃ t, (execTrap x0 x1 s) = .next t ∧ Good s₀ t := by
  refine ⟨_, rfl, ?_⟩
  with_reducible repeat' first
    | assumption | apply progFault_good | apply settle_good | apply State_setTf_good | apply advance_good | apply atIssue_good | intro _

theorem execBwait_good (h : Good s₀ s) (x0 : Nat) (x1 : FmtC) : ∃ t, (execBwait x0 x1 s) = .next t ∧ Good s₀ t := by
  refine ⟨_, rfl, ?_⟩
  repeat' first
    | with_reducible assumption | with_reducible apply settle_good | with_reducible apply advance_good | with_reducible apply atIssue_good
    | with_reducible apply State_modTile_good | split | with_reducible intro _

theorem execNop_good (h : Good s₀ s) (x0 : Nat) (x1 : FmtC) : ∃ t, (execNop x0 x1 s) = .next t ∧ Good s₀ t := by
  refine ⟨_, rfl, ?_⟩
  with_reducible repeat' first | assumption | apply settle_good | apply advance_good | apply atIssue_good | intro _

theorem execBrr_good (h : Good s₀ s) (x0 : Nat) (x1 : FmtS3) : ∃ t, (execBrr x0 x1 s) = .next t ∧ Good s₀ t := by
  refine ⟨_, rfl, ?_⟩
  repeat' first
    | with_reducible assumption | with_reducible apply progFault_good | with_reducible apply settle_good | with_reducible apply advance_good
    | with_reducible apply atIssue_good | with_reducible apply takeBranch_good | with_reducible refine ite_good ?_ ?_ | split | with_reducible intro _

/-! ### Remote -/

theorem closeQueue_good (h : Good s₀ s) (x1 x2 : Nat) : Good s₀ (closeQueue s x1 x2) := by
  unfold closeQueue
  with_reducible repeat' first | assumption | apply State_setTf_good | refine ite_good ?_ ?_

theorem startGroup_good (h : Good s₀ s) (x1 x2 x3 : Nat) : Good s₀ (startGroup s x1 x2 x3) := by
  unfold startGroup
  repeat' first | with_reducible assumption | with_reducible apply setGroupState_good | with_reducible apply State_modTile_good | split

theorem unbindTile_good (h : Good s₀ s) (x1 : Nat) : Good s₀ (unbindTile s x1) := by
  unfold unbindTile
  repeat' first
    | with_reducible assumption | with_reducible apply State_setTf_good | with_reducible apply setTile_good | with_reducible apply State_setTstate_good
    | with_reducible apply clearRegs_good | split | with_reducible refine dropMem_good ?_ _ _ rfl rfl rfl rfl rfl rfl

theorem ctxStart_good (h : Good s₀ s) (x1 x2 : Nat) : Good s₀ (ctxStart s x1 x2) := by
  unfold ctxStart
  with_reducible repeat' first | assumption | apply State_modCtx_good | apply clearRegs_good

theorem startTile_good (h : Good s₀ s) (x1 : Nat) : Good s₀ (startTile s x1) := by
  unfold startTile
  with_reducible repeat' first | assumption | apply ctxStart_good | apply wake_good | apply State_modTile_good

theorem tctlStart_good (h : Good s₀ s) (x1 : Nat) : Good s₀ (tctlStart s x1) := by
  unfold tctlStart
  with_reducible repeat' first | assumption | apply State_logOp_good | apply startTile_good | apply State_modTile_good | refine ite_good ?_ ?_

theorem execNsclrCone_good (h : Good s₀ s) (x0 : Nat) : ∃ t, (execNsclrCone x0 s) = .next t ∧ Good s₀ t := by
  refine ⟨_, rfl, ?_⟩
  with_reducible repeat' first | assumption | apply clearCone_good

theorem freeParity_good (h : Good s₀ s) (x1 x2 : Nat) : Good s₀ (freeParity s x1 x2).2 := by
  unfold freeParity
  with_reducible repeat' first | assumption | apply State_freeNat_good

theorem freeParity_good' {a} {t : State} {x1 x2 : Nat}  (ht : (freeParity s x1 x2) = (a, t)) (h : Good s₀ s) : Good s₀ t := by
  have := freeParity_good h x1 x2; rw [ht] at this; exact this

theorem mergeRead_good (h : Good s₀ s) (x1 : Nat) (x2 : ReadBy) (x3 x4 : Nat) (x5 : List Byte) : Good s₀ (mergeRead s x1 x2 x3 x4 x5) := by
  unfold mergeRead
  with_reducible repeat' first | assumption | apply answerRead_good | apply setTile_good | refine ite_good ?_ ?_

theorem execBarrierRelease_good (h : Good s₀ s) (x0 x1 : Nat) (x2 x3 : Nat) : ∃ t, (execBarrierRelease x0 x1 x2 x3 s) = .next t ∧ Good s₀ t := by
  refine ⟨_, rfl, ?_⟩
  with_reducible repeat' first | assumption | apply settle_good | apply State_unwire_good | apply State_setTf_good | refine ite_good ?_ ?_

theorem execTransferAnswer_good (h : Good s₀ s) (x0 x1 x2 : Nat) : ∃ t, (execTransferAnswer x0 x1 x2 s) = .next t ∧ Good s₀ t := by
  refine ⟨_, rfl, ?_⟩
  with_reducible repeat' first | assumption | apply settle_good | apply State_unwire_good | apply answerTransfer_good | refine ite_good ?_ ?_

theorem execEngineCheckFail_good (h : Good s₀ s) (x0 : Nat) (x1 : Engine) : ∃ t, (execEngineCheckFail x0 x1 s) = .next t ∧ Good s₀ t := by
  refine ⟨_, rfl, ?_⟩
  with_reducible repeat' first | assumption | apply hardFault_good

theorem rampedUp_good (h : Good s₀ s) (x1 : Nat) : Good s₀ (rampedUp s x1) := by
  unfold rampedUp
  with_reducible repeat' first | assumption | apply settle_good | apply State_modTile_good | apply dropUnits_good

theorem execRampUpStep_good (h : Good s₀ s) (x0 : Nat) : ∃ t, (execRampUpStep x0 s) = .next t ∧ Good s₀ t := by
  refine ⟨_, rfl, ?_⟩
  with_reducible repeat' first | assumption | apply rampedUp_good | apply State_modTile_good | refine ite_good ?_ ?_

theorem unhold_good (h : Good s₀ s) (x1 : Nat) : Good s₀ (unhold s x1) := by
  unfold unhold
  with_reducible repeat' first | assumption | apply settle_good | apply State_setTf_good | apply wake_good | refine ite_good ?_ ?_

theorem execTctlHold_good (h : Good s₀ s) (x0 : Nat) (x1 : Bool) : ∃ t, (execTctlHold x0 x1 s) = .next t ∧ Good s₀ t := by
  refine ⟨_, rfl, ?_⟩
  with_reducible repeat' first | assumption | apply State_setTf_good | apply unhold_good

theorem execWakeComplete_good (h : Good s₀ s) (x0 : Nat) : ∃ t, (execWakeComplete x0 s) = .next t ∧ Good s₀ t := by
  refine ⟨_, rfl, ?_⟩
  with_reducible repeat' first | assumption | apply settle_good | apply State_setTstate_good | refine ite_good ?_ ?_

theorem serveRead_good (h : Good s₀ s) (x1 x2 x3 : Nat) (x4 : Parity) : Good s₀ (serveRead s x1 x2 x3 x4).2.2 := by
  unfold serveRead
  repeat' first | with_reducible assumption | with_reducible apply parityEffect_good | split | (refine good_mk ?_; dsimp only; with_reducible refine good_p ?_)

theorem serveRead_good' {a b} {t : State} {x1 x2 x3 : Nat} {x4 : Parity}  (ht : (serveRead s x1 x2 x3 x4) = (a, b, t)) (h : Good s₀ s) : Good s₀ t := by
  have := serveRead_good h x1 x2 x3 x4; rw [ht] at this; exact this

theorem readAtPort_good (h : Good s₀ s) (x1 : Nat) (x2 : ReadBy) (x3 x4 : Nat) (x5 : Parity) : Good s₀ (readAtPort s x1 x2 x3 x4 x5) := by
  unfold readAtPort
  with_reducible repeat' first | assumption | apply mergeRead_good | apply answerRead_good | apply serveRead_good | refine ite_good ?_ ?_

theorem execStalledSignalApply_good (h : Good s₀ s) (x0 : Nat) : ∃ t, (execStalledSignalApply x0 s) = .next t ∧ Good s₀ t := by
  refine ⟨_, rfl, ?_⟩
  repeat' first
    | with_reducible assumption | with_reducible apply settle_good | with_reducible apply applySignal_good | with_reducible apply State_modTile_good
    | with_reducible refine ite_good ?_ ?_ | split

theorem acceptWrite_good (h : Good s₀ s) (x1 : Nat) (x2 : WritePkt) : Good s₀ (acceptWrite s x1 x2) := by
  unfold acceptWrite
  with_reducible repeat' first | assumption | apply settle_good | apply dmafForward_good | apply State_setTf_good | apply gbWrite_good | apply recheckHeld_good

theorem effSoak_good (h : Good s₀ s) (x0 : Nat) (x1 : FmtC) (x2 : Queued) : Good s₀ (effSoak x0 x1 x2 s) := by
  unfold effSoak
  with_reducible repeat' first | assumption | apply clockUp_good | apply addFlight_good | refine ite_good ?_ ?_

theorem deliverWrite_good (h : Good s₀ s) (x1 : Nat) (x2 : WritePkt) : GoodOP s₀ (deliverWrite s x1 x2) := by
  unfold deliverWrite
  try dsimp only
  with_reducible repeat' first
    | assumption | apply acceptWrite_good | apply State_setTf_good | refine goodP_ite ?_ ?_ | refine goodP_none | refine goodP_some ?_

theorem deliverWrite_good' {a} {t : State} {x1 : Nat} {x2 : WritePkt}  (ht : (deliverWrite s x1 x2) = some (a, t)) (h : Good s₀ s) : Good s₀ t := deliverWrite_good h x1 x2 a t ht

theorem execRemoteWritePacket_good (h : Good s₀ s) (x0 : Nat) (x1 : WritePkt) : ∃ t, (execRemoteWritePacket x0 x1 s) = .next t ∧ Good s₀ t := by
  refine ⟨_, rfl, ?_⟩
  repeat' first
    | with_reducible assumption | with_reducible apply State_unwire_good | with_reducible apply answerTo_good
    | with_reducible refine deliverWrite_good' (by assumption) ?_ | with_reducible apply State_modTile_good | with_reducible refine ite_good ?_ ?_ | split

theorem dropMatrix_good (h : Good s₀ s) (x1 : Nat) : Good s₀ (dropMatrix s x1) := by
  unfold dropMatrix
  with_reducible repeat' first | assumption | apply forceDown_good | apply State_modTile_good

theorem loadRemap_good (h : Good s₀ s) (x1 : Nat) : Good s₀ (loadRemap s x1) := by
  unfold loadRemap
  with_reducible repeat' first | assumption | apply State_modTile_good

theorem remapRows_good (h : Good s₀ s) (x1 : Nat) : Good s₀ (remapRows s x1) := by
  unfold remapRows
  repeat' first
    | with_reducible assumption | with_reducible (refine foldl_good (fun _ _ _ => ?_) _ _ ?_) | with_reducible refine ite_good ?_ ?_ | split
    | (refine good_mk ?_; dsimp only; with_reducible refine good_p ?_)

theorem taskEnd_good (h : Good s₀ s) (x1 x2 : Nat) : Good s₀ (taskEnd s x1 x2) := by
  unfold taskEnd
  with_reducible repeat' first
    | assumption | apply setGroupState_good | apply drainIf_good | apply closeWicket_good | apply dropMatrix_good | apply closeQueue_good
    | apply loadRemap_good | apply State_modTile_good | apply remapRows_good | (refine foldl_good (fun _ _ _ => ?_) _ _ ?_) | refine ite_good ?_ ?_

theorem execConetagWrite_good (h : Good s₀ s) (x0 : Nat) (x1 : Word) : ∃ t, (execConetagWrite x0 x1 s) = .next t ∧ Good s₀ t := by
  refine ⟨_, rfl, ?_⟩
  with_reducible repeat' first | assumption | apply writeConetag_good

theorem execGatherBufferIdleDrain_good (h : Good s₀ s) (x0 : Nat) : ∃ t, (execGatherBufferIdleDrain x0 s) = .next t ∧ Good s₀ t := by
  refine ⟨_, rfl, ?_⟩
  with_reducible repeat' first | assumption | apply drainAll_good

theorem execTctlFence_good (h : Good s₀ s) (x0 : Nat) : ∃ t, (execTctlFence x0 s) = .next t ∧ Good s₀ t := by
  refine ⟨_, rfl, ?_⟩
  with_reducible repeat' first | assumption | apply fenceTile_good | refine ite_good ?_ ?_

theorem bindTile_good (h : Good s₀ s) (x1 x2 : Nat) : Good s₀ (bindTile s x1 x2) := by
  unfold bindTile
  repeat' first
    | with_reducible assumption | with_reducible apply setReg_good | with_reducible apply setTile_good
    | with_reducible (refine foldl_good (fun _ _ _ => ?_) _ _ ?_) | (refine good_mk ?_; dsimp only; with_reducible refine good_p ?_)

theorem execRampDownEnd_good (h : Good s₀ s) (x0 : Nat) : ∃ t, (execRampDownEnd x0 s) = .next t ∧ Good s₀ t := by
  refine ⟨_, rfl, ?_⟩
  with_reducible repeat' first | assumption | apply State_setTstate_good | apply State_modTile_good | apply dropUnits_good | refine ite_good ?_ ?_

theorem execMergeWindowExpiry_good (h : Good s₀ s) (x0 x1 : Nat) : ∃ t, (execMergeWindowExpiry x0 x1 s) = .next t ∧ Good s₀ t := by
  refine ⟨_, rfl, ?_⟩
  with_reducible repeat' first | assumption | apply answerMerged_good | apply State_modTile_good

theorem releaseDie_good (h : Good s₀ s) (x1 x2 x3 : Nat) : Good s₀ (releaseDie s x1 x2 x3) := by
  unfold releaseDie
  with_reducible repeat' first | assumption | apply State_send_good | (refine foldl_good (fun _ _ _ => ?_) _ _ ?_) | refine ite_good ?_ ?_

theorem execDieBarrierArrival_good (h : Good s₀ s) (x0 x1 x2 : Nat) : ∃ t, (execDieBarrierArrival x0 x1 x2 s) = .next t ∧ Good s₀ t := by
  refine ⟨_, rfl, ?_⟩
  with_reducible repeat' first
    | assumption | apply releaseDie_good | apply State_unwire_good | apply State_setFld_good | apply State_send_good | refine ite_good ?_ ?_

theorem execRemoteReadRequest_good (h : Good s₀ s) (x0 : Nat) (x1 : ReadReq) (x2 : Parity) : ∃ t, (execRemoteReadRequest x0 x1 x2 s) = .next t ∧ Good s₀ t := by
  refine ⟨_, rfl, ?_⟩
  with_reducible repeat' first | assumption | apply State_unwire_good | apply readAtPort_good

theorem execSoakHoldEnd_good (h : Good s₀ s) (x0 : Nat) : ∃ t, (execSoakHoldEnd x0 s) = .next t ∧ Good s₀ t := by
  refine ⟨_, rfl, ?_⟩
  with_reducible repeat' first | assumption | apply rampDown_good | refine ite_good ?_ ?_

theorem execHeldPacketRecheck_good (h : Good s₀ s) (x0 : Nat) : ∃ t, (execHeldPacketRecheck x0 s) = .next t ∧ Good s₀ t := by
  refine ⟨_, rfl, ?_⟩
  repeat' first
    | with_reducible assumption | with_reducible apply answerTo_good | with_reducible refine deliverWrite_good' (by assumption) ?_
    | with_reducible apply State_modTile_good | split

theorem execHoldTakesEffect_good (h : Good s₀ s) (x0 : Nat) : ∃ t, (execHoldTakesEffect x0 s) = .next t ∧ Good s₀ t := by
  refine ⟨_, rfl, ?_⟩
  with_reducible repeat' first | assumption | apply settle_good | apply State_setTf_good | refine ite_good ?_ ?_

theorem execBankGroupPowered_good (h : Good s₀ s) (x0 x1 : Nat) : ∃ t, (execBankGroupPowered x0 x1 s) = .next t ∧ Good s₀ t := by
  refine ⟨_, rfl, ?_⟩
  with_reducible repeat' first | assumption | apply State_modTile_good | refine ite_good ?_ ?_

theorem tileReset_good (h : Good s₀ s) (x1 : Nat) : Good s₀ (tileReset s x1) := by
  unfold tileReset
  with_reducible repeat' first
    | assumption | apply forceDown_good | apply State_setTf_good | apply closeWicket_good | apply State_setTstate_good | apply closeQueue_good
    | apply State_modTile_good | apply clearRegs_good | (refine foldl_good (fun _ _ _ => ?_) _ _ ?_) | refine ite_good ?_ ?_

theorem execTctlReset_good (h : Good s₀ s) (x0 : Nat) : ∃ t, (execTctlReset x0 s) = .next t ∧ Good s₀ t := by
  refine ⟨_, rfl, ?_⟩
  with_reducible repeat' first | assumption | apply tileReset_good

theorem execGovernorGrant_good (h : Good s₀ s) (x0 : Nat) : ∃ t, (execGovernorGrant x0 s) = .next t ∧ Good s₀ t := by
  refine ⟨_, rfl, ?_⟩
  repeat' first
    | with_reducible assumption | with_reducible apply State_modTile_good | with_reducible refine ite_good ?_ ?_ | split
    | (refine good_mk ?_; dsimp only; with_reducible refine good_p ?_)

theorem latched_good (h : Good s₀ s) (x1 : Nat) : Good s₀ (latched s x1) := by
  unfold latched
  with_reducible repeat' first | assumption | apply startTile_good | refine ite_good ?_ ?_

theorem execTctlStart_good (h : Good s₀ s) (x0 : Nat) : ∃ t, (execTctlStart x0 s) = .next t ∧ Good s₀ t := by
  refine ⟨_, rfl, ?_⟩
  with_reducible repeat' first | assumption | apply tctlStart_good

theorem zeroGroup_good (h : Good s₀ s) (x1 x2 : Nat) : Good s₀ (zeroGroup s x1 x2) := by
  unfold zeroGroup
  with_reducible repeat' first | assumption | refine dropMem_good ?_ _ _ rfl rfl rfl rfl rfl rfl

theorem execWatchdogExpiry_good (h : Good s₀ s) (x0 : Nat) : ∃ t, (execWatchdogExpiry x0 s) = .next t ∧ Good s₀ t := by
  refine ⟨_, rfl, ?_⟩
  with_reducible repeat' first | assumption | apply reportTile_good | apply recordFault_good | refine ite_good ?_ ?_

theorem execNsclrSlot_good (h : Good s₀ s) (x0 : Nat) (x1 : BitVec 32) : ∃ t, (execNsclrSlot x0 x1 s) = .next t ∧ Good s₀ t := by
  refine ⟨_, rfl, ?_⟩
  with_reducible repeat' first | assumption | apply clearSlots_good

theorem execBankGroupZeroFillEnd_good (h : Good s₀ s) (x0 x1 : Nat) : ∃ t, (execBankGroupZeroFillEnd x0 x1 s) = .next t ∧ Good s₀ t := by
  refine ⟨_, rfl, ?_⟩
  repeat' first
    | with_reducible assumption | with_reducible apply setGroupState_good | with_reducible apply latched_good | with_reducible apply State_modTile_good
    | with_reducible apply zeroGroup_good | with_reducible refine ite_good ?_ ?_ | split

theorem execRampDownStep_good (h : Good s₀ s) (x0 : Nat) : ∃ t, (execRampDownStep x0 s) = .next t ∧ Good s₀ t := by
  refine ⟨_, rfl, ?_⟩
  with_reducible repeat' first | assumption | apply State_modTile_good

theorem execStalledSignalFault_good (h : Good s₀ s) (x0 : Nat) : ∃ t, (execStalledSignalFault x0 s) = .next t ∧ Good s₀ t := by
  refine ⟨_, rfl, ?_⟩
  repeat' first
    | with_reducible assumption | with_reducible apply progFault_good | with_reducible apply settle_good | with_reducible apply State_modTile_good
    | with_reducible refine ite_good ?_ ?_ | split

theorem execSoak_good (h : Good s₀ s) (x0 : Nat) (x1 : FmtC) : ∃ t, (execSoak x0 x1 s) = .next t ∧ Good s₀ t := by
  refine ⟨_, rfl, ?_⟩
  with_reducible repeat' first | assumption | apply effSoak_good | apply issue_good | intro _

/-! ### Events -/

theorem setEntry_good (h : Good s₀ s) (x1 x2 x3 : Nat) : Good s₀ (setEntry s x1 x2 x3) := by
  unfold setEntry
  with_reducible repeat' first | assumption | apply storeReg_good

theorem holdDie_good (h : Good s₀ s) (x1 : Nat) : Good s₀ (holdDie s x1) := by
  unfold holdDie
  with_reducible repeat' first | assumption | apply State_setTf_good | (refine foldl_good (fun _ _ _ => ?_) _ _ ?_)

theorem armDetour_good (h : Good s₀ s) (x1 : Nat) : Good s₀ (armDetour s x1) := by
  unfold armDetour
  with_reducible repeat' first | assumption | apply State_logOp_good | apply State_setFld_good | refine ite_good ?_ ?_

theorem noteRouter_good (h : Good s₀ s) (x1 : Nat × Nat × Nat) : Good s₀ (noteRouter s x1) := by
  unfold noteRouter
  repeat' first | with_reducible assumption | split | (refine good_mk ?_; dsimp only; with_reducible refine good_p ?_)

theorem loadDetour_good (h : Good s₀ s) (x1 : Nat × Nat × Nat) : Good s₀ (loadDetour s x1) := by
  unfold loadDetour
  with_reducible repeat' first
    | assumption | apply State_setFld_good | apply setEntry_good | apply holdDie_good | apply armDetour_good | apply noteRouter_good
    | (refine foldl_good (fun _ _ _ => ?_) _ _ ?_)

theorem loadDetours_good (h : Good s₀ s) : Good s₀ (loadDetours s) := by
  unfold loadDetours
  repeat' first
    | with_reducible assumption | with_reducible apply loadDetour_good | with_reducible (refine foldl_good (fun _ _ _ => ?_) _ _ ?_)
    | (refine good_mk ?_; dsimp only; with_reducible refine good_p ?_)

theorem hostIsLost_good (h : Good s₀ s) : Good s₀ (hostIsLost s) := by
  unfold hostIsLost
  repeat' first
    | with_reducible assumption | with_reducible apply State_logOp_good | with_reducible refine ite_good ?_ ?_
    | (refine good_mk ?_; dsimp only; with_reducible refine good_p ?_)

theorem ctrlAll_good (h : Good s₀ s) (x1 : List Nat) (x2 x3 : Nat) (x4 : List Byte) : Good s₀ (ctrlAll s x1 x2 x3 x4) := by
  unfold ctrlAll
  with_reducible repeat' first | assumption | apply sendCtrl_good | (refine foldl_good (fun _ _ _ => ?_) _ _ ?_)

theorem portGoesDown_good (h : Good s₀ s) (x1 x2 : Nat) : Good s₀ (portGoesDown s x1 x2) := by
  unfold portGoesDown
  repeat' first
    | with_reducible assumption | with_reducible apply State_logOp_good | with_reducible apply ctrlAll_good | with_reducible apply State_setPf_good
    | with_reducible refine ite_good ?_ ?_ | (refine good_mk ?_; dsimp only; with_reducible refine good_p ?_)

theorem ghFails_good (h : Good s₀ s) (x1 : Nat) : Good s₀ (ghFails s x1) := by
  unfold ghFails
  repeat' first | with_reducible assumption | split | (refine good_mk ?_; dsimp only; with_reducible refine good_p ?_)

theorem holdAll_good (h : Good s₀ s) : Good s₀ (holdAll s) := by
  unfold holdAll
  with_reducible repeat' first | assumption | apply holdDie_good | (refine foldl_good (fun _ _ _ => ?_) _ _ ?_)

theorem ldLost_good (h : Good s₀ s) (x1 x2 : Nat) : Good s₀ (ldLost s x1 x2) := by
  unfold ldLost
  with_reducible repeat' first | assumption | apply portGoesDown_good

theorem releaseTiles_good (h : Good s₀ s) (x1 : Nat) : Good s₀ (releaseTiles s x1) := by
  unfold releaseTiles
  with_reducible repeat' first | assumption | apply State_setTf_good | apply unhold_good | (refine foldl_good (fun _ _ _ => ?_) _ _ ?_)

theorem routerFails_good (h : Good s₀ s) (x1 x2 x3 : Nat) : Good s₀ (routerFails s x1 x2 x3) := by
  unfold routerFails
  repeat' first
    | with_reducible assumption | with_reducible apply dieReport_good | with_reducible apply State_logOp_good | with_reducible apply State_setFld_good
    | with_reducible apply leaveJob_good | with_reducible refine ite_good ?_ ?_ | (refine good_mk ?_; dsimp only; with_reducible refine good_p ?_)

theorem logAndTell_good (h : Good s₀ s) (x1 x2 : Nat) : Good s₀ (logAndTell s x1 x2) := by
  unfold logAndTell
  with_reducible repeat' first | assumption | apply hostEvent_good | apply State_logOp_good

end Sys2Proof.Machine
end

