-- ==== Sys2Proof/Laws/GoodEngines.lean ====
section
/-!
SUPPORT. `Good` for the vector, set and DMA engines, HBM and its update units: one lemma per operation.
-/

set_option linter.all false
set_option simprocs false

namespace Sys2Proof.Machine

variable {s₀ s : State}

/-! ### Vector -/

theorem effVld_good (h : Good s₀ s) (x0 : Nat) (x1 : FmtSI) (x2 : Queued) : Good s₀ (effVld x0 x1 x2 s) := by
  unfold effVld
  with_reducible repeat' first | assumption | apply chk_good | apply setV_good | refine ite_good ?_ ?_ | intro _

theorem effVst_good (h : Good s₀ s) (x0 : Nat) (x1 : FmtSI) (x2 : Queued) : Good s₀ (effVst x0 x1 x2 s) := by
  unfold effVst
  repeat' first
    | with_reducible assumption | with_reducible apply ownWr_good | with_reducible apply chk_good
    | with_reducible (refine foldl_good (fun _ _ _ => ?_) _ _ ?_) | with_reducible refine ite_good ?_ ?_ | split | with_reducible intro _

theorem execVst_good (h : Good s₀ s) (x0 : Nat) (x1 : FmtSI) : ∃ t, (execVst x0 x1 s) = .next t ∧ Good s₀ t := by
  refine ⟨_, rfl, ?_⟩
  with_reducible repeat' first | assumption | apply effVst_good | apply issue_good | intro _

theorem slotUpdate_good (h : Good s₀ s) (x1 x2 x3 : Nat) (x4 : Option ℤ) (x5 x6 : Nat) : Good s₀ (slotUpdate s x1 x2 x3 x4 x5 x6) := by
  unfold slotUpdate
  with_reducible repeat' first | assumption | apply State_setTf_good

theorem effAmax_good (h : Good s₀ s) (x0 : Nat) (x1 : FmtM) (x2 : Queued) : Good s₀ (effAmax x0 x1 x2 s) := by
  unfold effAmax
  repeat' first
    | with_reducible assumption | with_reducible apply progFault_good | with_reducible apply slotUpdate_good | with_reducible apply chk_good
    | with_reducible apply setS_good | with_reducible refine ite_good ?_ ?_ | split | with_reducible intro _

theorem effVop_good (h : Good s₀ s) (x0 : Nat) (x1 : FmtS3) (x2 : Queued) : Good s₀ (effVop x0 x1 x2 s) := by
  unfold effVop
  with_reducible repeat' first | assumption | apply setV_good

theorem execVop_good (h : Good s₀ s) (x0 : Nat) (x1 : FmtS3) : ∃ t, (execVop x0 x1 s) = .next t ∧ Good s₀ t := by
  refine ⟨_, rfl, ?_⟩
  with_reducible repeat' first | assumption | apply issue_good | apply effVop_good | intro _

theorem effVmovx_good (h : Good s₀ s) (x0 : Nat) (x1 : FmtSI) (x2 : Queued) : Good s₀ (effVmovx x0 x1 x2 s) := by
  unfold effVmovx
  with_reducible repeat' first | assumption | apply setS_good | apply setV_good | refine ite_good ?_ ?_

theorem execVmovx_good (h : Good s₀ s) (x0 : Nat) (x1 : FmtSI) : ∃ t, (execVmovx x0 x1 s) = .next t ∧ Good s₀ t := by
  refine ⟨_, rfl, ?_⟩
  with_reducible repeat' first | assumption | apply issue_good | apply effVmovx_good | intro _

theorem slotCount_good (h : Good s₀ s) (x1 x2 x3 : Nat) (x4 : BlockOut) : Good s₀ (slotCount s x1 x2 x3 x4) := by
  unfold slotCount
  with_reducible repeat' first | assumption | apply slotUpdate_good

theorem coneRecord_good (h : Good s₀ s) (x1 x2 : Nat) (x3 x4 : Nat) (x5 x6 : Nat) (x7 x8 x9 : Nat) (x10 : List Byte) : Good s₀ (coneRecord s x1 x2 x3 x4 x5 x6 x7 x8 x9 x10) := by
  unfold coneRecord
  with_reducible repeat' first | assumption | apply ownWr_good | apply State_setTf_good | apply chk_good | refine ite_good ?_ ?_ | intro _

theorem vcvtCone_good (h : Good s₀ s) (x1 x2 x3 : Nat) (x4 : List (List Num)) : Good s₀ (vcvtCone s x1 x2 x3 x4) := by
  unfold vcvtCone
  with_reducible repeat' first
    | assumption | apply State_setTf_good | apply coneRecord_good | (refine foldl_good (fun _ _ _ => ?_) _ _ ?_) | refine ite_good ?_ ?_

theorem effVcvt_good (h : Good s₀ s) (x0 : Nat) (x1 : FmtS3) (x2 : Queued) : Good s₀ (effVcvt x0 x1 x2 s) := by
  unfold effVcvt
  repeat' first
    | with_reducible assumption | with_reducible apply progFault_good | with_reducible apply slotCount_good | with_reducible apply slotUpdate_good
    | with_reducible apply State_freeNat_good | with_reducible apply setS_good | with_reducible apply vcvtCone_good | with_reducible apply setV_good
    | with_reducible (refine foldl_good (fun _ _ _ => ?_) _ _ ?_) | with_reducible refine ite_good ?_ ?_ | split
    | (refine good_mk ?_; dsimp only; with_reducible refine good_p ?_)

theorem effVred_good (h : Good s₀ s) (x0 : Nat) (x1 : FmtS3) (x2 : Queued) : Good s₀ (effVred x0 x1 x2 s) := by
  unfold effVred
  with_reducible repeat' first | assumption | apply setS_good

theorem execVld_good (h : Good s₀ s) (x0 : Nat) (x1 : FmtSI) : ∃ t, (execVld x0 x1 s) = .next t ∧ Good s₀ t := by
  refine ⟨_, rfl, ?_⟩
  with_reducible repeat' first | assumption | apply effVld_good | apply issue_good | intro _

theorem execVcvt_good (h : Good s₀ s) (x0 : Nat) (x1 : FmtS3) : ∃ t, (execVcvt x0 x1 s) = .next t ∧ Good s₀ t := by
  refine ⟨_, rfl, ?_⟩
  with_reducible repeat' first | assumption | apply effVcvt_good | apply issue_good | intro _

theorem effVstx_good (h : Good s₀ s) (x0 : Nat) (x1 : FmtS3) (x2 : Queued) : Good s₀ (effVstx x0 x1 x2 s) := by
  unfold effVstx
  repeat' first
    | with_reducible assumption | with_reducible apply ownWr_good | with_reducible apply chk_good
    | with_reducible (refine foldl_good (fun _ _ _ => ?_) _ _ ?_) | split | with_reducible intro _

theorem execVstx_good (h : Good s₀ s) (x0 : Nat) (x1 : FmtS3) : ∃ t, (execVstx x0 x1 s) = .next t ∧ Good s₀ t := by
  refine ⟨_, rfl, ?_⟩
  with_reducible repeat' first | assumption | apply effVstx_good | apply issue_good | intro _

theorem effVldx_good (h : Good s₀ s) (x0 : Nat) (x1 : FmtS3) (x2 : Queued) : Good s₀ (effVldx x0 x1 x2 s) := by
  unfold effVldx
  repeat' first | with_reducible assumption | with_reducible apply chk_good | with_reducible apply setV_good | split | with_reducible intro _

theorem execVred_good (h : Good s₀ s) (x0 : Nat) (x1 : FmtS3) : ∃ t, (execVred x0 x1 s) = .next t ∧ Good s₀ t := by
  refine ⟨_, rfl, ?_⟩
  with_reducible repeat' first | assumption | apply issue_good | apply effVred_good | intro _

theorem effVcmp_good (h : Good s₀ s) (x0 : Nat) (x1 : FmtS3) (x2 : Queued) : Good s₀ (effVcmp x0 x1 x2 s) := by
  unfold effVcmp
  with_reducible repeat' first | assumption | apply setP_good

theorem execVldx_good (h : Good s₀ s) (x0 : Nat) (x1 : FmtS3) : ∃ t, (execVldx x0 x1 s) = .next t ∧ Good s₀ t := by
  refine ⟨_, rfl, ?_⟩
  with_reducible repeat' first | assumption | apply effVldx_good | apply issue_good | intro _

theorem execAmax_good (h : Good s₀ s) (x0 : Nat) (x1 : FmtM) : ∃ t, (execAmax x0 x1 s) = .next t ∧ Good s₀ t := by
  refine ⟨_, rfl, ?_⟩
  with_reducible repeat' first | assumption | apply issue_good | apply effAmax_good | intro _

theorem execVcmp_good (h : Good s₀ s) (x0 : Nat) (x1 : FmtS3) : ∃ t, (execVcmp x0 x1 s) = .next t ∧ Good s₀ t := by
  refine ⟨_, rfl, ?_⟩
  with_reducible repeat' first | assumption | apply issue_good | apply effVcmp_good | intro _

/-! ### Set -/

theorem setKind_good (h : Good s₀ s) (x1 x2 : Nat) (x3 : FlightKind) : Good s₀ (setKind s x1 x2 x3) := by
  unfold setKind
  with_reducible repeat' first | assumption | apply State_modTile_good

theorem askElems_good_rec : ∀ (x7 : List (Nat × Nat)) {s : State} (_ : Good s₀ s) (x1 x2 : Nat) (x3 : List (Nat × List Byte)) (x4 x5 x6 : Nat), Good s₀ (askElems s x1 x2 x3 x4 x5 x6 x7) := by
  intro x7
  induction x7 with
  | nil =>
    intro s h x1 x2 x3 x4 x5 x6
    unfold askElems
    with_reducible repeat' first | assumption | apply setKind_good

  | cons a l ih =>
    intro s h x1 x2 x3 x4 x5 x6
    unfold askElems
    with_reducible repeat' first
      | assumption | apply ih | apply State_post_good | apply newTag_good | apply setKind_good | apply State_modTile_good | refine ite_good ?_ ?_

theorem askElems_good (h : Good s₀ s) (x1 x2 : Nat) (x3 : List (Nat × List Byte)) (x4 x5 x6 : Nat) (x7 : List (Nat × Nat)) : Good s₀ (askElems s x1 x2 x3 x4 x5 x6 x7) := askElems_good_rec x7 h x1 x2 x3 x4 x5 x6

theorem sePump_good (h : Good s₀ s) (x1 : Nat) : Good s₀ (sePump s x1) := by
  unfold sePump
  with_reducible repeat' first | assumption | apply askElems_good | (refine foldl_good (fun _ _ _ => ?_) _ _ ?_)

theorem setFlight_good (h : Good s₀ s) (x1 : Nat) (x2 : FmtM) (x3 : Queued) (x4 : List Range) (x5 : List (Nat × List Byte)) (x6 : List (Nat × Nat)) : Good s₀ (setFlight s x1 x2 x3 x4 x5 x6) := by
  unfold setFlight
  with_reducible repeat' first | assumption | apply sePump_good | apply addFlight_good

theorem goScatter_good (h : Good s₀ s) (x1 : Nat) (x2 : FmtM) (x3 : Queued) (x4 : List Range) : Good s₀ (goScatter s x1 x2 x3 x4) := by
  unfold goScatter
  repeat' first | with_reducible assumption | with_reducible apply chk_good | with_reducible apply setFlight_good | split | with_reducible intro _

theorem goGather_good (h : Good s₀ s) (x1 : Nat) (x2 : FmtM) (x3 : Queued) (x4 : List Range) : Good s₀ (goGather s x1 x2 x3 x4) := by
  unfold goGather
  with_reducible repeat' first | assumption | apply chk_good | apply setFlight_good | intro _

theorem goHash_good (h : Good s₀ s) (x1 : Nat) (x2 : FmtM) (x3 : Queued) (x4 : List Range) : Good s₀ (goHash s x1 x2 x3 x4) := by
  unfold goHash
  with_reducible repeat' first | assumption | apply setFlight_good

theorem freeBytes_good (h : Good s₀ s) (x1 : Nat) : Good s₀ (freeBytes s x1).2 := by
  unfold freeBytes
  with_reducible repeat' first | assumption | apply State_freeNat_good

theorem freeBytes_good' {a} {t : State} {x1 : Nat}  (ht : (freeBytes s x1) = (a, t)) (h : Good s₀ s) : Good s₀ t := by
  have := freeBytes_good h x1; rw [ht] at this; exact this

theorem goSort_good (h : Good s₀ s) (x1 : Nat) (x2 : FmtM) (x3 : Queued) (x4 : List Range) : Good s₀ (goSort s x1 x2 x3 x4) := by
  unfold goSort
  with_reducible repeat' first | assumption | apply freeBytes_good | apply setFlight_good

theorem goInter_good (h : Good s₀ s) (x1 : Nat) (x2 : FmtM) (x3 : Queued) (x4 : List Range) : Good s₀ (goInter s x1 x2 x3 x4) := by
  unfold goInter
  with_reducible repeat' first | assumption | apply freeBytes_good | apply setFlight_good | refine ite_good ?_ ?_

theorem goMerge_good (h : Good s₀ s) (x1 : Nat) (x2 : FmtM) (x3 : Queued) (x4 : List Range) : Good s₀ (goMerge s x1 x2 x3 x4) := by
  unfold goMerge
  with_reducible repeat' first | assumption | apply freeBytes_good | apply setFlight_good | refine ite_good ?_ ?_

theorem effSet_good (h : Good s₀ s) (x0 : SetKind) (x1 : Nat) (x2 : FmtM) (x3 : Queued) : Good s₀ (effSet x0 x1 x2 x3 s) := by
  unfold effSet
  repeat' first
    | with_reducible assumption | with_reducible apply goScatter_good | with_reducible apply progFault_good | with_reducible apply goGather_good
    | with_reducible apply goHash_good | with_reducible apply goSort_good | with_reducible apply goInter_good | with_reducible apply chk_good
    | with_reducible apply goMerge_good | with_reducible refine ite_good ?_ ?_ | split

theorem execSsort_good (h : Good s₀ s) (x0 : Nat) (x1 : FmtM) : ∃ t, (execSsort x0 x1 s) = .next t ∧ Good s₀ t := by
  refine ⟨_, rfl, ?_⟩
  with_reducible repeat' first | assumption | apply issue_good | apply effSet_good | intro _

theorem execShash_good (h : Good s₀ s) (x0 : Nat) (x1 : FmtM) : ∃ t, (execShash x0 x1 s) = .next t ∧ Good s₀ t := by
  refine ⟨_, rfl, ?_⟩
  with_reducible repeat' first | assumption | apply issue_good | apply effSet_good | intro _

theorem landGather_good (h : Good s₀ s) (x1 x2 : Nat) (x3 x4 : Nat) (x5 : List Byte) : Good s₀ (landGather s x1 x2 x3 x4 x5) := by
  unfold landGather
  repeat' first | with_reducible assumption | with_reducible apply setKind_good | split

theorem execSmerge_good (h : Good s₀ s) (x0 : Nat) (x1 : FmtM) : ∃ t, (execSmerge x0 x1 s) = .next t ∧ Good s₀ t := by
  refine ⟨_, rfl, ?_⟩
  with_reducible repeat' first | assumption | apply issue_good | apply effSet_good | intro _

theorem execSscatter_good (h : Good s₀ s) (x0 : Nat) (x1 : FmtM) : ∃ t, (execSscatter x0 x1 s) = .next t ∧ Good s₀ t := by
  refine ⟨_, rfl, ?_⟩
  with_reducible repeat' first | assumption | apply issue_good | apply effSet_good | intro _

theorem execSinter_good (h : Good s₀ s) (x0 : Nat) (x1 : FmtM) : ∃ t, (execSinter x0 x1 s) = .next t ∧ Good s₀ t := by
  refine ⟨_, rfl, ?_⟩
  with_reducible repeat' first | assumption | apply issue_good | apply effSet_good | intro _

theorem execSetOpComplete_good (h : Good s₀ s) (x0 : Nat) : ∃ t, (execSetOpComplete x0 s) = .next t ∧ Good s₀ t := by
  refine ⟨_, rfl, ?_⟩
  repeat' first
    | with_reducible assumption | with_reducible apply ownWr_good | with_reducible apply settle_good | with_reducible apply complete_good
    | with_reducible apply dropFlight_good | with_reducible (refine foldl_good (fun _ _ _ => ?_) _ _ ?_) | with_reducible refine ite_good ?_ ?_ | split

theorem execSgather_good (h : Good s₀ s) (x0 : Nat) (x1 : FmtM) : ∃ t, (execSgather x0 x1 s) = .next t ∧ Good s₀ t := by
  refine ⟨_, rfl, ?_⟩
  with_reducible repeat' first | assumption | apply issue_good | apply effSet_good | intro _

/-! ### Dma -/

theorem bucketOut_good (h : Good s₀ s) (x1 x2 : Nat) (x3 : Desc) (x4 : Nat) (x5 x6 : List Byte) : Good s₀ (bucketOut s x1 x2 x3 x4 x5 x6).2.2 := by
  unfold bucketOut
  repeat' first
    | with_reducible assumption | with_reducible apply slotUpdate_good | with_reducible (refine foldl_good_third (fun _ _ _ => ?_) _ _ ?_)
    | with_reducible refine ite_good ?_ ?_ | split

theorem bucketOut_good' {a b} {t : State} {x1 x2 : Nat} {x3 : Desc} {x4 : Nat} {x5 x6 : List Byte}  (ht : (bucketOut s x1 x2 x3 x4 x5 x6) = (a, b, t)) (h : Good s₀ s) : Good s₀ t := by
  have := bucketOut_good h x1 x2 x3 x4 x5 x6; rw [ht] at this; exact this

theorem setJob_good (h : Good s₀ s) (x1 x2 : Nat) (x3 : DmaJob) : Good s₀ (setJob s x1 x2 x3) := by
  unfold setJob
  with_reducible repeat' first | assumption | apply State_modTile_good

theorem bucketGo_good (h : Good s₀ s) (x1 : Nat) (x2 : Flight) (x3 : DmaJob) : Good s₀ (bucketGo s x1 x2 x3) := by
  unfold bucketGo
  with_reducible repeat' first | assumption | apply ownWr_good | apply bucketOut_good | apply setJob_good | refine ite_good ?_ ?_

theorem askRead_good (h : Good s₀ s) (x1 x2 : Nat) (x3 : DmaJob) (x4 x5 x6 : Nat) : GoodO s₀ (askRead s x1 x2 x3 x4 x5 x6) := by
  unfold askRead
  try dsimp only
  repeat' first
    | with_reducible assumption | with_reducible apply State_post_good | with_reducible apply newTag_good | with_reducible apply cxtEmit_good
    | with_reducible apply State_modTile_good | with_reducible refine goodO_none | with_reducible refine goodO_ite ?_ ?_
    | with_reducible refine goodO_some ?_ | (refine good_mk ?_; dsimp only; with_reducible refine good_p ?_)

theorem askRead_good' {t : State} {x1 x2 : Nat} {x3 : DmaJob} {x4 x5 x6 : Nat}  (ht : (askRead s x1 x2 x3 x4 x5 x6) = some t) (h : Good s₀ s) : Good s₀ t := askRead_good h x1 x2 x3 x4 x5 x6 t ht

theorem pumpJob_good_rec : ∀ (x4 : Nat) {s : State} (_ : Good s₀ s) (x1 x2 : Nat) (x3 : DmaJob), Good s₀ (pumpJob s x1 x2 x3 x4) := by
  intro x4
  induction x4 with
  | zero =>
    intro s h x1 x2 x3
    unfold pumpJob
    with_reducible repeat' first | assumption | apply setJob_good

  | succ n ih =>
    intro s h x1 x2 x3
    unfold pumpJob
    repeat' first
      | with_reducible assumption | with_reducible apply ih | with_reducible apply State_post_good | with_reducible refine askRead_good' (by assumption) ?_
      | with_reducible apply setJob_good | with_reducible refine ite_good ?_ ?_ | split

theorem pumpJob_good (h : Good s₀ s) (x1 x2 : Nat) (x3 : DmaJob) (x4 : Nat) : Good s₀ (pumpJob s x1 x2 x3 x4) := pumpJob_good_rec x4 h x1 x2 x3

theorem pumpJobs_good_rec : ∀ (x2 : List (Nat × DmaJob)) {s : State} (_ : Good s₀ s) (x1 : Nat), Good s₀ (pumpJobs s x1 x2) := by
  intro x2
  induction x2 with
  | nil =>
    intro s h x1
    unfold pumpJobs
    with_reducible repeat' first | assumption

  | cons a l ih =>
    intro s h x1
    unfold pumpJobs
    with_reducible repeat' first | assumption | apply ih | apply pumpJob_good | refine ite_good ?_ ?_

theorem pumpJobs_good (h : Good s₀ s) (x1 : Nat) (x2 : List (Nat × DmaJob)) : Good s₀ (pumpJobs s x1 x2) := pumpJobs_good_rec x2 h x1

theorem dmaPump_good (h : Good s₀ s) (x1 : Nat) : Good s₀ (dmaPump s x1) := by
  unfold dmaPump
  with_reducible repeat' first | assumption | apply pumpJobs_good

theorem storeConv_good (h : Good s₀ s) (x1 x2 : Nat) (x3 : Desc) (x4 : Nat) (x5 : List Byte) : Good s₀ (storeConv s x1 x2 x3 x4 x5).2.2 := by
  unfold storeConv
  repeat' first
    | with_reducible assumption | with_reducible apply slotCount_good | with_reducible apply slotUpdate_good
    | with_reducible (refine foldl_good (fun _ _ _ => ?_) _ _ ?_) | with_reducible refine ite_good ?_ ?_ | split

theorem storeConv_good' {a b} {t : State} {x1 x2 : Nat} {x3 : Desc} {x4 : Nat} {x5 : List Byte}  (ht : (storeConv s x1 x2 x3 x4 x5) = (a, b, t)) (h : Good s₀ s) : Good s₀ t := by
  have := storeConv_good h x1 x2 x3 x4 x5; rw [ht] at this; exact this

theorem dmaStart_good (h : Good s₀ s) (x1 x2 : Nat) (x3 x4 : Nat) (x5 : DmaArgs) (x6 : List Range) : Good s₀ (dmaStart s x1 x2 x3 x4 x5 x6) := by
  unfold dmaStart
  repeat' first
    | with_reducible assumption | with_reducible apply bucketGo_good | with_reducible apply dmafForward_good | with_reducible apply sendJwrites_good
    | with_reducible apply dmaPump_good | with_reducible apply storeConv_good | with_reducible apply addFlight_good | with_reducible apply sendWrites_good
    | with_reducible refine ite_good ?_ ?_ | split

theorem effDma_good (h : Good s₀ s) (x0 x1 : Nat) (x2 : FmtD) (x3 : Queued) : Good s₀ (effDma x0 x1 x2 x3 s) := by
  unfold effDma
  with_reducible repeat' first | assumption | apply progFault_good | apply dmaStart_good | apply chk_good | refine ite_good ?_ ?_ | intro _

theorem execDmaf_good (h : Good s₀ s) (x0 : Nat) (x1 : FmtD) : ∃ t, (execDmaf x0 x1 s) = .next t ∧ Good s₀ t := by
  refine ⟨_, rfl, ?_⟩
  with_reducible repeat' first | assumption | apply issue_good | apply effDma_good | intro _

theorem landRead_good (h : Good s₀ s) (x1 x2 : Nat) (x3 x4 : Nat) (x5 : List Byte) : Good s₀ (landRead s x1 x2 x3 x4 x5) := by
  unfold landRead
  repeat' first
    | with_reducible assumption | with_reducible apply ownWr_good | with_reducible apply bucketGo_good | with_reducible apply setJob_good
    | with_reducible apply dmaPump_good | with_reducible refine ite_good ?_ ?_ | split

theorem readBack_good (h : Good s₀ s) (x1 x2 x3 : Nat) (x4 : List Byte) : Good s₀ (readBack s x1 x2 x3 x4) := by
  unfold readBack
  repeat' first
    | with_reducible assumption | with_reducible apply progFault_good | with_reducible apply landGather_good | with_reducible apply settle_good
    | with_reducible apply sePump_good | with_reducible apply dmaPump_good | with_reducible apply State_modTile_good | with_reducible apply landRead_good
    | with_reducible refine ite_good ?_ ?_ | split

theorem execDmas_good (h : Good s₀ s) (x0 : Nat) (x1 : FmtD) : ∃ t, (execDmas x0 x1 s) = .next t ∧ Good s₀ t := by
  refine ⟨_, rfl, ?_⟩
  with_reducible repeat' first | assumption | apply issue_good | apply effDma_good | intro _

theorem execRemoteReadResponse_good (h : Good s₀ s) (x0 x1 x2 : Nat) (x3 : List Byte) : ∃ t, (execRemoteReadResponse x0 x1 x2 x3 s) = .next t ∧ Good s₀ t := by
  refine ⟨_, rfl, ?_⟩
  with_reducible repeat' first | assumption | apply State_unwire_good | apply readBack_good | refine ite_good ?_ ?_

theorem dmamEnd_good (h : Good s₀ s) (x1 x2 : Nat) (x3 x4 : Nat) (x5 : Desc) : Good s₀ (dmamEnd s x1 x2 x3 x4 x5) := by
  unfold dmamEnd
  with_reducible repeat' first | assumption | apply endOutst_good | apply newTag_good | apply dropFlight_good | apply addOutst_good

theorem dmamServe_good (h : Good s₀ s) (x0 x1 : Nat) (x2 x3 : Nat) (x4 : Desc) (x5 : List Byte) (x7 : Word × Word) : Good s₀ (dmamServe x0 x1 x2 x3 x4 x5 s x7) := by
  unfold dmamServe
  repeat' first
    | with_reducible assumption | with_reducible refine trySend_good' (by assumption) ?_ | with_reducible apply sendJwrites_good
    | with_reducible apply addFlight_good | with_reducible apply sendWrites_good | with_reducible apply State_modTile_good | split
    | (refine good_mk ?_; dsimp only; with_reducible refine good_p ?_)

theorem effDmam_good (h : Good s₀ s) (x0 : Nat) (x1 : FmtD) (x2 : Queued) : Good s₀ (effDmam x0 x1 x2 s) := by
  unfold effDmam
  repeat' first
    | with_reducible assumption | with_reducible apply progFault_good | with_reducible apply dmamEnd_good | with_reducible apply dmamServe_good
    | with_reducible apply chk_good | with_reducible apply addFlight_good | with_reducible (refine foldl_good (fun _ _ _ => ?_) _ _ ?_) | split
    | (refine good_mk ?_; dsimp only; with_reducible refine good_p ?_) | with_reducible intro _

theorem execDmam_good (h : Good s₀ s) (x0 : Nat) (x1 : FmtD) : ∃ t, (execDmam x0 x1 s) = .next t ∧ Good s₀ t := by
  refine ⟨_, rfl, ?_⟩
  with_reducible repeat' first | assumption | apply effDmam_good | apply issue_good | intro _

theorem execDmal_good (h : Good s₀ s) (x0 : Nat) (x1 : FmtD) : ∃ t, (execDmal x0 x1 s) = .next t ∧ Good s₀ t := by
  refine ⟨_, rfl, ?_⟩
  with_reducible repeat' first | assumption | apply issue_good | apply effDma_good | intro _

theorem landConv_good (h : Good s₀ s) (x1 x2 : Nat) (x3 : Desc) (x4 : List Byte) : Good s₀ (landConv s x1 x2 x3 x4) := by
  unfold landConv
  with_reducible repeat' first | assumption | apply ownWr_good | apply slotUpdate_good | refine ite_good ?_ ?_

theorem execDmaComplete_good (h : Good s₀ s) (x0 x1 : Nat) : ∃ t, (execDmaComplete x0 x1 s) = .next t ∧ Good s₀ t := by
  refine ⟨_, rfl, ?_⟩
  repeat' first
    | with_reducible assumption | with_reducible apply settle_good | with_reducible apply complete_good | with_reducible apply dropFlight_good
    | with_reducible apply dmaPump_good | with_reducible apply landConv_good | with_reducible refine ite_good ?_ ?_ | split

theorem dmaxRun_good (h : Good s₀ s) (x1 : Nat) (x2 : Flight) (x3 x4 x5 : Nat) : GoodO s₀ (dmaxRun s x1 x2 x3 x4 x5) := by
  unfold dmaxRun
  try dsimp only
  repeat' first
    | with_reducible assumption | with_reducible apply progFault_good | with_reducible apply trySend_good | with_reducible apply dmaStart_good
    | with_reducible apply dropFlight_good | with_reducible apply State_modTile_good | with_reducible refine goodO_none
    | with_reducible refine goodO_ite ?_ ?_ | with_reducible refine goodO_some ?_ | with_reducible refine ite_good ?_ ?_ | split

theorem dmaxRun_good' {t : State} {x1 : Nat} {x2 : Flight} {x3 x4 x5 : Nat}  (ht : (dmaxRun s x1 x2 x3 x4 x5) = some t) (h : Good s₀ s) : Good s₀ t := dmaxRun_good h x1 x2 x3 x4 x5 t ht

theorem execDmar_good (h : Good s₀ s) (x0 : Nat) (x1 : FmtD) : ∃ t, (execDmar x0 x1 s) = .next t ∧ Good s₀ t := by
  refine ⟨_, rfl, ?_⟩
  with_reducible repeat' first | assumption | apply issue_good | apply effDma_good | intro _

theorem effDmax_good (h : Good s₀ s) (x0 : Nat) (x1 : FmtD) (x2 : Queued) : Good s₀ (effDmax x0 x1 x2 s) := by
  unfold effDmax
  with_reducible repeat' first | assumption | apply chk_good | apply addFlight_good | refine ite_good ?_ ?_ | intro _

theorem execDmax_good (h : Good s₀ s) (x0 : Nat) (x1 : FmtD) : ∃ t, (execDmax x0 x1 s) = .next t ∧ Good s₀ t := by
  refine ⟨_, rfl, ?_⟩
  with_reducible repeat' first | assumption | apply issue_good | apply effDmax_good | intro _

theorem execDmaxEntry_good (h : Good s₀ s) (x0 : Nat) : ∃ t, (execDmaxEntry x0 s) = .next t ∧ Good s₀ t := by
  refine ⟨_, rfl, ?_⟩
  repeat' first
    | with_reducible assumption | with_reducible apply settle_good | with_reducible apply dmaxRun_good
    | with_reducible (refine findSome_good (by assumption) (fun _ => ?_)) | with_reducible refine goodO_none | with_reducible refine ite_good ?_ ?_ | split

theorem execDmaw_good (h : Good s₀ s) (x0 : Nat) (x1 : FmtD) : ∃ t, (execDmaw x0 x1 s) = .next t ∧ Good s₀ t := by
  refine ⟨_, rfl, ?_⟩
  with_reducible repeat' first | assumption | apply issue_good | apply effDma_good | intro _

/-! ### Hbm -/

theorem mcEvent_good (h : Good s₀ s) (x1 x2 x3 : Nat) : Good s₀ (mcEvent s x1 x2 x3) := by
  unfold mcEvent
  with_reducible repeat' first | assumption | apply dieReport_good

theorem State_setMc_good (h : Good s₀ s) (x1 : Nat) (x2 : Mc) : Good s₀ (State.setMc s x1 x2) := by
  unfold State.setMc
  repeat' first | with_reducible assumption | (refine good_mk ?_; dsimp only; with_reducible refine good_p ?_)

theorem mcFatal_good (h : Good s₀ s) (x1 : Nat) : Good s₀ (mcFatal s x1) := by
  unfold mcFatal
  with_reducible repeat' first | assumption | apply State_setFld_good | apply leaveJob_good

theorem execStackLost_good (h : Good s₀ s) (x0 : Nat) : ∃ t, (execStackLost x0 s) = .next t ∧ Good s₀ t := by
  refine ⟨_, rfl, ?_⟩
  with_reducible repeat' first | assumption | apply dieReport_good | apply State_setMc_good | apply mcFatal_good | refine ite_good ?_ ?_

theorem noteErr_good (h : Good s₀ s) (x1 x2 x3 : Nat) : Good s₀ (noteErr s x1 x2 x3) := by
  unfold noteErr
  with_reducible repeat' first | assumption | apply State_setFld_good

theorem zeroStack_good (h : Good s₀ s) (x1 : Nat) : Good s₀ (zeroStack s x1) := by
  unfold zeroStack
  with_reducible repeat' first | assumption | refine dropMem_good ?_ _ _ rfl rfl rfl rfl rfl rfl

theorem retirePage_good (h : Good s₀ s) (x1 x2 : Nat) : Good s₀ (retirePage s x1 x2) := by
  unfold retirePage
  repeat' first
    | with_reducible assumption | with_reducible apply State_setMc_good | with_reducible apply State_setFld_good | with_reducible apply mcFatal_good
    | with_reducible refine ite_good ?_ ?_ | (refine good_mk ?_; dsimp only; with_reducible refine good_p ?_)

theorem clearProt_good (h : Good s₀ s) (x1 x2 : Nat) : Good s₀ (clearProt s x1 x2) := by
  unfold clearProt
  with_reducible repeat' first | assumption | apply setReg_good

theorem showStaged_good (h : Good s₀ s) (x1 : Nat) : Good s₀ (showStaged s x1) := by
  unfold showStaged
  with_reducible repeat' first | assumption | apply State_setFld_good

theorem stagePage_good (h : Good s₀ s) (x1 x2 : Nat) : Good s₀ (stagePage s x1 x2) := by
  unfold stagePage
  with_reducible repeat' first | assumption | apply clearProt_good | apply State_setMc_good | apply showStaged_good

theorem stageFor_good (h : Good s₀ s) (x1 x2 : Nat) : Good s₀ (stageFor s x1 x2).2 := by
  unfold stageFor
  repeat' first | with_reducible assumption | with_reducible apply stagePage_good | split

theorem stageFor_good' {a} {t : State} {x1 x2 : Nat}  (ht : (stageFor s x1 x2) = (a, t)) (h : Good s₀ s) : Good s₀ t := by
  have := stageFor_good h x1 x2; rw [ht] at this; exact this

theorem retireDue_good (h : Good s₀ s) (x1 : Nat) : Good s₀ (retireDue s x1) := by
  unfold retireDue
  with_reducible repeat' first
    | assumption | apply retirePage_good | apply State_setMc_good | apply stageFor_good | (refine foldl_good (fun _ _ _ => ?_) _ _ ?_)
    | refine ite_good ?_ ?_

theorem writeDone_good (h : Good s₀ s) (x1 : HbmReq) (x2 : Nat) : Good s₀ (writeDone s x1 x2) := by
  unfold writeDone
  repeat' first
    | with_reducible assumption | with_reducible apply settle_good | with_reducible apply setJob_good | with_reducible apply dmaPump_good
    | with_reducible refine ite_good ?_ ?_ | split

theorem hbmStore_good (h : Good s₀ s) (x1 : Nat) (x2 : Option (Nat × Nat)) (x3 : List Byte) : GoodO s₀ (hbmStore s x1 x2 x3) := by
  unfold hbmStore
  try dsimp only
  repeat' first
    | with_reducible assumption | with_reducible apply wr_good | with_reducible refine goodO_none | with_reducible refine goodO_ite ?_ ?_
    | with_reducible refine goodO_some ?_ | split | (refine good_mk ?_; dsimp only; with_reducible refine good_p ?_)

theorem hbmStore_good' {t : State} {x1 : Nat} {x2 : Option (Nat × Nat)} {x3 : List Byte}  (ht : (hbmStore s x1 x2 x3) = some t) (h : Good s₀ s) : Good s₀ t := hbmStore_good h x1 x2 x3 t ht

theorem hbmWriteRange_good (h : Good s₀ s) (x1 : Nat) (x2 : List Byte) : Good s₀ (hbmWriteRange s x1 x2).1 := by
  unfold hbmWriteRange
  repeat' first
    | with_reducible assumption | with_reducible refine hbmStore_good' (by assumption) ?_ | with_reducible (refine foldl_good_fst (fun _ _ _ => ?_) _ _ ?_)
    | split | (refine good_mk ?_; dsimp only; with_reducible refine good_p ?_)

theorem hbmWriteRange_good' {a} {t : State} {x1 : Nat} {x2 : List Byte}  (ht : (hbmWriteRange s x1 x2) = (t, a)) (h : Good s₀ s) : Good s₀ t := by
  have := hbmWriteRange_good h x1 x2; rw [ht] at this; exact this

theorem hbmPut_good (h : Good s₀ s) (x1 : Nat) (x2 : List Byte) : Good s₀ (hbmPut s x1 x2) := by
  unfold hbmPut
  with_reducible repeat' first | assumption | apply hbmWriteRange_good

theorem gatePut_good (h : Good s₀ s) (x1 : Nat) (x2 : List Byte) : Good s₀ (gatePut s x1 x2) := by
  unfold gatePut
  exact hbmPut_good (foldl_good (fun _ _ g => stageFor_good g _ _) _ _ h) _ _

theorem giveRead_good (h : Good s₀ s) (x1 : HbmReq) (x2 : List Byte) : Good s₀ (giveRead s x1 x2) := by
  unfold giveRead
  with_reducible repeat' first | assumption | apply settle_good | apply dmaPump_good | apply landRead_good | refine ite_good ?_ ?_

theorem noteEcc_good (h : Good s₀ s) (x1 : Nat) : Good s₀ (noteEcc s x1) := by
  unfold noteEcc
  with_reducible repeat' first | assumption | apply State_setFld_good | apply State_freeNat_good

theorem stage4_good (h : Good s₀ s) (x1 x2 : Nat) : Good s₀ (stage4 s x1 x2) := by
  unfold stage4
  with_reducible repeat' first | assumption | apply State_setMc_good | apply mcEvent_good | apply noteErr_good | apply mcFatal_good

theorem stage1_good (h : Good s₀ s) (x1 x2 : Nat) : Good s₀ (stage1 s x1 x2) := by
  unfold stage1
  with_reducible repeat' first | assumption | apply State_setMc_good | apply mcEvent_good | apply State_setFld_good | apply noteErr_good

theorem execHbmReadRequest_good (h : Good s₀ s) (x0 : HbmReq) (x1 : ReadOutcome) : ∃ t, (execHbmReadRequest x0 x1 s) = .next t ∧ Good s₀ t := by
  refine ⟨_, rfl, ?_⟩
  repeat' first
    | with_reducible assumption | with_reducible apply State_unwire_good | with_reducible apply State_setMc_good | with_reducible apply mcEvent_good
    | with_reducible apply noteEcc_good | with_reducible apply stage4_good | with_reducible apply stage1_good | with_reducible apply giveRead_good
    | with_reducible apply State_send_good | with_reducible refine ite_good ?_ ?_ | split
    | (refine good_mk ?_; dsimp only; with_reducible refine good_p ?_)

theorem acceptHbm_good (h : Good s₀ s) (x1 : HbmReq) : Good s₀ (acceptHbm s x1) := by
  unfold acceptHbm
  repeat' first
    | with_reducible assumption | with_reducible apply writeDone_good | with_reducible apply noteEcc_good
    | with_reducible refine hbmStore_good' (by assumption) ?_ | split | (refine good_mk ?_; dsimp only; with_reducible refine good_p ?_)

theorem execPageRetirementComplete_good (h : Good s₀ s) (x0 : Nat) : ∃ t, (execPageRetirementComplete x0 s) = .next t ∧ Good s₀ t := by
  refine ⟨_, rfl, ?_⟩
  repeat' first
    | with_reducible assumption | with_reducible apply retirePage_good | with_reducible apply State_setMc_good | with_reducible apply stageFor_good
    | with_reducible refine ite_good ?_ ?_ | split

theorem execStackZeroFillComplete_good (h : Good s₀ s) (x0 : Nat) : ∃ t, (execStackZeroFillComplete x0 s) = .next t ∧ Good s₀ t := by
  refine ⟨_, rfl, ?_⟩
  with_reducible repeat' first | assumption | apply zeroStack_good | apply State_setFld_good | refine ite_good ?_ ?_

theorem execTwinBlockReturn_good (h : Good s₀ s) (x0 x1 : Nat) (x2 : Option (List Byte)) : ∃ t, (execTwinBlockReturn x0 x1 x2 s) = .next t ∧ Good s₀ t := by
  refine ⟨_, rfl, ?_⟩
  repeat' first
    | with_reducible assumption | with_reducible apply State_unwire_good | with_reducible apply State_setMc_good | with_reducible apply mcEvent_good
    | with_reducible apply State_setFld_good | with_reducible apply noteErr_good | with_reducible apply hbmStore_good | with_reducible apply stage4_good
    | with_reducible apply giveRead_good | with_reducible apply mcFatal_good | with_reducible refine getD_good ?_ ?_ | with_reducible refine ite_good ?_ ?_
    | split | (refine good_mk ?_; dsimp only; with_reducible refine good_p ?_)

theorem execHbmWriteRequest_good (h : Good s₀ s) (x0 : HbmReq) : ∃ t, (execHbmWriteRequest x0 s) = .next t ∧ Good s₀ t := by
  refine ⟨_, rfl, ?_⟩
  with_reducible repeat' first | assumption | apply acceptHbm_good | apply State_unwire_good | apply State_setMc_good | refine ite_good ?_ ?_

theorem execProtectedPageStaged_good (h : Good s₀ s) (x0 : Nat) : ∃ t, (execProtectedPageStaged x0 s) = .next t ∧ Good s₀ t := by
  refine ⟨_, rfl, ?_⟩
  repeat' first
    | with_reducible assumption | with_reducible apply acceptHbm_good | with_reducible apply State_setMc_good | with_reducible apply stagePage_good
    | with_reducible (refine foldl_good (fun _ _ _ => ?_) _ _ ?_) | with_reducible refine ite_good ?_ ?_ | split

theorem execStackTemperaturePoll_good (h : Good s₀ s) (x0 x1 : Nat) : ∃ t, (execStackTemperaturePoll x0 x1 s) = .next t ∧ Good s₀ t := by
  refine ⟨_, rfl, ?_⟩
  with_reducible repeat' first | assumption | apply mcEvent_good | apply State_setFld_good | refine ite_good ?_ ?_

/-! ### Uu -/

theorem writeWork_good (h : Good s₀ s) (x1 : Nat) (x2 : Seg) : Good s₀ (writeWork s x1 x2).1 := by
  unfold writeWork
  repeat' first
    | with_reducible assumption | with_reducible apply hostEvent_good | with_reducible apply hbmWriteRange_good | with_reducible apply mcEvent_good
    | with_reducible (refine foldl_good (fun _ _ _ => ?_) _ _ ?_) | split

theorem writeWork_good' {a} {t : State} {x1 : Nat} {x2 : Seg}  (ht : (writeWork s x1 x2) = (t, a)) (h : Good s₀ s) : Good s₀ t := by
  have := writeWork_good h x1 x2; rw [ht] at this; exact this

theorem notifyStep_good (h : Good s₀ s) (x1 x2 : Nat) (x3 : Bool) : Good s₀ (notifyStep s x1 x2 x3) := by
  unfold notifyStep
  with_reducible repeat' first | assumption | apply State_post_good | refine ite_good ?_ ?_

theorem endStep_good (h : Good s₀ s) (x1 x2 : Nat) (x3 : Bool) : Good s₀ (endStep s x1 x2 x3) := by
  unfold endStep
  with_reducible repeat' first | assumption | apply State_setFld_good | apply notifyStep_good

theorem copierWrite_good (h : Good s₀ s) (x1 x2 : Nat) (x3 : Option BlockMeta) (x4 : List Byte) : Good s₀ (copierWrite s x1 x2 x3 x4) := by
  unfold copierWrite
  with_reducible repeat' first | assumption | apply cxtEmit_good

theorem copierHeader_good (h : Good s₀ s) (x1 : Nat) (x2 : Bool) : Good s₀ (copierHeader s x1 x2) := by
  unfold copierHeader
  with_reducible repeat' first | assumption | apply copierWrite_good

theorem startGeneration_good (h : Good s₀ s) (x1 x2 : Nat) : Good s₀ (startGeneration s x1 x2) := by
  unfold startGeneration
  with_reducible repeat' first
    | assumption | apply copierHeader_good | apply setReg_good | apply State_setFld_good | (refine foldl_good (fun _ _ _ => ?_) _ _ ?_)
    | refine ite_good ?_ ?_

theorem finishCommit_good (h : Good s₀ s) (x1 : Nat) : Good s₀ (finishCommit s x1) := by
  unfold finishCommit
  with_reducible repeat' first | assumption | apply endStep_good | apply startGeneration_good | refine ite_good ?_ ?_

theorem setCopier_good (h : Good s₀ s) (x1 : Nat) (x2 : Bool) : Good s₀ (setCopier s x1 x2) := by
  unfold setCopier
  with_reducible repeat' first
    | assumption | apply finishCommit_good | apply setReg_good | apply acceptHbm_good | apply State_setMc_good | apply State_setFld_good
    | apply showStaged_good | (refine foldl_good (fun _ _ _ => ?_) _ _ ?_) | refine ite_good ?_ ?_

theorem execTwcopyEnWrite_good (h : Good s₀ s) (x0 : Nat) (x1 : Bool) : ∃ t, (execTwcopyEnWrite x0 x1 s) = .next t ∧ Good s₀ t := by
  refine ⟨_, rfl, ?_⟩
  with_reducible repeat' first | assumption | apply setCopier_good

theorem writeGate_good (h : Good s₀ s) (x1 : Nat) (x2 : Word) : Good s₀ (writeGate s x1 x2) := by
  unfold writeGate
  with_reducible repeat' first | assumption | apply mcEvent_good | apply State_setFld_good | apply storeReg_good | refine ite_good ?_ ?_

theorem execUugateWrite_good (h : Good s₀ s) (x0 : Nat) (x1 : Word) : ∃ t, (execUugateWrite x0 x1 s) = .next t ∧ Good s₀ t := by
  refine ⟨_, rfl, ?_⟩
  with_reducible repeat' first | assumption | apply writeGate_good

theorem logWarm_good (h : Good s₀ s) (x1 : Nat) : Good s₀ (logWarm s x1) := by
  unfold logWarm
  with_reducible repeat' first | assumption | apply State_logOp_good | refine ite_good ?_ ?_

theorem updateGroups_good_rec : ∀ (x5 : Nat) {s : State} (_ : Good s₀ s) (x1 : Seg) (x2 : Rule) (x3 x4 : Nat), Good s₀ (updateGroups s x1 x2 x3 x4 x5).1 := by
  intro x5
  induction x5 with
  | zero =>
    intro s h x1 x2 x3 x4
    unfold updateGroups
    with_reducible repeat' first | assumption

  | succ n ih =>
    intro s h x1 x2 x3 x4
    unfold updateGroups
    with_reducible repeat' first | assumption | apply ih | apply hbmPut_good

theorem updateGroups_good (h : Good s₀ s) (x1 : Seg) (x2 : Rule) (x3 x4 x5 : Nat) : Good s₀ (updateGroups s x1 x2 x3 x4 x5).1 := updateGroups_good_rec x5 h x1 x2 x3 x4

theorem updateGroups_good' {a} {t : State} {x1 : Seg} {x2 : Rule} {x3 x4 x5 : Nat}  (ht : (updateGroups s x1 x2 x3 x4 x5) = (t, a)) (h : Good s₀ s) : Good s₀ t := by
  have := updateGroups_good h x1 x2 x3 x4 x5; rw [ht] at this; exact this

theorem stopUu_good (h : Good s₀ s) (x1 : Nat) : Good s₀ (stopUu s x1) := by
  unfold stopUu
  with_reducible repeat' first | assumption | apply State_setFld_good | apply leaveJob_good

theorem partialCommit_good_rec : ∀ (x4 : List Seg) {s : State} (_ : Good s₀ s) (x1 : Nat) (x2 : List (Nat × Rule)) (x3 : Nat), Good s₀ (partialCommit s x1 x2 x3 x4) := by
  intro x4
  induction x4 with
  | nil =>
    intro s h x1 x2 x3
    unfold partialCommit
    with_reducible repeat' first | assumption

  | cons a l ih =>
    intro s h x1 x2 x3
    unfold partialCommit
    with_reducible repeat' first | assumption | apply ih | apply updateGroups_good | refine ite_good ?_ ?_

theorem partialCommit_good (h : Good s₀ s) (x1 : Nat) (x2 : List (Nat × Rule)) (x3 : Nat) (x4 : List Seg) : Good s₀ (partialCommit s x1 x2 x3 x4) := partialCommit_good_rec x4 h x1 x2 x3

theorem execUuStop_good (h : Good s₀ s) (x0 : Nat) : ∃ t, (execUuStop x0 s) = .next t ∧ Good s₀ t := by
  refine ⟨_, rfl, ?_⟩
  with_reducible repeat' first | assumption | apply stopUu_good | apply State_freeNat_good | apply partialCommit_good | refine ite_good ?_ ?_

theorem execGenerationComplete_good (h : Good s₀ s) (x0 : Nat) : ∃ t, (execGenerationComplete x0 s) = .next t ∧ Good s₀ t := by
  refine ⟨_, rfl, ?_⟩
  with_reducible repeat' first | assumption | apply finishCommit_good | apply copierHeader_good | apply State_setFld_good | refine ite_good ?_ ?_

theorem updateHist_good (h : Good s₀ s) (x1 : Nat) (x2 : List (Nat × Option ℤ × Nat)) : Good s₀ (updateHist s x1 x2) := by
  unfold updateHist
  with_reducible repeat' first | assumption | apply hbmPut_good | (refine foldl_good (fun _ _ _ => ?_) _ _ ?_)

theorem commitWrites_good (h : Good s₀ s) (x1 x2 : Nat) : Good s₀ (commitWrites s x1 x2) := by
  unfold commitWrites
  with_reducible repeat' first
    | assumption | apply writeWork_good | apply mcEvent_good | apply State_setFld_good | apply updateGroups_good | apply hbmPut_good
    | apply updateHist_good | (refine foldl_good (fun _ _ _ => ?_) _ _ ?_) | (refine foldl_good_fst (fun _ _ _ => ?_) _ _ ?_) | refine ite_good ?_ ?_

theorem stageAll_good (h : Good s₀ s) (x1 : List (Nat × Nat)) : Good s₀ (stageAll s x1).2 := by
  unfold stageAll
  with_reducible repeat' first | assumption | apply stageFor_good | (refine foldl_good_snd (fun _ _ _ => ?_) _ _ ?_)

theorem stageAll_good' {a} {t : State} {x1 : List (Nat × Nat)}  (ht : (stageAll s x1) = (a, t)) (h : Good s₀ s) : Good s₀ t := by
  have := stageAll_good h x1; rw [ht] at this; exact this

theorem execUuCommitEnd_good (h : Good s₀ s) (x0 : Nat) : ∃ t, (execUuCommitEnd x0 s) = .next t ∧ Good s₀ t := by
  refine ⟨_, rfl, ?_⟩
  with_reducible repeat' first
    | assumption | apply finishCommit_good | apply stopUu_good | apply commitWrites_good | apply State_setFld_good | apply stageAll_good
    | apply endStep_good | apply logWarm_good | refine ite_good ?_ ?_

theorem sendPage_good (h : Good s₀ s) (x1 : Nat) (x2 : StagedPage) : Good s₀ (sendPage s x1 x2) := by
  unfold sendPage
  with_reducible repeat' first | assumption | apply State_setFld_good | apply copierWrite_good | (refine foldl_good (fun _ _ _ => ?_) _ _ ?_)

theorem execCopierPageSend_good (h : Good s₀ s) (x0 : Nat) : ∃ t, (execCopierPageSend x0 s) = .next t ∧ Good s₀ t := by
  refine ⟨_, rfl, ?_⟩
  repeat' first
    | with_reducible assumption | with_reducible apply clearProt_good | with_reducible apply State_setMc_good | with_reducible apply sendPage_good
    | with_reducible apply showStaged_good | with_reducible refine ite_good ?_ ?_ | split

end Sys2Proof.Machine
end

