-- ==== Sys2Proof/Laws/GoodNet.lean ====
section
/-!
SUPPORT. `Good` for the fabric, the network, barriers and recovery: one lemma per operation.
-/

set_option linter.all false
set_option simprocs false

namespace Sys2Proof.Machine

variable {s₀ s : State}

/-! ### Cxt -/

theorem ackWho_good (h : Good s₀ s) (x1 : CxtWho) (x2 : Nat) : Good s₀ (ackWho s x1 x2) := by
  unfold ackWho
  repeat' first
    | with_reducible assumption | with_reducible apply settle_good | with_reducible apply readBack_good | with_reducible apply answerTransfer_good
    | with_reducible refine ite_good ?_ ?_ | split | (refine good_mk ?_; dsimp only; with_reducible refine good_p ?_)

theorem failPath_good (h : Good s₀ s) (x1 : Nat) : Good s₀ (failPath s x1) := by
  unfold failPath
  with_reducible repeat' first | assumption | apply State_setSendPath_good | apply ackWho_good | (refine foldl_good (fun _ _ _ => ?_) _ _ ?_)

theorem sendProbe_good (h : Good s₀ s) (x1 : List Byte) : Good s₀ (sendProbe s x1) := by
  unfold sendProbe
  repeat' first
    | with_reducible assumption | with_reducible apply cxtPlain_good | with_reducible (refine foldl_good (fun _ _ _ => ?_) _ _ ?_)
    | with_reducible refine ite_good ?_ ?_ | (refine good_mk ?_; dsimp only; with_reducible refine good_p ?_)

theorem peerFailed_good (h : Good s₀ s) (x1 : Nat) (x2 : List Byte) : Good s₀ (peerFailed s x1 x2) := by
  unfold peerFailed
  with_reducible repeat' first | assumption | apply State_logOp_good | apply failPath_good | apply sendProbe_good | refine ite_good ?_ ?_

theorem cxCount_good (h : Good s₀ s) (x1 : Nat) (x2 : Fld) : Good s₀ (cxCount s x1 x2) := by
  unfold cxCount
  with_reducible repeat' first | assumption | apply State_setFld_good

theorem resend_good (h : Good s₀ s) (x1 x2 : Nat) (x3 : SentPkt) (x4 : List SentPkt) : Good s₀ (resend s x1 x2 x3 x4) := by
  unfold resend
  repeat' first
    | with_reducible assumption | with_reducible apply State_logOp_good | with_reducible apply cxCount_good | with_reducible apply State_setSendPath_good
    | with_reducible apply State_send_good | with_reducible refine ite_good ?_ ?_ | split
    | (refine good_mk ?_; dsimp only; with_reducible refine good_p ?_)

theorem execCxtRetransmitTimeout_good (h : Good s₀ s) (x0 x1 x2 : Nat) : ∃ t, (execCxtRetransmitTimeout x0 x1 x2 s) = .next t ∧ Good s₀ t := by
  refine ⟨_, rfl, ?_⟩
  repeat' first
    | with_reducible assumption | with_reducible apply State_logOp_good | with_reducible apply peerFailed_good | with_reducible apply resend_good
    | with_reducible apply flushPath_good | with_reducible apply cxtPlain_good | with_reducible apply State_setSendPath_good
    | with_reducible refine ite_good ?_ ?_ | split

theorem sendAck_good (h : Good s₀ s) (x1 x2 : Nat) (x3 x4 : Nat) (x5 : Bool) : Good s₀ (sendAck s x1 x2 x3 x4 x5) := by
  unfold sendAck
  with_reducible repeat' first | assumption | apply cxtPlain_good

theorem deliverJwrite_good (h : Good s₀ s) (x1 : CxtPkt) : GoodOP s₀ (deliverJwrite s x1) := by
  unfold deliverJwrite
  try dsimp only
  repeat' first
    | with_reducible assumption | with_reducible refine hbmStore_good' (by assumption) ?_ | with_reducible apply stageFor_good
    | with_reducible refine goodP_ite ?_ ?_ | with_reducible refine goodP_none | with_reducible refine goodP_some ?_ | split

theorem deliverJwrite_good' {a} {t : State} {x1 : CxtPkt}  (ht : (deliverJwrite s x1) = some (a, t)) (h : Good s₀ s) : Good s₀ t := deliverJwrite_good h x1 a t ht

theorem deliverCxWrite_good (h : Good s₀ s) (x1 : CxtPkt) : GoodOP s₀ (deliverCxWrite s x1) := by
  unfold deliverCxWrite
  try dsimp only
  repeat' first
    | with_reducible assumption | with_reducible refine deliverWrite_good' (by assumption) ?_
    | with_reducible (refine foldl_good_snd (fun _ _ _ => ?_) _ _ ?_) | with_reducible refine goodP_ite ?_ ?_ | with_reducible refine goodP_none
    | with_reducible refine goodP_some ?_ | split

theorem deliverCxWrite_good' {a} {t : State} {x1 : CxtPkt}  (ht : (deliverCxWrite s x1) = some (a, t)) (h : Good s₀ s) : Good s₀ t := deliverCxWrite_good h x1 a t ht

theorem landPull_good (h : Good s₀ s) (x1 : Nat) (x2 : Option BlockMeta) (x3 : List Byte) : Good s₀ (landPull s x1 x2 x3) := by
  unfold landPull
  with_reducible repeat' first | assumption | apply hbmStore_good | refine getD_good ?_ ?_

theorem deliverRdata_good (h : Good s₀ s) (x1 : CxtPkt) : Good s₀ (deliverRdata s x1) := by
  unfold deliverRdata
  repeat' first
    | with_reducible assumption | with_reducible apply landPull_good | with_reducible apply readBack_good | with_reducible refine ite_good ?_ ?_ | split
    | (refine good_mk ?_; dsimp only; with_reducible refine good_p ?_)

theorem deliverCxSend_good (h : Good s₀ s) (x1 : CxtHdr) (x2 : List Byte) : GoodOP s₀ (deliverCxSend s x1 x2) := by
  unfold deliverCxSend
  try dsimp only
  with_reducible repeat' first | assumption | apply deliverDesc_good | apply deliverContrib_good | refine goodP_ite ?_ ?_ | refine goodP_some ?_

theorem deliverCxSend_good' {a} {t : State} {x1 : CxtHdr} {x2 : List Byte}  (ht : (deliverCxSend s x1 x2) = some (a, t)) (h : Good s₀ s) : Good s₀ t := deliverCxSend_good h x1 x2 a t ht

theorem deliverCxRead_good (h : Good s₀ s) (x1 : CxtHdr) : GoodOP s₀ (deliverCxRead s x1) := by
  unfold deliverCxRead
  try dsimp only
  repeat' first
    | with_reducible assumption | with_reducible apply freeParity_good | with_reducible apply serveRead_good | with_reducible apply cxtEmit_good
    | with_reducible refine goodP_ite ?_ ?_ | with_reducible refine goodP_none | with_reducible refine goodP_some ?_ | split

theorem deliverCxRead_good' {a} {t : State} {x1 : CxtHdr}  (ht : (deliverCxRead s x1) = some (a, t)) (h : Good s₀ s) : Good s₀ t := deliverCxRead_good h x1 a t ht

theorem landPkt_good (h : Good s₀ s) (x0 : State → CxtPkt → Nat × State) (x2 : CxtPkt) (hx0 : ∀ y0 y1, Good s₀ y0 → Good s₀ (x0 y0 y1).2) : GoodOP s₀ (landPkt x0 s x2) := by
  unfold landPkt
  try dsimp only
  repeat' first
    | with_reducible assumption | with_reducible apply hx0 | with_reducible apply cxCount_good | with_reducible apply deliverJwrite_good
    | with_reducible apply deliverCxWrite_good | with_reducible apply deliverRdata_good | with_reducible refine deliverCxSend_good' (by assumption) ?_
    | with_reducible apply deliverCxRead_good | with_reducible apply State_setRecvPath_good | with_reducible refine goodP_ite ?_ ?_
    | with_reducible refine goodP_none | with_reducible refine goodP_some ?_ | split

theorem landPkt_good' {a} {t : State} {x0 : State → CxtPkt → Nat × State} {x2 : CxtPkt} (hx0 : ∀ y0 y1, Good s₀ y0 → Good s₀ (x0 y0 y1).2) (ht : (landPkt x0 s x2) = some (a, t)) (h : Good s₀ s) : Good s₀ t := landPkt_good h x0 x2 hx0 a t ht

theorem giveGrant_good (h : Good s₀ s) (x1 x2 : Nat) : Good s₀ (giveGrant s x1 x2) := by
  unfold giveGrant
  with_reducible repeat' first | assumption | apply cxtPlain_good | apply State_setRecvPath_good

theorem serveGrants_good_rec : ∀ (x1 : List (Nat × Nat)) {s : State} (_ : Good s₀ s) , Good s₀ (serveGrants s x1) := by
  intro x1
  induction x1 with
  | nil =>
    intro s h
    unfold serveGrants
    with_reducible repeat' first | assumption

  | cons a l ih =>
    intro s h
    unfold serveGrants
    repeat' first
      | with_reducible assumption | with_reducible apply ih | with_reducible apply giveGrant_good | with_reducible refine ite_good ?_ ?_
      | (refine good_mk ?_; dsimp only; with_reducible refine good_p ?_)

theorem serveGrants_good (h : Good s₀ s) (x1 : List (Nat × Nat)) : Good s₀ (serveGrants s x1) := serveGrants_good_rec x1 h

theorem useGrant_good (h : Good s₀ s) (x1 x2 : Nat) : Good s₀ (useGrant s x1 x2) := by
  unfold useGrant
  with_reducible repeat' first | assumption | apply serveGrants_good | apply State_setRecvPath_good

theorem drainPath_good_rec : ∀ (x3 : Nat) {s : State} (_ : Good s₀ s) (x0 : State → CxtPkt → Nat × State) (x2 : Nat) (hx0 : ∀ y0 y1, Good s₀ y0 → Good s₀ (x0 y0 y1).2), Good s₀ (drainPath x0 s x2 x3) := by
  intro x3
  induction x3 with
  | zero =>
    intro s h x0 x2 hx0
    unfold drainPath
    with_reducible repeat' first | assumption

  | succ n ih =>
    intro s h x0 x2 hx0
    unfold drainPath
    repeat' first
      | with_reducible assumption | with_reducible apply ih | with_reducible apply sendAck_good | with_reducible refine landPkt_good' ?_ (by assumption) ?_
      | with_reducible apply useGrant_good | with_reducible apply State_setRecvPath_good | with_reducible refine ite_good ?_ ?_ | split
      | (refine good_mk ?_; dsimp only; with_reducible refine good_p ?_)

theorem drainPath_good (h : Good s₀ s) (x0 : State → CxtPkt → Nat × State) (x2 x3 : Nat) (hx0 : ∀ y0 y1, Good s₀ y0 → Good s₀ (x0 y0 y1).2) : Good s₀ (drainPath x0 s x2 x3) := drainPath_good_rec x3 h x0 x2 hx0

theorem sendStale_good (h : Good s₀ s) (x1 : CxtPkt) : Good s₀ (sendStale s x1) := by
  unfold sendStale
  with_reducible repeat' first | assumption | apply cxtPlain_good

theorem receive_good (h : Good s₀ s) (x0 : State → CxtPkt → Nat × State) (x1 : State → CxtPkt → State) (x3 : CxtPkt) (hx0 : ∀ y0 y1, Good s₀ y0 → Good s₀ (x0 y0 y1).2) (hx1 : ∀ y0 y1, Good s₀ y0 → Good s₀ (x1 y0 y1)) : Good s₀ (receive x0 x1 s x3) := by
  unfold receive
  with_reducible repeat' first
    | assumption | apply hx1 | apply sendStale_good | apply cxCount_good | apply sendAck_good | apply drainPath_good | apply State_setRecvPath_good
    | apply portGoesDown_good | refine ite_good ?_ ?_

theorem resetPaths_good (h : Good s₀ s) : Good s₀ (resetPaths s) := by
  unfold resetPaths
  repeat' first | with_reducible assumption | (refine good_mk ?_; dsimp only; with_reducible refine good_p ?_)

theorem setAlias_good (h : Good s₀ s) (x1 : Nat) : Good s₀ (setAlias s x1) := by
  unfold setAlias
  with_reducible repeat' first | assumption | apply resetPaths_good | apply State_setFld_good | (refine foldl_good (fun _ _ _ => ?_) _ _ ?_)

theorem execCxepochAliasWrite_good (h : Good s₀ s) (x0 x1 : Nat) : ∃ t, (execCxepochAliasWrite x0 x1 s) = .next t ∧ Good s₀ t := by
  refine ⟨_, rfl, ?_⟩
  with_reducible repeat' first | assumption | apply resetPaths_good | apply State_setFld_good

theorem execCxcfgEnWrite_good (h : Good s₀ s) (x0 : Nat) (x1 : Word) : ∃ t, (execCxcfgEnWrite x0 x1 s) = .next t ∧ Good s₀ t := by
  refine ⟨_, rfl, ?_⟩
  with_reducible repeat' first | assumption | apply resetPaths_good | apply storeReg_good | refine ite_good ?_ ?_

theorem takeAck_good (h : Good s₀ s) (x1 : CxtHdr) : Good s₀ (takeAck s x1) := by
  unfold takeAck
  with_reducible repeat' first
    | assumption | apply flushPath_good | apply State_setSendPath_good | apply ackWho_good | (refine foldl_good (fun _ _ _ => ?_) _ _ ?_)

theorem takeGrant_good (h : Good s₀ s) (x1 : CxtPkt) : Good s₀ (takeGrant s x1) := by
  unfold takeGrant
  repeat' first
    | with_reducible assumption | with_reducible apply giveGrant_good | with_reducible apply flushPath_good | with_reducible apply cxtPlain_good
    | with_reducible apply State_setSendPath_good | with_reducible refine ite_good ?_ ?_ | (refine good_mk ?_; dsimp only; with_reducible refine good_p ?_)

/-! ### Network -/

theorem execCplControlTimer_good (h : Good s₀ s) (x0 x1 : Nat) : ∃ t, (execCplControlTimer x0 x1 s) = .next t ∧ Good s₀ t := by
  refine ⟨_, rfl, ?_⟩
  with_reducible repeat' first | assumption | apply State_send_good | refine ite_good ?_ ?_

theorem flushLink_good_rec : ∀ (x3 : Nat) {s : State} (_ : Good s₀ s) (x1 x2 : Nat), Good s₀ (flushLink s x1 x2 x3) := by
  intro x3
  induction x3 with
  | zero =>
    intro s h x1 x2
    unfold flushLink
    with_reducible repeat' first | assumption

  | succ n ih =>
    intro s h x1 x2
    unfold flushLink
    with_reducible repeat' first | assumption | apply ih | apply State_setLink_good | apply State_send_good | refine ite_good ?_ ?_

theorem flushLink_good (h : Good s₀ s) (x1 x2 x3 : Nat) : Good s₀ (flushLink s x1 x2 x3) := flushLink_good_rec x3 h x1 x2

theorem crossLink_good (h : Good s₀ s) (x1 x2 : Nat) (x3 : Packet) : Good s₀ (crossLink s x1 x2 x3) := by
  unfold crossLink
  with_reducible repeat' first
    | assumption | apply flushLink_good | apply State_freeNat_good | apply State_setLink_good | apply State_send_good | refine ite_good ?_ ?_

theorem registerPacket_good (h : Good s₀ s) (x1 : Block → Nat → Bool) (x2 : Packet) : GoodOP s₀ (registerPacket s x1 x2) := by
  unfold registerPacket
  try dsimp only
  with_reducible repeat' first | assumption | apply State_send_good | refine goodP_ite ?_ ?_ | refine goodP_none | refine goodP_some ?_

theorem registerPacket_good' {a} {t : State} {x1 : Block → Nat → Bool} {x2 : Packet}  (ht : (registerPacket s x1 x2) = some (a, t)) (h : Good s₀ s) : Good s₀ t := registerPacket_good h x1 x2 a t ht

theorem farDeliver_good (h : Good s₀ s) (x1 x2 : Nat) (x3 : Packet) : Good s₀ (farDeliver s x1 x2 x3) := by
  unfold farDeliver
  repeat' first
    | with_reducible assumption | with_reducible apply crossLink_good | with_reducible refine registerPacket_good' (by assumption) ?_
    | with_reducible refine ite_good ?_ ?_ | split

theorem arriveFromLink_good (h : Good s₀ s) (x1 x2 : Nat) (x3 : Packet) : Good s₀ (arriveFromLink s x1 x2 x3) := by
  unfold arriveFromLink
  with_reducible repeat' first
    | assumption | apply crossLink_good | apply State_freeNat_good | apply farDeliver_good | apply State_setLink_good | apply State_send_good
    | refine ite_good ?_ ?_

theorem deliverMem_good (h : Good s₀ s) (x1 x2 x3 : Nat) (x4 : Packet) : Good s₀ (deliverMem s x1 x2 x3 x4) := by
  unfold deliverMem
  repeat' first
    | with_reducible assumption | with_reducible apply sendResponse_good | with_reducible apply sendRows_good
    | with_reducible refine hbmStore_good' (by assumption) ?_ | with_reducible apply stageFor_good | with_reducible apply State_send_good
    | with_reducible refine ite_good ?_ ?_ | split | (refine good_mk ?_; dsimp only; with_reducible refine good_p ?_)

theorem sendNak_good (h : Good s₀ s) (x1 x2 : Nat) : Good s₀ (sendNak s x1 x2) := by
  unfold sendNak
  with_reducible repeat' first | assumption | apply State_send_good

theorem setConsec_good (h : Good s₀ s) (x1 x2 x3 : Nat) : Good s₀ (setConsec s x1 x2 x3) := by
  unfold setConsec
  with_reducible repeat' first | assumption | apply State_setFld_good | apply State_setLink_good | refine ite_good ?_ ?_

theorem loseWires_good_rec : ∀ (x2 : List Wire) {s : State} (_ : Good s₀ s) (x1 : List (Nat × Nat)), Good s₀ (loseWires s x1 x2) := by
  intro x2
  induction x2 with
  | nil =>
    intro s h x1
    unfold loseWires
    with_reducible repeat' first | assumption

  | cons a l ih =>
    intro s h x1
    unfold loseWires
    with_reducible repeat' first | assumption | apply ih | apply State_unwire_good | apply State_freeNat_good | refine ite_good ?_ ?_

theorem loseWires_good (h : Good s₀ s) (x1 : List (Nat × Nat)) (x2 : List Wire) : Good s₀ (loseWires s x1 x2) := loseWires_good_rec x2 h x1

theorem dropLink_good (h : Good s₀ s) (x1 x2 : Nat) : Good s₀ (dropLink s x1 x2) := by
  unfold dropLink
  repeat' first
    | with_reducible assumption | with_reducible apply setConsec_good | with_reducible apply State_setFld_good | with_reducible apply loseWires_good
    | with_reducible apply State_setLink_good | with_reducible refine ite_good ?_ ?_ | (refine good_mk ?_; dsimp only; with_reducible refine good_p ?_)

theorem markEndpoint_good (h : Good s₀ s) (x1 : Nat) : Good s₀ (markEndpoint s x1) := by
  unfold markEndpoint
  with_reducible repeat' first | assumption | apply State_setFld_good | (refine foldl_good (fun _ _ _ => ?_) _ _ ?_)

theorem endpointLost_good (h : Good s₀ s) (x1 : Nat) : Good s₀ (endpointLost s x1) := by
  unfold endpointLost
  repeat' first | with_reducible assumption | with_reducible apply markEndpoint_good | with_reducible refine ite_good ?_ ?_ | split

theorem linkGoesDown_good (h : Good s₀ s) (x1 x2 : Nat) : Good s₀ (linkGoesDown s x1 x2) := by
  unfold linkGoesDown
  repeat' first
    | with_reducible assumption | with_reducible apply State_logOp_good | with_reducible apply hostIsLost_good | with_reducible apply routerFails_good
    | with_reducible apply endpointLost_good
    | with_reducible apply ghFails_good | with_reducible apply ldLost_good | with_reducible apply dropLink_good | with_reducible refine ite_good ?_ ?_
    | split

theorem replay_good (h : Good s₀ s) (x1 x2 : Nat) : Good s₀ (replay s x1 x2) := by
  unfold replay
  with_reducible repeat' first
    | assumption | apply setConsec_good | apply linkGoesDown_good | apply State_setFld_good | apply State_send_good
    | (refine foldl_good (fun _ _ _ => ?_) _ _ ?_) | refine ite_good ?_ ?_

theorem ackFrames_good (h : Good s₀ s) (x1 x2 x3 : Nat) : Good s₀ (ackFrames s x1 x2 x3) := by
  unfold ackFrames
  with_reducible repeat' first | assumption | apply setConsec_good | apply State_setLink_good | refine ite_good ?_ ?_

theorem execCplFrameReceive_good (h : Good s₀ s) (x0 x1 : Nat) (x2 : CplFrame) : ∃ t, (execCplFrameReceive x0 x1 x2 s) = .next t ∧ Good s₀ t := by
  refine ⟨_, rfl, ?_⟩
  with_reducible repeat' first
    | assumption | apply sendNak_good | apply flushLink_good | apply State_unwire_good | apply State_setFld_good | apply replay_good | apply ackFrames_good
    | apply State_setLink_good | apply arriveFromLink_good | (refine foldl_good (fun _ _ _ => ?_) _ _ ?_) | refine ite_good ?_ ?_

theorem execRouterFault_good (h : Good s₀ s) (x0 x1 x2 : Nat) : ∃ t, (execRouterFault x0 x1 x2 s) = .next t ∧ Good s₀ t := by
  refine ⟨_, rfl, ?_⟩
  with_reducible repeat' first | assumption | apply routerFails_good

theorem packetMsg_good (h : Good s₀ s) (x1 : Nat) (x2 : Packet) : Good s₀ (packetMsg s x1 x2).2 := by
  unfold packetMsg
  repeat' first | with_reducible assumption | split | (refine good_mk ?_; dsimp only; with_reducible refine good_p ?_)

theorem packetMsg_good' {a} {t : State} {x1 : Nat} {x2 : Packet}  (ht : (packetMsg s x1 x2) = (a, t)) (h : Good s₀ s) : Good s₀ t := by
  have := packetMsg_good h x1 x2; rw [ht] at this; exact this

theorem deliverTile_good (h : Good s₀ s) (x1 x2 : Nat) (x3 x4 : Nat) (x5 : Packet) : Good s₀ (deliverTile s x1 x2 x3 x4 x5) := by
  unfold deliverTile
  repeat' first
    | with_reducible assumption | with_reducible apply freeParity_good | with_reducible apply packetMsg_good
    | with_reducible refine registerPacket_good' (by assumption) ?_ | with_reducible apply State_send_good | with_reducible apply readAtPort_good
    | with_reducible refine ite_good ?_ ?_ | split

theorem sitePortsOff_good (h : Good s₀ s) (x1 : LinkKind) : Good s₀ (sitePortsOff s x1) := by
  unfold sitePortsOff
  repeat' first | with_reducible assumption | with_reducible apply State_setPf_good | split

theorem showPeer_good (h : Good s₀ s) (x1 x2 : Nat) (x3 x4 x5 : Nat) : Good s₀ (showPeer s x1 x2 x3 x4 x5) := by
  unfold showPeer
  with_reducible repeat' first | assumption | apply setReg_good | apply State_setFld_good

theorem unconfigured_good (h : Good s₀ s) (x1 x2 x3 : Nat) : Good s₀ (unconfigured s x1 x2 x3) := by
  unfold unconfigured
  with_reducible repeat' first | assumption | apply showPeer_good | apply State_setFld_good | apply logAndTell_good | refine ite_good ?_ ?_

theorem execCapabilityRecord_good (h : Good s₀ s) (x0 x1 : Nat) (x2 : List Byte) : ∃ t, (execCapabilityRecord x0 x1 x2 s) = .next t ∧ Good s₀ t := by
  refine ⟨_, rfl, ?_⟩
  with_reducible repeat' first
    | assumption | apply flushLink_good | apply sitePortsOff_good | apply State_unwire_good | apply showPeer_good | apply State_setFld_good
    | apply State_setLink_good | apply unconfigured_good | refine ite_good ?_ ?_

theorem State_unpacket_good (h : Good s₀ s) (x1 x2 x3 : Nat) (x4 : Packet) : Good s₀ (State.unpacket s x1 x2 x3 x4) := by
  unfold State.unpacket
  repeat' first | with_reducible assumption | (refine good_mk ?_; dsimp only; with_reducible refine good_p ?_)

theorem packetLeft_good (h : Good s₀ s) (x1 x2 x3 : Nat) (x4 : Packet) : Good s₀ (packetLeft s x1 x2 x3 x4) := by
  unfold packetLeft
  with_reducible repeat' first | assumption | apply State_unpacket_good | apply State_setLink_good | refine ite_good ?_ ?_

theorem execUcieRetrainTimeout_good (h : Good s₀ s) (x0 x1 : Nat) : ∃ t, (execUcieRetrainTimeout x0 x1 s) = .next t ∧ Good s₀ t := by
  refine ⟨_, rfl, ?_⟩
  with_reducible repeat' first | assumption | apply linkGoesDown_good | refine ite_good ?_ ?_

theorem deliverAt_good (h : Good s₀ s) (x1 x2 x3 : Nat) (x4 : Packet) : Good s₀ (deliverAt s x1 x2 x3 x4) := by
  unfold deliverAt
  repeat' first
    | with_reducible assumption | with_reducible apply sendResponse_good | with_reducible apply deliverTile_good
    | with_reducible refine registerPacket_good' (by assumption) ?_ | with_reducible apply State_send_good | with_reducible apply deliverMem_good
    | with_reducible refine ite_good ?_ ?_ | split

theorem takeHop_good (h : Good s₀ s) (x1 x2 : Nat) (x3 x4 : Nat) (x5 : Packet) (x6 : Hop) : Good s₀ (takeHop s x1 x2 x3 x4 x5 x6) := by
  unfold takeHop
  repeat' first
    | with_reducible assumption | with_reducible apply crossLink_good | with_reducible apply deliverAt_good | with_reducible apply State_send_good
    | with_reducible (refine foldl_good (fun _ _ _ => ?_) _ _ ?_) | with_reducible refine ite_good ?_ ?_ | split

theorem execCapabilityTimeout_good (h : Good s₀ s) (x0 x1 : Nat) : ∃ t, (execCapabilityTimeout x0 x1 s) = .next t ∧ Good s₀ t := by
  refine ⟨_, rfl, ?_⟩
  with_reducible repeat' first | assumption | apply unconfigured_good | refine ite_good ?_ ?_

theorem execCplAckTimeout_good (h : Good s₀ s) (x0 x1 : Nat) : ∃ t, (execCplAckTimeout x0 x1 s) = .next t ∧ Good s₀ t := by
  refine ⟨_, rfl, ?_⟩
  with_reducible repeat' first | assumption | apply replay_good | refine ite_good ?_ ?_

theorem execPacketHop_good (h : Good s₀ s) (x0 x1 x2 : Nat) (x3 : Packet) : ∃ t, (execPacketHop x0 x1 x2 x3 s) = .next t ∧ Good s₀ t := by
  refine ⟨_, rfl, ?_⟩
  with_reducible repeat' first
    | assumption | apply takeHop_good | apply State_setFld_good | apply packetLeft_good | (refine foldl_good (fun _ _ _ => ?_) _ _ ?_)
    | refine ite_good ?_ ?_

theorem execUcieTrainingComplete_good (h : Good s₀ s) (x0 x1 : Nat) : ∃ t, (execUcieTrainingComplete x0 x1 s) = .next t ∧ Good s₀ t := by
  refine ⟨_, rfl, ?_⟩
  repeat' first
    | with_reducible assumption | with_reducible apply flushLink_good | with_reducible apply State_setFld_good | with_reducible apply State_freeNat_good
    | with_reducible apply State_setLink_good | with_reducible apply State_send_good | with_reducible refine ite_good ?_ ?_ | split

theorem execUcieRetrain_good (h : Good s₀ s) (x0 x1 : Nat) : ∃ t, (execUcieRetrain x0 x1 s) = .next t ∧ Good s₀ t := by
  refine ⟨_, rfl, ?_⟩
  with_reducible repeat' first | assumption | apply State_setFld_good | apply State_setLink_good | refine ite_good ?_ ?_

theorem execDieLinkDown_good (h : Good s₀ s) (x0 x1 : Nat) : ∃ t, (execDieLinkDown x0 x1 s) = .next t ∧ Good s₀ t := by
  refine ⟨_, rfl, ?_⟩
  with_reducible repeat' first | assumption | apply linkGoesDown_good

theorem execCplNak_good (h : Good s₀ s) (x0 x1 x2 : Nat) : ∃ t, (execCplNak x0 x1 x2 s) = .next t ∧ Good s₀ t := by
  refine ⟨_, rfl, ?_⟩
  with_reducible repeat' first | assumption | apply State_unwire_good | apply replay_good | apply ackFrames_good | refine ite_good ?_ ?_

theorem execLinkTrainingTimeout_good (h : Good s₀ s) (x0 x1 : Nat) : ∃ t, (execLinkTrainingTimeout x0 x1 s) = .next t ∧ Good s₀ t := by
  refine ⟨_, rfl, ?_⟩
  with_reducible repeat' first | assumption | apply unconfigured_good | refine ite_good ?_ ?_

theorem execRsctlArm_good (h : Good s₀ s) (x0 : Nat) : ∃ t, (execRsctlArm x0 s) = .next t ∧ Good s₀ t := by
  refine ⟨_, rfl, ?_⟩
  with_reducible repeat' first | assumption | apply armDetour_good

theorem execRouteSetSwitch_good (h : Good s₀ s) (x0 : Nat) : ∃ t, (execRouteSetSwitch x0 s) = .next t ∧ Good s₀ t := by
  refine ⟨_, rfl, ?_⟩
  with_reducible repeat' first | assumption | apply armDetour_good | refine ite_good ?_ ?_

/-! ### Barrier -/

theorem returnPorts_good (h : Good s₀ s) : Good s₀ (returnPorts s) := by
  unfold returnPorts
  repeat' first
    | with_reducible assumption | with_reducible apply State_logOp_good | with_reducible apply ctrlAll_good | with_reducible apply State_setPf_good
    | with_reducible (refine foldl_good (fun _ _ _ => ?_) _ _ ?_) | (refine good_mk ?_; dsimp only; with_reducible refine good_p ?_)

theorem sendBarrier_good (h : Good s₀ s) (x1 x2 x3 : Nat) (x4 : Bool) (x5 : List Byte) : Good s₀ (sendBarrier s x1 x2 x3 x4 x5) := by
  unfold sendBarrier
  with_reducible repeat' first | assumption | apply cxtEmit_good

theorem gatherSlots_good (h : Good s₀ s) : Good s₀ (gatherSlots s) := by
  unfold gatherSlots
  with_reducible repeat' first | assumption | apply State_logOp_good | (refine foldl_good (fun _ _ _ => ?_) _ _ ?_) | refine ite_good ?_ ?_

theorem applyPred_good (h : Good s₀ s) : Good s₀ (applyPred s) := by
  unfold applyPred
  repeat' first
    | with_reducible assumption | with_reducible apply State_logOp_good | with_reducible apply State_setTf_good
    | with_reducible (refine foldl_good (fun _ _ _ => ?_) _ _ ?_) | (refine good_mk ?_; dsimp only; with_reducible refine good_p ?_)

theorem gatherClass_good (h : Good s₀ s) (x1 : List Nat) (x2 : Nat) : Good s₀ (gatherClass s x1 x2) := by
  unfold gatherClass
  with_reducible repeat' first | assumption | apply State_submit_good | apply logAndTell_good | refine ite_good ?_ ?_

theorem gatherPred_good (h : Good s₀ s) (x1 : List Nat) (x2 : Nat) : Good s₀ (gatherPred s x1 x2) := by
  unfold gatherPred
  with_reducible repeat' first | assumption | apply logAndTell_good | refine ite_good ?_ ?_

theorem gatherCone_good (h : Good s₀ s) : Good s₀ (gatherCone s) := by
  unfold gatherCone
  with_reducible repeat' first
    | assumption | apply gatherClass_good | apply gatherPred_good | apply clearCone_good | (refine foldl_good (fun _ _ _ => ?_) _ _ ?_)

theorem stepBoundary_good (h : Good s₀ s) (x1 x2 : Nat) : Good s₀ (stepBoundary s x1 x2) := by
  unfold stepBoundary
  with_reducible repeat' first
    | assumption | apply dieReport_good | apply gatherSlots_good | apply applyPred_good | apply gatherCone_good | apply returnPorts_good
    | apply loadDetours_good | apply holdAll_good | refine ite_good ?_ ?_

theorem completeGroup_good (h : Good s₀ s) (x1 x2 : Nat) : Good s₀ (completeGroup s x1 x2) := by
  unfold completeGroup
  with_reducible repeat' first
    | assumption | apply stepBoundary_good | apply releaseDie_good | apply State_setFld_good | (refine foldl_good (fun _ _ _ => ?_) _ _ ?_)
    | refine ite_good ?_ ?_

theorem markJournal_good (h : Good s₀ s) (x1 : List Byte) : Good s₀ (markJournal s x1) := by
  unfold markJournal
  with_reducible repeat' first | assumption | apply State_setFld_good | apply gatePut_good | apply hbmPut_good | (refine foldl_good (fun _ _ _ => ?_) _ _ ?_) | refine ite_good ?_ ?_

theorem normRelease_good (h : Good s₀ s) (x1 : List Byte) : Good s₀ (normRelease s x1) := by
  unfold normRelease
  repeat' first
    | with_reducible assumption | with_reducible apply setReg_good | with_reducible apply markJournal_good | with_reducible apply State_setFld_good
    | with_reducible apply markEndpoint_good | with_reducible apply gatePut_good | with_reducible apply hbmPut_good | with_reducible apply writeGate_good
    | with_reducible (refine foldl_good (fun _ _ _ => ?_) _ _ ?_) | with_reducible refine ite_good ?_ ?_ | split
    | (refine good_mk ?_; dsimp only; with_reducible refine good_p ?_)

theorem deviceRelease_good (h : Good s₀ s) (x1 : DevBar) (x2 : List Byte) : Good s₀ (deviceRelease s x1 x2) := by
  unfold deviceRelease
  repeat' first
    | with_reducible assumption | with_reducible apply completeGroup_good | with_reducible apply sendBarrier_good | with_reducible apply normRelease_good
    | with_reducible (refine foldl_good (fun _ _ _ => ?_) _ _ ?_) | with_reducible refine ite_good ?_ ?_
    | (refine good_mk ?_; dsimp only; with_reducible refine good_p ?_)

theorem setBar_good (h : Good s₀ s) (x1 : DevBar) : Good s₀ (setBar s x1) := by
  unfold setBar
  repeat' first | with_reducible assumption | (refine good_mk ?_; dsimp only; with_reducible refine good_p ?_)

theorem tryBar_good (h : Good s₀ s) (x1 : Nat) : Good s₀ (tryBar s x1) := by
  unfold tryBar
  repeat' first
    | with_reducible assumption | with_reducible apply State_logOp_good | with_reducible apply sendBarrier_good | with_reducible apply deviceRelease_good
    | with_reducible apply setBar_good | with_reducible refine ite_good ?_ ?_ | split

theorem landBarrier_good (h : Good s₀ s) (x1 : CxtPkt) : Good s₀ (landBarrier s x1) := by
  unfold landBarrier
  repeat' first
    | with_reducible assumption | with_reducible apply tryBar_good | with_reducible apply deviceRelease_good | with_reducible apply setBar_good
    | with_reducible refine ite_good ?_ ?_ | split | (refine good_mk ?_; dsimp only; with_reducible refine good_p ?_)

theorem groupArrived_good (h : Good s₀ s) (x1 x2 : Nat) : Good s₀ (groupArrived s x1 x2) := by
  unfold groupArrived
  with_reducible repeat' first | assumption | apply tryBar_good | apply completeGroup_good | apply setBar_good | refine ite_good ?_ ?_

theorem execPackageBarrierArrival_good (h : Good s₀ s) (x0 x1 x2 : Nat) : ∃ t, (execPackageBarrierArrival x0 x1 x2 s) = .next t ∧ Good s₀ t := by
  refine ⟨_, rfl, ?_⟩
  repeat' first
    | with_reducible assumption | with_reducible apply State_unwire_good | with_reducible apply groupArrived_good | with_reducible refine ite_good ?_ ?_
    | split | (refine good_mk ?_; dsimp only; with_reducible refine good_p ?_)

theorem execNormGroupComplete_good (h : Good s₀ s) (x0 : Nat) : ∃ t, (execNormGroupComplete x0 s) = .next t ∧ Good s₀ t := by
  refine ⟨_, rfl, ?_⟩
  repeat' first
    | with_reducible assumption | with_reducible apply tryBar_good | with_reducible apply State_logOp_good | with_reducible apply markEndpoint_good
    | with_reducible apply setBar_good | with_reducible refine ite_good ?_ ?_ | split

theorem tryBars_good (h : Good s₀ s) : Good s₀ (tryBars s) := by
  unfold tryBars
  with_reducible repeat' first | assumption | apply tryBar_good | (refine foldl_good (fun _ _ _ => ?_) _ _ ?_)

/-! ### Recovery -/

theorem isReplaced_good (h : Good s₀ s) : Good s₀ (isReplaced s) := by
  unfold isReplaced
  repeat' first
    | with_reducible assumption | with_reducible apply logAndTell_good | with_reducible apply setCopier_good | with_reducible apply holdAll_good
    | with_reducible (refine foldl_good (fun _ _ _ => ?_) _ _ ?_) | with_reducible refine ite_good ?_ ?_
    | (refine good_mk ?_; dsimp only; with_reducible refine good_p ?_)

theorem setLds_good (h : Good s₀ s) (x1 : Fld) (x2 : Nat) : Good s₀ (setLds s x1 x2) := by
  unfold setLds
  with_reducible repeat' first | assumption | apply State_setFld_good | (refine foldl_good (fun _ _ _ => ?_) _ _ ?_)

theorem moveAlias_good (h : Good s₀ s) (x1 x2 : Nat) : Good s₀ (moveAlias s x1 x2) := by
  unfold moveAlias
  with_reducible repeat' first | assumption | apply setAlias_good | apply ctrlAll_good | apply setLds_good | apply sendCtrl_good

theorem execReshardApply_good (h : Good s₀ s)  : ∃ t, (execReshardApply s) = .next t ∧ Good s₀ t := by
  refine ⟨_, rfl, ?_⟩
  repeat' first
    | with_reducible assumption | with_reducible apply releaseTiles_good | with_reducible apply storeReg_good | with_reducible apply setLds_good
    | with_reducible apply logAndTell_good | with_reducible (refine foldl_good (fun _ _ _ => ?_) _ _ ?_) | with_reducible refine ite_good ?_ ?_ | split
    | (refine good_mk ?_; dsimp only; with_reducible refine good_p ?_)

theorem pullRead_good (h : Good s₀ s) (x1 x2 : Nat) (x3 x4 : Nat) (x5 : ReadKind) : Good s₀ (pullRead s x1 x2 x3 x4 x5) := by
  unfold pullRead
  repeat' first | with_reducible assumption | with_reducible apply cxtEmit_good | (refine good_mk ?_; dsimp only; with_reducible refine good_p ?_)

theorem startPull_good (h : Good s₀ s) (x1 : Nat) : Good s₀ (startPull s x1) := by
  unfold startPull
  with_reducible repeat' first | assumption | apply pullRead_good | (refine foldl_good (fun _ _ _ => ?_) _ _ ?_) | refine ite_good ?_ ?_

theorem pullBlocks_good (h : Good s₀ s) (x1 x2 : Nat) (x3 x4 x5 : Nat) : Good s₀ (pullBlocks s x1 x2 x3 x4 x5) := by
  unfold pullBlocks
  with_reducible repeat' first | assumption | apply pullRead_good | (refine foldl_good (fun _ _ _ => ?_) _ _ ?_)

theorem pullStack_good (h : Good s₀ s) (x1 x2 : Nat) (x3 : List Byte) : Good s₀ (pullStack s x1 x2 x3) := by
  unfold pullStack
  repeat' first
    | with_reducible assumption | with_reducible apply pullBlocks_good | with_reducible apply gatePut_good | with_reducible apply hbmPut_good
    | with_reducible (refine foldl_good (fun _ _ _ => ?_) _ _ ?_) | split | (refine good_mk ?_; dsimp only; with_reducible refine good_p ?_)

theorem pullOn_good (h : Good s₀ s) : Good s₀ (pullOn s) := by
  unfold pullOn
  repeat' first
    | with_reducible assumption | with_reducible apply pullStack_good | with_reducible (refine foldl_good (fun _ _ _ => ?_) _ _ ?_) | split
    | (refine good_mk ?_; dsimp only; with_reducible refine good_p ?_)

theorem writeRoutes_good (h : Good s₀ s) : Good s₀ (writeRoutes s) := by
  unfold writeRoutes
  with_reducible repeat' first
    | assumption | apply State_setTf_good | apply storeReg_good | (refine foldl_good (fun _ _ _ => ?_) _ _ ?_) | refine ite_good ?_ ?_

theorem exchangeEpochs_good (h : Good s₀ s) : Good s₀ (exchangeEpochs s) := by
  unfold exchangeEpochs
  repeat' first
    | with_reducible assumption | with_reducible apply sendCtrl_good | with_reducible (refine foldl_good (fun _ _ _ => ?_) _ _ ?_)
    | (refine good_mk ?_; dsimp only; with_reducible refine good_p ?_)

theorem openQueue_good (h : Good s₀ s) (x1 x2 : Nat) : Good s₀ (openQueue s x1 x2) := by
  unfold openQueue
  with_reducible repeat' first | assumption | apply setReg_good | apply State_setTf_good | apply State_modTile_good | refine ite_good ?_ ?_

theorem startWicket_good (h : Good s₀ s) (x1 x2 : Nat) : Good s₀ (startWicket s x1 x2) := by
  unfold startWicket
  with_reducible repeat' first
    | assumption | apply State_setTf_good | apply openWicket_good | (refine foldl_good (fun _ _ _ => ?_) _ _ ?_) | refine ite_good ?_ ?_

theorem startWickets_good (h : Good s₀ s) : Good s₀ (startWickets s) := by
  unfold startWickets
  with_reducible repeat' first
    | assumption | apply startWicket_good | apply storeReg_good | (refine foldl_good (fun _ _ _ => ?_) _ _ ?_) | refine ite_good ?_ ?_

theorem openTasks_good (h : Good s₀ s) : Good s₀ (openTasks s) := by
  unfold openTasks
  with_reducible repeat' first
    | assumption | apply writeRoutes_good | apply exchangeEpochs_good | apply openQueue_good | apply startWickets_good
    | (refine foldl_good (fun _ _ _ => ?_) _ _ ?_)

theorem setPair_good (h : Good s₀ s) (x1 : Nat) : Good s₀ (setPair s x1) := by
  unfold setPair
  with_reducible repeat' first | assumption | apply setLds_good | apply logAndTell_good | refine ite_good ?_ ?_

theorem checkProtected_good (h : Good s₀ s) : Good s₀ (checkProtected s) := by
  unfold checkProtected
  with_reducible repeat' first | assumption | apply setPair_good | refine ite_good ?_ ?_

theorem takeoverOn_good (h : Good s₀ s) : Good s₀ (takeoverOn s) := by
  unfold takeoverOn
  repeat' first
    | with_reducible assumption | with_reducible apply moveAlias_good | with_reducible refine ite_good ?_ ?_ | split
    | (refine good_mk ?_; dsimp only; with_reducible refine good_p ?_)

theorem abortOn_good (h : Good s₀ s) : Good s₀ (abortOn s) := by
  unfold abortOn
  repeat' first
    | with_reducible assumption | with_reducible apply ctrlAll_good | with_reducible apply takeoverOn_good | with_reducible apply sendCtrl_good
    | with_reducible refine ite_good ?_ ?_ | split | (refine good_mk ?_; dsimp only; with_reducible refine good_p ?_)

theorem startAbort_good (h : Good s₀ s) (x1 : Nat) (x2 : Bool) (x3 x4 : Nat) : Good s₀ (startAbort s x1 x2 x3 x4) := by
  unfold startAbort
  repeat' first
    | with_reducible assumption | with_reducible apply ctrlAll_good | with_reducible apply logAndTell_good | with_reducible apply holdAll_good
    | with_reducible refine ite_good ?_ ?_ | (refine good_mk ?_; dsimp only; with_reducible refine good_p ?_)

theorem takeAbort_good (h : Good s₀ s) (x1 : Nat) (x2 : Bool) (x3 x4 : Nat) : Good s₀ (takeAbort s x1 x2 x3 x4) := by
  unfold takeAbort
  with_reducible repeat' first | assumption | apply abortOn_good | apply startAbort_good

theorem takeHeartbeat_good (h : Good s₀ s) (x1 : CxtPkt) : Good s₀ (takeHeartbeat s x1) := by
  unfold takeHeartbeat
  repeat' first
    | with_reducible assumption | with_reducible apply checkProtected_good | with_reducible apply takeAbort_good | with_reducible refine ite_good ?_ ?_
    | (refine good_mk ?_; dsimp only; with_reducible refine good_p ?_)

theorem execSpareAnswerTimeout_good (h : Good s₀ s)  : ∃ t, (execSpareAnswerTimeout s) = .next t ∧ Good s₀ t := by
  refine ⟨_, rfl, ?_⟩
  repeat' first
    | with_reducible assumption | with_reducible apply takeoverOn_good | with_reducible apply logAndTell_good | with_reducible refine ite_good ?_ ?_
    | split | (refine good_mk ?_; dsimp only; with_reducible refine good_p ?_)

theorem pairLost_good (h : Good s₀ s) : Good s₀ (pairLost s) := by
  unfold pairLost
  repeat' first
    | with_reducible assumption | with_reducible apply logAndTell_good | with_reducible apply startAbort_good | with_reducible apply holdAll_good
    | (refine good_mk ?_; dsimp only; with_reducible refine good_p ?_)

theorem declareFailed_good (h : Good s₀ s) (x1 : Nat) : Good s₀ (declareFailed s x1) := by
  unfold declareFailed
  repeat' first
    | with_reducible assumption | with_reducible apply abortOn_good | with_reducible apply pairLost_good | with_reducible apply takeoverOn_good
    | with_reducible apply logAndTell_good | with_reducible apply startAbort_good | with_reducible apply setCopier_good | with_reducible apply setPair_good
    | with_reducible (refine foldl_good (fun _ _ _ => ?_) _ _ ?_) | with_reducible refine ite_good ?_ ?_
    | (refine good_mk ?_; dsimp only; with_reducible refine good_p ?_)

theorem execProbeTimeout_good (h : Good s₀ s)  : ∃ t, (execProbeTimeout s) = .next t ∧ Good s₀ t := by
  refine ⟨_, rfl, ?_⟩
  repeat' first
    | with_reducible assumption | with_reducible apply declareFailed_good | with_reducible refine ite_good ?_ ?_
    | (refine good_mk ?_; dsimp only; with_reducible refine good_p ?_)

theorem execDirectModeLinkReplay_good (h : Good s₀ s) (x0 : Nat) (x1 : Bool) : ∃ t, (execDirectModeLinkReplay x0 x1 s) = .next t ∧ Good s₀ t := by
  refine ⟨_, rfl, ?_⟩
  repeat' first
    | with_reducible assumption | with_reducible apply State_setPf_good | with_reducible apply portGoesDown_good | with_reducible refine ite_good ?_ ?_
    | split | (refine good_mk ?_; dsimp only; with_reducible refine good_p ?_)

theorem execTileHoldTimeout_good (h : Good s₀ s) (x0 : Nat) : ∃ t, (execTileHoldTimeout x0 s) = .next t ∧ Good s₀ t := by
  refine ⟨_, rfl, ?_⟩
  with_reducible repeat' first | assumption | apply tileReset_good | refine ite_good ?_ ?_

theorem clearDieBars_good (h : Good s₀ s) (x1 : Nat) : Good s₀ (clearDieBars s x1) := by
  unfold clearDieBars
  with_reducible repeat' first | assumption | apply State_setFld_good | (refine foldl_good (fun _ _ _ => ?_) _ _ ?_)

theorem forgetArrivals_good (h : Good s₀ s) : Good s₀ (forgetArrivals s) := by
  unfold forgetArrivals
  repeat' first | with_reducible assumption | (refine good_mk ?_; dsimp only; with_reducible refine good_p ?_)

theorem clearTileBars_good (h : Good s₀ s) (x1 : Nat) : Good s₀ (clearTileBars s x1) := by
  unfold clearTileBars
  with_reducible repeat' first | assumption | apply State_setTf_good | (refine foldl_good (fun _ _ _ => ?_) _ _ ?_)

theorem feedDie_good_rec : ∀ (x2 : Nat) {s : State} (_ : Good s₀ s) (x1 : Nat), Good s₀ (feedDie s x1 x2) := by
  intro x2
  induction x2 with
  | zero =>
    intro s h x1
    unfold feedDie
    with_reducible repeat' first | assumption

  | succ n ih =>
    intro s h x1
    unfold feedDie
    repeat' first
      | with_reducible assumption | with_reducible apply ih | with_reducible apply putReport_good | with_reducible refine ite_good ?_ ?_ | split
      | (refine good_mk ?_; dsimp only; with_reducible refine good_p ?_)

theorem feedDie_good (h : Good s₀ s) (x1 x2 : Nat) : Good s₀ (feedDie s x1 x2) := feedDie_good_rec x2 h x1

theorem dieReset_good (h : Good s₀ s) (x1 : Nat) : Good s₀ (dieReset s x1) := by
  unfold dieReset
  with_reducible repeat' first
    | assumption | apply tileReset_good | apply clearDieBars_good | apply State_setFld_good | apply forgetArrivals_good | apply clearTileBars_good
    | (refine foldl_good (fun _ _ _ => ?_) _ _ ?_) | apply feedDie_good | refine ite_good ?_ ?_

theorem askDieReset_good (h : Good s₀ s) (x1 : Nat) : Good s₀ (askDieReset s x1) := by
  unfold askDieReset
  with_reducible repeat' first | assumption | apply dieReset_good | apply State_setFld_good | refine ite_good ?_ ?_

theorem startGenerations_good (h : Good s₀ s) : Good s₀ (startGenerations s) := by
  unfold startGenerations
  with_reducible repeat' first
    | assumption | apply setCopier_good | apply startGeneration_good | (refine foldl_good (fun _ _ _ => ?_) _ _ ?_) | refine ite_good ?_ ?_

theorem setPstate_good (h : Good s₀ s) (x1 : Nat) : Good s₀ (setPstate s x1) := by
  unfold setPstate
  with_reducible repeat' first | assumption | apply State_setFld_good | (refine foldl_good (fun _ _ _ => ?_) _ _ ?_)

theorem startTiles_good (h : Good s₀ s) : Good s₀ (startTiles s) := by
  unfold startTiles
  with_reducible repeat' first | assumption | apply tctlStart_good | apply setPstate_good | (refine foldl_good (fun _ _ _ => ?_) _ _ ?_)

theorem execRestart_good (h : Good s₀ s)  : ∃ t, (execRestart s) = .next t ∧ Good s₀ t := by
  refine ⟨_, rfl, ?_⟩
  repeat' first
    | with_reducible assumption | with_reducible apply State_setTf_good | with_reducible apply State_setFld_good | with_reducible apply notifyStep_good
    | with_reducible apply openTasks_good | with_reducible apply askDieReset_good | with_reducible apply logAndTell_good
    | with_reducible apply setPair_good | with_reducible apply startGenerations_good | with_reducible apply startTiles_good
    | with_reducible (refine foldl_good (fun _ _ _ => ?_) _ _ ?_) | with_reducible refine ite_good ?_ ?_ | split
    | (refine good_mk ?_; dsimp only; with_reducible refine good_p ?_)

theorem execPortRetrain_good (h : Good s₀ s) (x0 : Nat) (x1 : Bool) : ∃ t, (execPortRetrain x0 x1 s) = .next t ∧ Good s₀ t := by
  refine ⟨_, rfl, ?_⟩
  repeat' first
    | with_reducible assumption | with_reducible apply State_setPf_good | with_reducible refine ite_good ?_ ?_
    | (refine good_mk ?_; dsimp only; with_reducible refine good_p ?_)

theorem takeAlias_good (h : Good s₀ s) (x1 x2 x3 : Nat) (x4 : Bool) (x5 : Nat) : Good s₀ (takeAlias s x1 x2 x3 x4 x5) := by
  unfold takeAlias
  repeat' first
    | with_reducible assumption | with_reducible apply setAlias_good | with_reducible apply ctrlAll_good | with_reducible apply setLds_good
    | with_reducible apply startPull_good | with_reducible refine ite_good ?_ ?_ | split | (refine good_mk ?_; dsimp only; with_reducible refine good_p ?_)

theorem execSpareChosen_good (h : Good s₀ s) (x0 x1 : Nat) : ∃ t, (execSpareChosen x0 x1 s) = .next t ∧ Good s₀ t := by
  refine ⟨_, rfl, ?_⟩
  repeat' first
    | with_reducible assumption | with_reducible apply storeReg_good | with_reducible apply setLds_good | with_reducible apply setPair_good
    | with_reducible apply startPull_good | with_reducible (refine foldl_good (fun _ _ _ => ?_) _ _ ?_) | with_reducible refine ite_good ?_ ?_
    | (refine good_mk ?_; dsimp only; with_reducible refine good_p ?_)

theorem jobEnd_good (h : Good s₀ s) : Good s₀ (jobEnd s) := by
  unfold jobEnd
  with_reducible repeat' first
    | assumption | apply retireDue_good | apply returnPorts_good | apply askDieReset_good | (refine foldl_good (fun _ _ _ => ?_) _ _ ?_)
    | refine ite_good ?_ ?_

theorem flushPort_good (h : Good s₀ s) (x1 : Nat) : Good s₀ (flushPort s x1) := by
  unfold flushPort
  with_reducible repeat' first | assumption | apply flushPath_good | (refine foldl_good (fun _ _ _ => ?_) _ _ ?_)

theorem takeEpochNotice_good (h : Good s₀ s) (x1 x2 : Nat) (x3 x4 : Nat) : Good s₀ (takeEpochNotice s x1 x2 x3 x4) := by
  unfold takeEpochNotice
  repeat' first
    | with_reducible assumption | with_reducible apply tryBars_good | with_reducible apply State_setTf_good
    | with_reducible (refine foldl_good (fun _ _ _ => ?_) _ _ ?_) | (refine good_mk ?_; dsimp only; with_reducible refine good_p ?_)

theorem execHeartbeatPeriod_good (h : Good s₀ s)  : ∃ t, (execHeartbeatPeriod s) = .next t ∧ Good s₀ t := by
  refine ⟨_, rfl, ?_⟩
  repeat' first
    | with_reducible assumption | with_reducible apply State_tellHost_good | with_reducible apply checkProtected_good
    | with_reducible apply declareFailed_good | with_reducible apply setLds_good | with_reducible apply cxtPlain_good
    | with_reducible (refine foldl_good (fun _ _ _ => ?_) _ _ ?_) | with_reducible refine ite_good ?_ ?_ | split
    | (refine good_mk ?_; dsimp only; with_reducible refine good_p ?_)

theorem execTaskEnd_good (h : Good s₀ s) (x0 x1 : Nat) : ∃ t, (execTaskEnd x0 x1 s) = .next t ∧ Good s₀ t := by
  refine ⟨_, rfl, ?_⟩
  with_reducible repeat' first | assumption | apply taskEnd_good | apply jobEnd_good

theorem execHostLost_good (h : Good s₀ s)  : ∃ t, (execHostLost s) = .next t ∧ Good s₀ t := by
  refine ⟨_, rfl, ?_⟩
  with_reducible repeat' first | assumption | apply hostIsLost_good

theorem takeRelease_good (h : Good s₀ s) (x1 : List Byte) (x2 : Nat) : Good s₀ (takeRelease s x1 x2) := by
  unfold takeRelease
  with_reducible repeat' first | assumption | apply ctrlAll_good | apply normRelease_good | refine ite_good ?_ ?_

theorem execPriorityFlowControlFrame_good (h : Good s₀ s) (x0 x1 : Nat) (x2 : Bool) : ∃ t, (execPriorityFlowControlFrame x0 x1 x2 s) = .next t ∧ Good s₀ t := by
  refine ⟨_, rfl, ?_⟩
  repeat' first
    | with_reducible assumption | with_reducible apply flushPort_good | with_reducible refine ite_good ?_ ?_ | split
    | (refine good_mk ?_; dsimp only; with_reducible refine good_p ?_)

theorem replayStack_good (h : Good s₀ s) (x1 x2 : Nat) (x3 : List Byte) (x4 : Nat) : Good s₀ (replayStack s x1 x2 x3 x4) := by
  unfold replayStack
  repeat' first
    | with_reducible assumption | with_reducible apply setReg_good | with_reducible apply commitWrites_good | with_reducible apply State_setFld_good
    | with_reducible apply endStep_good | with_reducible (refine foldl_good (fun _ _ _ => ?_) _ _ ?_) | split

theorem execJournalReplay_good (h : Good s₀ s)  : ∃ t, (execJournalReplay s) = .next t ∧ Good s₀ t := by
  refine ⟨_, rfl, ?_⟩
  with_reducible repeat' first
    | assumption | apply replayStack_good | (refine foldl_good (fun _ _ _ => ?_) _ _ ?_) | refine ite_good ?_ ?_ | exact good_same h rfl rfl rfl rfl rfl rfl

theorem execPortLinkDown_good (h : Good s₀ s) (x0 : Nat) : ∃ t, (execPortLinkDown x0 s) = .next t ∧ Good s₀ t := by
  refine ⟨_, rfl, ?_⟩
  with_reducible repeat' first | assumption | apply portGoesDown_good

theorem execDieReset_good (h : Good s₀ s) (x0 : Nat) : ∃ t, (execDieReset x0 s) = .next t ∧ Good s₀ t := by
  refine ⟨_, rfl, ?_⟩
  with_reducible repeat' first | assumption | apply dieReset_good | refine ite_good ?_ ?_

theorem execDresetGo_good (h : Good s₀ s) (x0 : Nat) : ∃ t, (execDresetGo x0 s) = .next t ∧ Good s₀ t := by
  refine ⟨_, rfl, ?_⟩
  with_reducible repeat' first | assumption | apply askDieReset_good

theorem takeReport_good (h : Good s₀ s) (x1 : Nat) (x2 : Option Nat) : Good s₀ (takeReport s x1 x2) := by
  unfold takeReport
  repeat' first | with_reducible assumption | with_reducible apply abortOn_good | split | (refine good_mk ?_; dsimp only; with_reducible refine good_p ?_)

theorem execTwinBlockRequest_good (h : Good s₀ s) (x0 x1 x2 : Nat) : ∃ t, (execTwinBlockRequest x0 x1 x2 s) = .next t ∧ Good s₀ t := by
  refine ⟨_, rfl, ?_⟩
  with_reducible repeat' first | assumption | apply State_unwire_good | apply State_send_good

theorem execStatePullComplete_good (h : Good s₀ s) (x0 : Bool) : ∃ t, (execStatePullComplete x0 s) = .next t ∧ Good s₀ t := by
  refine ⟨_, rfl, ?_⟩
  repeat' first
    | with_reducible assumption | with_reducible apply pairLost_good | with_reducible refine ite_good ?_ ?_
    | (refine good_mk ?_; dsimp only; with_reducible refine good_p ?_)

/-! ### Ctrl -/

theorem setPairing_good (h : Good s₀ s) (x1 x2 : Bool) : Good s₀ (setPairing s x1 x2) := by
  unfold setPairing
  with_reducible repeat' first | assumption | apply setLds_good | refine ite_good ?_ ?_

theorem hostAnswer_good (h : Good s₀ s) (x1 x2 : Nat) (x3 x4 : Nat) (x5 : List Byte) : Good s₀ (hostAnswer s x1 x2 x3 x4 x5) := by
  unfold hostAnswer
  with_reducible repeat' first | assumption | apply State_tellHost_good | refine ite_good ?_ ?_

theorem comparePair_good (h : Good s₀ s) : Good s₀ (comparePair s) := by
  unfold comparePair
  repeat' first
    | with_reducible assumption | with_reducible apply setPairing_good | with_reducible apply State_logSec_good | with_reducible apply hostAnswer_good
    | with_reducible refine ite_good ?_ ?_ | split | (refine good_mk ?_; dsimp only; with_reducible refine good_p ?_)

theorem landPlain_good (h : Good s₀ s) (x1 : CxtPkt) : Good s₀ (landPlain s x1) := by
  unfold landPlain
  with_reducible repeat' first
    | assumption | apply takeHeartbeat_good | apply isReplaced_good | apply tryBars_good | apply takeGrant_good | apply takeAck_good
    | refine ite_good ?_ ?_

theorem ctrlEffect_good (h : Good s₀ s) (x1 x2 : Nat) (x3 : List Byte) : Good s₀ (ctrlEffect s x1 x2 x3) := by
  unfold ctrlEffect
  repeat' first
    | with_reducible assumption | with_reducible apply isReplaced_good | with_reducible apply declareFailed_good | with_reducible apply comparePair_good
    | with_reducible apply takeRelease_good | with_reducible apply ctrlAll_good | with_reducible apply setLds_good | with_reducible apply takeReport_good
    | with_reducible apply takeEpochNotice_good | with_reducible apply takeAlias_good | with_reducible apply State_send_good
    | with_reducible apply takeAbort_good | with_reducible refine ite_good ?_ ?_ | split | (refine good_mk ?_; dsimp only; with_reducible refine good_p ?_)

theorem landCtrl_good (h : Good s₀ s) (x1 : CxtPkt) : Good s₀ (landCtrl s x1).2 := by
  unfold landCtrl
  repeat' first | with_reducible assumption | with_reducible apply ctrlEffect_good | split | (refine good_mk ?_; dsimp only; with_reducible refine good_p ?_)

theorem landCtrl_good' {a} {t : State} {x1 : CxtPkt}  (ht : (landCtrl s x1) = (a, t)) (h : Good s₀ s) : Good s₀ t := by
  have := landCtrl_good h x1; rw [ht] at this; exact this

theorem landGate_good (h : Good s₀ s) (x1 : CxtPkt) : Good s₀ (landGate s x1).2 := by
  unfold landGate
  repeat' first | with_reducible assumption | with_reducible apply landCtrl_good | with_reducible apply landBarrier_good | split

theorem landGate_good' {a} {t : State} {x1 : CxtPkt}  (ht : (landGate s x1) = (a, t)) (h : Good s₀ s) : Good s₀ t := by
  have := landGate_good h x1; rw [ht] at this; exact this

theorem receiveOp_good (h : Good s₀ s) (x1 : CxtPkt) (x2 : Nat) : Good s₀ (receiveOp s x1 x2) := by
  unfold receiveOp
  with_reducible repeat' first | assumption | apply landGate_good | apply receive_good | apply landPlain_good | intro _

theorem execCxtBarrier_good (h : Good s₀ s) (x0 : CxtPkt) : ∃ t, (execCxtBarrier x0 s) = .next t ∧ Good s₀ t := by
  refine ⟨_, rfl, ?_⟩
  with_reducible repeat' first | assumption | apply receiveOp_good

theorem receiveCtrl_good (h : Good s₀ s) (x1 : CxtPkt) (x2 : Nat) : Good s₀ (receiveCtrl s x1 x2) := by
  unfold receiveCtrl
  with_reducible repeat' first | assumption | apply receiveOp_good

theorem execReplacedNotice_good (h : Good s₀ s) (x0 : CxtPkt) : ∃ t, (execReplacedNotice x0 s) = .next t ∧ Good s₀ t := by
  refine ⟨_, rfl, ?_⟩
  with_reducible repeat' first | assumption | apply receiveCtrl_good

theorem execCxtWrite_good (h : Good s₀ s) (x0 : CxtPkt) : ∃ t, (execCxtWrite x0 s) = .next t ∧ Good s₀ t := by
  refine ⟨_, rfl, ?_⟩
  with_reducible repeat' first | assumption | apply receiveOp_good

theorem execAbortReport_good (h : Good s₀ s) (x0 : CxtPkt) : ∃ t, (execAbortReport x0 s) = .next t ∧ Good s₀ t := by
  refine ⟨_, rfl, ?_⟩
  with_reducible repeat' first | assumption | apply receiveCtrl_good

theorem execDeviceCertificate_good (h : Good s₀ s) (x0 : CxtPkt) : ∃ t, (execDeviceCertificate x0 s) = .next t ∧ Good s₀ t := by
  refine ⟨_, rfl, ?_⟩
  with_reducible repeat' first | assumption | apply receiveCtrl_good

theorem execLayoutEpoch_good (h : Good s₀ s) (x0 : CxtPkt) : ∃ t, (execLayoutEpoch x0 s) = .next t ∧ Good s₀ t := by
  refine ⟨_, rfl, ?_⟩
  with_reducible repeat' first | assumption | apply receiveCtrl_good

theorem execAliasUpdate_good (h : Good s₀ s) (x0 : CxtPkt) : ∃ t, (execAliasUpdate x0 s) = .next t ∧ Good s₀ t := by
  refine ⟨_, rfl, ?_⟩
  with_reducible repeat' first | assumption | apply receiveCtrl_good

theorem execCxtRdata_good (h : Good s₀ s) (x0 : CxtPkt) : ∃ t, (execCxtRdata x0 s) = .next t ∧ Good s₀ t := by
  refine ⟨_, rfl, ?_⟩
  with_reducible repeat' first | assumption | apply receiveOp_good | apply pullOn_good

theorem execCtrlCreditReturn_good (h : Good s₀ s) (x0 : CxtPkt) : ∃ t, (execCtrlCreditReturn x0 s) = .next t ∧ Good s₀ t := by
  refine ⟨_, rfl, ?_⟩
  with_reducible repeat' first | assumption | apply receiveCtrl_good

theorem execCxtSend_good (h : Good s₀ s) (x0 : CxtPkt) : ∃ t, (execCxtSend x0 s) = .next t ∧ Good s₀ t := by
  refine ⟨_, rfl, ?_⟩
  with_reducible repeat' first | assumption | apply receiveOp_good

theorem execCxtJwrite_good (h : Good s₀ s) (x0 : CxtPkt) : ∃ t, (execCxtJwrite x0 s) = .next t ∧ Good s₀ t := by
  refine ⟨_, rfl, ?_⟩
  with_reducible repeat' first | assumption | apply receiveOp_good

theorem execPortNotice_good (h : Good s₀ s) (x0 : CxtPkt) : ∃ t, (execPortNotice x0 s) = .next t ∧ Good s₀ t := by
  refine ⟨_, rfl, ?_⟩
  with_reducible repeat' first | assumption | apply receiveCtrl_good

theorem execCxtAck_good (h : Good s₀ s) (x0 : CxtPkt) : ∃ t, (execCxtAck x0 s) = .next t ∧ Good s₀ t := by
  refine ⟨_, rfl, ?_⟩
  with_reducible repeat' first | assumption | apply receiveOp_good

theorem execCxtRead_good (h : Good s₀ s) (x0 : CxtPkt) : ∃ t, (execCxtRead x0 s) = .next t ∧ Good s₀ t := by
  refine ⟨_, rfl, ?_⟩
  with_reducible repeat' first | assumption | apply receiveOp_good

theorem execReleaseRecord_good (h : Good s₀ s) (x0 : CxtPkt) : ∃ t, (execReleaseRecord x0 s) = .next t ∧ Good s₀ t := by
  refine ⟨_, rfl, ?_⟩
  with_reducible repeat' first | assumption | apply receiveCtrl_good

theorem execFailureNotice_good (h : Good s₀ s) (x0 : CxtPkt) : ∃ t, (execFailureNotice x0 s) = .next t ∧ Good s₀ t := by
  refine ⟨_, rfl, ?_⟩
  with_reducible repeat' first | assumption | apply receiveCtrl_good

theorem execCxtGrant_good (h : Good s₀ s) (x0 : CxtPkt) : ∃ t, (execCxtGrant x0 s) = .next t ∧ Good s₀ t := by
  refine ⟨_, rfl, ?_⟩
  with_reducible repeat' first | assumption | apply receiveOp_good

theorem execCxtHeartbeat_good (h : Good s₀ s) (x0 : CxtPkt) : ∃ t, (execCxtHeartbeat x0 s) = .next t ∧ Good s₀ t := by
  refine ⟨_, rfl, ?_⟩
  with_reducible repeat' first | assumption | apply receiveOp_good

theorem execAbort_good (h : Good s₀ s) (x0 : CxtPkt) : ∃ t, (execAbort x0 s) = .next t ∧ Good s₀ t := by
  refine ⟨_, rfl, ?_⟩
  with_reducible repeat' first | assumption | apply receiveCtrl_good

theorem execQueueEpochNotice_good (h : Good s₀ s) (x0 : CxtPkt) : ∃ t, (execQueueEpochNotice x0 s) = .next t ∧ Good s₀ t := by
  refine ⟨_, rfl, ?_⟩
  with_reducible repeat' first | assumption | apply receiveCtrl_good

end Sys2Proof.Machine
end

