-- ==== Sys2Proof/Laws/GoodLodge.lean ====
section
/-!
SUPPORT. `Good` for the lodge, power, firmware, images and the host port: one lemma per operation.
-/

set_option linter.all false
set_option simprocs false

namespace Sys2Proof.Machine

variable {s₀ s : State}

/-! ### Lodge -/

theorem feedMail_good (h : Good s₀ s) (x1 : Nat) : Good s₀ (feedMail s x1) := by
  unfold feedMail
  repeat' first
    | with_reducible assumption | with_reducible apply mailReport_good | with_reducible (refine foldl_good (fun _ _ _ => ?_) _ _ ?_)
    | (refine good_mk ?_; dsimp only; with_reducible refine good_p ?_)

theorem State_setLf_good (h : Good s₀ s) (x1 : Nat) (x2 : Fld) (x3 : Nat) : Good s₀ (State.setLf s x1 x2 x3) := by
  unfold State.setLf
  with_reducible repeat' first | assumption | apply State_setFld_good

theorem clearHeld_good (h : Good s₀ s) (x1 : Nat) : Good s₀ (clearHeld s x1) := by
  unfold clearHeld
  with_reducible repeat' first | assumption | apply State_setLf_good | apply unhold_good | (refine foldl_good (fun _ _ _ => ?_) _ _ ?_) | refine ite_good ?_ ?_

theorem moveHead_good (h : Good s₀ s) (x1 x2 x3 : Nat) : Good s₀ (moveHead s x1 x2 x3) := by
  unfold moveHead
  with_reducible repeat' first | assumption | apply setReg_good

theorem storeMasked_good (h : Good s₀ s) (x1 : Nat) (x2 x3 : Word) : Good s₀ (storeMasked s x1 x2 x3) := by
  unfold storeMasked
  repeat' first | with_reducible assumption | with_reducible apply storeReg_good | split

theorem writeLdReg_good (h : Good s₀ s) (x1 x2 x3 : Nat) (x4 x5 : Word) : Good s₀ (writeLdReg s x1 x2 x3 x4 x5) := by
  unfold writeLdReg
  with_reducible repeat' first | assumption | apply clearHeld_good | apply resetPaths_good | apply storeMasked_good | refine ite_good ?_ ?_

theorem writeDieReg_good (h : Good s₀ s) (x1 x2 x3 : Nat) (x4 x5 : Word) : Good s₀ (writeDieReg s x1 x2 x3 x4 x5) := by
  unfold writeDieReg
  with_reducible repeat' first
    | assumption | apply clearHeld_good | apply moveHead_good | apply storeMasked_good | apply feedDie_good | apply askDieReset_good | apply armDetour_good
    | refine ite_good ?_ ?_

theorem routeOpens_good (h : Good s₀ s) (x1 x2 : Nat) : Good s₀ (routeOpens s x1 x2) := by
  unfold routeOpens
  with_reducible repeat' first | assumption | apply State_setTf_good | refine ite_good ?_ ?_

theorem writeTileReg_good (h : Good s₀ s) (x1 x2 x3 : Nat) (x4 x5 : Word) : Good s₀ (writeTileReg s x1 x2 x3 x4 x5) := by
  unfold writeTileReg
  with_reducible repeat' first
    | assumption | apply tctlStart_good | apply routeOpens_good | apply tileReset_good | apply writeConetag_good | apply storeMasked_good
    | apply unhold_good | apply clearCone_good | apply clearSlots_good | apply fenceTile_good | refine ite_good ?_ ?_

theorem writeMcReg_good (h : Good s₀ s) (x1 x2 x3 : Nat) (x4 x5 : Word) : Good s₀ (writeMcReg s x1 x2 x3 x4 x5) := by
  unfold writeMcReg
  with_reducible repeat' first | assumption | apply storeMasked_good | apply setCopier_good | apply writeGate_good | refine ite_good ?_ ?_

theorem writeReg_good (h : Good s₀ s) (x1 : Nat) (x2 x3 : Word) : Good s₀ (writeReg s x1 x2 x3) := by
  unfold writeReg
  repeat' first
    | with_reducible assumption | with_reducible apply clearHeld_good | with_reducible apply moveHead_good | with_reducible apply storeMasked_good
    | with_reducible apply writeLdReg_good | with_reducible apply feedMail_good | with_reducible apply writeDieReg_good
    | with_reducible apply writeTileReg_good | with_reducible apply writeMcReg_good | with_reducible refine ite_good ?_ ?_ | split

theorem record_good (h : Good s₀ s) (x1 x2 x3 : Nat) (x4 : Bool) (x5 : State → State) (hx5 : ∀ y0, Good s₀ y0 → Good s₀ (x5 y0)) : Good s₀ (record s x1 x2 x3 x4 x5) := by
  unfold record
  with_reducible repeat' first | assumption | apply hx5 | apply State_setLf_good | apply State_setFld_good | refine ite_good ?_ ?_

theorem command_good (h : Good s₀ s) (x1 x2 x3 : Nat) (x4 : Bool) (x5 : State → State) (hx5 : ∀ y0, Good s₀ y0 → Good s₀ (x5 y0)) : Good s₀ (command s x1 x2 x3 x4 x5) :=
  record_good h _ _ _ _ _ hx5

theorem putSpad_good (h : Good s₀ s) (x1 x2 : Nat) (x3 : List Byte) : Good s₀ (putSpad s x1 x2 x3) := by
  unfold putSpad
  with_reducible repeat' first | assumption | apply wr_good | apply State_modTile_good | (refine foldl_good (fun _ _ _ => ?_) _ _ ?_)

theorem writeWord_good (x1 : Nat) (x2 : Word) (s : State) (h : Good s₀ s) : Good s₀ (writeWord x1 x2 s) := by
  unfold writeWord
  split
  · exact putSpad_good h _ _ _
  · exact writeReg_good h _ _ _

theorem maskWord_good (x1 : Nat) (x2 x3 : Word) (s : State) (h : Good s₀ s) : Good s₀ (maskWord x1 x2 x3 s) := by
  unfold maskWord
  split
  · exact putSpad_good h _ _ _
  · exact writeReg_good h _ _ _

theorem execCommandMaskedWrite_good (h : Good s₀ s) (x0 x1 x2 : Nat) (x3 x4 : Word) : ∃ t, (execCommandMaskedWrite x0 x1 x2 x3 x4 s) = .next t ∧ Good s₀ t := by
  exact ⟨_, rfl, command_good h _ _ _ _ _ (maskWord_good _ _ _)⟩

theorem execLeaseTermExpiry_good (h : Good s₀ s)  : ∃ t, (execLeaseTermExpiry s) = .next t ∧ Good s₀ t := by
  refine ⟨_, rfl, ?_⟩
  with_reducible repeat' first | assumption | apply modLodge_good

theorem stageFive_good (h : Good s₀ s) : Good s₀ (stageFive s) := by
  unfold stageFive
  repeat' first
    | with_reducible assumption | with_reducible apply modLodge_good | with_reducible apply State_logSec_good | with_reducible refine ite_good ?_ ?_
    | split | (refine good_mk ?_; dsimp only; with_reducible refine good_p ?_) | with_reducible (refine modMram_good ?_ _ (fun _ => rfl))

theorem bothLog_good (h : Good s₀ s) (x1 x2 : Nat) : Good s₀ (bothLog s x1 x2) := by
  unfold bothLog
  with_reducible repeat' first | assumption | apply hostEvent_good | apply State_submit_good | (refine foldl_good (fun _ _ _ => ?_) _ _ ?_)

theorem setLease_good (h : Good s₀ s) (x1 : Fld) (x2 : Nat) : Good s₀ (setLease s x1 x2) := by
  unfold setLease
  with_reducible repeat' first | assumption | apply State_setLf_good | (refine foldl_good (fun _ _ _ => ?_) _ _ ?_)

theorem arbiterFails_good (h : Good s₀ s) : Good s₀ (arbiterFails s) := by
  unfold arbiterFails
  with_reducible repeat' first | assumption | apply modLodge_good | apply bothLog_good | apply setLease_good | refine ite_good ?_ ?_

theorem grantLease_good (h : Good s₀ s) (x1 : Nat) : Good s₀ (grantLease s x1) := by
  unfold grantLease
  split
  · exact arbiterFails_good h
  · rename_i hc
    have g : Good s₀ (s.modMram fun m => { m with epoch := s.mram.epoch + 1 }) :=
      ⟨h.1, h.2.1, h.2.2.1, Nat.le_succ_of_le h.2.2.2.1, fun _ => by
        show s.mram.epoch + 1 < 2 ^ 32
        omega⟩
    dsimp only
    have g1 := setLease_good (setLease_good (setLease_good g R.DLEASE_EPOCH (s.mram.epoch + 1)) R.DLEASE_HOLDER x1) R.DLEASE_VALID 1
    split
    · exact stageFive_good (modLodge_good g1 _)
    · exact modLodge_good g1 _

theorem execArbiterFault_good (h : Good s₀ s)  : ∃ t, (execArbiterFault s) = .next t ∧ Good s₀ t := by
  refine ⟨_, rfl, ?_⟩
  with_reducible repeat' first | assumption | apply arbiterFails_good

theorem copyIn_good (h : Good s₀ s) (x1 x2 x3 : Nat) : Good s₀ (copyIn s x1 x2 x3) := by
  unfold copyIn
  repeat' first
    | with_reducible assumption | with_reducible apply writeReg_good | with_reducible apply putSpad_good
    | with_reducible (refine foldl_good (fun _ _ _ => ?_) _ _ ?_) | split

theorem runRecord_good (h : Good s₀ s) (x1 x2 x3 : Nat) : Good s₀ (runRecord s x1 x2 x3) := by
  unfold runRecord
  dsimp only
  split
  · exact record_good h _ _ _ _ _ (writeWord_good _ _)
  · exact record_good h _ _ _ _ _ (maskWord_good _ _ _)
  · exact record_good h _ _ _ _ _ fun _ g => copyIn_good g _ _ _
  · exact record_good h _ _ _ _ _ fun _ g => g

theorem execRegisterWrite_good (h : Good s₀ s) (x0 : Nat) (x1 : Word) : ∃ t, (execRegisterWrite x0 x1 s) = .next t ∧ Good s₀ t := by
  refine ⟨_, rfl, ?_⟩
  have g : Good s₀ (s.unwire (.regWrite x0 x1)) := State_unwire_good h _
  dsimp only
  split
  · split
    · refine runRecord_good ?_ _ _ _
      exact good_same g rfl rfl rfl rfl rfl rfl
    · exact good_same g rfl rfl rfl rfl rfl rfl
  · exact writeReg_good g _ _ _

theorem execDleaseHeldClear_good (h : Good s₀ s) (x0 : Nat) : ∃ t, (execDleaseHeldClear x0 s) = .next t ∧ Good s₀ t := by
  refine ⟨_, rfl, ?_⟩
  with_reducible repeat' first | assumption | apply clearHeld_good

theorem execCommandCopy_good (h : Good s₀ s) (x0 x1 : Nat) (x2 x3 x4 : Nat) : ∃ t, (execCommandCopy x0 x1 x2 x3 x4 s) = .next t ∧ Good s₀ t := by
  refine ⟨_, rfl, ?_⟩
  with_reducible repeat' first | assumption | apply command_good | apply copyIn_good | intro _

theorem execCommandWrite_good (h : Good s₀ s) (x0 x1 x2 : Nat) (x3 : Word) : ∃ t, (execCommandWrite x0 x1 x2 x3 s) = .next t ∧ Good s₀ t := by
  exact ⟨_, rfl, command_good h _ _ _ _ _ (writeWord_good _ _)⟩

theorem execLeaseRelease_good (h : Good s₀ s)  : ∃ t, (execLeaseRelease s) = .next t ∧ Good s₀ t := by
  refine ⟨_, rfl, ?_⟩
  with_reducible repeat' first | assumption | apply modLodge_good

theorem execLeaseRequest_good (h : Good s₀ s) (x0 : Nat) : ∃ t, (execLeaseRequest x0 s) = .next t ∧ Good s₀ t := by
  refine ⟨_, rfl, ?_⟩
  repeat' first
    | with_reducible assumption | with_reducible apply modLodge_good | with_reducible apply grantLease_good | with_reducible refine ite_good ?_ ?_ | split

theorem execStaleCommand_good (h : Good s₀ s) (x0 : Nat) : ∃ t, (execStaleCommand x0 s) = .next t ∧ Good s₀ t := by
  refine ⟨_, rfl, ?_⟩
  with_reducible repeat' first | assumption | apply modLodge_good | apply State_submit_good | refine ite_good ?_ ?_

theorem execKeepaliveMissed_good (h : Good s₀ s) (x0 : Nat) : ∃ t, (execKeepaliveMissed x0 s) = .next t ∧ Good s₀ t := by
  refine ⟨_, rfl, ?_⟩
  repeat' first
    | with_reducible assumption | with_reducible apply hostEvent_good | with_reducible apply mailReport_good | with_reducible apply State_setLf_good
    | with_reducible apply State_submit_good | with_reducible refine ite_good ?_ ?_ | split
    | (refine good_mk ?_; dsimp only; with_reducible refine good_p ?_)

theorem execGatehouseFailstop_good (h : Good s₀ s) (x0 : Nat) : ∃ t, (execGatehouseFailstop x0 s) = .next t ∧ Good s₀ t := by
  refine ⟨_, rfl, ?_⟩
  with_reducible repeat' first | assumption | apply ghFails_good

theorem execLeaseRenewRequest_good (h : Good s₀ s) (x0 : Nat) : ∃ t, (execLeaseRenewRequest x0 s) = .next t ∧ Good s₀ t := by
  refine ⟨_, rfl, ?_⟩
  with_reducible repeat' first | assumption | apply modLodge_good | apply grantLease_good | refine ite_good ?_ ?_

theorem execHolderRenewalLapse_good (h : Good s₀ s)  : ∃ t, (execHolderRenewalLapse s) = .next t ∧ Good s₀ t := by
  refine ⟨_, rfl, ?_⟩
  with_reducible repeat' first | assumption | apply modLodge_good

/-! ### Power -/

theorem keptRegs_mwf (s : State) : mwf resetOf none (keptRegs s) = true := by
  unfold keptRegs
  refine List.foldlRecOn s.regs _ (motive := fun m => mwf resetOf none m = true) rfl fun m h e _ => ?_
  split
  · exact mput_mwf h
  · exact h
theorem diesLost_good (h : Good s₀ s) : Good s₀ (diesLost s) := by
  unfold diesLost
  have g := foldl_good (f := fun s (b : Nat × Nat) => unbindTile s b.1) (fun _ _ => (unbindTile_good · _)) s.bind s h
  exact ⟨fun _ => ⟨keptRegs_mwf _, rfl, rfl⟩, g.2⟩

theorem toAon_good (h : Good s₀ s) : Good s₀ (toAon s) := by
  unfold toAon
  with_reducible repeat' first | assumption | apply modLodge_good | apply diesLost_good

theorem thermTrip_good (h : Good s₀ s) (x1 : Nat) : Good s₀ (thermTrip s x1) := by
  unfold thermTrip
  with_reducible repeat' first | assumption | apply modLodge_good | apply State_submit_good | apply toAon_good

theorem raiseCause_good (h : Good s₀ s) (x1 x2 : Nat) : Good s₀ (raiseCause s x1 x2) := by
  unfold raiseCause
  repeat' first
    | with_reducible assumption | with_reducible apply hostEvent_good | with_reducible apply modLodge_good | with_reducible refine ite_good ?_ ?_ | split
    | with_reducible (refine modMram_good ?_ _ (fun _ => rfl))

theorem execThermalHold_good (h : Good s₀ s) (x0 : Nat) : ∃ t, (execThermalHold x0 s) = .next t ∧ Good s₀ t := by
  refine ⟨_, rfl, ?_⟩
  with_reducible repeat' first
    | assumption | apply hostEvent_good | apply State_setFld_good | apply thermTrip_good | apply State_submit_good | apply raiseCause_good
    | apply holdAll_good | refine ite_good ?_ ?_

theorem showPool_good (h : Good s₀ s) (x1 : Nat) : Good s₀ (showPool s x1) := by
  unfold showPool
  with_reducible repeat' first | assumption | apply State_setFld_good

theorem dropSteps_good (h : Good s₀ s) (x1 : Nat) : Good s₀ (dropSteps s x1) := by
  unfold dropSteps
  with_reducible repeat' first | assumption | apply State_setTf_good | apply showPool_good | (refine foldl_good (fun _ _ _ => ?_) _ _ ?_)

theorem loseScratch_good (h : Good s₀ s) (x1 : Nat) : Good s₀ (loseScratch s x1) := by
  unfold loseScratch
  with_reducible repeat' first | assumption | refine dropMem_good ?_ _ _ rfl rfl rfl rfl rfl rfl

theorem setLatch_good (h : Good s₀ s) (x1 : Nat) (x2 : Option Bool) : Good s₀ (setLatch s x1 x2) := by
  unfold setLatch
  with_reducible repeat' first | assumption | apply modLodge_good

theorem startsMc_good (h : Good s₀ s) (x1 : Nat) : Good s₀ (startsMc s x1) := by
  unfold startsMc
  with_reducible repeat' first | assumption | apply State_setFld_good | refine ite_good ?_ ?_

theorem setFn_good (h : Good s₀ s) (x1 x2 : Nat) : Good s₀ (setFn s x1 x2) := by
  unfold setFn
  repeat' first
    | with_reducible assumption | with_reducible apply modLodge_good | with_reducible apply State_setFld_good | with_reducible apply State_setPf_good
    | with_reducible refine ite_good ?_ ?_ | split

theorem requestFn_good (h : Good s₀ s) (x1 : Nat) (x2 : Bool) : Good s₀ (requestFn s x1 x2) := by
  unfold requestFn
  repeat' first
    | with_reducible assumption | with_reducible apply setLatch_good | with_reducible apply startsMc_good | with_reducible apply setFn_good
    | with_reducible refine ite_good ?_ ?_ | split

theorem trainLinks_good (h : Good s₀ s) (x1 : Nat → Nat → Bool) : Good s₀ (trainLinks s x1) := by
  unfold trainLinks
  with_reducible repeat' first | assumption | apply State_setFld_good | (refine foldl_good (fun _ _ _ => ?_) _ _ ?_) | refine ite_good ?_ ?_

theorem rise_good (h : Good s₀ s) : Good s₀ (rise s) := by
  unfold rise
  with_reducible repeat' first
    | assumption | apply requestFn_good | apply trainLinks_good | (refine foldl_good (fun _ _ _ => ?_) _ _ ?_) | refine ite_good ?_ ?_

theorem packageReset_good (h : Good s₀ s) : Good s₀ (packageReset s) := by
  have g := diesLost_good h
  exact ⟨fun _ => ⟨rfl, rfl, rfl⟩, g.2.1, g.2.2.1, h.2.2.2⟩

theorem execPorstNAssert_good (h : Good s₀ s)  : ∃ t, (execPorstNAssert s) = .next t ∧ Good s₀ t := by
  refine ⟨_, rfl, ?_⟩
  with_reducible repeat' first | assumption | apply packageReset_good | refine ite_good ?_ ?_

theorem execHostPortTrained_good (h : Good s₀ s)  : ∃ t, (execHostPortTrained s) = .next t ∧ Good s₀ t := by
  refine ⟨_, rfl, ?_⟩
  with_reducible repeat' first | assumption | apply modLodge_good | refine ite_good ?_ ?_

theorem execPvXPowerOn_good (h : Good s₀ s)  : ∃ t, (execPvXPowerOn s) = .next t ∧ Good s₀ t := by
  refine ⟨_, rfl, ?_⟩
  with_reducible repeat' first | assumption | apply modLodge_good | apply requestFn_good | (refine foldl_good (fun _ _ _ => ?_) _ _ ?_) | refine ite_good ?_ ?_

theorem startFill_good (h : Good s₀ s) : Good s₀ (startFill s) := by
  unfold startFill
  with_reducible repeat' first | assumption | apply modLodge_good | apply State_setFld_good | (refine foldl_good (fun _ _ _ => ?_) _ _ ?_)

theorem lookRun_good (h : Good s₀ s) : Good s₀ (lookRun s) := by
  unfold lookRun
  with_reducible repeat' first | assumption | apply startFill_good | apply setPstate_good | refine ite_good ?_ ?_

theorem clearCause_good (h : Good s₀ s) (x1 : Nat) : Good s₀ (clearCause s x1) := by
  unfold clearCause
  with_reducible repeat' first | assumption | apply modLodge_good

theorem execRefclkAonArrival_good (h : Good s₀ s)  : ∃ t, (execRefclkAonArrival s) = .next t ∧ Good s₀ t := by
  refine ⟨_, rfl, ?_⟩
  with_reducible repeat' first | assumption | apply modLodge_good | apply clearCause_good | refine ite_good ?_ ?_

theorem reachReady_good (h : Good s₀ s) (x1 : Ask) : Good s₀ (reachReady s x1) := by
  unfold reachReady
  with_reducible repeat' first
    | assumption | apply modLodge_good | apply retireDue_good | apply setPstate_good | apply hostAnswer_good | (refine foldl_good (fun _ _ _ => ?_) _ _ ?_)

theorem fall_good (h : Good s₀ s) : Good s₀ (fall s) := by
  unfold fall
  with_reducible repeat' first | assumption | apply requestFn_good | (refine foldl_good (fun _ _ _ => ?_) _ _ ?_) | refine ite_good ?_ ?_

theorem powerOn_good (h : Good s₀ s) : Good s₀ (powerOn s) := by
  unfold powerOn
  repeat' first
    | with_reducible assumption | with_reducible apply reachReady_good | with_reducible apply modLodge_good | with_reducible apply rise_good
    | with_reducible apply requestFn_good | with_reducible apply fall_good | with_reducible apply setPstate_good | with_reducible apply toAon_good
    | with_reducible apply hostAnswer_good | with_reducible (refine foldl_good (fun _ _ _ => ?_) _ _ ?_) | with_reducible refine ite_good ?_ ?_ | split

theorem execFunctionStoppingEnd_good (h : Good s₀ s) (x0 : Nat) : ∃ t, (execFunctionStoppingEnd x0 s) = .next t ∧ Good s₀ t := by
  refine ⟨_, rfl, ?_⟩
  with_reducible repeat' first | assumption | apply requestFn_good | apply powerOn_good | apply setLatch_good | apply setFn_good | refine ite_good ?_ ?_

theorem showStretch_good (h : Good s₀ s) (x1 : Nat) : Good s₀ (showStretch s x1) := by
  unfold showStretch
  with_reducible repeat' first | assumption | apply State_setFld_good | apply dropSteps_good | refine ite_good ?_ ?_

theorem readTemp_good (h : Good s₀ s) (x1 x2 : Nat) : Good s₀ (readTemp s x1 x2) := by
  unfold readTemp
  with_reducible repeat' first | assumption | apply modLodge_good | apply showStretch_good | apply State_setFld_good

theorem execThermalRead_good (h : Good s₀ s) (x0 : List Nat) : ∃ t, (execThermalRead x0 s) = .next t ∧ Good s₀ t := by
  refine ⟨_, rfl, ?_⟩
  with_reducible repeat' first | assumption | apply readTemp_good | apply thermTrip_good | (refine foldl_good (fun _ _ _ => ?_) _ _ ?_) | refine ite_good ?_ ?_

theorem stacksLost_good (h : Good s₀ s) : Good s₀ (stacksLost s) := by
  unfold stacksLost
  with_reducible repeat' first | assumption | apply State_setMc_good | apply mcFatal_good | (refine foldl_good (fun _ _ _ => ?_) _ _ ?_)

theorem stageFails_good (h : Good s₀ s) (x1 : Nat) : Good s₀ (stageFails s x1) := by
  unfold stageFails
  repeat' first
    | with_reducible assumption | with_reducible apply hostEvent_good | with_reducible apply modLodge_good | with_reducible apply State_submit_good
    | with_reducible apply hostAnswer_good | with_reducible refine ite_good ?_ ?_ | split
    | (refine good_mk ?_; dsimp only; with_reducible refine good_p ?_)

theorem vhbmFalls_good (h : Good s₀ s) : Good s₀ (vhbmFalls s) := by
  unfold vhbmFalls
  with_reducible repeat' first
    | assumption | apply modLodge_good | apply State_submit_good | apply stacksLost_good | apply toAon_good | apply stageFails_good | refine ite_good ?_ ?_

theorem execPgVhbmFall_good (h : Good s₀ s)  : ∃ t, (execPgVhbmFall s) = .next t ∧ Good s₀ t := by
  refine ⟨_, rfl, ?_⟩
  with_reducible repeat' first | assumption | apply vhbmFalls_good | refine ite_good ?_ ?_

theorem execVaonInRange_good (h : Good s₀ s)  : ∃ t, (execVaonInRange s) = .next t ∧ Good s₀ t := by
  refine ⟨_, rfl, ?_⟩
  with_reducible repeat' first | assumption | apply modLodge_good | apply packageReset_good | refine ite_good ?_ ?_

theorem execTileLend_good (h : Good s₀ s) (x0 : Nat) : ∃ t, (execTileLend x0 s) = .next t ∧ Good s₀ t := by
  refine ⟨_, rfl, ?_⟩
  with_reducible repeat' first | assumption | apply State_setTf_good | apply showPool_good | refine ite_good ?_ ?_

theorem execPorstNRelease_good (h : Good s₀ s) (x0 x1 : Bool) : ∃ t, (execPorstNRelease x0 x1 s) = .next t ∧ Good s₀ t := by
  refine ⟨_, rfl, ?_⟩
  with_reducible repeat' first | assumption | apply modLodge_good | apply raiseCause_good | apply State_logSec_good | refine ite_good ?_ ?_

theorem execVaonLost_good (h : Good s₀ s) : ∃ t, (execVaonLost s) = .next t ∧ Good s₀ t := by
  have g := packageReset_good (State_freeNat_good h)
  exact ⟨_, rfl, g.1, g.2.1, g.2.2.1, h.2.2.2⟩

theorem tileLost_good (h : Good s₀ s) (x1 : Nat) : Good s₀ (tileLost s x1) := by
  unfold tileLost
  repeat' first
    | with_reducible assumption | with_reducible apply tileReset_good | with_reducible apply State_setTf_good | with_reducible apply State_modTile_good
    | (refine good_mk ?_; dsimp only; with_reducible refine good_p ?_)

theorem execPowerGoodRise_good (h : Good s₀ s) (x0 : Nat) : ∃ t, (execPowerGoodRise x0 s) = .next t ∧ Good s₀ t := by
  refine ⟨_, rfl, ?_⟩
  with_reducible repeat' first | assumption | apply modLodge_good | apply powerOn_good | refine ite_good ?_ ?_

theorem domainLost_good (h : Good s₀ s) (x1 : Nat) : Good s₀ (domainLost s x1) := by
  unfold domainLost
  with_reducible repeat' first | assumption | apply tileLost_good | apply loseScratch_good | apply setFn_good | (refine foldl_good (fun _ _ _ => ?_) _ _ ?_)

theorem execPowerGoodVinxFall_good (h : Good s₀ s)  : ∃ t, (execPowerGoodVinxFall s) = .next t ∧ Good s₀ t := by
  refine ⟨_, rfl, ?_⟩
  with_reducible repeat' first | assumption | apply modLodge_good | apply State_submit_good | apply toAon_good | apply stageFails_good | refine ite_good ?_ ?_

theorem execPackageDamperPeriod_good (h : Good s₀ s)  : ∃ t, (execPackageDamperPeriod s) = .next t ∧ Good s₀ t := by
  refine ⟨_, rfl, ?_⟩
  with_reducible repeat' first
    | assumption | apply State_setFld_good | apply State_freeNat_good | apply showPool_good | (refine foldl_good (fun _ _ _ => ?_) _ _ ?_)

theorem execPowerGoodVincFall_good (h : Good s₀ s) (x0 : Nat) : ∃ t, (execPowerGoodVincFall x0 s) = .next t ∧ Good s₀ t := by
  refine ⟨_, rfl, ?_⟩
  with_reducible repeat' first
    | assumption | apply modLodge_good | apply domainLost_good | apply State_submit_good | apply leaveJob_good | apply stageFails_good
    | refine ite_good ?_ ?_

theorem offerStep_good (h : Good s₀ s) (x1 x2 : Nat) : Good s₀ (offerStep s x1 x2) := by
  unfold offerStep
  with_reducible repeat' first | assumption | apply State_setTf_good | refine ite_good ?_ ?_

theorem execDamperPeriod_good (h : Good s₀ s) (x0 : Nat) : ∃ t, (execDamperPeriod x0 s) = .next t ∧ Good s₀ t := by
  refine ⟨_, rfl, ?_⟩
  with_reducible repeat' first
    | assumption | apply offerStep_good | apply State_setTf_good | apply dropSteps_good | apply showPool_good
    | (refine foldl_good (fun _ _ _ => ?_) _ _ ?_) | refine ite_good ?_ ?_

theorem execBootStageFail_good (h : Good s₀ s)  : ∃ t, (execBootStageFail s) = .next t ∧ Good s₀ t := by
  refine ⟨_, rfl, ?_⟩
  with_reducible repeat' first | assumption | apply stageFails_good | refine ite_good ?_ ?_

theorem execPowerGoodTimeout_good (h : Good s₀ s)  : ∃ t, (execPowerGoodTimeout s) = .next t ∧ Good s₀ t := by
  refine ⟨_, rfl, ?_⟩
  with_reducible repeat' first | assumption | apply stageFails_good | refine ite_good ?_ ?_

theorem execPackagePowerSample_good (h : Good s₀ s) (x0 : Nat) : ∃ t, (execPackagePowerSample x0 s) = .next t ∧ Good s₀ t := by
  refine ⟨_, rfl, ?_⟩
  with_reducible repeat' first
    | assumption | apply modLodge_good | apply showStretch_good | apply State_setFld_good | apply State_submit_good | apply dropSteps_good
    | apply showPool_good | (refine foldl_good (fun _ _ _ => ?_) _ _ ?_) | refine ite_good ?_ ?_

/-! ### Kiln -/

theorem setSlot_good (h : Good s₀ s) (x1 : Nat) (x2 : FwSlot) : Good s₀ (setSlot s x1 x2) := by
  unfold setSlot
  repeat' first | with_reducible assumption | split | with_reducible (refine modMram_good ?_ _ (fun _ => rfl))

theorem State_modKiln_good (h : Good s₀ s) (x1 : Kiln → Kiln) : Good s₀ (State.modKiln s x1) := by
  unfold State.modKiln
  with_reducible repeat' first | assumption | (refine modMram_good ?_ _ (fun _ => rfl))

theorem tellFull_good (h : Good s₀ s) (x1 : Bool) : Good s₀ (tellFull s x1) := by
  unfold tellFull
  with_reducible repeat' first | assumption | apply hostEvent_good | refine ite_good ?_ ?_

theorem logSecurity_good (h : Good s₀ s) (x1 : LogSub) : Good s₀ (logSecurity s x1) := by
  unfold logSecurity
  with_reducible repeat' first | assumption | apply tellFull_good | apply State_modKiln_good | refine ite_good ?_ ?_

theorem logOperational_good (h : Good s₀ s) (x1 : LogSub) : Good s₀ (logOperational s x1) := by
  unfold logOperational
  with_reducible repeat' first | assumption | apply tellFull_good | apply State_modKiln_good | refine ite_good ?_ ?_

theorem logOne_good (h : Good s₀ s) (x1 : LogSub) : Good s₀ (logOne s x1) := by
  unfold logOne
  with_reducible repeat' first | assumption | apply logOperational_good | apply logSecurity_good | refine ite_good ?_ ?_

theorem clearLog_good (h : Good s₀ s) (x1 x2 : Bool) (x3 : Nat) : Good s₀ (clearLog s x1 x2 x3) := by
  unfold clearLog
  with_reducible repeat' first | assumption | apply logOne_good | apply State_modKiln_good | refine ite_good ?_ ?_

theorem slotFails_good (h : Good s₀ s) (x1 x2 x3 : Nat) : Good s₀ (slotFails s x1 x2 x3) := by
  unfold slotFails
  with_reducible repeat' first | assumption | apply State_submit_good | apply State_logSec_good

theorem endSession_good (h : Good s₀ s) (x1 x2 : Nat) : Good s₀ (endSession s x1 x2) := by
  unfold endSession
  repeat' first
    | with_reducible assumption | with_reducible apply hostIsLost_good | with_reducible apply State_logSec_good | with_reducible refine ite_good ?_ ?_
    | split | (refine good_mk ?_; dsimp only; with_reducible refine good_p ?_)

theorem execLogSubmission_good (h : Good s₀ s)  : ∃ t, (execLogSubmission s) = .next t ∧ Good s₀ t := by
  refine ⟨_, rfl, ?_⟩
  repeat' first | with_reducible assumption | with_reducible apply logOne_good | split | (refine good_mk ?_; dsimp only; with_reducible refine good_p ?_)

theorem execHdPowerUp_good (h : Good s₀ s)  : ∃ t, (execHdPowerUp s) = .next t ∧ Good s₀ t := by
  refine ⟨_, rfl, ?_⟩
  with_reducible repeat' first
    | assumption | apply modLodge_good | apply setPstate_good | apply State_logSec_good | apply setFn_good | apply stageFails_good | apply trainLinks_good
    | refine ite_good ?_ ?_

theorem execGatehouseBoot_good (h : Good s₀ s)  : ∃ t, (execGatehouseBoot s) = .next t ∧ Good s₀ t := by
  refine ⟨_, rfl, ?_⟩
  repeat' first
    | with_reducible assumption | with_reducible apply modLodge_good | with_reducible apply State_logSec_good | with_reducible apply stageFails_good
    | with_reducible apply trainLinks_good | with_reducible refine ite_good ?_ ?_ | (refine good_mk ?_; dsimp only; with_reducible refine good_p ?_)

theorem execAttestTokenRefill_good (h : Good s₀ s)  : ∃ t, (execAttestTokenRefill s) = .next t ∧ Good s₀ t := by
  refine ⟨_, rfl, ?_⟩
  with_reducible repeat' first | assumption | refine ite_good ?_ ?_ | (refine modMram_good ?_ _ (fun _ => rfl))

theorem execSelfTestFail_good (h : Good s₀ s) (x0 : Nat) : ∃ t, (execSelfTestFail x0 s) = .next t ∧ Good s₀ t := by
  refine ⟨_, rfl, ?_⟩
  repeat' first
    | with_reducible assumption | with_reducible apply modLodge_good | with_reducible apply raiseCause_good | with_reducible apply endSession_good
    | with_reducible apply State_logSec_good | with_reducible (refine foldl_good (fun _ _ _ => ?_) _ _ ?_) | with_reducible refine ite_good ?_ ?_
    | (refine good_mk ?_; dsimp only; with_reducible refine good_p ?_)

theorem execLogWindowExpiry_good (h : Good s₀ s) (x0 : Nat) : ∃ t, (execLogWindowExpiry x0 s) = .next t ∧ Good s₀ t := by
  refine ⟨_, rfl, ?_⟩
  with_reducible repeat' first | assumption | apply State_modKiln_good

theorem execLodgeFirmwareVerify_good (h : Good s₀ s)  : ∃ t, (execLodgeFirmwareVerify s) = .next t ∧ Good s₀ t := by
  refine ⟨_, rfl, ?_⟩
  repeat' first
    | with_reducible assumption | with_reducible apply modLodge_good | with_reducible apply slotFails_good | with_reducible apply raiseCause_good
    | with_reducible apply setSlot_good | with_reducible refine ite_good ?_ ?_ | split | (refine good_mk ?_; dsimp only; with_reducible refine good_p ?_)

/-! ### Image -/

theorem loadReg_good (h : Good s₀ s) (x1 : Nat × Nat) : Good s₀ (loadReg s x1) := by
  unfold loadReg
  repeat' first
    | with_reducible assumption | with_reducible apply routeOpens_good | with_reducible apply storeReg_good | split
    | (refine good_mk ?_; dsimp only; with_reducible refine good_p ?_)

theorem bindImage_good (h : Good s₀ s) (x1 : List Byte) : Good s₀ (bindImage s x1) := by
  unfold bindImage
  with_reducible repeat' first | assumption | apply bindTile_good | apply unbindTile_good | (refine foldl_good (fun _ _ _ => ?_) _ _ ?_) | refine ite_good ?_ ?_

theorem acceptImage_good (h : Good s₀ s) (x1 : List Byte) : Good s₀ (acceptImage s x1) := by
  unfold acceptImage
  repeat' first
    | with_reducible assumption | with_reducible apply startGroup_good | with_reducible apply bindImage_good | with_reducible apply storeReg_good
    | with_reducible apply loadRemap_good | with_reducible (refine foldl_good (fun _ _ _ => ?_) _ _ ?_) | with_reducible refine ite_good ?_ ?_ | split
    | (refine good_mk ?_; dsimp only; with_reducible refine good_p ?_)

theorem loadProgram_good (h : Good s₀ s) (x1 x2 : Nat) (x3 : List Byte) : Good s₀ (loadProgram s x1 x2 x3) := by
  unfold loadProgram
  repeat' first | with_reducible assumption | with_reducible apply putSpad_good | with_reducible (refine foldl_good (fun _ _ _ => ?_) _ _ ?_) | split

theorem imageRefused_good (h : Good s₀ s) (x1 x2 x3 : Nat) : Good s₀ (imageRefused s x1 x2 x3) := by
  unfold imageRefused
  repeat' first
    | with_reducible assumption | with_reducible apply State_logOp_good | with_reducible apply hostAnswer_good | with_reducible refine ite_good ?_ ?_
    | (refine good_mk ?_; dsimp only; with_reducible refine good_p ?_)

theorem loadRegs_good (h : Good s₀ s) (x1 : List Byte) : Good s₀ (loadRegs s x1) := by
  unfold loadRegs
  with_reducible repeat' first | assumption | apply loadReg_good | (refine foldl_good (fun _ _ _ => ?_) _ _ ?_)

theorem loadTask_good (h : Good s₀ s) (x1 x2 : Nat) (x3 : List Byte) : Good s₀ (loadTask s x1 x2 x3) := by
  unfold loadTask
  with_reducible repeat' first | assumption | apply loadProgram_good | apply ctxStart_good

theorem loadHbm_good (h : Good s₀ s) (x0 : List Byte) (x1 : List (Nat × Nat × Nat)) : Good s₀ (loadHbm x0 x1 s) := by
  unfold loadHbm
  with_reducible repeat' first | assumption | apply gatePut_good | apply hbmPut_good | (refine foldl_good (fun _ _ _ => ?_) _ _ ?_)

theorem loadImage_good (h : Good s₀ s) (x1 : List Byte) : Good s₀ (loadImage s x1) := by
  unfold loadImage
  with_reducible repeat' first
    | assumption | apply loadTask_good | apply loadRegs_good | apply loadHbm_good | (refine foldl_good (fun _ _ _ => ?_) _ _ ?_) | refine ite_good ?_ ?_

theorem execImageCopyLoad_good (h : Good s₀ s)  : ∃ t, (execImageCopyLoad s) = .next t ∧ Good s₀ t := by
  refine ⟨_, rfl, ?_⟩
  repeat' first
    | with_reducible assumption | with_reducible apply modLodge_good | with_reducible apply loadImage_good | with_reducible apply hostAnswer_good
    | with_reducible refine ite_good ?_ ?_ | split

/-! ### Chp -/

theorem orBusy_good (h : Good s₀ s) (x1 x2 : Nat) (x3 : Bool) (x4 : State) (hx4 : Good s₀ x4) : Good s₀ (orBusy s x1 x2 x3 x4) := by
  unfold orBusy
  with_reducible repeat' first | assumption | apply hostAnswer_good | refine ite_good ?_ ?_

theorem controlOnly_good (h : Good s₀ s) (x1 x2 : Nat) (x3 : State) (hx3 : Good s₀ x3) : Good s₀ (controlOnly s x1 x2 x3) := by
  unfold controlOnly
  with_reducible repeat' first | assumption | apply hostAnswer_good | refine ite_good ?_ ?_

theorem okay_good (h : Good s₀ s) (x1 x2 : Nat) (x3 : List Byte) : Good s₀ (okay s x1 x2 x3) := by
  unfold okay
  with_reducible repeat' first | assumption | apply hostAnswer_good

theorem startOn_good (h : Good s₀ s) : Good s₀ (startOn s) := by
  unfold startOn
  repeat' first
    | with_reducible assumption | with_reducible apply modLodge_good | with_reducible apply okay_good | with_reducible apply openTasks_good
    | with_reducible apply startGenerations_good | with_reducible apply startTiles_good | with_reducible refine ite_good ?_ ?_ | split

theorem ifState_good (h : Good s₀ s) (x1 x2 : Nat) (x3 : Bool) (x4 : State) (hx4 : Good s₀ x4) : Good s₀ (ifState s x1 x2 x3 x4) := by
  unfold ifState
  with_reducible repeat' first | assumption | apply hostAnswer_good | refine ite_good ?_ ?_

theorem effStart_good (h : Good s₀ s) (x0 x1 : Nat) : Good s₀ (effStart x0 x1 s) := by
  unfold effStart
  with_reducible repeat' first
    | assumption | apply modLodge_good | apply requestFn_good | apply slotFails_good | apply orBusy_good | apply controlOnly_good | apply startOn_good
    | apply ifState_good | (refine foldl_good (fun _ _ _ => ?_) _ _ ?_) | refine ite_good ?_ ?_

theorem malformed_good (h : Good s₀ s) (x1 x2 x3 : Nat) : Good s₀ (malformed s x1 x2 x3) := by
  unfold malformed
  with_reducible repeat' first | assumption | apply hostAnswer_good

theorem effPower_good (h : Good s₀ s) (x0 x1 x2 : Nat) : Good s₀ (effPower x0 x1 x2 s) := by
  unfold effPower
  with_reducible repeat' first
    | assumption | apply modLodge_good | apply powerOn_good | apply taskEnd_good | apply okay_good | apply orBusy_good | apply malformed_good
    | apply controlOnly_good | apply ifState_good | (refine foldl_good (fun _ _ _ => ?_) _ _ ?_) | refine ite_good ?_ ?_

theorem effConfigRead_good (h : Good s₀ s) (x0 x1 : Nat) : Good s₀ (effConfigRead x0 x1 s) := by
  unfold effConfigRead
  with_reducible repeat' first | assumption | apply okay_good

theorem effHold_good (h : Good s₀ s) (x0 x1 : Nat) : Good s₀ (effHold x0 x1 s) := by
  unfold effHold
  with_reducible repeat' first | assumption | apply modLodge_good | apply okay_good | apply controlOnly_good | apply holdAll_good | apply ifState_good

theorem refused_good (h : Good s₀ s) (x1 x2 : Nat) : Good s₀ (refused s x1 x2) := by
  unfold refused
  with_reducible repeat' first | assumption | apply hostAnswer_good

theorem effReshard_good (h : Good s₀ s) (x0 x1 : Nat) (x2 x3 x4 : Nat) : Good s₀ (effReshard x0 x1 x2 x3 x4 s) := by
  unfold effReshard
  repeat' first
    | with_reducible assumption | with_reducible apply okay_good | with_reducible apply orBusy_good | with_reducible apply imageRefused_good
    | with_reducible apply refused_good | with_reducible apply controlOnly_good | with_reducible apply ifState_good | with_reducible refine ite_good ?_ ?_
    | split | (refine good_mk ?_; dsimp only; with_reducible refine good_p ?_)

theorem effFwUpdate_good (h : Good s₀ s) (x0 x1 : Nat) (x2 x3 : Nat) : Good s₀ (effFwUpdate x0 x1 x2 x3 s) := by
  unfold effFwUpdate
  with_reducible repeat' first
    | assumption | apply okay_good | apply State_logSec_good | apply refused_good | apply controlOnly_good | apply ifState_good | apply setSlot_good
    | refine ite_good ?_ ?_

theorem effStateReadRegisters_good (h : Good s₀ s) (x0 x1 : Nat) (x2 x3 : Nat) : Good s₀ (effStateReadRegisters x0 x1 x2 x3 s) := by
  unfold effStateReadRegisters
  with_reducible repeat' first | assumption | apply okay_good | apply gatherCone_good | apply refused_good | apply malformed_good | refine ite_good ?_ ?_

theorem effResume_good (h : Good s₀ s) (x0 x1 : Nat) : Good s₀ (effResume x0 x1 s) := by
  unfold effResume
  repeat' first
    | with_reducible assumption | with_reducible apply modLodge_good | with_reducible apply releaseTiles_good | with_reducible apply okay_good
    | with_reducible apply setPstate_good | with_reducible apply controlOnly_good | with_reducible apply ifState_good
    | with_reducible (refine foldl_good (fun _ _ _ => ?_) _ _ ?_) | with_reducible refine ite_good ?_ ?_
    | (refine good_mk ?_; dsimp only; with_reducible refine good_p ?_)

theorem effLogClear_good (h : Good s₀ s) (x0 x1 : Nat) (x2 : List Byte) : Good s₀ (effLogClear x0 x1 x2 s) := by
  unfold effLogClear
  with_reducible repeat' first
    | assumption | apply clearLog_good | apply okay_good | apply State_logSec_good | apply refused_good | apply malformed_good | apply controlOnly_good
    | refine ite_good ?_ ?_

theorem effAliasTable_good (h : Good s₀ s) (x0 x1 : Nat) (x2 x3 x4 : Nat) : Good s₀ (effAliasTable x0 x1 x2 x3 x4 s) := by
  unfold effAliasTable
  with_reducible repeat' first
    | assumption | apply okay_good | apply setLds_good | apply refused_good | apply malformed_good | apply controlOnly_good | apply ifState_good
    | (refine foldl_good (fun _ _ _ => ?_) _ _ ?_) | refine ite_good ?_ ?_

theorem effImageLoad_good (h : Good s₀ s) (x0 x1 : Nat) (x2 x3 : Nat) : Good s₀ (effImageLoad x0 x1 x2 x3 s) := by
  unfold effImageLoad
  repeat' first
    | with_reducible assumption | with_reducible apply modLodge_good | with_reducible apply orBusy_good | with_reducible apply imageRefused_good
    | with_reducible apply refused_good | with_reducible apply controlOnly_good | with_reducible apply acceptImage_good | with_reducible apply ifState_good
    | with_reducible refine ite_good ?_ ?_ | split | (refine good_mk ?_; dsimp only; with_reducible refine good_p ?_)

theorem effTakeover_good (h : Good s₀ s) (x0 x1 x2 : Nat) : Good s₀ (effTakeover x0 x1 x2 s) := by
  unfold effTakeover
  with_reducible repeat' first | assumption | apply declareFailed_good | apply okay_good | apply refused_good | apply controlOnly_good | refine ite_good ?_ ?_

theorem checkpointOn_good (h : Good s₀ s) : Good s₀ (checkpointOn s) := by
  unfold checkpointOn
  repeat' first
    | with_reducible assumption | with_reducible apply okay_good | with_reducible refine ite_good ?_ ?_ | split
    | (refine good_mk ?_; dsimp only; with_reducible refine good_p ?_)

theorem effCheckpoint_good (h : Good s₀ s) (x0 x1 : Nat) : Good s₀ (effCheckpoint x0 x1 s) := by
  unfold effCheckpoint
  repeat' first
    | with_reducible assumption | with_reducible apply orBusy_good | with_reducible apply controlOnly_good | with_reducible apply checkpointOn_good
    | with_reducible apply ifState_good | (refine good_mk ?_; dsimp only; with_reducible refine good_p ?_)

theorem effPredEn_good (h : Good s₀ s) (x0 x1 x2 : Nat) (x3 : Bool) : Good s₀ (effPredEn x0 x1 x2 x3 s) := by
  unfold effPredEn
  repeat' first
    | with_reducible assumption | with_reducible apply okay_good | with_reducible apply malformed_good | with_reducible apply controlOnly_good
    | with_reducible refine ite_good ?_ ?_ | (refine good_mk ?_; dsimp only; with_reducible refine good_p ?_)

theorem effClaim_good (h : Good s₀ s) (x0 x1 : Nat) : Good s₀ (effClaim x0 x1 s) := by
  unfold effClaim
  repeat' first | with_reducible assumption | with_reducible apply okay_good | (refine good_mk ?_; dsimp only; with_reducible refine good_p ?_)

theorem effConfigSetPtpDomain_good (h : Good s₀ s) (x0 x1 x2 : Nat) : Good s₀ (effConfigSetPtpDomain x0 x1 x2 s) := by
  unfold effConfigSetPtpDomain
  with_reducible repeat' first | assumption | apply modLodge_good | apply okay_good | apply controlOnly_good

theorem effLogRead_good (h : Good s₀ s) (x0 x1 : Nat) (x2 x3 x4 : Nat) : Good s₀ (effLogRead x0 x1 x2 x3 x4 s) := by
  unfold effLogRead
  with_reducible repeat' first | assumption | apply okay_good | apply malformed_good | refine ite_good ?_ ?_

theorem effAliasOwnNumbers_good (h : Good s₀ s) (x0 x1 : Nat) (x2 x3 : Nat) : Good s₀ (effAliasOwnNumbers x0 x1 x2 x3 s) := by
  unfold effAliasOwnNumbers
  with_reducible repeat' first | assumption | apply okay_good | apply setLds_good | apply controlOnly_good

theorem effAliasPair_good (h : Good s₀ s) (x0 x1 : Nat) (x2 x3 x4 : Nat) (x5 x6 : Bool) (x7 : List Byte) : Good s₀ (effAliasPair x0 x1 x2 x3 x4 x5 x6 x7 s) := by
  unfold effAliasPair
  repeat' first
    | with_reducible assumption | with_reducible apply comparePair_good | with_reducible apply setLds_good | with_reducible apply setPairing_good
    | with_reducible apply sendCtrl_good | with_reducible apply State_logSec_good | with_reducible apply malformed_good
    | with_reducible apply controlOnly_good | with_reducible apply hostAnswer_good | with_reducible refine ite_good ?_ ?_
    | (refine good_mk ?_; dsimp only; with_reducible refine good_p ?_)

theorem effClose_good (h : Good s₀ s) (x0 x1 : Nat) : Good s₀ (effClose x0 x1 s) := by
  unfold effClose
  with_reducible repeat' first | assumption | apply okay_good | apply endSession_good

theorem effStateReadLodgeStatus_good (h : Good s₀ s) (x0 x1 : Nat) : Good s₀ (effStateReadLodgeStatus x0 x1 s) := by
  unfold effStateReadLodgeStatus
  with_reducible repeat' first | assumption | apply okay_good

theorem effStreamClose_good (h : Good s₀ s) (x0 x1 x2 : Nat) : Good s₀ (effStreamClose x0 x1 x2 s) := by
  unfold effStreamClose
  repeat' first
    | with_reducible assumption | with_reducible apply okay_good | with_reducible apply refused_good | with_reducible apply controlOnly_good
    | with_reducible refine ite_good ?_ ?_ | (refine good_mk ?_; dsimp only; with_reducible refine good_p ?_)

theorem effStreamOpen_good (h : Good s₀ s) (x0 x1 : Nat) (x2 x3 x4 : Nat) : Good s₀ (effStreamOpen x0 x1 x2 x3 x4 s) := by
  unfold effStreamOpen
  repeat' first
    | with_reducible assumption | with_reducible apply State_tellHost_good | with_reducible apply okay_good | with_reducible apply refused_good
    | with_reducible apply malformed_good | with_reducible apply controlOnly_good | with_reducible apply hostAnswer_good
    | with_reducible apply ifState_good | with_reducible refine ite_good ?_ ?_ | split | (refine good_mk ?_; dsimp only; with_reducible refine good_p ?_)

theorem takeIndex_good (h : Good s₀ s) : Good s₀ (takeIndex s) := by
  unfold takeIndex
  with_reducible repeat' first | assumption | apply modLodge_good | apply State_logSec_good | refine ite_good ?_ ?_ | (refine modMram_good ?_ _ (fun _ => rfl))

theorem signedAnswer_good (h : Good s₀ s) (x1 x2 : Nat) (x3 : List Byte) : Good s₀ (signedAnswer s x1 x2 x3) := by
  unfold signedAnswer
  with_reducible repeat' first | assumption | apply State_tellHost_good | refine ite_good ?_ ?_

theorem countAttest_good (h : Good s₀ s) (x1 : Nat) : Good s₀ (countAttest s x1) := by
  unfold countAttest
  repeat' first
    | with_reducible assumption | with_reducible apply State_submit_good | with_reducible refine ite_good ?_ ?_ | split
    | with_reducible (refine modMram_good ?_ _ (fun _ => rfl))

theorem effAttest_good (h : Good s₀ s) (x0 x1 : Nat) (x2 : List Byte) : Good s₀ (effAttest x0 x1 x2 s) := by
  unfold effAttest
  repeat' first
    | with_reducible assumption | with_reducible apply takeIndex_good | with_reducible apply signedAnswer_good | with_reducible apply malformed_good
    | with_reducible apply countAttest_good | with_reducible apply hostAnswer_good | with_reducible refine ite_good ?_ ?_
    | (refine good_mk ?_; dsimp only; with_reducible refine good_p ?_) | with_reducible (refine modMram_good ?_ _ (fun _ => rfl))

theorem effDataReady_good (h : Good s₀ s) (x0 x1 x2 : Nat) : Good s₀ (effDataReady x0 x1 x2 s) := by
  unfold effDataReady
  repeat' first
    | with_reducible assumption | with_reducible apply okay_good | with_reducible apply controlOnly_good | with_reducible apply startTiles_good
    | with_reducible refine ite_good ?_ ?_ | (refine good_mk ?_; dsimp only; with_reducible refine good_p ?_)

theorem runCommand_good (h : Good s₀ s) (x0 : Instr) : Good s₀ (runCommand x0 s) := by
  unfold runCommand
  repeat' first
    | with_reducible assumption | with_reducible apply effStart_good | with_reducible apply effPower_good | with_reducible apply effConfigRead_good
    | with_reducible apply effHold_good | with_reducible apply effReshard_good | with_reducible apply effFwUpdate_good
    | with_reducible apply effStateReadRegisters_good | with_reducible apply effResume_good | with_reducible apply effLogClear_good
    | with_reducible apply effAliasTable_good | with_reducible apply effImageLoad_good | with_reducible apply effTakeover_good
    | with_reducible apply effCheckpoint_good | with_reducible apply effPredEn_good | with_reducible apply effClaim_good
    | with_reducible apply effConfigSetPtpDomain_good | with_reducible apply effLogRead_good | with_reducible apply effAliasOwnNumbers_good
    | with_reducible apply effAliasPair_good | with_reducible apply effClose_good | with_reducible apply effStateReadLodgeStatus_good
    | with_reducible apply effStreamClose_good | with_reducible apply effStreamOpen_good | with_reducible apply effAttest_good
    | with_reducible apply effDataReady_good | split

theorem State_modSess_good (h : Good s₀ s) (x1 : Nat) (x2 : Sess → Sess) : Good s₀ (State.modSess s x1 x2) := by
  unfold State.modSess
  repeat' first | with_reducible assumption | (refine good_mk ?_; dsimp only; with_reducible refine good_p ?_)

theorem refusePkt_good (h : Good s₀ s) (x1 : ChpPkt) : Good s₀ (refusePkt s x1) := by
  unfold refusePkt
  with_reducible repeat' first | assumption | apply State_modSess_good

theorem takePkt_good (h : Good s₀ s) (x1 : ChpPkt) : Good s₀ (takePkt s x1) := by
  unfold takePkt
  with_reducible repeat' first | assumption | apply State_modSess_good

theorem withPkt_good (h : Good s₀ s) (x1 : ChpPkt) (x2 : State → State) (hx2 : ∀ y0, Good s₀ y0 → Good s₀ (x2 y0)) : Good s₀ (withPkt s x1 x2) := by
  unfold withPkt
  with_reducible repeat' first | assumption | apply hx2 | apply refusePkt_good | apply takePkt_good | refine ite_good ?_ ?_

theorem serveQueue_good_rec : ∀ (x1 : Nat) {s : State} (_ : Good s₀ s) , Good s₀ (serveQueue s x1) := by
  intro x1
  induction x1 with
  | zero =>
    intro s h
    unfold serveQueue
    with_reducible repeat' first | assumption

  | succ n ih =>
    intro s h
    unfold serveQueue
    repeat' first
      | with_reducible assumption | with_reducible apply ih | with_reducible apply runCommand_good | split
      | (refine good_mk ?_; dsimp only; with_reducible refine good_p ?_)

theorem serveQueue_good (h : Good s₀ s) (x1 : Nat) : Good s₀ (serveQueue s x1) := serveQueue_good_rec x1 h

theorem serve_good (h : Good s₀ s) : Good s₀ (serve s) := by
  unfold serve
  with_reducible repeat' first | assumption | apply serveQueue_good

theorem takeCommand_good (h : Good s₀ s) (x1 : ChpPkt) (x2 : Nat) (x3 : Instr) : Good s₀ (takeCommand s x1 x2 x3) := by
  unfold takeCommand
  repeat' first
    | with_reducible assumption | with_reducible apply runCommand_good | with_reducible apply withPkt_good | with_reducible apply serve_good
    | with_reducible apply hostAnswer_good | with_reducible refine ite_good ?_ ?_ | (refine good_mk ?_; dsimp only; with_reducible refine good_p ?_)
    | with_reducible intro _

theorem execResume_good (h : Good s₀ s) (x0 : ChpPkt) (x1 : Nat) : ∃ t, (execResume x0 x1 s) = .next t ∧ Good s₀ t := by
  refine ⟨_, rfl, ?_⟩
  with_reducible repeat' first | assumption | apply takeCommand_good

theorem execConfigRead_good (h : Good s₀ s) (x0 : ChpPkt) (x1 : Nat) : ∃ t, (execConfigRead x0 x1 s) = .next t ∧ Good s₀ t := by
  refine ⟨_, rfl, ?_⟩
  with_reducible repeat' first | assumption | apply takeCommand_good

theorem execStreamClose_good (h : Good s₀ s) (x0 : ChpPkt) (x1 x2 : Nat) : ∃ t, (execStreamClose x0 x1 x2 s) = .next t ∧ Good s₀ t := by
  refine ⟨_, rfl, ?_⟩
  with_reducible repeat' first | assumption | apply takeCommand_good

theorem execAliasPair_good (h : Good s₀ s) (x0 : ChpPkt) (x1 x2 : Nat) (x3 x4 : Nat) (x5 x6 : Bool) (x7 : List Byte) : ∃ t, (execAliasPair x0 x1 x2 x3 x4 x5 x6 x7 s) = .next t ∧ Good s₀ t := by
  refine ⟨_, rfl, ?_⟩
  with_reducible repeat' first | assumption | apply takeCommand_good

theorem execLogRead_good (h : Good s₀ s) (x0 : ChpPkt) (x1 x2 : Nat) (x3 x4 : Nat) : ∃ t, (execLogRead x0 x1 x2 x3 x4 s) = .next t ∧ Good s₀ t := by
  refine ⟨_, rfl, ?_⟩
  with_reducible repeat' first | assumption | apply takeCommand_good

theorem execFwUpdate_good (h : Good s₀ s) (x0 : ChpPkt) (x1 x2 x3 : Nat) : ∃ t, (execFwUpdate x0 x1 x2 x3 s) = .next t ∧ Good s₀ t := by
  refine ⟨_, rfl, ?_⟩
  with_reducible repeat' first | assumption | apply takeCommand_good

theorem execAttest_good (h : Good s₀ s) (x0 : ChpPkt) (x1 : Nat) (x2 : List Byte) : ∃ t, (execAttest x0 x1 x2 s) = .next t ∧ Good s₀ t := by
  refine ⟨_, rfl, ?_⟩
  with_reducible repeat' first | assumption | apply takeCommand_good

theorem execFunctionStartFail_good (h : Good s₀ s) (x0 : Nat) : ∃ t, (execFunctionStartFail x0 s) = .next t ∧ Good s₀ t := by
  refine ⟨_, rfl, ?_⟩
  with_reducible repeat' first
    | assumption | apply State_submit_good | apply setLatch_good | apply startOn_good | apply setFn_good | apply stageFails_good | refine ite_good ?_ ?_

theorem execHold_good (h : Good s₀ s) (x0 : ChpPkt) (x1 : Nat) : ∃ t, (execHold x0 x1 s) = .next t ∧ Good s₀ t := by
  refine ⟨_, rfl, ?_⟩
  with_reducible repeat' first | assumption | apply takeCommand_good

theorem execStateReadRegisters_good (h : Good s₀ s) (x0 : ChpPkt) (x1 x2 x3 : Nat) : ∃ t, (execStateReadRegisters x0 x1 x2 x3 s) = .next t ∧ Good s₀ t := by
  refine ⟨_, rfl, ?_⟩
  with_reducible repeat' first | assumption | apply takeCommand_good

theorem execReshard_good (h : Good s₀ s) (x0 : ChpPkt) (x1 x2 : Nat) (x3 x4 : Nat) : ∃ t, (execReshard x0 x1 x2 x3 x4 s) = .next t ∧ Good s₀ t := by
  refine ⟨_, rfl, ?_⟩
  with_reducible repeat' first | assumption | apply takeCommand_good

theorem execClaim_good (h : Good s₀ s) (x0 : ChpPkt) (x1 : Nat) : ∃ t, (execClaim x0 x1 s) = .next t ∧ Good s₀ t := by
  refine ⟨_, rfl, ?_⟩
  with_reducible repeat' first | assumption | apply takeCommand_good

theorem execStateReadLodgeStatus_good (h : Good s₀ s) (x0 : ChpPkt) (x1 : Nat) : ∃ t, (execStateReadLodgeStatus x0 x1 s) = .next t ∧ Good s₀ t := by
  refine ⟨_, rfl, ?_⟩
  with_reducible repeat' first | assumption | apply takeCommand_good

theorem execAliasTable_good (h : Good s₀ s) (x0 : ChpPkt) (x1 x2 : Nat) (x3 x4 : Nat) : ∃ t, (execAliasTable x0 x1 x2 x3 x4 s) = .next t ∧ Good s₀ t := by
  refine ⟨_, rfl, ?_⟩
  with_reducible repeat' first | assumption | apply takeCommand_good

theorem execConfigSetPtpDomain_good (h : Good s₀ s) (x0 : ChpPkt) (x1 x2 : Nat) : ∃ t, (execConfigSetPtpDomain x0 x1 x2 s) = .next t ∧ Good s₀ t := by
  refine ⟨_, rfl, ?_⟩
  with_reducible repeat' first | assumption | apply takeCommand_good

theorem execFunctionStartingEnd_good (h : Good s₀ s) (x0 : Nat) : ∃ t, (execFunctionStartingEnd x0 s) = .next t ∧ Good s₀ t := by
  refine ⟨_, rfl, ?_⟩
  with_reducible repeat' first
    | assumption | apply modLodge_good | apply requestFn_good | apply powerOn_good | apply setLatch_good | apply startOn_good | apply setFn_good
    | refine ite_good ?_ ?_

theorem execDataReady_good (h : Good s₀ s) (x0 : ChpPkt) (x1 x2 : Nat) : ∃ t, (execDataReady x0 x1 x2 s) = .next t ∧ Good s₀ t := by
  refine ⟨_, rfl, ?_⟩
  with_reducible repeat' first | assumption | apply takeCommand_good

theorem execClose_good (h : Good s₀ s) (x0 : ChpPkt) (x1 : Nat) : ∃ t, (execClose x0 x1 s) = .next t ∧ Good s₀ t := by
  refine ⟨_, rfl, ?_⟩
  with_reducible repeat' first | assumption | apply takeCommand_good

theorem execAliasOwnNumbers_good (h : Good s₀ s) (x0 : ChpPkt) (x1 x2 x3 : Nat) : ∃ t, (execAliasOwnNumbers x0 x1 x2 x3 s) = .next t ∧ Good s₀ t := by
  refine ⟨_, rfl, ?_⟩
  with_reducible repeat' first | assumption | apply takeCommand_good

theorem execCheckpoint_good (h : Good s₀ s) (x0 : ChpPkt) (x1 : Nat) : ∃ t, (execCheckpoint x0 x1 s) = .next t ∧ Good s₀ t := by
  refine ⟨_, rfl, ?_⟩
  with_reducible repeat' first | assumption | apply takeCommand_good

theorem execLodgeKeepalive_good (h : Good s₀ s)  : ∃ t, (execLodgeKeepalive s) = .next t ∧ Good s₀ t := by
  refine ⟨_, rfl, ?_⟩
  with_reducible repeat' first
    | assumption | apply powerOn_good | apply setLease_good | apply serve_good | apply startOn_good | apply lookRun_good | apply checkpointOn_good
    | refine ite_good ?_ ?_

theorem execImageLoad_good (h : Good s₀ s) (x0 : ChpPkt) (x1 x2 x3 : Nat) : ∃ t, (execImageLoad x0 x1 x2 x3 s) = .next t ∧ Good s₀ t := by
  refine ⟨_, rfl, ?_⟩
  with_reducible repeat' first | assumption | apply takeCommand_good

theorem execStart_good (h : Good s₀ s) (x0 : ChpPkt) (x1 : Nat) : ∃ t, (execStart x0 x1 s) = .next t ∧ Good s₀ t := by
  refine ⟨_, rfl, ?_⟩
  with_reducible repeat' first | assumption | apply takeCommand_good

theorem execStreamOpen_good (h : Good s₀ s) (x0 : ChpPkt) (x1 x2 : Nat) (x3 x4 : Nat) : ∃ t, (execStreamOpen x0 x1 x2 x3 x4 s) = .next t ∧ Good s₀ t := by
  refine ⟨_, rfl, ?_⟩
  with_reducible repeat' first | assumption | apply takeCommand_good

theorem execPower_good (h : Good s₀ s) (x0 : ChpPkt) (x1 x2 : Nat) : ∃ t, (execPower x0 x1 x2 s) = .next t ∧ Good s₀ t := by
  refine ⟨_, rfl, ?_⟩
  with_reducible repeat' first | assumption | apply takeCommand_good

theorem execTakeoverCommand_good (h : Good s₀ s) (x0 : ChpPkt) (x1 x2 : Nat) : ∃ t, (execTakeoverCommand x0 x1 x2 s) = .next t ∧ Good s₀ t := by
  refine ⟨_, rfl, ?_⟩
  with_reducible repeat' first | assumption | apply takeCommand_good

theorem execPredEn_good (h : Good s₀ s) (x0 : ChpPkt) (x1 x2 : Nat) (x3 : Bool) : ∃ t, (execPredEn x0 x1 x2 x3 s) = .next t ∧ Good s₀ t := by
  refine ⟨_, rfl, ?_⟩
  with_reducible repeat' first | assumption | apply takeCommand_good

theorem execLogClear_good (h : Good s₀ s) (x0 : ChpPkt) (x1 : Nat) (x2 : List Byte) : ∃ t, (execLogClear x0 x1 x2 s) = .next t ∧ Good s₀ t := by
  refine ⟨_, rfl, ?_⟩
  with_reducible repeat' first | assumption | apply takeCommand_good

end Sys2Proof.Machine
end

