-- ==== Sys2Proof/Laws/GoodRest.lean ====
section
/-!
SUPPORT. `Good` for the cone, the matrix engine, sessions, pins and the sequencer: one lemma per operation.
-/

set_option linter.all false
set_option simprocs false

namespace Sys2Proof.Machine

variable {s₀ s : State}

/-! ### Cone -/

theorem countSample_good (h : Good s₀ s) (x1 x2 : Nat) (x3 : Num) : Good s₀ (countSample s x1 x2 x3) := by
  unfold countSample
  with_reducible repeat' first | assumption | apply State_setTf_good | refine ite_good ?_ ?_

theorem countSkipped_good (h : Good s₀ s) (x1 x2 x3 : Nat) (x4 : Option Num) : Good s₀ (countSkipped s x1 x2 x3 x4) := by
  unfold countSkipped
  repeat' first | with_reducible assumption | with_reducible apply State_setTf_good | with_reducible refine ite_good ?_ ?_ | split

theorem coneOut_good (h : Good s₀ s) (x1 : ConeRec) (x2 : Nat) : Good s₀ (coneOut s x1 x2).2 := by
  unfold coneOut
  repeat' first | with_reducible assumption | with_reducible apply State_freeNat_good | split | (refine good_mk ?_; dsimp only; with_reducible refine good_p ?_)

theorem coneOut_good' {a} {t : State} {x1 : ConeRec} {x2 : Nat}  (ht : (coneOut s x1 x2) = (a, t)) (h : Good s₀ s) : Good s₀ t := by
  have := coneOut_good h x1 x2; rw [ht] at this; exact this

theorem countRecord_good (h : Good s₀ s) (x1 x2 : Nat) (x3 : List ConeRec) (x4 : ConeRec) : Good s₀ (countRecord s x1 x2 x3 x4) := by
  unfold countRecord
  with_reducible repeat' first
    | assumption | apply countSample_good | apply countSkipped_good | apply coneOut_good | (refine foldl_good (fun _ _ _ => ?_) _ _ ?_)
    | refine ite_good ?_ ?_

theorem execConeComplete_good (h : Good s₀ s) (x0 : Nat) : ∃ t, (execConeComplete x0 s) = .next t ∧ Good s₀ t := by
  refine ⟨_, rfl, ?_⟩
  repeat' first
    | with_reducible assumption | with_reducible apply settle_good | with_reducible apply complete_good | with_reducible apply dropFlight_good
    | with_reducible apply countRecord_good | with_reducible (refine foldl_good (fun _ _ _ => ?_) _ _ ?_) | with_reducible refine ite_good ?_ ?_ | split

theorem effCone_good (h : Good s₀ s) (x0 : Nat) (x1 : FmtM) (x2 : Queued) : Good s₀ (effCone x0 x1 x2 s) := by
  unfold effCone
  with_reducible repeat' first | assumption | apply progFault_good | apply chk_good | apply addFlight_good | refine ite_good ?_ ?_ | intro _

theorem execCone_good (h : Good s₀ s) (x0 : Nat) (x1 : FmtM) : ∃ t, (execCone x0 x1 s) = .next t ∧ Good s₀ t := by
  refine ⟨_, rfl, ?_⟩
  with_reducible repeat' first | assumption | apply issue_good | apply effCone_good | intro _

/-! ### Matrix -/

theorem gateJob_good (h : Good s₀ s) (x1 : Nat) (x2 : MmulJob) : Good s₀ (gateJob s x1 x2) := by
  unfold gateJob
  with_reducible repeat' first | assumption | apply releaseGate_good | apply State_modTile_good | refine ite_good ?_ ?_

theorem effMmul_good (h : Good s₀ s) (x0 : Nat) (x1 : FmtM) (x2 : Bool) (x3 : Queued) : Good s₀ (effMmul x0 x1 x2 x3 s) := by
  unfold effMmul
  repeat' first
    | with_reducible assumption | with_reducible apply progFault_good | with_reducible apply chk_good | with_reducible apply gateJob_good
    | with_reducible apply clockUp_good | with_reducible apply addFlight_good | with_reducible apply State_modTile_good
    | with_reducible refine ite_good ?_ ?_ | split | with_reducible intro _

theorem execMmul_good (h : Good s₀ s) (x0 : Nat) (x1 : FmtM) : ∃ t, (execMmul x0 x1 s) = .next t ∧ Good s₀ t := by
  refine ⟨_, rfl, ?_⟩
  with_reducible repeat' first | assumption | apply issue_good | apply effMmul_good | intro _

theorem execMpredFinalMark_good (h : Good s₀ s) (x0 x1 : Nat) : ∃ t, (execMpredFinalMark x0 x1 s) = .next t ∧ Good s₀ t := by
  refine ⟨_, rfl, ?_⟩
  repeat' first
    | with_reducible assumption | with_reducible apply settle_good | with_reducible apply complete_good | with_reducible apply dropFlight_good
    | with_reducible apply State_modTile_good | split

theorem execGateDeadlineExpiry_good (h : Good s₀ s) (x0 : Nat) : ∃ t, (execGateDeadlineExpiry x0 s) = .next t ∧ Good s₀ t := by
  refine ⟨_, rfl, ?_⟩
  with_reducible repeat' first | assumption | apply releaseGate_good

theorem drainBlock_good (h : Good s₀ s) (x1 x2 : Nat) (x3 x4 x5 : Nat) (x6 : List Num) : Good s₀ (drainBlock s x1 x2 x3 x4 x5 x6).2.2 := by
  unfold drainBlock
  repeat' first
    | with_reducible assumption | with_reducible apply slotCount_good | with_reducible apply slotUpdate_good | with_reducible refine ite_good ?_ ?_ | split

theorem drainBlock_good' {a b} {t : State} {x1 x2 : Nat} {x3 x4 x5 : Nat} {x6 : List Num}  (ht : (drainBlock s x1 x2 x3 x4 x5 x6) = (a, b, t)) (h : Good s₀ s) : Good s₀ t := by
  have := drainBlock_good h x1 x2 x3 x4 x5 x6; rw [ht] at this; exact this

theorem drainCone_good (h : Good s₀ s) (x1 x2 x3 : Nat) (x4 : FmtM) (x5 x6 : Nat) (x7 x8 : Nat) (x9 : List Nat) (x10 x11 : Nat) (x12 : List Num) : Good s₀ (drainCone s x1 x2 x3 x4 x5 x6 x7 x8 x9 x10 x11 x12) := by
  unfold drainCone
  with_reducible repeat' first | assumption | apply State_freeNat_good | apply coneRecord_good | refine ite_good ?_ ?_

theorem drainStep_good (u : State) (x1 x2 x3 : Nat) (x4 : FmtM) (x5 x6 : Word) {x7 : List Nat × List Byte × State} (h : Good s₀ x7.2.2) (x8 : Nat) :
    Good s₀ (drainStep u x1 x2 x3 x4 x5 x6 x7 x8).2.2 := by
  unfold drainStep
  exact drainCone_good (drainBlock_good h _ _ _ _ _ _) _ _ _ _ _ _ _ _ _ _ _ _

theorem effMdrain_good (h : Good s₀ s) (x0 : Nat) (x1 : FmtM) (x2 : Queued) : Good s₀ (effMdrain x0 x1 x2 s) := by
  unfold effMdrain
  repeat' first
    | with_reducible assumption | with_reducible apply chk_good | with_reducible apply addFlight_good | with_reducible apply State_modTile_good
    | with_reducible apply drainStep_good | with_reducible (refine foldl_good_third (fun _ _ _ => ?_) _ _ ?_) | split | with_reducible intro _

theorem execMdrain_good (h : Good s₀ s) (x0 : Nat) (x1 : FmtM) : ∃ t, (execMdrain x0 x1 s) = .next t ∧ Good s₀ t := by
  refine ⟨_, rfl, ?_⟩
  with_reducible repeat' first | assumption | apply issue_good | apply effMdrain_good | intro _

theorem execMpred_good (h : Good s₀ s) (x0 : Nat) (x1 : FmtM) : ∃ t, (execMpred x0 x1 s) = .next t ∧ Good s₀ t := by
  refine ⟨_, rfl, ?_⟩
  with_reducible repeat' first | assumption | apply issue_good | apply effMmul_good | intro _

theorem applyJob_good (h : Good s₀ s) (x1 : Nat) (x2 : MmulJob) : Good s₀ (applyJob s x1 x2) := by
  unfold applyJob
  with_reducible repeat' first | assumption | apply State_modTile_good

theorem execMmulComplete_good (h : Good s₀ s) (x0 x1 : Nat) : ∃ t, (execMmulComplete x0 x1 s) = .next t ∧ Good s₀ t := by
  refine ⟨_, rfl, ?_⟩
  repeat' first
    | with_reducible assumption | with_reducible apply settle_good | with_reducible apply applyJob_good | with_reducible apply complete_good
    | with_reducible apply dropFlight_good | with_reducible apply State_modTile_good | with_reducible refine ite_good ?_ ?_ | split

theorem execBatchComplete_good (h : Good s₀ s) (x0 : Nat) : ∃ t, (execBatchComplete x0 s) = .next t ∧ Good s₀ t := by
  refine ⟨_, rfl, ?_⟩
  repeat' first
    | with_reducible assumption | with_reducible apply settle_good | with_reducible apply applyJob_good | with_reducible apply complete_good
    | with_reducible apply dropFlight_good | with_reducible (refine foldl_good (fun _ _ _ => ?_) _ _ ?_) | with_reducible refine ite_good ?_ ?_ | split

theorem execMdrainComplete_good (h : Good s₀ s) (x0 : Nat) : ∃ t, (execMdrainComplete x0 s) = .next t ∧ Good s₀ t := by
  refine ⟨_, rfl, ?_⟩
  repeat' first
    | with_reducible assumption | with_reducible apply ownWr_good | with_reducible apply settle_good | with_reducible apply complete_good
    | with_reducible apply dropFlight_good | split

theorem execMpanelLoaded_good (h : Good s₀ s) (x0 : Nat) : ∃ t, (execMpanelLoaded x0 s) = .next t ∧ Good s₀ t := by
  refine ⟨_, rfl, ?_⟩
  repeat' first
    | with_reducible assumption | with_reducible apply settle_good | with_reducible apply complete_good | with_reducible apply dropFlight_good
    | with_reducible apply State_modTile_good | split

theorem effMpanel_good (h : Good s₀ s) (x0 : Nat) (x1 : FmtM) (x2 : Queued) : Good s₀ (effMpanel x0 x1 x2 s) := by
  unfold effMpanel
  with_reducible repeat' first | assumption | apply chk_good | apply addFlight_good | intro _

theorem effMgang_good (h : Good s₀ s) (x0 : Nat) (x1 : FmtSI) (x2 : Queued) : Good s₀ (effMgang x0 x1 x2 s) := by
  unfold effMgang
  with_reducible repeat' first | assumption | apply progFault_good | apply State_setTf_good | apply State_modTile_good | refine ite_good ?_ ?_

theorem execMpanel_good (h : Good s₀ s) (x0 : Nat) (x1 : FmtM) : ∃ t, (execMpanel x0 x1 s) = .next t ∧ Good s₀ t := by
  refine ⟨_, rfl, ?_⟩
  with_reducible repeat' first | assumption | apply effMpanel_good | apply issue_good | intro _

theorem execMgang_good (h : Good s₀ s) (x0 : Nat) (x1 : FmtSI) : ∃ t, (execMgang x0 x1 s) = .next t ∧ Good s₀ t := by
  refine ⟨_, rfl, ?_⟩
  with_reducible repeat' first | assumption | apply effMgang_good | apply issue_good | intro _

/-! ### Session -/

theorem execPtpMessage_good (h : Good s₀ s) (x0 x1 : Nat) (x2 : ℤ) : ∃ t, (execPtpMessage x0 x1 x2 s) = .next t ∧ Good s₀ t := by
  refine ⟨_, rfl, ?_⟩
  repeat' first
    | with_reducible assumption | with_reducible apply modLodge_good | with_reducible apply State_submit_good | with_reducible refine ite_good ?_ ?_
    | (refine good_mk ?_; dsimp only; with_reducible refine good_p ?_)

theorem dropHalf_good (h : Good s₀ s) (x1 : Nat) : Good s₀ (dropHalf s x1) := by
  unfold dropHalf
  repeat' first | with_reducible assumption | (refine good_mk ?_; dsimp only; with_reducible refine good_p ?_)

theorem refuseHandshake_good (h : Good s₀ s) (x1 : Nat) (x2 x3 : Bool) : Good s₀ (refuseHandshake s x1 x2 x3) := by
  unfold refuseHandshake
  with_reducible repeat' first | assumption | apply State_tellHost_good | apply dropHalf_good | apply State_logSec_good | refine ite_good ?_ ?_

theorem stageRange_rec : ∀ (l : List (Nat × Nat)) {s : State}, Good s₀ s → GoodO s₀ (stageRange s l) := by
  intro l
  induction l with
  | nil => intro s h; exact goodO_some h
  | cons p l ih =>
    intro s h
    unfold stageRange
    dsimp only
    exact goodO_ite (ih (stageFor_good h p.1 p.2)) goodO_none
theorem stageRange_good (h : Good s₀ s) (x1 : List (Nat × Nat)) : GoodO s₀ (stageRange s x1) := stageRange_rec x1 h
theorem stageRange_good' {t : State} {x1 : List (Nat × Nat)} (ht : stageRange s x1 = some t) (h : Good s₀ s) : Good s₀ t := stageRange_good h x1 t ht

theorem takeBulk_good (h : Good s₀ s) (x0 x1 : Nat) (x2 : List Byte) : Good s₀ (takeBulk x0 x1 x2 s) := by
  unfold takeBulk
  repeat' first
    | with_reducible assumption | with_reducible apply State_tellHost_good | with_reducible apply gatePut_good | with_reducible apply hbmPut_good
    | with_reducible refine stageRange_good' (by assumption) ?_ | with_reducible refine ite_good ?_ ?_ | split
    | (refine good_mk ?_; dsimp only; with_reducible refine good_p ?_)

theorem execBulkData_good (h : Good s₀ s) (x0 : ChpPkt) (x1 x2 : Nat) (x3 : List Byte) : ∃ t, (execBulkData x0 x1 x2 x3 s) = .next t ∧ Good s₀ t := by
  refine ⟨_, rfl, ?_⟩
  repeat' first | with_reducible assumption | with_reducible apply takeBulk_good | with_reducible apply withPkt_good | split | with_reducible intro _

theorem execPtpMasterTimeout_good (h : Good s₀ s)  : ∃ t, (execPtpMasterTimeout s) = .next t ∧ Good s₀ t := by
  refine ⟨_, rfl, ?_⟩
  with_reducible repeat' first | assumption | apply modLodge_good

theorem admitOwner_good (h : Good s₀ s) (x1 : List Byte) : Good s₀ (admitOwner s x1) := by
  unfold admitOwner
  with_reducible repeat' first | assumption | apply modLodge_good | apply clearLog_good | apply State_logSec_good | (refine modMram_good ?_ _ (fun _ => rfl))

theorem openSession_good (h : Good s₀ s) (x1 : Half) : Good s₀ (openSession s x1) := by
  unfold openSession
  repeat' first
    | with_reducible assumption | with_reducible apply modLodge_good | with_reducible apply endSession_good | with_reducible apply State_logSec_good
    | with_reducible (refine foldl_good (fun _ _ _ => ?_) _ _ ?_) | with_reducible refine ite_good ?_ ?_
    | (refine good_mk ?_; dsimp only; with_reducible refine good_p ?_)

theorem execFinish_good (h : Good s₀ s) (x0 : Nat) (x1 : List Byte) : ∃ t, (execFinish x0 x1 s) = .next t ∧ Good s₀ t := by
  refine ⟨_, rfl, ?_⟩
  repeat' first
    | with_reducible assumption | with_reducible apply admitOwner_good | with_reducible apply openSession_good | with_reducible apply State_tellHost_good
    | with_reducible apply dropHalf_good | with_reducible apply refuseHandshake_good | with_reducible refine ite_good ?_ ?_ | split

theorem sendEgress_good (h : Good s₀ s) (x1 : Stream) : Good s₀ (sendEgress s x1) := by
  unfold sendEgress
  repeat' first
    | with_reducible assumption | with_reducible apply State_tellHost_good | with_reducible (refine foldl_good (fun _ _ _ => ?_) _ _ ?_)
    | (refine good_mk ?_; dsimp only; with_reducible refine good_p ?_)

theorem takeCredit_good (h : Good s₀ s) (x0 x1 : Nat) : Good s₀ (takeCredit x0 x1 s) := by
  unfold takeCredit
  repeat' first | with_reducible assumption | with_reducible apply sendEgress_good | with_reducible refine ite_good ?_ ?_ | split

theorem draw_good (h : Good s₀ s) (x1 : Nat) : Good s₀ (draw s x1).2 := by
  unfold draw
  repeat' first | with_reducible assumption | (refine good_mk ?_; dsimp only; with_reducible refine good_p ?_)

theorem draw_good' {a} {t : State} {x1 : Nat}  (ht : (draw s x1) = (a, t)) (h : Good s₀ s) : Good s₀ t := by
  have := draw_good h x1; rw [ht] at this; exact this

theorem execBulkCredit_good (h : Good s₀ s) (x0 : ChpPkt) (x1 x2 x3 : Nat) : ∃ t, (execBulkCredit x0 x1 x2 x3 s) = .next t ∧ Good s₀ t := by
  refine ⟨_, rfl, ?_⟩
  repeat' first | with_reducible assumption | with_reducible apply withPkt_good | with_reducible apply takeCredit_good | split | with_reducible intro _

theorem answerHello_good (h : Good s₀ s) (x1 : Nat) (x2 : List Byte) (x3 : Hello) : Good s₀ (answerHello s x1 x2 x3) := by
  unfold answerHello
  repeat' first
    | with_reducible assumption | with_reducible apply State_tellHost_good | with_reducible apply draw_good | split
    | (refine good_mk ?_; dsimp only; with_reducible refine good_p ?_)

theorem execChpHeartbeat_good (h : Good s₀ s) (x0 : ChpPkt) : ∃ t, (execChpHeartbeat x0 s) = .next t ∧ Good s₀ t := by
  refine ⟨_, rfl, ?_⟩
  with_reducible repeat' first | assumption | apply withPkt_good | apply serve_good

theorem tick_good (h : Good s₀ s) : Good s₀ (tick s) := by
  unfold tick
  repeat' first
    | with_reducible assumption | with_reducible apply modLodge_good | with_reducible refine ite_good ?_ ?_
    | (refine good_mk ?_; dsimp only; with_reducible refine good_p ?_)

theorem execSessionTimeout_good (h : Good s₀ s) (x0 : Nat) : ∃ t, (execSessionTimeout x0 s) = .next t ∧ Good s₀ t := by
  refine ⟨_, rfl, ?_⟩
  repeat' first | with_reducible assumption | with_reducible apply endSession_good | split

theorem execHello_good (h : Good s₀ s) (x0 : Nat) (x1 : List Byte) : ∃ t, (execHello x0 x1 s) = .next t ∧ Good s₀ t := by
  refine ⟨_, rfl, ?_⟩
  repeat' first
    | with_reducible assumption | with_reducible apply State_tellHost_good | with_reducible apply answerHello_good | with_reducible apply dropHalf_good
    | with_reducible apply refuseHandshake_good | with_reducible refine ite_good ?_ ?_ | split

theorem execHandshakeTimeout_good (h : Good s₀ s) (x0 : Nat) : ∃ t, (execHandshakeTimeout x0 s) = .next t ∧ Good s₀ t := by
  refine ⟨_, rfl, ?_⟩
  with_reducible repeat' first | assumption | apply dropHalf_good

/-! ### Pins -/

theorem tapSelect_good (h : Good s₀ s) (x1 x2 x3 : Nat) (x4 : Option Nat) : Good s₀ (tapSelect s x1 x2 x3 x4) := by
  unfold tapSelect
  repeat' first | with_reducible assumption | with_reducible refine ite_good ?_ ?_ | (refine good_mk ?_; dsimp only; with_reducible refine good_p ?_)

theorem execBypass_good (h : Good s₀ s)  : ∃ t, (execBypass s) = .next t ∧ Good s₀ t := by
  refine ⟨_, rfl, ?_⟩
  with_reducible repeat' first | assumption | apply tapSelect_good

theorem captured_good (h : Good s₀ s) : Good s₀ (captured s).2 := by
  unfold captured
  with_reducible repeat' first | assumption | apply State_freeNat_good

theorem captured_good' {a} {t : State}   (ht : (captured s) = (a, t)) (h : Good s₀ s) : Good s₀ t := by
  have := captured_good h ; rw [ht] at this; exact this

theorem execSamplePreload_good (h : Good s₀ s) (x0 : Nat) : ∃ t, (execSamplePreload x0 s) = .next t ∧ Good s₀ t := by
  refine ⟨_, rfl, ?_⟩
  with_reducible repeat' first | assumption | apply captured_good | apply tapSelect_good

theorem execClamp_good (h : Good s₀ s)  : ∃ t, (execClamp s) = .next t ∧ Good s₀ t := by
  refine ⟨_, rfl, ?_⟩
  with_reducible repeat' first | assumption | apply tapSelect_good

theorem pmbAnswers_good (h : Good s₀ s) (x1 : Nat) : Good s₀ (pmbAnswers s x1) := by
  unfold pmbAnswers
  with_reducible repeat' first | assumption | apply modLodge_good | apply clearCause_good | refine ite_good ?_ ?_

theorem pmbStatus_good (h : Good s₀ s) (x1 x2 : Nat) : Good s₀ (pmbStatus s x1 x2) := by
  unfold pmbStatus
  with_reducible repeat' first | assumption | apply State_submit_good | apply vhbmFalls_good | refine ite_good ?_ ?_

theorem execCrystalTimeout_good (h : Good s₀ s)  : ∃ t, (execCrystalTimeout s) = .next t ∧ Good s₀ t := by
  refine ⟨_, rfl, ?_⟩
  with_reducible repeat' first | assumption | apply modLodge_good | apply State_submit_good | refine ite_good ?_ ?_

theorem execPmbAlert_good (h : Good s₀ s) (x0 x1 : Nat) : ∃ t, (execPmbAlert x0 x1 s) = .next t ∧ Good s₀ t := by
  refine ⟨_, rfl, ?_⟩
  with_reducible repeat' first | assumption | apply pmbStatus_good | apply pmbAnswers_good | refine ite_good ?_ ?_

theorem execAlertcause_good (h : Good s₀ s)  : ∃ t, (execAlertcause s) = .next t ∧ Good s₀ t := by
  refine ⟨_, rfl, ?_⟩
  with_reducible repeat' first | assumption | apply tapSelect_good

theorem pmbFails_good (h : Good s₀ s) (x1 : Nat) : Good s₀ (pmbFails s x1) := by
  unfold pmbFails
  with_reducible repeat' first
    | assumption | apply modLodge_good | apply State_submit_good | apply vhbmFalls_good | apply raiseCause_good | apply stageFails_good
    | refine ite_good ?_ ?_

theorem execExtestPulse_good (h : Good s₀ s) (x0 : Nat) : ∃ t, (execExtestPulse x0 s) = .next t ∧ Good s₀ t := by
  refine ⟨_, rfl, ?_⟩
  with_reducible repeat' first | assumption | apply captured_good | apply tapSelect_good

theorem execHighz_good (h : Good s₀ s)  : ∃ t, (execHighz s) = .next t ∧ Good s₀ t := by
  refine ⟨_, rfl, ?_⟩
  with_reducible repeat' first | assumption | apply tapSelect_good

theorem execIdcode_good (h : Good s₀ s)  : ∃ t, (execIdcode s) = .next t ∧ Good s₀ t := by
  refine ⟨_, rfl, ?_⟩
  with_reducible repeat' first | assumption | apply tapSelect_good

theorem execPmbusRetry_good (h : Good s₀ s) (x0 : Nat) (x1 : Bool) : ∃ t, (execPmbusRetry x0 x1 s) = .next t ∧ Good s₀ t := by
  refine ⟨_, rfl, ?_⟩
  repeat' first
    | with_reducible assumption | with_reducible apply modLodge_good | with_reducible apply pmbFails_good | with_reducible apply pmbAnswers_good
    | with_reducible refine ite_good ?_ ?_ | split

theorem execExtest_good (h : Good s₀ s) (x0 : Nat) : ∃ t, (execExtest x0 s) = .next t ∧ Good s₀ t := by
  refine ⟨_, rfl, ?_⟩
  with_reducible repeat' first | assumption | apply captured_good | apply tapSelect_good

theorem execExtestTrain_good (h : Good s₀ s) (x0 : Nat) : ∃ t, (execExtestTrain x0 s) = .next t ∧ Good s₀ t := by
  refine ⟨_, rfl, ?_⟩
  with_reducible repeat' first | assumption | apply captured_good | apply tapSelect_good

theorem execPmbusPoll_good (h : Good s₀ s) (x0 x1 x2 : Nat) (x3 : Bool) : ∃ t, (execPmbusPoll x0 x1 x2 x3 s) = .next t ∧ Good s₀ t := by
  refine ⟨_, rfl, ?_⟩
  with_reducible repeat' first | assumption | apply modLodge_good | apply pmbStatus_good | apply pmbAnswers_good | refine ite_good ?_ ?_

/-! ### Seq -/

theorem effOf_good (h : Good s₀ s) (x0 : Instr) (x1 : Queued) : Good s₀ (effOf x0 x1 s) := by
  unfold effOf
  repeat' first
    | with_reducible assumption | with_reducible apply effVcvt_good | with_reducible apply effMgang_good | with_reducible apply effVstx_good
    | with_reducible apply effBopen_good | with_reducible apply effVst_good | with_reducible apply effQrel_good | with_reducible apply effDmam_good
    | with_reducible apply effSoak_good | with_reducible apply effSend_good | with_reducible apply effVldx_good | with_reducible apply effVld_good
    | with_reducible apply effMpanel_good | with_reducible apply effMdrain_good | with_reducible apply effSld_good | with_reducible apply effRecv_good
    | with_reducible apply effVop_good | with_reducible apply effAmax_good | with_reducible apply effVcmp_good | with_reducible apply effSst_good
    | with_reducible apply effSmul_good | with_reducible apply effWopen_good | with_reducible apply effSet_good | with_reducible apply effSalui_good
    | with_reducible apply effWclose_good | with_reducible apply effDmax_good | with_reducible apply effScmp_good | with_reducible apply effVmovx_good
    | with_reducible apply effCone_good | with_reducible apply effVred_good | with_reducible apply effCsig_good | with_reducible apply effMmul_good
    | with_reducible apply effDma_good | with_reducible apply effAop_good | with_reducible apply effSalu_good | with_reducible apply effCrd_good | split

theorem nextHead_good (h : Good s₀ s) (x1 : Nat) (x2 : Engine) : Good s₀ (nextHead s x1 x2) := by
  unfold nextHead
  repeat' first | with_reducible assumption | with_reducible apply atHead_good | split

theorem execEngineDispatch_good (h : Good s₀ s) (x0 : Nat) (x1 : Engine) (x2 : Parity) : ∃ t, (execEngineDispatch x0 x1 x2 s) = .next t ∧ Good s₀ t := by
  refine ⟨_, rfl, ?_⟩
  repeat' first
    | with_reducible assumption | with_reducible apply settle_good | with_reducible apply effOf_good | with_reducible apply clockLanes_good
    | with_reducible apply parityEffect_good | with_reducible apply nextHead_good | with_reducible apply State_modTile_good
    | with_reducible refine ite_good ?_ ?_ | split

theorem execSequencerFetch_good (h : Good s₀ s) (x0 : Nat) (x1 : Parity) : ∃ t, (execSequencerFetch x0 x1 s) = .next t ∧ Good s₀ t := by
  refine ⟨_, rfl, ?_⟩
  repeat' first
    | with_reducible assumption | with_reducible apply progFault_good | with_reducible apply settle_good | with_reducible apply parityEffect_good
    | with_reducible apply State_modTile_good | with_reducible refine ite_good ?_ ?_ | split
    | (refine good_mk ?_; dsimp only; with_reducible refine good_p ?_)

end Sys2Proof.Machine
end

