-- ==== Sys2Proof/Laws/Host.lean ====
section
/-!
SUPPORT. What a packet of a CHP session meets: an accepted one is counted and its command runs at once where nothing waits; a refused one is only counted.
-/

namespace Sys2Proof.Machine

/-- With nothing queued, serving the queue changes nothing. -/
theorem serve_nil (s : State) (h : s.chp.queue = []) : serve s = s := by
  unfold serve; rw [h]; rfl

theorem withPkt_fits (s : State) (p : ChpPkt) (eff : State → State) (h : pktFits s p = true) : withPkt s p eff = eff (takePkt s p) := by simp [withPkt, h]

theorem withPkt_refused (s : State) (p : ChpPkt) (eff : State → State) (h : pktFits s p = false) : withPkt s p eff = refusePkt s p := by simp [withPkt, h]

/-- Counting a packet opens and ends no session. -/
theorem takePkt_sids (s : State) (p : ChpPkt) (n : Nat) :
    ((takePkt s p).chp.sessions.any fun x => x.sid == n) = (s.chp.sessions.any fun x => x.sid == n) := by
  simp only [takePkt, State.modSess, List.any_map]
  congr 1; funext x
  simp only [Function.comp]
  split <;> simp [Sess.take]

/-- An accepted packet belongs to an open session. -/
theorem pktFits_open (s : State) (p : ChpPkt) (h : pktFits s p = true) : (s.chp.sessions.any fun x => x.sid == p.sid) = true := by
  simp only [pktFits, Bool.and_eq_true, List.any_eq_true] at h
  obtain ⟨_, x, hx, h⟩ := h
  rw [List.any_eq_true]
  exact ⟨x, hx, by simp at h ⊢; exact h.1.1⟩

/-- A command of a session with nothing waiting runs at once, in the state with its packet counted. -/
theorem takeCommand_runs (s : State) (p : ChpPkt) (tag : Nat) (i : Instr) (h : pktFits s p = true) (hq : s.chp.queue = [])
    (hb : sessionBusy s p.sid = false) : takeCommand s p tag i = runCommand i (takePkt s p) := by
  have hs : serve (takePkt s p) = takePkt s p := serve_nil _ hq
  have hb' : sessionBusy (takePkt s p) p.sid = false := hb
  simp only [takeCommand, withPkt, h, if_true, hs, takePkt_sids, pktFits_open s p h, hb']
  simp

end Sys2Proof.Machine
end

