-- ==== Sys2Proof/Laws/Reads.lean ====
section
/-!
SUPPORT. What is read after a write: of registers, their fields, tiles and memory, for every update of the state.
-/

namespace Sys2Proof.Machine

variable (s : State)

/-! ### The update that a read is about -/

@[simp] theorem State.reg_setReg (a x : Nat) (w : Word) : (s.setReg a w).reg x = if x = a then w else s.reg x := mget_mput

@[simp] theorem State.tile_setTile (t x : Nat) (y : Tile) : (s.setTile t y).tile x = if x = t then y else s.tile x := mget_mput

@[simp] theorem State.tile_modTile (t x : Nat) (f : Tile → Tile) : (s.modTile t f).tile x = if x = t then f (s.tile t) else s.tile x := mget_mput

@[simp] theorem State.tile_modCtx (t c x : Nat) (f : Ctx → Ctx) : (s.modCtx t c f).tile x = if x = t then (s.tile t).modCtx c f else s.tile x := mget_mput

@[simp] theorem State.byte_setByte (a x : Nat) (b : Byte) : (s.setByte a b).byte x = if x = a then b else s.byte x := mget_mput

@[simp] theorem State.reg_setFld (b : Block) (n x : Nat) (f : Fld) (v : Nat) :
    (s.setFld b n f v).reg x = if x = regAddr b n f.off then wset (s.reg (regAddr b n f.off)) f.hi f.lo v else s.reg x := mget_mput

@[simp] theorem State.reg_setTf (t x : Nat) (f : Fld) (v : Nat) :
    (s.setTf t f v).reg x = if x = regAddr .tile t f.off then wset (s.reg (regAddr .tile t f.off)) f.hi f.lo v else s.reg x := mget_mput

@[simp] theorem State.reg_setTstate (t x v : Nat) :
    (s.setTstate t v).reg x = if x = regAddr .tile t R.TSTAT then wset (s.reg (regAddr .tile t R.TSTAT)) R.TSTAT_STATE.hi R.TSTAT_STATE.lo v else s.reg x := mget_mput

theorem State.reg_clearRegs (f : Nat → Bool) (x : Nat) : (s.clearRegs f).reg x = if f x then resetOf x else s.reg x := by
  by_cases h : f x = true
  · rw [if_pos h]; exact mget_mdrop_self h
  · rw [if_neg h]; exact mget_mdrop (by simpa using h)

/-- Bytes written are read from where they were written, and every other byte reads as before. -/
theorem State.byte_wr (bs : List Byte) : ∀ (s : State) (a x : Nat), (s.wr a bs).byte x = if a ≤ x ∧ x < a + bs.length then bs.getD (x - a) 0 else s.byte x := by
  induction bs with
  | nil => intro s a x; simp [State.wr]
  | cons b bs ih =>
    intro s a x
    rw [State.wr, ih, State.byte_setByte]
    by_cases h : x = a
    · subst h; simp
    · by_cases h' : a + 1 ≤ x ∧ x < a + 1 + bs.length
      · have e : x - a = x - (a + 1) + 1 := by omega
        rw [if_pos h', if_pos (by simp only [List.length_cons]; omega), e]; simp
      · rw [if_neg h', if_neg h, if_neg (by simp only [List.length_cons]; omega)]

@[simp] theorem State.reg_wr (bs : List Byte) : ∀ (s : State) (a x : Nat), (s.wr a bs).reg x = s.reg x := by
  induction bs with
  | nil => intros; rfl
  | cons b bs ih => intro s a x; exact ih _ _ _

@[simp] theorem State.tile_wr (bs : List Byte) : ∀ (s : State) (a x : Nat), (s.wr a bs).tile x = s.tile x := by
  induction bs with
  | nil => intros; rfl
  | cons b bs ih => intro s a x; exact ih _ _ _

/-- What a write of bytes leaves alone: everything but memory. -/
theorem State.wr_frame (bs : List Byte) : ∀ (s : State) (a : Nat), s.wr a bs = { s with mem := (s.wr a bs).mem } := by
  induction bs with
  | nil => intros; rfl
  | cons b bs ih => intro s a; exact ih _ _

/-! ### Fields -/

/-- A field of a register after the same field has been set. -/
theorem State.fld_setFld_self {b : Block} {n : Nat} {f : Fld} (v : Nat) (hl : f.lo ≤ f.hi) (hh : f.hi < 64) :
    (s.setFld b n f v).fld b n f = v % 2 ^ (f.hi + 1 - f.lo) := by
  simp only [State.fld, State.reg_setFld, if_true]; exact wget_wset_self _ v hl hh

/-- A field of another register after a field has been set. -/
theorem State.fld_setFld_ne {b b' : Block} {n n' : Nat} {f f' : Fld} (v : Nat) (h : regAddr b' n' f'.off ≠ regAddr b n f.off) :
    (s.setFld b n f v).fld b' n' f' = s.fld b' n' f' := by
  simp only [State.fld, State.reg_setFld, h, if_false]

/-- Another field of the same register after a field has been set. -/
theorem State.fld_setFld_other {b : Block} {n : Nat} {f f' : Fld} (v : Nat) (ho : f'.off = f.off) (hl : f.lo ≤ f.hi) (hh : f.hi < 64)
    (h : f.hi < f'.lo ∨ f'.hi < f.lo) : (s.setFld b n f v).fld b n f' = s.fld b n f' := by
  simp only [State.fld, State.reg_setFld, ho, if_true]
  rcases h with h | h
  · exact wget_wset_above _ v hl hh h
  · exact wget_wset_below _ v hl hh h

/-! ### The updates that a read is not about -/

@[simp] theorem State.reg_setByte (a : Nat) (b : Byte) (x : Nat) : (s.setByte a b).reg x = s.reg x := rfl
@[simp] theorem State.reg_setTile (t : Nat) (y : Tile) (x : Nat) : (s.setTile t y).reg x = s.reg x := rfl
@[simp] theorem State.reg_modTile (t : Nat) (f : Tile → Tile) (x : Nat) : (s.modTile t f).reg x = s.reg x := rfl
@[simp] theorem State.reg_modCtx (t c : Nat) (f : Ctx → Ctx) (x : Nat) : (s.modCtx t c f).reg x = s.reg x := rfl
@[simp] theorem State.reg_send (w : Wire) (x : Nat) : (s.send w).reg x = s.reg x := rfl
@[simp] theorem State.reg_unwire (w : Wire) (x : Nat) : (s.unwire w).reg x = s.reg x := rfl
@[simp] theorem State.reg_submit (l : LogSub) (x : Nat) : (s.submit l).reg x = s.reg x := rfl
@[simp] theorem State.reg_tellHost (m : HostMsg) (x : Nat) : (s.tellHost m).reg x = s.reg x := rfl
@[simp] theorem State.reg_setMc (k : Nat) (m : Mc) (x : Nat) : (s.setMc k m).reg x = s.reg x := rfl
@[simp] theorem State.reg_modLodge (f : Lodge → Lodge) (x : Nat) : (s.modLodge f).reg x = s.reg x := rfl
@[simp] theorem State.reg_modMram (f : Mram → Mram) (x : Nat) : (s.modMram f).reg x = s.reg x := rfl

@[simp] theorem State.tile_setReg (a : Nat) (w : Word) (x : Nat) : (s.setReg a w).tile x = s.tile x := rfl
@[simp] theorem State.tile_clearRegs (f : Nat → Bool) (x : Nat) : (s.clearRegs f).tile x = s.tile x := rfl
@[simp] theorem State.tile_setFld (b : Block) (n : Nat) (f : Fld) (v : Nat) (x : Nat) : (s.setFld b n f v).tile x = s.tile x := rfl
@[simp] theorem State.tile_setTf (t : Nat) (f : Fld) (v : Nat) (x : Nat) : (s.setTf t f v).tile x = s.tile x := rfl
@[simp] theorem State.tile_setTstate (t v : Nat) (x : Nat) : (s.setTstate t v).tile x = s.tile x := rfl
@[simp] theorem State.tile_setPf (p : Nat) (f : Nat → Fld) (v : Nat) (x : Nat) : (s.setPf p f v).tile x = s.tile x := rfl
@[simp] theorem State.tile_setByte (a : Nat) (b : Byte) (x : Nat) : (s.setByte a b).tile x = s.tile x := rfl
@[simp] theorem State.tile_send (w : Wire) (x : Nat) : (s.send w).tile x = s.tile x := rfl
@[simp] theorem State.tile_unwire (w : Wire) (x : Nat) : (s.unwire w).tile x = s.tile x := rfl
@[simp] theorem State.tile_submit (l : LogSub) (x : Nat) : (s.submit l).tile x = s.tile x := rfl
@[simp] theorem State.tile_tellHost (m : HostMsg) (x : Nat) : (s.tellHost m).tile x = s.tile x := rfl
@[simp] theorem State.tile_setMc (k : Nat) (m : Mc) (x : Nat) : (s.setMc k m).tile x = s.tile x := rfl
@[simp] theorem State.tile_modLodge (f : Lodge → Lodge) (x : Nat) : (s.modLodge f).tile x = s.tile x := rfl
@[simp] theorem State.tile_modMram (f : Mram → Mram) (x : Nat) : (s.modMram f).tile x = s.tile x := rfl

@[simp] theorem State.byte_setReg (a : Nat) (w : Word) (x : Nat) : (s.setReg a w).byte x = s.byte x := rfl
@[simp] theorem State.byte_clearRegs (f : Nat → Bool) (x : Nat) : (s.clearRegs f).byte x = s.byte x := rfl
@[simp] theorem State.byte_setFld (b : Block) (n : Nat) (f : Fld) (v : Nat) (x : Nat) : (s.setFld b n f v).byte x = s.byte x := rfl
@[simp] theorem State.byte_setTf (t : Nat) (f : Fld) (v : Nat) (x : Nat) : (s.setTf t f v).byte x = s.byte x := rfl
@[simp] theorem State.byte_setTstate (t v : Nat) (x : Nat) : (s.setTstate t v).byte x = s.byte x := rfl
@[simp] theorem State.byte_setPf (p : Nat) (f : Nat → Fld) (v : Nat) (x : Nat) : (s.setPf p f v).byte x = s.byte x := rfl
@[simp] theorem State.byte_setTile (t : Nat) (y : Tile) (x : Nat) : (s.setTile t y).byte x = s.byte x := rfl
@[simp] theorem State.byte_modTile (t : Nat) (f : Tile → Tile) (x : Nat) : (s.modTile t f).byte x = s.byte x := rfl
@[simp] theorem State.byte_modCtx (t c : Nat) (f : Ctx → Ctx) (x : Nat) : (s.modCtx t c f).byte x = s.byte x := rfl
@[simp] theorem State.byte_send (w : Wire) (x : Nat) : (s.send w).byte x = s.byte x := rfl
@[simp] theorem State.byte_unwire (w : Wire) (x : Nat) : (s.unwire w).byte x = s.byte x := rfl
@[simp] theorem State.byte_submit (l : LogSub) (x : Nat) : (s.submit l).byte x = s.byte x := rfl
@[simp] theorem State.byte_tellHost (m : HostMsg) (x : Nat) : (s.tellHost m).byte x = s.byte x := rfl
@[simp] theorem State.byte_setMc (k : Nat) (m : Mc) (x : Nat) : (s.setMc k m).byte x = s.byte x := rfl
@[simp] theorem State.byte_modLodge (f : Lodge → Lodge) (x : Nat) : (s.modLodge f).byte x = s.byte x := rfl
@[simp] theorem State.byte_modMram (f : Mram → Mram) (x : Nat) : (s.modMram f).byte x = s.byte x := rfl

end Sys2Proof.Machine
end

