-- ==== Sys2Proof/Laws/Issue.lean ====
section
/-!
SUPPORT. What an instruction of a quiet tile meets: it issues and dispatches at once, so that a statement about its effect need not speak
of queues and scoreboard.
-/

set_option linter.unusedSimpArgs false

namespace Sys2Proof.Machine

variable {s : State} {t : Nat}

/-- Two registers of one tile share an address only if they are the same register. -/
theorem tileAddr_ne {a b : Nat} (h : a ≠ b) : regAddr .tile t a ≠ regAddr .tile t b := by
  simp only [regAddr]; omega

@[simp] theorem tf_setTf_ne {f g : Fld} (v : Nat) (h : g.off ≠ f.off) : (s.setTf t f v).tf t g = s.tf t g := by
  simp only [State.tf, State.setTf]; exact State.fld_setFld_ne s v (tileAddr_ne h)

theorem tf_setTf_other {f g : Fld} (v : Nat) (ho : g.off = f.off) (hl : f.lo ≤ f.hi) (hh : f.hi < 64) (h : f.hi < g.lo ∨ g.hi < f.lo) :
    (s.setTf t f v).tf t g = s.tf t g := State.fld_setFld_other s v ho hl hh h

theorem tf_setTf_self {f : Fld} (v : Nat) (hl : f.lo ≤ f.hi) (hh : f.hi < 64) : (s.setTf t f v).tf t f = v % 2 ^ (f.hi + 1 - f.lo) :=
  State.fld_setFld_self s v hl hh

@[simp] theorem tf_modTile (f : Tile → Tile) (g : Fld) (k : Nat) : (s.modTile t f).tf k g = s.tf k g := rfl
@[simp] theorem tf_modCtx (c : Nat) (f : Ctx → Ctx) (g : Fld) (k : Nat) : (s.modCtx t c f).tf k g = s.tf k g := rfl
@[simp] theorem tf_setTile (x : Tile) (g : Fld) (k : Nat) : (s.setTile t x).tf k g = s.tf k g := rfl
@[simp] theorem tf_send (w : Wire) (g : Fld) (k : Nat) : (s.send w).tf k g = s.tf k g := rfl
@[simp] theorem tf_setByte (a : Nat) (b : Byte) (g : Fld) (k : Nat) : (s.setByte a b).tf k g = s.tf k g := rfl
@[simp] theorem tf_wr (a : Nat) (bs : List Byte) (g : Fld) (k : Nat) : (s.wr a bs).tf k g = s.tf k g := by
  simp only [State.tf, State.fld, State.reg_wr]

/-- What a sequencer that may issue is like. -/
theorem canIssue_parts (h : canIssue s t = true) :
    s.bound t = true ∧ s.tstate t = running ∧ s.tf t R.TSTAT_HALTED = 0 ∧ s.tf t R.TSTAT_HELD = 0 ∧ (s.tile t).held = none := by
  simp only [canIssue, Bool.and_eq_true, beq_iff_eq, Option.isNone_iff_eq_none] at h
  exact ⟨h.1.1.1.1.1, h.1.1.1.1.2, h.1.1.1.2, h.1.1.2, h.1.2⟩

theorem Quiet.pc (h : Quiet s t) : progOffset s t (s.actx t) ((s.tile t).ctx (s.actx t)).idx = some (issuePc s t) := by
  have := h.area
  unfold issuePc
  cases hp : progOffset s t (s.actx t) ((s.tile t).ctx (s.actx t)).idx with
  | none => simp [hp] at this
  | some p => rfl

/-- Issue of a legal instruction of the tile's class. -/
theorem atIssue_quiet (h : Quiet s t) {e : Engine} {legal : Bool} (hl : legal = true) (he : hasEngine t e = true) (f : Nat → Nat → State) :
    atIssue s t e legal f = f (s.actx t) (issuePc s t) := by
  unfold atIssue
  simp [h.issues, h.pc, hl, he]

/-! ### `advance` and `issued` -/

@[simp] theorem tile_advance (k : Nat) : (advance s t).tile k = if k = t then (s.tile t).modCtx (s.actx t) Ctx.advance else s.tile k := by
  simp [advance]

/-- Every field of the tile but `BOUNDARY` reads after `advance` as before. -/
theorem tf_advance {g : Fld} (h : g.off ≠ R.TSTAT ∨ g.hi < 4 ∨ 4 < g.lo) : (advance s t).tf t g = s.tf t g := by
  unfold advance
  by_cases hk : g.off = R.TSTAT
  · rw [tf_setTf_other (f := R.TSTAT_BOUNDARY) 0 hk (by decide) (by decide) (by rcases h with h | h | h <;> first | exact absurd hk h | exact .inr h | exact .inl h)]
    rfl
  · rw [tf_setTf_ne 0 (by exact hk)]; rfl

theorem reg_advance (a : Nat) :
    (advance s t).reg a = if a = regAddr .tile t R.TSTAT then wset (s.reg (regAddr .tile t R.TSTAT)) 4 4 0 else s.reg a := by
  simp only [advance, State.reg_setTf, State.reg_modCtx]; rfl

theorem tile_issued (k : Nat) :
    (issued s t).tile k = if k = t then { (s.tile t).modCtx (s.actx t) Ctx.advance with nextId := ((s.tile t).modCtx (s.actx t) Ctx.advance).nextId + 1 } else s.tile k := by
  by_cases hk : k = t <;> simp [issued, hk]

theorem tf_issued {g : Fld} (h : g.off ≠ R.TSTAT ∨ g.hi < 4 ∨ 4 < g.lo) : (issued s t).tf t g = s.tf t g := tf_advance h

theorem modCtx_parts (x : Tile) (c : Nat) (f : Ctx → Ctx) :
    (x.modCtx c f).queue = x.queue ∧ (x.modCtx c f).flights = x.flights ∧ (x.modCtx c f).gate = x.gate ∧ (x.modCtx c f).stalled = x.stalled ∧
      (x.modCtx c f).outst = x.outst ∧ (x.modCtx c f).held = x.held ∧ (x.modCtx c f).nextId = x.nextId := by
  unfold Tile.modCtx; split <;> exact ⟨rfl, rfl, rfl, rfl, rfl, rfl, rfl⟩

/-! ### The release of an empty gate -/

theorem releaseGate_empty (h : (s.tile t).gate = []) : releaseGate s t = s := by unfold releaseGate; rw [h]

theorem atHead_empty (h : (s.tile t).gate = []) (e : Engine) (c : Nat) (i : Instr) : atHead s t e c i = s := by
  unfold atHead; rw [releaseGate_empty h, ite_self]

theorem gate_issued (h : (s.tile t).gate = []) : ((issued s t).tile t).gate = [] := by
  rw [tile_issued, if_pos rfl]; exact (modCtx_parts _ _ _).2.2.1.trans h

/-- An instruction of a quiet tile that works no lanes dispatches in the state that its issue leaves. -/
theorem dispatched_eq (h : (s.tile t).gate = []) (e : Engine) (i : Instr) : dispatched s t e i = clockLanes (issued s t) t e := by
  unfold dispatched; rw [atHead_empty (gate_issued h)]

theorem clockLanes_of {e : Engine} (h : e ≠ .ve) : clockLanes s t e = s := by simp [clockLanes, h]

/-! ### Issue and dispatch -/

theorem cntVal_issued (c n : Nat) : cntVal (issued s t) t c n = cntVal s t c n := tf_issued (.inl (by
  simp only [R.CNT_VALUE, R.CNT, R.TSTAT]; omega))

theorem reg_of_regs {u : State} (h : u.regs = s.regs) (a : Nat) : u.reg a = s.reg a := by unfold State.reg; rw [h]

theorem tf_of_regs {u : State} (h : u.regs = s.regs) (k : Nat) (f : Fld) : u.tf k f = s.tf k f := by
  simp only [State.tf, State.fld, reg_of_regs h]

/-- The issue of a legal instruction of a quiet tile: it dispatches at once, with its wait met. -/
theorem issue_quiet (h : Quiet s t) {r : IssueReq} (eff : Queued → State → State) (hl : r.legal = true) (he : hasEngine t r.eng = true)
    (hw : waitMet s t r.wait = true) (hn : r.foot.ranges.length ≤ 31) :
    issue s t r eff = settle (eff (queuedOf s t r) (dispatched s t r.eng r.instr)) t := by
  have hw' := hw
  simp only [waitMet, Bool.and_eq_true] at hw'
  unfold issue
  rw [atIssue_quiet h (by simp [hl, hw'.1]) he]
  have hiw : issueWaits (s.tile t) (s.actx t) r = false := by
    have h1 : sbUsed (s.tile t) = 0 := by simp [sbUsed, h.queue, h.flights]
    unfold issueWaits
    simp only [h.queue, h.flights, h1, List.any_nil, List.filter_nil, Bool.or_self, List.length_nil]
    cases r.desc <;> simp [pendingWrite, h.queue, h.flights] <;> omega
  dsimp only
  rw [if_neg (by simp [hiw])]
  simp only [h.queue, List.any_nil, Bool.false_eq_true, if_false]
  change (if canDispatch (atHead (issued s t) t r.eng (s.actx t) r.instr) t (queuedOf s t r) = true then
    settle (eff (queuedOf s t r) (dispatched s t r.eng r.instr)) t else _) = _
  have hp := modCtx_parts (s.tile t) (s.actx t) Ctx.advance
  have hd : canDispatch (atHead (issued s t) t r.eng (s.actx t) r.instr) t (queuedOf s t r) = true := by
    rw [atHead_empty (gate_issued h.gate)]
    have ht := tile_issued (s := s) (t := t) t
    rw [if_pos rfl] at ht
    unfold canDispatch
    simp only [ht, hp.1, hp.2.1, h.queue, h.flights, List.filter_nil, List.all_nil, Bool.true_and, List.isEmpty_nil, Bool.or_true, Bool.and_eq_true,
      Bool.not_eq_true', noneOpen, hp.2.2.1, h.gate, hp.2.2.2.1, h.stalled, hp.2.2.2.2.1, h.outst]
    refine ⟨⟨?_, ?_⟩, ?_⟩
    · show (match (queuedOf s t r).wait with | some (n, v) => _ | none => true) = true
      have h2 := hw'.2
      simp only [queuedOf]
      by_cases hb : bitOf r.wait.toNat 12 = true
      · simp only [hb, Bool.not_true, Bool.false_or, if_true] at h2 ⊢
        rw [cntVal_issued]; exact h2
      · simp [hb]
    · unfold engineBusy
      simp only [hp.2.2.2.1, h.stalled, hp.2.1, h.flights, List.any_nil, Bool.false_or]
      cases hre : (queuedOf s t r).eng <;> simp [dmRoom, dmOpen, hp.2.1, h.flights, hp.2.2.2.2.1, h.outst]
    · unfold meWaits
      simp only [hp.2.1, h.flights, hp.2.2.1, h.gate, List.any_nil, List.isEmpty_nil]
      split <;> simp
  rw [if_pos hd]

/-! ### What `settle` leaves alone -/

/-- A running tile that nothing holds and that is neither halted nor held stays as it is, but for an idle clock (R160). -/
theorem settle_still (hr : s.tstate t = running) (hh : (s.tile t).held = none) (hb : recvBlockedOn (s.tile t) = none)
    (h1 : s.tf t R.TSTAT_HALTED = 0) (h2 : s.tf t R.TSTAT_HELD = 0) : settle s t = clockRest s t := by
  unfold settle
  simp [hr, hh, hb, h1, h2, releaseHold]

/-! ### Registers after issue, and `settle` after an update of them -/

variable {u : State}

theorem rs_issued (c n : Nat) : rs (issued s t) t c n = rs s t c n := by
  simp only [rs, tile_issued, if_true]
  unfold Tile.modCtx Tile.ctx
  by_cases hc : c = 0 <;> by_cases ha : s.actx t = 0 <;> simp [hc, ha, Ctx.advance]

theorem ra_issued (c n : Nat) : ra (issued s t) t c n = ra s t c n := by
  simp only [ra, tile_issued, if_true]
  unfold Tile.modCtx Tile.ctx
  by_cases hc : c = 0 <;> by_cases ha : s.actx t = 0 <;> simp [hc, ha, Ctx.advance]

theorem rp_issued (c n : Nat) : rp (issued s t) t c n = rp s t c n := by
  simp only [rp, tile_issued, if_true]
  unfold Tile.modCtx Tile.ctx
  by_cases hc : c = 0 <;> by_cases ha : s.actx t = 0 <;> simp [hc, ha, Ctx.advance]

theorem lane0_issued (c : Nat) (p : BitVec 3) : lane0 (issued s t) t c p = lane0 s t c p := by simp only [lane0, rp_issued]

/-- a state after issue whose TSTAT is that of the issue -/
theorem settle_of (h : Quiet s t) (hr : u.reg (regAddr .tile t R.TSTAT) = (issued s t).reg (regAddr .tile t R.TSTAT))
    (hh : (u.tile t).held = none) (hb : recvBlockedOn (u.tile t) = none) : settle u t = clockRest u t := by
  have hp := canIssue_parts h.issues
  have key : ∀ f : Fld, f.off = R.TSTAT → f.hi < 4 ∨ 4 < f.lo → u.tf t f = s.tf t f := by
    intro f hf hd
    rw [← tf_issued (s := s) (t := t) (g := f) (.inr hd)]
    simp only [State.tf, State.fld, hf, hr]
  refine settle_still ?_ hh hb ?_ ?_
  · exact (key R.TSTAT_STATE rfl (.inl (by decide))).trans hp.2.1
  · exact (key R.TSTAT_HALTED rfl (.inr (by decide))).trans hp.2.2.1
  · exact (key R.TSTAT_HELD rfl (.inr (by decide))).trans hp.2.2.2.1

theorem tile_issued_parts (h : Quiet s t) : ((issued s t).tile t).held = none ∧ recvBlockedOn ((issued s t).tile t) = none := by
  have hp := canIssue_parts h.issues
  have hq := modCtx_parts (s.tile t) (s.actx t) Ctx.advance
  rw [tile_issued, if_pos rfl]
  refine ⟨hq.2.2.2.2.2.1.trans hp.2.2.2.2, ?_⟩
  simp only [recvBlockedOn, hq.2.1, h.flights]; rfl

/-- An update of the active context's registers leaves the hold and what is in flight alone. -/
theorem settle_modCtx (h : Quiet s t) (c : Nat) (g : Ctx → Ctx) : settle ((issued s t).modCtx t c g) t = clockRest ((issued s t).modCtx t c g) t := by
  have hp := tile_issued_parts h
  refine settle_of h rfl ?_ ?_
  · rw [State.tile_modCtx, if_pos rfl]; exact (modCtx_parts _ _ _).2.2.2.2.2.1.trans hp.1
  · rw [State.tile_modCtx, if_pos rfl]; unfold recvBlockedOn; rw [(modCtx_parts _ _ _).2.1]; exact hp.2

theorem settle_issued (h : Quiet s t) : settle (issued s t) t = clockRest (issued s t) t := settle_of h rfl (tile_issued_parts h).1 (tile_issued_parts h).2

theorem settle_setS (h : Quiet s t) (c n : Nat) (v : Word) : settle (setS (issued s t) t c n v) t = clockRest (setS (issued s t) t c n v) t := settle_modCtx h _ _
theorem settle_setA (h : Quiet s t) (c n : Nat) (v : Word) : settle (setA (issued s t) t c n v) t = clockRest (setA (issued s t) t c n v) t := settle_modCtx h _ _
theorem settle_setP (h : Quiet s t) (c n : Nat) (v : Pred) : settle (setP (issued s t) t c n v) t = clockRest (setP (issued s t) t c n v) t := by
  unfold setP; split
  · exact settle_issued h
  · exact settle_modCtx h _ _

theorem issue_sc (h : Quiet s t) {r : IssueReq} (eff : Queued → State → State) (hl : r.legal = true) (he : r.eng = .sc)
    (hw : waitMet s t r.wait = true) (hn : r.foot.ranges.length ≤ 31) :
    issue s t r eff = settle (eff (queuedOf s t r) (issued s t)) t := by
  rw [issue_quiet h eff hl (by rw [he]; rfl) hw hn, dispatched_eq h.gate, he, clockLanes_of (by decide)]

theorem waitMet_zero : waitMet s t 0 = true := by simp [waitMet, waitLegal, bitOf]

theorem actx_eq (r : IssueReq) : (queuedOf s t r).ctx = s.actx t := rfl


/-! ### Drains -/

/-- What a drain leaves alone: it changes memory, and of the tile only the gather buffer and the merge table. -/
def Drained (s u : State) (t : Nat) : Prop :=
  u = { s with mem := u.mem, tiles := u.tiles } ∧ (∀ k, k ≠ t → u.tile k = s.tile k) ∧ u.tile t = { s.tile t with gb := (u.tile t).gb, merge := (u.tile t).merge }

theorem Drained.refl (s : State) (t : Nat) : Drained s s t := ⟨rfl, fun _ _ => rfl, rfl⟩

theorem Drained.trans {v : State} (h : Drained s u t) (g : Drained u v t) : Drained s v t := by
  obtain ⟨h1, h2, h3⟩ := h
  obtain ⟨g1, g2, g3⟩ := g
  refine ⟨?_, fun k hk => (g2 k hk).trans (h2 k hk), ?_⟩
  · rw [g1, h1]
  · rw [g3, h3]

theorem Drained.regs (h : Drained s u t) : u.regs = s.regs := by rw [h.1]

theorem writeEntry_fold (e : GbEntry) (l : List Nat) : ∀ s : State, (l.foldl (fun s i =>
    if maskBit e.mask i then s.setByte (spadAddr t (64 * e.row + i)) (.ofNat 8 (bits e.data.toNat (8 * i + 7) (8 * i))) else s) s) =
    { s with mem := (l.foldl (fun s i =>
    if maskBit e.mask i then s.setByte (spadAddr t (64 * e.row + i)) (.ofNat 8 (bits e.data.toNat (8 * i + 7) (8 * i))) else s) s).mem } := by
  induction l with
  | nil => intro s; rfl
  | cons a l ih =>
    intro s
    simp only [List.foldl_cons]
    rw [ih]
    split <;> rfl

theorem writeEntry_frame (e : GbEntry) : writeEntry s t e = { s with mem := (writeEntry s t e).mem } := writeEntry_fold e _ s

theorem drainRow_drained (row : Nat) : Drained s (drainRow s t row) t := by
  unfold drainRow
  split
  · exact .refl s t
  · split
    · exact .refl s t
    · have hw := fun e => writeEntry_frame (s := s) (t := t) e
      refine ⟨?_, ?_, ?_⟩
      · dsimp only; rw [hw]; rfl
      · intro k hk; rw [State.tile_modTile, if_neg hk, hw]; rfl
      · rw [State.tile_modTile, if_pos rfl, hw]; rfl

theorem drain_fold (l : List Nat) : ∀ s : State, Drained s (l.foldl (fun s row => drainRow s t row) s) t := by
  induction l with
  | nil => intro s; exact .refl s t
  | cons a l ih => intro s; exact (drainRow_drained a).trans (ih _)

theorem drainIf_drained (f : GbEntry → Bool) : Drained s (drainIf s t f) t := drain_fold _ s

theorem drainAll_drained : Drained s (drainAll s t) t := drainIf_drained _

end Sys2Proof.Machine
end

