-- ==== Sys2Proof/WellFormed.lean ====
section
/-!
DEFINITION. Which terms of `Instr` are commands that can be sent: the operands that are Nats for readability are within the
range of the field or of the part that they stand for, and the records among them have the lengths that the manual gives.
-/

namespace Sys2Proof

/-- A logical tile number (R18). -/
def tileOk (t : Nat) : Bool := decide (t < 2048)

/-- A compute die and its stack (R15). -/
def dieOk (d : Nat) : Bool := decide (d < 8)
def stackOk (k : Nat) : Bool := decide (k < 8)

/-- A context of a tile (R63). -/
def ctxOk (c : Nat) : Bool := decide (c < 2)

/-- A gatehouse (R21); a fabric port (R23). -/
def ghOk (g : Nat) : Bool := decide (g < 2)
def portOk (p : Nat) : Bool := decide (p < 64)

/-- A link of a compute die (R299), and an end of one: dies 8–15 stand for the far ends. -/
def linkOk (d e : Nat) : Bool := dieOk d && decide (e < 10)
def endOk (d e : Nat) : Bool := decide (d < 16) && decide (e < 10)

/-- A barrier generation (R237); a completion status (R298). -/
def genOk (g : Nat) : Bool := decide (g < 256)
def statusOk (x : Nat) : Bool := decide (x < 16)

/-- A package address of HBM; one of a scratchpad or register (R15). -/
def hbmOk (a : Nat) : Bool := decide (a < 0x80_0000_0000)
def regOk (a : Nat) : Bool := decide (0x80_0000_0000 ≤ a) && decide (a < 2 ^ 40)

/-- A switchable function (R538), numbered as `Lodge.latches` numbers them; a device of the PMBus (R725). -/
def fnOk (f : Nat) : Bool := decide (f < 97)
def pmbOk (d : Nat) : Bool := [0x40, 0x41, 0x42, 0x48, 0x49].contains d

/-- A row of a scratchpad that a parity check names (R106). -/
def Parity.ok : Parity → Bool
  | .clean => true
  | .recovered o => decide (o < 0x20_0000)
  | .unrecovered o => decide (o < 0x20_0000)

/-- Device and tile numbers of a sender (R115). -/
def Sender.ok (x : Sender) : Bool := decide (x.dev < 2 ^ 16) && tileOk x.tile

/-- The scratchpad of a tile holds a range. -/
def inSpad (t a n : Nat) : Bool := decide (0x80_0000_0000 + t * 0x20_0000 ≤ a) && decide (a + n ≤ 0x80_0000_0000 + (t + 1) * 0x20_0000)

/-- A remote write within one row of the tile (R115). -/
def WritePkt.ok (p : WritePkt) (t : Nat) : Bool :=
  p.sender.ok && decide (0 < p.data.length) && decide (p.addr % 64 + p.data.length ≤ 64) && inSpad t p.addr p.data.length && decide (p.epoch < 2 ^ 16)

/-- A remote read of bytes of the tile (R115, R296). -/
def ReadReq.ok (q : ReadReq) (t : Nat) : Bool := q.sender.ok && decide (0 < q.len) && decide (q.len ≤ 4096) && inSpad t q.addr q.len

/-- A message for a queue of the tile (R247, R640). -/
def Msg.ok (m : Msg) : Bool := decide (m.queue < 16) && m.sender.ok && decide (m.epoch < 2 ^ 16)

/-- A packet with the data that a link carries and the destinations that its header can count (R288, R296, R307). -/
def Packet.ok (p : Packet) : Bool :=
  decide (p.data.length ≤ 64) && decide (p.dests.length ≤ 16) && p.dests.all fun d => dieOk d.1 && decide (d.2.1 ≤ 20) && decide (d.2.2.1 < 16)

/-- A frame (R310): 16-bit counts, a type of the table, at most 1,280 B of slots. -/
def CplFrame.ok (f : CplFrame) : Bool :=
  decide (f.seq < 2 ^ 16) && decide (f.ack < 2 ^ 16) && decide (f.typ < 3) && decide ((f.packets.map Packet.units).foldl (· + ·) 0 ≤ 80) && f.packets.all Packet.ok

/-- The fields of a CXT header within their widths (R425). -/
def CxtHdr.ok (h : CxtHdr) : Bool :=
  decide (h.ver < 2 ^ 8) && decide (h.sdev < 2 ^ 16) && decide (h.ddev < 2 ^ 16) && decide (h.path < 64) && decide (h.layout < 2 ^ 16) && decide (h.aliasGen < 2 ^ 32) &&
    decide (h.psn < 2 ^ 32) && decide (h.ack < 2 ^ 32) && decide (h.sack < 2 ^ 32) && decide (h.addr < 2 ^ 40) && decide (h.epoch < 2 ^ 16)

/-- A CXT packet that a fabric port can receive (R425). -/
def CxtPkt.ok (p : CxtPkt) : Bool := portOk p.port && p.hdr.ok && decide (p.data.length ≤ 4096)

/-- A CHP packet with a session identifier and a sequence number of 64 bits (R558). DEDUCED (log 67). -/
def ChpPkt.ok (p : ChpPkt) : Bool := decide (p.sid < 2 ^ 64) && decide (p.seq < 2 ^ 64)

/-- A request within one block of HBM, of a tile (R338). -/
def HbmReq.ok (q : HbmReq) : Bool := tileOk q.t && hbmOk q.addr && decide (0 < q.len) && decide (q.addr % 4096 + q.len ≤ 4096)

/-- Whether a command can be sent. -/
def Instr.wellFormed : Instr → Bool
  | .sequencerFetch t par => tileOk t && par.ok
  | .engineDispatch t _ par => tileOk t && par.ok
  | .nop t _ => tileOk t
  | .salu t _ => tileOk t
  | .salui t _ => tileOk t
  | .smul t _ => tileOk t
  | .sld t _ => tileOk t
  | .sst t _ => tileOk t
  | .aop t _ => tileOk t
  | .scmp t _ => tileOk t
  | .br t _ => tileOk t
  | .brr t _ => tileOk t
  | .loop t _ => tileOk t
  | .csig t _ => tileOk t
  | .cwait t _ => tileOk t
  | .crd t _ => tileOk t
  | .barr t _ => tileOk t
  | .bwait t _ => tileOk t
  | .send t _ => tileOk t
  | .sendInject t => tileOk t
  | .recv t f => tileOk t && !f.mod.getLsbD 0
  | .recvUnblock t => tileOk t
  | .tryrecv t f => tileOk t && f.mod.getLsbD 0
  | .qrel t _ => tileOk t
  | .bopen t _ => tileOk t
  | .wopen t f => tileOk t && !f.mod.getLsbD 0
  | .wclose t f => tileOk t && f.mod.getLsbD 0
  | .ctx t _ => tileOk t
  | .fence t _ => tileOk t
  | .soak t _ => tileOk t
  | .trap t _ => tileOk t
  | .halt t _ => tileOk t
  | .dmal t _ => tileOk t
  | .dmas t _ => tileOk t
  | .dmar t _ => tileOk t
  | .dmaw t _ => tileOk t
  | .dmax t _ => tileOk t
  | .dmaxEntry t => tileOk t
  | .dmaf t _ => tileOk t
  | .dmam t _ => tileOk t
  | .dmaComplete t _ => tileOk t
  | .vld t _ => tileOk t
  | .vst t _ => tileOk t
  | .vldx t _ => tileOk t
  | .vstx t _ => tileOk t
  | .vop t _ => tileOk t
  | .vcmp t _ => tileOk t
  | .vred t _ => tileOk t
  | .vcvt t _ => tileOk t
  | .vmovx t _ => tileOk t
  | .amax t _ => tileOk t
  | .cone t _ => tileOk t
  | .mgang t _ => tileOk t
  | .mpanel t _ => tileOk t
  | .mpanelLoaded t => tileOk t
  | .mmul t _ => tileOk t
  | .mmulComplete t sub => tileOk t && decide (sub < 4)
  | .mpred t _ => tileOk t
  | .mpredFinalMark t sub => tileOk t && decide (sub < 4)
  | .mdrain t _ => tileOk t
  | .mdrainComplete t => tileOk t
  | .gateDeadlineExpiry t => tileOk t
  | .batchComplete t => tileOk t
  | .ssort t _ => tileOk t
  | .smerge t _ => tileOk t
  | .sinter t _ => tileOk t
  | .shash t _ => tileOk t
  | .sgather t _ => tileOk t
  | .sscatter t _ => tileOk t
  | .setOpComplete t => tileOk t
  | .engineCheckFail t _ => tileOk t
  | .wakeComplete t => tileOk t
  | .soakHoldEnd t => tileOk t
  | .rampDownStep t => tileOk t
  | .rampDownEnd t => tileOk t
  | .rampUpStep t => tileOk t
  | .governorGrant t => tileOk t
  | .watchdogExpiry t => tileOk t
  | .holdTakesEffect t => tileOk t
  | .stalledSignalApply t => tileOk t
  | .stalledSignalFault t => tileOk t
  | .gatherBufferIdleDrain t => tileOk t
  | .remoteWritePacket t pkt => tileOk t && pkt.ok t
  | .heldPacketRecheck t => tileOk t
  | .wicketCloseComplete t => tileOk t
  | .remoteReadRequest t rq par => tileOk t && rq.ok t && par.ok
  | .mergeWindowExpiry t row => tileOk t && decide (row < 32_768)
  | .remoteReadResponse t _ status data => tileOk t && statusOk status && decide (data.length ≤ 4096)
  | .transferAnswer t _ status => tileOk t && statusOk status
  | .bankGroupPowered t g => tileOk t && decide (g < 8)
  | .bankGroupZeroFillEnd t g => tileOk t && decide (g < 8)
  | .taskEnd t c => tileOk t && ctxOk c
  | .descriptorArrival t m => tileOk t && m.ok
  | .creditReturnTimer t q => tileOk t && decide (q < 16)
  | .creditReturn t ch slots units => tileOk t && decide (ch < 64) && decide (slots < 2 ^ 9) && decide (units < 2 ^ 13)
  | .basinContribution t m => tileOk t && m.ok
  | .basinZeroComplete t q b => tileOk t && decide (q < 16) && decide (b < 16)
  | .basinBucketComplete t q b => tileOk t && decide (q < 16) && decide (b < 16)
  | .barrierArrivalSend t => tileOk t
  | .dieBarrierArrival die g gen => dieOk die && decide (g < 48) && genOk gen
  | .packageBarrierArrival die g gen => dieOk die && decide (32 ≤ g) && decide (g < 48) && genOk gen
  | .barrierRelease t c g gen => tileOk t && ctxOk c && decide (g < 48) && genOk gen
  | .packetHop die row col pkt => dieOk die && decide (row ≤ 20) && decide (col < 16) && pkt.ok
  | .cplFrameReceive die link fr => endOk die link && fr.ok
  | .cplNak die link ack => endOk die link && decide (ack < 2 ^ 16)
  | .cplAckTimeout die link => endOk die link
  | .cplControlTimer die link => endOk die link
  | .ucieRetrain die link => linkOk die link
  | .ucieRetrainTimeout die link => linkOk die link
  | .linkTrainingTimeout die link => linkOk die link
  | .capabilityRecord die link rec => linkOk die link && rec.length == 16
  | .capabilityTimeout die link => linkOk die link
  | .dieLinkDown die link => linkOk die link
  | .routerFault die row col => dieOk die && decide (row ≤ 17) && decide (col < 16)
  | .routeSetSwitch die => dieOk die
  | .hbmReadRequest q _ => q.ok
  | .hbmWriteRequest q => q.ok && q.data.length == q.len
  | .twinBlockReturn stack addr data => stackOk stack && hbmOk addr && (data.all fun bs => bs.length == 4096)
  | .pageRetirementComplete stack => stackOk stack
  | .protectedPageStaged stack => stackOk stack
  | .stackTemperaturePoll stack _ => stackOk stack
  | .stackLost stack => stackOk stack
  | .stackZeroFillComplete stack => stackOk stack
  | .uugateWrite stack _ => stackOk stack
  | .uuCommitEnd stack => stackOk stack
  | .uuStop stack => stackOk stack
  | .cxtWrite p => p.ok
  | .cxtJwrite p => p.ok
  | .cxtSend p => p.ok
  | .cxtRead p => p.ok
  | .cxtRdata p => p.ok
  | .cxtBarrier p => p.ok
  | .cxtAck p => p.ok
  | .cxtGrant p => p.ok
  | .cxtHeartbeat p => p.ok
  | .aliasUpdate p => p.ok
  | .queueEpochNotice p => p.ok
  | .portNotice p => p.ok
  | .failureNotice p => p.ok
  | .replacedNotice p => p.ok
  | .abort p => p.ok
  | .abortReport p => p.ok
  | .releaseRecord p => p.ok
  | .layoutEpoch p => p.ok
  | .ctrlCreditReturn p => p.ok
  | .deviceCertificate p => p.ok
  | .cxtRetransmitTimeout port peer path => portOk port && decide (peer < 2 ^ 16) && decide (path < 64)
  | .portLinkDown port => portOk port
  | .portRetrain port _ => portOk port
  | .normGroupComplete g => decide (g < 16)
  | .reshardApply => true
  | .heartbeatPeriod => true
  | .probeTimeout => true
  | .copierPageSend stack => stackOk stack
  | .generationComplete stack => stackOk stack
  | .tileHoldTimeout t => tileOk t
  | .spareAnswerTimeout => true
  | .statePullComplete _ => true
  | .journalReplay => true
  | .restart => true
  | .hostLost => true
  | .vaonInRange => true
  | .porstNRelease _ _ => true
  | .porstNAssert => true
  | .lodgeFirmwareVerify => true
  | .pvXPowerOn => true
  | .gatehouseBoot => true
  | .hdPowerUp => true
  | .hostPortTrained => true
  | .bootStageFail => true
  | .leaseRenewRequest gh => ghOk gh
  | .leaseRequest gh => ghOk gh
  | .leaseRelease => true
  | .leaseTermExpiry => true
  | .holderRenewalLapse => true
  | .lodgeKeepalive => true
  | .keepaliveMissed die => decide (die < 41)
  | .arbiterFault => true
  | .gatehouseFailstop gh => ghOk gh
  | .commandWrite gh epoch addr _ => ghOk gh && decide (epoch < 2 ^ 32) && regOk addr
  | .commandMaskedWrite gh epoch addr _ _ => ghOk gh && decide (epoch < 2 ^ 32) && regOk addr
  | .commandCopy gh epoch src dst len => ghOk gh && decide (epoch < 2 ^ 32) && hbmOk src && regOk dst && decide (8 ≤ len) && decide (len ≤ 4096) && len % 8 == 0
  | .staleCommand gh => ghOk gh
  | .dresetGo die => dieOk die
  | .dieReset die => dieOk die
  | .tctlStart t => tileOk t
  | .tctlHold t _ => tileOk t
  | .tctlFence t => tileOk t
  | .tctlReset t => tileOk t
  | .nsclrSlot t _ => tileOk t
  | .nsclrCone t => tileOk t
  | .rsctlArm die => dieOk die
  | .dleaseHeldClear die => decide (die < 41)
  | .conetagWrite t _ => tileOk t
  | .twcopyEnWrite stack _ => stackOk stack
  | .cxepochAliasWrite ld v => decide (ld < 32) && decide (v < 2 ^ 32)
  | .cxcfgEnWrite ld _ => decide (ld < 32)
  | .registerWrite addr _ => regOk addr
  | .powerGoodVincFall g => decide (g < 8)
  | .powerGoodVinxFall => true
  | .pgVhbmFall => true
  | .powerGoodTimeout => true
  | .functionStartingEnd fn => fnOk fn
  | .functionStoppingEnd fn => fnOk fn
  | .functionStartFail fn => fnOk fn
  | .damperPeriod die => dieOk die
  | .packageDamperPeriod => true
  | .packagePowerSample _ => true
  | .tileLend t => tileOk t
  | .thermalRead temps => decide (temps.length ≤ 43)
  | .thermalHold die => dieOk die
  | .imageCopyLoad => true
  | .claim pk _ => pk.ok
  | .power pk _ target => pk.ok && decide (1 ≤ target) && decide (target ≤ 3)
  | .imageLoad pk _ addr _ => pk.ok && hbmOk addr
  | .start pk _ => pk.ok
  | .hold pk _ => pk.ok
  | .resume pk _ => pk.ok
  | .stateReadRegisters pk _ addr count => pk.ok && regOk addr && decide (1 ≤ count) && decide (count ≤ 512)
  | .stateReadLodgeStatus pk _ => pk.ok
  | .logRead pk _ part _ count => pk.ok && decide (part < 2) && decide (1 ≤ count) && decide (count ≤ 256)
  | .logClear pk _ auth => pk.ok && auth.length == 1896
  | .fwUpdate pk _ addr _ => pk.ok && hbmOk addr
  | .attest pk _ nonce => pk.ok && nonce.length == 32
  | .aliasTable pk _ addr first count => pk.ok && hbmOk addr && decide (first < 2 ^ 16) && decide (count ≤ 2 ^ 16)
  | .aliasOwnNumbers pk _ dev station => pk.ok && decide (dev < 2 ^ 16) && decide (station < 2 ^ 16)
  | .aliasPair pk _ partner spare0 spare1 _ _ cert => pk.ok && decide (partner < 2 ^ 16) && decide (spare0 < 2 ^ 16) && decide (spare1 < 2 ^ 16) && cert.length == 2080
  | .dataReady pk _ st => pk.ok && decide (st < 2 ^ 32)
  | .predEn pk _ slot _ => pk.ok && decide (slot < 16)
  | .checkpoint pk _ => pk.ok
  | .reshard pk _ addr _ layout => pk.ok && hbmOk addr && decide (layout < 2 ^ 16)
  | .streamOpen pk _ dir addr _ => pk.ok && decide (dir < 2) && hbmOk addr
  | .streamClose pk _ n => pk.ok && decide (n < 16)
  | .takeoverCommand pk _ dev => pk.ok && decide (dev < 2 ^ 16)
  | .configRead pk _ => pk.ok
  | .configSetPtpDomain pk _ dom => pk.ok && decide (dom < 256)
  | .close pk _ => pk.ok
  | .hello _ body => decide (body.length ≤ 6233)
  | .finish _ body => body.length == 96
  | .handshakeTimeout _ => true
  | .chpHeartbeat pk => pk.ok
  | .sessionTimeout _ => true
  | .bulkData pk stream _ data => pk.ok && decide (stream < 16) && decide (0 < data.length) && decide (data.length ≤ 4096)
  | .bulkCredit pk stream _ _ => pk.ok && decide (stream < 16)
  | .ptpMessage _ domain _ => decide (domain < 256)
  | .ptpMasterTimeout => true
  | .logSubmission => true
  | .logWindowExpiry code => decide (code < 2 ^ 16)
  | .attestTokenRefill => true
  | .selfTestFail _ => true
  | .pmbusPoll dev status _ _ => pmbOk dev && decide (status < 2 ^ 16)
  | .pmbAlert dev status => pmbOk dev && decide (status < 2 ^ 16)
  | .pmbusRetry dev _ => pmbOk dev
  | .crystalTimeout => true
  | .extest _ => true
  | .idcode => true
  | .samplePreload _ => true
  | .clamp => true
  | .highz => true
  | .extestPulse _ => true
  | .extestTrain _ => true
  | .alertcause => true
  | .bypass => true
  | .vaonLost => true
  | .powerGoodRise inp => decide (inp < 10)
  | .refclkAonArrival => true
  | .ucieTrainingComplete die link => linkOk die link
  | .directModeLinkReplay port _ => portOk port
  | .priorityFlowControlFrame port prio _ => portOk port && decide (prio < 8)
  | .twinBlockRequest stack addr st => stackOk stack && hbmOk addr && decide (st < 2 ^ 32)
  | .spareChosen dev twin => decide (dev < 2 ^ 16) && decide (twin < 2 ^ 16)
  | .coneComplete t => tileOk t

end Sys2Proof
end

