-- ==== Sys2Proof/Laws/PerInstr.lean ====
section
/-!
SUPPORT. Lemmas for all commands, one for each constructor of `Instr`. Family `TileNumbered`: a well-formed command that names a tile names one of the 2,048 logical
tiles (R18).
-/

namespace Sys2Proof

/-- The tile that a command is for, if it is for one. -/
def Instr.tileNum : Instr → Option Nat
  | .sequencerFetch t _ => some t
  | .engineDispatch t _ _ => some t
  | .nop t _ => some t
  | .salu t _ => some t
  | .salui t _ => some t
  | .smul t _ => some t
  | .sld t _ => some t
  | .sst t _ => some t
  | .aop t _ => some t
  | .scmp t _ => some t
  | .br t _ => some t
  | .brr t _ => some t
  | .loop t _ => some t
  | .csig t _ => some t
  | .cwait t _ => some t
  | .crd t _ => some t
  | .barr t _ => some t
  | .bwait t _ => some t
  | .send t _ => some t
  | .sendInject t => some t
  | .recv t _ => some t
  | .recvUnblock t => some t
  | .tryrecv t _ => some t
  | .qrel t _ => some t
  | .bopen t _ => some t
  | .wopen t _ => some t
  | .wclose t _ => some t
  | .ctx t _ => some t
  | .fence t _ => some t
  | .soak t _ => some t
  | .trap t _ => some t
  | .halt t _ => some t
  | .dmal t _ => some t
  | .dmas t _ => some t
  | .dmar t _ => some t
  | .dmaw t _ => some t
  | .dmax t _ => some t
  | .dmaxEntry t => some t
  | .dmaf t _ => some t
  | .dmam t _ => some t
  | .dmaComplete t _ => some t
  | .vld t _ => some t
  | .vst t _ => some t
  | .vldx t _ => some t
  | .vstx t _ => some t
  | .vop t _ => some t
  | .vcmp t _ => some t
  | .vred t _ => some t
  | .vcvt t _ => some t
  | .vmovx t _ => some t
  | .amax t _ => some t
  | .cone t _ => some t
  | .mgang t _ => some t
  | .mpanel t _ => some t
  | .mpanelLoaded t => some t
  | .mmul t _ => some t
  | .mmulComplete t _ => some t
  | .mpred t _ => some t
  | .mpredFinalMark t _ => some t
  | .mdrain t _ => some t
  | .mdrainComplete t => some t
  | .gateDeadlineExpiry t => some t
  | .batchComplete t => some t
  | .ssort t _ => some t
  | .smerge t _ => some t
  | .sinter t _ => some t
  | .shash t _ => some t
  | .sgather t _ => some t
  | .sscatter t _ => some t
  | .setOpComplete t => some t
  | .engineCheckFail t _ => some t
  | .wakeComplete t => some t
  | .soakHoldEnd t => some t
  | .rampDownStep t => some t
  | .rampDownEnd t => some t
  | .rampUpStep t => some t
  | .governorGrant t => some t
  | .watchdogExpiry t => some t
  | .holdTakesEffect t => some t
  | .stalledSignalApply t => some t
  | .stalledSignalFault t => some t
  | .gatherBufferIdleDrain t => some t
  | .remoteWritePacket t _ => some t
  | .heldPacketRecheck t => some t
  | .wicketCloseComplete t => some t
  | .remoteReadRequest t _ _ => some t
  | .mergeWindowExpiry t _ => some t
  | .remoteReadResponse t _ _ _ => some t
  | .transferAnswer t _ _ => some t
  | .bankGroupPowered t _ => some t
  | .bankGroupZeroFillEnd t _ => some t
  | .taskEnd t _ => some t
  | .descriptorArrival t _ => some t
  | .creditReturnTimer t _ => some t
  | .creditReturn t _ _ _ => some t
  | .basinContribution t _ => some t
  | .basinZeroComplete t _ _ => some t
  | .basinBucketComplete t _ _ => some t
  | .barrierArrivalSend t => some t
  | .dieBarrierArrival _ _ _ => none
  | .packageBarrierArrival _ _ _ => none
  | .barrierRelease t _ _ _ => some t
  | .packetHop _ _ _ _ => none
  | .cplFrameReceive _ _ _ => none
  | .cplNak _ _ _ => none
  | .cplAckTimeout _ _ => none
  | .cplControlTimer _ _ => none
  | .ucieRetrain _ _ => none
  | .ucieRetrainTimeout _ _ => none
  | .linkTrainingTimeout _ _ => none
  | .capabilityRecord _ _ _ => none
  | .capabilityTimeout _ _ => none
  | .dieLinkDown _ _ => none
  | .routerFault _ _ _ => none
  | .routeSetSwitch _ => none
  | .hbmReadRequest _ _ => none
  | .hbmWriteRequest _ => none
  | .twinBlockReturn _ _ _ => none
  | .pageRetirementComplete _ => none
  | .protectedPageStaged _ => none
  | .stackTemperaturePoll _ _ => none
  | .stackLost _ => none
  | .stackZeroFillComplete _ => none
  | .uugateWrite _ _ => none
  | .uuCommitEnd _ => none
  | .uuStop _ => none
  | .cxtWrite _ => none
  | .cxtJwrite _ => none
  | .cxtSend _ => none
  | .cxtRead _ => none
  | .cxtRdata _ => none
  | .cxtBarrier _ => none
  | .cxtAck _ => none
  | .cxtGrant _ => none
  | .cxtHeartbeat _ => none
  | .aliasUpdate _ => none
  | .queueEpochNotice _ => none
  | .portNotice _ => none
  | .failureNotice _ => none
  | .replacedNotice _ => none
  | .abort _ => none
  | .abortReport _ => none
  | .releaseRecord _ => none
  | .layoutEpoch _ => none
  | .ctrlCreditReturn _ => none
  | .deviceCertificate _ => none
  | .cxtRetransmitTimeout _ _ _ => none
  | .portLinkDown _ => none
  | .portRetrain _ _ => none
  | .normGroupComplete _ => none
  | .reshardApply => none
  | .heartbeatPeriod => none
  | .probeTimeout => none
  | .copierPageSend _ => none
  | .generationComplete _ => none
  | .tileHoldTimeout t => some t
  | .spareAnswerTimeout => none
  | .statePullComplete _ => none
  | .journalReplay => none
  | .restart => none
  | .hostLost => none
  | .vaonInRange => none
  | .porstNRelease _ _ => none
  | .porstNAssert => none
  | .lodgeFirmwareVerify => none
  | .pvXPowerOn => none
  | .gatehouseBoot => none
  | .hdPowerUp => none
  | .hostPortTrained => none
  | .bootStageFail => none
  | .leaseRenewRequest _ => none
  | .leaseRequest _ => none
  | .leaseRelease => none
  | .leaseTermExpiry => none
  | .holderRenewalLapse => none
  | .lodgeKeepalive => none
  | .keepaliveMissed _ => none
  | .arbiterFault => none
  | .gatehouseFailstop _ => none
  | .commandWrite _ _ _ _ => none
  | .commandMaskedWrite _ _ _ _ _ => none
  | .commandCopy _ _ _ _ _ => none
  | .staleCommand _ => none
  | .dresetGo _ => none
  | .dieReset _ => none
  | .tctlStart t => some t
  | .tctlHold t _ => some t
  | .tctlFence t => some t
  | .tctlReset t => some t
  | .nsclrSlot t _ => some t
  | .nsclrCone t => some t
  | .rsctlArm _ => none
  | .dleaseHeldClear _ => none
  | .conetagWrite t _ => some t
  | .twcopyEnWrite _ _ => none
  | .cxepochAliasWrite _ _ => none
  | .cxcfgEnWrite _ _ => none
  | .registerWrite _ _ => none
  | .powerGoodVincFall _ => none
  | .powerGoodVinxFall => none
  | .pgVhbmFall => none
  | .powerGoodTimeout => none
  | .functionStartingEnd _ => none
  | .functionStoppingEnd _ => none
  | .functionStartFail _ => none
  | .damperPeriod _ => none
  | .packageDamperPeriod => none
  | .packagePowerSample _ => none
  | .tileLend t => some t
  | .thermalRead _ => none
  | .thermalHold _ => none
  | .imageCopyLoad => none
  | .claim _ _ => none
  | .power _ _ _ => none
  | .imageLoad _ _ _ _ => none
  | .start _ _ => none
  | .hold _ _ => none
  | .resume _ _ => none
  | .stateReadRegisters _ _ _ _ => none
  | .stateReadLodgeStatus _ _ => none
  | .logRead _ _ _ _ _ => none
  | .logClear _ _ _ => none
  | .fwUpdate _ _ _ _ => none
  | .attest _ _ _ => none
  | .aliasTable _ _ _ _ _ => none
  | .aliasOwnNumbers _ _ _ _ => none
  | .aliasPair _ _ _ _ _ _ _ _ => none
  | .dataReady _ _ _ => none
  | .predEn _ _ _ _ => none
  | .checkpoint _ _ => none
  | .reshard _ _ _ _ _ => none
  | .streamOpen _ _ _ _ _ => none
  | .streamClose _ _ _ => none
  | .takeoverCommand _ _ _ => none
  | .configRead _ _ => none
  | .configSetPtpDomain _ _ _ => none
  | .close _ _ => none
  | .hello _ _ => none
  | .finish _ _ => none
  | .handshakeTimeout _ => none
  | .chpHeartbeat _ => none
  | .sessionTimeout _ => none
  | .bulkData _ _ _ _ => none
  | .bulkCredit _ _ _ _ => none
  | .ptpMessage _ _ _ => none
  | .ptpMasterTimeout => none
  | .logSubmission => none
  | .logWindowExpiry _ => none
  | .attestTokenRefill => none
  | .selfTestFail _ => none
  | .pmbusPoll _ _ _ _ => none
  | .pmbAlert _ _ => none
  | .pmbusRetry _ _ => none
  | .crystalTimeout => none
  | .extest _ => none
  | .idcode => none
  | .samplePreload _ => none
  | .clamp => none
  | .highz => none
  | .extestPulse _ => none
  | .extestTrain _ => none
  | .alertcause => none
  | .bypass => none
  | .vaonLost => none
  | .powerGoodRise _ => none
  | .refclkAonArrival => none
  | .ucieTrainingComplete _ _ => none
  | .directModeLinkReplay _ _ => none
  | .priorityFlowControlFrame _ _ _ => none
  | .twinBlockRequest _ _ _ => none
  | .spareChosen _ _ => none
  | .coneComplete t => some t

namespace Laws.TileNumbered

/-- A well-formed command for a tile names a tile of the part. -/
def Statement (i : Instr) : Prop := i.wellFormed = true → ∀ t, i.tileNum = some t → t < 2048

theorem of_tileOk {i : Instr} {t : Nat} (h : i.tileNum = some t) (w : i.wellFormed = true → tileOk t = true) : Statement i := fun hw k e => by
  rw [h] at e
  cases e
  simpa [tileOk] using w hw

theorem left {a b : Bool} (h : (a && b) = true) : a = true := by cases a <;> simp_all

theorem of_none {i : Instr} (h : i.tileNum = none) : Statement i := fun _ k e => by simp [h] at e

theorem sequencerFetch (t : Nat) (par : Parity) : Statement (.sequencerFetch t par) := of_tileOk rfl fun h => left (h)
theorem engineDispatch (t : Nat) (e : Engine) (par : Parity) : Statement (.engineDispatch t e par) := of_tileOk rfl fun h => left (h)
theorem nop (t : Nat) (f : FmtC) : Statement (.nop t f) := of_tileOk rfl fun h => h
theorem salu (t : Nat) (f : FmtS3) : Statement (.salu t f) := of_tileOk rfl fun h => h
theorem salui (t : Nat) (f : FmtSI) : Statement (.salui t f) := of_tileOk rfl fun h => h
theorem smul (t : Nat) (f : FmtS3) : Statement (.smul t f) := of_tileOk rfl fun h => h
theorem sld (t : Nat) (f : FmtSI) : Statement (.sld t f) := of_tileOk rfl fun h => h
theorem sst (t : Nat) (f : FmtSI) : Statement (.sst t f) := of_tileOk rfl fun h => h
theorem aop (t : Nat) (f : FmtSI) : Statement (.aop t f) := of_tileOk rfl fun h => h
theorem scmp (t : Nat) (f : FmtS3) : Statement (.scmp t f) := of_tileOk rfl fun h => h
theorem br (t : Nat) (f : FmtSI) : Statement (.br t f) := of_tileOk rfl fun h => h
theorem brr (t : Nat) (f : FmtS3) : Statement (.brr t f) := of_tileOk rfl fun h => h
theorem loop (t : Nat) (f : FmtSI) : Statement (.loop t f) := of_tileOk rfl fun h => h
theorem csig (t : Nat) (f : FmtC) : Statement (.csig t f) := of_tileOk rfl fun h => h
theorem cwait (t : Nat) (f : FmtC) : Statement (.cwait t f) := of_tileOk rfl fun h => h
theorem crd (t : Nat) (f : FmtC) : Statement (.crd t f) := of_tileOk rfl fun h => h
theorem barr (t : Nat) (f : FmtC) : Statement (.barr t f) := of_tileOk rfl fun h => h
theorem bwait (t : Nat) (f : FmtC) : Statement (.bwait t f) := of_tileOk rfl fun h => h
theorem send (t : Nat) (f : FmtD) : Statement (.send t f) := of_tileOk rfl fun h => h
theorem sendInject (t : Nat) : Statement (.sendInject t) := of_tileOk rfl fun h => h
theorem recv (t : Nat) (f : FmtD) : Statement (.recv t f) := of_tileOk rfl fun h => left (h)
theorem recvUnblock (t : Nat) : Statement (.recvUnblock t) := of_tileOk rfl fun h => h
theorem tryrecv (t : Nat) (f : FmtD) : Statement (.tryrecv t f) := of_tileOk rfl fun h => left (h)
theorem qrel (t : Nat) (f : FmtD) : Statement (.qrel t f) := of_tileOk rfl fun h => h
theorem bopen (t : Nat) (f : FmtD) : Statement (.bopen t f) := of_tileOk rfl fun h => h
theorem wopen (t : Nat) (f : FmtD) : Statement (.wopen t f) := of_tileOk rfl fun h => left (h)
theorem wclose (t : Nat) (f : FmtD) : Statement (.wclose t f) := of_tileOk rfl fun h => left (h)
theorem ctx (t : Nat) (f : FmtC) : Statement (.ctx t f) := of_tileOk rfl fun h => h
theorem fence (t : Nat) (f : FmtC) : Statement (.fence t f) := of_tileOk rfl fun h => h
theorem soak (t : Nat) (f : FmtC) : Statement (.soak t f) := of_tileOk rfl fun h => h
theorem trap (t : Nat) (f : FmtC) : Statement (.trap t f) := of_tileOk rfl fun h => h
theorem halt (t : Nat) (f : FmtC) : Statement (.halt t f) := of_tileOk rfl fun h => h
theorem dmal (t : Nat) (f : FmtD) : Statement (.dmal t f) := of_tileOk rfl fun h => h
theorem dmas (t : Nat) (f : FmtD) : Statement (.dmas t f) := of_tileOk rfl fun h => h
theorem dmar (t : Nat) (f : FmtD) : Statement (.dmar t f) := of_tileOk rfl fun h => h
theorem dmaw (t : Nat) (f : FmtD) : Statement (.dmaw t f) := of_tileOk rfl fun h => h
theorem dmax (t : Nat) (f : FmtD) : Statement (.dmax t f) := of_tileOk rfl fun h => h
theorem dmaxEntry (t : Nat) : Statement (.dmaxEntry t) := of_tileOk rfl fun h => h
theorem dmaf (t : Nat) (f : FmtD) : Statement (.dmaf t f) := of_tileOk rfl fun h => h
theorem dmam (t : Nat) (f : FmtD) : Statement (.dmam t f) := of_tileOk rfl fun h => h
theorem dmaComplete (t : Nat) (id : Nat) : Statement (.dmaComplete t id) := of_tileOk rfl fun h => h
theorem vld (t : Nat) (f : FmtSI) : Statement (.vld t f) := of_tileOk rfl fun h => h
theorem vst (t : Nat) (f : FmtSI) : Statement (.vst t f) := of_tileOk rfl fun h => h
theorem vldx (t : Nat) (f : FmtS3) : Statement (.vldx t f) := of_tileOk rfl fun h => h
theorem vstx (t : Nat) (f : FmtS3) : Statement (.vstx t f) := of_tileOk rfl fun h => h
theorem vop (t : Nat) (f : FmtS3) : Statement (.vop t f) := of_tileOk rfl fun h => h
theorem vcmp (t : Nat) (f : FmtS3) : Statement (.vcmp t f) := of_tileOk rfl fun h => h
theorem vred (t : Nat) (f : FmtS3) : Statement (.vred t f) := of_tileOk rfl fun h => h
theorem vcvt (t : Nat) (f : FmtS3) : Statement (.vcvt t f) := of_tileOk rfl fun h => h
theorem vmovx (t : Nat) (f : FmtSI) : Statement (.vmovx t f) := of_tileOk rfl fun h => h
theorem amax (t : Nat) (f : FmtM) : Statement (.amax t f) := of_tileOk rfl fun h => h
theorem cone (t : Nat) (f : FmtM) : Statement (.cone t f) := of_tileOk rfl fun h => h
theorem mgang (t : Nat) (f : FmtSI) : Statement (.mgang t f) := of_tileOk rfl fun h => h
theorem mpanel (t : Nat) (f : FmtM) : Statement (.mpanel t f) := of_tileOk rfl fun h => h
theorem mpanelLoaded (t : Nat) : Statement (.mpanelLoaded t) := of_tileOk rfl fun h => h
theorem mmul (t : Nat) (f : FmtM) : Statement (.mmul t f) := of_tileOk rfl fun h => h
theorem mmulComplete (t : Nat) (sub : Nat) : Statement (.mmulComplete t sub) := of_tileOk rfl fun h => left (h)
theorem mpred (t : Nat) (f : FmtM) : Statement (.mpred t f) := of_tileOk rfl fun h => h
theorem mpredFinalMark (t : Nat) (sub : Nat) : Statement (.mpredFinalMark t sub) := of_tileOk rfl fun h => left (h)
theorem mdrain (t : Nat) (f : FmtM) : Statement (.mdrain t f) := of_tileOk rfl fun h => h
theorem mdrainComplete (t : Nat) : Statement (.mdrainComplete t) := of_tileOk rfl fun h => h
theorem gateDeadlineExpiry (t : Nat) : Statement (.gateDeadlineExpiry t) := of_tileOk rfl fun h => h
theorem batchComplete (t : Nat) : Statement (.batchComplete t) := of_tileOk rfl fun h => h
theorem ssort (t : Nat) (f : FmtM) : Statement (.ssort t f) := of_tileOk rfl fun h => h
theorem smerge (t : Nat) (f : FmtM) : Statement (.smerge t f) := of_tileOk rfl fun h => h
theorem sinter (t : Nat) (f : FmtM) : Statement (.sinter t f) := of_tileOk rfl fun h => h
theorem shash (t : Nat) (f : FmtM) : Statement (.shash t f) := of_tileOk rfl fun h => h
theorem sgather (t : Nat) (f : FmtM) : Statement (.sgather t f) := of_tileOk rfl fun h => h
theorem sscatter (t : Nat) (f : FmtM) : Statement (.sscatter t f) := of_tileOk rfl fun h => h
theorem setOpComplete (t : Nat) : Statement (.setOpComplete t) := of_tileOk rfl fun h => h
theorem engineCheckFail (t : Nat) (e : Engine) : Statement (.engineCheckFail t e) := of_tileOk rfl fun h => h
theorem wakeComplete (t : Nat) : Statement (.wakeComplete t) := of_tileOk rfl fun h => h
theorem soakHoldEnd (t : Nat) : Statement (.soakHoldEnd t) := of_tileOk rfl fun h => h
theorem rampDownStep (t : Nat) : Statement (.rampDownStep t) := of_tileOk rfl fun h => h
theorem rampDownEnd (t : Nat) : Statement (.rampDownEnd t) := of_tileOk rfl fun h => h
theorem rampUpStep (t : Nat) : Statement (.rampUpStep t) := of_tileOk rfl fun h => h
theorem governorGrant (t : Nat) : Statement (.governorGrant t) := of_tileOk rfl fun h => h
theorem watchdogExpiry (t : Nat) : Statement (.watchdogExpiry t) := of_tileOk rfl fun h => h
theorem holdTakesEffect (t : Nat) : Statement (.holdTakesEffect t) := of_tileOk rfl fun h => h
theorem stalledSignalApply (t : Nat) : Statement (.stalledSignalApply t) := of_tileOk rfl fun h => h
theorem stalledSignalFault (t : Nat) : Statement (.stalledSignalFault t) := of_tileOk rfl fun h => h
theorem gatherBufferIdleDrain (t : Nat) : Statement (.gatherBufferIdleDrain t) := of_tileOk rfl fun h => h
theorem remoteWritePacket (t : Nat) (pkt : WritePkt) : Statement (.remoteWritePacket t pkt) := of_tileOk rfl fun h => left (h)
theorem heldPacketRecheck (t : Nat) : Statement (.heldPacketRecheck t) := of_tileOk rfl fun h => h
theorem wicketCloseComplete (t : Nat) : Statement (.wicketCloseComplete t) := of_tileOk rfl fun h => h
theorem remoteReadRequest (t : Nat) (rq : ReadReq) (par : Parity) : Statement (.remoteReadRequest t rq par) := of_tileOk rfl fun h => left (left (h))
theorem mergeWindowExpiry (t : Nat) (row : Nat) : Statement (.mergeWindowExpiry t row) := of_tileOk rfl fun h => left (h)
theorem remoteReadResponse (t : Nat) (tag : Nat) (status : Nat) (data : List Byte) : Statement (.remoteReadResponse t tag status data) := of_tileOk rfl fun h => left (left (h))
theorem transferAnswer (t : Nat) (tag : Nat) (status : Nat) : Statement (.transferAnswer t tag status) := of_tileOk rfl fun h => left (h)
theorem bankGroupPowered (t : Nat) (g : Nat) : Statement (.bankGroupPowered t g) := of_tileOk rfl fun h => left (h)
theorem bankGroupZeroFillEnd (t : Nat) (g : Nat) : Statement (.bankGroupZeroFillEnd t g) := of_tileOk rfl fun h => left (h)
theorem taskEnd (t : Nat) (c : Nat) : Statement (.taskEnd t c) := of_tileOk rfl fun h => left (h)
theorem descriptorArrival (t : Nat) (m : Msg) : Statement (.descriptorArrival t m) := of_tileOk rfl fun h => left (h)
theorem creditReturnTimer (t : Nat) (q : Nat) : Statement (.creditReturnTimer t q) := of_tileOk rfl fun h => left (h)
theorem creditReturn (t : Nat) (ch : Nat) (slots : Nat) (units : Nat) : Statement (.creditReturn t ch slots units) := of_tileOk rfl fun h => left (left (left (h)))
theorem basinContribution (t : Nat) (m : Msg) : Statement (.basinContribution t m) := of_tileOk rfl fun h => left (h)
theorem basinZeroComplete (t : Nat) (q : Nat) (b : Nat) : Statement (.basinZeroComplete t q b) := of_tileOk rfl fun h => left (left (h))
theorem basinBucketComplete (t : Nat) (q : Nat) (b : Nat) : Statement (.basinBucketComplete t q b) := of_tileOk rfl fun h => left (left (h))
theorem barrierArrivalSend (t : Nat) : Statement (.barrierArrivalSend t) := of_tileOk rfl fun h => h
theorem dieBarrierArrival (die : Nat) (g : Nat) (gen : Nat) : Statement (.dieBarrierArrival die g gen) := of_none rfl
theorem packageBarrierArrival (die : Nat) (g : Nat) (gen : Nat) : Statement (.packageBarrierArrival die g gen) := of_none rfl
theorem barrierRelease (t : Nat) (c : Nat) (g : Nat) (gen : Nat) : Statement (.barrierRelease t c g gen) := of_tileOk rfl fun h => left (left (left (h)))
theorem packetHop (die : Nat) (row : Nat) (col : Nat) (pkt : Packet) : Statement (.packetHop die row col pkt) := of_none rfl
theorem cplFrameReceive (die : Nat) (link : Nat) (fr : CplFrame) : Statement (.cplFrameReceive die link fr) := of_none rfl
theorem cplNak (die : Nat) (link : Nat) (ack : Nat) : Statement (.cplNak die link ack) := of_none rfl
theorem cplAckTimeout (die : Nat) (link : Nat) : Statement (.cplAckTimeout die link) := of_none rfl
theorem cplControlTimer (die : Nat) (link : Nat) : Statement (.cplControlTimer die link) := of_none rfl
theorem ucieRetrain (die : Nat) (link : Nat) : Statement (.ucieRetrain die link) := of_none rfl
theorem ucieRetrainTimeout (die : Nat) (link : Nat) : Statement (.ucieRetrainTimeout die link) := of_none rfl
theorem linkTrainingTimeout (die : Nat) (link : Nat) : Statement (.linkTrainingTimeout die link) := of_none rfl
theorem capabilityRecord (die : Nat) (link : Nat) (rec : List Byte) : Statement (.capabilityRecord die link rec) := of_none rfl
theorem capabilityTimeout (die : Nat) (link : Nat) : Statement (.capabilityTimeout die link) := of_none rfl
theorem dieLinkDown (die : Nat) (link : Nat) : Statement (.dieLinkDown die link) := of_none rfl
theorem routerFault (die : Nat) (row : Nat) (col : Nat) : Statement (.routerFault die row col) := of_none rfl
theorem routeSetSwitch (die : Nat) : Statement (.routeSetSwitch die) := of_none rfl
theorem hbmReadRequest (q : HbmReq) (oc : ReadOutcome) : Statement (.hbmReadRequest q oc) := of_none rfl
theorem hbmWriteRequest (q : HbmReq) : Statement (.hbmWriteRequest q) := of_none rfl
theorem twinBlockReturn (stack : Nat) (addr : Nat) (data : Option (List Byte)) : Statement (.twinBlockReturn stack addr data) := of_none rfl
theorem pageRetirementComplete (stack : Nat) : Statement (.pageRetirementComplete stack) := of_none rfl
theorem protectedPageStaged (stack : Nat) : Statement (.protectedPageStaged stack) := of_none rfl
theorem stackTemperaturePoll (stack : Nat) (temp : Nat) : Statement (.stackTemperaturePoll stack temp) := of_none rfl
theorem stackLost (stack : Nat) : Statement (.stackLost stack) := of_none rfl
theorem stackZeroFillComplete (stack : Nat) : Statement (.stackZeroFillComplete stack) := of_none rfl
theorem uugateWrite (stack : Nat) (v : Word) : Statement (.uugateWrite stack v) := of_none rfl
theorem uuCommitEnd (stack : Nat) : Statement (.uuCommitEnd stack) := of_none rfl
theorem uuStop (stack : Nat) : Statement (.uuStop stack) := of_none rfl
theorem cxtWrite (p : CxtPkt) : Statement (.cxtWrite p) := of_none rfl
theorem cxtJwrite (p : CxtPkt) : Statement (.cxtJwrite p) := of_none rfl
theorem cxtSend (p : CxtPkt) : Statement (.cxtSend p) := of_none rfl
theorem cxtRead (p : CxtPkt) : Statement (.cxtRead p) := of_none rfl
theorem cxtRdata (p : CxtPkt) : Statement (.cxtRdata p) := of_none rfl
theorem cxtBarrier (p : CxtPkt) : Statement (.cxtBarrier p) := of_none rfl
theorem cxtAck (p : CxtPkt) : Statement (.cxtAck p) := of_none rfl
theorem cxtGrant (p : CxtPkt) : Statement (.cxtGrant p) := of_none rfl
theorem cxtHeartbeat (p : CxtPkt) : Statement (.cxtHeartbeat p) := of_none rfl
theorem aliasUpdate (p : CxtPkt) : Statement (.aliasUpdate p) := of_none rfl
theorem queueEpochNotice (p : CxtPkt) : Statement (.queueEpochNotice p) := of_none rfl
theorem portNotice (p : CxtPkt) : Statement (.portNotice p) := of_none rfl
theorem failureNotice (p : CxtPkt) : Statement (.failureNotice p) := of_none rfl
theorem replacedNotice (p : CxtPkt) : Statement (.replacedNotice p) := of_none rfl
theorem abort (p : CxtPkt) : Statement (.abort p) := of_none rfl
theorem abortReport (p : CxtPkt) : Statement (.abortReport p) := of_none rfl
theorem releaseRecord (p : CxtPkt) : Statement (.releaseRecord p) := of_none rfl
theorem layoutEpoch (p : CxtPkt) : Statement (.layoutEpoch p) := of_none rfl
theorem ctrlCreditReturn (p : CxtPkt) : Statement (.ctrlCreditReturn p) := of_none rfl
theorem deviceCertificate (p : CxtPkt) : Statement (.deviceCertificate p) := of_none rfl
theorem cxtRetransmitTimeout (port : Nat) (peer : Nat) (path : Nat) : Statement (.cxtRetransmitTimeout port peer path) := of_none rfl
theorem portLinkDown (port : Nat) : Statement (.portLinkDown port) := of_none rfl
theorem portRetrain (port : Nat) (ok : Bool) : Statement (.portRetrain port ok) := of_none rfl
theorem normGroupComplete (g : Nat) : Statement (.normGroupComplete g) := of_none rfl
theorem reshardApply : Statement .reshardApply := of_none rfl
theorem heartbeatPeriod : Statement .heartbeatPeriod := of_none rfl
theorem probeTimeout : Statement .probeTimeout := of_none rfl
theorem copierPageSend (stack : Nat) : Statement (.copierPageSend stack) := of_none rfl
theorem generationComplete (stack : Nat) : Statement (.generationComplete stack) := of_none rfl
theorem tileHoldTimeout (t : Nat) : Statement (.tileHoldTimeout t) := of_tileOk rfl fun h => h
theorem spareAnswerTimeout : Statement .spareAnswerTimeout := of_none rfl
theorem statePullComplete (ok : Bool) : Statement (.statePullComplete ok) := of_none rfl
theorem journalReplay : Statement .journalReplay := of_none rfl
theorem restart : Statement .restart := of_none rfl
theorem hostLost : Statement .hostLost := of_none rfl
theorem vaonInRange : Statement .vaonInRange := of_none rfl
theorem porstNRelease (trst refclk : Bool) : Statement (.porstNRelease trst refclk) := of_none rfl
theorem porstNAssert : Statement .porstNAssert := of_none rfl
theorem lodgeFirmwareVerify : Statement .lodgeFirmwareVerify := of_none rfl
theorem pvXPowerOn : Statement .pvXPowerOn := of_none rfl
theorem gatehouseBoot : Statement .gatehouseBoot := of_none rfl
theorem hdPowerUp : Statement .hdPowerUp := of_none rfl
theorem hostPortTrained : Statement .hostPortTrained := of_none rfl
theorem bootStageFail : Statement .bootStageFail := of_none rfl
theorem leaseRenewRequest (gh : Nat) : Statement (.leaseRenewRequest gh) := of_none rfl
theorem leaseRequest (gh : Nat) : Statement (.leaseRequest gh) := of_none rfl
theorem leaseRelease : Statement .leaseRelease := of_none rfl
theorem leaseTermExpiry : Statement .leaseTermExpiry := of_none rfl
theorem holderRenewalLapse : Statement .holderRenewalLapse := of_none rfl
theorem lodgeKeepalive : Statement .lodgeKeepalive := of_none rfl
theorem keepaliveMissed (die : Nat) : Statement (.keepaliveMissed die) := of_none rfl
theorem arbiterFault : Statement .arbiterFault := of_none rfl
theorem gatehouseFailstop (gh : Nat) : Statement (.gatehouseFailstop gh) := of_none rfl
theorem commandWrite (gh : Nat) (epoch : Nat) (addr : Nat) (value : Word) : Statement (.commandWrite gh epoch addr value) := of_none rfl
theorem commandMaskedWrite (gh : Nat) (epoch : Nat) (addr : Nat) (value mask : Word) : Statement (.commandMaskedWrite gh epoch addr value mask) := of_none rfl
theorem commandCopy (gh : Nat) (epoch : Nat) (src dst len : Nat) : Statement (.commandCopy gh epoch src dst len) := of_none rfl
theorem staleCommand (gh : Nat) : Statement (.staleCommand gh) := of_none rfl
theorem dresetGo (die : Nat) : Statement (.dresetGo die) := of_none rfl
theorem dieReset (die : Nat) : Statement (.dieReset die) := of_none rfl
theorem tctlStart (t : Nat) : Statement (.tctlStart t) := of_tileOk rfl fun h => h
theorem tctlHold (t : Nat) (on : Bool) : Statement (.tctlHold t on) := of_tileOk rfl fun h => h
theorem tctlFence (t : Nat) : Statement (.tctlFence t) := of_tileOk rfl fun h => h
theorem tctlReset (t : Nat) : Statement (.tctlReset t) := of_tileOk rfl fun h => h
theorem nsclrSlot (t : Nat) (mask : BitVec 32) : Statement (.nsclrSlot t mask) := of_tileOk rfl fun h => h
theorem nsclrCone (t : Nat) : Statement (.nsclrCone t) := of_tileOk rfl fun h => h
theorem rsctlArm (die : Nat) : Statement (.rsctlArm die) := of_none rfl
theorem dleaseHeldClear (die : Nat) : Statement (.dleaseHeldClear die) := of_none rfl
theorem conetagWrite (t : Nat) (v : Word) : Statement (.conetagWrite t v) := of_tileOk rfl fun h => h
theorem twcopyEnWrite (stack : Nat) (en : Bool) : Statement (.twcopyEnWrite stack en) := of_none rfl
theorem cxepochAliasWrite (ld : Nat) (v : Nat) : Statement (.cxepochAliasWrite ld v) := of_none rfl
theorem cxcfgEnWrite (ld : Nat) (v : Word) : Statement (.cxcfgEnWrite ld v) := of_none rfl
theorem registerWrite (addr : Nat) (v : Word) : Statement (.registerWrite addr v) := of_none rfl
theorem powerGoodVincFall (g : Nat) : Statement (.powerGoodVincFall g) := of_none rfl
theorem powerGoodVinxFall : Statement .powerGoodVinxFall := of_none rfl
theorem pgVhbmFall : Statement .pgVhbmFall := of_none rfl
theorem powerGoodTimeout : Statement .powerGoodTimeout := of_none rfl
theorem functionStartingEnd (fn : Nat) : Statement (.functionStartingEnd fn) := of_none rfl
theorem functionStoppingEnd (fn : Nat) : Statement (.functionStoppingEnd fn) := of_none rfl
theorem functionStartFail (fn : Nat) : Statement (.functionStartFail fn) := of_none rfl
theorem damperPeriod (die : Nat) : Statement (.damperPeriod die) := of_none rfl
theorem packageDamperPeriod : Statement .packageDamperPeriod := of_none rfl
theorem packagePowerSample (watts : Nat) : Statement (.packagePowerSample watts) := of_none rfl
theorem tileLend (t : Nat) : Statement (.tileLend t) := of_tileOk rfl fun h => h
theorem thermalRead (temps : List Nat) : Statement (.thermalRead temps) := of_none rfl
theorem thermalHold (die : Nat) : Statement (.thermalHold die) := of_none rfl
theorem imageCopyLoad : Statement .imageCopyLoad := of_none rfl
theorem claim (pk : ChpPkt) (tag : Nat) : Statement (.claim pk tag) := of_none rfl
theorem power (pk : ChpPkt) (tag : Nat) (target : Nat) : Statement (.power pk tag target) := of_none rfl
theorem imageLoad (pk : ChpPkt) (tag : Nat) (addr len : Nat) : Statement (.imageLoad pk tag addr len) := of_none rfl
theorem start (pk : ChpPkt) (tag : Nat) : Statement (.start pk tag) := of_none rfl
theorem hold (pk : ChpPkt) (tag : Nat) : Statement (.hold pk tag) := of_none rfl
theorem resume (pk : ChpPkt) (tag : Nat) : Statement (.resume pk tag) := of_none rfl
theorem stateReadRegisters (pk : ChpPkt) (tag : Nat) (addr count : Nat) : Statement (.stateReadRegisters pk tag addr count) := of_none rfl
theorem stateReadLodgeStatus (pk : ChpPkt) (tag : Nat) : Statement (.stateReadLodgeStatus pk tag) := of_none rfl
theorem logRead (pk : ChpPkt) (tag : Nat) (part from_ count : Nat) : Statement (.logRead pk tag part from_ count) := of_none rfl
theorem logClear (pk : ChpPkt) (tag : Nat) (auth : List Byte) : Statement (.logClear pk tag auth) := of_none rfl
theorem fwUpdate (pk : ChpPkt) (tag : Nat) (addr len : Nat) : Statement (.fwUpdate pk tag addr len) := of_none rfl
theorem attest (pk : ChpPkt) (tag : Nat) (nonce : List Byte) : Statement (.attest pk tag nonce) := of_none rfl
theorem aliasTable (pk : ChpPkt) (tag : Nat) (addr first count : Nat) : Statement (.aliasTable pk tag addr first count) := of_none rfl
theorem aliasOwnNumbers (pk : ChpPkt) (tag : Nat) (dev station : Nat) : Statement (.aliasOwnNumbers pk tag dev station) := of_none rfl
theorem aliasPair (pk : ChpPkt) (tag : Nat) (partner spare0 spare1 : Nat) (pairEn hbEn : Bool) (cert : List Byte) : Statement (.aliasPair pk tag partner spare0 spare1 pairEn hbEn cert) := of_none rfl
theorem dataReady (pk : ChpPkt) (tag : Nat) (st : Nat) : Statement (.dataReady pk tag st) := of_none rfl
theorem predEn (pk : ChpPkt) (tag : Nat) (slot : Nat) (en : Bool) : Statement (.predEn pk tag slot en) := of_none rfl
theorem checkpoint (pk : ChpPkt) (tag : Nat) : Statement (.checkpoint pk tag) := of_none rfl
theorem reshard (pk : ChpPkt) (tag : Nat) (addr len layout : Nat) : Statement (.reshard pk tag addr len layout) := of_none rfl
theorem streamOpen (pk : ChpPkt) (tag : Nat) (dir addr len : Nat) : Statement (.streamOpen pk tag dir addr len) := of_none rfl
theorem streamClose (pk : ChpPkt) (tag : Nat) (n : Nat) : Statement (.streamClose pk tag n) := of_none rfl
theorem takeoverCommand (pk : ChpPkt) (tag : Nat) (dev : Nat) : Statement (.takeoverCommand pk tag dev) := of_none rfl
theorem configRead (pk : ChpPkt) (tag : Nat) : Statement (.configRead pk tag) := of_none rfl
theorem configSetPtpDomain (pk : ChpPkt) (tag : Nat) (dom : Nat) : Statement (.configSetPtpDomain pk tag dom) := of_none rfl
theorem close (pk : ChpPkt) (tag : Nat) : Statement (.close pk tag) := of_none rfl
theorem hello (hs : Nat) (body : List Byte) : Statement (.hello hs body) := of_none rfl
theorem finish (hs : Nat) (body : List Byte) : Statement (.finish hs body) := of_none rfl
theorem handshakeTimeout (hs : Nat) : Statement (.handshakeTimeout hs) := of_none rfl
theorem chpHeartbeat (pk : ChpPkt) : Statement (.chpHeartbeat pk) := of_none rfl
theorem sessionTimeout (sid : Nat) : Statement (.sessionTimeout sid) := of_none rfl
theorem bulkData (pk : ChpPkt) (stream off : Nat) (data : List Byte) : Statement (.bulkData pk stream off data) := of_none rfl
theorem bulkCredit (pk : ChpPkt) (stream units contig : Nat) : Statement (.bulkCredit pk stream units contig) := of_none rfl
theorem ptpMessage (master domain : Nat) (offset : Int) : Statement (.ptpMessage master domain offset) := of_none rfl
theorem ptpMasterTimeout : Statement .ptpMasterTimeout := of_none rfl
theorem logSubmission : Statement .logSubmission := of_none rfl
theorem logWindowExpiry (code : Nat) : Statement (.logWindowExpiry code) := of_none rfl
theorem attestTokenRefill : Statement .attestTokenRefill := of_none rfl
theorem selfTestFail (test : Nat) : Statement (.selfTestFail test) := of_none rfl
theorem pmbusPoll (dev status pout : Nat) (ok : Bool) : Statement (.pmbusPoll dev status pout ok) := of_none rfl
theorem pmbAlert (dev status : Nat) : Statement (.pmbAlert dev status) := of_none rfl
theorem pmbusRetry (dev : Nat) (ok : Bool) : Statement (.pmbusRetry dev ok) := of_none rfl
theorem crystalTimeout : Statement .crystalTimeout := of_none rfl
theorem extest (v : Nat) : Statement (.extest v) := of_none rfl
theorem idcode : Statement .idcode := of_none rfl
theorem samplePreload (v : Nat) : Statement (.samplePreload v) := of_none rfl
theorem clamp : Statement .clamp := of_none rfl
theorem highz : Statement .highz := of_none rfl
theorem extestPulse (v : Nat) : Statement (.extestPulse v) := of_none rfl
theorem extestTrain (v : Nat) : Statement (.extestTrain v) := of_none rfl
theorem alertcause : Statement .alertcause := of_none rfl
theorem bypass : Statement .bypass := of_none rfl
theorem vaonLost : Statement .vaonLost := of_none rfl
theorem powerGoodRise (inp : Nat) : Statement (.powerGoodRise inp) := of_none rfl
theorem refclkAonArrival : Statement .refclkAonArrival := of_none rfl
theorem ucieTrainingComplete (die : Nat) (link : Nat) : Statement (.ucieTrainingComplete die link) := of_none rfl
theorem directModeLinkReplay (port : Nat) (progress : Bool) : Statement (.directModeLinkReplay port progress) := of_none rfl
theorem priorityFlowControlFrame (port prio : Nat) (pause : Bool) : Statement (.priorityFlowControlFrame port prio pause) := of_none rfl
theorem twinBlockRequest (stack addr st : Nat) : Statement (.twinBlockRequest stack addr st) := of_none rfl
theorem spareChosen (dev twin : Nat) : Statement (.spareChosen dev twin) := of_none rfl
theorem coneComplete (t : Nat) : Statement (.coneComplete t) := of_tileOk rfl fun h => h

end Laws.TileNumbered

end Sys2Proof
end

