-- ==== Sys2Proof/Tests/Slice0.lean ====
section
/-!
SUPPORT. Small tests: terms that the well-formedness check refuses, words written out from the manual's encodings, single steps with expected results from the manual, and for every statement
that has hypotheses a state and operands that meet them.
-/

namespace Sys2Proof.Tests
open Sys2Proof.Machine
-- one theorem at a time: each that waits for the kernel would hold a thread of its own
set_option Elab.async false

/-! ### States for tests -/

/-- A running tile whose eight bank groups are ON for context 0 and whose a[0] covers its scratchpad and a[1] its bank groups from 1 on, with registers and fields of its own. -/
def st (t : Nat) (rs : List (Fld × Nat)) (g : Tile → Tile) : State :=
  setA (setA ((([(R.TSTAT_STATE, running), (R.SPCFG_PGRP, 0xFF), (R.SPGSTATE_G, 0xAAAA)] ++ rs).foldl (fun s p => s.setTf t p.1 p.2)
    ({ bind := [(t, 1)] } : State)).modTile t g) t 0 0 (.ofNat 64 (0x8000 * 2 ^ 40 + spadAddr t 0))) t 0 1
    (.ofNat 64 (0x7000 * 2 ^ 40 + spadAddr t 0x4_0000))

/-- The same, with nothing of its own: an M-tile, a V-tile and an S-tile. -/
def stM : State := st 0 [] id
def stV : State := st 12 [] id
def stS : State := st 15 [] id

/-- The parts of `Quiet`, as a check. -/
def quietB (s : State) (t : Nat) : Bool :=
  canIssue s t && (progOffset s t (s.actx t) ((s.tile t).ctx (s.actx t)).idx).isSome && (s.tile t).queue.isEmpty && (s.tile t).flights.isEmpty &&
    (s.tile t).gate.isEmpty && (s.tile t).stalled.isEmpty && (s.tile t).outst.isEmpty

theorem quiet_of {s : State} {t : Nat} (h : quietB s t = true) : Quiet s t := by
  simp only [quietB, Bool.and_eq_true, List.isEmpty_iff] at h
  obtain ⟨⟨⟨⟨⟨⟨a, b⟩, c⟩, d⟩, e⟩, f⟩, g⟩ := h
  exact ⟨a, b, c, d, e, f, g⟩

theorem quiet_M : Quiet stM 0 := quiet_of (by decide)
theorem quiet_V : Quiet stV 12 := quiet_of (by decide)
theorem quiet_S : Quiet stS 15 := quiet_of (by decide)

/-- Instruction fields of zeros. -/
def s3 : FmtS3 := ⟨0, 0, 0, 0, 0, 0, 0, 0⟩
def si : FmtSI := ⟨0, 0, 0, 0, 0⟩
def fd : FmtD := ⟨0, 0, 0, 0, 0, 0, 0⟩

/-! ### Witnesses: the sequencer and the scalar engine -/

theorem wit_ScalarResults :
    (waitMet stM 0 0 = true ∧ lane0 stM 0 (stM.actx 0) 0 = true) ∧ (s3.z = 0 ∧ s3.func.toNat < 6 ∧ (s3.func = 0x0E → s3.ra = 0)) ∧
    aopLegal { si with func := 2 } = true := by decide

/-- A tile whose p1 is clear. -/
theorem wit_PredicateOff :
    waitMet stM 0 0 = true ∧ lane0 stM 0 (stM.actx 0) 1 = false ∧ aopLegal { si with func := 2, pred := 1 } = true ∧
    endsLoop ((stM.tile 0).ctx (stM.actx 0)).idx ((stM.tile 0).ctx (stM.actx 0)).loops = false := by decide

theorem wit_ScalarMemory :
    scalarAt stM 0 0 0 0 8 false = .ok (.mem 0) ∧ scalarAt stM 0 0 0 0x4_0000 4 true = .ok (.mem 0x4_0000) ∧
    (let s := setA stM 0 0 1 (.ofNat 64 (0x400 * 2 ^ 40 + regAddr .tile 0 0))
     scalarAt s 0 0 1 0 8 false = .ok (.reg 0) ∧ scalarAt s 0 0 1 0x3200 8 true = .ok (.reg 0x3200)) := by decide

theorem wit_SequencerIndex :
    let x := (stM.tile 0).ctx 0
    endsLoop x.idx x.loops = false ∧ brCond 0 (rs stM 0 0 0) = true ∧ brCond 2 (rs stM 0 0 0) = false ∧ si.imm.toNat < areaLen stM 0 0 ∧
    (rs stM 0 0 0).toNat < areaLen stM 0 0 ∧ x.idx < ({ si with imm := 5 } : FmtSI).imm.toNat ∧ x.loops.length < 4 ∧
    (rs stM 0 0 0).toNat % 2 ^ 32 = 0 ∧ (rs (setS stM 0 0 0 3) 0 0 0).toNat % 2 ^ 32 ≠ 0 := by decide

theorem quiet_loop : Quiet (setS stM 0 0 0 3) 0 := quiet_of (by decide)

/-- A tile at a boundary; one that waits for counter 0 to reach 1, or for a generation that is not complete. -/
theorem wit_HoldsTheSequencer :
    satisfied (cntVal stM 0 0 0) 0 = true ∧ satisfied (cntVal stM 0 0 0) 1 = false ∧
    (stM.tf 0 (R.TBAR_DONEGEN 0 0) + 256 - stM.tf 0 (R.TBAR_ARRGEN 0 0)) % 256 < 128 ∧
    ¬ ((st 0 [(R.TBAR_ARRGEN 0 0, 1)] id).tf 0 (R.TBAR_DONEGEN 0 0) + 256 - (st 0 [(R.TBAR_ARRGEN 0 0, 1)] id).tf 0 (R.TBAR_ARRGEN 0 0)) % 256 < 128 ∧
    (st 0 [(R.TSTAT_BOUNDARY, 1)] id).tf 0 R.TSTAT_BOUNDARY = 1 := by decide

theorem quiet_arrived : Quiet (st 0 [(R.TBAR_ARRGEN 0 0, 1)] id) 0 ∧ Quiet (st 0 [(R.TSTAT_BOUNDARY, 1)] id) 0 := ⟨quiet_of (by decide), quiet_of (by decide)⟩

/-! ### Witnesses: queues, wickets and basins -/

/-- An operation in flight. -/
def fl (e : Engine) (k : FlightKind) : Flight := ⟨0, e, 0, 0, {}, none, k⟩
def dz : Desc := ⟨0, 0, 0, 0⟩
/-- A tile with one operation in flight. -/
def stF (t : Nat) (e : Engine) (k : FlightKind) : State := st t [] fun x => { x with flights := [fl e k] }

/-- A tile with channel 0 open to a queue with a payload ring of one unit, and a SEND that waits on it. -/
def stChan : State := st 0 [(R.CHROUTE_VALID 0, 1), (R.CHCR_DCRED 0, 1), (R.CHCR_PSIZE 0, 1), (R.CHCR_PCRED 0, 1)] id
def stWaits : State := st 0 [(R.CHROUTE_VALID 0, 1), (R.CHCR_DCRED 0, 1)] fun x => { x with flights := [fl .qp (.sendWait 0 dz [] none 0)] }

def stSend : State := st 0 [(R.CHROUTE_VALID 0, 1), (R.CHCR_DCRED 0, 1)] id

theorem quiet_send : Quiet stSend 0 := quiet_of (by decide)

theorem wit_SendInjects :
    (localWin stSend 0 0 0 (offD fd) 32 = .ok 0 ∧ carriesPayload stSend 0 0 = false ∧ sendCheck stSend 0 0 0 (readDesc stSend 0 0) = .ok 0 ∧
     stSend.tf 0 (R.CHROUTE_CLOSED 0) = 0 ∧ creditOk stSend 0 0 0 = true) ∧
    (stWaits.tstate 0 ≠ fenced ∧ (stWaits.tile 0).flights = [fl .qp (.sendWait 0 dz [] none 0)] ∧ stWaits.tf 0 (R.CHROUTE_CLOSED 0) = 0 ∧ creditOk stWaits 0 0 0 = true) ∧
    (stChan.tf 0 (R.CHROUTE_DEV 0) = stChan.ownDev ∧ stChan.tf 0 (R.CHROUTE_BASIN 0) = 0 ∧ 0 < stChan.tf 0 (R.CHCR_PSIZE 0)) := by decide

/-- A tile with a receive queue that holds a received message; one with a queue that is empty; one whose RECV is blocked on it. -/
def stQueue : State := st 0 [(R.QCFG_EN 0, 1), (R.QPTR_COUNT 0, 1), (R.QPAY_SIZE 0, 1)] fun x => { x with qmsgs := [⟨0, ⟨0, 1, false⟩, 0, 0, 1, 0, true⟩] }
def stEmpty : State := st 0 [(R.QCFG_EN 0, 1), (R.QPAY_SIZE 0, 1), (R.QEPOCH_CLOSED 0, 0)] id
def stRecv : State := st 0 [(R.QCFG_EN 0, 1), (R.QPTR_COUNT 0, 1)] fun x => { x with flights := [fl .qp (.recv 0 0x4_0000 0 false)] }
/-- RECV into offset 0x4_0000 (bank group 1). -/
def fr : FmtD := { fd with off := 0x2000 }

theorem quiet_queue : Quiet stQueue 0 ∧ Quiet stEmpty 0 := ⟨quiet_of (by decide), quiet_of (by decide)⟩

theorem wit_Receives :
    (queueOpenTo stQueue 0 0 0 = true ∧ localWin stQueue 0 0 0 (offD fr) 32 = .ok 0x4_0000 ∧ localDst stQueue 0 0 (spadAddr 0 0x4_0000) 32 = .ok 0x4_0000 ∧
     stQueue.tf 0 (R.QPTR_COUNT 0) ≠ 0) ∧
    (queueOpenTo stEmpty 0 0 0 = true ∧ localWin stEmpty 0 0 0 (offD fr) 32 = .ok 0x4_0000 ∧ localDst stEmpty 0 0 (spadAddr 0 0x4_0000) 32 = .ok 0x4_0000 ∧
     stEmpty.tf 0 (R.QPTR_COUNT 0) = 0) ∧
    (stQueue.tf 0 (R.QPAY_SIZE 0) ≠ 0 ∧ takeFirst (fun m : QMsg => m.q == 0 && m.received) (stQueue.tile 0).qmsgs ≠ none) ∧
    (stEmpty.tf 0 (R.QPAY_SIZE 0) ≠ 0 ∧ takeFirst (fun m : QMsg => m.q == 0 && m.received) (stEmpty.tile 0).qmsgs = none) ∧
    ((stRecv.tile 0).flights = [fl .qp (.recv 0 0x4_0000 0 false)] ∧ stRecv.tf 0 (R.QPTR_COUNT 0) ≠ 0 ∧ stRecv.tstate 0 ≠ fenced) ∧
    groupsOk stQueue 0 0 (stQueue.tf 0 (R.QCFG_BASE 0) + 32 * stQueue.tf 0 (R.QPTR_HEAD 0)) 32 = true := by decide

/-- A message for queue 0 without a payload, from tile 1. -/
def msg : Msg := ⟨0, 0, ⟨0, 1, false⟩, 0, dz, [], 0⟩

theorem wit_DescriptorsAndCredits :
    (overtakes stEmpty 0 msg = false ∧ descCheck stEmpty 0 msg = stOK ∧ arrivalWaits stEmpty 0 msg = false) ∧
    (overtakes stEmpty 0 { msg with epoch := 1 } = false ∧ descCheck stEmpty 0 { msg with epoch := 1 } ≠ stOK) ∧
    overtakes { stEmpty with wires := [.desc 0 { msg with tag := 1 }, .desc 0 msg] } 0 msg = true ∧
    (let s := stEmpty.modTile 0 fun x => { x with stalled := [⟨0, 0, 0, .qp, 0⟩] }
     descCheck s 0 msg = stOK ∧ arrivalWaits s 0 msg = true) ∧
    (stChan.tstate 0 ≠ fenced ∧ stChan.tf 0 (R.CHCR_DCRED 0) + 1 < 2 ^ 9 ∧ stChan.tf 0 (R.CHCR_PCRED 0) + 1 < 2 ^ 13) ∧
    (let s := st 0 [] fun x => { x with freed := [⟨0, ⟨0, 1, false⟩, 0, 1, 1⟩] }
     s.tstate 0 ≠ fenced ∧ ∀ r ∈ (s.tile 0).freed, r.sender.dev = s.ownDev) := by decide

/-- A tile with wicket 0 open, one with it closed, and one whose close is under way. -/
def stOpen : State := st 0 [(R.WKLIM_EN 0, 1), (R.WKEPOCH_OPEN 0, 1)] id
def stClosed : State := st 0 [(R.WKLIM_EN 0, 1)] id

theorem quiet_wicket : Quiet stOpen 0 ∧ Quiet stClosed 0 := ⟨quiet_of (by decide), quiet_of (by decide)⟩

theorem wit_WicketsOpenAndClose :
    wicketUsable stOpen 0 0 0 = true ∧ wicketUsable stClosed 0 0 0 = true ∧ bitOf (1 : BitVec 6).toNat 0 = true ∧ stOpen.tf 0 (R.WKEPOCH_OPEN 0) = 1 ∧
    stClosed.tf 0 (R.WKEPOCH_OPEN 0) = 0 ∧ (stOpen.tile 0).hold = [] ∧ (stOpen.tile 0).flights = [] ∧ (stClosed.tile 0).hold = [] ∧
    (stClosed.tile 0).flights = [] ∧ (stF 0 .qp (.wclose 0)).tstate 0 ≠ fenced ∧
    ((stF 0 .qp (.wclose 0)).tile 0).flights = [fl .qp (.wclose 0)] := by decide

/-- A tile with an exact basin 0 whose bucket table begins at 0x4_0000; its bucket 0 has accumulators from 0x4_1000 on and expects one contribution of FP32 values,
and `flags` are its flags. -/
def stBasin (flags : Byte) (g : Tile → Tile) : State :=
  ownWr (st 0 [(R.QCFG_EN 0, 1), (R.QCFG_MODE 0, 2), (R.QCFG_BASE 0, 0x4_0000), (R.QEPOCH_CLOSED 0, 0)] g) 0 0x4_0000 [0, 0x10, 4, 0, 2, 0, 0, 0, 0, 0, 0, flags, 1, 0, 0, 0]

theorem quiet_basin : Quiet (stBasin 0 id) 0 ∧ Quiet (stBasin 1 id) 0 := ⟨quiet_of (by decide), quiet_of (by decide)⟩

theorem wit_BopenOfBuckets :
    basinOn (stBasin 0 id) 0 0 = true ∧ (stBasin 0 id).tf 0 (R.QCFG_OWNER 0) = (stBasin 0 id).actx 0 ∧ bitOf (bktFlags (stBasin 0 id) 0 0 0) 0 = false ∧
    basinOn (stBasin 1 id) 0 0 = true ∧ (stBasin 1 id).tf 0 (R.QCFG_OWNER 0) = (stBasin 1 id).actx 0 ∧ bitOf (bktFlags (stBasin 1 id) 0 0 0) 0 = true ∧
    (let s := stBasin 0 fun x => { x with basins := [⟨0, 0, 0, true, false⟩] }
     s.tstate 0 ≠ fenced ∧ zeroing (s.tile 0) 0 0 = true ∧ bucketAt s 0 0 0 + 32 ≤ bktBase s 0 0 0) := by decide

theorem wit_BucketsAndContributions :
    (let s := stBasin 1 id
     let m := { msg with payload := [0, 0, 0, 0] }
     s.tstate 0 ≠ fenced ∧ m.epoch = s.tf 0 (R.QEPOCH_EPOCH 0) ∧ s.tf 0 (R.QEPOCH_CLOSED 0) = 0 ∧ basinOn s 0 0 = true ∧ zeroing (s.tile 0) 0 0 = false ∧
     qpStalled (s.tile 0) = false ∧ bitOf (bktFlags s 0 0 0) 0 = true ∧ bktGet s 0 0 0 14 2 < bktGet s 0 0 0 12 2 ∧ (contribVals m.desc.tfmt m.payload).map List.length = some 1 ∧
     m.desc.tfmt = bktFmt s 0 0 0 ∧ m.desc.dst % 2 ^ 16 + 1 ≤ bktEntries s 0 0 0) ∧
    (let s := stBasin 1 fun x => { x with basins := [⟨0, 0, 1, false, true⟩] }
     s.tstate 0 ≠ fenced ∧ ((s.tile 0).basins.any fun k => k.q == 0 && k.b == 0 && k.due) = true) := by decide

/-! ### Witnesses: barriers, signals, soaking, traps, fetch -/

/-- A member of groups 0 and 32 whose arrival for generation 0 may go, one whose arrival must wait for an answer, and one that is held by it. -/
def stMember : State := st 0 [(R.TBAR_MEMBER 0 0, 1), (R.TBAR_MEMBER 0 32, 1)] id
def stUnanswered : State := st 0 [(R.TBAR_MEMBER 0 0, 1), (R.TBAR_DONEGEN 0 0, 3)] id
def stArriving : State := st 0 [(R.TBAR_MEMBER 0 0, 1)] fun x => { x with held := some (.barr 0 0 false false false false) }

theorem quiet_member : Quiet stMember 0 ∧ Quiet stUnanswered 0 := ⟨quiet_of (by decide), quiet_of (by decide)⟩

theorem wit_BarrierArrives :
    (stMember.tf 0 (R.TBAR_MEMBER 0 0) = 1 ∧ (stMember.tf 0 (R.TBAR_DONEGEN 0 0) + 1) % 256 = (stMember.tf 0 (R.TBAR_ARRGEN 0 0) + 1) % 256) ∧
    (stUnanswered.tf 0 (R.TBAR_MEMBER 0 0) = 1 ∧ (stUnanswered.tf 0 (R.TBAR_DONEGEN 0 0) + 1) % 256 ≠ (stUnanswered.tf 0 (R.TBAR_ARRGEN 0 0) + 1) % 256) ∧
    ((stArriving.tile 0).held = some (.barr 0 0 false false false false) ∧ stArriving.tstate 0 = running ∧ holdReady stArriving 0 (.barr 0 0 false false false false) = true) := by decide

/-- Dies with groups in use of `n` arrivals, the package group on GC 0 alone or on GC 0 and GC 1, and the norm group of the device. -/
def stDie (n : Nat) : State :=
  [(0, R.DBAR_EN 0, 1), (0, R.DBAR_PARTS 0, n), (0, R.PBAR_EN 0, 1), (0, R.PBAR_PARTS 0, n), (1, R.PBAR_EN 0, 1), (1, R.PBAR_DIES 0, 2 ^ n - 1)].foldl
    (fun s e => s.setFld .die e.1 e.2.1 e.2.2) {}
def stNorm : State :=
  { (((({} : State).setFld .ld 0 R.CXNORM_EN 1).setFld .ld 0 R.CXNORM_GROUP 3).setFld .die 0 (R.ERLINK_STATE 0) 2) with
    devBars := [{ g := 3, gen := 0 }] }

theorem wit_Barriers :
    (∀ n, n ∈ [1, 2] → let s := stDie n
      (s.fld .die 0 (R.DBAR_EN 0) ≠ 0 ∧ (0 : Nat) = (s.fld .die 0 (R.DBAR_GEN 0) + 1) % 256 ∧
       (s.fld .die 0 (R.DBAR_ARRIVED 0) + 1 = s.fld .die 0 (R.DBAR_PARTS 0) ↔ n = 1)) ∧
      (s.fld .die 0 (R.PBAR_EN 0) ≠ 0 ∧ (0 : Nat) = (s.fld .die 0 (R.PBAR_GEN 0) + 1) % 256 ∧
       (s.fld .die 0 (R.PBAR_ARRIVED 0) + 1 = s.fld .die 0 (R.PBAR_PARTS 0) ↔ n = 1)) ∧
      (s.fld .die 1 (R.PBAR_EN 0) = 1 ∧ (0 : Nat) = (s.fld .die 1 (R.PBAR_GEN 0) + 1) % 256 ∧ mget (fun _ => []) s.pkgArrived 0 = [] ∧
       ((∀ d, d < 8 → bitOf (s.fld .die 1 (R.PBAR_DIES 0)) d = true → d ∈ [0]) ↔ n = 1))) ∧
    (({} : State).fld .die 0 (R.DBAR_EN 0) = 0 ∧ ({} : State).fld .die 0 (R.PBAR_EN 0) = 0 ∧ (5 : Nat) ≠ ((stDie 1).fld .die 0 (R.DBAR_GEN 0) + 1) % 256) ∧
    stMember.tstate 0 ≠ fenced ∧
    (devBar stNorm 3 = some { g := 3, gen := 0 } ∧ ({ g := 3, gen := 0 } : DevBar).own = false ∧ isNorm stNorm 3 = true ∧ endpointLd stNorm = some 0) := by decide

/-- A tile whose counter 0 may not get ahead of counter 1; the same while it has an instruction queued that waits; and with the signal stalled. -/
def stBound : State := st 0 [(R.CNTBOUND_EN 0 0, 1), (R.CNTBOUND_PARTNER 0 0, 1)] id
def stBoundWait : State := st 0 [(R.CNTBOUND_EN 0 0, 1), (R.CNTBOUND_PARTNER 0 0, 1)] fun x =>
  { x with queue := [⟨0, .soak 0 cZero, .sc, 0, 0, {}, some (1, 5), [], none⟩] }
def stStalled (en : Nat) : State := st 0 [(R.CNTBOUND_EN 0 0, en), (R.CNTBOUND_PARTNER 0 0, 1)] fun x => { x with stalled := [⟨0, 0, 0, .sc, 0⟩] }

theorem wit_CounterSignal :
    (engOf 1 = some .sc ∧ hasEngine 0 .sc = true ∧ overBound (dispatched stM 0 .sc (.csig 0 { cZero with eng := 1 })) 0 (stM.actx 0) 0 = false) ∧
    (overBound stM 0 0 0 = false ∧ overBound stBound 0 0 0 = true ∧ stallLives stBound 0 0 0 = false ∧ overBound stBoundWait 0 0 0 = true ∧
     stallLives stBoundWait 0 0 0 = true) ∧
    (stStalled 0).tstate 0 ≠ fenced ∧ (stStalled 1).tstate 0 ≠ fenced ∧ ((stStalled 0).tile 0).stalled = [⟨0, 0, 0, .sc, 0⟩] ∧ overBound (stStalled 0) 0 0 0 = false ∧ ((stStalled 1).tile 0).stalled = [⟨0, 0, 0, .sc, 0⟩] ∧
    overBound (stStalled 1) 0 0 0 = true ∧ stallLives (stStalled 1) 0 0 0 = false := by decide

theorem wit_SoaksAndTraps :
    (let s := st 0 [] fun x => { x with phase := .full }
     quietB s 0 = true ∧ ((dispatched s 0 .me (.soak 0 cZero)).tile 0).phase = .full) ∧
    ((dispatched stM 0 .me (.soak 0 cZero)).tile 0).phase ≠ .full ∧
    classOf 0 = 0 ∧ fTRAP < 14 ∧ fTRAP ≠ fWATCHDOG ∧ stM.tstate 0 ≠ fenced ∧ stM.tf 0 R.TFAULT_FIRST = 0 ∧ (st 0 [(R.TFAULT_FIRST, 3)] id).tf 0 R.TFAULT_FIRST ≠ 0 ∧
    (st 0 [(R.TSTAT_STATE, fenced)] id).tstate 0 = fenced := by decide

/-- A tile whose first word is a NOP, and whose second is no instruction; and one that runs at the second. -/
def stCode (i : Nat) : State := ownWr (st 0 [] fun x => x.modCtx 0 fun c => { c with idx := i }) 0 0 (toBytes (4 * 2 ^ 54) 8 ++ toBytes (2 ^ 64 - 1) 8)

theorem wit_FetchAndDispatch :
    (∀ i, i < 2 → let s := stCode i
      canIssue s 0 = true ∧ s.actx 0 = 0 ∧ ((s.tile 0).ctx 0).idx = i ∧ progOffset s 0 0 i = some (8 * i) ∧ groupsOk s 0 0 (8 * i) 8 = true ∧
      (decodeInstr 0 (BitVec.ofNat 64 (ofBytes (s.rd (spadAddr 0 (8 * i)) 8)))).isSome = decide (i = 0)) ∧
    (let s := st 0 [(R.SPGSTATE_G, 0)] id
     canIssue s 0 = true ∧ progOffset s 0 0 0 = some 0 ∧ groupsOk s 0 0 0 8 = false) ∧
    (∀ p, p < 2 → let q : Queued := ⟨0, .salu 0 { s3 with pred := .ofNat 3 p }, .sc, 0, 0, {}, none, [0, 0], none⟩
      let s := st 0 [] fun x => { x with queue := [q] }
      s.tstate 0 ≠ fenced ∧ s.tf 0 R.TSTAT_HALTED = 0 ∧ (s.tile 0).queue = [q] ∧ canDispatch s 0 q = true ∧ lane0 s 0 0 (.ofNat 3 p) = decide (p = 0)) := by decide

/-! ### Witnesses: the DMA engine -/

/-- A tile with a descriptor at offset 0x80; the instruction fields that name it. -/
def stDesc (d : Desc) (g : Tile → Tile) : State :=
  ownWr (st 0 [] g) 0 0x80 (toBytes d.w0.toNat 8 ++ toBytes d.w1.toNat 8 ++ toBytes d.w2.toNat 8 ++ toBytes d.w3.toNat 8)
def fdd : FmtD := { fd with off := 4 }
/-- 64 bytes to or from the tile's own scratchpad, in HBM on the other side; the same for device 5; with CONV; in bucket form SIGN. -/
def d64 : Desc := ⟨.ofNat 64 (spadAddr 0 0), 0, 64, 0⟩
def dFar : Desc := { d64 with w2 := 64 + 5 * 2 ^ 48 }
def dConv : Desc := { d64 with w0 := 0x80_0000_0000 + 2 ^ 45 }
def dSign : Desc := { d64 with w0 := 0x80_0000_0000 + 3 * 2 ^ 50 }

theorem quiet_desc : Quiet (stDesc dz id) 0 ∧ Quiet (stDesc d64 id) 0 ∧ Quiet (stDesc { d64 with w2 := 64 + 7 * 2 ^ 32 } id) 0 :=
  ⟨quiet_of (by decide), quiet_of (by decide), quiet_of (by decide)⟩

/-- A part of a transfer that has nothing left to do. -/
def jobDone (op : Nat) (d : Desc) : DmaJob := { op := op, desc := d, ready := true }

theorem wit_TransfersDispatch :
    (localWin (stDesc d64 id) 0 0 0 (offD fdd) 32 = .ok 0x80 ∧ readDesc (stDesc d64 id) 0 0x80 = d64 ∧ dmaRegOk 0 fdd d64 = true ∧ dmaRegOk 3 fdd d64 = true ∧
     (let a := fun op => dmaArgs op fdd d64 []
      let u := dispatched (stDesc d64 id) 0 .dm (.dmas 0 fdd)
      dmaPlan u 0 0 (a 1) = .ok [⟨0, 64, false⟩] ∧ (dmaPlan u 0 0 (a 0)).toOption = none)) ∧
    ((jobDone 1 d64).done = true ∧ (jobDone 0 dConv).done = true ∧ dConv.conv = true ∧ dConv.len ≠ 0 ∧ (jobDone 0 dConv).worst = stOK ∧
     (stF 0 .dm (.dma (jobDone 0 dConv))).tstate 0 ≠ fenced ∧ ((stF 0 .dm (.dma (jobDone 0 dConv))).tile 0).flights = [fl .dm (.dma (jobDone 0 dConv))]) := by decide

theorem wit_TransferForms :
    dz.len = 0 ∧ d64.len ≠ 0 ∧ d64.conv = false ∧ dConv.conv = true ∧ dConv.len ≠ 0 ∧ (bucketStore 1 d64 = false ∧ d64.form ≠ 2) ∧
    (bucketStore 1 dConv = false ∧ dConv.form ≠ 2) ∧ (bucketStore 1 { d64 with w0 := 2 * 2 ^ 50 } = false ∧ ({ d64 with w0 := 2 * 2 ^ 50 } : Desc).form = 2) ∧
    (bucketStore 1 dSign = true ∧ kindAt stM 0 dSign.len = .hbm ∧ kindAt stM (spadAddr 0 0x4_0000) dSign.len ≠ .hbm) ∧
    (d64.dev = stM.ownDev ∧ dFar.len ≠ 0 ∧ dFar.dev ≠ stM.ownDev ∧ cxtReaches stM dFar.dev = false) ∧
    (let s := (stM.setFld .ld 0 R.CXCFG_EN 1).setFld .ld 0 (R.CXALIAS_VALID 5) 1
     cxtReaches s dFar.dev = true) := by decide

theorem wit_WritePackets : ([1, 2, 3] : List Byte) ≠ [] ∧ stM.ownDev = 0 := by decide

/-- A tile whose DMAX has two entries to run, the first of which is `d`. -/
def stEntry (d : Desc) : State := stDesc d fun x => { x with flights := [fl .dm (.dmax 2 0x80 0)] }
/-- An entry of 64 bytes that sends on channel 0 once counter 0 has reached 0. -/
def dSend : Desc := { dz with w1 := 4 * 2 ^ 40 + 2 ^ 43 }

theorem wit_ListedTransfers :
    (let s := ownWr (stDesc { dz with w0 := 0x80_0000_0000, w1 := 0x80_0000_0040, w2 := 64 } id) 0 0x40 (toBytes (spadAddr 0 0x4_0000) 8)
     quietB s 0 = true ∧ localWin s 0 0 0 (offD fdd) 32 = .ok 0x80 ∧
     (let u := dispatched s 0 .dm (.dmam 0 fdd)
      let d := readDesc s 0 0x80
      dmamPlan u 0 0 1 d = .ok (0, 0x40) ∧ ((dmamTargets u 0 0x40 1).all fun e => (dmamFault u 0 0 d e).isNone) = true)) ∧
    (wget (rs stM 0 0 0) 15 0 = 0 ∧ wget (rs (setS stM 0 0 0 2) 0 0 0) 15 0 ≠ 0 ∧ quietB (setS stM 0 0 0 2) 0 = true ∧
     localWin (setS stM 0 0 0 2) 0 0 0 (offD fdd) 64 = .ok 0x80) ∧
    (let s := stEntry { d64 with w1 := 2 ^ 40 }
     let d := readDesc s 0 0x80
     s.tstate 0 ≠ fenced ∧ (s.tile 0).flights = [fl .dm (.dmax 2 0x80 0)] ∧ d.legal = true ∧ d.wen = false ∧ dmRoom (s.tile 0) = true ∧
     d.kind = 1 ∧ bucketStore 1 d = false ∧ d.conv = false ∧
     dmaPlan s 0 0 { op := d.kind, jw := false, d := d, base := 0, ein := 0, eout := 0 } = .ok [⟨0, 64, false⟩]) ∧
    (let s := (stEntry { d64 with w0 := .ofNat 64 (spadAddr 0 0 + 2 ^ 45), w1 := 2 ^ 40, w3 := 2 ^ 51 }).setTf 0 (R.NSLOT_VALID 0 0) 1
     let d := readDesc s 0 0x80
     d.legal = true ∧ d.wen = false ∧ d.kind = 1 ∧ d.conv = true ∧ extOf false (readDesc s 0 0xA0) = some (0, 0, 0) ∧
     (dmaPlan s 0 0 { op := d.kind, jw := false, d := d, base := 0, ein := 0, eout := 0 }).toOption.isSome = true) ∧
    (let s := (((stEntry dSend).setTf 0 (R.CHROUTE_VALID 0) 1).setTf 0 (R.CHCR_DCRED 0) 1)
     let d := readDesc s 0 0x80
     d.legal = true ∧ d.wen = true ∧ satisfied (cntVal s 0 0 d.wcnt) ((0 + d.winc) % 2 ^ 32) = true ∧ dmRoom (s.tile 0) = true ∧ d.kind = 4 ∧
     sendCheck s 0 0 d.chan d = .ok 0 ∧ s.tf 0 (R.CHROUTE_CLOSED d.chan) = 0 ∧ carriesPayload s 0 d.chan = false ∧ creditOk s 0 d.chan 0 = true) := by decide +kernel

/-! ### Witnesses: the vector engine and the cone -/

/-- A V-tile whose p2 enables lane 0 alone, with scale slot 0 valid. -/
def stLane : State := setP (st 12 [(R.NSLOT_VALID 0 0, 1)] id) 12 0 2 1
theorem quiet_lane : Quiet stLane 12 := quiet_of (by decide)

theorem wit_VectorElements : vopLegal 12 { s3 with pred := 2 } = true ∧ vopLegal 0 s3 = true := by decide

theorem wit_VectorMoves :
    (classOf 12 = 1 ∧ s3.func.toNat / 32 < 4 ∧ bits s3.func.toNat 4 2 = 0 ∧ s3.func.toNat % 8 < 6 ∧ s3.func.toNat % 4 < 3) ∧
    vmovxLegal 12 si = true ∧ vmovxLegal 12 { si with func := 1 } = true ∧ vmovxLegal 12 { si with func := 2, pred := 2 } = true ∧
    laneOn (rp stLane 12 0 2) (laneOf 0 0) = true ∧ laneOn (rp stLane 12 0 2) (laneOf 0 1) = false := by decide

theorem wit_VectorMemory :
    (let u := fun i => dispatched stLane 12 .ve i
     anyLane 12 (rp stLane 12 0 1) = false ∧ anyLane 12 (rp stLane 12 0 2) = true ∧ vecAt (u (.vld 12 si)) 12 0 { si with pred := 2 } false = .ok 0 ∧
     vecAt (u (.vst 12 si)) 12 0 { si with ra := 1, pred := 2 } true = .ok 0x4_0000 ∧ laneOn (rp stLane 12 0 2) 1 = false ∧
     vecAt (u (.vst 12 si)) 12 0 { si with ra := 1 } true = .ok 0x4_0000 ∧ ((List.range (lanesOf 12)).all fun i => laneOn (rp stLane 12 0 0) i) = true ∧
     idxElems (u (.vldx 12 s3)) 12 0 { s3 with pred := 2 } false = .ok [(0, 0)] ∧
     idxElems (u (.vstx 12 s3)) 12 0 { s3 with pred := 2, ra := 1 } true = .ok [(0, 0x4_0000)]) := by decide +kernel

theorem wit_VectorConverts :
    (let f := { s3 with func := 0x10 }
     vcvtLegal 12 f = true ∧ vcvtFault (dispatched stLane 12 .ve (.vcvt 12 f)) 12 0 0 1 0 = none ∧ isNarrow 1 = false) ∧
    (let f := { s3 with func := 0x30 }
     vcvtLegal 12 f = true ∧ vcvtFault (dispatched stLane 12 .ve (.vcvt 12 f)) 12 0 0 3 0x20 = none ∧ isNarrow 3 = true) := by decide

/-- Fields of a matrix, vector or set instruction. -/
def fm : FmtM := ⟨0, 0, 0, 0, 0, 0, 0, 0, 0⟩

theorem wit_MaximaAndCones :
    (localWin stV 12 0 0 0 (fmtBytes 0 0) = .ok 0 ∧ classOf 12 = 1 ∧ cntLegal fm = true ∧ localWin stV 12 0 0 0 0 = .ok 0) ∧
    ∀ en, en < 2 →
      (let s := (stF 12 .ve (.cone [])).setTf 12 (R.CONECFG_EN 0) en
       s.tstate 12 ≠ fenced ∧ (s.tile 12).flights = [fl .ve (.cone [])] ∧ s.tf 12 (R.CONECFG_EN 0) = en) := by decide

/-! ### Witnesses: the matrix engine -/

/-- M-tiles whose s[1] and s[2] hold what a multiply, a predicting multiply or a drain reads, with an enabled batch gate. -/
def stMul (x y : Word) : State := setS (setS (st 0 [(R.NSLOT_VALID 0 0, 1), (R.MGANG_DEADLINE 0, 5)] id) 0 0 1 x) 0 0 2 y
def fmm : FmtM := { fm with rx := 1, ry := 2 }
theorem quiet_mul : Quiet (stMul 0x100_0001 0x33) 0 ∧ Quiet (stMul 0x100_0001 0x55) 0 ∧ Quiet (stMul 1 0) 0 ∧ Quiet (stMul 0 3) 0 :=
  ⟨quiet_of (by decide), quiet_of (by decide), quiet_of (by decide), quiet_of (by decide)⟩

/-- What a multiply is made of here. -/
def job : MmulJob :=
  { ctx := 0, pc := 0, cnt := none, sub := 0, first := 0, rows := 1, panels := 1, afmt := 3, pfmt := 3, accum := false, mark := false, pred := none, held := none,
    heldSlot := none, aOff := 0, bOff := 0, cOff := 0, aData := [], bData := [], cData := [] }

theorem wit_GangSetsAndPanelsLoad :
    (classOf 0 = 0 ∧ bits (0 : Nat) 8 2 = 0 ∧ 0 < bits (4 : Nat) 8 2 ∧ bits (4 : Nat) 8 2 ≤ 64) ∧
    mpanelPlan (dispatched (stMul 0 3) 0 .me (.mpanel 0 fmm)) 0 0 0 fmm 0 3 = .ok [⟨0, 1056, false⟩] ∧
    (let ps : PanelSet := { fmt := 3, low := [], high := [], lowScale := [], highScale := [] }
     ((stF 0 .me (.mpanel 1 ps)).tile 0).flights = [fl .me (.mpanel 1 ps)]) := by decide

theorem wit_Multiplies :
    (let s := stMul 0x100_0001 0x33
     let f := { fmm with mod := 2 }
     rs s 0 0 1 = 0x100_0001 ∧ rs s 0 0 2 = 0x33 ∧ (∃ p, mmulPlan (dispatched s 0 .me (.mmul 0 fmm)) 0 0 0 0 fmm 0x100_0001 0x33 false = .ok p) ∧
     gatedInstr (dispatched s 0 .me (.mmul 0 fmm)) 0 0 (.mmul 0 fmm) = false ∧ gatedInstr (dispatched s 0 .me (.mmul 0 f)) 0 0 (.mmul 0 f) = true ∧
     (loadJob (dispatched s 0 .me (.mmul 0 fmm)) 0 fmm job).isSome = true) ∧
    (let s := stMul 0x100_0001 0x55
     let f := { fmm with mod := 2 }
     (mmulPlan (dispatched s 0 .me (.mpred 0 f)) 0 0 0 0 f 0x100_0001 0x55 true).toOption.map (fun p => p.1.pred) = some (some (0, true)) ∧ bitOf f.mod.toNat 2 = false) ∧
    (∀ b : Bool, let s := st 0 [] fun x => { x with phase := if b then .full else .gated, flights := [fl .me (.mmul job)] }
      rowsEnter (s.tile 0) = b ∧ (s.tile 0).flights = [fl .me (.mmul job)] ∧ job.pred = none) ∧
    ((stF 0 .me (.predMark { job with pred := some (0, true) })).tile 0).flights = [fl .me (.predMark { job with pred := some (0, true) })] ∧
    ((st 0 [] fun x => { x with gate := [job] }).tile 0).gate = [job] ∧ (let s := st 0 [] fun x => { x with phase := .full, flights := [fl .me (.batch [job])] }
     rowsEnter (s.tile 0) = true ∧ (s.tile 0).flights = [fl .me (.batch [job])]) := by
  refine ⟨⟨?_, ?_, ⟨(job, [⟨0, 66, false⟩, ⟨0, 1056, false⟩]), ?_⟩, ?_⟩, ?_⟩ <;> decide +kernel

theorem wit_DrainsWrite :
    mdrainPlan (dispatched (stMul 1 0) 0 .me (.mdrain 0 { fmm with a := 1 })) 0 0 0 { fmm with a := 1 } 1 0 = .ok 0x4_0000 ∧ rs (stMul 1 0) 0 0 1 = 1 ∧
    ((stF 0 .me (.mdrain 0x4_0000 [] 0x4_0000 [])).tile 0).flights = [fl .me (.mdrain 0x4_0000 [] 0x4_0000 [])] := by decide

/-! ### Witnesses: the set engine -/

/-- An S-tile whose s[1] holds the first operand of a set instruction. -/
def stSet (x : Word) : State := setS stS 15 0 1 x
def fset : FmtM := { fm with a := 1, b := 1, c := 1, rx := 1 }
theorem quiet_set : Quiet (stSet 0) 15 ∧ Quiet (stSet 1) 15 ∧ Quiet (stSet 0x4_0000) 15 := ⟨quiet_of (by decide), quiet_of (by decide), quiet_of (by decide)⟩

theorem wit_SetOperations :
    classOf 15 = 2 ∧
    (let f := { fset with c := 0 }
     setLegal .sort f = true ∧ setArgsOk .sort 1 0 = true ∧ (∀ u, u ∈ [stSet 1, dispatched (stSet 1) 15 .se (.ssort 15 f)] → (setRanges .sort u 15 0 f 1 0).toOption.isSome = true)) ∧
    (setLegal .hash fset = true ∧ setArgsOk .hash 0x4_0000 0 = true ∧
     (∀ u, u ∈ [stSet 0x4_0000, dispatched (stSet 0x4_0000) 15 .se (.shash 15 fset)] → (setRanges .hash u 15 0 fset 0x4_0000 0).toOption.isSome = true)) ∧
    ([(SetKind.merge, Instr.smerge 15 fset), (.inter, .sinter 15 fset), (.gather, .sgather 15 fset), (.scatter, .sscatter 15 fset)].all fun p =>
       setLegal p.1 fset && setArgsOk p.1 0 0 && [stSet 0, dispatched (stSet 0) 15 .se p.2].all fun u => (setRanges p.1 u 15 0 fset 0 0).toOption.isSome) = true ∧
    (stF 15 .se (.setOp [] [] 0 4 0)).tstate 15 ≠ fenced ∧ ((stF 15 .se (.setOp [] [] 0 4 0)).tile 15).flights = [fl .se (.setOp [] [] 0 4 0)] := by decide +kernel

/-- Runs of two records or keys, in order and out of order; the numbers of one element to gather, which is the tile's own, and of two to scatter. -/
def stRuns (a b : Nat) : State := ownWr (stSet 2) 15 0x4_0000 (toBytes a 8 ++ toBytes b 8)

theorem quiet_runs : Quiet (stRuns 1 2) 15 ∧ Quiet (stRuns 2 1) 15 ∧ Quiet (stRuns 0x1_0000_0000 0) 15 := ⟨quiet_of (by decide), quiet_of (by decide), quiet_of (by decide)⟩

theorem wit_SetRuns :
    (∀ b : Bool, let s := if b then stRuns 1 2 else stRuns 2 1
      (match setRanges .merge s 15 0 fset 2 0 with
       | .ok l => sortedRun false ((recsOf 4 (rangeBytes s 15 (l.getD 0 ⟨0, 0, false⟩))).map (keyOf 4)) == b && sortedRun false ((recsOf 4 (rangeBytes s 15 (l.getD 1 ⟨0, 0, false⟩))).map (keyOf 4))
       | .error _ => false) = true ∧
      (match setRanges .inter (if b then stRuns 0x1_0000_0000 0 else stRuns 1 2) 15 0 fset 2 0 with
       | .ok l => sortedRun false (keysOf 4 (rangeBytes (if b then stRuns 0x1_0000_0000 0 else stRuns 1 2) 15 (l.getD 0 ⟨0, 0, false⟩))) == b
       | .error _ => false) = true) ∧
    (let s := stRuns 0x1_0000_0000 0
     (match setRanges .gather s 15 0 fset 2 0 with
      | .ok l => (chkAll (gatherAt s 15 0 fset.b.toNat 4) ((List.range 2).map fun i => numAt (rangeBytes s 15 (l.getD 0 ⟨0, 0, false⟩)) 4 i)).toOption.isSome
      | .error _ => false) = true ∧
     (match setRanges .scatter s 15 0 fset 2 0 with
      | .ok l => match chkAll (fun i => match elemAt s 15 0 fset.c.toNat 4 i with | .ok a => localDst s 15 0 a 4 | .error e => .error e)
          ((List.range 2).map fun i => numAt (rangeBytes s 15 (l.getD 0 ⟨0, 0, false⟩)) 4 i) with
        | .ok os => decide os.Nodup
        | .error _ => false
      | .error _ => false) = true) := by decide +kernel

/-- Two runs in order, of records with keys of one byte. -/
theorem wit_SortsInOrder :
    (([[1], [2]] : List (List Byte)).map (keyOf 1)).Pairwise (fun a b => a ≤ b) ∧ (([[2], [3]] : List (List Byte)).map (keyOf 1)).Pairwise (fun a b => a ≤ b) := by decide

/-! ### Witnesses: a tile's hardware -/

/-- A tile in a state of its own, with fields of its own. -/
def stAt (t state : Nat) (rs : List (Fld × Nat)) (g : Tile → Tile) : State := st t ((R.TSTAT_STATE, state) :: rs) g
def stPhase (t : Nat) (ph : SoakPhase) (n : Nat) (rs : List (Fld × Nat)) : State := st t rs fun x => { x with phase := ph, step := n }

theorem wit_ClockPhases :
    (stAt 0 waking [] id).tstate 0 = waking ∧ (((stPhase 12 .hold 16 []).tile 12).phase = .hold ∧ classOf 12 ≠ 0) ∧
    (((stPhase 0 .hold 16 []).tile 0).phase = .hold ∧ classOf 0 = 0) ∧
    (let s := { stPhase 0 .hold 16 [] with gov := [(0, 8)] }
     s.gov = [(0, 8)] ∧ ((s.tiles.filter fun e => e.1 / 256 == 0 / 256).map fun e => e.2.units).foldl (· + ·) 0 + 8 ≤ 64) ∧
    (∀ n, n < 3 → ((stPhase 0 .rampDown n []).tile 0).phase = .rampDown ∧ ((stPhase 0 .rampDown n []).tile 0).step = n) ∧
    (∀ n, n ∈ [7, 8, 15, 16] → let s := stPhase 0 .rampUp n []
      (s.tile 0).phase = .rampUp ∧ (s.tile 0).wantUnits = false ∧ (s.tile 0).step = n ∧ s.tf 0 R.TPWR_REDUCED ≠ 1) ∧
    ((stPhase 0 .rampUp 8 [(R.TPWR_REDUCED, 1)]).tile 0).step = 8 ∧ (stPhase 0 .rampUp 8 [(R.TPWR_REDUCED, 1)]).tf 0 R.TPWR_REDUCED = 1 := by decide

theorem wit_TileTroubles :
    (stM.tstate 0 ≠ fenced ∧ stM.bound 0 = true) ∧ (stAt 0 fenced [] id).tstate 0 = fenced ∧ stM.bound 1 = false ∧
    (let s := st 0 [(R.TCTL_WDOG_EN, 1)] fun x => { x with started := true }
     (s.tile 0).started = true ∧ s.bound 0 = true ∧ s.tf 0 R.TCTL_WDOG_EN = 1 ∧ s.tf 0 R.TSTAT_HALTED = 0 ∧ s.tf 0 R.TSTAT_HELD = 0 ∧ s.tstate 0 ≠ fenced ∧
     onDeviceBarrier s 0 = false) ∧
    (let s := st 0 [(R.TCTL_HOLD, 1), (R.TSTAT_BOUNDARY, 1)] id
     s.tstate 0 = running ∧ holdWanted s 0 = true ∧ s.tf 0 R.TSTAT_BOUNDARY = 1 ∧ (s.tile 0).held = none) := by decide

/-- A tile with wicket 0 over its first 4 KiB of bank group 1, open to every sender, and one whose port holds a packet. -/
def stWick (open_ grp : Nat) (g : Tile → Tile) : State :=
  st 0 [(R.WKLIM_EN 0, 1), (R.WKBASE_BASE 0, 0x4_0000), (R.WKLIM_LIMIT 0, 0x4_0FFF), (R.WKSEND_VALID 0 0, 1), (R.WKSEND_ANY 0 0, 1), (R.WKEPOCH_OPEN 0, open_),
        (R.SPGSTATE_G, grp)] g
def pkt : WritePkt := ⟨spadAddr 0 0x4_0000, [1, 2], ⟨0, 1, false⟩, 0, 0⟩

theorem wit_RemoteWrites :
    (let s := stWick 1 0xAAAA id
     (s.tile 0).port = [] ∧ writeCheck s 0 pkt = stOK ∧ writeWaits s 0 pkt = false ∧ writeCheck s 0 { pkt with addr := spadAddr 0 0x8_0000 } = stWICKET_MISS) ∧
    (let s := stWick 1 0 id
     (s.tile 0).port = [] ∧ writeCheck s 0 pkt = stOK ∧ writeWaits s 0 pkt = true) ∧
    ((stWick 0 0xAAAA id).tile 0).port = [] ∧ writeCheck (stWick 0 0xAAAA id) 0 pkt = stWICKET_CLOSED ∧
    (∀ grp, grp ∈ [0, 0xAAAA] → let s := stWick 1 grp fun x => { x with port := [pkt] }
      let u := s.modTile 0 fun x => { x with port := [] }
      (s.tile 0).port = [pkt] ∧ writeCheck u 0 pkt = stOK ∧ writeWaits u 0 pkt = decide (grp = 0)) ∧
    (((gbWrite stM 0 0x4_0005 [0xAB] false).tile 0).gb ≠ [] ∧ (((gbWrite stM 0 0x4_0005 [0xAB] false).tile 0).gb.map GbEntry.row).Nodup) := by decide +kernel

/-- A read of 64 bytes of bank group 1 from tile 1. -/
def rq : ReadReq := ⟨spadAddr 0 0x4_0000, 64, ⟨0, 1, false⟩, 0⟩

theorem wit_ReadsAndAnswers :
    (let off := rq.addr - spadAddr 0 0
     (¬ (reservedAt stM rq.addr rq.len = true ∨ rq.addr < spadAddr 0 0 ∨ spadAddr 0 0 + 0x20_0000 < rq.addr + rq.len)) ∧ stM.tstate 0 ≠ fenced ∧ rq.len ≠ 0 ∧
     (∀ g, g < 8 → off / 0x4_0000 ≤ g → g ≤ (off + rq.len - 1) / 0x4_0000 → groupState stM 0 g = 2)) ∧
    spadAddr 0 0 + 0x20_0000 < spadAddr 1 0 + rq.len ∧ reservedAt (stAt 0 fenced [] id) rq.addr rq.len = false ∧ (stAt 0 fenced [] id).tstate 0 = fenced ∧
    (let s := st 0 [(R.SPGSTATE_G, 2)] id
     reservedAt s rq.addr rq.len = false ∧ s.tstate 0 ≠ fenced ∧ (rq.addr - spadAddr 0 0) / 0x4_0000 ≤ 1 ∧ 1 ≤ (rq.addr - spadAddr 0 0 + rq.len - 1) / 0x4_0000 ∧ groupState s 0 1 ≠ 2) ∧
    (rq.len ≠ 0 ∧ (stM.tile 0).merge.length < 8 ∧ (∀ e ∈ (stM.tile 0).merge, e.n < 16)) ∧
    (let s := st 0 [] fun x => { x with merge := List.replicate 8 ⟨0, 1⟩ }
     8 ≤ (s.tile 0).merge.length ∧ (∀ e ∈ (s.tile 0).merge, e.row < 64 / 64 ∨ (64 + 64 - 1) / 64 < e.row) ∧ (s.tile 0).merged = []) ∧
    (let s := st 0 [] fun x => { x with reads := [⟨0, 64, 0, 0, 0⟩] }
     s.tstate 0 ≠ fenced ∧ (s.tile 0).reads = [⟨0, 64, 0, 0, 0⟩] ∧ stOK ≠ stACCESS) ∧
    (∀ n, n < 3 → let o : Outst := ⟨0, 0, 0, .dm, n, 0, none, none, 0, none, false, 0⟩
      let s := st 0 [] fun x => { x with outst := [o] }
      s.tstate 0 ≠ fenced ∧ (s.tile 0).outst = [o] ∧ o.chan = none) ∧ stOK ≠ stWICKET_MISS := by decide

theorem wit_BankGroups :
    (let s := st 0 [(R.SPGSTATE_G, 1)] id
     groupState s 0 0 = 1 ∧ (s.tile 0).powered.contains 0 = false) ∧
    (let s := st 0 [(R.SPGSTATE_G, 1)] fun x => { x with powered := [0] }
     groupState s 0 0 = 1 ∧ (s.tile 0).powered.contains 0 = true ∧ (s.tile 0).latchStart = false) ∧
    (let s := st 0 [(R.SPGSTATE_G, 3)] id
     groupState s 0 0 = 3 ∧ (s.tile 0).latchStart = false) ∧
    ((stM.tile 0).hold = [] ∧ (stM.tile 0).flights = [] ∧ stM.tf 0 (R.WKBASE_OWNER 0) = 0 ∧ stM.tf 0 (R.QCFG_OWNER 0) = 0) := by decide

theorem wit_TileCommands :
    (∀ g, g ∈ [0, 0xAAAA] → let s := stAt 0 asleep [(R.SPGSTATE_G, g)] id
      s.tstate 0 = asleep ∧ s.bound 0 = true ∧ (s.tile 0).started = false ∧ groupsReady s 0 = decide (g ≠ 0) ∧ s.actx 0 = 0) ∧
    (stAt 0 asleep [(R.TPWR_LENT, 1)] id).tf 0 R.TPWR_LENT = 1 ∧ (stAt 0 fenced [] id).tstate 0 = fenced ∧ stM.bound 1 = false ∧
    (stM.tf 0 R.TSTAT_HELD = 0 ∧ stM.tstate 0 ≠ fenced ∧ stM.bound 0 = true ∧ (stM.tile 0).merged = []) ∧
    (let s := (stAt 0 soaking [] fun x => { x with held := some .halt }).setFld .die 0 R.DMPCFG_LENDEN 1
     s.fld .die (0 / 256) R.DMPCFG_LENDEN = 1 ∧ s.tf 0 R.TPWR_LENT = 0 ∧ s.bound 0 = true ∧ s.tstate 0 = soaking ∧ (s.tile 0).held.isSome = true) := by decide

/-! ### Witnesses: the package network -/

/-- A device with the link of an end in a state. -/
def stLink (die e state : Nat) (l : Link) : State := (({} : State).setLink die e l).setFld .die (die % 8) (R.ERLINK_STATE e) state
def frame (seq typ : Nat) (ok : Bool) : CplFrame :=
  let f := sealFrame ⟨seq, 0, typ, (0, 0, 0), 0, []⟩
  if ok then f else { f with crc := ~~~f.crc }
/-- A packet of a kind. -/
def pktOf (kind : Nat) : Packet := ⟨.ofNat 128 (kind * 4), [], []⟩

theorem wit_PacketsMove :
    (let p := pktOf 10
     p.kind ≤ 10 ∧ hopBehind {} 0 0 0 p = false ∧ (hopsOf {} 0 0 0 p).all (hopFree {} 0 0 0 p) = true ∧ 10 < (pktOf 11).kind ∧
     hopBehind { wires := [.packet 0 0 0 0 0 { p with data := [1] }, .packet 0 0 0 0 0 p] } 0 0 0 p = true ∧
     (let s : State := { wires := List.replicate 4 (.packet 0 2 0 1 0 p) }
      (hopsOf s 0 3 0 p).all (hopFree s 0 3 0 p) = false)) ∧
    (({} : State).link 0 4).recv.contains (pktOf 3) = false ∧ ((stLink 0 4 2 { recv := [pktOf 3] }).link 0 4).recv.contains (pktOf 3) = true ∧
    (let s := stLink 0 4 2 {}
     linkState s 0 4 = 2 ∧ (s.link 0 4).held = false ∧ (frame 0 0 false).crcOk = false ∧ (frame 1 0 true).crcOk = true ∧ (frame 1 0 true).typ = 0 ∧
     (frame 1 0 true).seq ≠ (s.link 0 4).expect ∧ (frame 0 0 true).crcOk = true ∧ (frame 0 0 true).seq = (s.link 0 4).expect ∧ (frame 0 1 true).crcOk = true ∧
     (frame 0 1 true).typ = 1 ∧ ((ackFrames (s.unwire (.nak 0 4 0)) 0 4 0).link 0 4).sent = []) ∧
    (let s := stLink 0 4 2 { sent := [frame 5 0 true] }
     linkState s 0 4 = 2 ∧ (s.link 0 4).held = false ∧ ((ackFrames (s.unwire (.nak 0 4 4)) 0 4 4).link 0 4).sent ≠ [] ∧ (s.link 0 4).sent ≠ []) ∧
    (∀ n, n ∈ [15, 16] → ((stLink 0 4 2 { consec := n }).link 0 4).consec = n) := by decide +kernel

/-- A capability record: its first word of a major version and a role, and the identifier 7. -/
def capRec (v role : Nat) : List Byte := toBytes (v * 16 + role * 256) 8 ++ toBytes 7 8

theorem wit_LinksTrain :
    linkState (stLink 0 4 2 {}) 0 4 = 2 ∧ ((stLink 0 4 1 { held := true }).link 0 4).held = true ∧
    (∀ o : Bool, let s := stLink 0 4 1 { offered := o }
      linkState s 0 4 = 1 ∧ (s.link 0 4).held = false ∧ (s.link 0 4).offered = o ∧ (s.link 0 4).wait = []) ∧
    (let s := stLink 0 4 1 { held := true }
     linkState s 0 4 = 1 ∧ (s.link 0 4).held = true ∧ (s.link 0 4).wait = [] ∧ (s.link (peerEnd 0 4).1 (peerEnd 0 4).2).wait = []) ∧
    (let w := fun (v role : Nat) => numAt (capRec v role) 8 0
     linkOf 0 4 ≠ .hd ∧ bits (w 1 0) 7 4 ≠ 2 ∧ (bits (w 2 3) 7 4 = 2 ∧ bits (w 2 3) 10 8 ≠ siteRole (linkOf 0 4) ∧ ¬ (bits (w 2 3) 10 8 = 4 ∧ siteRole (linkOf 0 4) = 1)) ∧
     (bits (w 2 0) 7 4 = 2 ∧ bits (w 2 0) 10 8 = siteRole (linkOf 0 4)) ∧ linkOf 0 1 = .hd ∧ (bits (w 1 3) 7 4 = 1 ∧ bits (w 1 3) 10 8 = siteRole (linkOf 0 1)) ∧
     linkOf 0 0 = .ld 0 ∧ (bits (w 2 4) 7 4 = 2 ∧ bits (w 2 4) 10 8 = 4 ∧ siteRole (linkOf 0 0) = 1)) ∧
    (let s := stLink 0 0 1 { offered := true }
     linkState s 0 0 = 1 ∧ (s.link 0 0).offered = true ∧ (s.link 0 0).held = false ∧ (s.link 0 0).wait = []) ∧
    (({} : State).setFld .die 0 R.RSCTL_PENDING 1).fld .die 0 R.RSCTL_PENDING = 1 ∧ ({} : State).fld .die 0 R.RSCTL_ACTIVE = 0 ∧ dieIdle {} 0 = true ∧
    dieIdle (({} : State).setLink 0 4 { recv := [pktOf 3] }) 0 = false := by decide

/-! ### Witnesses: HBM and the update units -/

/-- A device whose stack 0 is in use, with registers of its MC and what the MC holds. -/
def stMc (rs : List (Fld × Nat)) (m : Mc) : State :=
  ((R.MCSTAT_STATE, 2) :: rs).foldl (fun s p => s.setFld .mc 0 p.1 p.2) (({} : State).setMc 0 m)
def hq : HbmReq := ⟨0, 0, 0, 64, none, List.replicate 64 1⟩
/-- Page 0 is a protected page of the shard. -/
def stShard (m : Mc) : State :=
  ((stMc [(R.TWCOPY_EN, 1), (R.TWCOPY_STATE, 1)] m).setReg (regAddr .mc 0 (R.MCSHARD 0)) 1).setReg (regAddr .mc 0 (R.MCPROT 0)) 1

theorem wit_MemoryRequests :
    (hbmAddr hq.addr = true ∧ blockHeld (stMc [] {}) hq.addr = false ∧ readHeld (stMc [] {}) hq = false ∧ (hbmPlace (stMc [] {}) hq.addr).1 = 0) ∧
    (writeHeld (stMc [] {}) hq = false ∧ isProt (stMc [] {}) 0 0 = false) ∧
    (let s := stShard {}
     blockHeld s hq.addr = false ∧ writeHeld s hq = false ∧ (hbmPlace s hq.addr).1 = 0 ∧ pageOf (blockKey s hq.addr) = 0 ∧ isProt s 0 0 = true ∧ (s.mc 0).staging.contains 0 = false ∧
     stageUsed (s.mc 0) < 4) ∧
    ((stMc [] { staging := [0] }).mc 0).staging = [0] ∧
    (let u := (stMc [] { path := [(0, hq)] }).unwire (.twinGive 0 0 none)
     takeFirst (fun (p : Nat × HbmReq) => p.1 == blockKey u 0) (u.mc 0).path = some ((0, hq), []) ∧ blockKey u 0 = 0) ∧
    (((stMc [] { retiring := some 0 }).mc 0).retiring = some 0 ∧ isProt (stMc [] { retiring := some 0 }) 0 0 = false) ∧
    (({} : State).mc 0).lost = false ∧ (stMc [(R.MCSTAT_ZEROING, 1)] {}).fld .mc 0 R.MCSTAT_ZEROING = 1 := by decide +kernel

/-- Whatever the on-die correction count does, a request's data stand, and its block is asked of the twin, or not. -/
theorem wit_ReadOutcomes :
    (readOut (noteEcc ((stMc [] {}).unwire (.hbmRead hq)) 0) hq).isSome = true ∧
    (let v := mcEvent (noteEcc ((stShard {}).setFld .ld 0 R.TWCFG_PAIREN 1) 0) 0 0x0700 0
     isShard v 0 (pageOf (blockKey v hq.addr)) = true ∧ v.fld .ld 0 R.TWCFG_PAIREN = 1) ∧
    isShard (mcEvent (noteEcc (stMc [] {}) 0) 0 0x0700 0) 0 0 = false := by
  have ecc : ∀ d, d < 2 → let e := fun s : State => State.setFld { s with fresh := s.fresh + 1 } .mc 0 R.MCSTAT_ECCCORR (satAdd (s.fld .mc 0 R.MCSTAT_ECCCORR) d 0xFFFF)
      (readOut (e ((stMc [] {}).unwire (.hbmRead hq))) hq).isSome = true ∧
      (let v := mcEvent (e ((stShard {}).setFld .ld 0 R.TWCFG_PAIREN 1)) 0 0x0700 0
       isShard v 0 (pageOf (blockKey v hq.addr)) = true ∧ v.fld .ld 0 R.TWCFG_PAIREN = 1) ∧
      isShard (mcEvent (e (stMc [] {})) 0 0x0700 0) 0 0 = false := by decide +kernel
  exact ⟨(ecc _ (Nat.mod_lt _ Nat.two_pos)).1, (ecc _ (Nat.mod_lt _ Nat.two_pos)).2.1, (ecc _ (Nat.mod_lt _ Nat.two_pos)).2.2⟩

theorem wit_UpdateUnits :
    (let s := stMc [(R.MCCFG_UUEN, 1), (R.UUCLIP_CLIP, 0x3F80_0000)] {}
     let v : Word := 2 ^ 33
     wget v 33 33 = 1 ∧ s.fld .mc 0 R.UUSTAT_STATE = 0 ∧ s.fld .mc 0 R.MCCFG_UUEN = 1 ∧ wget v 31 0 = (s.fld .mc 0 R.UUSTAT_CSTEP + 1) % 2 ^ 32 ∧
     clipOk (s.fld .mc 0 R.UUCLIP_CLIP) = true) ∧
    (∀ st, st ∈ [1, 2, 3] → (stMc [(R.UUSTAT_STATE, st)] {}).fld .mc 0 R.UUSTAT_STATE = st) ∧
    (let s := stMc [(R.UUSTAT_STATE, 1), (R.UUGATE_SKIP, 1)] {}
     s.fld .mc 0 R.UUSTAT_STATE = 1 ∧ s.fld .mc 0 R.UUGATE_SKIP = 1) ∧
    (let s := stMc [(R.UUSTAT_STATE, 1)] {}
     s.fld .mc 0 R.UUSTAT_STATE = 1 ∧ s.fld .mc 0 R.UUGATE_SKIP = 0 ∧ gradsOk s 0 = true ∧ (stageAll s (commitPages s 0)).1 = true) ∧
    (let s := (stMc [(R.UUSTAT_STATE, 1), (R.UUPLAN_COUNT, 1)] {}).wr 8 (toBytes (spadAddr 0 0) 8)
     s.fld .mc 0 R.UUSTAT_STATE = 1 ∧ s.fld .mc 0 R.UUGATE_SKIP ≠ 1 ∧ gradsOk s 0 = false) ∧
    (let s := stMc [] {}
     ¬ (s.fld .mc 0 R.UUSTAT_STATE = 1 ∧ s.fld .mc 0 R.UUGATE_SKIP = 0) ∧ s.fld .mc 0 R.UUSTAT_STATE ≠ 4 ∧ (s.mc 0).writeWait = [] ∧ s.fld .mc 0 R.UUSTAT_STATE ≠ 3) ∧
    (let s := stShard { staged := [⟨0, [], []⟩] }
     s.fld .mc 0 R.TWCOPY_STATE = 1 ∧ (s.mc 0).staged = [⟨0, [], []⟩]) ∧
    (let s := stMc [(R.TWCOPY_STATE, 1)] {}
     s.fld .mc 0 R.TWCOPY_LEFT = 0 ∧ (s.mc 0).staged = [] ∧ (s.mc 0).staging = [] ∧ copierBusy s 0 = false) := by decide +kernel

theorem wit_CopierTakesNext :
    let s := stShard {}
    s.fld .mc 0 R.TWCOPY_STATE = 1 ∧ (s.mc 0).staged = [] ∧ (shardPages s 0).find? (fun p => isProt s 0 p && !(s.mc 0).staging.contains p) = some 0 := by decide +kernel

/-! ### Witnesses: CXT -/

/-- A state whose port 0 is up, and a packet at it for device 0. -/
def linked (s : State) : State := (s.setPf 0 R.FPSTAT_STATE 2).setFld .ld 0 R.CXCFG_EN 1
def hdr : CxtHdr := ⟨0x20, 0, true, false, false, false, 1, 0, 0, 0, 0, 0, 0, 0, 0, 0, true, 0, 0, 0, 0⟩
def cp (h : CxtHdr) (bs : List Byte) : CxtPkt := ⟨0, true, false, h, none, bs⟩

theorem arrives_of {s : State} {p : CxtPkt} (h : (portUp s p.port && s.fld .ld (p.port / 2) R.CXCFG_EN != 0 && p.fcsOk && p.hdr.ver == 0x20 && p.ce == false &&
    p.hdr.ddev == s.fld .ld (p.port / 2) R.CXCFG_DEV && p.hdr.aliasGen == s.fld .ld (p.port / 2) R.CXEPOCH_ALIAS) = true) : Arrives s p := by
  simp only [Bool.and_eq_true, beq_iff_eq, bne_iff_ne] at h
  obtain ⟨⟨⟨⟨⟨⟨a, b⟩, c⟩, d⟩, e⟩, f⟩, g⟩ := h
  exact ⟨a, b, c, d, e, f, g⟩

theorem inTurn_of {s : State} {p : CxtPkt} (h : Arrives s p) (h' : (blockOk p && p.hdr.psn == (s.recvPath (pathOf p)).next && (s.recvPath (pathOf p)).early.isEmpty) = true) :
    InTurn s p := by
  simp only [Bool.and_eq_true, beq_iff_eq, List.isEmpty_iff] at h'
  exact ⟨h, h'.1.1, h'.1.2, h'.2⟩

/-- A WRITE that no wicket admits, one that must wait since its bank group is OFF, and one of a register; a record that raises the alias generation, and one too short. -/
def cWrite : CxtPkt := asOp (cp { hdr with addr := spadAddr 0 0x4_0000 } [1, 2]) opWRITE
def cReg : CxtPkt := asOp (cp { hdr with addr := regAddr .tile 0 R.TCTL } [1, 2]) opWRITE
def cAlias (n : Nat) : CxtPkt := asCtrl (cp hdr (List.replicate 8 0 ++ [7] ++ List.replicate n 0)) 1

theorem in_turn : InTurn (linked (stWick 1 0 id)) cWrite ∧ InTurn (linked stM) cWrite ∧ InTurn (linked stM) cReg ∧ InTurn (linked {}) (cAlias 7) ∧
    InTurn (linked {}) (cAlias 3) ∧ InTurn (linked {}) (asOp (cp hdr []) opRDATA) ∧ InTurn (linked {}) (asOp (cp hdr []) opBARRIER) :=
  ⟨inTurn_of (arrives_of (by decide)) (by decide), inTurn_of (arrives_of (by decide)) (by decide), inTurn_of (arrives_of (by decide)) (by decide),
   inTurn_of (arrives_of (by decide)) (by decide), inTurn_of (arrives_of (by decide)) (by decide), inTurn_of (arrives_of (by decide)) (by decide),
   inTurn_of (arrives_of (by decide)) (by decide)⟩

theorem wit_CxtDelivers :
    (landPkt landGate (placed (linked (stWick 1 0 id)) cWrite) cWrite).isNone = true ∧
    (let u := placed (linked stM) cWrite
     ∃ st v, landPkt landGate u cWrite = some (st, v) ∧ v.fld .ld 0 R.CXEPOCH_ALIAS = u.fld .ld 0 R.CXEPOCH_ALIAS) ∧
    (let u := placed (linked {}) (cAlias 7)
     ∃ st v, landPkt landGate u (cAlias 7) = some (st, v) ∧ v.fld .ld 0 R.CXEPOCH_ALIAS ≠ u.fld .ld 0 R.CXEPOCH_ALIAS) ∧
    ((cAlias 7).hdr.op = opCTRL ∧ ctrlLen (ctl (cAlias 7).data 0 2) = some (cAlias 7).data.length ∧ ctrlLen (ctl (cAlias 3).data 0 2) ≠ some (cAlias 3).data.length) ∧
    (let u := placed (linked stM) cWrite
     kindAt u cWrite.hdr.addr cWrite.data.length = .spad ∧ writeCheck u 0 pkt ≠ stOK ∧ (rowPieces cWrite.hdr.addr cWrite.data.length).length = 1) ∧
    kindAt (placed (linked stM) cReg) cReg.hdr.addr cReg.data.length ≠ .spad :=
  ⟨by decide +kernel, ⟨_, _, rfl, by decide +kernel⟩, ⟨_, _, rfl, by decide +kernel⟩, by decide +kernel, by decide +kernel, by decide +kernel⟩

/-- A device of a pair whose stack 0 has a twin region at 0, where block 0 is stored in a form; a JWRITE of the partner, alone or with a block's metadata. -/
def stTwin (form : Nat) : State :=
  linked { ((stMc [(R.TWREGION_EN, 1)] {}).setFld .ld 0 R.TWCFG_PAIREN 1).setFld .ld 0 R.TWCFG_PARTNER 1 with blocks := mput (fun _ => (0, 4096)) [] 0 (form, 4096) }
def cJw (m : Option BlockMeta) : CxtPkt := { asOp (cp hdr []) opJWRITE with blk := m }

theorem wit_CxtJwrites :
    (∀ form, form < 2 → let q := cJw none
      let u := placed (stTwin form) q
      InTurn (stTwin form) q ∧ u.fld .ld 0 R.TWCFG_PAIREN ≠ 0 ∧ q.hdr.sdev = u.fld .ld 0 R.TWCFG_PARTNER ∧ q.hdr.addr < 0x80_0000_0000 ∧ (hbmPlace u q.hdr.addr).1 = 0 ∧
      u.fld .mc 0 R.TWREGION_EN ≠ 0 ∧ u.fld .mc 0 R.TWREGION_BASE ≤ q.hdr.addr ∧ q.hdr.addr + q.data.length ≤ u.fld .mc 0 R.TWREGION_BASE + twinSize u 0 ∧
      blockHeld u q.hdr.addr = false ∧ (stageFor u 0 (pageOf (blockKey u q.hdr.addr))).1 = true ∧
      (blockForm (stageFor u 0 (pageOf (blockKey u q.hdr.addr))).2 q.hdr.addr).1 = form) ∧
    InTurn (stTwin 0) (cJw (some ⟨blockCrc 1 0 [], 1, 0⟩)) := by
  refine ⟨fun form h => ⟨inTurn_of (arrives_of ?_) ?_, ?_⟩, inTurn_of (arrives_of (by decide)) (by decide +kernel)⟩ <;> revert form <;> decide +kernel

/-- A SEND to queue 0 of tile 0 of a descriptor of zeros, whole or in part; a READ of bytes of HBM, of a whole block, of a scratchpad and of a register. -/
def cSend (last : Bool) : CxtPkt := asOp (cp { hdr with addr := regAddr .tile 0 (R.QCFG 0), last := last } (List.replicate 32 0)) opSEND
def cRead (a n : Nat) : CxtPkt := asOp (cp { hdr with addr := a, dlen := n } []) opREAD

theorem wit_CxtSendsAndReads :
    (∀ b : Bool, InTurn (linked stEmpty) (cSend b) ∧ toBasin (placed (linked stEmpty) (cSend b)) (cSend b).hdr = false ∧ (cSend b).hdr.last = b) ∧
    (let q := cSend true
     let u := placed (linked stEmpty) q
     let d := Desc.ofBytes (((u.recvPath (pathOf q)).part ++ q.data).take 32)
     let m : Msg := { queue := 0, chan := q.hdr.path, sender := cxSender q.hdr, epoch := q.hdr.epoch, desc := d, payload := [], tag := 0 }
     (q.hdr.addr % 0x1_0000 - R.QCFG 0) / 0x20 = 0 ∧ (q.hdr.addr - regAddr .tile 0 0) / 0x1_0000 = 0 ∧ u.bound 0 = true ∧ d.legal = true ∧ descCheck u 0 m = stOK ∧
     arrivalWaits u 0 m = false) ∧
    (∀ p, p ∈ [cRead 64 8, cRead 0 4096, cRead (spadAddr 0 0x4_0000) 64, cRead (regAddr .tile 0 0) 8] → InTurn (linked stM) p) ∧
    (let k := fun p : CxtPkt => kindAt (placed (linked stM) p) p.hdr.addr p.hdr.dlen
     k (cRead 64 8) = .hbm ∧ blockHeld (placed (linked (stMc [] {})) (cRead 64 8)) 64 = false ∧ k (cRead 0 4096) = .hbm ∧ k (cRead (spadAddr 0 0x4_0000) 64) = .spad ∧
     k (cRead (regAddr .tile 0 0) 8) = .other) ∧
    (∀ p, p ∈ [cRead 64 8, cRead 0 4096] → InTurn (linked (stMc [] {})) p ∧ kindAt (placed (linked (stMc [] {})) p) p.hdr.addr p.hdr.dlen = .hbm ∧
      blockHeld (placed (linked (stMc [] {})) p) p.hdr.addr = false) := by
  refine ⟨fun b => ⟨inTurn_of (arrives_of ?_) ?_, ?_⟩, by decide +kernel, fun p h => inTurn_of (arrives_of ?_) ?_, by decide +kernel,
    fun p h => ⟨inTurn_of (arrives_of ?_) ?_, ?_⟩⟩
  · revert b; decide +kernel
  · revert b; decide +kernel
  · revert b; decide +kernel
  all_goals revert p; decide +kernel

theorem arrives_net : Arrives (linked {}) (asOp (cp hdr []) opACK) ∧ Arrives (linked {}) (asOp (cp hdr []) opGRANT) ∧
    Arrives (linked {}) (asOp (cp hdr []) opHEARTBEAT) ∧ Arrives (linked {}) (asOp (cp { hdr with psn := 2 ^ 32 - 1 } []) opWRITE) :=
  ⟨arrives_of (by decide), arrives_of (by decide), arrives_of (by decide), arrives_of (by decide)⟩

theorem wit_CxtAnswers :
    (∀ b : Bool, let q := asOp (cp { hdr with last := b } [1]) opRDATA
      let s := { linked stM with cxReads := [⟨pathOf q, .tile 0 0, 2, []⟩] }
      InTurn s q ∧ q.hdr.last = b ∧ takeFirst (fun (r : CxRead) => r.path == pathOf q) s.cxReads = some (⟨pathOf q, .tile 0 0, 2, []⟩, []) ∧ s.tstate 0 ≠ fenced) ∧
    (linked {}).fld .ld 0 R.CXEPOCH_ALIAS = hdr.aliasGen ∧
    (numbered opWRITE = true ∧ portUp (linked {}) 0 = true ∧ (linked {}).fld .ld 0 R.CXCFG_EN ≠ 0 ∧ ({ hdr with ddev := 3 } : CxtHdr).ddev ≠ (linked {}).fld .ld 0 R.CXCFG_DEV ∧
     psnBefore (2 ^ 32 - 1) ((linked {}).recvPath (pathOf (cp hdr []))).next = true) ∧ portUp {} 0 = false := by
  refine ⟨fun b => ⟨inTurn_of (arrives_of ?_) ?_, ?_⟩, by decide⟩ <;> revert b <;> decide +kernel

/-- A port 0 in a state, with bits of its configuration. -/
def stPort (state : Nat) (rs : List (Nat → Fld)) : State := rs.foldl (fun s f => s.setPf 0 f 1) (({} : State).setPf 0 R.FPSTAT_STATE state)
def sent (outs : Nat) : SentPkt := ⟨cp hdr [], .none, outs, 0⟩
def stSent (outs : Nat) : State := (linked {}).setSendPath (pathKey 1 0) { port := some 0, unacked := [sent outs] }

theorem wit_CxtPorts :
    (∀ n, n ∈ [6, 7] → ((stSent n).sendPath (pathKey 1 0)).unacked = [sent n] ∧ (sent n).outs = n ∧ (sent n).onPort < 3 ∧
      ((stSent n).sendPath (pathKey 1 0)).port = some 0 ∧ portUp (stSent n) 0 = true) ∧
    (let s := ((linked {}).setPf 1 R.FPSTAT_STATE 2).setPf 0 R.FPSTAT_STATE 0
     let s := s.setSendPath (pathKey 1 0) { port := some 0, waiting := [sent 0] }
     let x := s.sendPath (pathKey 1 0)
     x.unacked = [] ∧ x.waiting ≠ [] ∧ x.port = some 0 ∧ portUp s 0 = false ∧ otherPort s 1 0 = some 1) ∧
    ((({} : State).sendPath (pathKey 1 0)).unacked = [] ∧ (({} : State).sendPath (pathKey 1 0)).waiting = [] ∧ (({} : State).sendPath (pathKey 1 0)).asked = false) ∧
    (∀ n, n ∈ [6, 7] → let s := (linked {}).setSendPath (pathKey 1 0) { port := some 0, asked := true, unheard := n }
      let x := s.sendPath (pathKey 1 0)
      x.unacked = [] ∧ x.port = some 0 ∧ portUp s 0 = true ∧ x.asked = true ∧ x.unheard = n) ∧
    (∀ n, n < 4 → (stPort n []).pf 0 R.FPSTAT_STATE = n) ∧
    (let s := (stPort 2 [R.FPCFG_PFC]).setPf 0 R.FPCFG_MODE 0
     s.pf 0 R.FPCFG_MODE = 0 ∧ s.pf 0 R.FPCFG_PFC = 1 ∧ s.paused.contains 0 = false) ∧
    (∀ n, n ∈ [14, 15] → let s := { stPort 2 [R.FPCFG_MODE] with replays := [(0, n)] }
      s.pf 0 R.FPCFG_MODE = 1 ∧ portUp s 0 = true ∧ mget (fun _ => 0) s.replays 0 = n) ∧
    (let s : State := { reshardTo := some 3, hostGone := true }
     s.reshardTo = some 3 ∧ bucketOpen s = false ∧ s.hostGone = true ∧ (∀ k, k < 8 → dieStill s k = true ∧ s.fld .mc k R.UUSTAT_STATE = 0) ∧
       ip6Of s 7 5 = ip6Of s 7 5 ∧ s.fld .ld (5 / 2) R.CXPREFIX_PREFIX = s.fld .ld (5 / 2) R.CXPREFIX_PREFIX) ∧
    wget (2 ^ 48 : Word) 48 48 = 1 ∧ wget (0 : Word) 48 48 = 0 := by decide +kernel

/-! ### Witnesses: the twin and recovery -/

/-- Devices of a pair, with registers of LD 0. -/
def stLd (rs : List (Fld × Nat)) : State := rs.foldl (fun s p => s.setFld .ld 0 p.1 p.2) {}

theorem wit_FailureDetected :
    (let s := stLd [(R.TWCFG_PAIREN, 1), (R.TWCFG_HBEN, 1), (R.TWSTAT_PAIR, 1)]
     s.fld .ld 0 R.TWCFG_PAIREN = 1 ∧ s.fld .ld 0 R.TWCFG_HBEN = 1 ∧ s.taking = none ∧ s.fld .ld 0 R.TWSTAT_PAIR = 1 ∧ s.aborting = none) ∧
    (∀ m, m ∈ [3, 4] → let s := { stLd [(R.TWCFG_PAIREN, 1), (R.TWCFG_HBEN, 1), (R.TWSTAT_HBMISS, m)] with hbHeard := false }
      s.fld .ld 0 R.TWCFG_PAIREN = 1 ∧ s.fld .ld 0 R.TWCFG_HBEN = 1 ∧ min 5 (s.fld .ld 0 R.TWSTAT_HBMISS + 1) = m + 1) ∧
    (let s := { stM with aborting := some { step := 0, takeover := true, failed := 1 } }
     s.aborting.isSome = true ∧ s.bound 0 = true ∧ s.tf 0 R.TSTAT_HELD = 0 ∧ s.tf 0 R.TSTAT_HALTED = 0 ∧ s.tstate 0 ≠ fenced ∧ s.tstate 0 ≠ asleep) ∧
    (∀ n, n < 2 → ({ taking := some { dev := 1, spare := n, moved := true } } : State).taking = some { dev := 1, spare := n, moved := true }) ∧
    ({ hostGone := false } : State).hostGone = false ∧ ({ probing := true } : State).probing = true := by decide

/-- A control block whose first generation is complete and whose step 9 has been released with a skip. -/
def ctlBlock : List Byte :=
  let head := fun (lo hi : Nat) => toBytes lo 8 ++ toBytes hi 8
  head (5 + 2 ^ 32) 0 ++ head 0 0 ++ head 9 3 ++ head 0 0

theorem wit_SpareRestarts :
    (∀ r ∈ ({ pulling := some 1 } : State).cxReads, ∃ t tag, r.kind = .tile t tag) ∧
    (let s := stLd [(R.TWSTAT_PAIR, 3)]
     s.fld .ld 0 R.TWSTAT_PAIR = 3 ∧ s.pulling = none ∧ s.taking = none) ∧
    ((newestGen ctlBlock).isSome = true) ∧ (({ left := true } : State).left = true ∧ ({ replaced := true } : State).replaced = true) ∧
    (let a : Abort := { step := 0, takeover := true, failed := 1 }
     let s : State := { aborting := some a }
     s.aborting = some a ∧ s.left = false ∧ s.replaced = false ∧ s.pulling = none ∧ s.replayDue = false ∧ (∀ d, d < 8 → dieStill s d = true) ∧ (∀ d, d < 8 → dieIdle s d = true) ∧
       dieIdle (s.setLink 0 4 { recv := [pktOf 3] }) 0 = false) ∧
    dieStill stM 0 = false :=
  by
  refine ⟨fun r h => ?_, by decide, by decide +kernel, by decide, by decide +kernel, by decide +kernel⟩
  exact absurd h (by decide +revert)

/-! ### Witnesses: start-up, the lease and commands -/

/-- The lodge in a state of its own, out of package reset. -/
def lg (f : Lodge → Lodge) : State := ({} : State).modLodge fun l => f { l with porst := false }

theorem wit_StartUpStages :
    (({} : State).modLodge fun l => { l with off := true }).lodge.off = true ∧ (({} : State).lodge.off = false ∧ ({} : State).lodge.porst = true) ∧
    (let s := lg id
     s.lodge.off = false ∧ s.lodge.porst = false ∧ s.lodge.refclk = false) ∧
    (let s := lg fun l => { l with stage := 1 }
     s.lodge.failed = false ∧ s.lodge.stage = 1 ∧ slotBarred s 0 = false ∧ slotBarred s 1 = true ∧ (slotOf s 1).st ≠ 3 ∧ (slotOf s 0).st ≠ 2) ∧
    (let s := (lg fun l => { l with stage := 1 }).modMram fun m => { m with slotA := {} }
     slotBarred s 0 = true ∧ slotBarred s 1 = true) ∧
    (let s := lg fun l => { l with stage := 2, vinx := true }
     s.lodge.stage = 2 ∧ s.lodge.vinx = true ∧ s.lodge.pvX = false ∧ stageNow s ≠ 0 ∧ s.lodge.power = none ∧ s.lodge.loading = none ∧ s.lodge.starting = none) ∧
    (∀ n, n ∈ [3, 5, 6] → (lg fun l => { l with stage := n }).lodge.stage = n ∧ (lg fun l => { l with stage := n }).lodge.boardTest = false) := by decide

theorem wit_LeaseAndLodge :
    (let s := { (lg fun l => { l with stage := 5 }) with ghUp := [0, 1] }
     s.ghUp.contains 1 = true ∧ leaseFree s = true ∧ s.lodge.stage ≠ 4 ∧ s.lodge.holder = none ∧ s.mram.epoch < 2 ^ 32 - 1 ∧ s.lodge.stale.contains 1 = false) ∧
    (∀ a, a ∈ [none, some 7] → let s := { (lg fun l => { l with stage := 4, firstAsk := a }) with ghUp := [0, 1], ticks := 9 }
      leaseFree s = true ∧ s.lodge.stage = 4 ∧ s.lodge.holder = none ∧ s.lodge.firstAsk = a ∧ s.ticks < 7 + msTicks) ∧
    (let s := { (lg fun l => { l with holder := some 1 }) with ghUp := [0, 1] }
     s.lodge.arbFault = false ∧ s.ghUp.contains 1 = true ∧ s.lodge.holder = some 1 ∧ s.lodge.termOver = false) ∧
    2 ^ 32 - 1 ≤ (({} : State).modMram fun m => { m with epoch := 2 ^ 32 - 1 }).mram.epoch ∧
    (let s := lg fun l => { l with pvX := true }
     s.lodge.off = false ∧ s.lodge.porst = false ∧ s.lodge.pvX = true) ∧
    (∀ v, v < 2 → (({} : State).setLf 0 R.DLEASE_LODGEOK v).lf 0 R.DLEASE_LODGEOK = v) := by decide

/-- A device whose GH-N may issue command records under epoch 5, with tile 0 bound and its bank group 1 ON. -/
def stCmd : State := { (st 0 [] id).setLf 0 R.DLEASE_EPOCH 5 with ghUp := [0] }

theorem wit_RegisterCommands :
    (stCmd.ghUp.contains 0 = true ∧ stCmd.lodge.stale.contains 0 = false ∧ ¬ (stCmd.lodge.lapse = true ∧ stCmd.lodge.holder = some 0)) ∧
    (∀ a, a ∈ [regAddr .tile 0 R.TCTL, spadAddr 0 0x4_0000, regAddr .tile 0 0x7FF8] →
      (portFor stCmd a).getD 0 = 0 ∧ (portFor stCmd a).isSome = true ∧ stCmd.lf 0 R.DLEASE_EPOCH = 5 ∧ targetOk stCmd 0 a 8 = decide (a ≠ regAddr .tile 0 0x7FF8)) ∧
    (regionOf stCmd.grade (spadAddr 0 0x4_0000) = .spad 0 0x4_0000 ∧ regionOf stCmd.grade (regAddr .tile 0 R.TCTL) = .reg .tile 0 R.TCTL) ∧
    (targetOk stCmd 0 (spadAddr 0 0x4_0000) 64 = true ∧ hbmAddr 0 = true ∧ hbmAddr (0 + 64 - 1) = true) ∧
    (stM.tstate 0 ≠ asleep ∧ sleepOnly R.TPROG = true ∧ regionOf stM.grade (regAddr .tile 0 R.TPROG) = .reg .tile 0 R.TPROG ∧ stM.grade = .cg2048) ∧
    (∀ b, b < 2 → let s := (if b = 0 then ({} : State) else ({} : State).setLink 0 4 { recv := [pktOf 3] }).setFld .die 0 R.DRESET_PENDING 1
      dieStill s 0 = true ∧ dieIdle (s.setFld .die 0 R.DRESET_COUNT 1) 0 = decide (b = 0) ∧ s.fld .die 0 R.DRESET_PENDING = 1 ∧ s.cqHeld = []) ∧
    dieStill stM 0 = false ∧ dcmdAt stM (regAddr .die 2 (R.DCMD 1 3)) = some (2, 1, 3) ∧ dcmdAt stM (regAddr .ld 5 (R.DCMD 0 0)) = some (13, 0, 0) ∧
    dcmdAt stM (regAddr .die 2 (R.DCMDST 1)) = none := by decide +kernel

/-! ### Witnesses: power, temperature and the damper -/

/-- The device in a power state. -/
def stPow (n : Nat) (f : Lodge → Lodge) : State := (lg f).setFld .die 0 R.DPWR_PSTATE n

theorem wit_PowerEvents :
    (∀ n, n < 4 → let s := stPow n fun l => { l with rails := decide (0 < n), stage := 1 }
      s.lodge.porst = false ∧ pstate s = n ∧ stageNow s = 2 ∧ s.lodge.rails = decide (0 < n)) ∧
    (let s := lg fun l => { l with stage := 2 }
     s.lodge.stage = 2 ∧ s.lodge.failed = false ∧ s.lodge.vinx = false) ∧
    (let s := lg fun l => { l with stage := 7, power := some ⟨0, 0, 3⟩ }
     s.lodge.stage ≠ 2 ∧ stageNow s = 9 ∧ s.lodge.vhbm = false) ∧
    (∀ v, v ∈ [1, 3] → ∀ fn, fn ∈ [0, 8, 24, 32, 96] → let s := setFn (lg fun l => { l with stage := 7 }) fn v
      fnState s fn = v ∧ s.fld .mc 0 R.MCSTAT_ZEROING = 0 ∧ s.lodge.latches.contains (fn, false) = false ∧ s.lodge.latches.contains (fn, true) = false ∧ s.lodge.stage ≠ 2 ∧
      s.lodge.power = none ∧ s.lodge.starting = none) ∧
    (let s := setFn (lg fun l => { l with power := some ⟨0, 0, 3⟩ }) 0 1
     fnState s 0 = 1 ∧ s.lodge.power.map Ask.arg = some 3) ∧
    (let s := setFn (lg fun l => { l with stage := 2 }) 8 1
     fnState s 8 = 1 ∧ s.lodge.stage = 2) ∧
    (∀ g, g ∈ [0, 0xAAAA] → let s := (st 0 [(R.SPGSTATE_G, g)] id).modLodge fun l => { l with loading := some ⟨0, 0, 0⟩ }
      s.lodge.loading = some ⟨0, 0, 0⟩ ∧ groupsOn s = decide (g ≠ 0)) := by decide +kernel

/-- A state in canonical form with a register of a die, one of whose fields stays through a fall to AON. -/
theorem wit_FallToAon :
    (stDie 1).Canon ∧ (∀ e ∈ (stDie 1).bind, e.1 < 2048) ∧ regionOf (stDie 1).grade (regAddr .die 0 R.DCQPTR) = .reg .die 0 R.DCQPTR ∧
    (match regDescAt .die (R.DCQPTR) with | some d => d.fields.any fun f => f.acc == .RWS | none => false) = true := ⟨⟨by decide, by decide, by decide⟩, by decide, by decide, by decide⟩

/-- A die with a budget; one that may boost. -/
def stDamp (rs : List (Fld × Nat)) : State := rs.foldl (fun s p => s.setFld .die 0 p.1 p.2) stM

theorem wit_DamperAndTemperature :
    (let r := fun s : State => (dieTiles s 0).foldl (fun s t => if s.tf t R.TPWR_RECALL = 1 then ((s.setTf t R.TPWR_LENT 0).setTf t R.TPWR_RECALL 0).setTf t R.TPWR_REDUCED 0 else s) s
     poolOf (r (stDamp [(R.DMPSTAT_BUDGET, 0)])) 0 < 0 ∧
     (∀ b, b < 2 → let u := r (stDamp [(R.DMPSTAT_BUDGET, 9000), (R.DMPCFG_BOOSTEN, b)])
       ¬ poolOf u 0 < 0 ∧ u.fld .die 0 R.DMPCFG_BOOSTEN = b ∧ u.fld .die 0 R.DMPTHR_STRETCH = 0)) ∧
    (({} : State).lodge.samples.length < 99 ∧ ({} : State).lodge.dropped = none ∧ ({} : State).lodge.capped = false) ∧ (lg id).lodge.off = false ∧
    (∃ x ∈ [60, 105], 105 ≤ x) ∧ (∀ x ∈ [60, 104], x < 105) ∧ mget (fun _ => 0) ((lg fun l => { l with cool := [(0, 9)] }).lodge.cool) 0 = 9 ∧
    (let s := stDamp [(R.DMPTHR_TJ, 105)]
     105 ≤ s.fld .die 0 R.DMPTHR_TJ) ∧
    (let s := stDamp [(R.DMPTHR_TJ, 104), (R.DMPTHR_STRETCH, 8)]
     100 ≤ s.fld .die 0 R.DMPTHR_TJ ∧ s.fld .die 0 R.DMPTHR_TJ < 105 ∧ 8 ≤ s.fld .die 0 R.DMPTHR_STRETCH ∧ s.fld .die 0 R.DMPTHR_HOTHOLD = 0) := by decide +kernel

/-! ### Witnesses: the host -/

/-- A device in a power state with the control session 1, and the lodge and the machine otherwise as `f` and `g` make them. -/
def stHost (n : Nat) (f : Lodge → Lodge) (ctl : Option Nat) : State :=
  { stPow n f with chp := { sessions := [{ sid := 1, opened := 0 }], control := ctl } }

/-- The first packet of session 1, and a forged one. -/
def pk1 : ChpPkt := ⟨1, 0, true⟩
def pkBad : ChpPkt := ⟨1, 0, false⟩

theorem wit_ControlCommands :
    (∀ c, c ∈ [none, some 1] → let s₀ := stHost 3 id c
      pktFits s₀ pk1 = true ∧ s₀.chp.queue = [] ∧ sessionBusy s₀ pk1.sid = false ∧ (takePkt s₀ pk1).chp.control = c) ∧
    (∀ n, n ∈ [2, 3] → let s := takePkt (stHost n id (some 1)) pk1
      lodgeFree s = true ∧ pstate s = n) ∧
    (let s := takePkt (stHost 3 (fun l => { l with loaded := true }) (some 1)) pk1
     lodgeFree s = true ∧ pstate s = 3 ∧ s.lodge.loaded = true ∧ stagingOk 0 4096 = true ∧ tilesAsleep s (hbmBytes s 0 16) = true ∧ s.chp.checkpoint = none ∧ s.reshardTo = none ∧
     s.aborting = none ∧ s.startWaits = false ∧ s.left = false ∧ s.replaced = false ∧ mayResume s pk1.sid = true ∧ mayResume (hostIsLost s) pk1.sid = false) ∧
    (let s := takePkt { stHost 3 id (some 1) with aborting := some { step := 0, takeover := false, failed := 0 }, startWaits := true } pk1
     s.aborting.isSome = true ∧ s.tiles.any (fun e => e.2.started) = false ∧ s.startWaits = true) ∧
    (takePkt ((stHost 3 id (some 1)).setFld .ld 0 R.TWCFG_PAIREN 1) pk1).fld .ld 0 R.TWCFG_PAIREN = 1 := by decide +kernel

theorem wit_QueriesAndTables :
    readable (takePkt (stHost 3 id (some 1)) pk1) (regAddr .die 0 R.DLEASE) = true ∧ isCount (takePkt (stHost 3 id (some 1)) pk1) (regAddr .die 0 R.DLEASE) = false ∧
    (let s := takePkt { stHost 3 id (some 1) with bind := [(12, 1)] } pk1
     readable s (regAddr .tile 12 0x3600) = true ∧ isCount s (regAddr .tile 12 0x3600) = true) ∧
    (∀ n, n < 2 → hasStep (takePkt ((stHost 3 id (some 1)).setFld .die 1 (R.PBAR_STEP 0) n) pk1) = decide (n = 1)) ∧
    (let s₀ := stHost 3 id (some 1)
     let s := takePkt s₀ pk1
     pktFits s₀ pk1 = true ∧ s₀.chp.queue = [] ∧ sessionBusy s₀ pk1.sid = false ∧ s.chp.control = some pk1.sid ∧ s.lodge.lms < lmsTop ∧ 0 < s.mram.tokens ∧ 3 ≤ pstate s ∧ stagingOk 0 4 = true ∧ (List.range 16).find? (fun n => s.chp.streams.all fun x => x.n != n) = some 0) ∧
    (List.replicate 32 (0 : Byte)).length = 32 ∧ (List.replicate 1896 (0 : Byte)).length = 1896 ∧ (List.replicate 2080 (0 : Byte)).length = 2080 ∧
    (takePkt { chp := { streams := [{ n := 3, dir := 0, addr := 0, len := 0 }] } } pk1).chp.streams.any (fun x => x.n == 3) = true :=
  ⟨by decide, by decide, by decide, by decide, by decide, List.length_replicate, List.length_replicate, List.length_replicate, by decide⟩

/-- A half-open handshake; a stream that may still take 64 bytes. -/
def half : Half := ⟨1, [], [], 1, [], [], [], [], [], none⟩
def strm : Stream := { n := 0, dir := 0, addr := 0, len := 64, credit := 1 }

theorem wit_SessionsAndTime :
    (∀ b : Bool, let s := lg fun l => { l with stage := 7, cryptoErr := b }
      7 ≤ s.lodge.stage ∧ s.lodge.boardTest = false ∧ s.lodge.cryptoErr = b ∧ s.chp.halves.find? (fun x => x.hs == 1) = none ∧ s.chp.halves.length < 8 ∧ s.chp.sessions.length < 4 ∧
      s.lodge.master = none) ∧
    (parseHello (List.replicate 2209 0)).isSome = true ∧
    (let s : State := { chp := { halves := List.replicate 8 half, sessions := [{ sid := 1, opened := 0 }] } }
     8 ≤ s.chp.halves.length ∧ s.chp.halves.find? (fun x => x.hs == 1) = some half ∧ s.chp.sessions.length < 4 ∧ half.admission = none ∧
     s.chp.sessions.find? (fun x => x.sid == 1) = some { sid := 1, opened := 0 } ∧ s.chp.queue = [] ∧ (∀ y ∈ s.chp.sessions, y.sid = 1)) ∧
    (let s := stHost 3 id (some 1)
     pktFits s pk1 = true ∧ pktFits s pkBad = false ∧ pktFits { s with chp := { s.chp with sessions := [{ sid := 1, opened := 0, high := 1024 }] } } pk1 = false ∧
     pktFits { s with chp := { s.chp with sessions := [{ sid := 1, opened := 0, high := 1023 }] } } pk1 = true) ∧
    (let s₀ : State := { stMc [] {} with chp := { streams := [strm, { strm with n := 1, dir := 1 }], sessions := [{ sid := 1, opened := 0 }], control := some 1 } }
     let s := takePkt s₀ pk1
     pktFits s₀ pk1 = true ∧ s₀.chp.control = some pk1.sid ∧ s.chp.streams.find? (fun x => x.n == 1) = some { strm with n := 1, dir := 1 } ∧
     let data : List Byte := List.replicate 64 1
     s.chp.streams.find? (fun x => x.n == 0) = some strm ∧ strm.dir = 0 ∧ data ≠ [] ∧ data.length ≤ 4096 ∧ 0 + data.length ≤ strm.len ∧ 0 + data.length ≤ strm.credit * creditUnit ∧
     (∀ p ∈ pieces4k (strm.addr + 0) data.length, blockHeld s p.1 = false) ∧ (stageRange s (pagesOf s (strm.addr + 0) data.length)).isSome = true) ∧
    (let s := lg fun l => { l with refclk := true }
     s.pending = [] ∧ s.lodge.off = false ∧ s.lodge.porst = false ∧ s.lodge.refclk = true) ∧ ({} : State).lodge.porst = true := by decide +kernel

theorem wit_MonitoringAndTest :
    (({ toLog := [{}] } : State).toLog = [{}]) ∧
    (let k := ({} : State).mram.kiln
     k.sec.length < secRecords ∧ (learnCode k 7).windows.contains (codeEntry (learnCode k 7) 7) = false ∧ (learnCode k 7).op.length < opRecords ∧
     (learnCode { k with windows := [0] } 7).windows.contains (codeEntry (learnCode { k with windows := [0] } 7) 7) = true) ∧
    (let s := lg fun l => { l with refclk := true, pmbTries := [(0x40, 1), (0x41, 2)] }
     s.lodge.off = false ∧ s.lodge.porst = false ∧ s.lodge.cryptoErr = false ∧ s.lodge.rtcDerived = false ∧ pmbRuns s = true ∧ pmbDevices.contains 0x40 = true ∧
     s.lodge.pmbTries.find? (fun e => e.1 == 0x40) = some (0x40, 1) ∧ s.lodge.pmbTries.find? (fun e => e.1 == 0x41) = some (0x41, 2)) ∧
    (∀ b : Bool, let s := lg fun l => { l with boardTest := b }
      s.lodge.boardTest = b ∧ s.lodge.porst = false ∧ s.lodge.off = false) := by decide +kernel

/-- A log whose SEC records are full. -/
theorem wit_SecLogFull : secRecords ≤ (List.replicate secRecords (logRecord {} {} 0 0)).length := by rw [List.length_replicate]

/-! ### Witnesses: the block as a whole -/

theorem wit_RegisterAccess :
    regionOf ({} : State).grade (regAddr .tile 0 R.TCTL) = .reg .tile 0 R.TCTL ∧ (regDescAt .tile R.TCTL).isSome = true ∧ ({} : State).grade = .cg2048 := by decide

theorem wit_StepKeepsCanon : State.reset.Canon ∧ Completes (step State.reset) := ⟨⟨by decide, by decide, by decide⟩, _, rfl⟩

theorem wit_RegisterFiles : (0 : Nat) < 2 ∧ (3 : Nat) ≠ 0 ∧ (12 : Nat) ≠ 0 := by decide

theorem wit_LeaseEpochNeverFalls :
    (Completes (step State.reset) ∧ State.reset.mram.epoch < 2 ^ 32) ∧ (({} : State).modMram fun m => { m with epoch := 2 ^ 32 - 1 }).mram.epoch = 2 ^ 32 - 1 ∧
    ({} : State).lodge.arbFault = false ∧ ({ ghUp := [0] } : State).ghUp.contains 0 = true := ⟨⟨⟨_, rfl⟩, by decide⟩, by decide, by decide, by decide⟩

/-! ### Well-formedness -/

/-- Terms that a check refuses: numbers of tiles, dies, engines' parts, ports and links that the part does not have. -/
def badNumbers : List Instr :=
  [.nop 2048 cZero, .sequencerFetch 0 (.recovered 0x20_0000), .engineDispatch 0 .sc (.unrecovered 0x20_0000), .recv 0 { fd with mod := 1 }, .tryrecv 0 fd,
   .wopen 0 { fd with mod := 1 }, .wclose 0 fd, .mmulComplete 0 4, .mpredFinalMark 0 4, .mergeWindowExpiry 0 32768, .bankGroupPowered 0 8, .bankGroupZeroFillEnd 0 8,
   .taskEnd 0 2, .creditReturnTimer 0 16, .creditReturn 0 64 0 0, .creditReturn 0 0 512 0, .creditReturn 0 0 0 8192, .basinZeroComplete 0 0 16, .basinBucketComplete 0 16 0,
   .dieBarrierArrival 8 0 0, .dieBarrierArrival 0 48 0, .dieBarrierArrival 0 0 256, .packageBarrierArrival 0 31 0, .barrierRelease 0 2 0 0, .packetHop 0 21 0 ⟨0, [], []⟩,
   .packetHop 0 0 16 ⟨0, [], []⟩, .packetHop 0 0 0 ⟨0, [], List.replicate 65 0⟩, .cplAckTimeout 16 0, .cplAckTimeout 0 10, .cplNak 0 0 65536, .ucieRetrain 8 0, .routerFault 0 18 0, .stackLost 8]

/-- The same for addresses, lengths and the parts of packets. -/
def badRecords : List Instr :=
  [.remoteWritePacket 0 { pkt with addr := spadAddr 1 0 }, .remoteWritePacket 0 { pkt with addr := spadAddr 0 0x4_003F }, .remoteWritePacket 0 { pkt with data := [] },
   .remoteWritePacket 0 { pkt with sender := ⟨65536, 0, false⟩ }, .remoteWritePacket 0 { pkt with epoch := 65536 }, .remoteReadRequest 0 { rq with len := 4097 } .clean,
   .remoteReadRequest 0 { rq with len := 0 } .clean, .remoteReadResponse 0 0 16 [], .transferAnswer 0 0 16, .descriptorArrival 0 { msg with queue := 16 },
   .basinContribution 0 { msg with epoch := 65536 }, .packetHop 0 0 0 ⟨0, List.replicate 17 (0, 0, 0, 0), []⟩, .cplFrameReceive 0 0 (frame 65536 0 true),
   .cplFrameReceive 0 0 (frame 0 3 true), .capabilityRecord 0 0 [0], .hbmReadRequest { hq with addr := 0x80_0000_0000 } .ok, .hbmReadRequest { hq with addr := 4095, len := 2 } .ok,
   .hbmWriteRequest { hq with data := [] }, .twinBlockReturn 0 0 (some [0]), .cxtWrite { cp hdr [] with port := 64 }, .cxtWrite (cp { hdr with ver := 256 } []),
   .cxtAck (cp { hdr with path := 64 } []), .cxtRetransmitTimeout 0 65536 0, .normGroupComplete 16, .leaseRequest 2, .keepaliveMissed 41, .commandWrite 0 (2 ^ 32) (2 ^ 39) 0,
   .commandWrite 0 0 0 0, .commandCopy 0 0 0 (2 ^ 39) 12, .cxcfgEnWrite 32 0, .registerWrite 0 0, .powerGoodVincFall 8]

theorem test_ill_formed : ((badNumbers ++ badRecords).any Instr.wellFormed) = false := by decide +kernel

/-- The same for the lodge, the host and the pins. -/
theorem test_ill_formed_host : ((
  [.functionStartingEnd 97, .thermalRead (List.replicate 44 0), .power pk1 0 0, .power pk1 0 4, .imageLoad pk1 0 0x80_0000_0000 1, .stateReadRegisters pk1 0 (2 ^ 39) 513,
   .logRead pk1 0 2 0 1, .logRead pk1 0 0 0 257, .logClear pk1 0 [], .attest pk1 0 [], .aliasTable pk1 0 0 65536 1, .aliasOwnNumbers pk1 0 65536 0, .aliasPair pk1 0 1 2 3 true true [],
   .dataReady pk1 0 (2 ^ 32), .predEn pk1 0 16 true, .reshard pk1 0 0 1 65536, .streamOpen pk1 0 2 0 1, .streamClose pk1 0 16, .takeoverCommand pk1 0 65536, .configSetPtpDomain pk1 0 256,
   .claim ⟨2 ^ 64, 0, true⟩ 0, .close ⟨0, 2 ^ 64, true⟩ 0, .finish 0 [], .bulkData pk1 16 0 [0], .bulkData pk1 0 0 [], .bulkCredit pk1 16 0 0, .ptpMessage 0 256 0, .logWindowExpiry 65536, .pmbusPoll 0x43 0 0 true, .pmbAlert 0x40 65536] : List Instr).any Instr.wellFormed) = false := by decide +kernel

/-- Terms that stand for commands of the part. -/
theorem test_well_formed :
    ([.nop 2047 cZero, .recv 0 fd, .tryrecv 0 { fd with mod := 1 }, .remoteWritePacket 0 pkt, .remoteReadRequest 0 rq .clean, .descriptorArrival 15 msg, .hbmReadRequest hq .ok,
      .hbmWriteRequest hq, .cxtWrite (cp hdr []), .commandWrite 1 (2 ^ 32 - 1) (2 ^ 39) 0, .power pk1 0 3, .pmbusPoll 0x49 0 0 true, .idcode] : List Instr).all Instr.wellFormed = true := by
  decide +kernel

/-! ### Instruction words (R617, R618, R622) -/

/-- OP, FMT, PRED and the 51 bits below, as R617 places them. -/
def word (op fmt pred low : Nat) : Word := .ofNat 64 (op * 2 ^ 57 + fmt * 2 ^ 54 + pred * 2 ^ 51 + low)

theorem test_words :
    decodeInstr 0 (word 0x01 0 1 (2 * 2 ^ 45 + 3 * 2 ^ 39 + 4 * 2 ^ 33 + 5 * 2 ^ 27 + 6 * 2 ^ 19 + 7)) = some (.salu 0 ⟨1, 2, 3, 4, 5, 6, 0, 7⟩) ∧
    decodeInstr 0 (word 0x04 1 0 (2 * 2 ^ 45 + 3 * 2 ^ 39 + 4 * 2 ^ 32 + 0xFFFF_FFFF)) = some (.sld 0 ⟨0, 2, 3, 4, 0xFFFF_FFFF⟩) ∧
    decodeInstr 0 (word 0x10 2 0 (1 * 2 ^ 47 + 2 * 2 ^ 31 + 3 * 2 ^ 25 + 0)) = some (.send 0 ⟨0, 1, 2, 3, 0, 0, 0⟩) ∧
    decodeInstr 0 (word 0x11 2 0 (1 * 2 ^ 13)) = some (.tryrecv 0 { fd with mod := 1 }) ∧
    decodeInstr 0 (word 0x0C 4 0 (9 * 2 ^ 45 + 2 ^ 23)) = some (.cwait 0 { cZero with cnt := 9, l := true }) ∧
    decodeInstr 0 (word 0x1B 4 0 0) = none ∧ decodeInstr 0 (word 0x01 1 0 0) = none := by decide +kernel

/-! ### Examples of the manual -/

/-- R18: logical tile 1,000 is local tile 232 of die 3. -/
theorem test_R18_example : spadAddr 1000 0 = 0x80_7D00_0000 ∧ regAddr .tile 1000 0 = 0xC0_03E8_0000 := by decide

/-- R626: the corners of division, on one step each. -/
theorem test_division_corners :
    smulOp 3 5 0 0 = 0xFFFF_FFFF_FFFF_FFFF ∧ smulOp 3 0x8000_0000_0000_0000 0xFFFF_FFFF_FFFF_FFFF 0 = 0x8000_0000_0000_0000 ∧ smulOp 5 7 0 0 = 7 ∧
    smulOp 5 0x8000_0000_0000_0000 0xFFFF_FFFF_FFFF_FFFF 0 = 0 ∧ smulOp 3 (-7) 2 0 = -3 ∧ smulOp 5 (-7) 2 0 = -1 ∧ smulOp 4 7 2 0 = 3 := by decide

/-- R228, R636: a signal on a counter at 2³² − 1 takes it to 0. -/
theorem test_counter_wraps : cntVal (applySignal (st 0 [(R.CNT_VALUE 0 5, 2 ^ 32 - 1)] id) 0 0 5 stOK .sc 0) 0 0 5 = 0 := by decide +kernel

/-- R118: a close of an open wicket at the last epoch wraps it. -/
theorem test_close_wraps : (closeWicket (st 0 [(R.WKEPOCH_OPEN 0, 1), (R.WKEPOCH_EPOCH 0, 0xFFFF)] id) 0 0).tf 0 (R.WKEPOCH_EPOCH 0) = 0 := by decide +kernel

/-- R93–R95: a byte written through the gather buffer shows to the tile's own engines, and in memory only after it is drained. -/
theorem test_gather_buffer :
    (let s := gbWrite stM 0 0x4_0005 [0xAB] false
     ownByte s 0 0x4_0005 = 0xAB ∧ s.byte (spadAddr 0 0x4_0005) = 0 ∧ (drainAll s 0).byte (spadAddr 0 0x4_0005) = 0xAB) := by decide +kernel

/-- An idle machine answers a next state, and a command that waits is taken off the queue. -/
theorem test_steps : Completes (step State.reset) ∧ step { State.reset with pending := [.idcode] } = .next State.reset := ⟨⟨_, rfl⟩, rfl⟩

end Sys2Proof.Tests
end

section
/-!
SUPPORT. The fields of a register: what a field reads as after the fields of a table row have been set in turn, and what a write under the access types (R11) stores.
-/

namespace Sys2Proof.Machine

/-! ### Bits -/

theorem bitOf_eq_testBit (n i : Nat) : bitOf n i = n.testBit i := by
  rw [bitOf, Nat.testBit_eq_decide_div_mod_eq]; rfl

/-- A bit of a word is a bit of the field in which it lies. -/
theorem bitOf_eq_wget (w : Word) {hi lo i : Nat} (hl : lo ≤ i) (hh : i ≤ hi) : bitOf w.toNat i = (wget w hi lo).testBit (i - lo) := by
  rw [bitOf_eq_testBit, wget, bits, Nat.testBit_mod_two_pow, Nat.testBit_div_two_pow, Nat.sub_add_cancel hl, decide_eq_true (by omega), Bool.true_and]

theorem wget_mod (w : Word) (hi lo : Nat) : wget w hi lo % 2 ^ (hi + 1 - lo) = wget w hi lo := Nat.mod_eq_of_lt (wget_lt w hi lo)

/-- A field set to what it holds. -/
theorem wset_wget_self (w : Word) {hi lo : Nat} (hl : lo ≤ hi) (hh : hi < 64) : wset w hi lo (wget w hi lo) = w := by
  apply BitVec.eq_of_toNat_eq
  have hp : 2 ^ (hi + 1) = 2 ^ lo * 2 ^ (hi + 1 - lo) := by rw [← Nat.pow_add]; congr 1; omega
  rw [wset_toNat w _ hl hh, wget_mod, wget, bits, hp, ← Nat.div_div_eq_div_mul]
  generalize w.toNat = n
  calc n / 2 ^ lo / 2 ^ (hi + 1 - lo) * (2 ^ lo * 2 ^ (hi + 1 - lo)) + n / 2 ^ lo % 2 ^ (hi + 1 - lo) * 2 ^ lo + n % 2 ^ lo
      = 2 ^ lo * (2 ^ (hi + 1 - lo) * (n / 2 ^ lo / 2 ^ (hi + 1 - lo)) + n / 2 ^ lo % 2 ^ (hi + 1 - lo)) + n % 2 ^ lo := by ring
    _ = n := by rw [Nat.div_add_mod, Nat.div_add_mod]

/-! ### Fields that lie apart -/

/-- A field lies in a word. -/
abbrev FieldDesc.Inside (f : FieldDesc) : Prop := f.lo ≤ f.hi ∧ f.hi < 64

/-- Two fields share no bit. -/
abbrev FieldDesc.Apart (f g : FieldDesc) : Prop := f.hi < g.lo ∨ g.hi < f.lo

theorem FieldDesc.Apart.symm {f g : FieldDesc} (h : f.Apart g) : g.Apart f := Or.symm h

/-- The fields of a table row lie in a word and share no bit. -/
abbrev FieldsApart (fs : List FieldDesc) : Prop := (∀ f ∈ fs, f.Inside) ∧ fs.Pairwise FieldDesc.Apart

theorem regs_fieldsApart (b : Block) : ∀ d ∈ b.regs, FieldsApart d.fields := by
  cases b <;> decide +kernel

theorem regDescAt_fieldsApart {b : Block} {off : Nat} {d : RegDesc} (h : regDescAt b off = some d) : FieldsApart d.fields :=
  regs_fieldsApart b d (List.mem_of_find?_eq_some h)

/-- Two fields of a row are the same or share no bit. -/
theorem FieldsApart.eq_or_apart {fs : List FieldDesc} (h : FieldsApart fs) {f g : FieldDesc} (hf : f ∈ fs) (hg : g ∈ fs) : g = f ∨ g.Apart f := by
  by_cases e : g = f
  · exact .inl e
  · have : Std.Symm FieldDesc.Apart := ⟨fun _ _ => FieldDesc.Apart.symm⟩
    exact .inr (h.2.forall hg hf e)

theorem wget_wset_apart (w : Word) {f g : FieldDesc} (v : Nat) (hg : g.Inside) (h : g.Apart f) : wget (wset w g.hi g.lo v) f.hi f.lo = wget w f.hi f.lo :=
  h.elim (wget_wset_above w v hg.1 hg.2) (wget_wset_below w v hg.1 hg.2)

/-- The fields of a list set in turn, each to a value that may depend on what it holds. -/
def setFields (h : FieldDesc → Nat → Nat) (fs : List FieldDesc) (w : Word) : Word :=
  fs.foldl (fun w f => wset w f.hi f.lo (h f (wget w f.hi f.lo))) w

/-- A field that shares no bit with those that are set reads as before. -/
theorem wget_setFields_apart (h : FieldDesc → Nat → Nat) {f : FieldDesc} (fs : List FieldDesc) :
    ∀ w : Word, (∀ g ∈ fs, g.Inside ∧ g.Apart f) → wget (setFields h fs w) f.hi f.lo = wget w f.hi f.lo := by
  induction fs with
  | nil => intro w _; rfl
  | cons g fs ih =>
    intro w ha
    obtain ⟨hg, hgf⟩ := ha g (.head _)
    rw [setFields, List.foldl_cons]
    exact (ih _ fun k hk => ha k (.tail _ hk)).trans (wget_wset_apart w _ hg hgf)

/-- A field of the row reads as what it was set to. -/
theorem wget_setFields (h : FieldDesc → Nat → Nat) {f : FieldDesc} (fs : List FieldDesc) :
    ∀ w : Word, FieldsApart fs → f ∈ fs → wget (setFields h fs w) f.hi f.lo = h f (wget w f.hi f.lo) % 2 ^ (f.hi + 1 - f.lo) := by
  induction fs with
  | nil => intro w _ hf; cases hf
  | cons g fs ih =>
    intro w ⟨hin, hap⟩ hf
    obtain ⟨hg, hfs⟩ := List.pairwise_cons.mp hap
    rw [setFields, List.foldl_cons]
    rcases List.mem_cons.mp hf with rfl | hf
    · exact (wget_setFields_apart h fs _ fun k hk => ⟨hin k (.tail _ hk), (hg k hk).symm⟩).trans
        (wget_wset_self w _ (hin f (.head _)).1 (hin f (.head _)).2)
    · refine (ih _ ⟨fun k hk => hin k (.tail _ hk), hfs⟩ hf).trans ?_
      rw [wget_wset_apart w _ (hin g (.head _)) (hg f hf)]

/-- Fields set to what they hold. -/
theorem setFields_self (h : FieldDesc → Nat → Nat) (fs : List FieldDesc) (w : Word) (hin : ∀ f ∈ fs, f.Inside)
    (hs : ∀ f ∈ fs, h f (wget w f.hi f.lo) = wget w f.hi f.lo) : setFields h fs w = w := by
  induction fs with
  | nil => rfl
  | cons g fs ih =>
    rw [setFields, List.foldl_cons, hs g (.head _), wset_wget_self w (hin g (.head _)).1 (hin g (.head _)).2]
    exact ih (fun f hf => hin f (.tail _ hf)) fun f hf => hs f (.tail _ hf)

/-! ### A write of a register -/

/-- What a write of `v` leaves in a field that holds `x` (R11). -/
def stored (v : Word) (f : FieldDesc) (x : Nat) : Nat :=
  match f.acc with
  | .RW | .RWS => wget v f.hi f.lo
  | .W1C => x &&& (2 ^ (f.hi + 1 - f.lo) - 1 - wget v f.hi f.lo)
  | .RO | .WO => x

/-- `TFAULT` names no first fault once every bit of it is clear (R78, R83). -/
def clearFirst (b : Block) (off : Nat) (w : Word) : Word :=
  if b = .tile ∧ off = R.TFAULT ∧ wget w 13 0 = 0 then wset w 23 16 0 else w

theorem clearFirst_of {b : Block} {off : Nat} (h : ¬ (b = .tile ∧ off = R.TFAULT)) (w : Word) : clearFirst b off w = w :=
  if_neg fun g => h ⟨g.1, g.2.1⟩

theorem storeReg_of_desc {s : State} {a n off : Nat} {b : Block} {d : RegDesc} (v : Word) (hr : regionOf s.grade a = .reg b n off) (hd : regDescAt b off = some d) :
    storeReg s a v = s.setReg a (clearFirst b off (setFields (stored v) d.fields (s.reg a))) := by
  have hin := (regDescAt_fieldsApart hd).1
  simp only [storeReg, hr, hd]
  refine congrArg (fun w => s.setReg a (clearFirst b off w)) (List.foldl_ext _ _ _ fun w f hf => ?_)
  have hs := wset_wget_self w (hin f hf).1 (hin f hf).2
  obtain ⟨hi, lo, acc, r⟩ := f
  cases acc <;> simp [stored, hs]

/-- A write of a register changes that register alone. -/
theorem storeReg_onlyIn {s : State} {a n off : Nat} {b : Block} {d : RegDesc} (v : Word) (hr : regionOf s.grade a = .reg b n off) (hd : regDescAt b off = some d) :
    OnlyIn (fun x => x = a) (fun _ => False) s (storeReg s a v) := by
  rw [storeReg_of_desc v hr hd]
  exact ⟨rfl, fun x hx => by rw [State.reg_setReg, if_neg hx], fun _ _ => rfl⟩

/-- A W1C bit keeps a 1 only where the write is 0. -/
theorem testBit_stored_w1c {v : Word} {f : FieldDesc} {x i : Nat} (ha : f.acc = .W1C) (hl : f.lo ≤ i) (hh : i ≤ f.hi) :
    (stored v f x % 2 ^ (f.hi + 1 - f.lo)).testBit (i - f.lo) = (x.testBit (i - f.lo) && !bitOf v.toNat i) := by
  have hlt : i - f.lo < f.hi + 1 - f.lo := by omega
  rw [Nat.testBit_mod_two_pow, stored, ha, bitOf_eq_wget v hl hh, Nat.sub_sub, Nat.add_comm 1, Nat.testBit_and, Nat.testBit_two_pow_sub_succ (wget_lt v f.hi f.lo)]
  simp [hlt]

/-- What a field of a register reads as after a write, short of the first fault of `TFAULT`. -/
theorem wget_storeReg {s : State} {a n off : Nat} {b : Block} {d : RegDesc} {f : FieldDesc} (v : Word) (hr : regionOf s.grade a = .reg b n off)
    (hd : regDescAt b off = some d) (hf : f ∈ d.fields) (ht : ¬ (b = .tile ∧ off = R.TFAULT)) :
    wget ((storeReg s a v).reg a) f.hi f.lo = stored v f (wget (s.reg a) f.hi f.lo) % 2 ^ (f.hi + 1 - f.lo) := by
  rw [storeReg_of_desc v hr hd, State.reg_setReg, if_pos rfl, clearFirst_of ht, wget_setFields _ _ _ (regDescAt_fieldsApart hd) hf]

end Sys2Proof.Machine
end

section
/-!
SUPPORT. Where registers stand: the regions of package addresses (R15), and the registers of a tile at reset.
-/

namespace Sys2Proof.Machine

/-- A tile's register block, on a part of the full grade. -/
theorem regionOf_tile {t off : Nat} (ht : t < 2048) (ho : off < 0x1_0000) : regionOf .cg2048 (regAddr .tile t off) = .reg .tile t off := by
  have ha : regAddr .tile t off = 0xC0_0000_0000 + (0x1_0000 * t + off) := by simp only [regAddr]; omega
  have ht' : (0x1_0000 * t + off) / 0x1_0000 = t := by omega
  have ho' : (0xC0_0000_0000 + (0x1_0000 * t + off)) % 0x1_0000 = off := by omega
  have hp : populated .cg2048 t = true := by simpa [populated] using ht
  rw [ha, regionOf, if_neg (by omega), if_neg (by omega), if_pos (by omega)]
  simp only [Nat.add_sub_cancel_left, ht', hp, if_true, ho']

/-- What a register of a tile's block holds at reset. -/
theorem resetOf_tile {t off : Nat} (ht : t < 2048) (ho : off < 0x1_0000) :
    resetOf (regAddr .tile t off) = ((regDescAt .tile off).map RegDesc.reset).getD 0 := by
  rw [resetOf, regionOf_tile ht ho]

theorem reg_reset (a : Nat) : State.reset.reg a = resetOf a := rfl

/-- A field of a tile's register at reset. -/
theorem tf_reset {t : Nat} (ht : t < 2048) {f : Fld} (ho : f.off < 0x1_0000) :
    State.reset.tf t f = wget (((regDescAt .tile f.off).map RegDesc.reset).getD 0) f.hi f.lo := by
  rw [State.tf, State.fld, reg_reset, resetOf_tile ht ho]

/-- Every generation of a tile's barriers starts at 0xFF. -/
theorem reset_generations : ∀ c < 2, ∀ g < 48,
    wget (((regDescAt .tile (R.TBAR c g)).map RegDesc.reset).getD 0) 15 8 = 0xFF ∧ wget (((regDescAt .tile (R.TBAR c g)).map RegDesc.reset).getD 0) 23 16 = 0xFF := by
  decide +kernel

theorem tbar_lt {c g : Nat} (hc : c < 2) (hg : g < 48) : R.TBAR c g < 0x1_0000 := by
  simp only [R.TBAR]; omega

end Sys2Proof.Machine
end

section
/-!
SUPPORT. The machine as a whole. `Good` for every command and for a step: the case split over the commands that the invariants of the machine are read off. The state after
reset.
-/

namespace Sys2Proof.Machine

section
variable {s₀ s : State}

/-- Every command answers a next state, and that state is good. -/
theorem exec_good (h : Good s₀ s) : ∀ i : Instr, ∃ t, exec i s = .next t ∧ Good s₀ t
  | .sequencerFetch t par => execSequencerFetch_good h t par
  | .engineDispatch t e par => execEngineDispatch_good h t e par
  | .nop t f => execNop_good h t f
  | .salu t f => execSalu_good h t f
  | .salui t f => execSalui_good h t f
  | .smul t f => execSmul_good h t f
  | .sld t f => execSld_good h t f
  | .sst t f => execSst_good h t f
  | .aop t f => execAop_good h t f
  | .scmp t f => execScmp_good h t f
  | .br t f => execBr_good h t f
  | .brr t f => execBrr_good h t f
  | .loop t f => execLoop_good h t f
  | .csig t f => execCsig_good h t f
  | .cwait t f => execCwait_good h t f
  | .crd t f => execCrd_good h t f
  | .barr t f => execBarr_good h t f
  | .bwait t f => execBwait_good h t f
  | .send t f => execSend_good h t f
  | .sendInject t => execSendInject_good h t
  | .recv t f => execRecv_good h t f
  | .recvUnblock t => execRecvUnblock_good h t
  | .tryrecv t f => execTryrecv_good h t f
  | .qrel t f => execQrel_good h t f
  | .bopen t f => execBopen_good h t f
  | .wopen t f => execWopen_good h t f
  | .wclose t f => execWclose_good h t f
  | .ctx t f => execCtx_good h t f
  | .fence t f => execFence_good h t f
  | .soak t f => execSoak_good h t f
  | .trap t f => execTrap_good h t f
  | .halt t f => execHalt_good h t f
  | .dmal t f => execDmal_good h t f
  | .dmas t f => execDmas_good h t f
  | .dmar t f => execDmar_good h t f
  | .dmaw t f => execDmaw_good h t f
  | .dmax t f => execDmax_good h t f
  | .dmaxEntry t => execDmaxEntry_good h t
  | .dmaf t f => execDmaf_good h t f
  | .dmam t f => execDmam_good h t f
  | .dmaComplete t id => execDmaComplete_good h t id
  | .vld t f => execVld_good h t f
  | .vst t f => execVst_good h t f
  | .vldx t f => execVldx_good h t f
  | .vstx t f => execVstx_good h t f
  | .vop t f => execVop_good h t f
  | .vcmp t f => execVcmp_good h t f
  | .vred t f => execVred_good h t f
  | .vcvt t f => execVcvt_good h t f
  | .vmovx t f => execVmovx_good h t f
  | .amax t f => execAmax_good h t f
  | .cone t f => execCone_good h t f
  | .mgang t f => execMgang_good h t f
  | .mpanel t f => execMpanel_good h t f
  | .mpanelLoaded t => execMpanelLoaded_good h t
  | .mmul t f => execMmul_good h t f
  | .mmulComplete t sub => execMmulComplete_good h t sub
  | .mpred t f => execMpred_good h t f
  | .mpredFinalMark t sub => execMpredFinalMark_good h t sub
  | .mdrain t f => execMdrain_good h t f
  | .mdrainComplete t => execMdrainComplete_good h t
  | .gateDeadlineExpiry t => execGateDeadlineExpiry_good h t
  | .batchComplete t => execBatchComplete_good h t
  | .ssort t f => execSsort_good h t f
  | .smerge t f => execSmerge_good h t f
  | .sinter t f => execSinter_good h t f
  | .shash t f => execShash_good h t f
  | .sgather t f => execSgather_good h t f
  | .sscatter t f => execSscatter_good h t f
  | .setOpComplete t => execSetOpComplete_good h t
  | .engineCheckFail t e => execEngineCheckFail_good h t e
  | .wakeComplete t => execWakeComplete_good h t
  | .soakHoldEnd t => execSoakHoldEnd_good h t
  | .rampDownStep t => execRampDownStep_good h t
  | .rampDownEnd t => execRampDownEnd_good h t
  | .rampUpStep t => execRampUpStep_good h t
  | .governorGrant t => execGovernorGrant_good h t
  | .watchdogExpiry t => execWatchdogExpiry_good h t
  | .holdTakesEffect t => execHoldTakesEffect_good h t
  | .stalledSignalApply t => execStalledSignalApply_good h t
  | .stalledSignalFault t => execStalledSignalFault_good h t
  | .gatherBufferIdleDrain t => execGatherBufferIdleDrain_good h t
  | .remoteWritePacket t pkt => execRemoteWritePacket_good h t pkt
  | .heldPacketRecheck t => execHeldPacketRecheck_good h t
  | .wicketCloseComplete t => execWicketCloseComplete_good h t
  | .remoteReadRequest t rq par => execRemoteReadRequest_good h t rq par
  | .mergeWindowExpiry t row => execMergeWindowExpiry_good h t row
  | .remoteReadResponse t tag status data => execRemoteReadResponse_good h t tag status data
  | .transferAnswer t tag status => execTransferAnswer_good h t tag status
  | .bankGroupPowered t g => execBankGroupPowered_good h t g
  | .bankGroupZeroFillEnd t g => execBankGroupZeroFillEnd_good h t g
  | .taskEnd t c => execTaskEnd_good h t c
  | .descriptorArrival t m => execDescriptorArrival_good h t m
  | .creditReturnTimer t q => execCreditReturnTimer_good h t q
  | .creditReturn t ch slots units => execCreditReturn_good h t ch slots units
  | .basinContribution t m => execBasinContribution_good h t m
  | .basinZeroComplete t q b => execBasinZeroComplete_good h t q b
  | .basinBucketComplete t q b => execBasinBucketComplete_good h t q b
  | .barrierArrivalSend t => execBarrierArrivalSend_good h t
  | .dieBarrierArrival die g gen => execDieBarrierArrival_good h die g gen
  | .packageBarrierArrival die g gen => execPackageBarrierArrival_good h die g gen
  | .barrierRelease t c g gen => execBarrierRelease_good h t c g gen
  | .packetHop die row col pkt => execPacketHop_good h die row col pkt
  | .cplFrameReceive die link fr => execCplFrameReceive_good h die link fr
  | .cplNak die link ack => execCplNak_good h die link ack
  | .cplAckTimeout die link => execCplAckTimeout_good h die link
  | .cplControlTimer die link => execCplControlTimer_good h die link
  | .ucieRetrain die link => execUcieRetrain_good h die link
  | .ucieRetrainTimeout die link => execUcieRetrainTimeout_good h die link
  | .linkTrainingTimeout die link => execLinkTrainingTimeout_good h die link
  | .capabilityRecord die link rec => execCapabilityRecord_good h die link rec
  | .capabilityTimeout die link => execCapabilityTimeout_good h die link
  | .dieLinkDown die link => execDieLinkDown_good h die link
  | .routerFault die row col => execRouterFault_good h die row col
  | .routeSetSwitch die => execRouteSetSwitch_good h die
  | .hbmReadRequest q oc => execHbmReadRequest_good h q oc
  | .hbmWriteRequest q => execHbmWriteRequest_good h q
  | .twinBlockReturn stack addr data => execTwinBlockReturn_good h stack addr data
  | .pageRetirementComplete stack => execPageRetirementComplete_good h stack
  | .protectedPageStaged stack => execProtectedPageStaged_good h stack
  | .stackTemperaturePoll stack temp => execStackTemperaturePoll_good h stack temp
  | .stackLost stack => execStackLost_good h stack
  | .stackZeroFillComplete stack => execStackZeroFillComplete_good h stack
  | .uugateWrite stack v => execUugateWrite_good h stack v
  | .uuCommitEnd stack => execUuCommitEnd_good h stack
  | .uuStop stack => execUuStop_good h stack
  | .cxtWrite p => execCxtWrite_good h p
  | .cxtJwrite p => execCxtJwrite_good h p
  | .cxtSend p => execCxtSend_good h p
  | .cxtRead p => execCxtRead_good h p
  | .cxtRdata p => execCxtRdata_good h p
  | .cxtBarrier p => execCxtBarrier_good h p
  | .cxtAck p => execCxtAck_good h p
  | .cxtGrant p => execCxtGrant_good h p
  | .cxtHeartbeat p => execCxtHeartbeat_good h p
  | .aliasUpdate p => execAliasUpdate_good h p
  | .queueEpochNotice p => execQueueEpochNotice_good h p
  | .portNotice p => execPortNotice_good h p
  | .failureNotice p => execFailureNotice_good h p
  | .replacedNotice p => execReplacedNotice_good h p
  | .abort p => execAbort_good h p
  | .abortReport p => execAbortReport_good h p
  | .releaseRecord p => execReleaseRecord_good h p
  | .layoutEpoch p => execLayoutEpoch_good h p
  | .ctrlCreditReturn p => execCtrlCreditReturn_good h p
  | .deviceCertificate p => execDeviceCertificate_good h p
  | .cxtRetransmitTimeout port peer path => execCxtRetransmitTimeout_good h port peer path
  | .portLinkDown port => execPortLinkDown_good h port
  | .portRetrain port ok => execPortRetrain_good h port ok
  | .normGroupComplete g => execNormGroupComplete_good h g
  | .reshardApply => execReshardApply_good h
  | .heartbeatPeriod => execHeartbeatPeriod_good h
  | .probeTimeout => execProbeTimeout_good h
  | .copierPageSend stack => execCopierPageSend_good h stack
  | .generationComplete stack => execGenerationComplete_good h stack
  | .tileHoldTimeout t => execTileHoldTimeout_good h t
  | .spareAnswerTimeout => execSpareAnswerTimeout_good h
  | .statePullComplete ok => execStatePullComplete_good h ok
  | .journalReplay => execJournalReplay_good h
  | .restart => execRestart_good h
  | .hostLost => execHostLost_good h
  | .vaonInRange => execVaonInRange_good h
  | .porstNRelease trst refclk => execPorstNRelease_good h trst refclk
  | .porstNAssert => execPorstNAssert_good h
  | .lodgeFirmwareVerify => execLodgeFirmwareVerify_good h
  | .pvXPowerOn => execPvXPowerOn_good h
  | .gatehouseBoot => execGatehouseBoot_good h
  | .hdPowerUp => execHdPowerUp_good h
  | .hostPortTrained => execHostPortTrained_good h
  | .bootStageFail => execBootStageFail_good h
  | .leaseRenewRequest gh => execLeaseRenewRequest_good h gh
  | .leaseRequest gh => execLeaseRequest_good h gh
  | .leaseRelease => execLeaseRelease_good h
  | .leaseTermExpiry => execLeaseTermExpiry_good h
  | .holderRenewalLapse => execHolderRenewalLapse_good h
  | .lodgeKeepalive => execLodgeKeepalive_good h
  | .keepaliveMissed die => execKeepaliveMissed_good h die
  | .arbiterFault => execArbiterFault_good h
  | .gatehouseFailstop gh => execGatehouseFailstop_good h gh
  | .commandWrite gh epoch addr value => execCommandWrite_good h gh epoch addr value
  | .commandMaskedWrite gh epoch addr value mask => execCommandMaskedWrite_good h gh epoch addr value mask
  | .commandCopy gh epoch src dst len => execCommandCopy_good h gh epoch src dst len
  | .staleCommand gh => execStaleCommand_good h gh
  | .dresetGo die => execDresetGo_good h die
  | .dieReset die => execDieReset_good h die
  | .tctlStart t => execTctlStart_good h t
  | .tctlHold t on => execTctlHold_good h t on
  | .tctlFence t => execTctlFence_good h t
  | .tctlReset t => execTctlReset_good h t
  | .nsclrSlot t mask => execNsclrSlot_good h t mask
  | .nsclrCone t => execNsclrCone_good h t
  | .rsctlArm die => execRsctlArm_good h die
  | .dleaseHeldClear die => execDleaseHeldClear_good h die
  | .conetagWrite t v => execConetagWrite_good h t v
  | .twcopyEnWrite stack en => execTwcopyEnWrite_good h stack en
  | .cxepochAliasWrite ld v => execCxepochAliasWrite_good h ld v
  | .cxcfgEnWrite ld v => execCxcfgEnWrite_good h ld v
  | .registerWrite addr v => execRegisterWrite_good h addr v
  | .powerGoodVincFall g => execPowerGoodVincFall_good h g
  | .powerGoodVinxFall => execPowerGoodVinxFall_good h
  | .pgVhbmFall => execPgVhbmFall_good h
  | .powerGoodTimeout => execPowerGoodTimeout_good h
  | .functionStartingEnd fn => execFunctionStartingEnd_good h fn
  | .functionStoppingEnd fn => execFunctionStoppingEnd_good h fn
  | .functionStartFail fn => execFunctionStartFail_good h fn
  | .damperPeriod die => execDamperPeriod_good h die
  | .packageDamperPeriod => execPackageDamperPeriod_good h
  | .packagePowerSample watts => execPackagePowerSample_good h watts
  | .tileLend t => execTileLend_good h t
  | .thermalRead temps => execThermalRead_good h temps
  | .thermalHold die => execThermalHold_good h die
  | .imageCopyLoad => execImageCopyLoad_good h
  | .claim pk tag => execClaim_good h pk tag
  | .power pk tag target => execPower_good h pk tag target
  | .imageLoad pk tag addr len => execImageLoad_good h pk tag addr len
  | .start pk tag => execStart_good h pk tag
  | .hold pk tag => execHold_good h pk tag
  | .resume pk tag => execResume_good h pk tag
  | .stateReadRegisters pk tag addr count => execStateReadRegisters_good h pk tag addr count
  | .stateReadLodgeStatus pk tag => execStateReadLodgeStatus_good h pk tag
  | .logRead pk tag part from_ count => execLogRead_good h pk tag part from_ count
  | .logClear pk tag auth => execLogClear_good h pk tag auth
  | .fwUpdate pk tag addr len => execFwUpdate_good h pk tag addr len
  | .attest pk tag nonce => execAttest_good h pk tag nonce
  | .aliasTable pk tag addr first count => execAliasTable_good h pk tag addr first count
  | .aliasOwnNumbers pk tag dev station => execAliasOwnNumbers_good h pk tag dev station
  | .aliasPair pk tag partner spare0 spare1 pairEn hbEn cert => execAliasPair_good h pk tag partner spare0 spare1 pairEn hbEn cert
  | .dataReady pk tag st => execDataReady_good h pk tag st
  | .predEn pk tag slot en => execPredEn_good h pk tag slot en
  | .checkpoint pk tag => execCheckpoint_good h pk tag
  | .reshard pk tag addr len layout => execReshard_good h pk tag addr len layout
  | .streamOpen pk tag dir addr len => execStreamOpen_good h pk tag dir addr len
  | .streamClose pk tag n => execStreamClose_good h pk tag n
  | .takeoverCommand pk tag dev => execTakeoverCommand_good h pk tag dev
  | .configRead pk tag => execConfigRead_good h pk tag
  | .configSetPtpDomain pk tag dom => execConfigSetPtpDomain_good h pk tag dom
  | .close pk tag => execClose_good h pk tag
  | .hello hs body => execHello_good h hs body
  | .finish hs body => execFinish_good h hs body
  | .handshakeTimeout hs => execHandshakeTimeout_good h hs
  | .chpHeartbeat pk => execChpHeartbeat_good h pk
  | .sessionTimeout sid => execSessionTimeout_good h sid
  | .bulkData pk stream off data => execBulkData_good h pk stream off data
  | .bulkCredit pk stream units contig => execBulkCredit_good h pk stream units contig
  | .ptpMessage master domain offset => execPtpMessage_good h master domain offset
  | .ptpMasterTimeout => execPtpMasterTimeout_good h
  | .logSubmission => execLogSubmission_good h
  | .logWindowExpiry code => execLogWindowExpiry_good h code
  | .attestTokenRefill => execAttestTokenRefill_good h
  | .selfTestFail test => execSelfTestFail_good h test
  | .pmbusPoll dev status pout ok => execPmbusPoll_good h dev status pout ok
  | .pmbAlert dev status => execPmbAlert_good h dev status
  | .pmbusRetry dev ok => execPmbusRetry_good h dev ok
  | .crystalTimeout => execCrystalTimeout_good h
  | .extest v => execExtest_good h v
  | .idcode => execIdcode_good h
  | .samplePreload v => execSamplePreload_good h v
  | .clamp => execClamp_good h
  | .highz => execHighz_good h
  | .extestPulse v => execExtestPulse_good h v
  | .extestTrain v => execExtestTrain_good h v
  | .alertcause => execAlertcause_good h
  | .bypass => execBypass_good h
  | .vaonLost => execVaonLost_good h
  | .powerGoodRise inp => execPowerGoodRise_good h inp
  | .refclkAonArrival => execRefclkAonArrival_good h
  | .ucieTrainingComplete die link => execUcieTrainingComplete_good h die link
  | .directModeLinkReplay port progress => execDirectModeLinkReplay_good h port progress
  | .priorityFlowControlFrame port prio pause => execPriorityFlowControlFrame_good h port prio pause
  | .twinBlockRequest stack addr st => execTwinBlockRequest_good h stack addr st
  | .spareChosen dev twin => execSpareChosen_good h dev twin
  | .coneComplete t => execConeComplete_good h t

/-- A state in which a command has been taken off the queue is good in respect of itself, and what a step answers is good in respect of it. -/
theorem step_good {t : State} (h : step s = .next t) : Good { s with pending := s.pending.tail } t := by
  unfold step at h
  split at h
  case h_1 hp =>
    cases h
    have hs : { s with pending := s.pending.tail } = s := by cases s; simp_all
    rw [hs]
    exact tick_good (Good.refl s)
  case h_2 c rest hp =>
    obtain ⟨u, hu, hg⟩ := exec_good (Good.refl { s with pending := rest }) c
    cases hu.symm.trans h
    rw [hp]
    exact hg

end

/-- Settles O58, from the case split over the commands. -/
theorem everyCommandCompletes : Obligations.EveryCommandCompletes := by
  intro c s
  obtain ⟨t, ht, -, -, hp, -⟩ := exec_good (Good.refl s) c
  exact ⟨t, ht, hp⟩

/-- Settles O59: the canonical form is one of the things that `Good` keeps. -/
theorem stepKeepsCanon : Obligations.StepKeepsCanon := fun _ _ hc h => (step_good h).1 hc

/-- Settles O55: every register reads its table's reset value, of which the tiles' states and barriers are read off. -/
theorem resetState : Obligations.ResetState := by
  refine ⟨⟨rfl, rfl, rfl⟩, rfl, fun _ => rfl, fun _ => rfl, rfl, rfl, rfl, rfl, rfl, fun t ht => ?_, fun t c g ht hc hg => ?_⟩
  · have hst : State.reset.tstate t = asleep := tf_reset (f := R.TSTAT_STATE) ht (by decide)
    have hgs : State.reset.tf t R.SPGSTATE_G = 0 := tf_reset ht (by decide)
    exact ⟨rfl, hst, rfl, rfl, by rw [groupState, hgs]; rfl⟩
  · obtain ⟨ha, hd⟩ := reset_generations c hc g hg
    exact ⟨(tf_reset (f := R.TBAR_ARRGEN c g) ht (tbar_lt hc hg)).trans ha, (tf_reset (f := R.TBAR_DONEGEN c g) ht (tbar_lt hc hg)).trans hd⟩

end Sys2Proof.Machine
end

section
/-!
SUPPORT. The access types of registers (R11), and the clearing of a tile's faults (R78, R83).
-/

namespace Sys2Proof.Machine

theorem bitOf_eq_one_bit (w : Word) (i : Nat) : bitOf w.toNat i = (wget w i i).testBit 0 := by
  rw [bitOf_eq_wget w (le_refl i) (le_refl i), Nat.sub_self]

/-- The first fault is no fault bit: clearing it changes none. -/
theorem bitOf_clearFirst (b : Block) (off : Nat) (w : Word) {i : Nat} (hi : i < 14) : bitOf (clearFirst b off w).toNat i = bitOf w.toNat i := by
  rw [clearFirst]
  split
  · rw [bitOf_eq_one_bit, bitOf_eq_one_bit, wget_wset_below w 0 (by decide) (by decide) (by omega)]
  · rfl

/-- No first fault is named where no fault bit is set. -/
theorem first_clearFirst (w : Word) (h : wget (clearFirst .tile R.TFAULT w) 13 0 = 0) : wget (clearFirst .tile R.TFAULT w) 23 16 = 0 := by
  by_cases hw : wget w 13 0 = 0
  · rw [clearFirst, if_pos ⟨rfl, rfl, hw⟩]
    exact wget_wset_self w 0 (by decide) (by decide)
  · rw [clearFirst, if_neg fun g => hw g.2.2] at h
    exact absurd h hw

/-- Bits 0 to 13 of `TFAULT` are one W1C field each (R83). -/
theorem tfault_fields : ∃ d, regDescAt .tile R.TFAULT = some d ∧ ∀ i < 14, (⟨i, i, .W1C, 0⟩ : FieldDesc) ∈ d.fields := ⟨_, rfl, by decide⟩

/-- Settles O57: the fields of a table row lie apart, so that each holds what the write stores in it. -/
theorem registerAccess : Obligations.RegisterAccess := by
  refine ⟨fun b off d hd f hf => ?_, fun s a off n v b d f hr hd hf => ⟨fun ht => ⟨fun ha => ?_, fun ha => ?_, fun ha i hl hh => ?_⟩, storeReg_onlyIn v hr hd⟩,
    fun s t v ht hg => ?_⟩
  · have h := regDescAt_fieldsApart hd
    obtain ⟨hl, hh⟩ := h.1 f hf
    refine ⟨hl, hh, fun g hg => ?_⟩
    exact h.eq_or_apart hf hg
  · rw [wget_storeReg v hr hd hf ht]
    rcases ha with ha | ha <;> rw [stored, ha] <;> exact wget_mod v f.hi f.lo
  · rw [wget_storeReg v hr hd hf ht]
    rcases ha with ha | ha <;> rw [stored, ha] <;> exact wget_mod _ f.hi f.lo
  · rw [bitOf_eq_wget _ hl hh, wget_storeReg v hr hd hf ht, testBit_stored_w1c ha hl hh, ← bitOf_eq_wget _ hl hh]
  · obtain ⟨d, hd, hfs⟩ := tfault_fields
    have hr : regionOf s.grade (regAddr .tile t R.TFAULT) = .reg .tile t R.TFAULT := by rw [hg]; exact regionOf_tile ht (by decide)
    simp only [storeReg_of_desc v hr hd, State.reg_setReg, if_true]
    refine ⟨fun i hi => ?_, first_clearFirst _⟩
    have hi' : i ≤ i := le_refl i
    rw [bitOf_clearFirst _ _ _ hi, bitOf_eq_wget _ hi' hi', wget_setFields (stored v) _ _ (regDescAt_fieldsApart hd) (hfs i hi),
      testBit_stored_w1c (f := ⟨i, i, .W1C, 0⟩) rfl hi' hi', ← bitOf_eq_wget _ hi' hi']

end Sys2Proof.Machine
end

section
/-!
SUPPORT. What an induction over a list of updates gives, and the registers of a die's block.
-/

namespace Sys2Proof.Machine

/-- What every update of a list leaves alone. -/
theorem foldl_keeps {α β : Type} (g : State → β) {f : State → α → State} (l : List α) (hf : ∀ s, ∀ x ∈ l, g (f s x) = g s) : ∀ s, g (l.foldl f s) = g s := by
  induction l with
  | nil => intro s; rfl
  | cons a l ih => intro s; exact (ih (fun s x hx => hf s x (.tail _ hx)) _).trans (hf s a (.head _))

/-- What one update of a list brings about and the others keep. -/
theorem foldl_reaches {α : Type} {P : State → Prop} {f : State → α → State} {a : α} (hset : ∀ s, P (f s a)) (hkeep : ∀ s x, P s → P (f s x)) (l : List α) :
    a ∈ l → ∀ s, P (l.foldl f s) := by
  induction l with
  | nil => intro ha; cases ha
  | cons b l ih =>
    intro ha s
    by_cases hl : a ∈ l
    · exact ih hl _
    · rcases List.mem_cons.mp ha with rfl | h
      · exact List.foldlRecOn l f (hset s) fun s hs x _ => hkeep s x hs
      · exact absurd h hl

/-- Two registers of one block share an address only if they are the same register. -/
theorem blockAddr_ne (b : Block) (n : Nat) {x y : Nat} (h : x ≠ y) : regAddr b n x ≠ regAddr b n y := by
  cases b <;> simp only [regAddr] <;> omega

theorem fld_setFld_off {s : State} {b : Block} {n : Nat} {f g : Fld} (v : Nat) (h : g.off ≠ f.off) : (s.setFld b n f v).fld b n g = s.fld b n g :=
  State.fld_setFld_ne s v (blockAddr_ne b n h)

end Sys2Proof.Machine
end

section
/-!
SUPPORT. Command records (R522–R525) and register writes (R11): what a port answers, and what a write of bits leaves alone.
-/

namespace Sys2Proof.Machine

/-! ### Records at a command port -/

/-- A gatehouse that issues commands: it is up, has had no STALE, and its own lease time has not lapsed (R519, R527). -/
structure MayIssue (s : State) (gh : Nat) : Prop where
  up : s.ghUp.contains gh = true
  fresh : s.lodge.stale.contains gh = false
  leads : ¬ (s.lodge.lapse = true ∧ s.lodge.holder = some gh)

/-- The epoch of a record has passed at a port (R524). -/
abbrev RecordLate (s : State) (port gh epoch : Nat) : Prop :=
  epoch < s.lf port R.DLEASE_EPOCH ∨ (epoch = s.lf port R.DLEASE_EPOCH ∧ s.lf port R.DLEASE_HOLDER ≠ gh)

/-- The port's epoch and status after a record. -/
def recordDone (port gh epoch : Nat) (s : State) (st : Nat) : State :=
  (s.setFld (leaseBlock port).1 (leaseBlock port).2 (R.DCMDST_EPOCH gh) epoch).setFld (leaseBlock port).1 (leaseBlock port).2 (R.DCMDST_STATUS gh) st

/-- The lease that a port takes from a record of a later epoch. -/
def recordTaken (port gh epoch : Nat) (s : State) : State :=
  if epoch > s.lf port R.DLEASE_EPOCH then ((s.setLf port R.DLEASE_EPOCH epoch).setLf port R.DLEASE_HOLDER gh).setLf port R.DLEASE_VALID 1 else s

@[simp] theorem recordDone_grade (port gh epoch : Nat) (s : State) (st : Nat) : (recordDone port gh epoch s st).grade = s.grade := rfl

@[simp] theorem recordTaken_grade (port gh epoch : Nat) (s : State) : (recordTaken port gh epoch s).grade = s.grade := by
  rw [recordTaken]; split <;> rfl

section
variable {s : State} {port gh epoch : Nat} {ok : Bool} {eff : State → State}

theorem record_silent (h : s.ghUp.contains gh = false ∨ s.lodge.stale.contains gh = true ∨ (s.lodge.lapse = true ∧ s.lodge.holder = some gh)) :
    record s port gh epoch ok eff = s := if_pos (by simpa using h)

/-- The checks of a record of a gatehouse that issues commands (R524). -/
theorem record_issued (h : MayIssue s gh) : record s port gh epoch ok eff =
    if epoch < s.lf port R.DLEASE_EPOCH ∨ (epoch = s.lf port R.DLEASE_EPOCH ∧ s.lf port R.DLEASE_HOLDER ≠ gh) then recordDone port gh epoch s 1
    else if !ok then recordDone port gh epoch (recordTaken port gh epoch s) 2 else eff (recordDone port gh epoch (recordTaken port gh epoch s) 0) := by
  obtain ⟨hup, hst, hl⟩ := h
  exact if_neg (by simp only [hup, hst, Bool.not_true, Bool.false_eq_true, false_or]; exact hl)

theorem record_late (h : MayIssue s gh) (hl : RecordLate s port gh epoch) : record s port gh epoch ok eff = recordDone port gh epoch s 1 := by
  rw [record_issued h, if_pos hl]

theorem record_refused (h : MayIssue s gh) (hl : ¬ RecordLate s port gh epoch) (ho : ok = false) :
    record s port gh epoch ok eff = recordDone port gh epoch (recordTaken port gh epoch s) 2 := by
  rw [record_issued h, if_neg hl, ho]; rfl

theorem record_runs (h : MayIssue s gh) (hl : ¬ RecordLate s port gh epoch) (ho : ok = true) :
    record s port gh epoch ok eff = eff (recordDone port gh epoch (recordTaken port gh epoch s) 0) := by
  rw [record_issued h, if_neg hl, ho]; rfl

end

/-! ### What a record writes -/

theorem writeWord_spad {s : State} {a t o : Nat} (h : regionOf s.grade a = .spad t o) (v : Word) : writeWord a v s = putSpad s t a (toBytes v.toNat 8) := by
  simp only [writeWord, h]

theorem writeWord_other {s : State} {a : Nat} (h : ∀ t o, regionOf s.grade a ≠ .spad t o) (v : Word) : writeWord a v s = writeReg s a v ones := by
  unfold writeWord
  split
  · exact absurd ‹_› (h _ _)
  · rfl

theorem maskWord_spad {s : State} {a t o : Nat} (h : regionOf s.grade a = .spad t o) (v m : Word) :
    maskWord a v m s = putSpad s t a (toBytes (((BitVec.ofNat 64 (ofBytes (s.rd a 8))) &&& ~~~m) ||| (v &&& m)).toNat 8) := by
  simp only [maskWord, h]

theorem maskWord_other {s : State} {a : Nat} (h : ∀ t o, regionOf s.grade a ≠ .spad t o) (v m : Word) : maskWord a v m s = writeReg s a v m := by
  unfold maskWord
  split
  · exact absurd ‹_› (h _ _)
  · rfl

/-- Bytes put into a scratchpad change memory and the tile's merge entries alone. -/
theorem putSpad_frame (s : State) (t a : Nat) (bs : List Byte) :
    (∀ x, (putSpad s t a bs).byte x = (s.wr a bs).byte x) ∧ (∀ x, (putSpad s t a bs).reg x = s.reg x) ∧ ∀ k, k ≠ t → (putSpad s t a bs).tile k = s.tile k := by
  refine ⟨fun x => ?_, fun x => ?_, fun k hk => ?_⟩
  · exact foldl_keeps (fun u => u.byte x) _ (fun u i _ => State.byte_modTile u _ _ x) _
  · exact (foldl_keeps (fun u => u.reg x) _ (fun u i _ => State.reg_modTile u _ _ x) _).trans (State.reg_wr bs s a x)
  · exact (foldl_keeps (fun u => u.tile k) _ (fun u i _ => by rw [State.tile_modTile, if_neg hk]) _).trans (State.tile_wr bs s a k)

/-! ### A write of some bits -/

/-- The word that a masked write stores: a W1C field takes what is written under the mask, another keeps its bits where the mask is 0 (R523). -/
def maskedField (old v m : Word) (f : FieldDesc) (_ : Nat) : Nat :=
  match f.acc with
  | .W1C => wget (v &&& m) f.hi f.lo
  | _ => wget ((old &&& ~~~m) ||| (v &&& m)) f.hi f.lo

theorem storeMasked_of_desc {s : State} {a n off : Nat} {b : Block} {d : RegDesc} (v m : Word) (hr : regionOf s.grade a = .reg b n off)
    (hd : regDescAt b off = some d) : storeMasked s a v m = storeReg s a (setFields (maskedField (s.reg a) v m) d.fields 0) := by
  simp only [storeMasked, hr, hd]
  refine congrArg (storeReg s a) (List.foldl_ext _ _ _ fun w f _ => ?_)
  obtain ⟨hi, lo, acc, r⟩ := f
  cases acc <;> rfl

/-- A write of no bits stores in each field what it holds. -/
theorem stored_masked_zero {old v : Word} {fs : List FieldDesc} (h : FieldsApart fs) {f : FieldDesc} (hf : f ∈ fs) :
    stored (setFields (maskedField old v 0) fs 0) f (wget old f.hi f.lo) = wget old f.hi f.lo := by
  have hw := wget_setFields (maskedField old v 0) fs 0 h hf
  have h0 : wget (0 : Word) f.hi f.lo = 0 := by simp [wget, bits]
  have hall : old &&& ~~~(0 : Word) ||| 0 = old := by
    rw [show ~~~(0 : Word) = BitVec.allOnes 64 from rfl, BitVec.and_allOnes]; exact BitVec.or_zero
  have hnone : v &&& 0 = 0 := by simp
  unfold stored
  cases ha : f.acc <;> simp only [maskedField, ha, hall, hnone, wget_mod, h0, Nat.zero_mod] at hw ⊢ <;> rw [hw]
  rw [Nat.sub_zero, Nat.and_two_pow_sub_one_eq_mod, wget_mod]

/-- A write of no bits changes no register but `TFAULT`, whose first fault it may clear. -/
theorem storeMasked_zero {s : State} {a n off : Nat} {b : Block} (v : Word) (hr : regionOf s.grade a = .reg b n off) (ht : ¬ (b = .tile ∧ off = R.TFAULT)) (x : Nat) :
    (storeMasked s a v 0).reg x = s.reg x := by
  cases hd : regDescAt b off with
  | none => simp only [storeMasked, hr, hd]
  | some d =>
    have hap := regDescAt_fieldsApart hd
    rw [storeMasked_of_desc v 0 hr hd, storeReg_of_desc _ hr hd, clearFirst_of ht, setFields_self _ _ _ hap.1 fun f hf => stored_masked_zero hap hf]
    by_cases hx : x = a <;> simp [hx]

/-- The tile registers whose write has no effect but what is stored. -/
abbrev PlainTileReg (off : Nat) : Prop := off ≠ R.TCTL ∧ off ≠ R.NSCLR ∧ off ≠ R.CONETAG 0 ∧ off ≠ R.CONETAG 1

theorem writeReg_tile {s : State} {t off a : Nat} (v m : Word) (hr : regionOf s.grade a = .reg .tile t off) : writeReg s a v m = writeTileReg s t off a v m := by
  simp only [writeReg, hr]

theorem writeTileReg_plain {s : State} {t off a : Nat} (v m : Word) (h : PlainTileReg off) :
    writeTileReg s t off a v m = routeOpens (storeMasked s a v (m &&& writableBits s t off)) t off := by
  obtain ⟨h1, h2, h3, h4⟩ := h
  simp only [writeTileReg, h1, h2, h3, h4, if_false, or_self]

/-- The registers that are written only while the tile is asleep are plain, none of them is a route's, and `TFAULT` is not among them. -/
theorem sleepOnly_plain {off : Nat} (h : sleepOnly off = true) : PlainTileReg off ∧ off ≠ R.TFAULT ∧ ¬ (0x4800 ≤ off ∧ off < 0x4A00) := by
  have hne : ∀ k, sleepOnly k = false → off ≠ k := fun k hk e => by rw [e, hk] at h; cases h
  refine ⟨⟨hne _ (by decide), hne _ (by decide), hne _ (by decide), hne _ (by decide)⟩, hne _ (by decide), fun ⟨hl, hh⟩ => ?_⟩
  simp [sleepOnly, R.TPROG, R.SPCFG, R.SOAKCFG, R.MGANG, R.NSEED, R.CONECFG] at h
  omega

/-- R85, R124, R213: a register that is written only while the tile is asleep keeps its value at other times. -/
theorem writeReg_sleepOnly {s : State} {t off a : Nat} (v m : Word) (hs : s.tstate t ≠ asleep) (ho : sleepOnly off = true) (hr : regionOf s.grade a = .reg .tile t off) (x : Nat) :
    (writeReg s a v m).reg x = s.reg x := by
  obtain ⟨hp, hf, hc⟩ := sleepOnly_plain ho
  have hw : m &&& writableBits s t off = 0 := by rw [writableBits, if_neg hs, if_pos ho]; exact BitVec.and_zero
  rw [writeReg_tile v m hr, writeTileReg_plain v m hp, hw, routeOpens, if_neg hc]
  exact storeMasked_zero v hr (fun h => hf h.2) x

/-- The registers of the channels' routes (R279). -/
theorem route_offset {n : Nat} (hn : n < 64) : 0x4800 ≤ R.CHROUTE n ∧ R.CHROUTE n < 0x4A00 := by
  simp only [R.CHROUTE]; omega

theorem route_plain {n : Nat} (hn : n < 64) : PlainTileReg (R.CHROUTE n) := by
  obtain ⟨hl, hh⟩ := route_offset hn
  simp only [PlainTileReg, R.TCTL, R.NSCLR, R.CONETAG]
  omega

theorem routeOpens_route (s : State) (t : Nat) {n : Nat} (hn : n < 64) : routeOpens s t (R.CHROUTE n) = s.setTf t (R.CHROUTE_CLOSED n) 0 := by
  have hi : (R.CHROUTE n - 0x4800) / 8 = n := by simp only [R.CHROUTE]; omega
  rw [routeOpens, if_pos (route_offset hn), hi]

/-- R261, R279: a route that is rewritten opens. -/
theorem writeReg_route_opens {s : State} {t n : Nat} (v : Word) (ht : t < 2048) (hn : n < 64) (hg : s.grade = .cg2048) :
    (writeReg s (regAddr .tile t (R.CHROUTE n)) v ones).tf t (R.CHROUTE_CLOSED n) = 0 := by
  have hr : regionOf s.grade (regAddr .tile t (R.CHROUTE n)) = .reg .tile t (R.CHROUTE n) := by
    rw [hg]; exact regionOf_tile ht (by have := route_offset hn; omega)
  rw [writeReg_tile v _ hr, writeTileReg_plain v _ (route_plain hn), routeOpens_route _ t hn, tf_setTf_self 0 (le_refl 49) (by decide : 49 < 64), Nat.zero_mod]

end Sys2Proof.Machine
end

section
/-!
SUPPORT. Die reset (R526): what each part of it leaves alone, and the settling of the command records.
-/

namespace Sys2Proof.Machine

/-! ### The reports that a die holds enter its control queue -/

/-- A report changes the slot at the tail of its queue and the queue's pointers alone. -/
theorem reg_putReport {s : State} {base ptr slots x : Nat} {r : List Word} (hp : x ≠ ptr) (hb : x < base) : (putReport s base ptr slots r).reg x = s.reg x := by
  simp only [putReport, State.reg_setReg, if_neg hp]
  exact foldl_keeps (fun u => u.reg x) _ (fun u w _ => by rw [State.reg_setReg, if_neg (by omega)]) s

/-- A register of the die below its control queue reads as before. -/
theorem fld_feedDie {d : Nat} {f : Fld} (hf : f.off < 0x6000) (k : Nat) : ∀ s : State, (feedDie s d k).fld .die d f = s.fld .die d f := by
  induction k with
  | zero => intro s; rfl
  | succ k ih =>
    intro s
    rw [feedDie]
    split
    · rfl
    · split
      · rfl
      · rw [ih, State.fld, reg_putReport (blockAddr_ne .die d (by simp only [R.DCQPTR]; omega)) (by simp only [regAddr, R.DCQ]; omega)]
        rfl

/-- A die that holds no report feeds none. -/
theorem feedDie_nil {s : State} {d : Nat} (h : mget (fun _ => []) s.cqHeld d = []) (k : Nat) : feedDie s d (k + 1) = s := by
  rw [feedDie, h]

/-! ### Tile reset and the reports that a die holds -/

/-- Nothing is held for a tile and nothing of it is in flight, and the dies hold the reports `c`. -/
structure Emptied (t : Nat) (c : List (Nat × List (List Word))) (s : State) : Prop where
  hold : (s.tile t).hold = []
  flights : (s.tile t).flights = []
  held : s.cqHeld = c

section
variable {t : Nat} {c : List (Nat × List (List Word))} {s : State}

/-- A state that differs in neither. -/
theorem Emptied.of_same {u : State} (h : Emptied t c s) (ht : u.tile t = s.tile t) (hc : u.cqHeld = s.cqHeld) : Emptied t c u :=
  ⟨ht ▸ h.hold, ht ▸ h.flights, hc.trans h.held⟩

theorem Emptied.setTf (h : Emptied t c s) (f : Fld) (v : Nat) : Emptied t c (s.setTf t f v) := h.of_same rfl rfl

theorem Emptied.ite {p : Prop} [Decidable p] {u v : State} (hu : Emptied t c u) (hv : Emptied t c v) : Emptied t c (if p then u else v) := by
  split <;> assumption

/-- What a turned wicket does to an emptied tile: nothing waits for it. -/
theorem wicketTurned_emptied (h : Emptied t c s) (w : Nat) : Emptied t c (wicketTurned s t w) := by
  have hr : ∀ u : State, (u.tile t).hold = [] → recheckHeld u t = u.modTile t fun x => { x with hold := [] } := fun u hu => by
    rw [recheckHeld, hu, releaseHeld]
  have hd : ∀ u : State, (u.tile t).flights = [] → dmafShort u t w = u := fun u hu => by rw [dmafShort, hu]; rfl
  rw [wicketTurned, hr _ (by simp [h.hold]), hd _ (by simp [h.flights])]
  exact ⟨by simp, by simp [h.flights], h.held⟩

theorem closeWicket_emptied (h : Emptied t c s) (w : Nat) : Emptied t c (closeWicket s t w) :=
  h.ite (wicketTurned_emptied ((h.setTf _ _).setTf _ _) w)

theorem closeQueue_emptied (h : Emptied t c s) (q : Nat) : Emptied t c (closeQueue s t q) := h.ite ((h.setTf _ _).setTf _ _)

end

theorem askUnits_cqHeld (s : State) (t n : Nat) : (askUnits s t n).cqHeld = s.cqHeld := by
  rw [askUnits]; split <;> rfl

theorem forceDown_cqHeld (s : State) (t : Nat) : (forceDown s t).cqHeld = s.cqHeld := by
  simp only [forceDown, rampDown]
  split
  · rfl
  · split
    · exact askUnits_cqHeld _ _ _
    · rfl

/-- A tile reset leaves the reports that the dies hold. -/
theorem tileReset_cqHeld (s : State) (t : Nat) : (tileReset s t).cqHeld = s.cqHeld := by
  have h₀ : Emptied t s.cqHeld (s.modTile t resetTile) := ⟨by simp [resetTile], by simp [resetTile], rfl⟩
  have h₁ : Emptied t s.cqHeld ((List.range 16).foldl (fun s n =>
      (List.range 32).foldl (fun s k => s.setTf t (R.WKLAND_BYTES n k) 0) (closeQueue (closeWicket s t n) t n)) (s.modTile t resetTile)) :=
    List.foldlRecOn _ _ h₀ fun u hu n _ => List.foldlRecOn _ _ (closeQueue_emptied (closeWicket_emptied hu n) n) fun v hv k _ => hv.setTf _ _
  have h₂ : ∀ u : State, (forceDown ((u.clearRegs (tileResetClears t)).setTf t R.TPWR_LENDS 0) t).cqHeld = u.cqHeld := fun u => forceDown_cqHeld _ _
  simp only [tileReset]
  split
  · exact (h₂ _).trans h₁.held
  · exact (h₂ _).trans h₁.held

theorem clearTileBars_cqHeld (s : State) (t : Nat) : (clearTileBars s t).cqHeld = s.cqHeld := by
  unfold clearTileBars
  exact foldl_keeps State.cqHeld _ (fun u c _ => foldl_keeps State.cqHeld _ (fun v g _ => by simp only [State.setTf_cqHeld]) u) s

theorem clearDieBars_cqHeld (s : State) (d : Nat) : (clearDieBars s d).cqHeld = s.cqHeld := by
  unfold clearDieBars
  refine (foldl_keeps State.cqHeld _ (fun u g _ => ?_) _).trans (foldl_keeps State.cqHeld _ (fun u g _ => ?_) s) <;> simp only [State.setFld_cqHeld]

/-! ### The barriers of a die -/

/-- A barrier of a die at its reset value. -/
def BarClear (d g : Nat) (s : State) : Prop := s.fld .die d (R.DBAR_GEN g) = 0xFF ∧ s.fld .die d (R.DBAR_ARRIVED g) = 0

/-- A register of the die that is not the barrier's. -/
theorem BarClear.setFld {s : State} {d g : Nat} (h : BarClear d g s) {f : Fld} (v : Nat) (ho : R.DBAR g ≠ f.off) : BarClear d g (s.setFld .die d f v) :=
  ⟨(fld_setFld_off v ho).trans h.1, (fld_setFld_off v ho).trans h.2⟩

/-- A register of the die that stands above its barriers. -/
theorem BarClear.setFld_high {s : State} {d g : Nat} (h : BarClear d g s) (hg : g < 32) {f : Fld} (v : Nat) (ho : 0x2000 ≤ f.off) : BarClear d g (s.setFld .die d f v) :=
  h.setFld v (by simp only [R.DBAR]; omega)

theorem BarClear.feedDie {s : State} {d g : Nat} (h : BarClear d g s) (hg : g < 32) (k : Nat) : BarClear d g (feedDie s d k) := by
  have ho : R.DBAR g < 0x6000 := by simp only [R.DBAR]; omega
  exact ⟨(fld_feedDie (f := R.DBAR_GEN g) ho k s).trans h.1, (fld_feedDie (f := R.DBAR_ARRIVED g) ho k s).trans h.2⟩

theorem barClear_set (s : State) (d g : Nat) : BarClear d g ((s.setFld .die d (R.DBAR_GEN g) 0xFF).setFld .die d (R.DBAR_ARRIVED g) 0) := by
  refine ⟨?_, ?_⟩
  · rw [State.fld_setFld_other (f := R.DBAR_ARRIVED g) (f' := R.DBAR_GEN g) _ 0 rfl (by decide : 16 ≤ 24) (by decide : 24 < 64) (.inl (by decide : 24 < 32)),
      State.fld_setFld_self (f := R.DBAR_GEN g) s 0xFF (by decide : 32 ≤ 39) (by decide : 39 < 64)]
    rfl
  · rw [State.fld_setFld_self (f := R.DBAR_ARRIVED g) _ 0 (by decide : 16 ≤ 24) (by decide : 24 < 64)]
    rfl

theorem clearDieBars_clear (s : State) (d : Nat) {g : Nat} (hg : g < 32) : BarClear d g (clearDieBars s d) := by
  unfold clearDieBars
  refine List.foldlRecOn _ _ (foldl_reaches (a := g) (fun u => barClear_set u d g) (fun u k hu => ?_) _ (List.mem_range.mpr hg) s) fun u hu k _ => ?_
  · by_cases hk : k = g
    · rw [hk]; exact barClear_set u d g
    · have ho : R.DBAR g ≠ R.DBAR k := by simp only [R.DBAR]; omega
      exact (hu.setFld _ ho).setFld _ ho
  · have ho : R.DBAR g ≠ R.PBAR k := by simp only [R.DBAR, R.PBAR]; omega
    exact (hu.setFld _ ho).setFld _ ho

theorem forgetArrivals_cqHeld (s : State) : (forgetArrivals s).cqHeld = s.cqHeld := rfl

theorem BarClear.forgetArrivals {s : State} {d g : Nat} (h : BarClear d g s) : BarClear d g (forgetArrivals s) := h

/-! ### Die reset -/

/-- The tiles and barriers of a die reset, and the arrivals at GC 1 with its own. -/
def dieCleared (s : State) (d : Nat) : State :=
  let s := clearDieBars ((List.range 256).foldl (fun s i => clearTileBars (tileReset s (256 * d + i)) (256 * d + i)) s) d
  if d = 1 then forgetArrivals s else s

/-- A die's control queue emptied, what stood in it counted as lost. -/
def queueEmptied (s : State) (d : Nat) : State :=
  let s := s.setFld .die d R.DCQPTR_LOST (satAdd (s.fld .die d R.DCQPTR_LOST) (s.fld .die d R.DCQPTR_COUNT) (2 ^ 32 - 1))
  (s.setFld .die d R.DCQPTR_COUNT 0).setFld .die d R.DCQPTR_HEAD (s.fld .die d R.DCQPTR_TAIL)

theorem dieReset_eq (s : State) (d : Nat) :
    dieReset s d = feedDie (((queueEmptied (dieCleared s d) d).setFld .die d R.RSSTAT_RFAULT 0).setFld .die d R.DRESET_PENDING 0) d 16 := rfl

theorem dieCleared_cqHeld (s : State) (d : Nat) : (dieCleared s d).cqHeld = s.cqHeld := by
  unfold dieCleared
  have h : (clearDieBars ((List.range 256).foldl (fun s i => clearTileBars (tileReset s (256 * d + i)) (256 * d + i)) s) d).cqHeld = s.cqHeld :=
    (clearDieBars_cqHeld _ d).trans (foldl_keeps State.cqHeld _ (fun u i _ => (clearTileBars_cqHeld _ _).trans (tileReset_cqHeld u _)) s)
  dsimp only
  split
  · exact (forgetArrivals_cqHeld _).trans h
  · exact h

theorem dieCleared_clear (s : State) (d : Nat) {g : Nat} (hg : g < 32) : BarClear d g (dieCleared s d) := by
  unfold dieCleared
  dsimp only
  split
  · exact (clearDieBars_clear _ d hg).forgetArrivals
  · exact clearDieBars_clear _ d hg

theorem BarClear.queueEmptied {s : State} {d g : Nat} (h : BarClear d g s) (hg : g < 32) : BarClear d g (queueEmptied s d) :=
  ((h.setFld_high hg _ (by decide)).setFld_high hg _ (by decide)).setFld_high hg _ (by decide)

theorem queueEmptied_cqHeld (s : State) (d : Nat) : (queueEmptied s d).cqHeld = s.cqHeld := rfl

/-- An emptied queue counts nothing, and its head stands at its tail. -/
theorem queueEmptied_empty (s : State) (d : Nat) :
    (queueEmptied s d).fld .die d R.DCQPTR_COUNT = 0 ∧ (queueEmptied s d).fld .die d R.DCQPTR_HEAD = (queueEmptied s d).fld .die d R.DCQPTR_TAIL := by
  simp only [queueEmptied]
  generalize s.setFld .die d R.DCQPTR_LOST (satAdd (s.fld .die d R.DCQPTR_LOST) (s.fld .die d R.DCQPTR_COUNT) (2 ^ 32 - 1)) = u
  refine ⟨?_, ?_⟩
  · rw [State.fld_setFld_other (f := R.DCQPTR_HEAD) (f' := R.DCQPTR_COUNT) _ _ rfl (by decide) (by decide) (by decide),
      State.fld_setFld_self (f := R.DCQPTR_COUNT) _ 0 (by decide) (by decide)]
    rfl
  · rw [State.fld_setFld_self (f := R.DCQPTR_HEAD) _ _ (by decide) (by decide),
      State.fld_setFld_other (f := R.DCQPTR_HEAD) (f' := R.DCQPTR_TAIL) _ _ rfl (by decide) (by decide) (by decide),
      State.fld_setFld_other (f := R.DCQPTR_COUNT) (f' := R.DCQPTR_TAIL) _ _ rfl (by decide) (by decide) (by decide)]
    exact Nat.mod_eq_of_lt (wget_lt _ 15 8)

/-- What a die reset leaves (R526). -/
theorem dieReset_leaves (s : State) (d : Nat) :
    (dieReset s d).fld .die d R.DRESET_PENDING = 0 ∧ (dieReset s d).fld .die d R.RSSTAT_RFAULT = 0 ∧
      (mget (fun _ => []) s.cqHeld d = [] →
        (dieReset s d).fld .die d R.DCQPTR_COUNT = 0 ∧ (dieReset s d).fld .die d R.DCQPTR_HEAD = (dieReset s d).fld .die d R.DCQPTR_TAIL) ∧
      ∀ g, g < 32 → BarClear d g (dieReset s d) := by
  rw [dieReset_eq]
  refine ⟨?_, ?_, fun hc => ?_, fun g hg => ?_⟩
  · rw [fld_feedDie (by decide), State.fld_setFld_self (f := R.DRESET_PENDING) _ 0 (by decide) (by decide)]; rfl
  · rw [fld_feedDie (by decide), fld_setFld_off (f := R.DRESET_PENDING) 0 (by decide),
      State.fld_setFld_self (f := R.RSSTAT_RFAULT) _ 0 (by decide) (by decide)]; rfl
  · have hn : mget (fun _ => []) (((queueEmptied (dieCleared s d) d).setFld .die d R.RSSTAT_RFAULT 0).setFld .die d R.DRESET_PENDING 0).cqHeld d = [] := by
      rw [State.setFld_cqHeld, State.setFld_cqHeld, queueEmptied_cqHeld, dieCleared_cqHeld, hc]
    rw [feedDie_nil hn 15]
    have hq : ∀ f : Fld, f.off = R.DCQPTR → (((queueEmptied (dieCleared s d) d).setFld .die d R.RSSTAT_RFAULT 0).setFld .die d R.DRESET_PENDING 0).fld .die d f =
        (queueEmptied (dieCleared s d) d).fld .die d f := fun f hf => (fld_setFld_off 0 (by rw [hf]; decide)).trans (fld_setFld_off 0 (by rw [hf]; decide))
    rw [hq _ rfl, hq _ rfl, hq _ rfl]
    exact queueEmptied_empty _ d
  · exact (((dieCleared_clear s d hg).queueEmptied hg).setFld_high hg 0 (by decide)).setFld_high hg 0 (by decide) |>.feedDie hg 16

/-- A request for the reset of a die whose tiles are still. -/
theorem askDieReset_still {s : State} {d : Nat} (h : dieStill s d = true) :
    askDieReset s d =
      let u := s.setFld .die d R.DRESET_COUNT (satAdd (s.fld .die d R.DRESET_COUNT) 1 (2 ^ 32 - 1))
      if dieIdle u d = true then dieReset u d else u.setFld .die d R.DRESET_PENDING 1 := by
  rw [askDieReset, h]; rfl

/-- Settles O48: the checks of a record from the lemmas of `record`, the access rules of a register from those of `writeReg`, and the die reset part by part. -/
theorem registerCommands : Obligations.RegisterCommands := by
  refine ⟨fun s gh epoch a v m src len hup hst hle => ?_, putSpad_frame, fun s t off a v m hs ho hr x => writeReg_sleepOnly v m hs ho hr x,
    fun s t n v ht hn hg => writeReg_route_opens v ht hn hg, fun s gh epoch a v h => congrArg _ (record_silent h), fun s a v => ⟨fun h => ?_, fun port gh k h => ?_⟩,
    fun s d _ h => ?_, fun s d _ => ⟨fun h => ⟨fun hi => ?_, fun hi => ?_⟩, fun hp hi => congrArg _ (if_pos ⟨hp, hi⟩), dieReset_leaves s d⟩⟩
  · have hi : MayIssue s gh := ⟨hup, hst, hle⟩
    refine ⟨fun hl => ⟨congrArg _ (record_late hi hl), congrArg _ (record_late hi hl), congrArg _ (record_late hi hl)⟩, fun hl ht => ?_, fun hl hp ht => ⟨fun hr => ?_, fun t o hr => ?_⟩,
      fun hl hp ht h1 h2 h3 h4 h5 => ?_⟩
    · have hok : ((portFor s a).isSome && targetOk s ((portFor s a).getD 0) a 8) = false := by rw [ht, Bool.and_false]
      exact ⟨congrArg _ (record_refused hi hl hok), congrArg _ (record_refused hi hl hok)⟩
    · have hok : ((portFor s a).isSome && targetOk s ((portFor s a).getD 0) a 8) = true := by rw [hp, ht]; rfl
      have hr' : ∀ t o, regionOf (recordDone ((portFor s a).getD 0) gh epoch (recordTaken ((portFor s a).getD 0) gh epoch s) 0).grade a ≠ .spad t o := by simpa using hr
      exact ⟨congrArg _ ((record_runs hi hl hok).trans (writeWord_other hr' v)), congrArg _ ((record_runs hi hl hok).trans (maskWord_other hr' v m))⟩
    · have hok : ((portFor s a).isSome && targetOk s ((portFor s a).getD 0) a 8) = true := by rw [hp, ht]; rfl
      have hr' : regionOf (recordDone ((portFor s a).getD 0) gh epoch (recordTaken ((portFor s a).getD 0) gh epoch s) 0).grade a = .spad t o := by simpa using hr
      exact ⟨congrArg _ ((record_runs hi hl hok).trans (writeWord_spad hr' v)), congrArg _ ((record_runs hi hl hok).trans (maskWord_spad hr' v m))⟩
    · have hok : ((portFor s a).isSome && copyOk s ((portFor s a).getD 0) src a len) = true := by simp [copyOk, hp, ht, h1, h2, h3, h4, h5]
      exact congrArg _ (record_runs hi hl hok)
  · have h' : dcmdAt (s.unwire (.regWrite a v)) a = none := h
    simp only [exec_registerWrite, execRegisterWrite, h']
  · have h' : dcmdAt (s.unwire (.regWrite a v)) a = some (port, gh, k) := h
    simp only [exec_registerWrite, execRegisterWrite, h']
  · rw [exec_dresetGo, execDresetGo, askDieReset, h]; rfl
  · rw [exec_dresetGo, execDresetGo, askDieReset_still h]
    exact congrArg _ (if_pos hi)
  · rw [exec_dresetGo, execDresetGo, askDieReset_still h]
    exact congrArg _ (if_neg (by rw [hi]; decide))

end Sys2Proof.Machine
end

section
/-!
SUPPORT. Power (R535–R540, R716–R719): what is left when the dies lose their power, and the states of the switchable functions.
-/

namespace Sys2Proof.Machine

/-! ### A number loses its tile -/

theorem unbindTile_lodge (s : State) (t : Nat) : (unbindTile s t).lodge = s.lodge := by
  unfold unbindTile; dsimp only; split <;> rfl

theorem unbindTile_mram (s : State) (t : Nat) : (unbindTile s t).mram = s.mram := by
  unfold unbindTile; dsimp only; split <;> rfl

theorem unbindTile_toHost (s : State) (t : Nat) : (unbindTile s t).toHost = s.toHost := by
  unfold unbindTile; dsimp only; split <;> rfl

theorem unbindTile_pending (s : State) (t : Nat) : (unbindTile s t).pending = s.pending := by
  unfold unbindTile; dsimp only; split <;> rfl

/-- The registers of the tiles (R15). -/
abbrev TileAddr (a : Nat) : Prop := 0xC0_0000_0000 ≤ a ∧ a < 0xC0_0800_0000

theorem tileAddr_of {t off : Nat} (ht : t < 2048) (ho : off < 0x1_0000) : TileAddr (regAddr .tile t off) := by
  simp only [TileAddr, regAddr]; omega

/-- A register of a block that is no tile's lies outside the tiles' registers, and at the same place on either grade. -/
theorem not_tileAddr {g : Grade} {a n off : Nat} {b : Block} (h : regionOf g a = .reg b n off) (hb : b ≠ .tile) : ¬ TileAddr a := by
  intro ha
  simp only [regionOf] at h
  rw [if_neg (by omega), if_neg (by omega), if_pos ha] at h
  split at h
  · cases h; exact hb rfl
  · cases h

theorem regionOf_grade {g : Grade} (g' : Grade) {a n off : Nat} {b : Block} (h : regionOf g a = .reg b n off) (hb : b ≠ .tile) : regionOf g' a = .reg b n off := by
  have hn := not_tileAddr h hb
  simp only [regionOf, hn, if_false] at h ⊢
  split
  · rw [if_pos ‹_›] at h; cases h
  · rw [if_neg ‹_›] at h
    split
    · rw [if_pos ‹_›] at h
      split at h <;> cases h
    · rw [if_neg ‹_›] at h
      exact h

/-- A register that is no tile's keeps its value. -/
theorem unbindTile_reg {s : State} {t a : Nat} (ht : t < 2048) (ha : ¬ TileAddr a) : (unbindTile s t).reg a = s.reg a := by
  have hne : ∀ off, off < 0x1_0000 → a ≠ regAddr .tile t off := fun off ho h => ha (h ▸ tileAddr_of ht ho)
  have hat : tileRegAt t a = false := by
    by_contra h
    simp only [Bool.not_eq_false, tileRegAt, Bool.and_eq_true, decide_eq_true_eq] at h
    refine ha ⟨?_, ?_⟩ <;> simp only [regAddr] at h <;> omega
  have hs : (if s.tstate t = fenced then s else s.setTstate t asleep).reg a = s.reg a := by
    split
    · rfl
    · rw [State.reg_setTstate, if_neg (hne _ (by decide))]
  calc (unbindTile s t).reg a
      = (((if s.tstate t = fenced then s else s.setTstate t asleep).setTf t R.SPGSTATE_G 0).clearRegs (tileRegAt t)).reg a := rfl
    _ = s.reg a := by rw [State.reg_clearRegs, hat, if_neg Bool.false_ne_true, State.reg_setTf, if_neg (hne _ (by decide)), hs]

/-! ### The RWS fields -/

/-- What of a register's field is kept short of package reset, where the register then holds `x` there (R11). -/
def keptField (w : Word) (f : FieldDesc) (x : Nat) : Nat := if f.acc = .RWS then wget w f.hi f.lo else x

theorem rwsOf_of_desc {b : Block} {off : Nat} {d : RegDesc} (w : Word) (hd : regDescAt b off = some d) : rwsOf b off w = setFields (keptField w) d.fields d.reset := by
  simp only [rwsOf, hd]
  refine List.foldl_ext _ _ _ fun v f hf => ?_
  obtain ⟨hl, hh⟩ := (regDescAt_fieldsApart hd).1 f hf
  have hs := wset_wget_self v hl hh
  obtain ⟨hi, lo, acc, r⟩ := f
  cases acc <;> simp [keptField, hs]

theorem wget_rwsOf {b : Block} {off : Nat} {d : RegDesc} {f : FieldDesc} (w : Word) (hd : regDescAt b off = some d) (hf : f ∈ d.fields) :
    wget (rwsOf b off w) f.hi f.lo = if f.acc = .RWS then wget w f.hi f.lo else wget d.reset f.hi f.lo := by
  rw [rwsOf_of_desc w hd, wget_setFields _ _ _ (regDescAt_fieldsApart hd) hf, keptField]
  split <;> exact wget_mod _ _ _

/-- A register at its reset value keeps it. -/
theorem rwsOf_reset {b : Block} {off : Nat} {d : RegDesc} (hd : regDescAt b off = some d) : rwsOf b off d.reset = d.reset := by
  rw [rwsOf_of_desc _ hd]
  exact setFields_self _ _ _ (regDescAt_fieldsApart hd).1 fun f _ => ite_self _

/-- One register of those that are kept. -/
def keepReg (g : Grade) (m : List (Nat × Word)) (e : Nat × Word) : List (Nat × Word) :=
  match regionOf g e.1 with
  | .reg b _ off => mput resetOf m e.1 (rwsOf b off e.2)
  | _ => m

theorem keptRegs_eq (s : State) : keptRegs s = s.regs.foldl (keepReg s.grade) [] := rfl

theorem mget_keepReg_ne (g : Grade) (m : List (Nat × Word)) (e : Nat × Word) {a : Nat} (h : a ≠ e.1) : mget resetOf (keepReg g m e) a = mget resetOf m a := by
  unfold keepReg
  split
  · exact mget_mput_ne h
  · rfl

theorem mget_keepReg_self {g : Grade} (m : List (Nat × Word)) {a n off : Nat} {b : Block} (w : Word) (h : regionOf g a = .reg b n off) :
    mget resetOf (keepReg g m (a, w)) a = rwsOf b off w := by
  simp only [keepReg, h, mget_mput_self]

/-- A register whose address lies below those of a list is not touched. -/
theorem mget_keepRegs_below (g : Grade) {a lo : Nat} (ha : a ≤ lo) (l : List (Nat × Word)) :
    ∀ m, mwf resetOf (some lo) l = true → mget resetOf (l.foldl (keepReg g) m) a = mget resetOf m a := by
  induction l generalizing lo with
  | nil => intro m _; rfl
  | cons e l ih =>
    intro m h
    simp only [mwf, Bool.and_eq_true, decide_eq_true_eq] at h
    rw [List.foldl_cons, ih (by omega : a ≤ e.1) _ h.2, mget_keepReg_ne g m e (by omega)]

/-- Every register of a list keeps its RWS fields. -/
theorem mget_keepRegs {g : Grade} {a n off : Nat} {b : Block} (hr : regionOf g a = .reg b n off) (l : List (Nat × Word)) :
    ∀ m, mwf resetOf none l = true → mget resetOf m a = rwsOf b off (resetOf a) → mget resetOf (l.foldl (keepReg g) m) a = rwsOf b off (mget resetOf l a) := by
  induction l with
  | nil => intro m _ h; exact h
  | cons e l ih =>
    intro m h hm
    obtain ⟨k, w⟩ := e
    simp only [mwf, Bool.and_eq_true] at h
    by_cases hk : a = k
    · subst hk
      rw [List.foldl_cons, mget_keepRegs_below g (le_refl a) l _ h.2, mget_keepReg_self m w hr, mget, if_pos rfl]
    · rw [List.foldl_cons, ih _ (mwf_none h.2) ((mget_keepReg_ne g m (k, w) hk).trans hm), mget, if_neg hk]

/-- What is kept of a register that is no tile's. -/
theorem mget_keptRegs {s : State} (hc : s.Canon) {a n off : Nat} {b : Block} {d : RegDesc} (hr : regionOf s.grade a = .reg b n off) (hb : b ≠ .tile)
    (hd : regDescAt b off = some d) : mget resetOf (keptRegs s) a = rwsOf b off (s.reg a) := by
  have h0 : resetOf a = d.reset := by simp only [resetOf, regionOf_grade .cg2048 hr hb, hd, Option.map_some, Option.getD_some]
  rw [keptRegs_eq]
  refine mget_keepRegs hr s.regs [] hc.1 ?_
  rw [h0, rwsOf_reset hd]
  exact h0

/-! ### The way to AON -/

/-- Every number has lost its tile. -/
def unbound (s : State) : State := s.bind.foldl (fun s b => unbindTile s b.1) s

theorem unbound_keeps {β : Type} (g : State → β) (hg : ∀ s t, g (unbindTile s t) = g s) (s : State) : g (unbound s) = g s :=
  foldl_keeps g _ (fun u b _ => hg u b.1) s

theorem unbound_reg {s : State} (hb : ∀ e ∈ s.bind, e.1 < 2048) {a : Nat} (ha : ¬ TileAddr a) : (unbound s).reg a = s.reg a :=
  foldl_keeps (fun u => u.reg a) _ (fun _ b h => unbindTile_reg (hb b h) ha) s

theorem unbound_good (s : State) : Good s (unbound s) := foldl_good (fun _ _ h => unbindTile_good h _) s.bind s (Good.refl s)

theorem toAon_regs (s : State) : (toAon s).regs = keptRegs (unbound s) := rfl

/-- R11: short of package reset a register that is no tile's keeps its RWS fields alone. -/
theorem toAon_reg {s : State} (hc : s.Canon) (hb : ∀ e ∈ s.bind, e.1 < 2048) {a n off : Nat} {b : Block} {d : RegDesc} (hr : regionOf s.grade a = .reg b n off) (ht : b ≠ .tile)
    (hd : regDescAt b off = some d) : (toAon s).reg a = rwsOf b off (s.reg a) := by
  obtain ⟨hcan, hg, -⟩ := unbound_good s
  have hr' : regionOf (unbound s).grade a = .reg b n off := (congrArg (regionOf · a) hg).trans hr
  rw [State.reg, toAon_regs, mget_keptRegs (hcan hc) hr' ht hd, unbound_reg hb (not_tileAddr hr ht)]

/-- What goes and what stays on the way to AON. -/
theorem toAon_leaves (s : State) :
    (toAon s).lodge.stage = min s.lodge.stage 2 ∧ (toAon s).lodge.holder = none ∧ (toAon s).lodge.pvX = false ∧ (toAon s).lodge.rails = false ∧ (toAon s).lodge.hbmKept = false ∧
      (toAon s).bind = [] ∧ (toAon s).mem = [] ∧ (toAon s).tiles = [] ∧ (toAon s).mram = s.mram ∧ (toAon s).toHost = s.toHost ∧ (toAon s).pending = s.pending ∧
      (toAon s).chp.sessions = [] :=
  ⟨congrArg (fun l : Lodge => min l.stage 2) (unbound_keeps State.lodge unbindTile_lodge s), rfl, rfl, rfl, rfl, rfl, rfl, rfl, unbound_keeps State.mram unbindTile_mram s,
    unbound_keeps State.toHost unbindTile_toHost s, unbound_keeps State.pending unbindTile_pending s, rfl⟩

/-- A domain that has lost its power reads 0. -/
theorem domainLost_byte (s : State) (g : Nat) {a : Nat} (hl : spadAddr (256 * g) 0 ≤ a) (hh : a < spadAddr (256 * g + 256) 0) : (domainLost s g).byte a = 0 :=
  mget_mdrop_self (d := memDefault) (f := fun a => decide (spadAddr (256 * g) 0 ≤ a) && decide (a < spadAddr (256 * g + 256) 0))
    (by rw [decide_eq_true hl, decide_eq_true hh]; rfl)

/-! ### Switchable functions -/

theorem pf_setPf_state (s : State) (p v : Nat) : (s.setPf p R.FPSTAT_STATE v).pf p R.FPSTAT_STATE = v % 2 ^ 2 :=
  State.fld_setFld_self (f := R.FPSTAT_STATE (p % 2)) s v (by decide : 0 ≤ 1) (by decide : 1 < 64)

theorem pf_setPf_lanes (s : State) (p v : Nat) : (s.setPf p R.FPSTAT_LANES v).pf p R.FPSTAT_STATE = s.pf p R.FPSTAT_STATE :=
  State.fld_setFld_other (f := R.FPSTAT_LANES (p % 2)) (f' := R.FPSTAT_STATE (p % 2)) s v rfl (by decide : 2 ≤ 2) (by decide : 2 < 64) (.inr (by decide : 1 < 2))

/-- What holds a function's state: a field of two bits, or a fabric port. -/
theorem fnState_setFn {s : State} {fn v : Nat} (hv : v < 4) : fnState (setFn s fn v) fn = v := by
  have hm : v % 2 ^ 2 = v := Nat.mod_eq_of_lt hv
  by_cases h1 : fn < 8
  · simp only [fnState, setFn, if_pos h1]
    rw [State.fld_setFld_self (f := R.DPWR_TDOM) s v (by decide) (by decide)]; exact hm
  by_cases h2 : fn < 16
  · simp only [fnState, setFn, if_neg h1, if_pos h2]
    rw [State.fld_setFld_self (f := R.DPWR_NPLL) s v (by decide) (by decide)]; exact hm
  by_cases h3 : fn < 24
  · simp only [fnState, setFn, if_neg h1, if_neg h2, if_pos h3]
    rw [State.fld_setFld_self (f := R.DPWR_PLL) s v (by decide) (by decide)]; exact hm
  by_cases h4 : fn < 32
  · simp only [fnState, setFn, if_neg h1, if_neg h2, if_neg h3, if_pos h4]
    rw [State.fld_setFld_self (f := R.MCSTAT_STATE) s v (by decide) (by decide)]; exact hm
  by_cases h5 : fn < 96
  · simp only [fnState, setFn, if_neg h1, if_neg h2, if_neg h3, if_neg h4, if_pos h5]
    interval_cases v <;> simp [State.modLodge, pf_setPf_lanes, pf_setPf_state]
  · simp only [fnState, setFn, if_neg h1, if_neg h2, if_neg h3, if_neg h4, if_neg h5]
    rw [State.fld_setFld_self (f := R.DPWR_HD) s v (by decide) (by decide)]; exact hm

/-- A function that is set moves nothing of the lodge but the ports that stop. -/
theorem setFn_lodge (s : State) (fn v : Nat) : (setFn s fn v).lodge = { s.lodge with stopping := (setFn s fn v).lodge.stopping } := by
  unfold setFn
  repeat' split
  all_goals rfl

theorem powerOn_idle {s : State} (h : s.lodge.power = none) : powerOn s = s := by
  simp only [powerOn, h]

theorem startOn_idle {s : State} (h : s.lodge.starting = none) : startOn s = s := by
  simp only [startOn, h]

end Sys2Proof.Machine
end

section
/-!
SUPPORT. The settling of the power events: each command's branches in turn.
-/

namespace Sys2Proof.Machine

section
variable {s : State}

/-- A function whose state is set, and its latch cleared. -/
theorem settled_lodge (s : State) (fn v : Nat) :
    (setLatch (setFn s fn v) fn none).lodge.power = s.lodge.power ∧ (setLatch (setFn s fn v) fn none).lodge.starting = s.lodge.starting ∧
      (setLatch (setFn s fn v) fn none).lodge.stage = s.lodge.stage := by
  have h := setFn_lodge s fn v
  have hp : (setFn s fn v).lodge.power = s.lodge.power := by rw [h]
  have hs : (setFn s fn v).lodge.starting = s.lodge.starting := by rw [h]
  have hg : (setFn s fn v).lodge.stage = s.lodge.stage := by rw [h]
  exact ⟨hp, hs, hg⟩

/-! ### Power-goods -/

theorem powerGoodVincFall_next (h : s.lodge.porst = false) (g : Nat) : exec (.powerGoodVincFall g) s = .next (
    let u := s.modLodge fun l => { l with vinc := if bitOf l.vinc g then l.vinc - 2 ^ g else l.vinc }
    if pstate u ≥ 3 then leaveJob (domainLost (u.submit { code := 0x0A12, src := 0, detail := g }) g) else if stageNow u = 9 then stageFails u 9 else u) := by
  rw [exec_powerGoodVincFall, execPowerGoodVincFall, h]; rfl

theorem powerGoodVinxFall_next (h : s.lodge.porst = false) : exec .powerGoodVinxFall s = .next (
    let u := s.modLodge fun l => { l with vinx := false }
    let w := if pstate u < 3 ∧ stageNow u ≥ 3 then stageFails u (stageNow u) else u
    if pstate w ≥ 2 then toAon (w.submit { code := 0x0A12, src := 0, detail := 8 }) else if w.lodge.pvX then toAon w else w) := by
  rw [exec_powerGoodVinxFall, execPowerGoodVinxFall, h]; rfl

theorem pgVhbmFall_next (h : s.lodge.porst = false) : exec .pgVhbmFall s = .next (
    let u := s.modLodge fun l => { l with vhbm := false }
    let w := u.submit { code := 0x0A13, src := 0, detail := 0 }
    if !u.lodge.rails then u else if pstate w ≥ 3 then stacksLost w else toAon (if stageNow w = 9 then stageFails w 9 else w)) := by
  rw [exec_pgVhbmFall, execPgVhbmFall, h]; rfl

/-! ### Functions -/

theorem functionStartingEnd_on {fn : Nat} (h1 : fnState s fn = 1) (hz : ¬ (24 ≤ fn ∧ fn < 32 ∧ s.fld .mc (fn - 24) R.MCSTAT_ZEROING = 1))
    (hl : s.lodge.latches.contains (fn, false) = false) (h2 : s.lodge.stage ≠ 2) (hp : s.lodge.power = none) (hs : s.lodge.starting = none) :
    exec (.functionStartingEnd fn) s = .next (setLatch (setFn s fn 2) fn none) := by
  obtain ⟨hp', hs', hg'⟩ := settled_lodge s fn 2
  have hc : ¬ (fnState s fn ≠ 1 ∨ (24 ≤ fn ∧ fn < 32 ∧ s.fld .mc (fn - 24) R.MCSTAT_ZEROING = 1)) := fun h => h.elim (absurd h1) hz
  have hg : ¬ ((setLatch (setFn s fn 2) fn none).lodge.stage = 2 ∧ (setLatch (setFn s fn 2) fn none).lodge.pvX = true ∧
      allFns (setLatch (setFn s fn 2) fn none) ((List.range 8).map (8 + ·)) 2 = true) := fun h => h2 (hg' ▸ h.1)
  simp only [exec_functionStartingEnd, execFunctionStartingEnd, if_neg hc, hl, Bool.false_eq_true, if_false, if_neg hg]
  rw [powerOn_idle (hp'.trans hp), startOn_idle (hs'.trans hs)]

theorem functionStoppingEnd_off {fn : Nat} (h3 : fnState s fn = 3) (hl : s.lodge.latches.contains (fn, true) = false) (hp : s.lodge.power = none) :
    exec (.functionStoppingEnd fn) s = .next (setLatch (setFn s fn 0) fn none) := by
  obtain ⟨hp', -, -⟩ := settled_lodge s fn 0
  simp only [exec_functionStoppingEnd, execFunctionStoppingEnd, h3, ne_eq, not_true_eq_false, if_false, hl, Bool.false_eq_true]
  rw [powerOn_idle (hp'.trans hp)]

/-- A function that fails to start is logged, and its stage fails (R540). -/
theorem functionStartFail_next {fn : Nat} (h1 : fnState s fn = 1) : exec (.functionStartFail fn) s = .next (
    let u := (setLatch (setFn s fn 3) fn none).submit { code := 0x0A11, src := 0, detail := fn }
    if (fn < 8 ∨ (16 ≤ fn ∧ fn < 32)) ∧ u.lodge.power.map Ask.arg = some 3 then stageFails u 9
    else if 8 ≤ fn ∧ fn < 16 ∧ u.lodge.stage = 2 then stageFails u 3 else startOn u) :=
  congrArg _ (if_neg fun h => h h1)

end

/-- Settles O49: the branches of each command, the way to AON, and the fields that hold a function's state. -/
theorem powerEvents : Obligations.PowerEvents := by
  refine ⟨fun s hp => ⟨fun g => ⟨fun h3 => ?_, fun h3 h9 => ?_⟩, ⟨fun h3 => ?_, fun h2 hs => ?_⟩, ⟨fun hr => ?_, fun hr h3 => ?_, fun hr h3 h9 => ?_⟩, fun h2 hf hx => ?_, fun h2 h9 hv => ?_⟩,
    fun s g _ a hl hh => domainLost_byte s g hl hh, toAon_leaves, fun s hc hb a n off b d f hr ht hd hf => ?_,
    fun s fn => ⟨fun v _ hv => fnState_setFn hv, functionStartingEnd_on, functionStoppingEnd_off, fun h1 hf hs => ?_, fun h1 hf hp => ?_, fun h1 hl hh h2 => ?_⟩,
    fun s a ha => ⟨fun hg => ?_, fun hg => ?_⟩⟩
  · rw [powerGoodVincFall_next hp]
    exact congrArg _ (if_pos h3)
  · rw [powerGoodVincFall_next hp]
    exact congrArg _ ((if_neg (Nat.not_le.mpr h3)).trans (if_neg h9))
  · have hw : ¬ (pstate (s.modLodge fun l => { l with vinx := false }) < 3 ∧ stageNow (s.modLodge fun l => { l with vinx := false }) ≥ 3) :=
      fun h => Nat.not_lt.mpr h3 h.1
    simp only [powerGoodVinxFall_next hp, if_neg hw]
    exact congrArg _ (if_pos (le_trans (by decide) h3))
  · have hw : ¬ (pstate (s.modLodge fun l => { l with vinx := false }) < 3 ∧ stageNow (s.modLodge fun l => { l with vinx := false }) ≥ 3) :=
      fun h => Nat.not_lt.mpr h.2 hs
    simp only [powerGoodVinxFall_next hp, if_neg hw]
    exact congrArg _ (if_neg (Nat.not_le.mpr h2))
  · rw [pgVhbmFall_next hp]
    exact congrArg _ (if_pos (by simp [State.modLodge, hr]))
  · rw [pgVhbmFall_next hp]
    exact congrArg _ ((if_neg (by simp [State.modLodge, hr])).trans (if_pos h3))
  · rw [pgVhbmFall_next hp]
    exact congrArg _ ((if_neg (by simp [State.modLodge, hr])).trans ((if_neg (Nat.not_le.mpr h3)).trans (congrArg toAon (if_neg h9))))
  · exact congrArg _ (if_pos ⟨h2, by rw [hp]; rfl, by rw [hf]; rfl, by rw [hx]; rfl⟩)
  · refine congrArg _ ((if_neg fun h => h2 h.1).trans (if_pos ⟨h9, ?_⟩))
    exact hv.imp_left fun h => by rw [h]; rfl
  · rw [toAon_reg hc hb hr ht hd, wget_rwsOf _ hd hf]
  · have hu := (settled_lodge s fn 3).2.1.trans hs
    rw [functionStartFail_next h1]
    exact congrArg _ ((if_neg (by omega)).trans ((if_neg (by omega)).trans (startOn_idle hu)))
  · have hu : (setLatch (setFn s fn 3) fn none).lodge.power.map Ask.arg = some 3 := (congrArg (Option.map Ask.arg) (settled_lodge s fn 3).1).trans hp
    rw [functionStartFail_next h1]
    exact congrArg _ (if_pos ⟨.inl hf, hu⟩)
  · have hu := (settled_lodge s fn 3).2.2.trans h2
    rw [functionStartFail_next h1]
    exact congrArg _ ((if_neg (by omega)).trans (if_pos ⟨hl, hh, hu⟩))
  · simp only [exec_imageCopyLoad, execImageCopyLoad, ha, hg, Bool.not_false, if_true]
  · simp only [exec_imageCopyLoad, execImageCopyLoad, ha, hg, Bool.not_true, Bool.false_eq_true, if_false]

end Sys2Proof.Machine
end

section
/-!
SUPPORT. What leaves the device on its fabric ports and to the host (R427, R428, R496, R564), and a field set in every LD.
-/

namespace Sys2Proof.Machine

/-! ### What leaves the device -/

/-- Two states that agree in everything but what is on its way out: paths, open reads, wires, log submissions and messages to the host. -/
def OutOnly (s u : State) : Prop :=
  u = { s with sendPaths := u.sendPaths, cxReads := u.cxReads, wires := u.wires, toLog := u.toLog, toHost := u.toHost, chp := u.chp }

section
variable {s u v : State}

theorem OutOnly.refl (s : State) : OutOnly s s := rfl

theorem OutOnly.trans (h : OutOnly s u) (g : OutOnly u v) : OutOnly s v := by
  unfold OutOnly at *
  rw [h] at g
  exact g

theorem OutOnly.ite {p : Prop} [Decidable p] (h : OutOnly s u) (g : OutOnly s v) : OutOnly s (if p then u else v) := by
  split <;> assumption

theorem OutOnly.foldl {α : Type} {f : State → α → State} (hf : ∀ s x, OutOnly s (f s x)) (l : List α) (s : State) : OutOnly s (l.foldl f s) :=
  List.foldlRecOn l f (OutOnly.refl s) fun u hu x _ => hu.trans (hf u x)

/-- What is read from none of those fields is the same. -/
theorem OutOnly.keeps {β : Type} (h : OutOnly s u) (g : State → β)
    (hg : ∀ (s : State) p r w l t c, g { s with sendPaths := p, cxReads := r, wires := w, toLog := l, toHost := t, chp := c } = g s := by intros; rfl) : g u = g s := by
  unfold OutOnly at h
  rw [h]
  exact hg ..

theorem OutOnly.fld (h : OutOnly s u) (b : Block) (n : Nat) (f : Fld) : u.fld b n f = s.fld b n f := h.keeps (State.fld · b n f)

theorem OutOnly.pf (h : OutOnly s u) (p : Nat) (f : Nat → Fld) : u.pf p f = s.pf p f := h.fld ..

end

theorem send_outOnly (s : State) (w : Wire) : OutOnly s (s.send w) := rfl

theorem setSendPath_outOnly (s : State) (k : Nat) (p : SendPath) : OutOnly s (s.setSendPath k p) := rfl

theorem flushPath_outOnly (k n : Nat) : ∀ s : State, OutOnly s (flushPath s k n) := by
  induction n with
  | zero => exact OutOnly.refl
  | succ n ih =>
    intro s
    rw [flushPath]
    dsimp only
    split
    · exact .refl s
    · split
      · exact .refl s
      · exact .ite (.ite (setSendPath_outOnly ..) ((setSendPath_outOnly ..).trans (send_outOnly ..))) (((setSendPath_outOnly ..).trans (send_outOnly ..)).trans (ih _))

theorem cxtEmit_outOnly (s : State) (dev idx traffic : Nat) (h : CxtHdr) (blk : Option BlockMeta) (data : List Byte) (who : CxtWho) :
    OutOnly s (cxtEmit s dev idx traffic h blk data who) :=
  (setSendPath_outOnly ..).trans (flushPath_outOnly _ _ _)

theorem ctrlAll_outOnly (s : State) (devs : List Nat) (kind len : Nat) (body : List Byte) : OutOnly s (ctrlAll s devs kind len body) :=
  .foldl (fun s _ => cxtEmit_outOnly s ..) devs s

theorem logAndTell_outOnly (s : State) (code detail : Nat) : OutOnly s (logAndTell s code detail) :=
  .trans (u := s.logOp code detail) rfl (.ite rfl rfl)

theorem pullRead_outOnly (s : State) (dev k addr len : Nat) (kind : ReadKind) : OutOnly s (pullRead s dev k addr len kind) :=
  .trans (u := { s with cxReads := s.cxReads ++ [⟨pathKey dev (8 * k), kind, len, []⟩] }) rfl (cxtEmit_outOnly ..)

theorem startPull_outOnly (s : State) (dev : Nat) : OutOnly s (startPull s dev) :=
  .foldl (fun s _ => .ite (.refl s) (pullRead_outOnly s ..)) _ s

/-! ### A write of a register leaves everything but the registers alone -/

/-- Two states that agree in everything but the registers. -/
def RegsOnly (s u : State) : Prop := u = { s with regs := u.regs }

section
variable {s u v : State}

theorem RegsOnly.refl (s : State) : RegsOnly s s := rfl

theorem RegsOnly.trans (h : RegsOnly s u) (g : RegsOnly u v) : RegsOnly s v := by
  unfold RegsOnly at *
  rw [h] at g
  exact g

theorem RegsOnly.foldl {α : Type} {f : State → α → State} (hf : ∀ s x, RegsOnly s (f s x)) (l : List α) (s : State) : RegsOnly s (l.foldl f s) :=
  List.foldlRecOn l f (RegsOnly.refl s) fun u hu x _ => hu.trans (hf u x)

/-- What is read from no register is the same. -/
theorem RegsOnly.keeps {β : Type} (h : RegsOnly s u) (g : State → β) (hg : ∀ (s : State) r, g { s with regs := r } = g s := by intros; rfl) : g u = g s := by
  unfold RegsOnly at h
  rw [h]
  exact hg ..

end

theorem setFld_regsOnly (s : State) (b : Block) (n : Nat) (f : Fld) (v : Nat) : RegsOnly s (s.setFld b n f v) := rfl

theorem storeReg_regsOnly (s : State) (a : Nat) (v : Word) : RegsOnly s (storeReg s a v) := by
  unfold storeReg
  split
  · split <;> rfl
  · rfl

/-! ### Fields that lie apart -/

/-- A field lies in a word. -/
abbrev Fld.Fits (f : Fld) : Prop := f.lo ≤ f.hi ∧ f.hi < 64

/-- Two fields of a block share no bit. -/
abbrev Fld.Apart (f g : Fld) : Prop := g.off ≠ f.off ∨ f.hi < g.lo ∨ g.hi < f.lo

theorem fld_setFld_apart {s : State} {b : Block} {n : Nat} {f g : Fld} (v : Nat) (hf : f.Fits) (h : f.Apart g) : (s.setFld b n f v).fld b n g = s.fld b n g := by
  by_cases ho : g.off = f.off
  · exact State.fld_setFld_other s v ho hf.1 hf.2 (h.resolve_left (not_not_intro ho))
  · exact fld_setFld_off v ho

theorem pf_setPf_apart {s : State} {p : Nat} {f g : Nat → Fld} (v : Nat) (hf : (f (p % 2)).Fits) (h : (f (p % 2)).Apart (g (p % 2))) : (s.setPf p f v).pf p g = s.pf p g :=
  fld_setFld_apart v hf h

/-! ### A field of every LD -/

/-- A field stands in the block of an LD (R15). -/
abbrev Fld.InLd (f : Fld) : Prop := f.Fits ∧ f.off < 0x10_0000

/-- A field of one LD set leaves another LD alone. -/
theorem fld_setFld_otherLd {s : State} {m n : Nat} {f g : Fld} (v : Nat) (hf : f.InLd) (hg : g.InLd) (h : n ≠ m) : (s.setFld .ld m f v).fld .ld n g = s.fld .ld n g := by
  obtain ⟨-, hfo⟩ := hf
  obtain ⟨-, hgo⟩ := hg
  exact State.fld_setFld_ne s v (by simp only [regAddr]; omega)

section
variable {f g : Fld} {ld : Nat}

theorem fld_setLds_self (s : State) {v : Nat} (hf : f.InLd) (hl : ld < 32) (hv : v < 2 ^ (f.hi + 1 - f.lo)) : (setLds s f v).fld .ld ld f = v := by
  have hself : ∀ u : State, (u.setFld .ld ld f v).fld .ld ld f = v := fun u => (State.fld_setFld_self u v hf.1.1 hf.1.2).trans (Nat.mod_eq_of_lt hv)
  refine foldl_reaches (P := fun u => u.fld .ld ld f = v) (f := fun u m => u.setFld .ld m f v) hself (fun u m hu => ?_) _ (List.mem_range.mpr hl) s
  by_cases hm : ld = m
  · subst hm; exact hself u
  · exact (fld_setFld_otherLd v hf hf hm).trans hu

theorem fld_setLds_apart (s : State) (v : Nat) (h : f.InLd ∧ g.InLd ∧ f.Apart g) : (setLds s f v).fld .ld ld g = s.fld .ld ld g := by
  obtain ⟨hf, hg, ha⟩ := h
  refine foldl_keeps (fun u => u.fld .ld ld g) _ (fun u m _ => ?_) s
  by_cases hm : ld = m
  · subst hm; exact fld_setFld_apart v hf.1 ha
  · exact fld_setFld_otherLd v hf hg hm

theorem setLds_regsOnly (s : State) (f : Fld) (v : Nat) : RegsOnly s (setLds s f v) := .foldl (fun u n => setFld_regsOnly u .ld n f v) _ s

end

end Sys2Proof.Machine
end

section
/-!
SUPPORT. Retransmission and ports of the fabric (R422, R423, R429): each command's branches.
-/

namespace Sys2Proof.Machine

section
variable {s : State}

/-! ### Retransmission -/

/-- A timeout of a path with a packet that is not acknowledged (R429). -/
theorem cxtRetransmitTimeout_unacked {port dev idx : Nat} {x : SentPkt} {rest : List SentPkt} (h : (s.sendPath (pathKey dev idx)).unacked = x :: rest) :
    exec (.cxtRetransmitTimeout port dev idx) s =
      .next (if x.outs ≥ 7 then peerFailed s (pathKey dev idx) (heartbeat s) else resend s (pathKey dev idx) port x rest) := by
  simp only [exec_cxtRetransmitTimeout, execCxtRetransmitTimeout, h]

section
variable {port dev idx n : Nat} (hx : (s.sendPath (pathKey dev idx)).unacked = [])
include hx

/-- A timeout of a path of which every packet is acknowledged (R30, R429). -/
theorem cxtRetransmitTimeout_acked : exec (.cxtRetransmitTimeout port dev idx) s = .next (
    let k := pathKey dev idx
    let x := s.sendPath k
    if !x.waiting.isEmpty && x.port.any (fun q => !portUp s q) then
      match otherPort s dev port with
      | none => s
      | some m => flushPath ((s.logOp 0x0802 (k * 64 + m)).setSendPath k { x with port := some m, granted := 0, asked := false }) k (x.waiting.length + 1)
    else if !x.asked then s
    else if x.unheard ≥ 7 then peerFailed s k (heartbeat s)
    else cxtPlain (s.setSendPath k { x with unheard := x.unheard + 1 }) (x.port.getD port) { baseHdr s opGRANT dev idx with tag := grantREQ } []) := by
  rw [exec_cxtRetransmitTimeout, execCxtRetransmitTimeout]
  dsimp only
  split
  · next hc => cases hx.symm.trans hc
  · rfl

/-- What waits on a path whose port is down moves to another port. -/
theorem cxtRetransmitTimeout_moves {m : Nat} (hw : (s.sendPath (pathKey dev idx)).waiting ≠ []) (hp : (s.sendPath (pathKey dev idx)).port = some n)
    (hu : portUp s n = false) (hm : otherPort s dev port = some m) :
    exec (.cxtRetransmitTimeout port dev idx) s = .next (flushPath ((s.logOp 0x0802 (pathKey dev idx * 64 + m)).setSendPath (pathKey dev idx)
      { s.sendPath (pathKey dev idx) with port := some m, granted := 0, asked := false }) (pathKey dev idx) ((s.sendPath (pathKey dev idx)).waiting.length + 1)) := by
  have hc : (!(s.sendPath (pathKey dev idx)).waiting.isEmpty && (s.sendPath (pathKey dev idx)).port.any fun q => !portUp s q) = true := by
    rw [hp, Option.any_some, hu, List.isEmpty_eq_false_iff.mpr hw]; rfl
  rw [cxtRetransmitTimeout_acked hx]
  dsimp only
  rw [if_pos hc, hm]

theorem cxtRetransmitTimeout_idle (hw : (s.sendPath (pathKey dev idx)).waiting = []) (ha : (s.sendPath (pathKey dev idx)).asked = false) :
    exec (.cxtRetransmitTimeout port dev idx) s = .next s := by
  rw [cxtRetransmitTimeout_acked hx]
  dsimp only
  rw [if_neg (by rw [hw]; exact Bool.false_ne_true), if_pos (by rw [ha]; rfl)]

/-- A request for a grant that is not heard is sent again, and after the eighth time the peer has failed. -/
theorem cxtRetransmitTimeout_asked (hp : (s.sendPath (pathKey dev idx)).port = some n) (hu : portUp s n = true) (ha : (s.sendPath (pathKey dev idx)).asked = true) :
    exec (.cxtRetransmitTimeout port dev idx) s = .next (
      if (s.sendPath (pathKey dev idx)).unheard ≥ 7 then peerFailed s (pathKey dev idx) (heartbeat s)
      else cxtPlain (s.setSendPath (pathKey dev idx) { s.sendPath (pathKey dev idx) with unheard := (s.sendPath (pathKey dev idx)).unheard + 1 }) n
        { baseHdr s opGRANT dev idx with tag := grantREQ } []) := by
  have hc : ¬ (!(s.sendPath (pathKey dev idx)).waiting.isEmpty && (s.sendPath (pathKey dev idx)).port.any fun q => !portUp s q) = true := by
    rw [hp, Option.any_some, hu]; simp
  rw [cxtRetransmitTimeout_acked hx]
  dsimp only
  rw [if_neg hc, if_neg (by rw [ha]; exact Bool.false_ne_true), hp, Option.getD_some]

end

/-- A packet that has gone out fewer than three times on a port that is up stays on it (R429). -/
theorem resend_stays {k port : Nat} {x : SentPkt} {rest : List SentPkt} (hn : x.onPort < 3) (hp : (s.sendPath k).port = some port) (hu : portUp s port = true) :
    resend s k port x rest = State.send ((cxCount s port R.CXCNT_RETX).setSendPath k
      { s.sendPath k with port := some port, unacked := { x with pkt := { x.pkt with port := port }, outs := x.outs + 1, onPort := x.onPort + 1 } :: rest })
      (.cxt port { x.pkt with port := port }) := by
  have hmove : (decide (x.onPort ≥ 3) || !(s.sendPath k).port.any fun q => portUp s q) = false := by
    rw [hp, Option.any_some, hu, decide_eq_false (Nat.not_le.mpr hn)]; rfl
  simp only [resend, hmove, Bool.false_eq_true, if_false]

/-! ### Ports -/

theorem portGoesDown_still {p reason : Nat} (h : s.pf p R.FPSTAT_STATE = 0 ∨ s.pf p R.FPSTAT_STATE = 3) : portGoesDown s p reason = s := if_pos h

/-- A port that goes down shows it, with its reason (R422). -/
theorem portGoesDown_shows {p reason : Nat} (h0 : s.pf p R.FPSTAT_STATE ≠ 0) (h3 : s.pf p R.FPSTAT_STATE ≠ 3) (hr : reason < 2 ^ 8) :
    (portGoesDown s p reason).pf p R.FPSTAT_STATE = 0 ∧ (portGoesDown s p reason).pf p R.FPSTAT_REASON = reason := by
  rw [portGoesDown, if_neg (not_or.mpr ⟨h0, h3⟩)]
  dsimp only
  rw [(ctrlAll_outOnly ..).pf, (ctrlAll_outOnly ..).pf]
  have hstate : ((s.setPf p R.FPSTAT_STATE 0).setPf p R.FPSTAT_REASON reason).pf p R.FPSTAT_STATE = 0 :=
    (pf_setPf_apart (f := R.FPSTAT_REASON) reason ⟨(by decide : 8 ≤ 15), (by decide : 15 < 64)⟩ (.inr (.inr (by decide : 1 < 8)))).trans (pf_setPf_state s p 0)
  have hreason : ((s.setPf p R.FPSTAT_STATE 0).setPf p R.FPSTAT_REASON reason).pf p R.FPSTAT_REASON = reason :=
    (State.fld_setFld_self (f := R.FPSTAT_REASON (p % 2)) _ reason (by decide : 8 ≤ 15) (by decide : 15 < 64)).trans (Nat.mod_eq_of_lt hr)
  exact ⟨hstate, hreason⟩

theorem state_of_portUp {p : Nat} (h : portUp s p = true) : s.pf p R.FPSTAT_STATE = 2 := eq_of_beq h

/-- A replay on a port of DIRECT mode, before it is held against the limit (R423). -/
def replayCounted (s : State) (p n : Nat) : State :=
  { s.setPf p R.FPSTAT_REPLAY (satAdd (s.pf p R.FPSTAT_REPLAY) 1 0xFFFF) with replays := mput (fun _ => 0) s.replays p n }

theorem replayCounted_state (p n : Nat) : (replayCounted s p n).pf p R.FPSTAT_STATE = s.pf p R.FPSTAT_STATE :=
  pf_setPf_apart (f := R.FPSTAT_REPLAY) _ ⟨(by decide : 32 ≤ 47), (by decide : 47 < 64)⟩ (.inr (.inr (by decide : 1 < 32)))

/-- A replay without progress on a port of DIRECT mode: the sixteenth takes the port down (R422, R423). -/
theorem directModeLinkReplay_next {p : Nat} (hm : s.pf p R.FPCFG_MODE = 1) (hu : portUp s p = true) :
    exec (.directModeLinkReplay p false) s = .next (
      let n := mget (fun _ => 0) s.replays p + 1
      if n ≥ 16 then portGoesDown (replayCounted s p 0) p 2 else replayCounted s p n) := by
  have hc : ¬ (s.pf p R.FPCFG_MODE = 0 ∨ (!portUp s p) = true) := by rw [hm, hu]; decide
  rw [exec_directModeLinkReplay, execDirectModeLinkReplay, if_neg hc]
  refine congrArg _ ?_
  dsimp only [Bool.false_eq_true, if_false]
  by_cases h : mget (fun _ => 0) s.replays p + 1 ≥ 16
  · simp only [Bool.false_eq_true, if_false, if_pos h]; rfl
  · simp only [Bool.false_eq_true, if_false, if_neg h]; rfl

/-- A flow control frame of the priority of a ROUTED-LOSSLESS port stops it, or lets it go on (R423). -/
theorem priorityFlowControlFrame_next {p prio : Nat} (hm : s.pf p R.FPCFG_MODE = 0) (hf : s.pf p R.FPCFG_PFC = 1) (hq : s.pf p R.FPCFG_PRIO = prio) (pause : Bool) :
    exec (.priorityFlowControlFrame p prio pause) s = .next (
      if pause then { s with paused := if s.paused.contains p then s.paused else s.paused ++ [p] }
      else flushPort { s with paused := s.paused.filter fun q => q ≠ p } p) :=
  congrArg _ (if_neg (by rw [hm, hf, hq]; simp))

/-! ### Addresses of ports -/

/-- The address of a station's port tells station and port apart (R420, R464). -/
theorem ip6Of_injective {st₁ st₂ p₁ p₂ : Nat} (hp1 : p₁ < 64) (hp2 : p₂ < 64)
    (hx : s.fld .ld (p₁ / 2) R.CXPREFIX_PREFIX = s.fld .ld (p₂ / 2) R.CXPREFIX_PREFIX) (h : ip6Of s st₁ p₁ = ip6Of s st₂ p₂) : st₁ = st₂ ∧ p₁ = p₂ := by
  rw [ip6Of, ip6Of, hx] at h
  omega

/-! ### A new layout -/

theorem not_all_eight_iff {f : Nat → Bool} : (!(List.range 8).all f) = true ↔ ∃ d, d < 8 ∧ f d = false := by
  simp [List.all_eq_false]

/-- What holds of all 8 dies, or stacks. -/
theorem all_eight {f : Nat → Bool} (h : ∀ d, d < 8 → f d = true) : ¬ (!(List.range 8).all f) = true := fun hn => by
  obtain ⟨d, hd, hf⟩ := not_all_eight_iff.mp hn
  exact Bool.false_ne_true (hf.symm.trans (h d hd))

/-- The shard pages that the image marks (R455). -/
def shardsMarked (s : State) : State :=
  (imageRegs s).foldl (fun s e =>
    match regionOf s.grade e.1 with
    | .reg .mc _ off => if R.MCSHARD 0 ≤ off ∧ off < R.MCSHARD 512 then storeReg s e.1 (.ofNat 64 e.2) else s
    | _ => s) s

theorem shardsMarked_regsOnly (s : State) : RegsOnly s (shardsMarked s) := by
  refine .foldl (fun u e => ?_) _ s
  split
  · split
    · exact storeReg_regsOnly u _ _
    · exact .refl u
  · exact .refl u

/-- The layout epoch `l` taken in every LD (R455). -/
def layoutTaken (s : State) (l : Nat) : State :=
  logAndTell (setLds { s with reshardTo := none, stepHold := s.hostGone } R.CXEPOCH_LAYOUT l) 0x0830 l

theorem layoutTaken_holds (s : State) (l : Nat) :
    (layoutTaken s l).reshardTo = none ∧ (layoutTaken s l).stepHold = s.hostGone ∧ (layoutTaken s l).hostGone = s.hostGone := by
  have ho : OutOnly _ (layoutTaken s l) := logAndTell_outOnly _ 0x0830 l
  have hr := setLds_regsOnly { s with reshardTo := none, stepHold := s.hostGone } R.CXEPOCH_LAYOUT l
  exact ⟨(ho.keeps State.reshardTo).trans (hr.keeps State.reshardTo), (ho.keeps State.stepHold).trans (hr.keeps State.stepHold),
    (ho.keeps State.hostGone).trans (hr.keeps State.hostGone)⟩

theorem layoutTaken_layout (s : State) {l ld : Nat} (hl : l < 2 ^ 16) (hd : ld < 32) : (layoutTaken s l).fld .ld ld R.CXEPOCH_LAYOUT = l :=
  ((logAndTell_outOnly _ 0x0830 l).fld ..).trans (fld_setLds_self _ (by decide) hd hl)

/-- The device takes a new layout at a boundary where nothing works any more; with the host gone it goes on holding (R455, R508). -/
theorem reshardApply_hostGone {l : Nat} (ht : s.reshardTo = some l) (hb : bucketOpen s = false)
    (hd : ∀ k, k < 8 → dieStill s k = true ∧ s.fld .mc k R.UUSTAT_STATE = 0) (hg : s.hostGone = true) :
    exec .reshardApply s = .next (layoutTaken (shardsMarked s) l) ∧ (layoutTaken (shardsMarked s) l).reshardTo = none ∧
      (layoutTaken (shardsMarked s) l).stepHold = true := by
  obtain ⟨hnone, hold, hgone⟩ := layoutTaken_holds (shardsMarked s) l
  have hmark : (shardsMarked s).hostGone = true := ((shardsMarked_regsOnly s).keeps State.hostGone).trans hg
  have hstill : ¬ (!(List.range 8).all fun k => dieStill s k && s.fld .mc k R.UUSTAT_STATE == 0) = true := all_eight fun k hk => by
    obtain ⟨hs, hu⟩ := hd k hk
    rw [hs, hu]; rfl
  have hc : ¬ (bucketOpen s = true ∨ (!(List.range 8).all fun k => dieStill s k && s.fld .mc k R.UUSTAT_STATE == 0) = true) :=
    not_or.mpr ⟨by rw [hb]; exact Bool.false_ne_true, hstill⟩
  refine ⟨?_, hnone, hold.trans hmark⟩
  rw [exec_reshardApply, execReshardApply, ht]
  exact congrArg _ ((if_neg hc).trans (if_pos (hgone.trans hmark)))

end

/-- Settles O43: the branches of each command, the two fields of a port that goes down, the digits of an address, and the layout epoch in every LD. -/
theorem cxtPorts : Obligations.CxtPorts := by
  refine ⟨fun s port dev idx x rest h => ⟨fun ho => ?_, fun ho => ?_, fun hn hp hu => resend_stays hn hp hu⟩,
    fun s port dev idx n hx => ⟨fun hw hp hu m hm => cxtRetransmitTimeout_moves hx hw hp hu hm, fun hw ha => cxtRetransmitTimeout_idle hx hw ha,
      fun hp hu ha => ⟨fun hn => ?_, fun hn => ?_⟩⟩,
    fun s p hp => ⟨fun h => congrArg _ (portGoesDown_still h), fun h0 h3 => ⟨_, rfl, portGoesDown_shows h0 h3 (by decide)⟩, fun h => congrArg _ (if_pos ⟨h, rfl⟩),
      congrArg _ (if_neg fun h => Bool.false_ne_true h.2), fun prio hm hf hq => ⟨fun hn => ?_, priorityFlowControlFrame_next hm hf hq false⟩, fun hm hu hn => ?_,
      fun hm hu hn => ?_⟩,
    fun s st₁ st₂ p₁ p₂ _ _ hp1 hp2 hx h => ip6Of_injective hp1 hp2 hx h, fun s l ht hb hd hg hl => ?_, fun s ld v hld hv => ?_,
    fun s ld v => ⟨fun h => congrArg _ (if_pos h), fun h => congrArg _ (if_neg (by rw [h]; decide))⟩⟩
  · rw [cxtRetransmitTimeout_unacked h, if_neg (Nat.not_le.mpr ho)]
  · rw [cxtRetransmitTimeout_unacked h, if_pos ho]
  · rw [cxtRetransmitTimeout_asked hx hp hu ha, if_pos hn]
  · rw [cxtRetransmitTimeout_asked hx hp hu ha, if_neg (Nat.not_le.mpr hn)]
  · rw [priorityFlowControlFrame_next hm hf hq, if_pos rfl, hn]; rfl
  · have hn' : ¬ mget (fun _ => 0) s.replays p + 1 ≥ 16 := by omega
    exact ⟨_, (directModeLinkReplay_next hm hu).trans (congrArg _ (if_neg hn')), mget_mput_self, (replayCounted_state p _).trans (state_of_portUp hu)⟩
  · have hst : (replayCounted s p 0).pf p R.FPSTAT_STATE = 2 := (replayCounted_state p 0).trans (state_of_portUp hu)
    exact ⟨_, (directModeLinkReplay_next hm hu).trans (congrArg _ (if_pos (Nat.succ_le_succ hn))),
      portGoesDown_shows (by rw [hst]; decide) (by rw [hst]; decide) (by decide)⟩
  · obtain ⟨hnext, hnone, hold⟩ := reshardApply_hostGone ht hb hd hg
    exact ⟨_, hnext, hnone, hold, fun _ => layoutTaken_layout _ hl⟩
  · refine ⟨_, rfl, ?_, rfl, rfl, rfl, fun a ha => (State.reg_setFld s ..).trans (if_neg ha)⟩
    exact (State.fld_setFld_self (f := R.CXEPOCH_ALIAS) s v (by decide) (by decide)).trans (Nat.mod_eq_of_lt hv)

end Sys2Proof.Machine
end

section
/-!
SUPPORT. A spare that takes over (R495–R498): the state that it takes, the replay of a stack, and the branches of the restart.
-/

namespace Sys2Proof.Machine

/-! ### The spare -/

/-- The spare with the failed device's tables, its number and its twin (R495). -/
def spareTables (s : State) (dev twin : Nat) : State :=
  setLds (setLds (setLds ((addrPairs (Config.deviceTables s.image dev)).foldl (fun s e => storeReg s e.1 (.ofNat 64 e.2)) s) R.CXCFG_DEV dev) R.TWCFG_PARTNER twin)
    R.TWCFG_PAIREN 1

/-- The spare in takeover, about to pull the state of the failed device. -/
def spareTaken (s : State) (dev twin : Nat) : State :=
  { setPair (spareTables s dev twin) 3 with
    pulling := some twin, dataReady := false, replayDue := true, stepHold := false,
    aborting := some { step := stepNow (spareTables s dev twin), takeover := true, failed := dev, reported := true }, released := none }

theorem setPair_outOnly (s : State) (v : Nat) : OutOnly (setLds s R.TWSTAT_PAIR v) (setPair s v) := .ite (logAndTell_outOnly ..) (.refl _)

/-- A field of an LD that is the failed device's or its twin's, or of a pair in takeover. -/
theorem spareTaken_fld (s : State) {dev twin ld : Nat} (hl : ld < 32) (hd : dev < 2 ^ 16) (ht : twin < 2 ^ 16) :
    (spareTaken s dev twin).fld .ld ld R.CXCFG_DEV = dev ∧ (spareTaken s dev twin).fld .ld ld R.TWCFG_PARTNER = twin ∧
      (spareTaken s dev twin).fld .ld ld R.TWCFG_PAIREN = 1 ∧ (spareTaken s dev twin).fld .ld ld R.TWSTAT_PAIR = 3 := by
  have hp : ∀ f, (spareTaken s dev twin).fld .ld ld f = (setLds (spareTables s dev twin) R.TWSTAT_PAIR 3).fld .ld ld f :=
    fun f => (setPair_outOnly (spareTables s dev twin) 3).fld .ld ld f
  refine ⟨?_, ?_, ?_, ?_⟩ <;> rw [hp]
  · rw [fld_setLds_apart _ _ (by decide), spareTables, fld_setLds_apart _ _ (by decide), fld_setLds_apart _ _ (by decide), fld_setLds_self _ (by decide) hl hd]
  · rw [fld_setLds_apart _ _ (by decide), spareTables, fld_setLds_apart _ _ (by decide), fld_setLds_self _ (by decide) hl ht]
  · rw [fld_setLds_apart _ _ (by decide), spareTables, fld_setLds_self _ (by decide) hl (by decide)]
  · rw [fld_setLds_self _ (by decide) hl (by decide)]

/-- A chosen spare takes over, and starts its pull where the alias names it already (R495). -/
theorem spareChosen_next (s : State) (dev twin : Nat) : ∃ u, exec (.spareChosen dev twin) s = .next u ∧ OutOnly (spareTaken s dev twin) u :=
  ⟨_, rfl, .ite (startPull_outOnly ..) (.refl _)⟩

/-! ### The pull and the replay -/

/-- A pull of which only reads of tiles are still open has ended (R496). -/
theorem statePullComplete_done {s : State} {dev : Nat} (hp : s.pulling = some dev) (hr : ∀ r ∈ s.cxReads, ∃ t tag, r.kind = .tile t tag) :
    exec (.statePullComplete true) s = .next { s with pulling := none } := by
  rw [exec_statePullComplete, execStatePullComplete, hp]
  refine congrArg _ ((if_neg Bool.false_ne_true).trans ((if_neg Bool.false_ne_true).trans (if_neg fun h => ?_)))
  obtain ⟨r, hm, hk⟩ := List.any_eq_true.mp h
  obtain ⟨t, tag, ht⟩ := hr r hm
  rw [ht] at hk
  exact Bool.false_ne_true hk

/-- The last released step of a control block whose newest complete generation is `g`. -/
def lastReleased (blk : List Byte) (g : Nat) : Nat := (releasedAfter blk g).foldl (fun m e => max m e.2) g

/-- A replay ends with the last released step, and its SKIP, in `UUSTAT` (R497). -/
theorem replayStack_ends {s : State} {blk : List Byte} {n g : Nat} (dev k upto : Nat) (h : newestGen blk = some (n, g)) :
    ∃ u : State, replayStack s dev k blk upto =
      (u.setFld .mc k R.UUSTAT_CSTEP (lastReleased blk g)).setFld .mc k R.UUSTAT_LASTSKIP (b2n (skipped blk (lastReleased blk g))) := by
  rw [replayStack, h]
  exact ⟨_, rfl⟩

theorem replayStack_cstep {s : State} {blk : List Byte} {n g : Nat} (dev k upto : Nat) (h : newestGen blk = some (n, g)) (hl : lastReleased blk g < 2 ^ 32) :
    (replayStack s dev k blk upto).fld .mc k R.UUSTAT_CSTEP = lastReleased blk g := by
  obtain ⟨u, hu⟩ := replayStack_ends (s := s) dev k upto h
  rw [hu, fld_setFld_apart _ (by decide) (by decide), State.fld_setFld_self _ _ (by decide) (by decide)]
  exact Nat.mod_eq_of_lt hl

theorem replayStack_lastskip {s : State} {blk : List Byte} {n g : Nat} (dev k upto : Nat) (h : newestGen blk = some (n, g)) :
    (replayStack s dev k blk upto).fld .mc k R.UUSTAT_LASTSKIP = if skipped blk (lastReleased blk g) then 1 else 0 := by
  obtain ⟨u, hu⟩ := replayStack_ends (s := s) dev k upto h
  rw [hu, State.fld_setFld_self _ _ (by decide) (by decide)]
  cases skipped blk (lastReleased blk g) <;> rfl

/-! ### The restart -/

/-- What keeps a device from the restart (R29, R492, R495, R526): it has left or been replaced, has not its state, or has a tile that is not still. -/
abbrev RestartBarred (s : State) : Prop :=
  s.left = true ∨ s.replaced = true ∨ s.pulling.isSome = true ∨ s.replayDue = true ∨ (!(List.range 8).all (dieStill s)) = true

section
variable {s : State}

theorem restart_barred (h : RestartBarred s) : exec .restart s = .next s := by
  rw [exec_restart, execRestart]
  split
  · rfl
  · exact congrArg _ (if_pos h)

theorem restartBarred_not (hl : s.left = false) (hr : s.replaced = false) (hp : s.pulling = none) (hd : s.replayDue = false) (hs : ∀ d, d < 8 → dieStill s d = true) :
    ¬ RestartBarred s := by
  simp [RestartBarred, hl, hr, hp, hd, all_eight hs]

end

/-- Settles O45: the fields of a spare that takes over, what a replay of a stack ends with, and the branches of the other commands. -/
theorem spareRestarts : Obligations.SpareRestarts := by
  refine ⟨fun s dev twin hd ht => ?_, fun s dev hp => ⟨?_, statePullComplete_done hp⟩, fun s h3 hp ht => ?_, fun s dev k upto n g blk _ h => ⟨fun hl => ?_, ?_⟩,
    fun s h => restart_barred ?_, fun s a ha hl hr hp hd hs => ⟨fun hi => ?_, fun hi => ?_⟩⟩
  · obtain ⟨u, hu, ho⟩ := spareChosen_next s dev twin
    exact ⟨u, hu, ho.keeps State.pulling, ho.keeps State.dataReady, ho.keeps State.replayDue, ho.keeps State.released, ⟨_, ho.keeps State.aborting⟩,
      fun ld hl => by simpa only [ho.fld] using spareTaken_fld s hl hd ht⟩
  · rw [exec_statePullComplete, execStatePullComplete, hp]; rfl
  · rw [exec_journalReplay, execJournalReplay, hp, ht]
    exact congrArg _ (if_neg (by rw [h3]; decide))
  · exact replayStack_cstep dev k upto h hl
  · exact replayStack_lastskip dev k upto h
  · rwa [RestartBarred, not_all_eight_iff]
  · have hn := restartBarred_not hl hr hp hd hs
    rw [exec_restart, execRestart, ha]
    exact congrArg _ ((if_neg hn).trans (if_pos (not_all_eight_iff.mpr hi)))
  · have hn := restartBarred_not hl hr hp hd hs
    rw [exec_restart, execRestart, ha]
    exact congrArg _ ((if_neg hn).trans (if_neg (all_eight hi)))

end Sys2Proof.Machine
end

section
/-!
SUPPORT. The register files of a tile's contexts (R60, R61): what is read after a write, file by file.
-/

namespace Sys2Proof.Machine

variable {s : State} {t c : Nat}

theorem ctx_modCtx_self (x : Tile) (c : Nat) (f : Ctx → Ctx) : (x.modCtx c f).ctx c = f (x.ctx c) := by
  by_cases hc : c = 0 <;> simp [Tile.modCtx, Tile.ctx, hc]

theorem State.ctx_modCtx (f : Ctx → Ctx) : ((s.modCtx t c f).tile t).ctx c = f ((s.tile t).ctx c) := by
  rw [State.tile_modCtx, if_pos rfl, ctx_modCtx_self]

theorem rs_setS (n m : Nat) (v : Word) : rs (setS s t c n v) t c m = if m = n then v else rs s t c m := by
  rw [rs, setS, State.ctx_modCtx]; exact mget_mput

theorem ra_setA (n m : Nat) (v : Word) : ra (setA s t c n v) t c m = if m = n then v else ra s t c m := by
  rw [ra, setA, State.ctx_modCtx]; exact mget_mput

theorem rv_setV (n m : Nat) (v : Vec) : rv (setV s t c n v) t c m = if m = n then .ofNat 8192 (v.toNat % 2 ^ (8 * vbytes t)) else rv s t c m := by
  rw [rv, setV, State.ctx_modCtx]; exact mget_mput

theorem rp_setS (n m : Nat) (v : Word) : rp (setS s t c n v) t c m = rp s t c m := by
  rw [rp, setS, State.ctx_modCtx]; rfl

/-- `p0` reads all ones (R61). -/
theorem rp_zero : rp s t c 0 = BitVec.allOnes 256 := if_pos rfl

/-- A write of `p0` is discarded (R61). -/
theorem setP_zero (v : Pred) : setP s t c 0 v = s := if_pos rfl

theorem setP_of_ne {n : Nat} (hn : n ≠ 0) (v : Pred) :
    setP s t c n v = s.modCtx t c fun x => { x with p := mput (fun _ => 0) x.p n (.ofNat 256 (v.toNat % 2 ^ lanesOf t)) } := if_neg hn

theorem rp_setP {n : Nat} (hn : n ≠ 0) (m : Nat) (v : Pred) :
    rp (setP s t c n v) t c m = if m = n then .ofNat 256 (v.toNat % 2 ^ lanesOf t) else rp s t c m := by
  by_cases hm : m = 0
  · rw [hm, rp_zero, rp_zero, if_neg (Ne.symm hn)]
  · rw [rp, rp, if_neg hm, if_neg hm, setP_of_ne hn, State.ctx_modCtx]; exact mget_mput

theorem tile_modCtx_ne {k : Nat} (hk : k ≠ t) (f : Ctx → Ctx) : (s.modCtx t c f).tile k = s.tile k := by
  rw [State.tile_modCtx, if_neg hk]

theorem tile_setP_ne {k : Nat} (hk : k ≠ t) (n : Nat) (v : Pred) : (setP s t c n v).tile k = s.tile k := by
  rw [setP]
  split
  · rfl
  · exact tile_modCtx_ne hk _

/-- Settles O56: each file reads as a map that has been written at one key; `p0` is no entry of its file. -/
theorem registerFiles : Obligations.RegisterFiles := by
  refine fun s t c _ => ⟨fun v => ⟨rp_zero, setP_zero v⟩, fun n v hn => ⟨?_, fun m hm => ?_⟩, fun n v => ⟨?_, fun m hm => ?_, fun m => rp_setS n m v⟩,
    fun n v => ⟨?_, fun m hm => ?_⟩, fun n v => ⟨?_, fun m hm => ?_⟩,
    fun n v p x k hk => ⟨tile_modCtx_ne hk _, tile_modCtx_ne hk _, tile_modCtx_ne hk _, tile_setP_ne hk n p⟩⟩
  · rw [rp_setP hn, if_pos rfl]
  · rw [rp_setP hn, if_neg hm]
  · rw [rs_setS, if_pos rfl]
  · rw [rs_setS, if_neg hm]
  · rw [ra_setA, if_pos rfl]
  · rw [ra_setA, if_neg hm]
  · rw [rv_setV, if_pos rfl]
  · rw [rv_setV, if_neg hm]

end Sys2Proof.Machine
end

section
/-!
SUPPORT. The gather buffer (R93–R98): a write that goes over two rows may drain a row while it makes room for its first row and write the same row again with its second.
-/

namespace Sys2Proof.Machine

/-- Row 1 of tile 0 has one dirty byte, and scalar loads have filled the buffer with 15 clean rows since: row 1 is the oldest of its 16 entries. -/
def fullBuffer : State := (List.range 15).foldl (fun s i => gbFill s 0 (64 * (i + 2)) 1) (gbWrite State.reset 0 64 [0xAA] false)

/-- A write of the last byte of row 0 and the first of row 1: row 0 takes the entry of row 1, whose dirty byte 0xAA is drained; the byte written to row 1 is dirty in a
new entry. -/
theorem fullBuffer_write : let u := gbWrite fullBuffer 0 63 [0x11, 0x22] false
    fullBuffer.byte (spadAddr 0 64) = 0 ∧ u.byte (spadAddr 0 64) = 0xAA ∧ ownByte u 0 64 = 0x22 := by decide +kernel

/-- Refutes O5: memory shows, of a byte that is dirty in the oldest row of a full buffer and is written again by the second row of a write, the byte as the tile saw it before
the write: neither what memory showed before nor what the tile sees after. -/
theorem not_gatherBufferView : ¬ Obligations.GatherBufferView := by
  intro h
  obtain ⟨hs, hu, ho⟩ := fullBuffer_write
  obtain ⟨-, hmem, -⟩ := h fullBuffer 0 63 [0x11, 0x22] false
  rcases hmem 64 with e | e
  · rw [hs, hu] at e; exact absurd e (by decide)
  · rw [hu, ho] at e; exact absurd e (by decide)

end Sys2Proof.Machine
end

section
/-!
SUPPORT. The sequencer's fetch (R48, R105–R107, R619) and the dispatch of a queue's head (R50–R56): what a fetch finds of the row of the next instruction, and what stands
in the queue after its head has left.
-/

namespace Sys2Proof.Machine

variable {s : State} {t : Nat}

/-! ### The fetched row -/

/-- The instruction word at an offset of a tile's scratchpad. -/
abbrev wordAt (s : State) (t pc : Nat) : Word := BitVec.ofNat 64 (ofBytes (s.rd (spadAddr t pc) 8))

/-- A fetched row holds the word of the index that it was fetched for. -/
theorem fetchRow_find {c i pc : Nat} (h : progOffset s t c i = some pc) : (fetchRow s t c i).find? (fun e => e.1 == i) = some (i, wordAt s t pc) := by
  have hk : (List.range 8).find? (fun k => ((progOffset s t c (i / 8 * 8 + k)).map fun o => (i / 8 * 8 + k, wordAt s t o)).any fun e => e.1 == i) = some (i % 8) := by
    rw [List.find?_range_eq_some]
    have hi : i / 8 * 8 + i % 8 = i := by omega
    refine ⟨?_, List.mem_range.mpr (Nat.mod_lt _ (by decide)), fun j hj => ?_⟩
    · simp [hi, h]
    · have hne : i / 8 * 8 + j ≠ i := by omega
      cases progOffset s t c (i / 8 * 8 + j) <;> simp [hne]
  have hi : i / 8 * 8 + i % 8 = i := by omega
  rw [fetchRow, List.find?_filterMap, hk]
  simp [hi, h]

/-- The program area of a tile is where `TPROG` says. -/
theorem progOffset_congr {u : State} (h : ∀ f : Fld, f.off = R.TPROG → u.tf t f = s.tf t f) (c i : Nat) : progOffset u t c i = progOffset s t c i := by
  have ha : areaLen u t c = areaLen s t c := by rw [areaLen, areaLen, h R.TPROG_PWIDE rfl, h R.TPROG_BWIDE rfl]
  rw [progOffset, progOffset, ha, h R.TPROG_PBANK rfl, h R.TPROG_BBANK rfl]

theorem fetchRow_congr {u : State} (h : ∀ f : Fld, f.off = R.TPROG → u.tf t f = s.tf t f) (hm : u.mem = s.mem) (c i : Nat) : fetchRow u t c i = fetchRow s t c i := by
  have hrd : ∀ a n, u.rd a n = s.rd a n := fun a n => by simp only [State.rd, State.byte, hm]
  simp only [fetchRow, progOffset_congr h, hrd]

/-- A recovered parity error is recorded in `SPPERR` and noted (R107). -/
theorem tf_parityEffect_recovered {g : Fld} (pc o : Nat) (h : g.off ≠ R.SPPERR) : (parityEffect s t pc (.recovered o)).tf t g = s.tf t g := by
  have hn : ∀ u : State, (noteRow u t o).tf t g = u.tf t g := fun u => rfl
  rw [parityEffect, hn, tf_setTf_ne _ h, tf_setTf_ne _ h, tf_setTf_ne _ h]

theorem fetchRow_recovered (pc o c i : Nat) : fetchRow (parityEffect s t pc (.recovered o)) t c i = fetchRow s t c i :=
  fetchRow_congr (fun f hf => tf_parityEffect_recovered pc o (by rw [hf]; decide)) rfl c i

/-! ### The fetch -/

/-- The row of the next instruction of `s` in the fetch buffer of `u`, which holds two rows. -/
def rowTaken (s : State) (t : Nat) (u : State) : State :=
  let c := s.actx t
  let i := ((s.tile t).ctx c).idx
  u.modTile t fun x => { x with fbuf := (x.fbuf.filter fun e => e.1 / 8 ≠ i / 8).drop (x.fbuf.length - 8) ++ fetchRow s t c i }

/-- The fetched word is an instruction, or raises ILLEGAL (R619). -/
def fetched (s : State) (t pc : Nat) (u : State) : State :=
  if (decodeInstr t (wordAt s t pc)).isSome then rowTaken s t u else settle (progFault (rowTaken s t u) t fILLEGAL pc 0) t

/-- What stands between a fetch and the row: the tile may issue, and its next instruction lies in the program area. -/
structure Fetches (s : State) (t pc : Nat) : Prop where
  issues : canIssue s t = true
  area : progOffset s t (s.actx t) ((s.tile t).ctx (s.actx t)).idx = some pc

section
variable {pc : Nat} (h : Fetches s t pc)
include h

theorem fetch_outside (hg : groupsOk s t (s.actx t) pc 8 = false) (par : Parity) :
    execSequencerFetch t par s = .next (settle (progFault s t fACCESS pc (spadAddr t pc)) t) := by
  simp [execSequencerFetch, h.issues, h.area, hg]

theorem fetch_unrecovered (hg : groupsOk s t (s.actx t) pc 8 = true) (o : Nat) :
    execSequencerFetch t (.unrecovered o) s = .next (hardFault (noteRow s t o) t fPARITY pc (spadAddr t (o / 64 * 64))) := by
  simp [execSequencerFetch, h.issues, h.area, hg, parityEffect]

/-- A fetch whose row is read in the end takes it, whatever was recorded on the way. -/
theorem fetch_read (hg : groupsOk s t (s.actx t) pc 8 = true) {par : Parity} (hp : ∀ o, par ≠ .unrecovered o)
    (hrow : fetchRow (parityEffect s t pc par) t (s.actx t) ((s.tile t).ctx (s.actx t)).idx = fetchRow s t (s.actx t) ((s.tile t).ctx (s.actx t)).idx) :
    execSequencerFetch t par s = .next (fetched s t pc (parityEffect s t pc par)) := by
  have hw := fetchRow_find h.area
  simp only [execSequencerFetch, h.issues, h.area, hg, Bool.not_true, Bool.false_eq_true, if_false, hrow, hw, Option.bind_some]
  refine congrArg _ ?_
  cases par with
  | unrecovered o => exact absurd rfl (hp o)
  | clean => cases hd : decodeInstr t (wordAt s t pc) <;> simp [fetched, rowTaken, hd]
  | recovered o => cases hd : decodeInstr t (wordAt s t pc) <;> simp [fetched, rowTaken, hd]

theorem fetch_clean (hg : groupsOk s t (s.actx t) pc 8 = true) : execSequencerFetch t .clean s = .next (fetched s t pc s) :=
  fetch_read h hg (fun _ e => by cases e) rfl

theorem fetch_recovered (hg : groupsOk s t (s.actx t) pc 8 = true) (o : Nat) :
    execSequencerFetch t (.recovered o) s = .next (fetched s t pc (parityEffect s t pc (.recovered o))) :=
  fetch_read h hg (fun _ e => by cases e) (fetchRow_recovered ..)

end

/-! ### Dispatch -/

/-- A queue without an instruction that has left it. -/
abbrev dequeued (s : State) (t : Nat) (q : Queued) : State := s.modTile t fun x => { x with queue := x.queue.filter fun p => p.id ≠ q.id }

/-- The head of the tile's queue that nothing keeps leaves it and takes effect. -/
theorem dispatch_head {q : Queued} {rest : List Queued} (hf : s.tstate t ≠ fenced) (hh : s.tf t R.TSTAT_HALTED = 0) (hq : (s.tile t).queue = q :: rest)
    (hc : canDispatch s t q = true) :
    execEngineDispatch t q.eng .clean s = .next (settle (nextHead (effOf q.instr q (clockLanes (dequeued s t q) t q.eng)) t q.eng) t) := by
  have hfind : (s.tile t).queue.find? (fun p => p.eng == q.eng) = some q := by simp [hq]
  have hgo : ¬ (s.tstate t = fenced ∨ s.tf t R.TSTAT_HALTED = 1) := by simp [hf, hh]
  simp only [execEngineDispatch, if_neg hgo, hfind, hc, Bool.not_true, Bool.false_eq_true, if_false, parityEffect]

/-- Only the matrix engine does something for the next head of its queue: it may release the batch gate. -/
theorem nextHead_of_ne_me {e : Engine} (he : e ≠ .me) : nextHead s t e = s := by
  unfold nextHead
  split
  · exact if_neg (by simp [he])
  · rfl

/-- An SALU at the head of the scalar engine's queue reads its operands and writes its result, under a set lane-0 bit of its predicate (R621, R625). -/
theorem salu_dispatched (q : Queued) (f : FmtS3) :
    nextHead (effOf (.salu t f) q (clockLanes (dequeued s t q) t .sc)) t .sc =
      if lane0 s t q.ctx f.pred then setS (dequeued s t q) t q.ctx f.rd.toNat (saluOp f.func.toNat (rs s t q.ctx f.ra.toNat) (rs s t q.ctx f.rb.toNat))
      else dequeued s t q := by
  have hs : ∀ n, rs (dequeued s t q) t q.ctx n = rs s t q.ctx n := fun n => by rw [rs, State.tile_modTile, if_pos rfl]; rfl
  have hl : lane0 (dequeued s t q) t q.ctx f.pred = lane0 s t q.ctx f.pred := by rw [lane0, rp, State.tile_modTile, if_pos rfl]; rfl
  rw [nextHead_of_ne_me (by decide), clockLanes_of (by decide)]
  show predicated _ _ _ _ _ = _
  rw [predicated, hl, hs, hs]

/-- Settles O16: the fetch by what its parity check finds and whether the word decodes, the dispatch by what the head does. -/
theorem fetchAndDispatch : Obligations.FetchAndDispatch := by
  refine ⟨fun s t pc hi => ?_, fun s t e q rest hf hh hq he hc => ?_⟩
  · intro c i w got hp
    have h : Fetches s t pc := ⟨hi, hp⟩
    refine ⟨fun hg => ⟨fun o hd => ⟨?_, ?_⟩, fun hd => ?_, fetch_unrecovered h hg⟩, fetch_outside h⟩
    · exact (fetch_clean h hg).trans (congrArg _ (if_pos hd))
    · exact (fetch_recovered h hg o).trans (congrArg _ (if_pos hd))
    · exact (fetch_clean h hg).trans (congrArg _ (if_neg (by rw [hd]; decide)))
  · subst he
    have hx := dispatch_head hf hh hq hc
    refine ⟨hx, fun f hqi he hl => hx.trans ?_, fun f hqi he hl => hx.trans ?_⟩
    · rw [hqi, he, salu_dispatched, if_pos hl]
    · rw [hqi, he, salu_dispatched, if_neg (by rw [hl]; decide)]

end Sys2Proof.Machine
end

section
/-!
SUPPORT. The clock of a tile's array or lanes (R158–R165): what a request for units, its grant, and a clock that is gated change.
-/

namespace Sys2Proof.Machine

/-! ### What changes the clock alone -/

/-- Two states that agree in everything but the clock of a tile's array or lanes and the requests at the governors. -/
structure ClockOnly (t : Nat) (s u : State) : Prop where
  frame : u = { s with tiles := u.tiles, gov := u.gov }
  others : ∀ k, k ≠ t → u.tile k = s.tile k
  tile : u.tile t = { s.tile t with phase := (u.tile t).phase, units := (u.tile t).units, wantUnits := (u.tile t).wantUnits }

section
variable {s u v : State} {t : Nat}

theorem ClockOnly.refl (t : Nat) (s : State) : ClockOnly t s s := ⟨rfl, fun _ _ => rfl, rfl⟩

theorem ClockOnly.trans (h : ClockOnly t s u) (g : ClockOnly t u v) : ClockOnly t s v := by
  refine ⟨?_, fun k hk => (g.others k hk).trans (h.others k hk), ?_⟩
  · rw [g.frame, h.frame]
  · rw [g.tile, h.tile]

theorem ClockOnly.ite {p : Prop} [Decidable p] (h : ClockOnly t s u) (g : ClockOnly t s v) : ClockOnly t s (if p then u else v) := by
  split <;> assumption

theorem ClockOnly.reg (h : ClockOnly t s u) (a : Nat) : u.reg a = s.reg a := by rw [h.frame]; rfl

theorem setPhase_clockOnly (s : State) (t : Nat) (p : SoakPhase) : ClockOnly t s (s.modTile t fun x => { x with phase := p }) := by
  refine ⟨rfl, fun k hk => ?_, ?_⟩
  · rw [State.tile_modTile, if_neg hk]
  · rw [State.tile_modTile, if_pos rfl]

theorem tile_askUnits (s : State) (t n k : Nat) : (askUnits s t n).tile k = if k = t then { s.tile t with wantUnits := true } else s.tile k := by
  by_cases h : (s.tile t).wantUnits = true
  · rw [askUnits, if_pos h, ← h]
    split
    · subst k; rfl
    · rfl
  · rw [askUnits, if_neg h]; exact mget_mput

theorem askUnits_clockOnly (s : State) (t n : Nat) : ClockOnly t s (askUnits s t n) := by
  refine ⟨by unfold askUnits; split <;> rfl, fun k hk => ?_, ?_⟩
  · rw [tile_askUnits, if_neg hk]
  · rw [tile_askUnits, if_pos rfl]

theorem tile_dropUnits (s : State) (t k : Nat) : (dropUnits s t).tile k = if k = t then { s.tile t with wantUnits := false, units := 0 } else s.tile k := mget_mput

theorem dropUnits_clockOnly (s : State) (t : Nat) : ClockOnly t s (dropUnits s t) := by
  refine ⟨rfl, fun k hk => ?_, ?_⟩
  · rw [tile_dropUnits, if_neg hk]
  · rw [tile_dropUnits, if_pos rfl]

theorem rampDown_clockOnly (s : State) (t : Nat) : ClockOnly t s (rampDown s t) := .ite (askUnits_clockOnly ..) (setPhase_clockOnly ..)

theorem forceDown_clockOnly (s : State) (t : Nat) : ClockOnly t s (forceDown s t) :=
  .ite (.refl t s) (((dropUnits_clockOnly s t).trans (setPhase_clockOnly _ t .hold)).trans (rampDown_clockOnly _ t))

end

/-! ### The phases -/

variable {s : State} {t : Nat}

/-- The ramp-down of an M-tile waits for its governor, that of another tile begins at once (R160–R163). -/
theorem rampDown_of_mTile (h : classOf t = 0) : rampDown s t = askUnits s t (rampDownUnits s t) := if_pos h

theorem rampDown_of_other (h : classOf t ≠ 0) : rampDown s t = s.modTile t fun x => { x with phase := .rampDown } := if_neg h

theorem soakHoldEnd_next (h : (s.tile t).phase = .hold) : exec (.soakHoldEnd t) s = .next (rampDown s t) := by
  rw [exec_soakHoldEnd, execSoakHoldEnd, if_pos h]

/-- A tile with the units that its governor has granted it (R162): a hold that waited for them ends. -/
def granted (s : State) (t n : Nat) : State :=
  { s.modTile t (fun x => { x with wantUnits := false, units := n, phase := if x.phase = .hold then .rampDown else x.phase }) with
    gov := s.gov.filter fun r => r.1 ≠ t }

/-- The oldest request of a die is granted once its units are free. -/
theorem governorGrant_next {n : Nat} {rest : List (Nat × Nat)} (hg : s.gov = (t, n) :: rest)
    (hu : ((s.tiles.filter fun e => e.1 / 256 == t / 256).map fun e => e.2.units).foldl (· + ·) 0 + n ≤ 64) :
    exec (.governorGrant t) s = .next (granted s t n) := by
  have hf : s.gov.find? (fun r => r.1 / 256 == t / 256) = some (t, n) := by simp [hg]
  simp only [exec_governorGrant, execGovernorGrant, hf]
  exact congrArg _ (if_pos ⟨trivial, hu⟩)

theorem tile_granted (n k : Nat) : (granted s t n).tile k =
    if k = t then { s.tile t with wantUnits := false, units := n, phase := if (s.tile t).phase = .hold then .rampDown else (s.tile t).phase } else s.tile k :=
  mget_mput

/-- A tile whose clock is gated: it holds no units and asks for none, and it sleeps if it soaked (R165). -/
def gated (s : State) (t : Nat) : State :=
  let u := (dropUnits s t).modTile t fun x => { x with phase := .gated }
  if s.tstate t = soaking then u.setTstate t asleep else u

theorem rampDownEnd_next (hp : (s.tile t).phase = .rampDown) (h0 : (s.tile t).step = 0) : exec (.rampDownEnd t) s = .next (gated s t) := by
  rw [exec_rampDownEnd, execRampDownEnd]
  exact congrArg _ (if_pos (.inl ⟨hp, h0⟩))

theorem tile_gated (k : Nat) :
    (gated s t).tile k = if k = t then { s.tile t with wantUnits := false, units := 0, phase := .gated } else s.tile k := by
  have h : ∀ k, ((dropUnits s t).modTile t fun x => { x with phase := .gated }).tile k =
      if k = t then { s.tile t with wantUnits := false, units := 0, phase := .gated } else s.tile k := fun k => by
    rw [State.tile_modTile, tile_dropUnits, tile_dropUnits, if_pos rfl]
    by_cases hk : k = t <;> simp [hk]
  rw [gated]
  split
  · exact h k
  · exact h k

theorem gov_gated : (gated s t).gov = s.gov.filter fun r => r.1 ≠ t := by
  rw [gated]; split <;> rfl

theorem tstate_gated : (gated s t).tstate t = if s.tstate t = soaking then asleep else s.tstate t := by
  rw [gated]
  split
  · exact tf_setTf_self (f := R.TSTAT_STATE) asleep (by decide) (by decide)
  · rfl

theorem reg_gated {a : Nat} (h : a ≠ regAddr .tile t R.TSTAT) : (gated s t).reg a = s.reg a := by
  rw [gated]
  split
  · rw [State.reg_setTstate, if_neg h]; rfl
  · rfl

theorem gated_frame : gated s t = { s with regs := (gated s t).regs, tiles := (gated s t).tiles, gov := (gated s t).gov } := by
  rw [gated]; split <;> rfl

/-- A ramp-up that has its units goes on by a step, ends, or stays at 8/16 of a reduced share (R161, R546). -/
theorem rampUpStep_next (hp : (s.tile t).phase = .rampUp) (hw : (s.tile t).wantUnits = false) : exec (.rampUpStep t) s = .next (
    if 16 ≤ (s.tile t).step then rampedUp s t
    else if s.tf t R.TPWR_REDUCED = 1 ∧ 8 ≤ (s.tile t).step then s
    else s.modTile t fun x => { x with step := x.step + 1 }) := by
  rw [exec_rampUpStep, execRampUpStep]
  exact congrArg _ (if_neg (by simp [hp, hw]))

theorem rampDownStep_next (h : (s.tile t).phase = .rampDown) : ∃ u, exec (.rampDownStep t) s = .next u ∧ u.tile t = { s.tile t with step := (s.tile t).step - 1 } ∧
    u = { s with tiles := u.tiles } ∧ ∀ k, k ≠ t → u.tile k = s.tile k := by
  refine ⟨_, rfl, ?_, rfl, fun k hk => ?_⟩
  · rw [State.tile_modTile, if_pos rfl, if_pos h]
  · rw [State.tile_modTile, if_neg hk]

/-- Settles O31: each command by what it answers in its phase. -/
theorem clockPhases : Obligations.ClockPhases := by
  refine fun s t => ⟨fun h => congrArg _ (if_pos h), fun h hc => ?_, fun h hc => ?_, fun n rest hg hu => ?_, rampDownStep_next, fun hp h0 => ?_, fun hp hw => ?_⟩
  · rw [soakHoldEnd_next h, rampDown_of_other hc]
  · rw [soakHoldEnd_next h, rampDown_of_mTile hc]
  · have ht := tile_granted (s := s) (t := t) n t
    rw [if_pos rfl] at ht
    refine ⟨_, governorGrant_next hg hu, ?_, ?_, ?_, rfl, rfl, fun k hk => (tile_granted n k).trans (if_neg hk)⟩ <;> rw [ht]
  · have ht := tile_gated (s := s) (t := t) t
    rw [if_pos rfl] at ht
    refine ⟨_, rampDownEnd_next hp h0, by rw [ht], by rw [ht], tstate_gated, fun r hr => ?_, gated_frame, fun a ha => reg_gated ha, fun k hk => (tile_gated k).trans (if_neg hk)⟩
    rw [gov_gated, List.mem_filter] at hr
    exact of_decide_eq_true hr.2
  · rw [rampUpStep_next hp hw]
    refine ⟨fun h => by rw [if_pos h], fun h hr => ?_, fun h h8 hr => ?_⟩
    · rw [if_neg (by omega), if_neg (by omega)]
    · rw [if_neg (by omega), if_pos ⟨hr, h8⟩]

end Sys2Proof.Machine
end

section
/-!
SUPPORT. The report of a tile's fault (R530, R531): it changes queues and counters of a die and a gatehouse, but no register of a tile.
-/

namespace Sys2Proof.Machine

/-- Two states that agree in everything but what a report changes (R530, R531), and in every register of the tiles. -/
def Reported (s u : State) : Prop :=
  u = { s with regs := u.regs, repSeq := u.repSeq, toLog := u.toLog, cqHeld := u.cqHeld, mbHeld := u.mbHeld, toHost := u.toHost, chp := u.chp } ∧
    ∀ a, TileAddr a → u.reg a = s.reg a

section
variable {s u v : State}

theorem Reported.trans (h : Reported s u) (g : Reported u v) : Reported s v := by
  obtain ⟨hf, hr⟩ := h
  obtain ⟨gf, gr⟩ := g
  refine ⟨?_, fun a ha => (gr a ha).trans (hr a ha)⟩
  rw [hf] at gf
  exact gf

theorem Reported.ite {p : Prop} [Decidable p] (h : Reported s u) (g : Reported s v) : Reported s (if p then u else v) := by
  split <;> assumption

theorem Reported.refl (s : State) : Reported s s := ⟨rfl, fun _ _ => rfl⟩

theorem Reported.of_regsOnly (h : RegsOnly s u) (hr : ∀ a, TileAddr a → u.reg a = s.reg a) : Reported s u := by
  refine ⟨?_, hr⟩
  unfold RegsOnly at h
  rw [h]

end

section
variable {s u : State} (h : Reported s u)
include h

theorem Reported.tiles : u.tiles = s.tiles := by rw [h.1]

theorem Reported.mem : u.mem = s.mem := by rw [h.1]

theorem Reported.bind : u.bind = s.bind := by rw [h.1]

theorem Reported.tile (k : Nat) : u.tile k = s.tile k := by rw [State.tile, State.tile, h.tiles]

end

/-- An address above the tiles' registers. -/
abbrev AboveTiles (a : Nat) : Prop := 0xC0_0800_0000 ≤ a

theorem aboveTiles_of {b : Block} (hb : b ≠ .tile) (n off : Nat) : AboveTiles (regAddr b n off) := by
  cases b with
  | tile => exact absurd rfl hb
  | die | mc | ld | hd | gh => simp only [AboveTiles, regAddr]; omega

theorem ne_of_aboveTiles {a b : Nat} (ha : TileAddr a) (hb : AboveTiles b) : a ≠ b := by
  simp only [TileAddr, AboveTiles] at ha hb; omega

section
variable (s : State)

theorem setReg_reported {a : Nat} (h : AboveTiles a) (w : Word) : Reported s (s.setReg a w) :=
  .of_regsOnly rfl fun x hx => by rw [State.reg_setReg, if_neg (ne_of_aboveTiles hx h)]

theorem setReg_regsOnly (a : Nat) (w : Word) : RegsOnly s (s.setReg a w) := rfl

theorem putReport_reported {base ptr : Nat} (hb : AboveTiles base) (hp : AboveTiles ptr) (slots : Nat) (r : List Word) : Reported s (putReport s base ptr slots r) :=
  .of_regsOnly ((RegsOnly.foldl (fun u _ => setReg_regsOnly u _ _) (List.range 4) s).trans rfl) fun x hx =>
    reg_putReport (ne_of_aboveTiles hx hp) (by simp only [TileAddr, AboveTiles] at hx hb; omega)

theorem mailReport_reported (gh : Nat) (r : List Word) : Reported s (mailReport s gh r) :=
  have hg : ∀ off, AboveTiles (regAddr .gh gh off) := aboveTiles_of (by decide) gh
  .ite (putReport_reported s (hg _) (hg _) _ _) (.ite ⟨rfl, fun _ _ => rfl⟩ (setReg_reported s (hg _) _))

/-- A report of a die as it enters the die's control queue, is held or is counted as lost (R530). -/
def intoQueue (d : Nat) (r : List Word) : State :=
  let ptr := regAddr .die d R.DCQPTR
  let held := mget (fun _ => []) s.cqHeld d
  if wget (s.reg ptr) 24 16 < 64 ∧ held.isEmpty then putReport s (regAddr .die d (R.DCQ 0 0)) ptr 64 r
  else if held.length < 16 then { s with cqHeld := mput (fun _ => []) s.cqHeld d (held ++ [r]) }
  else s.setReg ptr (wset (s.reg ptr) 63 32 (satAdd (wget (s.reg ptr) 63 32) 1 (2 ^ 32 - 1)))

theorem intoQueue_reported (d : Nat) (r : List Word) : Reported s (intoQueue s d r) :=
  have hd : ∀ off, AboveTiles (regAddr .die d off) := aboveTiles_of (by decide) d
  .ite (putReport_reported s (hd _) (hd _) _ _) (.ite ⟨rfl, fun _ _ => rfl⟩ (setReg_reported s (hd _) _))

/-- A report takes its source's next sequence number and goes to the kiln log, to the die's queue and, of a hardware fault, to the leading gatehouse. -/
theorem dieReport_eq (d code cls kind num : Nat) (d1 d2 : Word) (hard : Bool) : dieReport s d code cls kind num d1 d2 hard =
    let seq := mget (fun _ => 0) s.repSeq (kind * 65536 + num)
    let r := mkReport code cls kind num (s.fld .die d R.DLEASE_EPOCH) seq d1 d2
    let u := intoQueue (State.submit { s with repSeq := mput (fun _ => 0) s.repSeq (kind * 65536 + num) ((seq + 1) % 2 ^ 32) }
      { sec := cls == 1, code := code, src := 1 + leaderOf s d, detail := d1.toNat }) d r
    if hard then mailReport u (leaderOf u d) r else u := rfl

theorem dieReport_reported (d code cls kind num : Nat) (d1 d2 : Word) (hard : Bool) : Reported s (dieReport s d code cls kind num d1 d2 hard) := by
  have hq : ∀ m l r, Reported s (intoQueue (State.submit { s with repSeq := m } l) d r) := fun m l r => .trans ⟨rfl, fun _ _ => rfl⟩ (intoQueue_reported _ d r)
  rw [dieReport_eq]
  exact .ite ((hq ..).trans (mailReport_reported ..)) (hq ..)

theorem reportTile_reported (t kind : Nat) (hard : Bool) : Reported s (reportTile s t kind hard) :=
  (dieReport_reported ..).trans (.ite (.refl _) ⟨rfl, fun _ _ => rfl⟩)

end

end Sys2Proof.Machine
end

section
/-!
SUPPORT. Faults of a tile (R75–R78): the stop and the fence of the tile, the record of a fault, the leaving of the job, and what a hardware fault and the watchdog make of them.
-/

namespace Sys2Proof.Machine

/-! ### Stop and fence -/

/-- A tile of which nothing is queued, and of whose matrix work nothing is left (R75, R166). -/
structure Stopped (x : Tile) : Prop where
  queue : x.queue = []
  gate : x.gate = []
  flights : ∀ f ∈ x.flights, f.eng ≠ .me

/-- The end of matrix work leaves none in flight. -/
theorem flights_endMatrix (x : Tile) : ∀ f ∈ (endMatrix x).flights, f.eng ≠ .me := fun _ hf => of_decide_eq_true (List.mem_filter.mp hf).2

theorem ClockOnly.stopped {s u : State} {t : Nat} (h : ClockOnly t s u) (hs : Stopped (s.tile t)) : Stopped (u.tile t) := by
  rw [h.tile]; exact ⟨hs.queue, hs.gate, hs.flights⟩

section
variable (s : State) (t : Nat)

theorem stopTile_reg (a : Nat) : (stopTile s t).reg a = (s.setTf t R.TSTAT_HALTED 1).reg a := (forceDown_clockOnly _ t).reg a

theorem stopTile_stopped : Stopped ((stopTile s t).tile t) := by
  refine (forceDown_clockOnly _ t).stopped ?_
  rw [State.tile_modTile, if_pos rfl]
  exact ⟨rfl, rfl, flights_endMatrix _⟩

theorem stopTile_bind : (stopTile s t).bind = s.bind := by rw [stopTile, (forceDown_clockOnly _ t).frame]; rfl

/-- A tile that is fenced with its matrix work discarded and its merge table emptied (R68, R72, R166). -/
def fenceStopped : State := forceDown ((s.setTstate t fenced).modTile t fun x => { endMatrix x with merge := [], merged := [] }) t

theorem answerRead_outOnly (who : ReadBy) (status : Nat) (data : List Byte) : OutOnly s (answerRead s who status data) := by
  unfold answerRead
  split
  · exact .ite (send_outOnly ..) (.refl s)
  · exact .ite (.foldl (fun u _ => send_outOnly u _) _ s) (send_outOnly ..)

/-- A fence answers the requesters that the tile's merge table held (R308), which changes nothing else. -/
theorem fenceTile_outOnly : OutOnly (fenceStopped s t) (fenceTile s t) :=
  .foldl (fun u (r : MergedRead) => answerRead_outOnly u r.who stTARGET_FENCED []) (s.tile t).merged (fenceStopped s t)

theorem fenceTile_reg (a : Nat) : (fenceTile s t).reg a = (s.setTstate t fenced).reg a :=
  ((fenceTile_outOnly s t).keeps (State.reg · a)).trans ((forceDown_clockOnly _ t).reg a)

theorem fenceTile_stopped (h : Stopped (s.tile t)) : Stopped ((fenceTile s t).tile t) := by
  rw [(fenceTile_outOnly s t).keeps (State.tile · t)]
  refine (forceDown_clockOnly _ t).stopped ?_
  rw [State.tile_modTile, if_pos rfl]
  exact ⟨h.queue, rfl, flights_endMatrix _⟩

theorem fenceTile_bind : (fenceTile s t).bind = s.bind := by
  rw [(fenceTile_outOnly s t).keeps State.bind, fenceStopped, (forceDown_clockOnly _ t).frame]; rfl

end

/-! ### The record of a fault -/

/-- `TFAULT` with a fault's bit set and the fault counted (R78, R83). -/
def countedFault (w : Word) (bit : Nat) : Word := wset (wset w bit bit 1) 31 24 (satAdd (wget (wset w bit bit 1) 31 24) 1 0xFF)

theorem bitOf_countedFault (w : Word) {bit : Nat} (hb : bit < 14) : bitOf (countedFault w bit).toNat bit = true := by
  rw [bitOf_eq_one_bit, countedFault, wget_wset_below _ _ (by decide) (by decide) (by omega), wget_wset_self _ _ (le_refl bit) (by omega),
    show bit + 1 - bit = 1 by omega]
  rfl

theorem first_countedFault (w : Word) {bit : Nat} (hb : bit < 14) : wget (countedFault w bit) 23 16 = wget w 23 16 := by
  rw [countedFault, wget_wset_below _ _ (by decide) (by decide) (by decide), wget_wset_above _ _ (le_refl bit) (by omega) (by omega)]

section
variable (s : State) (t : Nat)

theorem recordFault_eq (bit pc daddr : Nat) : recordFault s t bit pc daddr =
    let w := countedFault (s.reg (regAddr .tile t R.TFAULT)) bit
    if bit = fWATCHDOG then s.setReg (regAddr .tile t R.TFAULT) w
    else if wget w 23 16 = 0 then ((s.setReg (regAddr .tile t R.TFAULT) (wset w 23 16 (bit + 1))).setTf t R.TFADDR_PC pc).setTf t R.TFADDR_DADDR daddr
    else s.setReg (regAddr .tile t R.TFAULT) w := rfl

/-- The watchdog sets its bit and names no first fault (R77, R83). -/
theorem recordFault_watchdog (pc daddr : Nat) :
    recordFault s t fWATCHDOG pc daddr = s.setReg (regAddr .tile t R.TFAULT) (countedFault (s.reg (regAddr .tile t R.TFAULT)) fWATCHDOG) := by
  rw [recordFault_eq]; exact if_pos rfl

/-- A fault's bit is set in `TFAULT`, whether or not the fault is the first. -/
theorem recordFault_bit {bit : Nat} (hb : bit < 14) (pc daddr : Nat) : bitOf ((recordFault s t bit pc daddr).reg (regAddr .tile t R.TFAULT)).toNat bit = true := by
  have hw := bitOf_countedFault (s.reg (regAddr .tile t R.TFAULT)) hb
  have hfirst : ∀ w v, bitOf (wset w 23 16 v).toNat bit = bitOf w.toNat bit := fun w v => by
    rw [bitOf_eq_one_bit, wget_wset_below _ _ (by decide) (by decide) (by omega), ← bitOf_eq_one_bit]
  have haddr : ∀ (u : State) (f : Fld) v, f.off = R.TFADDR → (u.setTf t f v).reg (regAddr .tile t R.TFAULT) = u.reg (regAddr .tile t R.TFAULT) := fun u f v hf => by
    rw [State.reg_setTf, if_neg (tileAddr_ne (by rw [hf]; decide))]
  rw [recordFault_eq]
  dsimp only
  split
  · rw [State.reg_setReg, if_pos rfl]; exact hw
  · split
    · rw [haddr _ _ _ rfl, haddr _ _ _ rfl, State.reg_setReg, if_pos rfl, hfirst]; exact hw
    · rw [State.reg_setReg, if_pos rfl]; exact hw

theorem recordFault_regsOnly (bit pc daddr : Nat) : RegsOnly s (recordFault s t bit pc daddr) := by
  rw [recordFault_eq]
  dsimp only
  split
  · rfl
  · split <;> rfl

/-! ### A hardware fault -/

/-- A device that leaves its job tells its partner, if it has one (R29, R491). -/
theorem leaveJob_outOnly : OutOnly { s with left := true } (leaveJob s) := by
  unfold leaveJob
  split
  · next h => rw [OutOnly, ← h]
  · exact .ite (.refl _) (cxtEmit_outOnly ..)

/-- The device with a position entered in its repair record (R76, R110). -/
def positionFenced (p : Nat × Nat × Nat) : State := { s with fencedPos := if s.fencedPos.contains p then s.fencedPos else s.fencedPos ++ [p] }

theorem mem_positionFenced (p : Nat × Nat × Nat) : p ∈ (positionFenced s p).fencedPos := by
  unfold positionFenced
  split
  · next h => exact List.contains_iff_mem.mp h
  · exact List.mem_append_right _ (List.mem_singleton.mpr rfl)

/-- The device out of its job, with a position entered in its repair record. -/
def outOfJob (p : Nat × Nat × Nat) : State := { positionFenced s p with left := true }

theorem mem_outOfJob (p : Nat × Nat × Nat) : p ∈ (outOfJob s p).fencedPos := mem_positionFenced s p

theorem outOfJob_left (p : Nat × Nat × Nat) : (outOfJob s p).left = true := rfl

theorem outOfJob_reg (p : Nat × Nat × Nat) (a : Nat) : (outOfJob s p).reg a = s.reg a := rfl

theorem outOfJob_tile (p : Nat × Nat × Nat) (k : Nat) : (outOfJob s p).tile k = s.tile k := rfl

/-- A tile whose fault is recorded and reported, and which the fault has stopped (R76). -/
def faultReported (bit pc daddr : Nat) : State := reportTile (stopTile (recordFault s t bit pc daddr) t) t bit true

theorem hardFault_of (hf : s.tstate t ≠ fenced) (hb : s.bound t = true) (bit pc daddr : Nat) :
    hardFault s t bit pc daddr = let u := fenceTile (faultReported s t bit pc daddr) t
      leaveJob (positionFenced u (t / 256, (u.physOf t).1, (u.physOf t).2)) := if_neg (by simp [hf, hb])

/-- No hardware fault is taken of a fenced or unbound tile. -/
theorem hardFault_none (h : s.tstate t = fenced ∨ s.bound t = false) (bit pc daddr : Nat) : hardFault s t bit pc daddr = s := if_pos (by simpa using h)

section
variable {bit : Nat} (pc daddr : Nat) (ht : t < 2048)
include ht

/-- The report leaves the tile's registers as the stop left them. -/
theorem faultReported_reg {off : Nat} (ho : off < 0x1_0000) :
    (faultReported s t bit pc daddr).reg (regAddr .tile t off) = ((recordFault s t bit pc daddr).setTf t R.TSTAT_HALTED 1).reg (regAddr .tile t off) :=
  ((reportTile_reported _ t bit true).2 _ (tileAddr_of ht ho)).trans (stopTile_reg _ t _)

theorem faultReported_halted : (faultReported s t bit pc daddr).tf t R.TSTAT_HALTED = 1 := by
  rw [State.tf, State.fld, faultReported_reg s t pc daddr ht (by decide)]
  exact tf_setTf_self (s := recordFault s t bit pc daddr) (f := R.TSTAT_HALTED) 1 (by decide) (by decide)

theorem faultReported_bit (hb : bit < 14) : bitOf ((faultReported s t bit pc daddr).reg (regAddr .tile t R.TFAULT)).toNat bit = true := by
  rw [faultReported_reg s t pc daddr ht (by decide), State.reg_setTf, if_neg (tileAddr_ne (by decide))]
  exact recordFault_bit s t hb pc daddr

end

theorem faultReported_stopped (bit pc daddr : Nat) : Stopped ((faultReported s t bit pc daddr).tile t) := by
  rw [faultReported, (reportTile_reported _ t bit true).tile]
  exact stopTile_stopped _ t

theorem faultReported_bind (bit pc daddr : Nat) : (faultReported s t bit pc daddr).bind = s.bind := by
  rw [faultReported, (reportTile_reported _ t bit true).bind]
  exact (stopTile_bind _ t).trans ((recordFault_regsOnly s t bit pc daddr).keeps State.bind)

/-- The position that a hardware fault fences is the one that the tile's number is bound to. -/
theorem physOf_fenced (bit pc daddr : Nat) : (fenceTile (faultReported s t bit pc daddr) t).physOf t = s.physOf t := by
  rw [State.physOf, State.physOf, fenceTile_bind, faultReported_bind]

/-- A hardware fault of a bound tile, but for what it sends to the partner (R76). -/
theorem hardFault_outOnly (hf : s.tstate t ≠ fenced) (hb : s.bound t = true) (bit pc daddr : Nat) :
    OutOnly (outOfJob (fenceTile (faultReported s t bit pc daddr) t) (t / 256, (s.physOf t).1, (s.physOf t).2)) (hardFault s t bit pc daddr) := by
  rw [hardFault_of s t hf hb]
  dsimp only
  rw [physOf_fenced]
  exact leaveJob_outOnly _

section
variable {s t} {bit : Nat} (pc daddr : Nat) (hf : s.tstate t ≠ fenced) (hb : s.bound t = true)
include hf hb

theorem hardFault_reg (a : Nat) : (hardFault s t bit pc daddr).reg a = ((faultReported s t bit pc daddr).setTstate t fenced).reg a :=
  ((hardFault_outOnly s t hf hb bit pc daddr).keeps (State.reg · a)).trans ((outOfJob_reg _ _ a).trans (fenceTile_reg _ t a))

theorem hardFault_tstate : (hardFault s t bit pc daddr).tstate t = fenced := by
  rw [State.tstate, State.tf, State.fld, hardFault_reg pc daddr hf hb]
  exact tf_setTf_self (s := faultReported s t bit pc daddr) (f := R.TSTAT_STATE) fenced (by decide) (by decide)

theorem hardFault_left : (hardFault s t bit pc daddr).left = true :=
  ((hardFault_outOnly s t hf hb bit pc daddr).keeps State.left).trans (outOfJob_left _ _)

theorem hardFault_fencedPos : (t / 256, (s.physOf t).1, (s.physOf t).2) ∈ (hardFault s t bit pc daddr).fencedPos := by
  rw [(hardFault_outOnly s t hf hb bit pc daddr).keeps State.fencedPos]
  exact mem_outOfJob _ _

theorem hardFault_stopped : Stopped ((hardFault s t bit pc daddr).tile t) := by
  rw [((hardFault_outOnly s t hf hb bit pc daddr).keeps (State.tile · t)).trans (outOfJob_tile _ _ t)]
  exact fenceTile_stopped _ t (faultReported_stopped s t bit pc daddr)

theorem hardFault_halted (ht : t < 2048) : (hardFault s t bit pc daddr).tf t R.TSTAT_HALTED = 1 := by
  rw [State.tf, State.fld, hardFault_reg pc daddr hf hb]
  exact (tf_setTf_other (s := faultReported s t bit pc daddr) (f := R.TSTAT_STATE) (g := R.TSTAT_HALTED) fenced rfl (by decide) (by decide) (by decide)).trans
    (faultReported_halted s t pc daddr ht)

theorem hardFault_bit (ht : t < 2048) (hbit : bit < 14) : bitOf ((hardFault s t bit pc daddr).reg (regAddr .tile t R.TFAULT)).toNat bit = true := by
  rw [hardFault_reg pc daddr hf hb, State.reg_setTstate, if_neg (tileAddr_ne (by decide))]
  exact faultReported_bit s t pc daddr ht hbit

end

/-! ### The watchdog -/

/-- The watchdog's record and report (R77). -/
def watchdogReported : State := reportTile (recordFault s t fWATCHDOG 0 0) t fWATCHDOG false

theorem watchdogReported_reg (ht : t < 2048) {off : Nat} (ho : off < 0x1_0000) : (watchdogReported s t).reg (regAddr .tile t off) =
    if off = R.TFAULT then countedFault (s.reg (regAddr .tile t R.TFAULT)) fWATCHDOG else s.reg (regAddr .tile t off) := by
  rw [watchdogReported, (reportTile_reported _ t fWATCHDOG false).2 _ (tileAddr_of ht ho), recordFault_watchdog, State.reg_setReg]
  by_cases h : off = R.TFAULT
  · rw [if_pos (congrArg _ h), if_pos h]
  · rw [if_neg (tileAddr_ne h), if_neg h]

theorem watchdogReported_tfault (ht : t < 2048) : (watchdogReported s t).reg (regAddr .tile t R.TFAULT) = countedFault (s.reg (regAddr .tile t R.TFAULT)) fWATCHDOG := by
  rw [watchdogReported_reg s t ht (by decide), if_pos rfl]

theorem watchdogReported_first (ht : t < 2048) : (watchdogReported s t).tf t R.TFAULT_FIRST = s.tf t R.TFAULT_FIRST := by
  show wget ((watchdogReported s t).reg (regAddr .tile t R.TFAULT)) 23 16 = _
  rw [watchdogReported_tfault s t ht]
  exact first_countedFault _ (by decide)

theorem watchdogReported_other (ht : t < 2048) {off : Nat} (ho : off < 0x1_0000) (hne : off ≠ R.TFAULT) :
    (watchdogReported s t).reg (regAddr .tile t off) = s.reg (regAddr .tile t off) := by
  rw [watchdogReported_reg s t ht ho, if_neg hne]

theorem watchdogReported_tiles : (watchdogReported s t).tiles = s.tiles := by
  rw [watchdogReported, (reportTile_reported _ t fWATCHDOG false).tiles]
  exact (recordFault_regsOnly s t fWATCHDOG 0 0).keeps State.tiles

theorem watchdogReported_mem : (watchdogReported s t).mem = s.mem := by
  rw [watchdogReported, (reportTile_reported _ t fWATCHDOG false).mem]
  exact (recordFault_regsOnly s t fWATCHDOG 0 0).keeps State.mem

end

/-- Settles O32: a failed check from what a hardware fault leaves, the watchdog from what its record and its report leave. -/
theorem tileTroubles : Obligations.TileTroubles := by
  refine ⟨fun s t e ht hf hb => ⟨hardFault s t fENGINE (pcOff s t) 0, rfl, hardFault_tstate _ _ hf hb, hardFault_left _ _ hf hb, hardFault_fencedPos _ _ hf hb, ?_, ?_, ?_,
      hardFault_halted _ _ hf hb ht, hardFault_bit _ _ hf hb ht (by decide)⟩,
    fun s t e h => congrArg _ (hardFault_none s t h ..),
    fun s t ht hs hb hw hh hl hf hd => ⟨watchdogReported s t, ?_, ?_, watchdogReported_first s t ht, watchdogReported_other s t ht (by decide) (by decide),
      watchdogReported_other s t ht (by decide) (by decide), watchdogReported_tiles s t, watchdogReported_mem s t⟩,
    fun s t hr hw hb hn => congrArg _ (if_pos ⟨hr, hw, hb, hn⟩)⟩
  · exact (hardFault_stopped _ _ hf hb).queue
  · exact (hardFault_stopped _ _ hf hb).gate
  · exact (hardFault_stopped _ _ hf hb).flights
  · rw [exec_watchdogExpiry, execWatchdogExpiry, if_pos (by simp [hs, hb, hw, hh, hl, hf, hd])]; rfl
  · rw [watchdogReported_tfault s t ht]; exact bitOf_countedFault _ (by decide)

end Sys2Proof.Machine
end

section
/-!
SUPPORT. Writes of a tile's control registers (R68–R81): the start of a tile number that no tile of the part has (R18).
-/

namespace Sys2Proof.Machine

/-- A number beyond the 2,048 logical tiles (R18): its tile block would stand where MC 0 has its registers (R15), and its `CNT5` of context 0 where MC 0 has `UUCLIP` (R378),
which is 1.0 at reset. -/
def strayTile : Nat := 0x10_0000

/-- The machine after reset, with that number bound. -/
def strayBound : State := { State.reset with bind := [(strayTile, 1)] }

/-- The number is asleep, bound and not started, and its start leaves `CNT5` at the reset value of `UUCLIP`. -/
theorem strayBound_start : strayBound.tstate strayTile = asleep ∧ strayBound.bound strayTile = true ∧ (strayBound.tile strayTile).started = false ∧
    strayBound.actx strayTile = 0 ∧ cntVal (startTile strayBound strayTile) strayTile 0 5 = 0x3F80_0000 := by decide +kernel

/-- Refutes O36: the clause about the counters of a tile that starts asks for no tile number below 2,048, and beyond them a counter's address is another block's register, which a start
returns to a reset value that is not 0. -/
theorem not_tileCommands : ¬ Obligations.TileCommands := by
  intro h
  obtain ⟨hz, hb, hn, hc, hv⟩ := strayBound_start
  obtain ⟨-, -, hstart⟩ := h.1 strayBound strayTile hz hb hn
  obtain ⟨-, -, -, -, -, -, -, hcnt, -⟩ := hstart (.inl hc)
  have h0 := hcnt 5 (by decide)
  rw [hc, hv] at h0
  exact absurd h0 (by decide)

end Sys2Proof.Machine
end

section
/-!
SUPPORT. States that differ in some registers and tiles only (`OnlyIn`), and what a tile's field reads as after one has been set.
-/

namespace Sys2Proof.Machine

section
variable {A B K L : Nat → Prop} {s u v : State}

theorem OnlyIn.refl (A K : Nat → Prop) (s : State) : OnlyIn A K s s := ⟨rfl, fun _ _ => rfl, fun _ _ => rfl⟩

theorem OnlyIn.trans (h : OnlyIn A K s u) (g : OnlyIn A K u v) : OnlyIn A K s v := by
  obtain ⟨hf, hr, ht⟩ := h
  obtain ⟨gf, gr, gt⟩ := g
  refine ⟨?_, fun a ha => (gr a ha).trans (hr a ha), fun k hk => (gt k hk).trans (ht k hk)⟩
  rw [hf] at gf
  exact gf

theorem OnlyIn.mono (h : OnlyIn A K s u) (hA : ∀ a, A a → B a) (hK : ∀ k, K k → L k) : OnlyIn B L s u :=
  ⟨h.1, fun a ha => h.2.1 a (ha ∘ hA a), fun k hk => h.2.2 k (hk ∘ hK k)⟩

theorem OnlyIn.ite {p : Prop} [Decidable p] (h : OnlyIn A K s u) (g : OnlyIn A K s v) : OnlyIn A K s (if p then u else v) := by
  split <;> assumption

theorem OnlyIn.foldl {α : Type} {f : State → α → State} (l : List α) (hf : ∀ s, ∀ x ∈ l, OnlyIn A K s (f s x)) (s : State) : OnlyIn A K s (l.foldl f s) :=
  List.foldlRecOn l f (OnlyIn.refl A K s) fun u hu x hx => hu.trans (hf u x hx)

theorem OnlyIn.tf (h : OnlyIn A K s u) {t : Nat} {f : Fld} (ha : ¬ A (regAddr .tile t f.off)) : u.tf t f = s.tf t f := by
  rw [State.tf, State.fld, h.2.1 _ ha]; rfl

/-- A field of a tile's register after it has been set. -/
theorem tf_setTf_fits {t : Nat} {f : Fld} (v : Nat) (hf : f.Fits) : (s.setTf t f v).tf t f = v % 2 ^ (f.hi + 1 - f.lo) := tf_setTf_self v hf.1 hf.2

/-- A field of a tile's registers after one that shares no bit with it has been set. -/
theorem tf_setTf_apart {t : Nat} {f g : Fld} (v : Nat) (hf : f.Fits) (h : f.Apart g) : (s.setTf t f v).tf t g = s.tf t g := fld_setFld_apart v hf h

theorem setTf_onlyIn (K : Nat → Prop) (s : State) (t : Nat) (f : Fld) (v : Nat) : OnlyIn (fun a => a = regAddr .tile t f.off) K s (s.setTf t f v) :=
  ⟨rfl, fun a ha => by rw [State.reg_setTf, if_neg ha], fun _ _ => rfl⟩

end

end Sys2Proof.Machine
end

section
/-!
SUPPORT. Wickets (R118, R120, R644): the issue of WOPEN and WCLOSE, and what an open and a close change on a tile that holds no descriptor and has nothing in flight.
-/

namespace Sys2Proof.Machine

/-! ### Issue -/

section
variable {s : State} {t : Nat}

/-- An instruction of the queue port dispatches in the state that its issue leaves. -/
theorem issue_qp (h : Quiet s t) {r : IssueReq} (eff : Queued → State → State) (hl : r.legal = true) (he : r.eng = .qp)
    (hw : waitMet s t r.wait = true) (hn : r.foot.ranges.length ≤ 31) : issue s t r eff = settle (eff (queuedOf s t r) (issued s t)) t := by
  rw [issue_quiet h eff hl (by rw [he]; rfl) hw hn, dispatched_eq h.gate, he, clockLanes_of (by decide)]

theorem wicketUsable_issued (c w : Nat) : wicketUsable (issued s t) t c w = wicketUsable s t c w := by
  have hoff : R.WKLIM w ≠ R.TSTAT ∧ R.WKBASE w ≠ R.TSTAT := by simp only [R.WKLIM, R.WKBASE, R.TSTAT]; omega
  rw [wicketUsable, tf_issued (.inl hoff.1), tf_issued (.inl hoff.2)]; rfl

theorem wicketReq_legal {f : FmtD} {close : Bool} (hp : f.pred = 0) (hi : f.idx.toNat < 16) (ha : f.a = 0) (ho : f.off = 0) (hm : f.mod.toNat < 4)
    (hc : bitOf f.mod.toNat 0 = close) (hr : bitOf f.mod.toNat 1 = false → f.reg = 0) : (wicketReq t f close).legal = true := by
  simp only [wicketReq, hp, hi, ha, ho, hm, hc, beq_self_eq_true, decide_true, Bool.true_and, Bool.or_eq_true, beq_iff_eq]
  exact (Bool.eq_false_or_eq_true _).imp_right hr

theorem effWopen_usable {f : FmtD} {q : Queued} (h : wicketUsable s t q.ctx f.idx.toNat = true) :
    effWopen t f q s = complete (openWicket s t f.idx.toNat) t q.ctx (wicketCnt f) stOK .qp q.pc := by
  rw [effWopen, h]; rfl

theorem effWclose_usable {f : FmtD} {q : Queued} (h : wicketUsable s t q.ctx f.idx.toNat = true) :
    effWclose t f q s = addFlight (closeWicket s t f.idx.toNat) t
      { id := q.id, eng := .qp, ctx := q.ctx, pc := q.pc, foot := {}, cnt := wicketCnt f, kind := .wclose f.idx.toNat } := by
  rw [effWclose, h]; rfl

theorem wicketCloseComplete_head {f : Flight} {rest : List Flight} {w : Nat} (hf : s.tstate t ≠ fenced) (hl : (s.tile t).flights = f :: rest) (hk : f.kind = .wclose w) :
    exec (.wicketCloseComplete t) s = .next (settle (complete (dropFlight s t f.id) t f.ctx f.cnt stOK .qp f.pc) t) := by
  rw [exec_wicketCloseComplete, execWicketCloseComplete, if_neg hf, hl, List.find?_cons_of_pos (by rw [hk])]

end

/-! ### Effect -/

/-- A tile that holds no descriptor for a landed count and has nothing in flight. -/
structure Unwatched (s : State) (t : Nat) : Prop where
  hold : (s.tile t).hold = []
  flights : (s.tile t).flights = []

section
variable {s u : State} {t : Nat}

theorem Unwatched.of_tile (h : Unwatched s t) (ht : u.tile t = s.tile t) : Unwatched u t := ⟨ht ▸ h.hold, ht ▸ h.flights⟩

theorem recheckHeld_nil (h : (s.tile t).hold = []) : recheckHeld s t = s.modTile t fun x => { x with hold := [] } := by rw [recheckHeld, h, releaseHeld]

theorem dmafShort_nil (h : (s.tile t).flights = []) (w : Nat) : dmafShort s t w = s := by rw [dmafShort, h, List.foldl_nil]

/-- The turn of a wicket that nothing watches changes nothing. -/
theorem wicketTurned_unwatched (h : Unwatched s t) (w : Nat) : OnlyIn (fun _ => False) (fun _ => False) s (wicketTurned s t w) := by
  rw [wicketTurned, recheckHeld_nil (by simp [h.hold]), dmafShort_nil (by simp [h.flights])]
  refine ⟨rfl, fun _ _ => rfl, fun k _ => ?_⟩
  rw [State.tile_modTile, State.tile_modTile, State.tile_modTile]
  split
  · next hk => rw [if_pos rfl, hk, ← h.hold]
  · rfl

/-- A closed wicket with its flag set and its counts cleared, before what watches it is told. -/
def wicketOpened (s : State) (t w : Nat) : State :=
  (List.range 32).foldl (fun s k => s.setTf t (R.WKLAND_BYTES w k) 0) ((s.setTf t (R.WKEPOCH_OPEN w) 1).setTf t (R.WKEPOCH_REJECTS w) 0)

theorem openWicket_of_open {w : Nat} (h : s.tf t (R.WKEPOCH_OPEN w) = 1) : openWicket s t w = s := if_pos h

theorem openWicket_of_closed {w : Nat} (h : s.tf t (R.WKEPOCH_OPEN w) = 0) : openWicket s t w = wicketTurned (wicketOpened s t w) t w :=
  if_neg (by rw [h]; decide)

theorem closeWicket_of_closed {w : Nat} (h : s.tf t (R.WKEPOCH_OPEN w) = 0) : closeWicket s t w = s := if_pos h

/-- An open wicket with its flag cleared and its epoch raised, before what watches it is told. -/
def wicketClosed (s : State) (t w : Nat) : State :=
  (s.setTf t (R.WKEPOCH_OPEN w) 0).setTf t (R.WKEPOCH_EPOCH w) ((s.tf t (R.WKEPOCH_EPOCH w) + 1) % 2 ^ 16)

theorem closeWicket_of_open {w : Nat} (h : s.tf t (R.WKEPOCH_OPEN w) ≠ 0) : closeWicket s t w = wicketTurned (wicketClosed s t w) t w := if_neg h

/-- The registers that an open or a close of a wicket sets (R118, R120). -/
def wicketRegs (t w : Nat) (a : Nat) : Prop := a = regAddr .tile t (R.WKEPOCH w) ∨ ∃ k, k < 32 ∧ a = regAddr .tile t (R.WKLAND w k)

theorem openFlag_fits (w : Nat) : (R.WKEPOCH_OPEN w).Fits := show 16 ≤ 16 ∧ 16 < 64 by decide

theorem epoch_fits (w : Nat) : (R.WKEPOCH_EPOCH w).Fits := show 0 ≤ 15 ∧ 15 < 64 by decide

theorem rejects_fits (w : Nat) : (R.WKEPOCH_REJECTS w).Fits := show 32 ≤ 47 ∧ 47 < 64 by decide

theorem landed_fits (w k : Nat) : (R.WKLAND_BYTES w k).Fits := show 0 ≤ 31 ∧ 31 < 64 by decide

theorem openFlag_rejects_apart (w : Nat) : (R.WKEPOCH_REJECTS w).Apart (R.WKEPOCH_OPEN w) := .inr (.inr (show 16 < 32 by decide))

theorem epoch_rejects_apart (w : Nat) : (R.WKEPOCH_REJECTS w).Apart (R.WKEPOCH_EPOCH w) := .inr (.inr (show 15 < 32 by decide))

theorem epoch_openFlag_apart (w : Nat) : (R.WKEPOCH_OPEN w).Apart (R.WKEPOCH_EPOCH w) := .inr (.inr (show 15 < 16 by decide))

theorem openFlag_epoch_apart (w : Nat) : (R.WKEPOCH_EPOCH w).Apart (R.WKEPOCH_OPEN w) := .inr (.inl (show 15 < 16 by decide))

/-- The landed counts of wickets stand above their epochs. -/
theorem wkepoch_ne_wkland {w : Nat} (hw : w < 16) (v k : Nat) : R.WKEPOCH w ≠ R.WKLAND v k := by
  simp only [R.WKEPOCH, R.WKLAND]; omega

section
variable (s t) (w : Nat)

theorem wicketOpened_onlyIn : OnlyIn (wicketRegs t w) (fun _ => False) s (wicketOpened s t w) :=
  have hepoch : ∀ u : State, ∀ f : Fld, f.off = R.WKEPOCH w → ∀ v, OnlyIn (wicketRegs t w) (fun _ => False) u (u.setTf t f v) := fun u f hf v =>
    (setTf_onlyIn _ u t f v).mono (fun a ha => .inl (by rw [ha, hf])) fun _ => id
  ((hepoch s _ rfl 1).trans (hepoch _ _ rfl 0)).trans (.foldl _ (fun u k hk => (setTf_onlyIn _ u t _ 0).mono (fun _ ha => .inr ⟨k, List.mem_range.mp hk, ha⟩) fun _ => id) _)

theorem wicketClosed_onlyIn : OnlyIn (fun a => a = regAddr .tile t (R.WKEPOCH w)) (fun _ => False) s (wicketClosed s t w) :=
  (setTf_onlyIn _ s t (R.WKEPOCH_OPEN w) 0).trans (setTf_onlyIn _ _ t (R.WKEPOCH_EPOCH w) _)

/-- A field of the wicket's epoch register is left alone by the clearing of its landed counts. -/
theorem tf_wicketOpened_epoch (hw : w < 16) {f : Fld} (hf : f.off = R.WKEPOCH w) :
    (wicketOpened s t w).tf t f = ((s.setTf t (R.WKEPOCH_OPEN w) 1).setTf t (R.WKEPOCH_REJECTS w) 0).tf t f :=
  foldl_keeps (fun u => u.tf t f) _ (fun _ k _ => tf_setTf_ne 0 (by rw [hf]; exact wkepoch_ne_wkland hw w k)) _

theorem tf_wicketOpened_open (hw : w < 16) : (wicketOpened s t w).tf t (R.WKEPOCH_OPEN w) = 1 := by
  rw [tf_wicketOpened_epoch s t w hw rfl, tf_setTf_apart 0 (rejects_fits w) (openFlag_rejects_apart w)]
  exact tf_setTf_fits 1 (openFlag_fits w)

theorem tf_wicketOpened_rejects (hw : w < 16) : (wicketOpened s t w).tf t (R.WKEPOCH_REJECTS w) = 0 := by
  rw [tf_wicketOpened_epoch s t w hw rfl]
  exact tf_setTf_fits 0 (rejects_fits w)

theorem tf_wicketOpened_number (hw : w < 16) : (wicketOpened s t w).tf t (R.WKEPOCH_EPOCH w) = s.tf t (R.WKEPOCH_EPOCH w) := by
  rw [tf_wicketOpened_epoch s t w hw rfl, tf_setTf_apart 0 (rejects_fits w) (epoch_rejects_apart w), tf_setTf_apart 1 (openFlag_fits w) (epoch_openFlag_apart w)]

theorem tf_wicketOpened_landed {k : Nat} (hk : k < 32) : (wicketOpened s t w).tf t (R.WKLAND_BYTES w k) = 0 := by
  have hself : ∀ u : State, (u.setTf t (R.WKLAND_BYTES w k) 0).tf t (R.WKLAND_BYTES w k) = 0 := fun u => tf_setTf_fits 0 (landed_fits w k)
  refine foldl_reaches (P := fun u => u.tf t (R.WKLAND_BYTES w k) = 0) (f := fun u j => u.setTf t (R.WKLAND_BYTES w j) 0) hself (fun u j hu => ?_) _
    (List.mem_range.mpr hk) _
  by_cases hj : k = j
  · rw [← hj]; exact hself u
  · exact (tf_setTf_ne 0 (by simp only [R.WKLAND_BYTES, R.WKLAND]; omega)).trans hu

theorem tf_wicketClosed_open : (wicketClosed s t w).tf t (R.WKEPOCH_OPEN w) = 0 := by
  rw [wicketClosed, tf_setTf_apart _ (epoch_fits w) (openFlag_epoch_apart w)]
  exact tf_setTf_fits 0 (openFlag_fits w)

theorem tf_wicketClosed_number : (wicketClosed s t w).tf t (R.WKEPOCH_EPOCH w) = (s.tf t (R.WKEPOCH_EPOCH w) + 1) % 2 ^ 16 :=
  (tf_setTf_fits _ (epoch_fits w)).trans (Nat.mod_mod _ _)

end

/-- An open of a closed wicket that nothing watches shows as its registers set. -/
theorem openWicket_unwatched (h : Unwatched s t) {w : Nat} (hc : s.tf t (R.WKEPOCH_OPEN w) = 0) :
    OnlyIn (fun _ => False) (fun _ => False) (wicketOpened s t w) (openWicket s t w) := by
  rw [openWicket_of_closed hc]
  exact wicketTurned_unwatched (h.of_tile ((wicketOpened_onlyIn s t w).2.2 t id)) w

/-- A close of an open wicket that nothing watches shows as its register set. -/
theorem closeWicket_unwatched (h : Unwatched s t) {w : Nat} (ho : s.tf t (R.WKEPOCH_OPEN w) ≠ 0) :
    OnlyIn (fun _ => False) (fun _ => False) (wicketClosed s t w) (closeWicket s t w) := by
  rw [closeWicket_of_open ho]
  exact wicketTurned_unwatched (h.of_tile ((wicketClosed_onlyIn s t w).2.2 t id)) w

end

/-- Settles O11: WOPEN and WCLOSE from their issue on a quiet tile, and the registers of an open and a close from what sets them, since nothing watches the wicket. -/
theorem wicketsOpenAndClose : Obligations.WicketsOpenAndClose := by
  refine ⟨⟨fun s t f hq hw hp hi ha ho hm hr hu => ?_, fun s t f rest w hf hl hk => wicketCloseComplete_head hf hl hk⟩,
    fun s t w hw => ⟨openWicket_of_open, closeWicket_of_closed, fun hh hl => ⟨fun hc => ?_, fun ho => ?_⟩⟩⟩
  · have hus := (wicketUsable_issued (s := s) (t := t) (s.actx t) f.idx.toNat).trans hu
    refine ⟨fun hc => ?_, fun hc => ?_⟩
    · rw [exec_wopen, execWopen, issue_qp hq _ (wicketReq_legal hp hi ha ho hm hc hr) rfl hw (Nat.zero_le _), effWopen_usable hus]; rfl
    · rw [exec_wclose, execWclose, issue_qp hq _ (wicketReq_legal hp hi ha ho hm hc hr) rfl hw (Nat.zero_le _), effWclose_usable hus]; rfl
  · have hturn := openWicket_unwatched ⟨hh, hl⟩ hc
    refine ⟨(hturn.tf id).trans (tf_wicketOpened_open s t w hw), (hturn.tf id).trans (tf_wicketOpened_rejects s t w hw), (hturn.tf id).trans (tf_wicketOpened_number s t w hw),
      fun k hk => (hturn.tf id).trans (tf_wicketOpened_landed s t w hk), ?_⟩
    exact ((wicketOpened_onlyIn s t w).mono (fun _ => id) fun _ => False.elim).trans (hturn.mono (fun _ => False.elim) fun _ => False.elim)
  · have hturn := closeWicket_unwatched ⟨hh, hl⟩ (w := w) (by rw [ho]; decide)
    refine ⟨(hturn.tf id).trans (tf_wicketClosed_open s t w), (hturn.tf id).trans (tf_wicketClosed_number s t w), ?_⟩
    exact ((wicketClosed_onlyIn s t w).mono (fun _ => id) fun _ => False.elim).trans (hturn.mono (fun _ => False.elim) fun _ => False.elim)

end Sys2Proof.Machine
end

section
/-!
SUPPORT. Writes to a tile of the same device (R115, R667): the row pieces of a range, and the messages that a unit posts.
-/

namespace Sys2Proof.Machine

/-! ### The pieces of a range -/

section
variable {addr len : Nat}

/-- The piece of a range that lies in the `i`-th row that the range touches. -/
def rowPiece (addr len i : Nat) : Nat × Nat :=
  (max addr (64 * (addr / 64 + i)), min (addr + len) (64 * (addr / 64 + i) + 64) - max addr (64 * (addr / 64 + i)))

/-- How many rows a range touches. -/
def rowCount (addr len : Nat) : Nat := (addr + len - 1) / 64 + 1 - addr / 64

theorem rowPieces_eq (h : len ≠ 0) : rowPieces addr len = (List.range (rowCount addr len)).map (rowPiece addr len) := if_neg h

/-- Each piece has a byte at least and lies in one row. -/
theorem rowPiece_inRow {i : Nat} (h : len ≠ 0) (hi : i < rowCount addr len) :
    0 < (rowPiece addr len i).2 ∧ (rowPiece addr len i).2 ≤ 64 ∧ (rowPiece addr len i).1 / 64 = ((rowPiece addr len i).1 + (rowPiece addr len i).2 - 1) / 64 := by
  simp only [rowCount, rowPiece] at *
  omega

/-- The bytes of a range before its `i`-th row. -/
def rowStart (addr len i : Nat) : Nat := min len (64 * (addr / 64 + i) - addr)

/-- The pieces of the first rows hold the bytes before the row that follows, in order. -/
theorem pieces_flatten {data : List Byte} (h : data ≠ []) : ∀ n, n ≤ rowCount addr data.length →
    ((List.range n).map fun i => (data.drop ((rowPiece addr data.length i).1 - addr)).take (rowPiece addr data.length i).2).flatten = data.take (rowStart addr data.length n)
  | 0, _ => by simp [rowStart]; omega
  | n + 1, hn => by
    have hl : 0 < data.length := List.length_pos_iff.mpr h
    have hs : (rowPiece addr data.length n).1 - addr = rowStart addr data.length n := by simp only [rowCount, rowPiece, rowStart] at *; omega
    have he : rowStart addr data.length n + (rowPiece addr data.length n).2 = rowStart addr data.length (n + 1) := by simp only [rowCount, rowPiece, rowStart] at *; omega
    rw [List.range_succ, List.map_append, List.flatten_append, pieces_flatten h n (Nat.le_of_succ_le hn), List.map_singleton, List.flatten_singleton, hs, ← he, List.take_add]

theorem rowStart_rowCount : rowStart addr len (rowCount addr len) = len := by simp only [rowStart, rowCount]; omega

end

/-! ### Posts -/

/-- Whether every die link on a message's way takes traffic (R322). -/
def State.carries (s : State) (w : Wire) : Bool := (wireLinks s w).all (linkTakes s)

/-- The state with messages put under way one after another, but for those whose way takes a die link that is down (R322). -/
def State.postAll (s : State) (ws : List Wire) : State := { s with wires := s.wires ++ ws.filter s.carries }

section
variable (s : State)

theorem State.postAll_nil : s.postAll [] = s := by
  show { s with wires := s.wires ++ [] } = s
  rw [List.append_nil]

theorem State.post_eq (w : Wire) : s.post w = s.postAll [w] := by
  show (if s.carries w = true then s.send w else s) = _
  unfold State.postAll
  by_cases h : s.carries w = true
  · rw [if_pos h, List.filter_cons_of_pos h]; rfl
  · rw [if_neg h, List.filter_cons_of_neg h]
    exact (State.postAll_nil s).symm

theorem State.postAll_postAll (ws vs : List Wire) : (s.postAll ws).postAll vs = s.postAll (ws ++ vs) := by
  show { s with wires := s.wires ++ ws.filter s.carries ++ vs.filter s.carries } = { s with wires := s.wires ++ (ws ++ vs).filter s.carries }
  rw [List.append_assoc, List.filter_append]

/-- Posts one after another, each of a message that the posts before it do not bear on. -/
theorem State.post_foldl {α : Type} {f : State → α → Wire} (hf : ∀ (s : State) ws a, f (s.postAll ws) a = f s a) (l : List α) :
    ∀ s : State, l.foldl (fun s a => s.post (f s a)) s = s.postAll (l.map (f s)) := by
  induction l with
  | nil => exact fun s => (s.postAll_nil).symm
  | cons a l ih =>
    intro s
    have hmap : l.map (f (s.postAll [f s a])) = l.map (f s) := List.map_congr_left fun b _ => hf s _ b
    rw [List.foldl_cons, State.post_eq, ih, hmap, State.postAll_postAll]
    rfl

end

/-- The write packet for a row piece of a range (R115). -/
def writeWire (s : State) (t addr epoch tag : Nat) (data : List Byte) (p : Nat × Nat) : Wire :=
  .write ((addr - spadAddr 0 0) / 0x20_0000) ⟨p.1, (data.drop (p.1 - addr)).take p.2, tileSender s t, epoch, tag⟩

/-- A tile that has taken its next tag for a transfer that it awaits. -/
def awaiting (s : State) (t : Nat) (o : Outst) : State := addOutst (newTag s t).2 t o

theorem tile_awaiting (s : State) (t : Nat) (o : Outst) (k : Nat) :
    (awaiting s t o).tile k = if k = t then { s.tile t with nextTag := (s.tile t).nextTag + 1, outst := (s.tile t).outst ++ [o] } else s.tile k := by
  rw [awaiting, addOutst, newTag, State.tile_modTile, State.tile_modTile, State.tile_modTile, if_pos rfl]
  split <;> rfl

/-- A write to the device itself posts one packet for each row piece, under a new tag. -/
theorem sendWrites_own (s : State) (t c pc : Nat) (e : Engine) (cnt grp : Option Nat) (addr epoch wq : Nat) {data : List Byte} (h : data ≠ []) :
    sendWrites s t c pc e cnt grp s.ownDev addr epoch wq data =
      (awaiting s t
        { tag := (s.tile t).nextTag, ctx := c, pc := pc, eng := e, left := (rowPieces addr data.length).length, worst := stOK, cnt := cnt, chan := none, units := 0,
          grp := grp, addr := addr }).postAll ((rowPieces addr data.length).map (writeWire s t addr epoch (s.tile t).nextTag data)) := by
  have hd : data.isEmpty = false := List.isEmpty_eq_false_iff.mpr h
  refine Eq.trans ?_ (State.post_foldl (f := fun s p => writeWire s t addr epoch _ data p) (fun _ _ _ => rfl) _ _)
  unfold sendWrites
  simp only [hd, Bool.false_eq_true, if_false]
  exact if_pos rfl

/-- Settles O19: the packets of a write are the posts of its row pieces, which hold its data in order. -/
theorem writePackets : Obligations.WritePackets := by
  intro s t c pc e cnt grp dev addr epoch wq data hd rfl
  have hl : data.length ≠ 0 := fun h => hd (List.length_eq_zero_iff.mp h)
  rw [sendWrites_own s t c pc e cnt grp addr epoch wq hd]
  refine ⟨rfl, fun k hk => ?_, congrArg (s.wires ++ ·) (List.filter_congr fun w hw => ?_), ?_, fun p hp => ?_, ?_⟩
  · exact (tile_awaiting ..).trans (if_neg hk)
  · obtain ⟨p, -, rfl⟩ := List.mem_map.mp hw
    rfl
  · rw [rowPieces_eq hl, List.map_map]
    exact (pieces_flatten hd _ (Nat.le_refl _)).trans (by rw [rowStart_rowCount, List.take_length])
  · rw [rowPieces_eq hl, List.mem_map] at hp
    obtain ⟨i, hi, rfl⟩ := hp
    exact rowPiece_inRow hl (List.mem_range.mp hi)
  · exact congrArg Tile.outst ((tile_awaiting ..).trans (if_pos rfl))

end Sys2Proof.Machine
end

section
/-!
SUPPORT. Drains of the gather buffer (R93–R97): what a drain of a row, and of every dirty row, leaves in the buffer and in memory.
-/

namespace Sys2Proof.Machine

section
variable {s : State} {t : Nat}

/-! ### An entry written to its bank -/

/-- The `i`-th byte of an entry's row. -/
def GbEntry.byteAt (e : GbEntry) (i : Nat) : Byte := .ofNat 8 (bits e.data.toNat (8 * i + 7) (8 * i))

/-- The `i`-th byte of an entry's row written to its bank, if it is dirty. -/
def putByte (t : Nat) (e : GbEntry) (s : State) (i : Nat) : State :=
  if maskBit e.mask i then s.setByte (spadAddr t (64 * e.row + i)) (e.byteAt i) else s

theorem writeEntry_eq (s : State) (t : Nat) (e : GbEntry) : writeEntry s t e = (List.range 64).foldl (putByte t e) s := rfl

/-- A byte that is not the one written stays. -/
theorem putByte_ne {e : GbEntry} {i x : Nat} (h : maskBit e.mask i = true → x ≠ 64 * e.row + i) : (putByte t e s i).byte (spadAddr t x) = s.byte (spadAddr t x) := by
  unfold putByte
  split
  · next hm => rw [State.byte_setByte, if_neg (by have := h hm; simp only [spadAddr]; omega)]
  · rfl

theorem putByte_self {e : GbEntry} {x : Nat} (hr : x / 64 = e.row) (hm : maskBit e.mask (x % 64) = true) :
    (putByte t e s (x % 64)).byte (spadAddr t x) = e.byteAt (x % 64) := by
  rw [putByte, if_pos hm, State.byte_setByte, if_pos (by rw [← hr, Nat.div_add_mod])]

/-- A dirty byte of an entry reaches its bank. -/
theorem writeEntry_dirty {e : GbEntry} {x : Nat} (hr : x / 64 = e.row) (hm : maskBit e.mask (x % 64) = true) :
    (writeEntry s t e).byte (spadAddr t x) = e.byteAt (x % 64) := by
  rw [writeEntry_eq]
  refine foldl_reaches (P := fun u => u.byte (spadAddr t x) = e.byteAt (x % 64)) (fun u => putByte_self hr hm) (fun u i hu => ?_) _
    (List.mem_range.mpr (Nat.mod_lt x (by decide))) s
  by_cases hi : i = x % 64
  · rw [hi]; exact putByte_self hr hm
  · exact (putByte_ne fun _ => by omega).trans hu

/-- Every other byte stays. -/
theorem writeEntry_clean {e : GbEntry} {x : Nat} (h : x / 64 = e.row → maskBit e.mask (x % 64) = false) :
    (writeEntry s t e).byte (spadAddr t x) = s.byte (spadAddr t x) := by
  rw [writeEntry_eq]
  refine foldl_keeps (fun u => u.byte (spadAddr t x)) _ (fun u i hi => putByte_ne fun hm hx => ?_) s
  have hi := List.mem_range.mp hi
  have hix : x % 64 = i := by omega
  exact absurd hm (by rw [← hix, h (by omega)]; decide)

/-! ### The drain of a row -/

/-- An entry of a drained row, with no dirty byte. -/
def GbEntry.cleaned (row : Nat) (e : GbEntry) : GbEntry := if e.row = row then { e with mask := 0, data := 0, sc := false, qp := false } else e

theorem GbEntry.row_cleaned (row : Nat) (e : GbEntry) : (e.cleaned row).row = e.row := by
  unfold GbEntry.cleaned; split <;> rfl

/-- The buffer after the drain of the row of an entry `e` (R95). -/
def drainedGb (l : List GbEntry) (e : GbEntry) (row : Nat) : List GbEntry := if e.whole then l.map (GbEntry.cleaned row) else l.filter fun e' => e'.row ≠ row

theorem drainRow_none {row : Nat} (h : gbFind (s.tile t) row = none) : drainRow s t row = s := by rw [drainRow, h]

theorem drainRow_clean {row : Nat} {e : GbEntry} (h : gbFind (s.tile t) row = some e) (hm : e.mask = 0) : drainRow s t row = s := by
  rw [drainRow, h]; exact if_pos hm

theorem drainRow_dirty {row : Nat} {e : GbEntry} (h : gbFind (s.tile t) row = some e) (hm : e.mask ≠ 0) :
    drainRow s t row = (writeEntry s t e).modTile t fun x => { closeMerge x row with gb := drainedGb x.gb e row } := by
  rw [drainRow, h]; exact if_neg hm

theorem gb_drainRow {row : Nat} {e : GbEntry} (h : gbFind (s.tile t) row = some e) (hm : e.mask ≠ 0) :
    ((drainRow s t row).tile t).gb = drainedGb (s.tile t).gb e row := by
  rw [drainRow_dirty h hm, State.tile_modTile, if_pos rfl, writeEntry_frame]; rfl

theorem gbFind_row {x : Tile} {row : Nat} {e : GbEntry} (h : gbFind x row = some e) : e ∈ x.gb ∧ e.row = row :=
  ⟨List.mem_of_find?_eq_some h, by simpa using List.find?_some h⟩

/-- The entry of a row after a drain of another row. -/
theorem find_drainedGb_ne (l : List GbEntry) (e : GbEntry) {row r : Nat} (hr : r ≠ row) :
    (drainedGb l e row).find? (fun e => e.row == r) = l.find? fun e => e.row == r := by
  have hrow : ∀ e : GbEntry, (e.row == r) = true → e.row ≠ row := fun e he h => hr ((beq_iff_eq.mp he).symm.trans h)
  unfold drainedGb
  split
  · have hp : (fun e : GbEntry => e.row == r) ∘ GbEntry.cleaned row = fun e => e.row == r := funext fun e => congrArg (· == r) (GbEntry.row_cleaned row e)
    rw [List.find?_map, hp]
    cases h : l.find? fun e => e.row == r with
    | none => rfl
    | some f => exact congrArg some (if_neg (hrow f (List.find?_some (p := fun e : GbEntry => e.row == r) h)))
  · rw [List.find?_filter]
    refine congrArg (List.find? · l) (funext fun f => ?_)
    by_cases hf : (f.row == r) = true
    · rw [hf, decide_eq_true (hrow f hf)]; rfl
    · rw [Bool.eq_false_of_not_eq_true hf]; exact decide_eq_false fun h => Bool.false_ne_true h.2

/-- The entry of a drained row, if one is left, has no dirty byte. -/
theorem mem_drainedGb {l : List GbEntry} {e e' : GbEntry} {row : Nat} (h : e' ∈ drainedGb l e row) (hm : e'.mask ≠ 0) : e' ∈ l ∧ e'.row ≠ row := by
  unfold drainedGb at h
  split at h
  · obtain ⟨f, hf, rfl⟩ := List.mem_map.mp h
    unfold GbEntry.cleaned at hm ⊢
    split at hm
    · exact absurd rfl hm
    · next hr => rw [if_neg hr]; exact ⟨hf, hr⟩
  · obtain ⟨hl, hr⟩ := List.mem_filter.mp h
    exact ⟨hl, of_decide_eq_true hr⟩

theorem nodup_drainedGb {l : List GbEntry} (h : (l.map GbEntry.row).Nodup) (e : GbEntry) (row : Nat) : ((drainedGb l e row).map GbEntry.row).Nodup := by
  unfold drainedGb
  split
  · rw [List.map_map, List.map_congr_left (f := GbEntry.row ∘ GbEntry.cleaned row) (g := GbEntry.row) fun e _ => GbEntry.row_cleaned row e]
    exact h
  · exact h.sublist (List.filter_sublist.map _)

/-- A byte of the tile's own scratchpad is the dirty byte of its row's entry, or the bank's. -/
theorem ownByte_dirty {x : Nat} {e : GbEntry} (h : gbFind (s.tile t) (x / 64) = some e) (hm : maskBit e.mask (x % 64) = true) : ownByte s t x = e.byteAt (x % 64) := by
  rw [ownByte, h]; exact if_pos hm

theorem ownByte_bank {x : Nat} (h : ∀ e, gbFind (s.tile t) (x / 64) = some e → maskBit e.mask (x % 64) = false) : ownByte s t x = s.byte (spadAddr t x) := by
  unfold ownByte
  split
  · next e he => rw [if_neg (by rw [h e he]; decide)]
  · rfl

theorem maskBit_zero (i : Nat) : maskBit 0 i = false := by rw [maskBit, bitOf_eq_testBit]; exact Nat.zero_testBit i

/-- A drain of a row changes no byte that the tile's own engines see (R93, R95). -/
theorem ownByte_drainRow (row x : Nat) : ownByte (drainRow s t row) t x = ownByte s t x := by
  cases h : gbFind (s.tile t) row with
  | none => rw [drainRow_none h]
  | some e =>
    by_cases hm : e.mask = 0
    · rw [drainRow_clean h hm]
    · have hgb := gb_drainRow h hm
      have hbyte : (drainRow s t row).byte (spadAddr t x) = (writeEntry s t e).byte (spadAddr t x) := by rw [drainRow_dirty h hm]; rfl
      have herow := (gbFind_row h).2
      by_cases hx : x / 64 = row
      · rw [ownByte_bank, hbyte]
        · by_cases hb : maskBit e.mask (x % 64) = true
          · rw [writeEntry_dirty (hx.trans herow.symm) hb, ownByte_dirty (hx ▸ h) hb]
          · have hb := Bool.eq_false_of_not_eq_true hb
            rw [writeEntry_clean fun _ => hb, ownByte_bank fun f hf => by rw [hx, h] at hf; cases hf; exact hb]
        · intro f hf
          obtain ⟨hmem, hfr⟩ := gbFind_row hf
          rw [hgb] at hmem
          have h0 : f.mask = 0 := by_contra fun hne => (mem_drainedGb hmem hne).2 (hfr.trans hx)
          rw [h0]; exact maskBit_zero _
      · have hfind : gbFind ((drainRow s t row).tile t) (x / 64) = gbFind (s.tile t) (x / 64) := by
          rw [gbFind, hgb]; exact find_drainedGb_ne _ e hx
        rw [ownByte, hfind, hbyte, writeEntry_clean fun hr => absurd (hr.trans herow) hx]; rfl

/-! ### The drain of the buffer -/

/-- A drain of a row leaves an entry dirty only if it was, and is of another row. -/
theorem mem_drainRow {row : Nat} (hn : ((s.tile t).gb.map GbEntry.row).Nodup) {e : GbEntry} (he : e ∈ ((drainRow s t row).tile t).gb) (hm : e.mask ≠ 0) :
    e ∈ (s.tile t).gb ∧ e.row ≠ row := by
  cases h : gbFind (s.tile t) row with
  | none =>
    rw [drainRow_none h] at he
    exact ⟨he, by simpa using List.find?_eq_none.mp h e he⟩
  | some f =>
    by_cases hf : f.mask = 0
    · rw [drainRow_clean h hf] at he
      obtain ⟨hmem, hrow⟩ := gbFind_row h
      exact ⟨he, fun hr => hm (by rw [List.inj_on_of_nodup_map hn he hmem (hr.trans hrow.symm)]; exact hf)⟩
    · rw [gb_drainRow h hf] at he
      exact mem_drainedGb he hm

theorem nodup_drainRow (row : Nat) (hn : ((s.tile t).gb.map GbEntry.row).Nodup) : (((drainRow s t row).tile t).gb.map GbEntry.row).Nodup := by
  cases h : gbFind (s.tile t) row with
  | none => rw [drainRow_none h]; exact hn
  | some e =>
    by_cases hm : e.mask = 0
    · rw [drainRow_clean h hm]; exact hn
    · rw [gb_drainRow h hm]; exact nodup_drainedGb hn e row

/-- The drain of rows among which every dirty entry's is leaves no entry dirty. -/
theorem drainRows_clean (l : List Nat) : ∀ s : State, ((s.tile t).gb.map GbEntry.row).Nodup → (∀ e ∈ (s.tile t).gb, e.mask ≠ 0 → e.row ∈ l) →
    ∀ e ∈ ((l.foldl (fun s row => drainRow s t row) s).tile t).gb, e.mask = 0 := by
  induction l with
  | nil => exact fun s _ hd e he => by_contra fun hm => List.not_mem_nil (hd e he hm)
  | cons row l ih =>
    refine fun s hn hd => ih _ (nodup_drainRow row hn) fun e he hm => ?_
    obtain ⟨hs, hr⟩ := mem_drainRow hn he hm
    exact List.mem_of_ne_of_mem hr (hd e hs hm)

theorem drainAll_clean (hn : ((s.tile t).gb.map GbEntry.row).Nodup) : ∀ e ∈ ((drainAll s t).tile t).gb, e.mask = 0 :=
  drainRows_clean _ s hn fun e he hm => List.mem_map_of_mem (List.mem_filter.mpr ⟨he, by simpa using hm⟩)

theorem ownByte_drainAll (s : State) (t x : Nat) : ownByte (drainAll s t) t x = ownByte s t x :=
  foldl_keeps (fun u => ownByte u t x) _ (fun _ row _ => ownByte_drainRow row x) s

/-- Where no entry is dirty, memory shows what the tile's own engines see. -/
theorem byte_of_clean (h : ∀ e ∈ (s.tile t).gb, e.mask = 0) (x : Nat) : s.byte (spadAddr t x) = ownByte s t x :=
  (ownByte_bank fun e he => by rw [h e (gbFind_row he).1]; exact maskBit_zero _).symm

end

end Sys2Proof.Machine
end

section
/-!
SUPPORT. Remote writes at a tile's port (R116–R121).
-/

namespace Sys2Proof.Machine

section
variable {s : State} {t : Nat} {p : WritePkt}

theorem deliverWrite_accepted (h : writeCheck s t p = stOK) (hw : writeWaits s t p = false) : deliverWrite s t p = some (stOK, acceptWrite s t p) := by
  rw [deliverWrite, h, hw]; rfl

theorem deliverWrite_held (h : writeCheck s t p = stOK) (hw : writeWaits s t p = true) : deliverWrite s t p = none := by
  rw [deliverWrite, h, hw]; rfl

theorem deliverWrite_refused (h : writeCheck s t p ≠ stOK) (hc : writeCheck s t p ≠ stWICKET_CLOSED) : deliverWrite s t p = some (writeCheck s t p, s) := by
  rw [deliverWrite]
  exact (if_neg hc).trans (if_pos h)

theorem deliverWrite_closed (h : writeCheck s t p = stWICKET_CLOSED) :
    let w := wicketOf s t (p.addr - spadAddr t 0) p.data.length
    deliverWrite s t p = some (stWICKET_CLOSED, s.setTf t (R.WKEPOCH_REJECTS w) (satAdd (s.tf t (R.WKEPOCH_REJECTS w)) 1 0xFFFF)) := by
  rw [deliverWrite, h]; rfl

/-- A packet that comes to a free port and is answered. -/
theorem remoteWrite_answered (hp : (s.tile t).port = []) {st : Nat} {u : State} (h : deliverWrite s t p = some (st, u)) :
    exec (.remoteWritePacket t p) s = .next (answerTo (u.unwire (.write t p)) p.sender p.tag st) := by
  rw [exec_remoteWritePacket, execRemoteWritePacket, hp, h]; rfl

theorem remoteWrite_held (hp : (s.tile t).port = []) (h : deliverWrite s t p = none) :
    exec (.remoteWritePacket t p) s = .next ((s.unwire (.write t p)).modTile t fun x => { x with port := [p] }) := by
  rw [exec_remoteWritePacket, execRemoteWritePacket, hp, h]; rfl

section
variable {ps : List WritePkt} (hp : (s.tile t).port = p :: ps)
include hp

/-- The packet that the port holds is answered once its checks let it. -/
theorem heldRecheck_answered {st : Nat} {u : State} (h : deliverWrite (s.modTile t fun x => { x with port := ps }) t p = some (st, u)) :
    exec (.heldPacketRecheck t) s = .next (answerTo u p.sender p.tag st) := by
  rw [exec_heldPacketRecheck, execHeldPacketRecheck, hp]
  simp only [h]

theorem heldRecheck_held (h : deliverWrite (s.modTile t fun x => { x with port := ps }) t p = none) : exec (.heldPacketRecheck t) s = .next s := by
  rw [exec_heldPacketRecheck, execHeldPacketRecheck, hp]
  simp only [h]

end

end

/-- Settles O33: each outcome of a packet's checks, on arrival and on the recheck, and the drain of every dirty row. -/
theorem remoteWrites : Obligations.RemoteWrites := by
  refine ⟨fun s t p hp => ⟨fun h hw => remoteWrite_answered hp (deliverWrite_accepted h hw), fun h hw => remoteWrite_held hp (deliverWrite_held h hw),
      fun h hc => remoteWrite_answered hp (deliverWrite_refused h hc), fun h => remoteWrite_answered hp (deliverWrite_closed h)⟩,
    fun s t p ps hp => ⟨fun h hw => heldRecheck_answered hp (deliverWrite_accepted h hw), fun h hw => heldRecheck_held hp (deliverWrite_held h hw)⟩, fun _ _ => rfl,
    fun s t x hn => ⟨drainAll_clean hn, (byte_of_clean (drainAll_clean hn) x).trans (ownByte_drainAll s t x), ownByte_drainAll s t x⟩⟩

end Sys2Proof.Machine
end

section
/-!
SUPPORT. Remote reads (R105, R107, R113, R306): the status that a read gets at a tile's port, and the merge table.
-/

namespace Sys2Proof.Machine

/-! ### At the port -/

/-- A read of a reserved address or beyond a tile's scratchpad (R17). -/
abbrev ReadOutside (s : State) (t addr len : Nat) : Prop := reservedAt s addr len = true ∨ addr < spadAddr t 0 ∨ spadAddr t 0 + 0x20_0000 < addr + len

/-- Every group that a range of a tile's scratchpad touches is ON. -/
abbrev GroupsOn (s : State) (t off len : Nat) : Prop := ∀ g, g < 8 → off / 0x4_0000 ≤ g → g ≤ (off + len - 1) / 0x4_0000 → groupState s t g = 2

section
variable {s : State} {t off addr len : Nat}

theorem groupsOn_iff : ((List.range 8).all fun g =>
    decide (g < off / 0x4_0000) || decide ((off + len - 1) / 0x4_0000 < g) || groupState s t g == 2) = true ↔ GroupsOn s t off len := by
  simp only [List.all_eq_true, List.mem_range, Bool.or_eq_true, decide_eq_true_eq, beq_iff_eq]
  refine forall_congr' fun g => imp_congr_right fun _ => ⟨fun h hlo hhi => ?_, fun h => ?_⟩
  · exact h.resolve_left (by omega)
  · by_cases hlo : g < off / 0x4_0000
    · exact .inl (.inl hlo)
    · by_cases hhi : (off + len - 1) / 0x4_0000 < g
      · exact .inl (.inr hhi)
      · exact .inr (h (by omega) (by omega))

theorem serveRead_fenced (h : s.tstate t = fenced) (par : Parity) : serveRead s t off len par = (stTARGET_FENCED, [], s) := if_pos h

theorem serveRead_off (h : s.tstate t ≠ fenced) (hl : len ≠ 0) (hg : ¬ GroupsOn s t off len) (par : Parity) : serveRead s t off len par = (stACCESS, [], s) :=
  (if_neg h).trans (if_pos ⟨Nat.pos_of_ne_zero hl, by rw [Bool.eq_false_of_not_eq_true (mt groupsOn_iff.mp hg)]; rfl⟩)

section
variable (h : s.tstate t ≠ fenced) (hg : len = 0 ∨ GroupsOn s t off len)
include h hg

omit h in
/-- A read of groups that are ON is not refused for them. -/
theorem serveRead_groups : ¬ (len > 0 ∧ !((List.range 8).all fun g =>
    decide (g < off / 0x4_0000) || decide ((off + len - 1) / 0x4_0000 < g) || groupState s t g == 2)) := fun ⟨hl, ho⟩ => by
  rw [groupsOn_iff.mpr (hg.resolve_left (Nat.pos_iff_ne_zero.mp hl))] at ho
  exact absurd ho (by decide)

theorem serveRead_clean : serveRead s t off len .clean = (stOK, s.rd (spadAddr t off) len, s) := (if_neg h).trans (if_neg (serveRead_groups hg))

theorem serveRead_recovered (o : Nat) : serveRead s t off len (.recovered o) = (stOK, s.rd (spadAddr t off) len, parityEffect s t (pcOff s t) (.recovered o)) :=
  (if_neg h).trans (if_neg (serveRead_groups hg))

theorem serveRead_unrecovered (o : Nat) : serveRead s t off len (.unrecovered o) = (stPARITY, [], parityEffect s t (pcOff s t) (.unrecovered o)) :=
  (if_neg h).trans (if_neg (serveRead_groups hg))

end

theorem readAtPort_outside (h : ReadOutside s t addr len) (who : ReadBy) (par : Parity) : readAtPort s t who addr len par = answerRead s who stADDRESS [] := if_pos h

section
variable (h : ¬ ReadOutside s t addr len) {par : Parity} {st : Nat} {data : List Byte} {u : State}
  (hr : serveRead s t (addr - spadAddr t 0) len par = (st, data, u)) (who : ReadBy)
include h hr

/-- A read that the tile refuses is answered with the reason. -/
theorem readAtPort_refused (hs : st ≠ stOK) : readAtPort s t who addr len par = answerRead u who st [] := (if_neg h).trans (by rw [hr]; exact if_neg hs)

/-- A read that the tile serves meets the merge table. -/
theorem readAtPort_served (hs : st = stOK) : readAtPort s t who addr len par = mergeRead u t who (addr - spadAddr t 0) len data :=
  (if_neg h).trans (by rw [hr]; exact if_pos hs)

end

end

/-! ### The merge table -/

/-- The rows of a range of a scratchpad. -/
def readRows (off len : Nat) : List Nat := if len = 0 then [] else (List.range ((off + len - 1) / 64 + 1 - off / 64)).map fun i => off / 64 + i

/-- A read meets the merge table for its next row: the tile after it, and the rows whose entries hold the read. -/
def mergeStep (r : Tile × List Nat) (row : Nat) : Tile × List Nat := ((mergeRow r.1 row).1, if (mergeRow r.1 row).2 then r.2 ++ [row] else r.2)

/-- The tile after a read has met the merge table for rows, and the rows whose entries hold it. -/
def mergeRows (x : Tile) (rows : List Nat) : Tile × List Nat := rows.foldl mergeStep (x, [])

theorem mergeRead_eq (s : State) (t : Nat) (who : ReadBy) (off len : Nat) (data : List Byte) : mergeRead s t who off len data =
    let r := mergeRows (s.tile t) (readRows off len)
    if r.2.isEmpty then answerRead s who stOK data else s.setTile t { r.1 with merged := r.1.merged ++ [⟨who, r.2, data⟩] } := rfl

section
variable {x : Tile} {off len row : Nat}

theorem mem_readRows {r : Nat} (h : r ∈ readRows off len) : off / 64 ≤ r ∧ r ≤ (off + len - 1) / 64 := by
  unfold readRows at h
  split at h
  · cases h
  · obtain ⟨i, hi, rfl⟩ := List.mem_map.mp h
    have := List.mem_range.mp hi
    omega

theorem readRows_ne_nil (h : len ≠ 0) : readRows off len ≠ [] := by
  rw [readRows, if_neg h, Ne, List.map_eq_nil_iff, List.range_eq_nil]
  omega

theorem mergeRow_merged (x : Tile) (row : Nat) : (mergeRow x row).1.merged = x.merged := by
  unfold mergeRow
  split <;> split <;> rfl

/-- A table with room in it and in its entries takes a read. -/
theorem mergeRow_takes (hl : x.merge.length < 8) (hn : ∀ e ∈ x.merge, e.n < 16) (row : Nat) : (mergeRow x row).2 = true := by
  unfold mergeRow
  split
  · next e he => rw [if_pos (hn e (List.mem_of_find?_eq_some he))]
  · rw [if_pos hl]

/-- A full table without an entry for the row takes no read of it. -/
theorem mergeRow_full (hl : 8 ≤ x.merge.length) (hr : ∀ e ∈ x.merge, e.row ≠ row) : mergeRow x row = (x, false) := by
  have hf : x.merge.find? (fun e => e.row == row) = none := List.find?_eq_none.mpr fun e he h => hr e he (beq_iff_eq.mp h)
  rw [mergeRow, hf]
  exact if_neg (Nat.not_lt.mpr hl)

/-- The table changes no read that it held already, and holds the read for rows of the read. -/
theorem mergeRows_sound (x : Tile) (rows : List Nat) : (mergeRows x rows).1.merged = x.merged ∧ ∀ r ∈ (mergeRows x rows).2, r ∈ rows := by
  refine List.foldlRecOn (motive := fun r => r.1.merged = x.merged ∧ ∀ row ∈ r.2, row ∈ rows) rows mergeStep (b := (x, [])) ⟨rfl, by simp⟩ fun r hr row hrow => ?_
  refine ⟨(mergeRow_merged ..).trans hr.1, fun r' h => ?_⟩
  unfold mergeStep at h
  split at h
  · rcases List.mem_append.mp h with h | h
    · exact hr.2 _ h
    · rw [List.mem_singleton.mp h]; exact hrow
  · exact hr.2 _ h

/-- A read that an entry holds for its first row is held. -/
theorem mergeRows_ne_nil {rows : List Nat} (hr : rows ≠ []) (h : ∀ row, (mergeRow x row).2 = true) : (mergeRows x rows).2 ≠ [] := by
  obtain ⟨row, rest, rfl⟩ := List.exists_cons_of_ne_nil hr
  have hfirst : (mergeStep (x, []) row).2 ≠ [] := by rw [mergeStep, if_pos (h row)]; exact List.cons_ne_nil row []
  refine List.foldlRecOn (motive := fun r => r.2 ≠ []) rest mergeStep hfirst fun r hr row _ => ?_
  unfold mergeStep
  dsimp only
  split
  · exact List.append_ne_nil_of_left_ne_nil hr _
  · exact hr

theorem mergeRows_full (hl : 8 ≤ x.merge.length) {rows : List Nat} (hr : ∀ e ∈ x.merge, e.row ∉ rows) : mergeRows x rows = (x, []) :=
  List.foldlRecOn (motive := fun r => r = (x, [])) rows mergeStep rfl fun r hx row hrow => by
    rw [hx, mergeStep, mergeRow_full hl fun e he h => hr e he (h ▸ hrow)]; rfl

end

section
variable {s : State} {t off len : Nat}

theorem mergeRead_answered (h : (mergeRows (s.tile t) (readRows off len)).2 = []) (who : ReadBy) (data : List Byte) :
    mergeRead s t who off len data = answerRead s who stOK data := by
  rw [mergeRead_eq]; exact if_pos (by rw [h]; rfl)

/-- A read that merge entries hold waits at the tile, with its data, for rows of its own. -/
theorem mergeRead_held (h : (mergeRows (s.tile t) (readRows off len)).2 ≠ []) (who : ReadBy) (data : List Byte) :
    let v := mergeRead s t who off len data
    ∃ rows, rows ≠ [] ∧ (∀ r ∈ rows, off / 64 ≤ r ∧ r ≤ (off + len - 1) / 64) ∧ (v.tile t).merged = (s.tile t).merged ++ [⟨who, rows, data⟩] ∧
      v = { s with tiles := v.tiles } ∧ ∀ k, k ≠ t → v.tile k = s.tile k := by
  obtain ⟨hm, hrows⟩ := mergeRows_sound (s.tile t) (readRows off len)
  have hv : mergeRead s t who off len data = s.setTile t _ := (mergeRead_eq ..).trans (if_neg (by simpa using h))
  rw [hv]
  refine ⟨_, h, fun r hr => mem_readRows (hrows r hr), ?_, rfl, fun k hk => ?_⟩
  · rw [State.tile_setTile, if_pos rfl, ← hm]
  · rw [State.tile_setTile, if_neg hk]

end

theorem answerMerged_tile (s : State) (src tag : Nat) (data : List Byte) : answerMerged s [⟨.tile src tag, [], data⟩] = s.post (.readData src tag stOK data) := rfl

theorem mergeWindowExpiry_none {s : State} {t : Nat} (h : (s.tile t).merged = []) (row : Nat) :
    exec (.mergeWindowExpiry t row) s = .next (s.modTile t fun x => { x with merge := x.merge.filter (fun e => e.row ≠ row), merged := [] }) := by
  rw [exec_mergeWindowExpiry, execMergeWindowExpiry, h]; rfl

/-! ### What comes back -/

section
variable {s : State} {t tag status : Nat}

/-- What comes back for the oldest read of a tile lands at its flight (R111). -/
theorem readBack_head {r : OutRead} {rs : List OutRead} (h : (s.tile t).reads = r :: rs) (ht : r.tag = tag) (data : List Byte) : ∃ pc, readBack s t tag status data =
    let u := s.modTile t fun x => { x with reads := x.reads.filter fun r => r.tag ≠ tag }
    let v := sePump (dmaPump (landGather (landRead u t r.flight r.off status data) t r.flight r.off status data) t) t
    settle (if status = stACCESS then progFault v t fACCESS pc r.addr else v) t := by
  have hr : (s.tile t).reads.find? (fun r => r.tag == tag) = some r := by rw [h]; exact List.find?_cons_of_pos (beq_iff_eq.mpr ht)
  exact ⟨((s.tile t).flights.find? fun f => f.id == r.flight).elim 0 Flight.pc, by rw [readBack, hr]⟩

/-- The transfer of an answer for its tag, once the answer has come (R121, R261). -/
def answered (o : Outst) (status : Nat) : Outst := { o with left := o.left - 1, worst := max o.worst status }

/-- An answer to a write counts for the transfer that its tag names. -/
theorem answerTransfer_head {o : Outst} {os : List Outst} (h : (s.tile t).outst = o :: os) (ht : o.tag = tag) (hc : o.chan = none) (hs : status ≠ stWICKET_MISS) :
    answerTransfer s t tag status = if o.left - 1 = 0 then endOutst s t (answered o status)
      else s.modTile t fun x => { x with outst := x.outst.map fun p => if p.tag = tag then answered o status else p } := by
  have ho : (s.tile t).outst.find? (fun o => o.tag == tag) = some o := by rw [h]; exact List.find?_cons_of_pos (beq_iff_eq.mpr ht)
  rw [answerTransfer, ho, answered]
  dsimp only
  rw [hc, if_neg hs]

end

/-- Settles O34: the checks at the port in order, the two outcomes of the merge table, and the transfer and the read at the head of their lists. -/
theorem readsAndAnswers : Obligations.ReadsAndAnswers := by
  refine ⟨fun s t rq par => ?_, fun s t who off len data => ⟨?_, fun h => ?_, fun hl hm hn => ?_, fun hl hr => ?_⟩,
    fun s t row => ⟨rfl, fun h => ?_, answerMerged_tile _⟩, fun s t tag status data r rs hf hl ht => ?_,
    fun s t tag status hf => congrArg _ (if_neg hf), fun s t tag status o os hl ht hc hs => ?_⟩
  · intro u off who outside on
    have hx : ∀ par, exec (.remoteReadRequest t rq par) s = .next (readAtPort u t who rq.addr rq.len par) := fun _ => rfl
    refine ⟨fun h => (hx _).trans (congrArg _ ?_), fun h hf => (hx _).trans (congrArg _ ?_), fun h hf hl hg => (hx _).trans (congrArg _ ?_),
      fun h hf hg => ⟨(hx _).trans (congrArg _ ?_), fun o => (hx _).trans (congrArg _ ?_), fun o => (hx _).trans (congrArg _ ?_)⟩⟩
    · exact readAtPort_outside (s := u) h who par
    · exact readAtPort_refused (s := u) h (serveRead_fenced (s := u) hf par) who (by decide)
    · exact readAtPort_refused (s := u) h (serveRead_off (s := u) hf hl hg par) who (by decide)
    · exact readAtPort_served (s := u) h (serveRead_clean (s := u) hf hg) who rfl
    · exact readAtPort_served (s := u) h (serveRead_recovered (s := u) hf hg o) who rfl
    · exact readAtPort_refused (s := u) h (serveRead_unrecovered (s := u) hf hg o) who (by decide)
  · by_cases h : (mergeRows (s.tile t) (readRows off len)).2 = []
    · exact .inl (mergeRead_answered h who data)
    · exact .inr (mergeRead_held h who data)
  · exact mergeRead_answered (by rw [readRows, if_pos h]; rfl) who data
  · exact mergeRead_held (mergeRows_ne_nil (readRows_ne_nil hl) (mergeRow_takes hm hn)) who data
  · refine mergeRead_answered (congrArg Prod.snd (mergeRows_full hl fun e he hrow => ?_)) who data
    have := mem_readRows hrow
    have := hr e he
    omega
  · rw [mergeWindowExpiry_none h, h]; rfl
  · obtain ⟨pc, hb⟩ := readBack_head (s := s.unwire (.readData t tag status data)) (status := status) hl ht data
    have hx : exec (.remoteReadResponse t tag status data) s = .next (readBack (s.unwire (.readData t tag status data)) t tag status data) := congrArg _ (if_neg hf)
    refine ⟨fun hs => ?_, fun hs => ⟨pc, ?_⟩⟩
    · rw [hx, hb]; exact congrArg (fun u => Host.Outcome.next (settle u t)) (if_neg hs)
    · rw [hx, hb]; exact congrArg (fun u => Host.Outcome.next (settle u t)) (if_pos hs)
  · rw [answerTransfer_head hl ht hc hs]
    exact ⟨fun h => if_pos (by omega), fun h => if_neg (by omega)⟩

end Sys2Proof.Machine
end

section
/-!
SUPPORT. Bank groups (R99–R104, R127): the state of a group, its zero-fill, and what the end of a task closes and stops.
-/

namespace Sys2Proof.Machine

/-! ### The state of a group -/

/-- A field that lies in the low bits of a number. -/
theorem bits_mod_two_pow (n : Nat) {hi lo k : Nat} (h : hi < k) : bits (n % 2 ^ k) hi lo = bits n hi lo := by
  refine Nat.eq_of_testBit_eq fun i => ?_
  simp only [bits, Nat.testBit_mod_two_pow, Nat.testBit_div_two_pow]
  by_cases hi' : i < hi + 1 - lo
  · rw [decide_eq_true (show i + lo < k by omega), Bool.true_and]
  · rw [decide_eq_false hi', Bool.false_and, Bool.false_and]

section
variable {s u : State} {t g h : Nat}

theorem groupState_of_reg (hr : u.reg (regAddr .tile t R.SPGSTATE) = s.reg (regAddr .tile t R.SPGSTATE)) (h : Nat) : groupState u t h = groupState s t h := by
  rw [groupState, State.tf, State.fld, show R.SPGSTATE_G.off = R.SPGSTATE from rfl, hr]; rfl

theorem setGroupState_onlyIn (K : Nat → Prop) (s : State) (t g v : Nat) : OnlyIn (fun a => a = regAddr .tile t R.SPGSTATE) K s (setGroupState s t g v) := setTf_onlyIn ..

theorem tile_setGroupState (s : State) (t g v k : Nat) : (setGroupState s t g v).tile k = s.tile k := rfl

/-- The state of a group after one has been set. -/
theorem groupState_setGroupState (s : State) (t : Nat) (hg : g < 8) (hh : h < 8) {v : Nat} (hv : v < 4) :
    groupState (setGroupState s t g v) t h = if h = g then v else groupState s t h := by
  have hn : (BitVec.ofNat 64 (s.tf t R.SPGSTATE_G)).toNat = s.tf t R.SPGSTATE_G :=
    Nat.mod_eq_of_lt (Nat.lt_trans (wget_lt _ 15 0) (by decide))
  have hread : groupState (setGroupState s t g v) t h = wget (wset (.ofNat 64 (s.tf t R.SPGSTATE_G)) (2 * g + 1) (2 * g) v) (2 * h + 1) (2 * h) := by
    rw [groupState, setGroupState, tf_setTf_self _ (by decide) (by decide)]
    exact bits_mod_two_pow _ (show 2 * h + 1 < 16 by omega)
  have hkept : wget (.ofNat 64 (s.tf t R.SPGSTATE_G)) (2 * h + 1) (2 * h) = groupState s t h := by rw [wget, hn]; rfl
  rw [hread]
  split
  · next he =>
    rw [he, wget_wset_self _ v (by omega) (by omega), show 2 * g + 1 + 1 - 2 * g = 2 by omega]
    exact Nat.mod_eq_of_lt hv
  · rcases Nat.lt_or_gt_of_ne ‹h ≠ g› with hlt | hgt
    · rw [wget_wset_below _ v (by omega) (by omega) (by omega), hkept]
    · rw [wget_wset_above _ v (by omega) (by omega) (by omega), hkept]

/-! ### The zero-fill -/

/-- A group `g` that has been zero-filled and is now in state `n`; every other group, byte and register is as it was. -/
structure ZeroFilled (s : State) (t g n : Nat) (u : State) : Prop where
  group : groupState u t g = n
  others : ∀ h, h < 8 → h ≠ g → groupState u t h = groupState s t h
  zero : ∀ o, o < 0x4_0000 → u.byte (spadAddr t (0x4_0000 * g + o)) = 0
  bytes : ∀ a, a < spadAddr t (0x4_0000 * g) ∨ spadAddr t (0x4_0000 * g) + 0x4_0000 ≤ a → u.byte a = s.byte a
  regs : ∀ a, a ≠ regAddr .tile t R.SPGSTATE → u.reg a = s.reg a

/-- The bytes of a group. -/
def groupBytes (t g a : Nat) : Bool := decide (spadAddr t (0x4_0000 * g) ≤ a) && decide (a < spadAddr t (0x4_0000 * g) + 0x4_0000)

theorem byte_zeroGroup (s : State) (t g a : Nat) : (zeroGroup s t g).byte a = mget memDefault (mdrop (groupBytes t g) s.mem) a := rfl

theorem zeroGroup_zero (s : State) (t g : Nat) {o : Nat} (ho : o < 0x4_0000) : (zeroGroup s t g).byte (spadAddr t (0x4_0000 * g + o)) = 0 := by
  rw [byte_zeroGroup]
  refine mget_mdrop_self ?_
  rw [groupBytes, Bool.and_eq_true, decide_eq_true_eq, decide_eq_true_eq, spadAddr, spadAddr]
  omega

theorem zeroGroup_other (s : State) (t g : Nat) {a : Nat} (ha : a < spadAddr t (0x4_0000 * g) ∨ spadAddr t (0x4_0000 * g) + 0x4_0000 ≤ a) :
    (zeroGroup s t g).byte a = s.byte a := by
  rw [byte_zeroGroup]
  exact mget_mdrop (by simp only [groupBytes, Bool.and_eq_false_iff, decide_eq_false_iff_not]; omega)

/-- A group set to a state after its zero-fill, whatever becomes of the tile. -/
theorem zeroFilled_of (hg : g < 8) {n : Nat} (hn : n < 4) {v : State} (hr : v.regs = s.regs) (hm : v.mem = (zeroGroup s t g).mem) :
    ZeroFilled s t g n (setGroupState v t g n) where
  group := (groupState_setGroupState v t hg hg hn).trans (if_pos rfl)
  others h hh hne := (groupState_setGroupState v t hg hh hn).trans ((if_neg hne).trans (groupState_of_reg (reg_of_regs hr _) h))
  zero o ho := by
    rw [← zeroGroup_zero s t g ho, State.byte, State.byte, ← hm]; rfl
  bytes a ha := by
    rw [← zeroGroup_other s t g ha, State.byte, State.byte, ← hm]; rfl
  regs a ha := ((setGroupState_onlyIn (fun _ => False) v t g n).2.1 a ha).trans (reg_of_regs hr a)

/-- A group that starts, after its zero-fill (R100). -/
def groupStarted (s : State) (t g : Nat) : State :=
  setGroupState ((zeroGroup s t g).modTile t fun x => { x with powered := x.powered.filter fun h => h ≠ g }) t g 2

/-- A group that stops, after its zero-fill, for the owner that has been latched (R103). -/
def groupTaken (s : State) (t g : Nat) : State :=
  setGroupState ((zeroGroup s t g).modTile t fun x => { x with owners := mput (fun _ => 0) x.owners g 0 }) t g 2

section
variable (hg : g < 8)
include hg

theorem groupStarted_zeroFilled : ZeroFilled s t g 2 (groupStarted s t g) := zeroFilled_of hg (by decide) rfl rfl

theorem groupTaken_zeroFilled : ZeroFilled s t g 2 (groupTaken s t g) := zeroFilled_of hg (by decide) rfl rfl

theorem groupFreed_zeroFilled : ZeroFilled s t g 0 (setGroupState (zeroGroup s t g) t g 0) := zeroFilled_of hg (by decide) rfl rfl

end

theorem owners_groupTaken : mget (fun _ => 0) ((groupTaken s t g).tile t).owners g = 0 := by
  rw [groupTaken, tile_setGroupState, State.tile_modTile, if_pos rfl]
  exact mget_mput_self

/-- Without a latched start, a group that comes ON starts nothing. -/
theorem latched_none (h : (s.tile t).latchStart = false) : latched s t = s := if_neg (by simp [h])

theorem zeroFillEnd_starting (hs : groupState s t g = 1) (hp : (s.tile t).powered.contains g = true) (hl : (s.tile t).latchStart = false) :
    exec (.bankGroupZeroFillEnd t g) s = .next (groupStarted s t g) := by
  rw [exec_bankGroupZeroFillEnd, execBankGroupZeroFillEnd, hs]
  refine congrArg _ ((if_pos hp).trans (latched_none ?_))
  rw [tile_setGroupState, State.tile_modTile, if_pos rfl]
  exact hl

theorem zeroFillEnd_free (hs : groupState s t g = 3) (ho : mget (fun _ => 0) (s.tile t).owners g = 0) :
    exec (.bankGroupZeroFillEnd t g) s = .next (setGroupState (zeroGroup s t g) t g 0) := by
  rw [exec_bankGroupZeroFillEnd, execBankGroupZeroFillEnd, hs]
  exact congrArg _ (if_pos ho)

theorem zeroFillEnd_taken (hs : groupState s t g = 3) (ho : mget (fun _ => 0) (s.tile t).owners g ≠ 0) (hl : (s.tile t).latchStart = false) :
    exec (.bankGroupZeroFillEnd t g) s = .next (groupTaken s t g) := by
  rw [exec_bankGroupZeroFillEnd, execBankGroupZeroFillEnd, hs]
  refine congrArg _ ((if_neg ho).trans (latched_none ?_))
  rw [tile_setGroupState, State.tile_modTile, if_pos rfl]
  exact hl

end

/-! ### The end of a task -/

/-- What one update of a list brings about in the states that satisfy an invariant, and the others keep. -/
theorem foldl_reaches_of {α : Type} {I P : State → Prop} {f : State → α → State} {a : α} (hI : ∀ s x, I s → I (f s x)) (hset : ∀ s, I s → P (f s a))
    (hkeep : ∀ s x, I s → P s → P (f s x)) (l : List α) : a ∈ l → ∀ s, I s → P (l.foldl f s) := by
  induction l with
  | nil => intro ha; cases ha
  | cons b l ih =>
    intro ha s hs
    by_cases hl : a ∈ l
    · exact ih hl _ (hI s b hs)
    · rcases List.mem_cons.mp ha with rfl | h
      · exact (List.foldlRecOn (motive := fun u => I u ∧ P u) l f ⟨hI s a hs, hset s hs⟩ fun u hu x _ => ⟨hI u x hu.1, hkeep u x hu.1 hu.2⟩).2
      · exact absurd h hl

section
variable (s : State) (t c : Nat)

/-- The wickets of a context closed. -/
def wicketsClosed : State := (List.range 16).foldl (fun s n => if s.tf t (R.WKBASE_OWNER n) = c then closeWicket s t n else s) s

/-- The queues of a context closed. -/
def queuesClosed : State := (List.range 16).foldl (fun s n => if s.tf t (R.QCFG_OWNER n) = c then closeQueue s t n else s) s

/-- A group of `own` that is ON set to STOPPING. -/
def stopGroup (own t : Nat) (s : State) (g : Nat) : State := if bitOf own g ∧ groupState s t g = 2 then setGroupState s t g 3 else s

/-- The groups of `own` that are ON set to STOPPING. -/
def groupsStopped (own : Nat) : State := (List.range 8).foldl (stopGroup own t) s

/-- The end of a task before its matrix work ends and the remaps load: wickets and queues closed, rows drained, groups stopping. -/
def taskClosed : State :=
  groupsStopped (drainIf (queuesClosed (wicketsClosed s t c) t c) t fun e => bitOf (groupsOf s t c) (e.row * 64 / 0x4_0000)) t (groupsOf s t c)

theorem dropMatrix_reg (a : Nat) : (dropMatrix s t).reg a = s.reg a := (forceDown_clockOnly _ t).reg a

theorem remapRows_regs (pos : Nat) : (remapRows s pos).regs = s.regs := by
  refine foldl_keeps State.regs _ (fun u x _ => ?_) s
  dsimp only
  split
  · rfl
  · split <;> rfl

theorem taskEnd_reg (a : Nat) : (taskEnd s t c).reg a = (taskClosed s t c).reg a := by
  have hmatrix : ∀ u : State, (if u.actx t = c then (dropMatrix u t).modTile t fun x => { x with started := false } else u).reg a = u.reg a := fun u => by
    split
    · exact dropMatrix_reg u t a
    · rfl
  exact (reg_of_regs (remapRows_regs _ _) a).trans (hmatrix (taskClosed s t c))

end

section
variable {s u : State} {t c : Nat}

/-! #### Wickets and queues -/

theorem closeWicket_onlyIn (h : Unwatched s t) (w : Nat) : OnlyIn (fun a => a = regAddr .tile t (R.WKEPOCH w)) (fun _ => False) s (closeWicket s t w) := by
  by_cases hc : s.tf t (R.WKEPOCH_OPEN w) = 0
  · rw [closeWicket_of_closed hc]; exact .refl ..
  · exact (wicketClosed_onlyIn s t w).trans ((closeWicket_unwatched h hc).mono (fun _ => False.elim) fun _ => id)

theorem tf_closeWicket_open (h : Unwatched s t) (w : Nat) : (closeWicket s t w).tf t (R.WKEPOCH_OPEN w) = 0 := by
  by_cases hc : s.tf t (R.WKEPOCH_OPEN w) = 0
  · rw [closeWicket_of_closed hc, hc]
  · exact ((closeWicket_unwatched h hc).tf id).trans (tf_wicketClosed_open s t w)

theorem closeQueue_onlyIn (s : State) (t q : Nat) : OnlyIn (fun a => a = regAddr .tile t (R.QEPOCH q)) (fun _ => False) s (closeQueue s t q) :=
  .ite (.refl ..) ((setTf_onlyIn _ s t (R.QEPOCH_CLOSED q) 1).trans (setTf_onlyIn _ _ t (R.QEPOCH_EPOCH q) _))

theorem tf_closeQueue_closed (s : State) (t q : Nat) : (closeQueue s t q).tf t (R.QEPOCH_CLOSED q) = 1 := by
  unfold closeQueue
  split
  · assumption
  · rw [tf_setTf_apart _ (show 0 ≤ 15 ∧ 15 < 64 by decide) (.inr (.inl (show 15 < 16 by decide)))]
    exact tf_setTf_fits 1 (show 16 ≤ 16 ∧ 16 < 64 by decide)

/-- The epoch registers of a tile's wickets. -/
def wicketEpochs (t a : Nat) : Prop := ∃ n, n < 16 ∧ a = regAddr .tile t (R.WKEPOCH n)

/-- The epoch registers of a tile's queues. -/
def queueEpochs (t a : Nat) : Prop := ∃ n, n < 16 ∧ a = regAddr .tile t (R.QEPOCH n)

theorem not_wicketEpochs {off : Nat} (h : ∀ n, n < 16 → off ≠ R.WKEPOCH n) : ¬ wicketEpochs t (regAddr .tile t off) := fun ⟨n, hn, he⟩ => tileAddr_ne (h n hn) he

theorem not_queueEpochs {off : Nat} (h : ∀ n, n < 16 → off ≠ R.QEPOCH n) : ¬ queueEpochs t (regAddr .tile t off) := fun ⟨n, hn, he⟩ => tileAddr_ne (h n hn) he

theorem wicketsClosed_onlyIn (h : Unwatched s t) (c : Nat) : OnlyIn (wicketEpochs t) (fun _ => False) s (wicketsClosed s t c) :=
  List.foldlRecOn (motive := OnlyIn (wicketEpochs t) (fun _ => False) s) _ _ (.refl ..) fun _ hu n hn =>
    hu.trans (.ite ((closeWicket_onlyIn (h.of_tile (hu.2.2 t id)) n).mono (fun _ ha => ⟨n, List.mem_range.mp hn, ha⟩) fun _ => id) (.refl ..))

theorem queuesClosed_onlyIn (s : State) (t c : Nat) : OnlyIn (queueEpochs t) (fun _ => False) s (queuesClosed s t c) :=
  .foldl _ (fun u n hn => .ite ((closeQueue_onlyIn u t n).mono (fun _ ha => ⟨n, List.mem_range.mp hn, ha⟩) fun _ => id) (.refl ..)) s

/-- Every wicket of the context is closed. -/
theorem tf_wicketsClosed_open (h : Unwatched s t) {n : Nat} (hn : n < 16) (ho : s.tf t (R.WKBASE_OWNER n) = c) :
    (wicketsClosed s t c).tf t (R.WKEPOCH_OPEN n) = 0 := by
  have hstep : ∀ u, Unwatched u t → ∀ m, OnlyIn (fun a => a = regAddr .tile t (R.WKEPOCH m)) (fun _ => False) u
      (if u.tf t (R.WKBASE_OWNER m) = c then closeWicket u t m else u) := fun u hu m => .ite (closeWicket_onlyIn hu m) (.refl ..)
  have howner : ∀ m, R.WKBASE n ≠ R.WKEPOCH m := fun m => by simp only [R.WKBASE, R.WKEPOCH]; omega
  refine foldl_reaches_of (I := fun u => Unwatched u t ∧ u.tf t (R.WKBASE_OWNER n) = c) (P := fun u => u.tf t (R.WKEPOCH_OPEN n) = 0)
    (fun u m ⟨hu, hc⟩ => ⟨hu.of_tile ((hstep u hu m).2.2 t id), ((hstep u hu m).tf (tileAddr_ne (howner m))).trans hc⟩)
    (fun u ⟨hu, hc⟩ => by rw [if_pos hc]; exact tf_closeWicket_open hu n)
    (fun u m ⟨hu, hc⟩ hp => ?_) _ (List.mem_range.mpr hn) s ⟨h, ho⟩
  by_cases hm : n = m
  · subst hm
    rw [if_pos hc]; exact tf_closeWicket_open hu n
  · exact ((hstep u hu m).tf (tileAddr_ne (by simp only [R.WKEPOCH_OPEN, R.WKEPOCH]; omega))).trans hp

/-- Every queue of the context is closed. -/
theorem tf_queuesClosed_closed {n : Nat} (hn : n < 16) (ho : s.tf t (R.QCFG_OWNER n) = c) : (queuesClosed s t c).tf t (R.QEPOCH_CLOSED n) = 1 := by
  have hstep : ∀ u m, OnlyIn (fun a => a = regAddr .tile t (R.QEPOCH m)) (fun _ => False) u
      (if u.tf t (R.QCFG_OWNER m) = c then closeQueue u t m else u) := fun u m => .ite (closeQueue_onlyIn u t m) (.refl ..)
  have howner : ∀ m, R.QCFG n ≠ R.QEPOCH m := fun m => by simp only [R.QCFG, R.QEPOCH]; omega
  refine foldl_reaches_of (I := fun u => u.tf t (R.QCFG_OWNER n) = c) (P := fun u => u.tf t (R.QEPOCH_CLOSED n) = 1)
    (fun u m hc => ((hstep u m).tf (tileAddr_ne (howner m))).trans hc)
    (fun u hc => by rw [if_pos hc]; exact tf_closeQueue_closed u t n)
    (fun u m hc hp => ?_) _ (List.mem_range.mpr hn) s ho
  by_cases hm : n = m
  · subst hm
    rw [if_pos hc]; exact tf_closeQueue_closed u t n
  · exact ((hstep u m).tf (tileAddr_ne (by simp only [R.QEPOCH_CLOSED, R.QEPOCH]; omega))).trans hp

/-! #### Groups -/

theorem groupsStopped_onlyIn (s : State) (t own : Nat) : OnlyIn (fun a => a = regAddr .tile t R.SPGSTATE) (fun _ => False) s (groupsStopped s t own) :=
  .foldl _ (fun u g _ => .ite (setGroupState_onlyIn _ u t g 3) (.refl ..)) s

theorem groupState_stopGroup (own : Nat) (s : State) (t : Nat) {g h : Nat} (hg : g < 8) (hh : h < 8) :
    groupState (stopGroup own t s g) t h = if h = g ∧ bitOf own h = true ∧ groupState s t h = 2 then 3 else groupState s t h := by
  unfold stopGroup
  by_cases hs : bitOf own g ∧ groupState s t g = 2
  · rw [if_pos hs, groupState_setGroupState s t hg hh (by decide)]
    exact if_congr ⟨fun he => ⟨he, he ▸ hs⟩, fun hc => hc.1⟩ rfl rfl
  · have hne : ¬ (h = g ∧ bitOf own h = true ∧ groupState s t h = 2) := fun ⟨he, hc⟩ => hs (he ▸ hc)
    rw [if_neg hs, if_neg hne]

theorem groupState_stopGroups (own t : Nat) {h : Nat} (hh : h < 8) (l : List Nat) : ∀ s : State, (∀ g ∈ l, g < 8) →
    groupState (l.foldl (stopGroup own t) s) t h = if h ∈ l ∧ bitOf own h = true ∧ groupState s t h = 2 then 3 else groupState s t h := by
  induction l with
  | nil => exact fun s _ => (if_neg fun hm => List.not_mem_nil hm.1).symm
  | cons g l ih =>
    intro s hl
    rw [List.foldl_cons, ih _ fun k hk => hl k (.tail _ hk), groupState_stopGroup own s t (hl g (.head _)) hh]
    by_cases he : h = g ∧ bitOf own h = true ∧ groupState s t h = 2
    · rw [if_pos he, if_neg fun hc => absurd hc.2.2 (by decide), if_pos ⟨he.1 ▸ .head _, he.2⟩]
    · rw [if_neg he]
      exact if_congr ⟨fun hc => ⟨.tail _ hc.1, hc.2⟩, fun hc => ⟨(List.mem_cons.mp hc.1).resolve_left fun h => he ⟨h, hc.2⟩, hc.2⟩⟩ rfl rfl

theorem groupState_groupsStopped (s : State) (t own : Nat) {g : Nat} (hg : g < 8) :
    groupState (groupsStopped s t own) t g = if bitOf own g = true ∧ groupState s t g = 2 then 3 else groupState s t g :=
  (groupState_stopGroups own t hg _ s fun _ hk => List.mem_range.mp hk).trans
    (if_congr ⟨fun h => h.2, fun h => ⟨List.mem_range.mpr hg, h⟩⟩ rfl rfl)

/-! #### The end of the task -/

/-- A register that is neither an epoch of a queue nor the state of the groups is as the closing of the wickets leaves it. -/
theorem taskEnd_reg_wickets (s : State) (t c : Nat) {off : Nat} (hq : ∀ n, n < 16 → off ≠ R.QEPOCH n) (hg : off ≠ R.SPGSTATE) :
    (taskEnd s t c).reg (regAddr .tile t off) = (wicketsClosed s t c).reg (regAddr .tile t off) :=
  (taskEnd_reg s t c _).trans (((groupsStopped_onlyIn _ t _).2.1 _ (tileAddr_ne hg)).trans
    ((reg_of_regs (drainIf_drained _).regs _).trans ((queuesClosed_onlyIn _ t c).2.1 _ (not_queueEpochs hq))))

/-- The state of the groups as the end of the task finds it. -/
theorem groupState_drained (h : Unwatched s t) (c : Nat) (f : GbEntry → Bool) (g : Nat) :
    groupState (drainIf (queuesClosed (wicketsClosed s t c) t c) t f) t g = groupState s t g := by
  have hq := (queuesClosed_onlyIn (wicketsClosed s t c) t c).2.1 (regAddr .tile t R.SPGSTATE)
    (not_queueEpochs fun n _ => by simp only [R.SPGSTATE, R.QEPOCH]; omega)
  have hw := (wicketsClosed_onlyIn h c).2.1 (regAddr .tile t R.SPGSTATE) (not_wicketEpochs fun n _ => by simp only [R.SPGSTATE, R.WKEPOCH]; omega)
  exact groupState_of_reg ((reg_of_regs (drainIf_drained f).regs _).trans (hq.trans hw)) g

theorem tf_taskEnd_open (h : Unwatched s t) {n : Nat} (hn : n < 16) (ho : s.tf t (R.WKBASE_OWNER n) = c) : (taskEnd s t c).tf t (R.WKEPOCH_OPEN n) = 0 := by
  have hq : ∀ m, m < 16 → R.WKEPOCH n ≠ R.QEPOCH m := fun m _ => by simp only [R.WKEPOCH, R.QEPOCH]; omega
  have hg : R.WKEPOCH n ≠ R.SPGSTATE := by simp only [R.WKEPOCH, R.SPGSTATE]; omega
  rw [← tf_wicketsClosed_open h hn ho, State.tf, State.tf, State.fld, State.fld]
  exact congrArg (wget · 16 16) (taskEnd_reg_wickets s t c hq hg)

theorem tf_taskEnd_closed (h : Unwatched s t) {n : Nat} (hn : n < 16) (ho : s.tf t (R.QCFG_OWNER n) = c) : (taskEnd s t c).tf t (R.QEPOCH_CLOSED n) = 1 := by
  have howner : (wicketsClosed s t c).tf t (R.QCFG_OWNER n) = c :=
    ((wicketsClosed_onlyIn h c).tf (not_wicketEpochs fun m _ => by simp only [R.QCFG_OWNER, R.QCFG, R.WKEPOCH]; omega)).trans ho
  have hg : R.QEPOCH n ≠ R.SPGSTATE := by simp only [R.QEPOCH, R.SPGSTATE]; omega
  rw [← tf_queuesClosed_closed hn howner, State.tf, State.tf, State.fld, State.fld]
  exact congrArg (wget · 16 16) ((taskEnd_reg s t c _).trans (((groupsStopped_onlyIn _ t _).2.1 _ (tileAddr_ne hg)).trans (reg_of_regs (drainIf_drained _).regs _)))

theorem groupState_taskEnd (h : Unwatched s t) (c : Nat) {g : Nat} (hg : g < 8) :
    groupState (taskEnd s t c) t g = if bitOf (groupsOf s t c) g = true ∧ groupState s t g = 2 then 3 else groupState s t g := by
  rw [groupState_of_reg (taskEnd_reg s t c _), taskClosed, groupState_groupsStopped _ t _ hg, groupState_drained h]

end

/-- Settles O35: the zero-fill and the group's next state in each case, and the registers that each part of the end of a task sets. -/
theorem bankGroups : Obligations.BankGroups := by
  refine ⟨fun s t g hg => ⟨fun hs hp => ?_, fun hs hp hl => ?_, fun hs hl => ?_⟩, fun s t c => ⟨rfl, fun _ hh hf => ?_⟩⟩
  · exact congrArg _ (if_pos ⟨hs, by rw [hp]; rfl⟩)
  · obtain ⟨hgroup, hothers, hzero, hbytes, hregs⟩ := groupStarted_zeroFilled (s := s) (t := t) hg
    exact ⟨_, zeroFillEnd_starting hs hp hl, hgroup, hothers, hzero, hbytes, hregs⟩
  · by_cases ho : mget (fun _ => 0) (s.tile t).owners g = 0
    · obtain ⟨hgroup, hothers, hzero, hbytes, -⟩ := groupFreed_zeroFilled (s := s) (t := t) hg
      exact ⟨_, zeroFillEnd_free hs ho, hgroup.trans (if_pos ho).symm, ho, hothers, hzero, hbytes⟩
    · obtain ⟨hgroup, hothers, hzero, hbytes, -⟩ := groupTaken_zeroFilled (s := s) (t := t) hg
      exact ⟨_, zeroFillEnd_taken hs ho hl, hgroup.trans (if_neg ho).symm, owners_groupTaken, hothers, hzero, hbytes⟩
  · exact ⟨fun n hn => tf_taskEnd_open ⟨hh, hf⟩ hn, fun n hn => tf_taskEnd_closed ⟨hh, hf⟩ hn, fun g hg => groupState_taskEnd ⟨hh, hf⟩ c hg⟩

end Sys2Proof.Machine
end

section
/-!
SUPPORT. The matrix engine at issue (R679–R683): its instructions dispatch at once on a quiet M-tile, since they are legal and hold few ranges.
-/

namespace Sys2Proof.Machine

/-! ### Plans -/

/-- A check that passes goes on with what it found. -/
theorem chk_of_ok {α : Type} {r : Chk α} {v : α} (h : r = .ok v) (s : State) (t pc : Nat) (f : α → State) : chk s t pc r f = f v := by
  rw [h, chk]

section
variable {s : State} {t c : Nat} {f : FmtM} {x y : Word}

/-- A panel set stands in one range, or in two. -/
theorem mpanelPlan_length {mode : Nat} {l : List Range} (h : mpanelPlan s t c mode f x y = .ok l) : l.length ≤ 2 := by
  simp only [mpanelPlan] at h
  split at h
  · cases h
  split at h
  · cases h
  split at h
  · cases h
  split at h
  · cases h
  split at h
  · cases h; exact Nat.le_succ 1
  split at h
  · cases h
  · cases h; exact le_refl 2

theorem planRanges_mpanelPlan (mode : Nat) : (planRanges (mpanelPlan s t c mode f x y)).length ≤ 3 := by
  cases h : mpanelPlan s t c mode f x y with
  | ok l => exact (mpanelPlan_length h).trans (by decide)
  | error e => exact Nat.zero_le 3

/-- What a multiply's plan takes from its instruction, and the ranges of its operands: A, and its own panels in one range or in two. -/
theorem mmulPlan_ok {pc mode : Nat} {pred : Bool} {j : MmulJob} {l : List Range} (h : mmulPlan s t c pc mode f x y pred = .ok (j, l)) :
    j.ctx = c ∧ j.cnt = cntM f ∧ l.length ≤ 3 := by
  have hopt : ∀ (p : Prop) [Decidable p] (r : Range), (if p then [] else [r]).length ≤ 1 := fun p _ r => by split <;> simp
  simp only [mmulPlan] at h
  split at h
  · cases h
  split at h
  · cases h
  split at h
  · cases h
  split at h
  · cases h
  · cases h
  · cases h
    refine ⟨rfl, rfl, ?_⟩
    rw [List.length_append, List.length_append]
    exact Nat.add_le_add (Nat.add_le_add (le_refl 1) (hopt ..)) (hopt ..)

/-- A multiply that has its operands keeps its context and its counter. -/
theorem loadJob_some {j₀ j : MmulJob} (h : loadJob s t f j₀ = some j) : j.ctx = j₀.ctx ∧ j.cnt = j₀.cnt := by
  cases hh : bitOf f.mod.toNat 3 with
  | false =>
    simp only [loadJob, hh, Bool.not_false, if_true, Option.some.injEq] at h
    rw [← h]; exact ⟨rfl, rfl⟩
  | true =>
    simp only [loadJob, hh, Bool.not_true, Bool.false_eq_true, if_false, Option.ite_none_right_eq_some, Option.some.injEq] at h
    rw [← h.2]; exact ⟨rfl, rfl⟩

theorem coneFoot_length (s : State) (t c : Nat) : (coneFoot s t c).length ≤ 1 := by
  unfold coneFoot; dsimp only; split <;> simp

theorem rangeOf_length (r : Chk Nat) (n : Nat) (w : Bool) : (rangeOf r n w).length ≤ 1 := by
  cases r with
  | ok o => exact le_refl 1
  | error e => exact Nat.zero_le 1

end

/-! ### Issue -/

/-- What MGANG needs at issue. -/
def mgangReq (t : Nat) (f : FmtSI) : IssueReq :=
  { instr := .mgang t f, eng := .me, wait := 0, legal := f.pred == 0 && f.rd == 0 && f.ra == 0 && f.func == 0 && bits f.imm.toNat 31 25 == 0,
    foot := {}, need := [], vals := [], desc := none }

/-- What MPANEL needs at issue. -/
def mpanelReq (s : State) (t : Nat) (f : FmtM) : IssueReq :=
  let c := s.actx t
  { instr := .mpanel t f, eng := .me, wait := f.wait, legal := f.pred == 0 && f.a == 0 && bits f.mod.toNat 6 1 == 0 && cntLegal f,
    foot := { reads := [idA f.b.toNat, idA f.c.toNat],
              ranges := planRanges (mpanelPlan s t c (issueMode s t c) f (rs s t c f.rx.toNat) (rs s t c f.ry.toNat)) },
    need := [idA f.b.toNat, idA f.c.toNat], vals := [f.rx.toNat, f.ry.toNat], desc := none }

/-- What MDRAIN needs at issue. -/
def mdrainReq (s : State) (t : Nat) (f : FmtM) : IssueReq :=
  let c := s.actx t
  let x := rs s t c f.rx.toNat
  let y := rs s t c f.ry.toNat
  { instr := .mdrain t f, eng := .me, wait := f.wait, legal := f.pred == 0 && f.b == 0 && f.c == 0 && bits f.mod.toNat 6 4 == 0 && cntLegal f,
    foot := { reads := [idA f.a.toNat],
              ranges := rangeOf (mdrainPlan s t c (issueMode s t c) f x y) (drainSpan (wget y 8 5) (drainBlocks (issueMode s t c) (wget x 11 0))) true ++
                (if bits f.mod.toNat 3 2 = 0 then [] else coneFoot s t c) },
    need := [idA f.a.toNat], vals := [f.rx.toNat, f.ry.toNat], desc := none, locates := true }

/-- The matrix engine's instruction of a multiply, predicting or not. -/
abbrev mulInstr (t : Nat) (f : FmtM) (pred : Bool) : Instr := if pred then .mpred t f else .mmul t f

section
variable {s : State} {t : Nat}

/-- An instruction of the matrix engine of a quiet M-tile dispatches at once. -/
theorem issue_me (h : Quiet s t) (hm : classOf t = 0) {r : IssueReq} (eff : Queued → State → State) (he : r.eng = .me) (hl : r.legal = true)
    (hw : waitMet s t r.wait = true) (hn : r.foot.ranges.length ≤ 3) :
    issue s t r eff = settle (eff (queuedOf s t r) (dispatched s t .me r.instr)) t := by
  rw [issue_quiet h eff hl (by rw [he, hasEngine, hm]; rfl) hw (hn.trans (by decide)), he]

theorem mgangReq_legal {f : FmtSI} (hp : f.pred = 0) (hd : f.rd = 0) (ha : f.ra = 0) (hf : f.func = 0) (hi : f.imm.toNat < 2 ^ 25) :
    (mgangReq t f).legal = true := by
  have hb : bits f.imm.toNat 31 25 = 0 := by rw [bits, Nat.div_eq_of_lt hi, Nat.zero_mod]
  simp only [mgangReq, hp, hd, ha, hf, hb]; rfl

variable {f : FmtM}

theorem mpanelReq_legal (hp : f.pred = 0) (ha : f.a = 0) (hm : bits f.mod.toNat 6 1 = 0) (hc : cntLegal f = true) : (mpanelReq s t f).legal = true := by
  simp only [mpanelReq, hp, ha, hm, hc]; rfl

theorem mpanelReq_ranges : (mpanelReq s t f).foot.ranges.length ≤ 3 := planRanges_mpanelPlan _

theorem mmulReq_legal {i : Instr} {pred : Bool} (hp : f.pred = 0) (hm : bits f.mod.toNat 6 4 = 0) (hk : pred = true → bitOf f.mod.toNat 2 = false)
    (hc : cntLegal f = true) : (mmulReq s t f i pred).legal = true := by
  have hmark : (!pred || !bitOf f.mod.toNat 2) = true := by
    cases pred with
    | false => rfl
    | true => rw [hk rfl]; rfl
  simp only [mmulReq, hp, hm, hmark, hc]; rfl

theorem mmulReq_ranges (i : Instr) (pred : Bool) : (mmulReq s t f i pred).foot.ranges.length ≤ 3 := by
  simp only [mmulReq]
  split
  · next r hr => exact (mmulPlan_ok hr).2.2
  · exact Nat.zero_le 3

theorem mdrainReq_legal (hp : f.pred = 0) (hb : f.b = 0) (hd : f.c = 0) (hm : bits f.mod.toNat 6 4 = 0) (hc : cntLegal f = true) :
    (mdrainReq s t f).legal = true := by
  simp only [mdrainReq, hp, hb, hd, hm, hc]; rfl

theorem mdrainReq_ranges : (mdrainReq s t f).foot.ranges.length ≤ 3 := by
  have hcone : (if bits f.mod.toNat 3 2 = 0 then [] else coneFoot s t (s.actx t)).length ≤ 1 := by
    split
    · exact Nat.zero_le 1
    · exact coneFoot_length ..
  rw [mdrainReq, List.length_append]
  exact (Nat.add_le_add (rangeOf_length ..) hcone).trans (by decide)

theorem exec_mgang_issues (f : FmtSI) : exec (.mgang t f) s = .next (issue s t (mgangReq t f) (effMgang t f)) := rfl

theorem exec_mpanel_issues : exec (.mpanel t f) s = .next (issue s t (mpanelReq s t f) (effMpanel t f)) := rfl

theorem exec_mdrain_issues : exec (.mdrain t f) s = .next (issue s t (mdrainReq s t f) (effMdrain t f)) := rfl

theorem exec_multiply_issues (pred : Bool) : exec (mulInstr t f pred) s = .next (issue s t (mmulReq s t f (mulInstr t f pred) pred) (effMmul t f pred)) := by
  cases pred <;> rfl

end

end Sys2Proof.Machine
end

section
/-!
SUPPORT. MGANG and MPANEL (R140, R144, R146, R681): the fields that MGANG sets, and the end of a panel load.
-/

namespace Sys2Proof.Machine

variable {s : State} {t : Nat}

/-! ### MGANG -/

/-- The gang's mode, fill and deadline set, and the array zeroed. -/
def gangSet (s : State) (t c mode fill deadline : Nat) : State :=
  (((s.setTf t (R.MGANG_MODE c) mode).setTf t (R.MGANG_FILL c) fill).setTf t (R.MGANG_DEADLINE c) deadline).modTile t zeroArray

theorem effMgang_refused {f : FmtSI} {q : Queued} (h : bits f.imm.toNat 8 2 = 0 ∨ 64 < bits f.imm.toNat 8 2) : effMgang t f q s = progFault s t fGANG q.pc 0 :=
  if_pos h

theorem effMgang_taken {f : FmtSI} {q : Queued} (h0 : 0 < bits f.imm.toNat 8 2) (h64 : bits f.imm.toNat 8 2 ≤ 64) :
    effMgang t f q s = gangSet s t q.ctx (bits f.imm.toNat 1 0) (bits f.imm.toNat 8 2) (bits f.imm.toNat 24 9) :=
  if_neg (by omega)

section
variable (s t) (c mode fill deadline : Nat)

theorem mode_fits : (R.MGANG_MODE c).Fits := show 0 ≤ 1 ∧ 1 < 64 by decide

theorem fill_fits : (R.MGANG_FILL c).Fits := show 8 ≤ 14 ∧ 14 < 64 by decide

theorem deadline_fits : (R.MGANG_DEADLINE c).Fits := show 16 ≤ 31 ∧ 31 < 64 by decide

theorem tf_gangSet_mode : (gangSet s t c mode fill deadline).tf t (R.MGANG_MODE c) = mode % 2 ^ 2 := by
  rw [gangSet, tf_modTile, tf_setTf_apart _ (deadline_fits c) (.inr (.inr (show 1 < 16 by decide))),
    tf_setTf_apart _ (fill_fits c) (.inr (.inr (show 1 < 8 by decide)))]
  exact tf_setTf_fits mode (mode_fits c)

theorem tf_gangSet_fill : (gangSet s t c mode fill deadline).tf t (R.MGANG_FILL c) = fill % 2 ^ 7 := by
  rw [gangSet, tf_modTile, tf_setTf_apart _ (deadline_fits c) (.inr (.inr (show 14 < 16 by decide)))]
  exact tf_setTf_fits fill (fill_fits c)

theorem tf_gangSet_deadline : (gangSet s t c mode fill deadline).tf t (R.MGANG_DEADLINE c) = deadline % 2 ^ 16 := by
  have hw : (R.MGANG_DEADLINE c).hi + 1 - (R.MGANG_DEADLINE c).lo = 16 := rfl
  rw [gangSet, tf_modTile, tf_setTf_fits deadline (deadline_fits c), hw]

theorem tile_gangSet (k : Nat) : (gangSet s t c mode fill deadline).tile k = if k = t then zeroArray (s.tile t) else s.tile k :=
  State.tile_modTile ..

/-- MGANG changes its register and its tile's array alone. -/
theorem gangSet_onlyIn : OnlyIn (fun a => a = regAddr .tile t (R.MGANG c)) (fun k => k = t) s (gangSet s t c mode fill deadline) := by
  have hreg : ∀ u : State, ∀ f : Fld, f.off = R.MGANG c → ∀ v, OnlyIn (fun a => a = regAddr .tile t (R.MGANG c)) (fun k => k = t) u (u.setTf t f v) := fun u f hf v =>
    (setTf_onlyIn _ u t f v).mono (fun a ha => ha.trans (by rw [hf])) fun _ => id
  have harray : ∀ u : State, OnlyIn (fun a => a = regAddr .tile t (R.MGANG c)) (fun k => k = t) u (u.modTile t zeroArray) := fun u =>
    ⟨rfl, fun _ _ => rfl, fun k hk => (State.tile_modTile ..).trans (if_neg hk)⟩
  exact (((hreg s _ rfl mode).trans (hreg _ _ rfl fill)).trans (hreg _ _ rfl deadline)).trans (harray _)

end

/-! ### MPANEL -/

theorem effMpanel_ok {f : FmtM} {q : Queued} {l : List Range}
    (h : mpanelPlan s t q.ctx (gangMode s t q.ctx) f (q.vals.getD 0 0) (q.vals.getD 1 0) = .ok l) :
    let fmt := wget (q.vals.getD 1 0) 3 0
    let mode := gangMode s t q.ctx
    let rdAt := fun (i : Nat) => match l[i]? with | some (r : Range) => panelAt mode fmt 1 0 (ownRd s t r.lo r.len) | none => ([], [])
    effMpanel t f q s = addFlight s t
      { id := q.id, eng := .me, ctx := q.ctx, pc := q.pc, foot := {}, cnt := cntM f,
        kind := .mpanel (slotKey2 mode (wget (q.vals.getD 0 0) 37 36) (f.mod.toNat % 2))
          { fmt := fmt, low := (rdAt 0).1, high := (rdAt 1).1, lowScale := (rdAt 0).2, highScale := (rdAt 1).2 } } :=
  chk_of_ok h s t q.pc _

/-- A panel set in its slot, and the slot the last one loaded, with the load no more in flight. -/
def panelPut (s : State) (t id k : Nat) (ps : PanelSet) : State :=
  (dropFlight s t id).modTile t fun x => { putSlot x k ps with lastSlot := mput (fun _ => 0) x.lastSlot (k / 2) (k % 2 + 1) }

theorem tile_panelPut (id k : Nat) (ps : PanelSet) (j : Nat) : (panelPut s t id k ps).tile j =
    if j = t then { s.tile t with flights := (s.tile t).flights.filter fun g => g.id ≠ id, slots := mput (fun _ => none) (s.tile t).slots k (some ps),
                                  lastSlot := mput (fun _ => 0) (s.tile t).lastSlot (k / 2) (k % 2 + 1) } else s.tile j := by
  rw [panelPut, dropFlight, State.tile_modTile, State.tile_modTile, State.tile_modTile, if_pos rfl]
  by_cases hj : j = t
  · rw [if_pos hj, if_pos hj, putSlot]
  · rw [if_neg hj, if_neg hj, if_neg hj]

theorem mpanelLoaded_head {f : Flight} {fs : List Flight} {k : Nat} {ps : PanelSet} (hl : (s.tile t).flights = f :: fs) (hk : f.kind = .mpanel k ps) :
    exec (.mpanelLoaded t) s = .next (settle (complete (panelPut s t f.id k ps) t f.ctx f.cnt stOK .me f.pc) t) := by
  rw [exec_mpanelLoaded, execMpanelLoaded, hl, List.find?_cons_of_pos (by rw [hk])]
  simp only [hk]; rfl

/-- Settles O26: MGANG by its fill, MPANEL by its plan, and the end of a panel load from what it changes of the tile. -/
theorem gangSetsAndPanelsLoad : Obligations.GangSetsAndPanelsLoad := by
  refine ⟨fun s t f hq hm hp hd ha hf hi => ?_, fun s t f l hq hm hw hp ha hb hc => ?_, fun s t f fs k ps hl hk => ?_⟩
  · have hx : exec (.mgang t f) s = .next (settle (effMgang t f (queuedOf s t (mgangReq t f)) (dispatched s t .me (.mgang t f))) t) :=
      (exec_mgang_issues f).trans (congrArg _ (issue_me hq hm _ rfl (mgangReq_legal hp hd ha hf hi) waitMet_zero (Nat.zero_le 3)))
    refine ⟨fun hr => ?_, fun h0 h64 => ?_⟩
    · rw [hx, effMgang_refused hr]; rfl
    · obtain ⟨hframe, hregs, htiles⟩ := gangSet_onlyIn (dispatched s t .me (.mgang t f)) t (s.actx t) (bits f.imm.toNat 1 0) (bits f.imm.toNat 8 2) (bits f.imm.toNat 24 9)
      rw [effMgang_taken h0 h64] at hx
      refine ⟨_, hx, (tf_gangSet_mode ..).trans (Nat.mod_mod _ _), (tf_gangSet_fill ..).trans (Nat.mod_mod _ _), (tf_gangSet_deadline ..).trans (Nat.mod_mod _ _),
        (tile_gangSet ..).trans (if_pos rfl), hregs, htiles, hframe⟩
  · intro c x fmt u hplan
    have hx : exec (.mpanel t f) s = .next (settle (effMpanel t f (queuedOf s t (mpanelReq s t f)) u) t) :=
      exec_mpanel_issues.trans (congrArg _ (issue_me hq hm _ rfl (mpanelReq_legal hp ha hb hc) hw mpanelReq_ranges))
    rw [hx, effMpanel_ok (q := queuedOf s t (mpanelReq s t f)) hplan]; rfl
  · have ht := tile_panelPut (s := s) (t := t) f.id k ps t
    rw [if_pos rfl] at ht
    refine ⟨_, mpanelLoaded_head hl hk, ?_, fun j hj => ?_, ?_, ?_, rfl, fun j hj => (tile_panelPut ..).trans (if_neg hj)⟩ <;> rw [ht]
    · exact mget_mput_self
    · exact mget_mput_ne hj
    · exact mget_mput_self

end Sys2Proof.Machine
end

section
/-!
SUPPORT. Multiplies (R138, R149, R153–R156, R161, R402–R404): their dispatch, and what the ends of the pipe and the release of the gate change.
-/

namespace Sys2Proof.Machine

variable {s : State} {t : Nat}

/-! ### Dispatch -/

/-- A multiply that has its operands: its panels are loaded, and it is in flight or at the gate. -/
theorem effMmul_ok {f : FmtM} {pred : Bool} {q : Queued} {j₀ j : MmulJob} {l : List Range}
    (hp : mmulPlan s t q.ctx q.pc (gangMode s t q.ctx) f (q.vals.getD 0 0) (q.vals.getD 1 0) pred = .ok (j₀, l)) (hj : loadJob s t f j₀ = some j) :
    effMmul t f pred q s =
      let v := s.modTile t (loadSlots (gangMode s t q.ctx) j)
      if gatedInstr s t q.ctx q.instr then gateJob v t j
      else addFlight (clockUp v t) t { id := q.id, eng := .me, ctx := q.ctx, pc := q.pc, foot := {}, cnt := cntM f, kind := .mmul j } := by
  obtain ⟨hc₀, hn₀, -⟩ := mmulPlan_ok hp
  obtain ⟨hc, hn⟩ := loadJob_some hj
  have hg : ∀ g, gatedInstr (s.modTile t g) t q.ctx q.instr = gatedInstr s t q.ctx q.instr := fun g => by cases q.instr <;> rfl
  rw [effMmul, chk_of_ok hp]
  simp only [hj, hc.trans hc₀, hn.trans hn₀, hg]

theorem effMmul_gated {f : FmtM} {pred : Bool} {q : Queued} {j₀ j : MmulJob} {l : List Range}
    (hp : mmulPlan s t q.ctx q.pc (gangMode s t q.ctx) f (q.vals.getD 0 0) (q.vals.getD 1 0) pred = .ok (j₀, l)) (hj : loadJob s t f j₀ = some j)
    (hg : gatedInstr s t q.ctx q.instr = true) : effMmul t f pred q s = gateJob (s.modTile t (loadSlots (gangMode s t q.ctx) j)) t j :=
  (effMmul_ok hp hj).trans (if_pos hg)

theorem effMmul_flies {f : FmtM} {pred : Bool} {q : Queued} {j₀ j : MmulJob} {l : List Range}
    (hp : mmulPlan s t q.ctx q.pc (gangMode s t q.ctx) f (q.vals.getD 0 0) (q.vals.getD 1 0) pred = .ok (j₀, l)) (hj : loadJob s t f j₀ = some j)
    (hg : gatedInstr s t q.ctx q.instr = false) :
    effMmul t f pred q s = addFlight (clockUp (s.modTile t (loadSlots (gangMode s t q.ctx) j)) t) t
      { id := q.id, eng := .me, ctx := q.ctx, pc := q.pc, foot := {}, cnt := cntM f, kind := .mmul j } :=
  (effMmul_ok hp hj).trans (if_neg (by rw [hg]; decide))

/-! ### The multiply pipe -/

section
variable {f : Flight} {fs : List Flight} {j : MmulJob} (hl : (s.tile t).flights = f :: fs)
include hl

/-- The oldest operation of a sub-array's pipe is the oldest of the tile, where that holds the pipe. -/
theorem find_pipe {sub : Option Nat} (hp : pipeOf f = sub) : (s.tile t).flights.find? (fun g => pipeOf g == sub) = some f := by
  rw [hl, List.find?_cons_of_pos (by rw [hp]; exact beq_self_eq_true sub)]

section
variable (hk : f.kind = .mmul j)
include hk

theorem mmulComplete_waits (hr : rowsEnter (s.tile t) = false) : exec (.mmulComplete t j.sub) s = .next s := by
  rw [exec_mmulComplete, execMmulComplete, find_pipe hl (by rw [pipeOf, hk])]
  simp only [hr, Bool.not_false, if_true]

/-- The rows of the oldest multiply enter, and it ends. -/
theorem mmulComplete_ends (hr : rowsEnter (s.tile t) = true) (hn : ∀ p, j.pred ≠ some (p, true)) :
    exec (.mmulComplete t j.sub) s = .next (settle (complete (dropFlight (applyJob s t j) t f.id) t f.ctx f.cnt stOK .me f.pc) t) := by
  rw [exec_mmulComplete, execMmulComplete, find_pipe hl (by rw [pipeOf, hk])]
  simp only [hr, Bool.not_true, Bool.false_eq_true, if_false, hk]

/-- The rows of a final predicting pass enter, and it has its marks to set. -/
theorem mmulComplete_final (hr : rowsEnter (s.tile t) = true) {p : Nat} (hp : j.pred = some (p, true)) :
    exec (.mmulComplete t j.sub) s = .next ((applyJob s t j).modTile t fun x =>
      { x with flights := x.flights.map fun g => if g.id = f.id then { g with kind := .predMark j } else g }) := by
  rw [exec_mmulComplete, execMmulComplete, find_pipe hl (by rw [pipeOf, hk])]
  simp only [hr, Bool.not_true, Bool.false_eq_true, if_false, hk, hp]

end

/-- The marks of a final pass set, its rows zeroed and its slot noted (R402). -/
def marksSet (s : State) (t : Nat) (j : MmulJob) (p : Nat) : State :=
  let ks := rowKeys (gangMode s t j.ctx) j.sub j.first j.rows
  s.modTile t fun x =>
    { ks.foldl (fun x k => accPut x k 0) x with
      unmarked := (x.unmarked.filter fun k => !ks.contains k) ++ ks.filter fun k => !marked s t j.ctx p (accGet (s.tile t) k), predSlot := p }

theorem mpredFinalMark_head (hk : f.kind = .predMark j) {p : Nat} (hp : j.pred = some (p, true)) :
    exec (.mpredFinalMark t j.sub) s = .next (settle (complete (dropFlight (marksSet s t j p) t f.id) t f.ctx f.cnt stOK .me f.pc) t) := by
  rw [exec_mpredFinalMark, execMpredFinalMark, find_pipe hl (by rw [pipeOf, hk])]
  simp only [hk, hp]; rfl

theorem batchComplete_head {js : List MmulJob} (hr : rowsEnter (s.tile t) = true) (hk : f.kind = .batch js) :
    exec (.batchComplete t) s = .next (settle (js.foldl (fun s j => complete s t j.ctx j.cnt stOK .me j.pc)
      (js.foldl (fun s j => applyJob s t j) (dropFlight s t f.id))) t) := by
  have hoff : ¬ ((f :: fs).find? (fun g => pipeOf g == pipeOf f) ≠ some f ∨ (!rowsEnter (s.tile t)) = true) := by
    rw [← hl, find_pipe hl rfl, hr]; simp
  rw [exec_batchComplete, execBatchComplete, hl, List.find?_cons_of_pos (by rw [hk])]
  simp only [hk, if_neg hoff]

end

/-! ### Accumulators -/

theorem accGet_accPut_zero (x : Tile) (k i : Nat) : accGet (accPut x k 0) i = if i = k then 0 else accGet x i := by
  rw [accGet, accGet, accPut, mget_mput]
  split <;> rfl

/-- Accumulators that are zeroed read as zero, and the others as before. -/
theorem accGet_zeroed (i : Nat) (ks : List Nat) : ∀ x : Tile, accGet (ks.foldl (fun x k => accPut x k 0) x) i = if i ∈ ks then 0 else accGet x i := by
  induction ks with
  | nil => intro x; rw [if_neg List.not_mem_nil]; rfl
  | cons k ks ih =>
    intro x
    rw [List.foldl_cons, ih, accGet_accPut_zero]
    by_cases hi : i ∈ ks <;> by_cases hk : i = k <;> simp [hi, hk]

/-- What a final pass leaves of its tile. -/
structure Marked (s : State) (t : Nat) (j : MmulJob) (p : Nat) (x : Tile) : Prop where
  slot : x.predSlot = p
  acc : ∀ k, accGet x k = if k ∈ rowKeys (gangMode s t j.ctx) j.sub j.first j.rows then 0 else accGet (s.tile t) k
  rows : ∀ k, k ∈ rowKeys (gangMode s t j.ctx) j.sub j.first j.rows → (k ∈ x.unmarked ↔ marked s t j.ctx p (accGet (s.tile t) k) = false)
  others : ∀ k, k ∉ rowKeys (gangMode s t j.ctx) j.sub j.first j.rows → (k ∈ x.unmarked ↔ k ∈ (s.tile t).unmarked)

theorem marksSet_marked (j : MmulJob) (p : Nat) : Marked s t j p ((marksSet s t j p).tile t) := by
  rw [marksSet, State.tile_modTile, if_pos rfl]
  refine ⟨rfl, fun k => accGet_zeroed k _ _, fun k hk => ?_, fun k hk => ?_⟩
  · simp [hk]
  · simp [hk]

theorem Marked.dropFlight {u : State} {j : MmulJob} {p : Nat} (h : Marked s t j p (u.tile t)) (id : Nat) : Marked s t j p ((dropFlight u t id).tile t) := by
  rw [Machine.dropFlight, State.tile_modTile, if_pos rfl]
  exact ⟨h.slot, h.acc, h.rows, h.others⟩

/-! ### The gate -/

theorem releaseGate_cons {j : MmulJob} {js : List MmulJob} (h : (s.tile t).gate = j :: js) :
    releaseGate s t = (clockUp s t).modTile t fun x =>
      let f : Flight := { id := x.nextId, eng := .me, ctx := j.ctx, pc := j.pc, foot := {}, cnt := none, kind := .batch (j :: js) }
      { x with gate := [], nextId := x.nextId + 1, flights := x.flights ++ [f] } := by
  rw [releaseGate, h]

/-- Settles O27: the dispatch from the plan and the loaded job, the ends by what stands first in the pipe, the marks element by element. -/
theorem multiplies : Obligations.Multiplies := by
  refine ⟨fun s t f p l j0 j hq hm hw hp hb hk hc => ?_, fun s t f fs j hl hk => ⟨mmulComplete_waits hl hk, fun hr => ⟨mmulComplete_ends hl hk hr, fun _ => mmulComplete_final hl hk hr⟩⟩,
    fun s t f fs j p hl hk hp => ?_, fun s t j js hg => ?_, fun s t f fs js hr hl hk => batchComplete_head hl hr hk⟩
  · intro c i u hplan hjob v
    have hx : exec i s = .next (settle (effMmul t f p (queuedOf s t (mmulReq s t f i p)) u) t) :=
      (exec_multiply_issues p).trans (congrArg _ (issue_me hq hm _ rfl (mmulReq_legal hp hb hk hc) hw (mmulReq_ranges i p)))
    refine ⟨fun hg => ?_, fun hg => ?_⟩
    · rw [hx, effMmul_flies (q := queuedOf s t (mmulReq s t f i p)) hplan hjob hg]; rfl
    · rw [hx, effMmul_gated (q := queuedOf s t (mmulReq s t f i p)) hplan hjob hg]; rfl
  · have hmarked := (marksSet_marked (s := s) (t := t) j p).dropFlight f.id
    exact ⟨_, mpredFinalMark_head hl hk hp, hmarked.slot, hmarked.acc, hmarked.rows, hmarked.others⟩
  · rw [exec_gateDeadlineExpiry, execGateDeadlineExpiry, releaseGate_cons hg]

end Sys2Proof.Machine
end

section
/-!
SUPPORT. MDRAIN (R151, R404, R683): what its dispatch leaves in flight, and its end.
-/

namespace Sys2Proof.Machine

variable {s : State} {t : Nat}

/-- The blocks of a drain converted in turn: codes, scale bytes, and the state with the counts and the cone's records. -/
def drainConverted (s : State) (t c pc : Nat) (f : FmtM) (x y : Word) : List Nat × List Byte × State :=
  (List.range (drainBlocks (gangMode s t c) (wget x 11 0))).foldl (drainStep s t c pc f x y) ([], [], s)

/-- Accumulator rows zeroed where a drain is asked to. -/
def drainedRows (mode t : Nat) (f : FmtM) (x : Word) (s : State) : State :=
  if bitOf f.mod.toNat 0 then
    s.modTile t fun z => (rowKeys mode (wget x 41 40) (wget x 23 12) (wget x 11 0)).foldl (fun z k => accPut z k 0) z
  else s

theorem effMdrain_ok {f : FmtM} {q : Queued} {off : Nat}
    (h : mdrainPlan s t q.ctx (gangMode s t q.ctx) f (q.vals.getD 0 0) (q.vals.getD 1 0) = .ok off) :
    let x := q.vals.getD 0 0
    let tfmt := wget (q.vals.getD 1 0) 8 5
    let mode := gangMode s t q.ctx
    let r := drainConverted s t q.ctx q.pc f x (q.vals.getD 1 0)
    effMdrain t f q s = addFlight (drainedRows mode t f x r.2.2) t
      { id := q.id, eng := .me, ctx := q.ctx, pc := q.pc, cnt := cntM f, foot := { ranges := [⟨off, drainSpan tfmt (drainBlocks mode (wget x 11 0)), true⟩] },
        kind := .mdrain off (packCodes tfmt r.1) (off + roundUp (packCodes tfmt r.1).length 64) (if isNarrow tfmt then r.2.1 else []) } :=
  chk_of_ok h s t q.pc _

theorem mdrainComplete_head {f : Flight} {fs : List Flight} {off soff : Nat} {data scales : List Byte} (hl : (s.tile t).flights = f :: fs)
    (hk : f.kind = .mdrain off data soff scales) :
    exec (.mdrainComplete t) s = .next (settle (complete (ownWr (ownWr (dropFlight s t f.id) t off data) t soff scales) t f.ctx f.cnt stOK .me f.pc) t) := by
  rw [exec_mdrainComplete, execMdrainComplete, hl, List.find?_cons_of_pos (by rw [hk])]
  simp only [hk]

/-- Settles O28: the dispatch from the plan, and the end of the oldest drain. -/
theorem drainsWrite : Obligations.DrainsWrite := by
  refine ⟨fun s t f off hq hm hw hp hb hd hz hc => ?_, fun s t f fs off soff data scales hl hk => mdrainComplete_head hl hk⟩
  intro c x y u tfmt n hplan r v fl
  have hx : exec (.mdrain t f) s = .next (settle (effMdrain t f (queuedOf s t (mdrainReq s t f)) u) t) :=
    exec_mdrain_issues.trans (congrArg _ (issue_me hq hm _ rfl (mdrainReq_legal hp hb hd hz hc) hw mdrainReq_ranges))
  rw [hx, effMdrain_ok (q := queuedOf s t (mdrainReq s t f)) hplan]; rfl

end Sys2Proof.Machine
end

section
/-!
SUPPORT. Signals on counters (R228, R233, R234, R633, R636): the registers that an applied signal sets, and the three ways that a signal may go.
-/

namespace Sys2Proof.Machine

/-! ### An applied signal -/

section
variable {s : State} {t c n : Nat}

/-- The registers that a signal with OK sets: the count, and who signalled last (R633). -/
def counted (s : State) (t c n pc : Nat) (e : Engine) : State :=
  ((s.setTf t (R.CNT_VALUE c n) ((cntVal s t c n + 1) % 2 ^ 32)).setTf t (R.CNTLAST_PC c n) pc).setTf t (R.CNTLAST_ENGINE c n) (engCode e)

/-- The status that a signal with another code merges into its counter (R636). -/
def statusMerged (s : State) (t c n code : Nat) : State :=
  (s.setTf t (R.CNTST_WORST c n) (max (s.tf t (R.CNTST_WORST c n)) code)).setTf t (R.CNTST_ERRS c n) (satAdd (s.tf t (R.CNTST_ERRS c n)) 1 0xFFFF)

/-- The rows that the signalling engine has written drain before its signal shows (R97). -/
def signalDrained (s : State) (t : Nat) (e : Engine) : State :=
  if e = .sc then drainIf s t (fun g => g.sc) else if e = .qp then drainIf s t (fun g => g.qp) else s

theorem applySignal_ok (pc : Nat) (e : Engine) : applySignal s t c n stOK e pc = counted (signalDrained s t e) t c n pc e := rfl

theorem applySignal_other {code : Nat} (h : code ≠ stOK) (pc : Nat) (e : Engine) :
    applySignal s t c n code e pc = statusMerged (counted (signalDrained s t e) t c n pc e) t c n code := if_neg h

theorem tf_signalDrained (e : Engine) (f : Fld) : (signalDrained s t e).tf t f = s.tf t f := by
  unfold signalDrained
  split
  · exact tf_of_regs (drainIf_drained _).regs t f
  · split
    · exact tf_of_regs (drainIf_drained _).regs t f
    · rfl

theorem count_fits (c n : Nat) : (R.CNT_VALUE c n).Fits := show 0 ≤ 31 ∧ 31 < 64 by decide

theorem lastPc_fits (c n : Nat) : (R.CNTLAST_PC c n).Fits := show 0 ≤ 20 ∧ 20 < 64 by decide

theorem lastEngine_fits (c n : Nat) : (R.CNTLAST_ENGINE c n).Fits := show 21 ≤ 23 ∧ 23 < 64 by decide

theorem worst_fits (c n : Nat) : (R.CNTST_WORST c n).Fits := show 0 ≤ 15 ∧ 15 < 64 by decide

theorem errs_fits (c n : Nat) : (R.CNTST_ERRS c n).Fits := show 16 ≤ 31 ∧ 31 < 64 by decide

theorem lastPc_engine_apart (c n : Nat) : (R.CNTLAST_ENGINE c n).Apart (R.CNTLAST_PC c n) := .inr (.inr (show 20 < 21 by decide))

theorem worst_errs_apart (c n : Nat) : (R.CNTST_ERRS c n).Apart (R.CNTST_WORST c n) := .inr (.inr (show 15 < 16 by decide))

/-- The count, the last signaller and the status of a counter stand in different registers. -/
theorem counterRegs_ne (c n : Nat) :
    R.CNT c n ≠ R.CNTLAST c n ∧ R.CNT c n ≠ R.CNTST c n ∧ R.CNTLAST c n ≠ R.CNTST c n := by
  simp only [R.CNT, R.CNTLAST, R.CNTST]; omega

/-- The count of another number, in either context, stands in no register of the counter. -/
theorem otherCount_ne {c n k d : Nat} (hc : c < 2) (hn : n < 64) (hk : k < 64) (hne : k ≠ n) (hd : d = c ∨ d = 1 - c) :
    R.CNT d k ≠ R.CNT c n ∧ R.CNT d k ≠ R.CNTLAST c n ∧ R.CNT d k ≠ R.CNTST c n := by
  simp only [R.CNT, R.CNTLAST, R.CNTST]; omega

theorem engCode_lt (e : Engine) : engCode e < 2 ^ 3 := by cases e <;> decide

section
variable {pc : Nat} {e : Engine}

/-- A field of a register of which a count sets nothing. -/
theorem tf_counted_ne {f : Fld} (h1 : f.off ≠ R.CNT c n) (h2 : f.off ≠ R.CNTLAST c n) : (counted s t c n pc e).tf t f = s.tf t f := by
  rw [counted, tf_setTf_ne _ h2, tf_setTf_ne _ h2, tf_setTf_ne _ h1]

theorem cntVal_counted : cntVal (counted s t c n pc e) t c n = (cntVal s t c n + 1) % 2 ^ 32 := by
  have h : (R.CNT_VALUE c n).off ≠ R.CNTLAST c n := (counterRegs_ne c n).1
  rw [cntVal, counted, tf_setTf_ne _ h, tf_setTf_ne _ h, tf_setTf_fits _ (count_fits c n)]
  exact Nat.mod_mod _ _

theorem tf_counted_pc (hp : pc < 2 ^ 21) : (counted s t c n pc e).tf t (R.CNTLAST_PC c n) = pc := by
  rw [counted, tf_setTf_apart _ (lastEngine_fits c n) (lastPc_engine_apart c n), tf_setTf_fits _ (lastPc_fits c n)]
  exact Nat.mod_eq_of_lt hp

theorem tf_counted_engine : (counted s t c n pc e).tf t (R.CNTLAST_ENGINE c n) = engCode e :=
  (tf_setTf_fits _ (lastEngine_fits c n)).trans (Nat.mod_eq_of_lt (engCode_lt e))

end

section
variable {code : Nat}

theorem tf_statusMerged_ne {f : Fld} (h : f.off ≠ R.CNTST c n) : (statusMerged s t c n code).tf t f = s.tf t f := by
  rw [statusMerged, tf_setTf_ne _ h, tf_setTf_ne _ h]

theorem tf_statusMerged_worst (hc : code < 16) : (statusMerged s t c n code).tf t (R.CNTST_WORST c n) = max (s.tf t (R.CNTST_WORST c n)) code := by
  have hw : s.tf t (R.CNTST_WORST c n) < 2 ^ 16 := wget_lt _ 15 0
  rw [statusMerged, tf_setTf_apart _ (errs_fits c n) (worst_errs_apart c n), tf_setTf_fits _ (worst_fits c n)]
  exact Nat.mod_eq_of_lt (show _ < 2 ^ 16 from max_lt hw (by omega))

theorem tf_statusMerged_errs : (statusMerged s t c n code).tf t (R.CNTST_ERRS c n) = satAdd (s.tf t (R.CNTST_ERRS c n)) 1 0xFFFF :=
  (tf_setTf_fits _ (errs_fits c n)).trans (Nat.mod_eq_of_lt (show _ < 2 ^ 16 from Nat.lt_of_le_of_lt (Nat.min_le_right _ _) (by decide)))

end

/-- A field that is in no status register reads after a signal as after its count, whatever the signal's code. -/
theorem tf_applySignal {f : Fld} (h : f.off ≠ R.CNTST c n) (code pc : Nat) (e : Engine) :
    (applySignal s t c n code e pc).tf t f = (counted (signalDrained s t e) t c n pc e).tf t f := by
  by_cases hc : code = stOK
  · rw [hc, applySignal_ok]
  · rw [applySignal_other hc, tf_statusMerged_ne h]

/-- The status of a counter after a signal (R636). -/
theorem status_applySignal {code : Nat} (hc : code < 16) (pc : Nat) (e : Engine) :
    (applySignal s t c n code e pc).tf t (R.CNTST_WORST c n) =
      (if code = stOK then s.tf t (R.CNTST_WORST c n) else max (s.tf t (R.CNTST_WORST c n)) code) ∧
    (applySignal s t c n code e pc).tf t (R.CNTST_ERRS c n) =
      (if code = stOK then s.tf t (R.CNTST_ERRS c n) else satAdd (s.tf t (R.CNTST_ERRS c n)) 1 0xFFFF) := by
  have hcount : ∀ f : Fld, f.off = R.CNTST c n → (counted (signalDrained s t e) t c n pc e).tf t f = s.tf t f := fun f hf =>
    (tf_counted_ne (hf ▸ (counterRegs_ne c n).2.1.symm) (hf ▸ (counterRegs_ne c n).2.2.symm)).trans (tf_signalDrained e f)
  by_cases h : code = stOK
  · rw [if_pos h, if_pos h, h, applySignal_ok]
    exact ⟨hcount _ rfl, hcount _ rfl⟩
  · rw [if_neg h, if_neg h, applySignal_other h, tf_statusMerged_worst hc, tf_statusMerged_errs, hcount _ rfl, hcount _ rfl]
    exact ⟨rfl, rfl⟩

/-- The count of another number, in either context, stays. -/
theorem cntVal_applySignal_ne {k d : Nat} (hc : c < 2) (hn : n < 64) (hk : k < 64) (hne : k ≠ n) (hd : d = c ∨ d = 1 - c) (code pc : Nat) (e : Engine) :
    cntVal (applySignal s t c n code e pc) t d k = cntVal s t d k := by
  obtain ⟨hcnt, hlast, hst⟩ := otherCount_ne hc hn hk hne hd
  exact (tf_applySignal hst code pc e).trans ((tf_counted_ne hcnt hlast).trans (tf_signalDrained e _))

end

/-! ### The signal of an instruction, and the signals that stall -/

section
variable {s : State} {t c n code pc : Nat} {e : Engine}

theorem signal_within (h : overBound s t c n = false) : signal s t c n code e pc = applySignal s t c n code e pc := by
  rw [signal, if_neg (by rw [h]; decide)]

theorem signal_stalls (h : overBound s t c n = true) (hl : stallLives s t c n = true) :
    signal s t c n code e pc = s.modTile t fun x => { x with stalled := x.stalled ++ [{ ctx := c, cnt := n, code := code, eng := e, pc := pc }] } := by
  rw [signal, if_pos h, if_pos hl]

theorem signal_lost (h : overBound s t c n = true) (hl : stallLives s t c n = false) : signal s t c n code e pc = progFault s t fCOUNTER pc 0 := by
  rw [signal, if_pos h, if_neg (by rw [hl]; decide)]

theorem csigLegal_of {f : FmtC} (hf : f = { cZero with cnt := f.cnt, eng := f.eng }) (he : engOf f.eng.toNat = some e) (hh : hasEngine t e = true) :
    csigLegal t f = true := by
  rw [csigLegal, he, hf]
  simp [cZero, hh]

/-- CSIG of a quiet tile signals its counter once, with OK (R633). -/
theorem csig_signals {f : FmtC} (hq : Quiet s t) (hf : f = { cZero with cnt := f.cnt, eng := f.eng }) (he : engOf f.eng.toNat = some e) (hh : hasEngine t e = true) :
    exec (.csig t f) s = .next (settle (signal (dispatched s t e (.csig t f)) t (s.actx t) f.cnt.toNat stOK e (issuePc s t)) t) := by
  have heng : (engOf f.eng.toNat).getD .sq = e := by rw [he]; rfl
  rw [exec_csig, execCsig, heng]
  exact congrArg _ (issue_quiet hq (effCsig t f) (csigLegal_of hf he hh) hh waitMet_zero (Nat.zero_le _))

theorem stalledSignalApply_head {st : Stalled} {rest : List Stalled} (hf : s.tstate t ≠ fenced) (hl : (s.tile t).stalled = st :: rest)
    (h : overBound s t st.ctx st.cnt = false) : exec (.stalledSignalApply t) s =
      .next (settle (applySignal (s.modTile t fun x => { x with stalled := rest }) t st.ctx st.cnt st.code st.eng st.pc) t) := by
  rw [exec_stalledSignalApply, execStalledSignalApply, if_neg hf, hl, takeFirst, if_pos (by rw [h]; rfl)]

theorem stalledSignalFault_head {st : Stalled} {rest : List Stalled} (hf : s.tstate t ≠ fenced) (hl : (s.tile t).stalled = st :: rest)
    (h : overBound s t st.ctx st.cnt = true) (hd : stallLives s t st.ctx st.cnt = false) : exec (.stalledSignalFault t) s =
      .next (settle (progFault (s.modTile t fun x => { x with stalled := rest }) t fCOUNTER st.pc 0) t) := by
  rw [exec_stalledSignalFault, execStalledSignalFault, if_neg hf, hl, takeFirst, if_pos (by rw [h, hd]; rfl)]

end

/-- Settles O14: CSIG by its issue, the counter's registers by what an applied signal sets, and the stalled signals by the head of their list. -/
theorem counterSignal : Obligations.CounterSignal := by
  refine ⟨⟨fun s t f e hq hf he hh => ?_, fun s t c n code pc e hc hn hp hcode => ?_⟩, fun s t c n code pc e => ⟨signal_within, signal_stalls, signal_lost⟩,
    fun s t st rest hf hl => ⟨stalledSignalApply_head hf hl, stalledSignalFault_head hf hl⟩⟩
  · intro u hb
    rw [csig_signals hq hf he hh, signal_within hb]
  · have hst := (counterRegs_ne c n).2
    obtain ⟨hworst, herrs⟩ := status_applySignal (s := s) (t := t) (c := c) (n := n) hcode pc e
    refine ⟨?_, ?_, ?_, hworst, herrs, fun k hk hne => ⟨?_, ?_⟩⟩
    · have hdr : cntVal (signalDrained s t e) t c n = cntVal s t c n := tf_signalDrained e _
      rw [cntVal, tf_applySignal hst.1]
      exact cntVal_counted.trans (by rw [hdr])
    · exact (tf_applySignal hst.2 code pc e).trans (tf_counted_pc hp)
    · exact (tf_applySignal hst.2 code pc e).trans tf_counted_engine
    · exact cntVal_applySignal_ne hc hn hk hne (.inl rfl) code pc e
    · exact cntVal_applySignal_ne hc hn hk hne (.inr rfl) code pc e

end Sys2Proof.Machine
end

section
/-!
SUPPORT. Arriving descriptors and returned credit (R246, R247, R251, R259, R260, R741): what an arrival answers, and what a return of credit changes.
-/

namespace Sys2Proof.Machine

/-! ### Arrivals -/

section
variable {s : State} {t : Nat} {m : Msg}

/-- A descriptor that every check passes and that need not wait is taken in (R247, R260). -/
theorem deliverDesc_accepted (hc : descCheck s t m = stOK) (hw : arrivalWaits s t m = false) :
    deliverDesc s t m = some (stOK, settle (acceptMsg s t m) t) := by
  rw [deliverDesc, if_neg (not_not_intro hc), if_neg (by rw [hw]; decide)]

/-- A descriptor that a check refuses is not taken in (R259). -/
theorem deliverDesc_refused (hc : descCheck s t m ≠ stOK) : deliverDesc s t m = some (descCheck s t m, countDropped s t m) := if_pos hc

theorem deliverDesc_waits (hc : descCheck s t m = stOK) (hw : arrivalWaits s t m = true) : deliverDesc s t m = none := by
  rw [deliverDesc, if_neg (not_not_intro hc), if_pos hw]

/-- A descriptor in its turn leaves what is under way and is answered with the status of its delivery. -/
theorem descriptorArrival_delivered {code : Nat} {u : State} (ho : overtakes s t m = false) (hd : deliverDesc s t m = some (code, u)) :
    exec (.descriptorArrival t m) s = .next (answerTo (u.unwire (.desc t m)) m.sender m.tag code) := by
  rw [exec_descriptorArrival, execDescriptorArrival, if_neg (by rw [ho]; decide), hd]

/-- A descriptor behind an earlier message of its channel, or that must wait, stays where it is (R246). -/
theorem descriptorArrival_stays (h : overtakes s t m = true ∨ deliverDesc s t m = none) : exec (.descriptorArrival t m) s = .next s := by
  have hn : (if overtakes s t m then none else deliverDesc s t m) = none := by
    rcases h with h | h
    · exact if_pos h
    · rw [h, ite_self]
  rw [exec_descriptorArrival, execDescriptorArrival, hn]

end

/-! ### Returned credit -/

section
variable {s : State} {t ch slots units : Nat}

theorem dcred_fits (ch : Nat) : (R.CHCR_DCRED ch).Fits := show 0 ≤ 8 ∧ 8 < 64 by decide

theorem pcred_fits (ch : Nat) : (R.CHCR_PCRED ch).Fits := show 16 ≤ 28 ∧ 28 < 64 by decide

theorem pcred_dcred_apart (ch : Nat) : (R.CHCR_PCRED ch).Apart (R.CHCR_DCRED ch) := .inr (.inr (show 8 < 16 by decide))

/-- A channel with its two credits raised (R741). -/
def credited (s : State) (t ch slots units : Nat) : State :=
  (s.setTf t (R.CHCR_DCRED ch) (s.tf t (R.CHCR_DCRED ch) + slots)).setTf t (R.CHCR_PCRED ch) (s.tf t (R.CHCR_PCRED ch) + units)

theorem creditReturn_credits (hf : s.tstate t ≠ fenced) :
    exec (.creditReturn t ch slots units) s = .next (credited (s.unwire (.credit (tileSender s t) ch slots units)) t ch slots units) := by
  rw [exec_creditReturn, execCreditReturn]
  exact congrArg _ (if_neg hf)

/-- A return of credit sets the channel's credit register alone. -/
theorem credited_onlyIn : OnlyIn (fun a => a = regAddr .tile t (R.CHCR ch)) (fun _ => False) s (credited s t ch slots units) :=
  (setTf_onlyIn _ s t (R.CHCR_DCRED ch) _).trans (setTf_onlyIn _ _ t (R.CHCR_PCRED ch) _)

theorem tf_credited_dcred (h : s.tf t (R.CHCR_DCRED ch) + slots < 2 ^ 9) :
    (credited s t ch slots units).tf t (R.CHCR_DCRED ch) = s.tf t (R.CHCR_DCRED ch) + slots := by
  rw [credited, tf_setTf_apart _ (pcred_fits ch) (pcred_dcred_apart ch), tf_setTf_fits _ (dcred_fits ch)]
  exact Nat.mod_eq_of_lt h

theorem tf_credited_pcred (h : s.tf t (R.CHCR_PCRED ch) + units < 2 ^ 13) :
    (credited s t ch slots units).tf t (R.CHCR_PCRED ch) = s.tf t (R.CHCR_PCRED ch) + units :=
  (tf_setTf_fits _ (pcred_fits ch)).trans (Nat.mod_eq_of_lt h)

end

/-! ### Credit that the timer returns -/

section
variable {s : State} {t : Nat}

/-- The message that returns freed credit to a sender of this device (R741). -/
def creditWire (r : Freed) : Wire := .credit r.sender r.chan r.slots r.units

theorem sendCredit_own {r : Freed} (h : r.sender.dev = s.ownDev) : sendCredit s r = s.post (creditWire r) := if_pos h

/-- The freed credits of senders of this device are posted in turn. -/
theorem sendCredit_foldl (l : List Freed) : ∀ s : State, (∀ r ∈ l, r.sender.dev = s.ownDev) → l.foldl sendCredit s = s.postAll (l.map creditWire) := by
  induction l with
  | nil => exact fun s _ => s.postAll_nil.symm
  | cons r l ih =>
    intro s h
    obtain ⟨hr, hl⟩ := List.forall_mem_cons.mp h
    rw [List.foldl_cons, sendCredit_own hr, State.post_eq, ih (s.postAll _) hl, State.postAll_postAll]
    rfl

/-- The freed credit of one queue taken off a tile's list. -/
def freedDropped (s : State) (t q : Nat) : State := s.modTile t fun x => { x with freed := x.freed.filter fun r => r.q ≠ q }

theorem returnCredit_own (q : Nat) (h : ∀ r ∈ (s.tile t).freed, r.sender.dev = s.ownDev) :
    returnCredit s t q = freedDropped (s.postAll (((s.tile t).freed.filter fun r => r.q == q).map creditWire)) t q :=
  congrArg (freedDropped · t q) (sendCredit_foldl _ s fun r hr => h r (List.mem_of_mem_filter hr))

/-- No freed credit of the queue is left. -/
theorem freedDropped_none (q : Nat) : ∀ r ∈ ((freedDropped s t q).tile t).freed, r.q ≠ q := by
  intro r hr
  rw [freedDropped, State.tile_modTile, if_pos rfl] at hr
  exact of_decide_eq_true (List.mem_filter.mp hr).2

theorem creditReturnTimer_returns (hf : s.tstate t ≠ fenced) (q : Nat) : exec (.creditReturnTimer t q) s = .next (returnCredit s t q) :=
  congrArg _ (if_neg hf)

end

/-- Settles O10: an arrival by its delivery, a return of credit by the register that it sets, and the timer by the posts of what was freed. -/
theorem descriptorsAndCredits : Obligations.DescriptorsAndCredits := by
  refine ⟨fun s t m ho => ⟨fun hc hw => descriptorArrival_delivered ho (deliverDesc_accepted hc hw), fun hc => descriptorArrival_delivered ho (deliverDesc_refused hc)⟩,
    fun s t m h => descriptorArrival_stays (h.imp_right fun hw => deliverDesc_waits hw.1 hw.2), fun s t ch slots units hf hd hp => ?_, fun s t q hf hown => ?_⟩
  · have honly := credited_onlyIn (s := s.unwire (.credit (tileSender s t) ch slots units)) (t := t) (ch := ch) (slots := slots) (units := units)
    exact ⟨_, creditReturn_credits hf, tf_credited_dcred hd, tf_credited_pcred hp, rfl, honly.2.1⟩
  · refine ⟨_, creditReturnTimer_returns hf q, ?_⟩
    rw [returnCredit_own q hown]
    exact ⟨freedDropped_none q, rfl, rfl, fun k hk => by rw [freedDropped, State.tile_modTile, if_neg hk]; rfl⟩

end Sys2Proof.Machine
end

section
/-!
SUPPORT. The completion of a basin bucket (R267) whose accumulators lie over its own table entry: the first sum that becomes FP32 in place overwrites the entry's exponent.
-/

namespace Sys2Proof.Machine

/-- Queue 0 of tile 0 is an exact basin whose bucket 0 is due. The bucket's entry, at 0x4_0000, has exponent 1 and two accumulators, which begin at the entry's own
exponent: the first one reads as 1, and the second one holds 1. -/
def overlaidBucket : State :=
  ownWr (((State.reset.setTf 0 (R.QCFG_MODE 0) 2).setTf 0 (R.QCFG_BASE 0) 0x4_0000).modTile 0 fun x => { x with basins := [⟨0, 0, 0, false, true⟩] })
    0 0x4_0000 [8, 0, 4, 0, 2, 0, 0, 0, 1, 0, 0, 0, 0, 0, 0, 0, 1]

theorem overlaidBucket_due : overlaidBucket.tstate 0 ≠ fenced ∧ ((overlaidBucket.tile 0).basins.any fun k => k.q == 0 && k.b == 0 && k.due) = true := by
  decide +kernel

/-- The byte of memory that an outcome shows. -/
def shownByte (o : Host.Outcome State Fault Refusal) (a : Nat) : Byte :=
  match o with
  | .next u => u.byte a
  | _ => 0

/-- The part scales both sums by the exponent that the entry has when the completion begins: the second one becomes 2.0, which is 0x4000_0000. -/
theorem overlaidBucket_secondSum : shownByte (exec (.basinBucketComplete 0 0 0) overlaidBucket) (spadAddr 0 0x4_000E) = 0 := by decide +kernel

/-- Refutes O12: its last clause reads the exponent again for each element. Where the accumulators lie over the bucket's entry, the first sum has made the exponent 0 by then,
and the second sum becomes 1.0, which is 0x3F80_0000, where the part writes 2.0. -/
theorem not_bucketsAndContributions : ¬ Obligations.BucketsAndContributions := by
  intro h
  obtain ⟨-, -, hcompletes⟩ := h
  obtain ⟨hf, hdue⟩ := overlaidBucket_due
  obtain ⟨v, hx, w, rfl, rfl⟩ := hcompletes overlaidBucket 0 0 0 hf hdue
  have hb := congrArg (shownByte · (spadAddr 0 0x4_000E)) hx
  rw [overlaidBucket_secondSum] at hb
  exact absurd hb (by decide +kernel)

end Sys2Proof.Machine
end

section
/-!
SUPPORT. Packets and frames of the package network (R290–R313): an end of a link after a write, the CRC of a frame, replays, and each command's branches.
-/

namespace Sys2Proof.Machine

/-! ### An end of a link -/

@[simp] theorem State.link_setLink (s : State) (d k die e : Nat) (l : Link) :
    (s.setLink d k l).link die e = if die * 16 + e = d * 16 + k then l else s.link die e := mget_mput

theorem link_setLink_self (s : State) (die e : Nat) (l : Link) : (s.setLink die e l).link die e = l := mget_mput_self

@[simp] theorem State.link_unpacket (s : State) (d row col : Nat) (p : Packet) (die e : Nat) : (s.unpacket d row col p).link die e = s.link die e := rfl

/-! ### The CRC of a frame -/

/-- The CRC keeps to 32 bits: a step shifts right, and its polynomial has 32 bits. -/
theorem crcBits_lt (n : Nat) : ∀ c, c < 2 ^ 32 → crcBits c n < 2 ^ 32 := by
  induction n with
  | zero => exact fun c hc => hc
  | succ n ih =>
    intro c hc
    have hhalf : c / 2 < 2 ^ 32 := (Nat.div_le_self c 2).trans_lt hc
    rw [crcBits]
    split
    · exact ih _ (Nat.xor_lt_two_pow hhalf (by decide))
    · exact ih _ hhalf

theorem crc32c_lt (bs : List Byte) : crc32c bs < 2 ^ 32 := by
  refine Nat.xor_lt_two_pow (List.foldlRecOn bs _ (motive := (· < 2 ^ 32)) (by decide) fun c hc b _ => ?_) (by decide)
  exact crcBits_lt 8 _ (Nat.xor_lt_two_pow hc (b.isLt.trans (by decide)))

/-- A sealed frame carries its own CRC (R310), which covers the frame without its CRC field. -/
theorem sealFrame_crcOk (f : CplFrame) : (sealFrame f).crcOk = true := by
  have hsum : (sealFrame f).sum = f.sum := rfl
  have hcrc : (sealFrame f).crc.toNat = f.sum := by
    rw [sealFrame, BitVec.toNat_ofNat]
    exact Nat.mod_eq_of_lt (crc32c_lt _)
  rw [CplFrame.crcOk, hsum, hcrc, beq_self_eq_true]

/-! ### Replays -/

theorem foldl_send {α : Type} (g : α → Wire) (l : List α) : ∀ s : State, l.foldl (fun s x => s.send (g x)) s = { s with wires := s.wires ++ l.map g } := by
  induction l with
  | nil => intro s; rw [List.foldl_nil, List.map_nil, List.append_nil]
  | cons x l ih => intro s; rw [List.foldl_cons, ih, List.map_cons, List.append_cons]; rfl

section
variable (s : State) (die e : Nat)

theorem setConsec_wires (n : Nat) : (setConsec s die e n).wires = s.wires := by
  rw [setConsec]; split <;> rfl

theorem link_setConsec (n : Nat) : (setConsec s die e n).link die e = { s.link die e with consec := n } := by
  rw [setConsec]; split
  · exact link_setLink_self s die e _
  · exact link_setLink_self s die e _

/-- The counts of an end that sends its frames again (R311, R331). -/
def cplReplayCounted : State :=
  let u := setConsec s die e ((s.link die e).consec + 1)
  if die < 8 then u.setFld .die die (R.ERCNT_REPLAY e) (satAdd (u.fld .die die (R.ERCNT_REPLAY e)) 1 0xFFFF) else u

theorem cplReplayCounted_wires : (cplReplayCounted s die e).wires = s.wires := by
  rw [cplReplayCounted]; split
  · exact setConsec_wires ..
  · exact setConsec_wires ..

theorem link_cplReplayCounted : (cplReplayCounted s die e).link die e = { s.link die e with consec := (s.link die e).consec + 1 } := by
  rw [cplReplayCounted]; split
  · exact link_setConsec ..
  · exact link_setConsec ..

/-- A kept frame as it is sent again: with the present acknowledgement and credit counts. -/
def resent (f : CplFrame) : Wire :=
  .frame (peerEnd die e).1 (peerEnd die e).2 (sealFrame { f with ack := (mkFrame (s.link die e) 0 []).ack, crd := (s.link die e).freed })

theorem replay_goesDown (h : 16 ≤ (s.link die e).consec) : replay s die e = linkGoesDown s die e := if_pos h

theorem replay_resends (h : (s.link die e).consec < 16) :
    replay s die e = { cplReplayCounted s die e with wires := s.wires ++ (s.link die e).sent.map (resent s die e) } := by
  have hfold : replay s die e = (s.link die e).sent.foldl (fun u f => u.send (resent s die e f)) (cplReplayCounted s die e) := if_neg (Nat.not_le.mpr h)
  rw [hfold, foldl_send, cplReplayCounted_wires]

end

/-! ### Hops -/

section
variable (s : State) (die row col : Nat) (p : Packet)

theorem packetLeft_stays (h : row ≠ 17 ∨ (s.link die col).recv.contains p = false) : packetLeft s die row col p = s.unpacket die row col p := by
  refine if_neg fun ⟨hrow, hrecv⟩ => ?_
  rcases h with h | h
  · exact h hrow
  · rw [State.link_unpacket, h] at hrecv
    cases hrecv

theorem packetLeft_freed (h : (s.link die col).recv.contains p = true) :
    packetLeft s die 17 col p = (s.unpacket die 17 col p).setLink die col
      { s.link die col with recv := (s.link die col).recv.erase p, freed := vnAdd (s.link die col).freed p.vn p.units } := if_pos ⟨rfl, h⟩

variable {s die row col p}

theorem packetHop_known (hk : p.kind ≤ 10) : exec (.packetHop die row col p) s = .next (
    if hopBehind s die row col p ∨ !(hopsOf s die row col p).all (hopFree s die row col p) then s
    else (hopsOf (packetLeft s die row col p) die row col p).foldl (fun v h => takeHop v die row col (packetClass s die row col p) p h)
      (packetLeft s die row col p)) := congrArg _ (if_neg (Nat.not_lt.mpr hk))

theorem packetHop_moves (hk : p.kind ≤ 10) (hb : hopBehind s die row col p = false) (hf : (hopsOf s die row col p).all (hopFree s die row col p) = true) :
    exec (.packetHop die row col p) s = .next ((hopsOf (packetLeft s die row col p) die row col p).foldl
      (fun v h => takeHop v die row col (packetClass s die row col p) p h) (packetLeft s die row col p)) := by
  rw [packetHop_known hk, if_neg (by simp only [hb, hf, Bool.not_true, Bool.false_eq_true, or_self, not_false_eq_true])]

theorem packetHop_waits (hk : p.kind ≤ 10) (h : hopBehind s die row col p = true ∨ (hopsOf s die row col p).all (hopFree s die row col p) = false) :
    exec (.packetHop die row col p) s = .next s := by
  rw [packetHop_known hk, if_pos (h.imp_right fun hf => by rw [hf]; rfl)]

end

/-! ### Frames -/

section
variable {s : State} {die e : Nat} (hup : linkState s die e = 2) (hgo : (s.link die e).held = false)
include hup hgo

/-- An end of a link that is up, and not held by a retraining, takes part in CPL. -/
theorem link_open : ¬ (linkState s die e ≠ 2 ∨ (s.link die e).held = true) := by
  rw [hup, hgo]; decide

theorem frame_damaged {f : CplFrame} (hc : f.crcOk = false) (hd : die < 8) :
    exec (.cplFrameReceive die e f) s = .next (sendNak ((s.unwire (.frame die e f)).setFld .die die (R.ERCNT_CRCERR e)
      (satAdd (s.fld .die die (R.ERCNT_CRCERR e)) 1 0xFFFF)) die e) := by
  refine congrArg _ ((if_neg (link_open hup hgo)).trans ((if_pos (by rw [hc]; rfl)).trans ?_))
  rw [if_pos hd]; rfl

/-- What a frame with a right CRC does. -/
theorem frame_sound {f : CplFrame} (hc : f.crcOk = true) :
    exec (.cplFrameReceive die e f) s = .next (
      let u := s.unwire (.frame die e f)
      if f.typ = 0 ∧ f.seq ≠ (s.link die e).expect then sendNak u die e
      else
        let v := ackFrames u die e f.ack
        let l := v.link die e
        let v := v.setLink die e { l with peer := f.crd, expect := if f.typ = 0 then (l.expect + 1) % 2 ^ 16 else l.expect }
        let v := if f.typ = 0 then f.packets.foldl (fun s p => arriveFromLink s die e p) v else v
        let v := if f.typ = 2 then replay v die e else v
        flushLink v die e (v.link die e).wait.length) :=
  congrArg _ ((if_neg (link_open hup hgo)).trans (if_neg (by rw [hc]; decide)))

theorem frame_outOfOrder {f : CplFrame} (hc : f.crcOk = true) (ht : f.typ = 0) (hs : f.seq ≠ (s.link die e).expect) :
    exec (.cplFrameReceive die e f) s = .next (sendNak (s.unwire (.frame die e f)) die e) :=
  (frame_sound hup hgo hc).trans (congrArg _ (if_pos ⟨ht, hs⟩))

theorem frame_inOrder {f : CplFrame} (hc : f.crcOk = true) (ht : f.typ = 0) (hs : f.seq = (s.link die e).expect) :
    exec (.cplFrameReceive die e f) s = .next (
      let v := ackFrames (s.unwire (.frame die e f)) die e f.ack
      let w := f.packets.foldl (fun s p => arriveFromLink s die e p) (v.setLink die e { v.link die e with peer := f.crd, expect := ((v.link die e).expect + 1) % 2 ^ 16 })
      flushLink w die e (w.link die e).wait.length) := by
  rw [frame_sound hup hgo hc]
  simp only [ht, hs, ne_eq, not_true_eq_false, and_false, if_false, if_true, OfNat.zero_ne_ofNat]

theorem frame_control {f : CplFrame} (hc : f.crcOk = true) (ht : f.typ = 1) :
    exec (.cplFrameReceive die e f) s = .next (
      let v := ackFrames (s.unwire (.frame die e f)) die e f.ack
      let w := v.setLink die e { v.link die e with peer := f.crd }
      flushLink w die e (w.link die e).wait.length) := by
  rw [frame_sound hup hgo hc]
  simp only [ht, one_ne_zero, false_and, if_false, OfNat.one_ne_ofNat]

theorem nak_received (ack : Nat) :
    exec (.cplNak die e ack) s = .next (
      let u := ackFrames (s.unwire (.nak die e ack)) die e ack
      if (u.link die e).sent.isEmpty then u else replay u die e) := congrArg _ (if_neg (link_open hup hgo))

theorem ackTimeout_replays (hs : (s.link die e).sent ≠ []) : exec (.cplAckTimeout die e) s = .next (replay s die e) := by
  refine congrArg _ (if_neg ?_)
  rw [hup, hgo, List.isEmpty_iff]
  simpa using hs

theorem controlTimer_sends :
    exec (.cplControlTimer die e) s = .next (s.send (.frame (peerEnd die e).1 (peerEnd die e).2 (mkFrame (s.link die e) 1 []))) :=
  congrArg _ (if_neg (link_open hup hgo))

end

/-- Settles O37: the branches of each command by the lemmas above, the replay as one append to what is under way, and the CRC from its bound of 32 bits. -/
theorem packetsMove : Obligations.PacketsMove := by
  refine ⟨fun s die row col p => ⟨packetHop_moves, packetHop_waits, fun hk => congrArg _ (if_pos hk)⟩,
    fun s die row col p => ⟨packetLeft_stays s die row col p, packetLeft_freed s die col p⟩,
    fun s die e hup hgo => ⟨fun f => ⟨frame_damaged hup hgo, frame_outOfOrder hup hgo, frame_inOrder hup hgo, frame_control hup hgo⟩, fun ack => ⟨fun hs => ?_, fun hs => ?_⟩,
      ackTimeout_replays hup hgo, controlTimer_sends hup hgo⟩,
    fun s die e => ⟨replay_goesDown s die e, fun hc => ?_⟩, fun f => ⟨rfl, sealFrame_crcOk f⟩⟩
  · rw [nak_received hup hgo]
    exact congrArg _ (if_pos (List.isEmpty_iff.mpr hs))
  · rw [nak_received hup hgo]
    exact congrArg _ (if_neg (mt List.isEmpty_iff.mp hs))
  · rw [replay_resends s die e hc]
    exact ⟨rfl, congrArg Link.consec (link_cplReplayCounted s die e)⟩

end Sys2Proof.Machine
end

section
/-!
SUPPORT. Training and discovery of the die links (R313, R316–R322) and detours (R323–R327): the state that a link shows, what the registers of a link's end say of its peer,
and each command's branches.
-/

namespace Sys2Proof.Machine

/-! ### The registers of a link's end -/

/-- A die's registers lie below those of every LD. -/
theorem ldAddr_ne_dieAddr {die off : Nat} (hd : die < 8) (ho : off < 0x100_0000) (n off' : Nat) : regAddr .die die off ≠ regAddr .ld n off' := by
  simp only [regAddr]; omega

theorem erlink_lt {e : Nat} (he : e < 10) : R.ERLINK e < 0x100_0000 := by simp only [R.ERLINK]; omega

theorem erpeer_lt {e : Nat} (he : e < 10) : R.ERPEER e < 0x100_0000 := by simp only [R.ERPEER]; omega

theorem erpeer_ne_erlink (e k : Nat) : R.ERPEER e ≠ R.ERLINK k := by simp only [R.ERPEER, R.ERLINK]; omega

theorem linkState_eq {die : Nat} (hd : die < 8) (s : State) (e : Nat) : linkState s die e = s.fld .die die (R.ERLINK_STATE e) := by
  rw [linkState, Nat.mod_eq_of_lt hd]

/-- A value stored in the `ERLINK.STATE` of whatever link leaves a link that shows this value so. -/
theorem linkState_setState_keeps {s : State} {die e v : Nat} (hv : v < 4) (d k : Nat) (h : linkState s die e = v) :
    linkState (s.setFld .die d (R.ERLINK_STATE k) v) die e = v := by
  by_cases ha : regAddr .die (die % 8) (R.ERLINK e) = regAddr .die d (R.ERLINK k)
  · have hself := State.fld_setFld_self (b := .die) (n := d) (f := R.ERLINK_STATE k) s v (by decide : 0 ≤ 1) (by decide : 1 < 64)
    calc linkState (s.setFld .die d (R.ERLINK_STATE k) v) die e
        = (s.setFld .die d (R.ERLINK_STATE k) v).fld .die d (R.ERLINK_STATE k) := congrArg (fun a => wget (State.reg _ a) 1 0) ha
      _ = v % 4 := hself
      _ = v := Nat.mod_eq_of_lt hv
  · exact (State.fld_setFld_ne s v ha).trans h

theorem linkState_setState_self {die v : Nat} (hd : die < 8) (hv : v < 4) (s : State) (e : Nat) :
    linkState (s.setFld .die die (R.ERLINK_STATE e) v) die e = v := by
  rw [linkState_eq hd]
  exact (State.fld_setFld_self (f := R.ERLINK_STATE e) s v (by decide : 0 ≤ 1) (by decide : 1 < 64)).trans (Nat.mod_eq_of_lt hv)

/-! ### Retraining (R313) -/

/-- An end of a link held or released, and its GC's register with a state of the link. -/
def endSet (held : Bool) (v : Nat) (s : State) (x : Nat × Nat) : State :=
  let s := s.setLink x.1 x.2 { s.link x.1 x.2 with held := held }
  if x.1 < 8 then s.setFld .die x.1 (R.ERLINK_STATE x.2) v else s

section
variable (held : Bool) (v : Nat) (s : State) (x : Nat × Nat) {die e : Nat}

theorem endSet_frame : endSet held v s x = { s with regs := (endSet held v s x).regs, links := (endSet held v s x).links } := by
  rw [endSet]; split <;> rfl

theorem link_endSet (die e : Nat) :
    (endSet held v s x).link die e = if die * 16 + e = x.1 * 16 + x.2 then { s.link x.1 x.2 with held := held } else s.link die e := by
  rw [endSet]; split <;> exact s.link_setLink ..

theorem endSet_held : ((endSet held v s x).link x.1 x.2).held = held := by
  rw [link_endSet, if_pos rfl]

variable {held v s}

theorem endSet_keepsHeld (h : (s.link die e).held = held) : ((endSet held v s x).link die e).held = held := by
  rw [link_endSet]; split
  · rfl
  · exact h

theorem endSet_wait (h : (s.link die e).wait = []) (hx : (s.link x.1 x.2).wait = []) : ((endSet held v s x).link die e).wait = [] := by
  rw [link_endSet]; split
  · exact hx
  · exact h

theorem linkState_endSet (hd : die < 8) (hv : v < 4) : linkState (endSet held v s (die, e)) die e = v := by
  rw [endSet, if_pos hd]
  exact linkState_setState_self hd hv _ e

theorem linkState_endSet_keeps (hv : v < 4) (h : linkState s die e = v) : linkState (endSet held v s x) die e = v := by
  rw [endSet]; split
  · exact linkState_setState_keeps hv _ _ h
  · exact h

end

/-- A link on which nothing waits sends nothing. -/
theorem flushLink_idle {s : State} {die e : Nat} (h : (s.link die e).wait = []) : flushLink s die e (s.link die e).wait.length = s := by
  rw [h]; rfl

section
variable {s : State} {die e : Nat}

theorem ucieRetrain_holds (h : linkState s die e = 2) :
    exec (.ucieRetrain die e) s = .next (endSet true 1 (endSet true 1 s (die, e)) (peerEnd die e)) := congrArg _ (if_neg (not_not_intro h))

/-- A retraining holds the frames of both ends. -/
theorem ucieRetrain_spec (hd : die < 8) (h : linkState s die e = 2) :
    ∃ u, exec (.ucieRetrain die e) s = .next u ∧ (u.link die e).held = true ∧ (u.link (peerEnd die e).1 (peerEnd die e).2).held = true ∧
      linkState u die e = 1 ∧ u = { s with regs := u.regs, links := u.links } := by
  refine ⟨_, ucieRetrain_holds h, endSet_keepsHeld _ (endSet_held true 1 s (die, e)), endSet_held .., linkState_endSet_keeps _ (by decide) (linkState_endSet hd (by decide)), ?_⟩
  rw [endSet_frame true 1 _ (peerEnd die e), endSet_frame true 1 s]

/-- A link that has retrained, on which nothing waits at either end. -/
theorem trainingComplete_frees (h : linkState s die e = 1) (hh : (s.link die e).held = true) (hw : (s.link die e).wait = [])
    (hq : (s.link (peerEnd die e).1 (peerEnd die e).2).wait = []) :
    exec (.ucieTrainingComplete die e) s = .next (endSet false 2 (endSet false 2 s (die, e)) (peerEnd die e)) := by
  have hnear : ((endSet false 2 s (die, e)).link die e).wait = [] := endSet_wait _ hw hw
  have hfar : ((endSet false 2 s (die, e)).link (peerEnd die e).1 (peerEnd die e).2).wait = [] := endSet_wait _ hq hw
  have hexec : exec (.ucieTrainingComplete die e) s = .next (
      let free := fun (s : State) (x : Nat × Nat) => flushLink (endSet false 2 s x) x.1 x.2 ((endSet false 2 s x).link x.1 x.2).wait.length
      free (free s (die, e)) (peerEnd die e)) := congrArg _ ((if_neg (not_not_intro h)).trans (if_pos hh))
  rw [hexec]
  dsimp only
  rw [flushLink_idle hnear, flushLink_idle (endSet_wait _ hfar hfar)]

end

/-! ### Training at start-up (R309, R316) -/

/-- A link's rate, width and modules as its register shows them. -/
def linkRated (s : State) (die e rate width modules : Nat) : State :=
  ((s.setFld .die die (R.ERLINK_RATE e) rate).setFld .die die (R.ERLINK_WIDTH e) width).setFld .die die (R.ERLINK_MODULES e) modules

theorem linkState_linkRated {die : Nat} (hd : die < 8) (s : State) (e rate width modules : Nat) : linkState (linkRated s die e rate width modules) die e = linkState s die e := by
  rw [linkState_eq hd, linkState_eq hd, linkRated]
  rw [fld_setFld_apart (f := R.ERLINK_MODULES e) _ (by decide : 8 ≤ 11 ∧ 11 < 64) (.inr (.inr (by decide : 1 < 8))),
    fld_setFld_apart (f := R.ERLINK_WIDTH e) _ (by decide : 12 ≤ 13 ∧ 13 < 64) (.inr (.inr (by decide : 1 < 12))),
    fld_setFld_apart (f := R.ERLINK_RATE e) _ (by decide : 4 ≤ 6 ∧ 6 < 64) (.inr (.inr (by decide : 1 < 4)))]

/-- A link whose own capability record is on its way to the peer. -/
def capOffered (s : State) (die e : Nat) : State :=
  (s.setLink die e { s.link die e with offered := true }).send (.cap (peerEnd die e).1 (peerEnd die e).2 (ownCap die e).1 (ownCap die e).2)

section
variable {s : State} {die e : Nat}

/-- A link that starts up sends its record and shows a rate; only what an LD site offers is free. -/
theorem trainingComplete_offers (h : linkState s die e = 1) (hh : (s.link die e).held = false) :
    ∃ rate width modules n, exec (.ucieTrainingComplete die e) s = .next (linkRated { capOffered s die e with fresh := n } die e rate width modules) := by
  rw [exec_ucieTrainingComplete, execUcieTrainingComplete]
  dsimp only
  rw [if_neg (not_not_intro h), if_neg (ne_true_of_eq_false hh)]
  cases linkOf die e with
  | ld n => exact ⟨_, _, _, s.fresh + 1, rfl⟩
  | hd => exact ⟨5, 2, 1, s.fresh, rfl⟩
  | gh n => exact ⟨5, 0, 3, s.fresh, rfl⟩
  | gc d l => exact ⟨5, 0, 0xF, s.fresh, rfl⟩
  | none => exact ⟨5, 0, 0xF, s.fresh, rfl⟩

theorem trainingComplete_starts (hd : die < 8) (h : linkState s die e = 1) (hh : (s.link die e).held = false) :
    ∃ u, exec (.ucieTrainingComplete die e) s = .next u ∧ (u.link die e).offered = true ∧ linkState u die e = 1 ∧
      u = { s with regs := u.regs, links := u.links, fresh := u.fresh,
                   wires := s.wires ++ [.cap (peerEnd die e).1 (peerEnd die e).2 (ownCap die e).1 (ownCap die e).2] } := by
  obtain ⟨rate, width, modules, n, hx⟩ := trainingComplete_offers h hh
  refine ⟨_, hx, ?_, (linkState_linkRated hd _ e rate width modules).trans h, rfl⟩
  exact congrArg Link.offered (link_setLink_self s die e _)

end

/-! ### What a link shows of its peer (R316–R320) -/

section
variable {s : State} {die e role ver ident : Nat}

theorem showPeer_regsOnly : RegsOnly s (showPeer s die e role ver ident) := rfl

theorem showPeer_erpeer : (showPeer s die e role ver ident).reg (regAddr .die die (R.ERPEER e)) = .ofNat 64 ident := by
  rw [showPeer, State.reg_setReg, if_pos rfl]

/-- What a link shows of its peer's identifier stands in a register of its own. -/
theorem showPeer_erlink {f : Fld} (ho : f.off = R.ERLINK e) :
    (showPeer s die e role ver ident).fld .die die f = ((s.setFld .die die (R.ERLINK_ROLE e) role).setFld .die die (R.ERLINK_CPLVER e) ver).fld .die die f := by
  have ha : regAddr .die die f.off ≠ regAddr .die die (R.ERPEER e) := by rw [ho]; exact blockAddr_ne .die die (erpeer_ne_erlink e e).symm
  rw [showPeer, State.fld, State.reg_setReg, if_neg ha]
  rfl

theorem showPeer_role (hr : role < 8) : (showPeer s die e role ver ident).fld .die die (R.ERLINK_ROLE e) = role := by
  rw [showPeer_erlink rfl, fld_setFld_apart (f := R.ERLINK_CPLVER e) (g := R.ERLINK_ROLE e) _ (by decide : 16 ≤ 23 ∧ 23 < 64) (.inr (.inl (by decide : 23 < 24))),
    State.fld_setFld_self (f := R.ERLINK_ROLE e) _ _ (by decide : 24 ≤ 26) (by decide : 26 < 64)]
  exact Nat.mod_eq_of_lt hr

theorem linkState_showPeer (hd : die < 8) : linkState (showPeer s die e role ver ident) die e = linkState s die e := by
  rw [linkState_eq hd, linkState_eq hd, showPeer_erlink rfl,
    fld_setFld_apart (f := R.ERLINK_CPLVER e) _ (by decide : 16 ≤ 23 ∧ 23 < 64) (.inr (.inr (by decide : 1 < 16))),
    fld_setFld_apart (f := R.ERLINK_ROLE e) _ (by decide : 24 ≤ 26 ∧ 26 < 64) (.inr (.inr (by decide : 1 < 24)))]

/-- The ports of an LD site set to OFF both show it: they have a register each. -/
theorem sitePortsOff_off (s : State) (n : Nat) :
    (sitePortsOff s (.ld n)).pf (2 * n) R.FPSTAT_STATE = 3 ∧ (sitePortsOff s (.ld n)).pf (2 * n + 1) R.FPSTAT_STATE = 3 := by
  refine ⟨?_, pf_setPf_state _ _ _⟩
  have hn : (2 * n + 1) / 2 = 2 * n / 2 := by omega
  have hoff : R.FPSTAT (2 * n % 2) ≠ R.FPSTAT ((2 * n + 1) % 2) := by simp only [R.FPSTAT]; omega
  have hother : (sitePortsOff s (.ld n)).pf (2 * n) R.FPSTAT_STATE = (s.setPf (2 * n) R.FPSTAT_STATE 3).pf (2 * n) R.FPSTAT_STATE := by
    rw [sitePortsOff, State.setPf, hn]
    exact fld_setFld_off 3 hoff
  exact hother.trans (pf_setPf_state _ _ _)

theorem sitePortsOff_regsOnly (s : State) (k : LinkKind) : RegsOnly s (sitePortsOff s k) := by
  cases k <;> rfl

/-- The ports of a site stand in the block of its LD. -/
theorem sitePortsOff_dieReg (hd : die < 8) {off : Nat} (ho : off < 0x100_0000) (s : State) (k : LinkKind) :
    (sitePortsOff s k).reg (regAddr .die die off) = s.reg (regAddr .die die off) := by
  cases k with
  | ld n =>
    rw [sitePortsOff, State.setPf, State.setPf, State.reg_setFld, if_neg (ldAddr_ne_dieAddr hd ho _ _), State.reg_setFld, if_neg (ldAddr_ne_dieAddr hd ho _ _)]
  | _ => rfl

end

/-! ### The peer's record (R316–R319) -/

/-- The peer's credits, and the GC's own at the far end of a Dexferas link. -/
def creditsTaken (s : State) (die e w : Nat) : State :=
  let s := s.setLink die e { s.link die e with buf := bits w 31 16, vns := bits w 13 11 }
  let q := peerEnd die e
  if q.1 ≥ 8 then s.setLink q.1 q.2 { s.link q.1 q.2 with buf := 1024, vns := bits (ownCap die e).1 13 11 } else s

/-- A link that a record has brought up, with what it shows of its peer. -/
def linkUpShown (s : State) (die e w ident : Nat) : State :=
  showPeer (((creditsTaken s die e w).setFld .die die (R.ERLINK_STATE e) 2).setFld .die die (R.ERLINK_REASON e) 0) die e (bits w 10 8)
    (if linkOf die e = .hd then 0x10 else 0x20) ident

/-- The rate and width of the link to a Dexferas LD. -/
def roleRated (s : State) (die e role : Nat) : State :=
  if role = 1 then (s.setFld .die die (R.ERLINK_RATE e) 5).setFld .die die (R.ERLINK_WIDTH e) 0 else s

/-- What the role of the peer brings about: the rate of a Dexferas LD, or the ports of a third-party site OFF. -/
def roleTaken (s : State) (die e role : Nat) : State :=
  if role = 4 then sitePortsOff (roleRated s die e role) (linkOf die e) else roleRated s die e role

/-- A record of the site's version (R314, R317). -/
abbrev VersionFits (die e w : Nat) : Prop := bits w 7 4 = if linkOf die e = .hd then 1 else 2

/-- A record of the site's role, or of a third-party die at an LD site (R318). -/
abbrev RoleFits (die e w : Nat) : Prop := bits w 10 8 = siteRole (linkOf die e) ∨ (bits w 10 8 = 4 ∧ siteRole (linkOf die e) = 1)

section
variable {s : State} {die e w : Nat}

theorem creditsTaken_frame (s : State) (die e w : Nat) : creditsTaken s die e w = { s with links := (creditsTaken s die e w).links } := by
  rw [creditsTaken]; dsimp only; split <;> rfl

/-- The far end beyond a GC is no end of a GC. -/
theorem link_creditsTaken (hd : die < 8) (he : e < 10) :
    (creditsTaken s die e w).link die e = { s.link die e with buf := bits w 31 16, vns := bits w 13 11 } := by
  rw [creditsTaken]; dsimp only; split
  · rw [State.link_setLink, if_neg (by omega), link_setLink_self]
  · exact link_setLink_self s die e _

theorem linkUpShown_regsOnly (s : State) (die e w ident : Nat) : RegsOnly (creditsTaken s die e w) (linkUpShown s die e w ident) :=
  ((setFld_regsOnly ..).trans (setFld_regsOnly ..)).trans showPeer_regsOnly

theorem linkState_linkUpShown (hd : die < 8) (s : State) (e w ident : Nat) : linkState (linkUpShown s die e w ident) die e = 2 := by
  rw [linkUpShown, linkState_showPeer hd, linkState_eq hd,
    fld_setFld_apart (f := R.ERLINK_REASON e) _ (by decide : 32 ≤ 39 ∧ 39 < 64) (.inr (.inr (by decide : 1 < 32))), ← linkState_eq hd]
  exact linkState_setState_self hd (by decide) _ e

theorem roleRated_regsOnly (s : State) (die e role : Nat) : RegsOnly s (roleRated s die e role) := by
  rw [roleRated]; split <;> rfl

theorem roleTaken_regsOnly (s : State) (die e role : Nat) : RegsOnly s (roleTaken s die e role) := by
  rw [roleTaken]; split
  · exact (roleRated_regsOnly s die e role).trans (sitePortsOff_regsOnly _ _)
  · exact roleRated_regsOnly s die e role

/-- The role of the peer changes no register of the die but the link's rate and width. -/
theorem roleTaken_dieReg (hd : die < 8) {off : Nat} (ho : off < 0x100_0000) (s : State) (e role : Nat) :
    (roleTaken s die e role).reg (regAddr .die die off) = (roleRated s die e role).reg (regAddr .die die off) := by
  rw [roleTaken]; split
  · exact sitePortsOff_dieReg hd ho _ _
  · rfl

/-- A field of the link's register but its rate and width. -/
theorem roleTaken_erlink (hd : die < 8) (he : e < 10) (s : State) (role : Nat) {f : Fld} (ho : f.off = R.ERLINK e)
    (hr : (R.ERLINK_RATE e).Apart f) (hw : (R.ERLINK_WIDTH e).Apart f) : (roleTaken s die e role).fld .die die f = s.fld .die die f := by
  have hrated : (roleRated s die e role).fld .die die f = s.fld .die die f := by
    rw [roleRated]; split
    · rw [fld_setFld_apart (f := R.ERLINK_WIDTH e) _ (by decide : 12 ≤ 13 ∧ 13 < 64) hw, fld_setFld_apart (f := R.ERLINK_RATE e) _ (by decide : 4 ≤ 6 ∧ 6 < 64) hr]
    · rfl
  rw [State.fld, roleTaken_dieReg hd (by rw [ho]; exact erlink_lt he)]
  exact hrated

theorem roleTaken_erpeer (hd : die < 8) (he : e < 10) (s : State) (role : Nat) :
    (roleTaken s die e role).reg (regAddr .die die (R.ERPEER e)) = s.reg (regAddr .die die (R.ERPEER e)) := by
  have ha : regAddr .die die (R.ERPEER e) ≠ regAddr .die die (R.ERLINK e) := blockAddr_ne .die die (erpeer_ne_erlink e e)
  rw [roleTaken_dieReg hd (erpeer_lt he), roleRated]; split
  · exact ((State.reg_setFld ..).trans (if_neg ha)).trans ((State.reg_setFld ..).trans (if_neg ha))
  · rfl

theorem roleTaken_ports {role n : Nat} (s : State) (hr : role = 4) (hk : linkOf die e = .ld n) :
    (roleTaken s die e role).pf (2 * n) R.FPSTAT_STATE = 3 ∧ (roleTaken s die e role).pf (2 * n + 1) R.FPSTAT_STATE = 3 := by
  rw [roleTaken, if_pos hr, hk]
  exact sitePortsOff_off _ n

/-- A link that a record has brought up, before it sends what waits. -/
def linkBroughtUp (s : State) (die e w ident : Nat) : State := roleTaken (linkUpShown s die e w ident) die e (bits w 10 8)

theorem linkBroughtUp_regsOnly (s : State) (die e w ident : Nat) : RegsOnly (creditsTaken s die e w) (linkBroughtUp s die e w ident) :=
  (linkUpShown_regsOnly s die e w ident).trans (roleTaken_regsOnly _ die e _)

theorem link_linkBroughtUp (hd : die < 8) (he : e < 10) (ident : Nat) :
    (linkBroughtUp s die e w ident).link die e = { s.link die e with buf := bits w 31 16, vns := bits w 13 11 } :=
  ((linkBroughtUp_regsOnly s die e w ident).keeps (State.link · die e)).trans (link_creditsTaken hd he)

end

section
variable {s : State} {die e : Nat} {rec : List Byte} (ht : linkState s die e = 1) (ho : (s.link die e).offered = true) (hh : (s.link die e).held = false)
include ht ho hh

/-- What a record does to a link that has offered its own. -/
theorem capabilityRecord_taken :
    exec (.capabilityRecord die e rec) s = .next (
      let w := numAt rec 8 0
      let id := numAt rec 8 1
      let r := s.unwire (.cap die e w id)
      if bits w 7 4 ≠ (if linkOf die e = .hd then 1 else 2) then unconfigured (showPeer r die e (bits w 10 8) 0 id) die e 3
      else if bits w 10 8 ≠ siteRole (linkOf die e) ∧ !(bits w 10 8 = 4 ∧ siteRole (linkOf die e) = 1) then
        unconfigured (showPeer r die e (bits w 10 8) (if linkOf die e = .hd then 0x10 else 0x20) id) die e 4
      else
        let u := linkBroughtUp r die e w id
        flushLink u die e (u.link die e).wait.length) :=
  congrArg _ (if_neg (show ¬ (linkState s die e ≠ 1 ∨ (!(s.link die e).offered) = true ∨ (s.link die e).held = true) by rw [ht, ho, hh]; decide))

theorem capabilityRecord_wrongVersion (hv : ¬ VersionFits die e (numAt rec 8 0)) :
    exec (.capabilityRecord die e rec) s = .next (unconfigured
      (showPeer (s.unwire (.cap die e (numAt rec 8 0) (numAt rec 8 1))) die e (bits (numAt rec 8 0) 10 8) 0 (numAt rec 8 1)) die e 3) :=
  (capabilityRecord_taken ht ho hh).trans (congrArg _ (if_pos hv))

theorem capabilityRecord_wrongRole (hv : VersionFits die e (numAt rec 8 0)) (hr : ¬ RoleFits die e (numAt rec 8 0)) :
    exec (.capabilityRecord die e rec) s = .next (unconfigured
      (showPeer (s.unwire (.cap die e (numAt rec 8 0) (numAt rec 8 1))) die e (bits (numAt rec 8 0) 10 8) (16 * if linkOf die e = .hd then 1 else 2) (numAt rec 8 1)) die e 4) := by
  obtain ⟨hsite, hthird⟩ := not_or.mp hr
  have hver : (16 * if linkOf die e = .hd then 1 else 2) = if linkOf die e = .hd then 0x10 else 0x20 := by split <;> rfl
  rw [capabilityRecord_taken ht ho hh, hver]
  exact congrArg _ ((if_neg (not_not_intro hv)).trans (if_pos ⟨hsite, by rw [decide_eq_false hthird]; rfl⟩))

theorem capabilityRecord_brings_up (hd : die < 8) (he : e < 10) (hv : VersionFits die e (numAt rec 8 0)) (hr : RoleFits die e (numAt rec 8 0)) (hw : (s.link die e).wait = []) :
    exec (.capabilityRecord die e rec) s =
      .next (linkBroughtUp (s.unwire (.cap die e (numAt rec 8 0) (numAt rec 8 1))) die e (numAt rec 8 0) (numAt rec 8 1)) := by
  have hrole : ¬ (bits (numAt rec 8 0) 10 8 ≠ siteRole (linkOf die e) ∧ (!decide (bits (numAt rec 8 0) 10 8 = 4 ∧ siteRole (linkOf die e) = 1)) = true) := by
    rintro ⟨hsite, hthird⟩
    rcases hr with h | h
    · exact hsite h
    · rw [decide_eq_true h] at hthird; cases hthird
  have hwait := (congrArg Link.wait (link_linkBroughtUp (s := s.unwire (.cap die e (numAt rec 8 0) (numAt rec 8 1))) (w := numAt rec 8 0) hd he (numAt rec 8 1))).trans hw
  exact (capabilityRecord_taken ht ho hh).trans (congrArg _ ((if_neg (not_not_intro hv)).trans ((if_neg hrole).trans (flushLink_idle hwait))))

end

/-- What a link that a record has brought up shows. -/
theorem linkBroughtUp_shows {die e : Nat} (hd : die < 8) (he : e < 10) (s : State) (w ident : Nat) :
    let u := linkBroughtUp s die e w ident
    linkState u die e = 2 ∧ (u.link die e).buf = bits w 31 16 ∧ (u.link die e).vns = bits w 13 11 ∧ u.fld .die die (R.ERLINK_ROLE e) = bits w 10 8 ∧
      u.reg (regAddr .die die (R.ERPEER e)) = .ofNat 64 ident ∧
      (∀ n, bits w 10 8 = 4 → linkOf die e = .ld n → u.pf (2 * n) R.FPSTAT_STATE = 3 ∧ u.pf (2 * n + 1) R.FPSTAT_STATE = 3) ∧
      u = { s with regs := u.regs, links := u.links } := by
  intro u
  have hlink : u.link die e = { s.link die e with buf := bits w 31 16, vns := bits w 13 11 } := link_linkBroughtUp hd he ident
  refine ⟨?_, congrArg Link.buf hlink, congrArg Link.vns hlink, ?_, (roleTaken_erpeer hd he _ _).trans showPeer_erpeer,
    fun n hr hk => roleTaken_ports _ hr hk, ?_⟩
  · rw [linkState_eq hd]
    exact (roleTaken_erlink hd he _ _ rfl (.inr (.inr (by decide : 1 < 4))) (.inr (.inr (by decide : 1 < 12)))).trans
      ((linkState_eq hd _ e).symm.trans (linkState_linkUpShown hd s e w ident))
  · exact (roleTaken_erlink (f := R.ERLINK_ROLE e) hd he _ _ rfl (.inr (.inl (by decide : 6 < 24))) (.inr (.inl (by decide : 13 < 24)))).trans
      (showPeer_role (Nat.mod_lt _ (by decide)))
  · have hregs : u = { creditsTaken s die e w with regs := u.regs } := linkBroughtUp_regsOnly s die e w ident
    rw [hregs, creditsTaken_frame s die e w]

/-! ### Router faults and detours (R323–R327) -/

theorem leaveJob_left (s : State) : (leaveJob s).left = true := by
  by_cases h : s.left = true
  · rw [leaveJob, if_pos h]; exact h
  · rw [leaveJob, if_neg h]; dsimp only; split
    · rfl
    · exact OutOnly.keeps (cxtEmit_outOnly ..) State.left

/-- R323, R325: whichever route set is active, the device has left its job. -/
theorem routerFails_left (s : State) (d row col : Nat) : (routerFails s d row col).left = true := by
  rw [routerFails]; dsimp only; split
  · exact leaveJob_left _
  · exact leaveJob_left _

section
variable {s : State} {d : Nat} (ha : s.fld .die d R.RSCTL_ACTIVE = 0)
include ha

/-- The bits of `RSCTL` that a switch writes lie apart, and the log holds no register. -/
theorem armDetour_idle (hi : dieIdle s d = true) : (armDetour s d).fld .die d R.RSCTL_ACTIVE = 1 ∧ (armDetour s d).fld .die d R.RSCTL_PENDING = 0 := by
  have harm : armDetour s d = ((s.setFld .die d R.RSCTL_ACTIVE 1).setFld .die d R.RSCTL_PENDING 0).logOp 0x0621 d :=
    (if_neg (by rw [ha]; decide)).trans (if_pos hi)
  have hlog : ∀ (u : State) f, (u.logOp 0x0621 d).fld .die d f = u.fld .die d f := fun _ _ => rfl
  rw [harm, hlog, hlog]
  refine ⟨?_, State.fld_setFld_self (f := R.RSCTL_PENDING) _ 0 (by decide) (by decide)⟩
  rw [fld_setFld_apart (f := R.RSCTL_PENDING) 0 (by decide) (by decide)]
  exact State.fld_setFld_self (f := R.RSCTL_ACTIVE) s 1 (by decide) (by decide)

theorem armDetour_busy (hi : dieIdle s d = false) : armDetour s d = s.setFld .die d R.RSCTL_PENDING 1 :=
  (if_neg (by rw [ha]; decide)).trans (if_neg (by rw [hi]; decide))

end

/-- Settles O38: retraining end by end, the peer's record by the layers of what it writes, and the detour by the bits of `RSCTL`. -/
theorem linksTrain : Obligations.LinksTrain := by
  refine ⟨fun s die e hd he => ⟨ucieRetrain_spec hd, fun hh => congrArg _ (if_pos hh), rfl,
      fun ht hh => ⟨fun ho => congrArg _ (if_pos ?_), fun ho => congrArg _ (if_pos ?_), trainingComplete_starts hd ht hh⟩, fun ht hh hw hq => ?_, fun rec ht ho hh => ?_⟩,
    fun s die row col => ⟨rfl, rfl, fun hp => congrArg _ (if_pos hp), routerFails_left s die row col, fun ha => ⟨armDetour_idle ha, armDetour_busy ha⟩⟩⟩
  · rw [ht, ho, hh]; decide
  · rw [ht, ho, hh]; decide
  · exact ⟨_, trainingComplete_frees ht hh hw hq, endSet_keepsHeld _ (endSet_held false 2 s (die, e)),
      linkState_endSet_keeps _ (by decide) (linkState_endSet hd (by decide))⟩
  · exact ⟨capabilityRecord_wrongVersion ht ho hh, fun hv hs h3 => capabilityRecord_wrongRole ht ho hh hv (not_or.mpr ⟨hs, h3⟩),
      fun hv hr hw => ⟨_, capabilityRecord_brings_up ht ho hh hd he hv hr hw, linkBroughtUp_shows hd he _ _ _⟩⟩

end Sys2Proof.Machine
end

section
/-!
SUPPORT. The registers of a memory controller (R15, R369, R370), the reports of an MC or UU (R530), which change none of them, and the MC of a stack.
-/

namespace Sys2Proof.Machine

/-! ### Reports -/

/-- An address of the MCs' registers (R15). -/
abbrev McAddr (a : Nat) : Prop := 0xD0_0000_0000 ≤ a ∧ a < 0xD8_0000_0000

theorem mcAddr_of {k off : Nat} (hk : k < 8) (ho : off < 0x100_0000) : McAddr (regAddr .mc k off) := by
  simp only [McAddr, regAddr]; omega

theorem regionOf_mc {g : Grade} {k off : Nat} (hk : k < 8) (ho : off < 0x100_0000) : regionOf g (regAddr .mc k off) = .reg .mc k off := by
  have hn : (0xD0_0000_0000 + k * 0x100_0000 + off - 0xD0_0000_0000) / 0x100_0000 = k := by omega
  have hm : (0xD0_0000_0000 + k * 0x100_0000 + off) % 0x100_0000 = off := by omega
  rw [regAddr, regionOf, if_neg (by omega), if_neg (by omega), if_neg (by omega), if_neg (by omega), if_pos (by omega), hn, hm]

/-- The slots of a queue of reports lie within 8 KiB of its base. -/
theorem reg_putReport_outside {s : State} {base ptr slots x : Nat} {r : List Word} (hp : x ≠ ptr) (hb : x < base ∨ base + 0x2000 ≤ x) :
    (putReport s base ptr slots r).reg x = s.reg x := by
  have htail : wget (s.reg ptr) 15 8 < 256 := wget_lt (s.reg ptr) 15 8
  simp only [putReport, State.reg_setReg, if_neg hp]
  refine foldl_keeps (fun u => u.reg x) _ (fun u w hw => ?_) s
  have hw4 : w < 4 := List.mem_range.mp hw
  rw [State.reg_setReg, if_neg (by omega)]

section
variable {s : State} {x : Nat} (hx : McAddr x)
include hx

theorem mcAddr_ne_die {d off : Nat} (hd : d < 8) (ho : off < 0x100_0000) : x ≠ regAddr .die d off := by
  simp only [McAddr, regAddr] at *; omega

theorem mcAddr_ne_gh {n off : Nat} : x ≠ regAddr .gh n off := by
  simp only [McAddr, regAddr] at *; omega

theorem mailReport_mcReg (gh : Nat) (r : List Word) : (mailReport s gh r).reg x = s.reg x := by
  have hptr : x ≠ regAddr .gh gh R.GHMBOX := mcAddr_ne_gh hx
  rw [mailReport]
  split
  · exact reg_putReport_outside hptr (.inl (by simp only [McAddr, regAddr] at *; omega))
  · split
    · rfl
    · rw [State.reg_setReg, if_neg hptr]

theorem intoQueue_mcReg {d : Nat} (hd : d < 8) (r : List Word) : (intoQueue s d r).reg x = s.reg x := by
  have hptr : x ≠ regAddr .die d R.DCQPTR := mcAddr_ne_die hx hd (by decide)
  rw [intoQueue]
  split
  · exact reg_putReport_outside hptr (.inr (by simp only [McAddr, regAddr, R.DCQ] at *; omega))
  · split
    · rfl
    · rw [State.reg_setReg, if_neg hptr]

/-- A report goes into queues of a die and of a gatehouse. -/
theorem dieReport_mcReg {d : Nat} (hd : d < 8) (code cls kind num : Nat) (d1 d2 : Word) (hard : Bool) :
    (dieReport s d code cls kind num d1 d2 hard).reg x = s.reg x := by
  rw [dieReport_eq]
  dsimp only
  split
  · exact (mailReport_mcReg hx _ _).trans (intoQueue_mcReg hx hd _)
  · exact intoQueue_mcReg hx hd _

end

theorem fld_mcEvent {k : Nat} (hk : k < 8) (s : State) (code detail : Nat) {f : Fld} (ho : f.off < 0x100_0000) : (mcEvent s k code detail).fld .mc k f = s.fld .mc k f :=
  congrArg (wget · f.hi f.lo) (dieReport_mcReg (mcAddr_of hk ho) hk ..)

theorem dieReport_mcs (s : State) (d code cls kind num : Nat) (d1 d2 : Word) (hard : Bool) : (dieReport s d code cls kind num d1 d2 hard).mcs = s.mcs := by
  rw [(dieReport_reported s d code cls kind num d1 d2 hard).1]

theorem setFld_onlyIn (K : Nat → Prop) (s : State) (b : Block) (n : Nat) (f : Fld) (v : Nat) : OnlyIn (fun a => a = regAddr b n f.off) K s (s.setFld b n f v) :=
  ⟨rfl, fun _ ha => (State.reg_setFld ..).trans (if_neg ha), fun _ _ => rfl⟩

/-! ### The MC of a stack -/

theorem State.mc_setMc_self (s : State) (k : Nat) (m : Mc) : (s.setMc k m).mc k = m := mget_mput_self

theorem State.mc_setFld (s : State) (b : Block) (n : Nat) (f : Fld) (v k : Nat) : (s.setFld b n f v).mc k = s.mc k := rfl

theorem State.fld_setMc (s : State) (k : Nat) (m : Mc) (b : Block) (n : Nat) (f : Fld) : (s.setMc k m).fld b n f = s.fld b n f := rfl

end Sys2Proof.Machine
end

section
/-!
SUPPORT. HBM (R334–R355): each branch of a request to a stack, the retirement of a page, the temperature, the loss and the zero-fill of a stack.
-/

namespace Sys2Proof.Machine

/-! ### Requests of a tile (R339, R340, R348, R349, R355) -/

/-- A read that the stack serves: it is no longer under way, and the on-die ECC status is counted. -/
def readServed (s : State) (q : HbmReq) : State := noteEcc (s.unwire (.hbmRead q)) (hbmPlace s q.addr).1

/-- A read whose block has failed its checksum, which is reported (R349). -/
def checksumFailed (s : State) (q : HbmReq) : State := mcEvent (readServed s q) (hbmPlace s q.addr).1 0x0700 (q.addr / 4096 * 4096)

section
variable {s : State} {q : HbmReq} (ha : hbmAddr q.addr = true) (hb : blockHeld s q.addr = false)
include ha hb

theorem request_open {held : Bool} (hh : held = false) : ¬ (!hbmAddr q.addr || blockHeld s q.addr || held) = true := by
  rw [ha, hb, hh]; decide

theorem hbmRead_delivers (hh : readHeld s q = false) {data : List Byte} (hd : readOut (readServed s q) q = some data) :
    exec (.hbmReadRequest q .ok) s = .next (giveRead (readServed s q) q data) := by
  refine congrArg _ ((if_neg (request_open ha hb hh)).trans ?_)
  rw [readServed] at hd ⊢
  simp only [hd]

theorem hbmRead_rereads (hh : readHeld s q = false) {data : List Byte} (hd : readOut (readServed s q) q = some data) :
    exec (.hbmReadRequest q .reread) s = .next (giveRead (stage1 (readServed s q) (hbmPlace s q.addr).1 q.addr) q data) := by
  refine congrArg _ ((if_neg (request_open ha hb hh)).trans ?_)
  rw [readServed] at hd ⊢
  simp only [hd]

/-- A block that cannot be read is asked of the twin, or its path ends (R349). -/
theorem hbmRead_fails (hh : readHeld s q = false) :
    exec (.hbmReadRequest q .bad) s = .next (
      let k := (hbmPlace s q.addr).1
      let a := q.addr / 4096 * 4096
      let v := checksumFailed s q
      if isShard v k (pageOf (blockKey v q.addr)) = true ∧ v.fld .ld 0 R.TWCFG_PAIREN = 1 then
        (mcEvent (v.setMc k { v.mc k with path := (v.mc k).path ++ [(blockKey v q.addr, q)] }) k 0x0701 a).send (.twinAsk k a (v.fld .mc k R.UUSTAT_CSTEP))
      else stage4 (mcEvent v k 0x0701 a) k q.addr) := by
  refine congrArg _ ((if_neg (request_open ha hb hh)).trans ?_)
  cases hd : readOut (readServed s q) q with
  | none => rw [readServed] at hd; simp only [hd]; rfl
  | some data => rw [readServed] at hd; simp only [hd]; rfl

theorem hbmWrite_accepted (hh : writeHeld s q = false) (hp : isProt s (hbmPlace s q.addr).1 (pageOf (blockKey s q.addr)) = false) :
    exec (.hbmWriteRequest q) s = .next (acceptHbm (s.unwire (.hbmWrite q)) q) :=
  congrArg _ ((if_neg (request_open ha hb hh)).trans (if_neg (by rw [hp]; decide)))

/-- A write to a protected page begins its staging and waits for it (R355). -/
theorem hbmWrite_stages (hh : writeHeld s q = false) (hp : isProt s (hbmPlace s q.addr).1 (pageOf (blockKey s q.addr)) = true)
    (hc : (s.mc (hbmPlace s q.addr).1).staging.contains (pageOf (blockKey s q.addr)) = false) (hu : stageUsed (s.mc (hbmPlace s q.addr).1) < 4) :
    exec (.hbmWriteRequest q) s = .next ((s.unwire (.hbmWrite q)).setMc (hbmPlace s q.addr).1
      { s.mc (hbmPlace s q.addr).1 with staging := (s.mc (hbmPlace s q.addr).1).staging ++ [pageOf (blockKey s q.addr)],
                                        writeWait := (s.mc (hbmPlace s q.addr).1).writeWait ++ [q] }) :=
  congrArg _ ((if_neg (request_open ha hb hh)).trans ((if_pos hp).trans ((if_neg (by rw [hc]; decide)).trans (if_pos hu))))

end

/-! ### The end of a staging, of the twin's answer and of a retirement (R349, R351, R355) -/

section
variable {s : State} {k : Nat}

theorem pageStaged_next {page : Nat} {rest : List Nat} (h : (s.mc k).staging = page :: rest) :
    exec (.protectedPageStaged k) s = .next (
      let mine := fun (q : HbmReq) => (hbmPlace s q.addr).1 == k && pageOf (blockKey s q.addr) == page
      let u := s.setMc k { s.mc k with staging := rest, writeWait := (s.mc k).writeWait.filter fun q => !mine q }
      ((s.mc k).writeWait.filter mine).foldl acceptHbm (if isProt u k page then stagePage u k page else u)) := by
  rw [exec_protectedPageStaged, execProtectedPageStaged]
  simp only [h]

/-- Without the twin's block the path of the block ends at stage 4. -/
theorem twinReturn_without {a : Nat} {q : HbmReq} {rest : List (Nat × HbmReq)}
    (h : takeFirst (fun (p : Nat × HbmReq) => p.1 == blockKey (s.unwire (.twinGive k a none)) a) ((s.unwire (.twinGive k a none)).mc k).path =
      some ((blockKey (s.unwire (.twinGive k a none)) a, q), rest)) :
    exec (.twinBlockReturn k a none) s = .next (stage4 ((s.unwire (.twinGive k a none)).setMc k { (s.unwire (.twinGive k a none)).mc k with path := rest }) k a) := by
  rw [exec_twinBlockReturn, execTwinBlockReturn]
  simp only [h]

theorem stageFor_open {page : Nat} (h : isProt s k page = false) : stageFor s k page = (true, s) := if_pos (by rw [h]; rfl)

theorem retirement_completes {page : Nat} (h : (s.mc k).retiring = some page) (hp : isProt s k page = false) :
    exec (.pageRetirementComplete k) s = .next ((retirePage s k page).setMc k { (retirePage s k page).mc k with retiring := none }) := by
  rw [exec_pageRetirementComplete, execPageRetirementComplete]
  simp only [h, stageFor_open hp, Bool.not_true, Bool.false_eq_true, if_false]

end

/-! ### The temperature of a stack (R344) -/

/-- `MCSTAT` shows a temperature, whether it asks for doubled refresh, and a throttle. -/
def ShowsHeat (u : State) (k temp throttle : Nat) : Prop :=
  u.fld .mc k R.MCSTAT_TEMP = min temp 255 ∧ u.fld .mc k R.MCSTAT_REFX2 = (if temp > 85 then 1 else 0) ∧ u.fld .mc k R.MCSTAT_THROTTLE = throttle

/-- A temperature read, before the throttle follows it. -/
def heatPolled (s : State) (k temp : Nat) : State :=
  (s.setFld .mc k R.MCSTAT_TEMP (min temp 255)).setFld .mc k R.MCSTAT_REFX2 (b2n (decide (temp > 85)))

section
variable {s u : State} {k temp x : Nat}

theorem heatPolled_shows : ShowsHeat (heatPolled s k temp) k temp (s.fld .mc k R.MCSTAT_THROTTLE) := by
  refine ⟨?_, ?_, ?_⟩
  · rw [heatPolled, fld_setFld_apart _ (by decide) (by decide), State.fld_setFld_self _ _ (by decide) (by decide)]
    exact Nat.mod_eq_of_lt (Nat.lt_succ_of_le (Nat.min_le_right temp 255))
  · rw [heatPolled, State.fld_setFld_self _ _ (by decide) (by decide)]
    by_cases h : temp > 85
    · rw [if_pos h, decide_eq_true h]; rfl
    · rw [if_neg h, decide_eq_false h]; rfl
  · rw [heatPolled, fld_setFld_apart _ (by decide) (by decide), fld_setFld_apart _ (by decide) (by decide)]

theorem ShowsHeat.throttle (h : ShowsHeat u k temp x) {v : Nat} (hv : v < 2) : ShowsHeat (u.setFld .mc k R.MCSTAT_THROTTLE v) k temp v := by
  obtain ⟨ht, hr, -⟩ := h
  refine ⟨?_, ?_, ?_⟩
  · rw [fld_setFld_apart _ (by decide) (by decide), ht]
  · rw [fld_setFld_apart _ (by decide) (by decide), hr]
  · exact (State.fld_setFld_self _ _ (by decide) (by decide)).trans (Nat.mod_eq_of_lt hv)

theorem ShowsHeat.event (h : ShowsHeat u k temp x) (hk : k < 8) (code detail : Nat) : ShowsHeat (mcEvent u k code detail) k temp x := by
  unfold ShowsHeat
  rw [fld_mcEvent hk u code detail (by decide), fld_mcEvent hk u code detail (by decide), fld_mcEvent hk u code detail (by decide)]
  exact h

/-- The throttle comes on above 95 °C, goes at 90 °C or below, and stays between. -/
theorem temperaturePoll_shows (hk : k < 8) : ∃ u, exec (.stackTemperaturePoll k temp) s = .next u ∧
    ShowsHeat u k temp (if temp > 95 then 1 else if temp ≤ 90 then 0 else s.fld .mc k R.MCSTAT_THROTTLE) := by
  have hp : ShowsHeat (heatPolled s k temp) k temp _ := heatPolled_shows (s := s)
  refine ⟨_, rfl, ?_⟩
  split
  · split
    · exact (hp.throttle (by decide)).event hk _ _
    · exact hp.throttle (by decide)
  · split
    · exact hp.throttle (by decide)
    · exact hp

/-! ### The loss and the zero-fill of a stack (R335, R353) -/

theorem stackLost_next (h : (s.mc k).lost = false) : exec (.stackLost k) s = .next (
    mcFatal (dieReport (s.setMc k { s.mc k with lost := true }) k (Config.eventCode 65) 0 2 k (.ofNat 64 k) 0 true) k) :=
  congrArg _ (if_neg (by rw [h]; decide))

/-- A device fault of an MC shows in `MCERR`, and the device has left its job. -/
theorem mcFatal_shows (s : State) (k : Nat) : ((mcFatal s k).mc k = s.mc k) ∧ (mcFatal s k).fld .mc k R.MCERR_FATAL = 1 ∧ (mcFatal s k).left = true := by
  have hout : OutOnly { s.setFld .mc k R.MCERR_FATAL 1 with left := true } (mcFatal s k) := leaveJob_outOnly _
  refine ⟨hout.keeps (State.mc · k), ?_, hout.keeps State.left⟩
  rw [hout.fld]
  exact State.fld_setFld_self s 1 (by decide) (by decide)

theorem stackLost_shows (h : (s.mc k).lost = false) :
    ∃ u, exec (.stackLost k) s = .next u ∧ (u.mc k).lost = true ∧ u.fld .mc k R.MCERR_FATAL = 1 ∧ u.left = true := by
  obtain ⟨hmc, hfatal, hleft⟩ := mcFatal_shows (dieReport (s.setMc k { s.mc k with lost := true }) k (Config.eventCode 65) 0 2 k (.ofNat 64 k) 0 true) k
  refine ⟨_, stackLost_next h, ?_, hfatal, hleft⟩
  rw [hmc, State.mc, dieReport_mcs]
  exact congrArg Mc.lost (State.mc_setMc_self s k _)

/-- Whether a key of `State.mem` is of a byte of the stack. -/
def inStack (k a : Nat) : Bool := decide (k * 2 ^ 36 ≤ a) && decide (a < (k + 1) * 2 ^ 36)

/-- The stack's own bytes are zero, and no other byte is changed. -/
theorem byte_zeroStack (s : State) (k a : Nat) : (zeroStack s k).byte a = if k * 2 ^ 36 ≤ a ∧ a < (k + 1) * 2 ^ 36 then 0 else s.byte a := by
  have hin : inStack k a = decide (k * 2 ^ 36 ≤ a ∧ a < (k + 1) * 2 ^ 36) := (Bool.decide_and ..).symm
  split
  · next h => exact mget_mdrop_self (f := inStack k) (hin.trans (decide_eq_true h))
  · next h => exact mget_mdrop (f := inStack k) (hin.trans (decide_eq_false h))

theorem zeroFill_completes (h : s.fld .mc k R.MCSTAT_ZEROING = 1) :
    exec (.stackZeroFillComplete k) s = .next ((zeroStack s k).setFld .mc k R.MCSTAT_ZEROING 0) := congrArg _ (if_pos h)

end

/-- Settles O39: each command by the branch it takes, and what the registers of the stack then show by the fields that it sets. -/
theorem memoryRequests : Obligations.MemoryRequests := by
  refine ⟨fun s q ha hb hh => ⟨fun data hd => ⟨hbmRead_delivers ha hb hh hd, hbmRead_rereads ha hb hh hd⟩,
      fun hasked => (hbmRead_fails ha hb hh).trans (congrArg _ (if_pos hasked)), fun hnot => (hbmRead_fails ha hb hh).trans (congrArg _ (if_neg hnot))⟩,
    fun s q ha hb hh => ⟨hbmWrite_accepted ha hb hh, hbmWrite_stages ha hb hh⟩,
    fun s k page rest => pageStaged_next, fun s k => ⟨_, Nat.mod_lt _ Nat.two_pos, rfl⟩, fun s q => rfl,
    fun s k a q rest => twinReturn_without, fun s k a st => rfl, fun s k page => retirement_completes, fun s k temp => temperaturePoll_shows,
    fun s k _ => stackLost_shows, fun s k _ hz => ⟨_, zeroFill_completes hz, State.fld_setFld_self _ 0 (by decide) (by decide), fun o ho => ?_, fun a ha => ?_, fun a ha => ?_⟩⟩
  · exact (byte_zeroStack s k _).trans (if_pos ⟨by omega, by omega⟩)
  · exact (byte_zeroStack s k a).trans (if_neg (by omega))
  · exact (State.reg_setFld ..).trans (if_neg ha)

end Sys2Proof.Machine
end

section
/-!
SUPPORT. Writes of HBM by an update unit (R362): they change stored bytes and the forms of blocks alone.
-/

namespace Sys2Proof.Machine

/-- Two states that agree in everything but the bytes of memory and the forms of blocks. -/
def StoredOnly (s u : State) : Prop := u = { s with mem := u.mem, blocks := u.blocks }

section
variable {s u v : State}

theorem StoredOnly.refl (s : State) : StoredOnly s s := rfl

theorem StoredOnly.trans (h : StoredOnly s u) (g : StoredOnly u v) : StoredOnly s v := by
  unfold StoredOnly at *
  rw [h] at g
  exact g

theorem StoredOnly.fresh (h : StoredOnly s u) : u.fresh = s.fresh := by
  unfold StoredOnly at h
  rw [h]

theorem wr_storedOnly (s : State) (a : Nat) (bs : List Byte) : StoredOnly s (s.wr a bs) := by
  rw [StoredOnly, State.wr_frame bs s a]

theorem hbmStore_storedOnly {a : Nat} {blk : Option (Nat × Nat)} {data : List Byte} (h : hbmStore s a blk data = some u) : StoredOnly s u := by
  cases blk with
  | some f =>
    cases h
    exact .trans (u := { s with blocks := mput (fun _ => (0, 4096)) s.blocks (blockKey s a) (f.1, f.2) }) rfl (wr_storedOnly ..)
  | none =>
    by_cases hf : (blockForm s a).1 = 0
    · cases (if_pos hf).symm.trans h
      exact wr_storedOnly ..
    · cases (if_neg hf).symm.trans h

end

theorem hbmPut_storedOnly (s : State) (a : Nat) (data : List Byte) : StoredOnly s (hbmPut s a data) := by
  refine List.foldlRecOn (motive := fun r : State × List Nat => StoredOnly s r.1) _ _ (.refl s) fun r hr p _ => ?_
  dsimp only
  split
  · next h => exact hr.trans (hbmStore_storedOnly h)
  · exact hr

theorem updateGroups_storedOnly (sg : Seg) (r : Rule) (clip n : Nat) : ∀ (s : State) (i : Nat), StoredOnly s (updateGroups s sg r clip i n).1 := by
  induction n with
  | zero => exact fun s _ => .refl s
  | succ n ih =>
    intro s i
    rw [updateGroups]
    dsimp only
    exact (hbmPut_storedOnly ..).trans (ih _ _)

theorem partialCommit_storedOnly (clip : Nat) (rs : List (Nat × Rule)) (plan : List Seg) : ∀ (s : State) (n : Nat), StoredOnly s (partialCommit s clip rs n plan) := by
  induction plan with
  | nil => exact fun s _ => .refl s
  | cons sg plan ih =>
    intro s n
    rw [partialCommit]
    split
    · exact updateGroups_storedOnly ..
    · exact (updateGroups_storedOnly ..).trans (ih _ _)

end Sys2Proof.Machine
end

section
/-!
SUPPORT. The update units (R360–R366) and the copier (R479–R483): the gate, the end of a step, and the branches of each command.
-/

namespace Sys2Proof.Machine

section
variable {s : State} {k : Nat}

/-! ### The gate (R360) -/

/-- What stands when a gate is taken: the unit is idle and enabled, the step is the next, and the clip factor is legal. -/
structure GateOpen (s : State) (k : Nat) (v : Word) : Prop where
  idle : s.fld .mc k R.UUSTAT_STATE = 0
  enabled : s.fld .mc k R.MCCFG_UUEN = 1
  step : wget v 31 0 = (s.fld .mc k R.UUSTAT_CSTEP + 1) % 2 ^ 32
  clip : clipOk (s.fld .mc k R.UUCLIP_CLIP) = true

/-- A gate that has been taken: `UUGATE` holds it, and the unit is in state GATED. -/
def gateTaken (s : State) (k : Nat) (v : Word) : State :=
  ((storeReg s (regAddr .mc k R.UUGATE) v).setFld .mc k R.UUSTAT_STATE 1).setFld .mc k R.UUSTAT_SEG 0

theorem storeGate_onlyIn (hk : k < 8) (v : Word) : OnlyIn (fun a => a = regAddr .mc k R.UUGATE) (fun _ => False) s (storeReg s (regAddr .mc k R.UUGATE) v) :=
  storeReg_onlyIn v (regionOf_mc hk (by decide)) rfl

/-- A write of `UUGATE` leaves the fields of the MC's other registers alone. -/
theorem fld_storeGate (hk : k < 8) (v : Word) {f : Fld} (ho : f.off ≠ R.UUGATE) : (storeReg s (regAddr .mc k R.UUGATE) v).fld .mc k f = s.fld .mc k f :=
  congrArg (wget · f.hi f.lo) ((storeGate_onlyIn hk v).2.1 _ (blockAddr_ne .mc k ho))

theorem step_storeGate (hk : k < 8) (v : Word) : (storeReg s (regAddr .mc k R.UUGATE) v).fld .mc k R.UUGATE_STEP = wget v 31 0 := by
  have hstored := wget_storeReg (s := s) (f := ⟨31, 0, .RW, 0⟩) v (regionOf_mc hk (by decide : R.UUGATE < 0x100_0000)) rfl (by decide) (by decide)
  exact hstored.trans (wget_mod v 31 0)

theorem uugateWrite_taken (hk : k < 8) {v : Word} (hv : wget v 33 33 = 1) (h : GateOpen s k v) : exec (.uugateWrite k v) s = .next (gateTaken s k v) := by
  obtain ⟨hidle, hen, hstep, hclip⟩ := h
  have hopen : (storeReg s (regAddr .mc k R.UUGATE) v).fld .mc k R.MCCFG_UUEN = 1 ∧ s.fld .mc k R.UUSTAT_STATE = 0 ∧
      wget v 31 0 = ((storeReg s (regAddr .mc k R.UUGATE) v).fld .mc k R.UUSTAT_CSTEP + 1) % 2 ^ 32 ∧
      clipOk ((storeReg s (regAddr .mc k R.UUGATE) v).fld .mc k R.UUCLIP_CLIP) = true := by
    rw [fld_storeGate hk v (by decide), fld_storeGate hk v (by decide), fld_storeGate hk v (by decide)]
    exact ⟨hen, hidle, hstep, hclip⟩
  have hfree : ¬ (s.fld .mc k R.UUSTAT_STATE = 1 ∨ s.fld .mc k R.UUSTAT_STATE = 2 ∨ s.fld .mc k R.UUSTAT_STATE = 3) := by rw [hidle]; decide
  have hoffered : ¬ wget v 33 33 = 0 := by rw [hv]; decide
  rw [exec_uugateWrite, execUugateWrite, writeGate, if_neg hfree]
  dsimp only
  rw [if_neg hoffered, if_pos hopen, gateTaken]

theorem gateTaken_shows (hk : k < 8) (v : Word) :
    (gateTaken s k v).fld .mc k R.UUSTAT_STATE = 1 ∧ (gateTaken s k v).fld .mc k R.UUSTAT_SEG = 0 ∧ (gateTaken s k v).fld .mc k R.UUGATE_STEP = wget v 31 0 := by
  refine ⟨?_, ?_, ?_⟩
  · rw [gateTaken, fld_setFld_apart _ (by decide) (by decide), State.fld_setFld_self _ _ (by decide) (by decide)]; rfl
  · rw [gateTaken, State.fld_setFld_self _ _ (by decide) (by decide)]; rfl
  · rw [gateTaken, fld_setFld_off _ (by decide), fld_setFld_off _ (by decide), step_storeGate hk v]

theorem gateTaken_onlyIn (hk : k < 8) (v : Word) :
    OnlyIn (fun a => a = regAddr .mc k R.UUGATE ∨ a = regAddr .mc k R.UUSTAT) (fun _ => False) s (gateTaken s k v) :=
  have hstat : ∀ (u : State) (f : Fld) x, f.off = R.UUSTAT →
      OnlyIn (fun a => a = regAddr .mc k R.UUGATE ∨ a = regAddr .mc k R.UUSTAT) (fun _ => False) u (u.setFld .mc k f x) :=
    fun u f x ho => (setFld_onlyIn _ u .mc k f x).mono (fun _ ha => .inr (ho ▸ ha)) fun _ => id
  ((storeGate_onlyIn hk v).mono (fun _ => .inl) fun _ => id).trans ((hstat _ _ _ rfl).trans (hstat _ _ _ rfl))

theorem uugateWrite_refused {v : Word} (hv : wget v 33 33 = 1)
    (h : s.fld .mc k R.UUSTAT_STATE = 1 ∨ s.fld .mc k R.UUSTAT_STATE = 2 ∨ s.fld .mc k R.UUSTAT_STATE = 3) :
    exec (.uugateWrite k v) s = .next (mcEvent (s.setFld .mc k R.UUSTAT_GATEERR 1) k 0x0722 (wget v 31 0)) :=
  congrArg _ ((if_pos h).trans (if_pos hv))

/-! ### A commit (R361, R366) -/

/-- What the end of a commit does to a unit in state GATED. -/
theorem commitEnd_gated (h : s.fld .mc k R.UUSTAT_STATE = 1) :
    exec (.uuCommitEnd k) s = .next (
      let t := s.fld .mc k R.UUGATE_STEP
      if s.fld .mc k R.UUGATE_SKIP = 1 then endStep (s.setFld .mc k R.UUCNT_SKIPPED (satAdd (s.fld .mc k R.UUCNT_SKIPPED) 1 (2 ^ 32 - 1))) k t true
      else if !gradsOk s k then stopUu s k
      else
        let r := stageAll s (commitPages s k)
        if !r.1 then r.2 else finishCommit ((commitWrites (logWarm r.2 k) k t).setFld .mc k R.UUSTAT_STATE 3) k) :=
  congrArg _ ((if_neg (by rw [h]; decide)).trans (if_neg (not_not_intro h)))

theorem commitEnd_skips (h : s.fld .mc k R.UUSTAT_STATE = 1) (hs : s.fld .mc k R.UUGATE_SKIP = 1) :
    exec (.uuCommitEnd k) s = .next (
      endStep (s.setFld .mc k R.UUCNT_SKIPPED (satAdd (s.fld .mc k R.UUCNT_SKIPPED) 1 (2 ^ 32 - 1))) k (s.fld .mc k R.UUGATE_STEP) true) :=
  (commitEnd_gated h).trans (congrArg _ (if_pos hs))

theorem commitEnd_stops (h : s.fld .mc k R.UUSTAT_STATE = 1) (hs : s.fld .mc k R.UUGATE_SKIP ≠ 1) (hg : gradsOk s k = false) :
    exec (.uuCommitEnd k) s = .next (stopUu s k) :=
  (commitEnd_gated h).trans (congrArg _ ((if_neg hs).trans (if_pos (by rw [hg]; rfl))))

theorem commitEnd_writes (h : s.fld .mc k R.UUSTAT_STATE = 1) (hs : s.fld .mc k R.UUGATE_SKIP ≠ 1) (hg : gradsOk s k = true)
    (hp : (stageAll s (commitPages s k)).1 = true) :
    exec (.uuCommitEnd k) s = .next (
      finishCommit ((commitWrites (logWarm (stageAll s (commitPages s k)).2 k) k (s.fld .mc k R.UUGATE_STEP)).setFld .mc k R.UUSTAT_STATE 3) k) :=
  (commitEnd_gated h).trans (congrArg _ ((if_neg hs).trans ((if_neg (by rw [hg]; decide)).trans (if_neg (by rw [hp]; decide)))))

theorem uuStop_stops (h : ¬ (s.fld .mc k R.UUSTAT_STATE = 1 ∧ s.fld .mc k R.UUGATE_SKIP = 0)) (h4 : s.fld .mc k R.UUSTAT_STATE ≠ 4) :
    exec (.uuStop k) s = .next (stopUu s k) := congrArg _ ((if_neg h).trans (if_neg h4))

theorem stopUu_shows (s : State) (k : Nat) : (stopUu s k).left = true ∧ (stopUu s k).fresh = s.fresh :=
  ⟨leaveJob_left _, (leaveJob_outOnly (s.setFld .mc k R.UUSTAT_STATE 4)).keeps State.fresh⟩

/-- A stop within a commit takes one free value, for the groups that it has updated. -/
theorem uuStop_inCommit (h : s.fld .mc k R.UUSTAT_STATE = 1 ∧ s.fld .mc k R.UUGATE_SKIP = 0) :
    ∃ u, exec (.uuStop k) s = .next (stopUu u k) ∧ u.fresh = s.fresh + 1 :=
  ⟨_, congrArg _ (if_pos h), (partialCommit_storedOnly _ _ _ { s with fresh := s.fresh + 1 } _).fresh⟩

/-! ### The end of a step (R361, R365) -/

/-- A step that has ended, before its notification. -/
def stepEnded (s : State) (k t : Nat) (skipped : Bool) : State :=
  (((s.setFld .mc k R.UUSTAT_CSTEP t).setFld .mc k R.UUSTAT_LASTSKIP (b2n skipped)).setFld .mc k R.UUGATE_VALID 0).setFld .mc k R.UUSTAT_STATE 0

theorem notifyStep_regs (s : State) (k t : Nat) (skipped : Bool) : (notifyStep s k t skipped).regs = s.regs := by
  rw [notifyStep]; split
  · rfl
  · exact State.post_regs ..

theorem notifyStep_mem (s : State) (k t : Nat) (skipped : Bool) : (notifyStep s k t skipped).mem = s.mem := by
  rw [notifyStep]; split
  · rfl
  · exact State.post_mem ..

theorem reg_endStep (t : Nat) (skipped : Bool) (a : Nat) : (endStep s k t skipped).reg a = (stepEnded s k t skipped).reg a :=
  congrArg (mget resetOf · a) (notifyStep_regs (stepEnded s k t skipped) k t skipped)

theorem byte_endStep (t : Nat) (skipped : Bool) (a : Nat) : (endStep s k t skipped).byte a = s.byte a :=
  congrArg (mget memDefault · a) (notifyStep_mem (stepEnded s k t skipped) k t skipped)

theorem fld_endStep (t : Nat) (skipped : Bool) (f : Fld) : (endStep s k t skipped).fld .mc k f = (stepEnded s k t skipped).fld .mc k f :=
  congrArg (wget · f.hi f.lo) (reg_endStep t skipped _)

theorem endStep_shows {t : Nat} (ht : t < 2 ^ 32) (skipped : Bool) : let u := endStep s k t skipped
    u.fld .mc k R.UUSTAT_CSTEP = t ∧ u.fld .mc k R.UUSTAT_LASTSKIP = (if skipped then 1 else 0) ∧ u.fld .mc k R.UUGATE_VALID = 0 ∧ u.fld .mc k R.UUSTAT_STATE = 0 := by
  refine ⟨?_, ?_, ?_, ?_⟩ <;> rw [fld_endStep, stepEnded]
  · rw [fld_setFld_apart _ (by decide) (by decide), fld_setFld_apart _ (by decide) (by decide), fld_setFld_apart _ (by decide) (by decide),
      State.fld_setFld_self _ _ (by decide) (by decide)]
    exact Nat.mod_eq_of_lt ht
  · rw [fld_setFld_apart _ (by decide) (by decide), fld_setFld_apart _ (by decide) (by decide), State.fld_setFld_self _ _ (by decide) (by decide)]
    cases skipped <;> rfl
  · rw [fld_setFld_apart _ (by decide) (by decide), State.fld_setFld_self _ _ (by decide) (by decide)]; rfl
  · rw [State.fld_setFld_self _ _ (by decide) (by decide)]; rfl

theorem endStep_otherReg (t : Nat) (skipped : Bool) {a : Nat} (hs : a ≠ regAddr .mc k R.UUSTAT) (hg : a ≠ regAddr .mc k R.UUGATE) :
    (endStep s k t skipped).reg a = s.reg a := by
  have hstat : ∀ (u : State) (f : Fld) v, f.off = R.UUSTAT → (u.setFld .mc k f v).reg a = u.reg a := fun u f v ho => by rw [State.reg_setFld, ho, if_neg hs]
  have hgate : ∀ (u : State) (f : Fld) v, f.off = R.UUGATE → (u.setFld .mc k f v).reg a = u.reg a := fun u f v ho => by rw [State.reg_setFld, ho, if_neg hg]
  rw [reg_endStep, stepEnded, hstat _ _ _ rfl, hgate _ _ _ rfl, hstat _ _ _ rfl, hstat _ _ _ rfl]

/-! ### The copier (R480, R483) -/

theorem copierSends_staged (hc : s.fld .mc k R.TWCOPY_STATE = 1) {pg : StagedPage} {rest : List StagedPage} (h : (s.mc k).staged = pg :: rest) :
    exec (.copierPageSend k) s = .next (sendPage (showStaged (s.setMc k { s.mc k with staged := rest }) k) k pg) := by
  rw [exec_copierPageSend, execCopierPageSend]
  simp only [hc, h, ne_eq, not_true_eq_false, if_false]

theorem copierSends_protected (hc : s.fld .mc k R.TWCOPY_STATE = 1) {p : Nat} (h : (s.mc k).staged = [])
    (hp : (shardPages s k).find? (fun p => isProt s k p && !(s.mc k).staging.contains p) = some p) :
    exec (.copierPageSend k) s = .next (sendPage (clearProt s k p) k (pageImage s k p)) := by
  rw [exec_copierPageSend, execCopierPageSend]
  simp only [hc, h, hp, ne_eq, not_true_eq_false, if_false]

theorem generation_completes (hc : s.fld .mc k R.TWCOPY_STATE = 1) (hl : s.fld .mc k R.TWCOPY_LEFT = 0) (hd : (s.mc k).staged = [])
    (hg : (s.mc k).staging = []) (hb : copierBusy s k = false) :
    exec (.generationComplete k) s = .next (
      finishCommit (((copierHeader s k true).setFld .mc k R.TWCOPY_SLOT (1 - (copierHeader s k true).fld .mc k R.TWCOPY_SLOT)).setFld .mc k R.TWCOPY_STATE 0) k) :=
  congrArg _ (if_pos ⟨hc, hl, by rw [hd]; rfl, by rw [hg]; rfl, by rw [hb]; rfl⟩)

theorem copierOn_enabled (s : State) (k : Nat) : (setCopier s k true).fld .mc k R.TWCOPY_EN = 1 := by
  have hen : (s.setFld .mc k R.TWCOPY_EN 1).fld .mc k R.TWCOPY_EN = 1 := State.fld_setFld_self s 1 (by decide) (by decide)
  rw [setCopier, if_pos rfl]
  dsimp only
  split
  · exact (fld_setFld_apart _ (by decide) (by decide)).trans hen
  · exact hen

/-- The copier disabled in `TWCOPY`, with no page left to send. -/
def copierDisabled (s : State) (k : Nat) : State := ((s.setFld .mc k R.TWCOPY_EN 0).setFld .mc k R.TWCOPY_STATE 2).setFld .mc k R.TWCOPY_LEFT 0

/-- No page of a stack protected. -/
def protCleared (s : State) (k : Nat) : State := (List.range 512).foldl (fun s w => s.setReg (regAddr .mc k (R.MCPROT w)) 0) s

/-- A disabled copier, before the writes that waited are accepted (R483). -/
def copierOff (s : State) (k : Nat) : State :=
  showStaged ((protCleared (copierDisabled s k) k).setMc k { s.mc k with staged := [], staging := [], writeWait := [] }) k

/-- The protection bits lie in registers of their own. -/
theorem fld_protCleared (s : State) {f : Fld} (ho : 0x3000 ≤ f.off) : (protCleared s k).fld .mc k f = s.fld .mc k f := by
  refine foldl_keeps (fun u => u.fld .mc k f) _ (fun u w hw => ?_) s
  have hoff : f.off ≠ R.MCPROT w := by
    have hw512 : w < 512 := List.mem_range.mp hw
    simp only [R.MCPROT]; omega
  show wget ((u.setReg (regAddr .mc k (R.MCPROT w)) 0).reg (regAddr .mc k f.off)) f.hi f.lo = _
  rw [State.reg_setReg, if_neg (blockAddr_ne .mc k hoff)]
  rfl

/-- A field above the protection bits but `TWCOPY.STAGED`. -/
theorem fld_copierOff {f : Fld} (ho : 0x3000 ≤ f.off) (ha : R.TWCOPY_STAGED.Apart f) : (copierOff s k).fld .mc k f = (copierDisabled s k).fld .mc k f := by
  rw [copierOff, showStaged, fld_setFld_apart _ (by decide) ha, State.fld_setMc, fld_protCleared _ ho]

theorem copierOff_en : (copierOff s k).fld .mc k R.TWCOPY_EN = 0 := by
  rw [fld_copierOff (by decide) (by decide), copierDisabled, fld_setFld_apart _ (by decide) (by decide), fld_setFld_apart _ (by decide) (by decide),
    State.fld_setFld_self _ _ (by decide) (by decide)]
  rfl

theorem copierOff_state : (copierOff s k).fld .mc k R.TWCOPY_STATE = 2 := by
  rw [fld_copierOff (by decide) (by decide), copierDisabled, fld_setFld_apart _ (by decide) (by decide), State.fld_setFld_self _ _ (by decide) (by decide)]
  rfl

theorem copierOff_uuState : (copierOff s k).fld .mc k R.UUSTAT_STATE = s.fld .mc k R.UUSTAT_STATE := by
  rw [fld_copierOff (by decide) (by decide), copierDisabled, fld_setFld_off _ (by decide), fld_setFld_off _ (by decide), fld_setFld_off _ (by decide)]

/-- With the copier disabled no page is protected (R483). -/
theorem isProt_disabled (h : s.fld .mc k R.TWCOPY_EN = 0) (p : Nat) : isProt s k p = false := by
  rw [isProt, h]; rfl

theorem finishCommit_other (h : s.fld .mc k R.UUSTAT_STATE ≠ 3) : finishCommit s k = s := if_neg fun hc => h hc.1

/-- Where no write waits and no commit waits for the copier, nothing follows. -/
theorem setCopier_off (hw : (s.mc k).writeWait = []) (hu : s.fld .mc k R.UUSTAT_STATE ≠ 3) : setCopier s k false = copierOff s k := by
  have hoff : setCopier s k false = finishCommit ((s.mc k).writeWait.foldl acceptHbm (copierOff s k)) k := rfl
  rw [hoff, hw]
  exact finishCommit_other (by rw [List.foldl_nil, copierOff_uuState]; exact hu)

theorem copierOff_staged : ((copierOff s k).mc k).staged = [] := by
  rw [copierOff, showStaged, State.mc_setFld, State.mc_setMc_self]

end

/-- Settles O40: the gate by the write of `UUGATE`, each end of a commit by its branch, the end of a step by the fields it sets, and the copier by `TWCOPY`. -/
theorem updateUnits : Obligations.UpdateUnits := by
  refine ⟨fun s k v hk hv => ⟨fun h0 hen hstep hclip => ?_, uugateWrite_refused hv⟩,
    fun s k h => ⟨commitEnd_skips h, commitEnd_stops h, commitEnd_writes h⟩,
    fun s k t skipped _ ht => ?_, fun s k => uuStop_stops, fun s k h => ?_,
    fun s k hc => ⟨fun pg rest => copierSends_staged hc, fun p => copierSends_protected hc, generation_completes hc⟩,
    fun s k _ => ⟨rfl, copierOn_enabled s k, rfl, fun hw hu => ?_⟩⟩
  · obtain ⟨hstate, hseg, hst⟩ := gateTaken_shows (s := s) hk v
    exact ⟨_, uugateWrite_taken hk hv ⟨h0, hen, hstep, hclip⟩, hstate, hseg, hst, gateTaken_onlyIn hk v⟩
  · obtain ⟨hstep, hskip, hvalid, hstate⟩ := endStep_shows (s := s) (k := k) ht skipped
    exact ⟨hstep, hskip, hvalid, hstate, byte_endStep t skipped, fun a => endStep_otherReg t skipped⟩
  · obtain ⟨u, hexec, hfresh⟩ := uuStop_inCommit h
    obtain ⟨hleft, hkeeps⟩ := stopUu_shows u k
    exact ⟨_, hexec, hleft, hkeeps.trans hfresh⟩
  · rw [setCopier_off hw hu]
    exact ⟨copierOff_en, copierOff_state, copierOff_staged, fun p _ => isProt_disabled copierOff_en p⟩

end Sys2Proof.Machine
end

section
/-!
SUPPORT. The set engine's orders (R397, R684): SSORT is the library's insertion sort and SMERGE its merge, under the total preorder that a record's key gives.
-/

namespace Sys2Proof.Machine

/-! ### The order of records -/

/-- Whether a record may stand before another: the other's key does not go before its own. -/
def mayPrecede (k : Nat) (desc : Bool) (a b : List Byte) : Bool := !goesBefore desc (keyOf k b) (keyOf k a)

section
variable (k : Nat) (desc : Bool)

theorem mayPrecede_iff {a b : List Byte} : mayPrecede k desc a b = true ↔ if desc then keyOf k b ≤ keyOf k a else keyOf k a ≤ keyOf k b := by
  cases desc <;> simp [mayPrecede, goesBefore]

theorem mayPrecede_total (a b : List Byte) : mayPrecede k desc a b = true ∨ mayPrecede k desc b a = true := by
  simp only [mayPrecede_iff]
  cases desc <;> exact Nat.le_total _ _

theorem mayPrecede_trans (a b c : List Byte) : mayPrecede k desc a b = true → mayPrecede k desc b c = true → mayPrecede k desc a c = true := by
  simp only [mayPrecede_iff]
  cases desc
  · exact Nat.le_trans
  · exact flip Nat.le_trans

/-- Keys are in order where each record may stand before those that follow it. -/
theorem keys_pairwise_iff {l : List (List Byte)} :
    ((l.map (keyOf k)).Pairwise fun a b => if desc then b ≤ a else a ≤ b) ↔ l.Pairwise fun a b => mayPrecede k desc a b = true := by
  simp only [List.pairwise_map, mayPrecede_iff]

/-! ### SSORT -/

theorem sortInsert_eq_orderedInsert (r : List Byte) : ∀ l, sortInsert k desc r l = l.orderedInsert (fun a b => mayPrecede k desc a b = true) r
  | [] => rfl
  | x :: xs => by
    rw [sortInsert, List.orderedInsert_cons, sortInsert_eq_orderedInsert r xs, mayPrecede]
    cases goesBefore desc (keyOf k x) (keyOf k r) <;> rfl

theorem sortRecs_eq_insertionSort (l : List (List Byte)) : sortRecs k desc l = l.insertionSort fun a b => mayPrecede k desc a b = true := by
  rw [sortRecs, List.insertionSort]
  congr 1
  funext r xs
  exact sortInsert_eq_orderedInsert k desc r xs

theorem sortRecs_perm (l : List (List Byte)) : (sortRecs k desc l).Perm l := by
  rw [sortRecs_eq_insertionSort]
  exact List.perm_insertionSort _ l

theorem sortRecs_pairwise (l : List (List Byte)) : (sortRecs k desc l).Pairwise fun a b => mayPrecede k desc a b = true := by
  rw [sortRecs_eq_insertionSort]
  have : Std.Total fun a b => mayPrecede k desc a b = true := ⟨mayPrecede_total k desc⟩
  have : IsTrans _ fun a b => mayPrecede k desc a b = true := ⟨mayPrecede_trans k desc⟩
  exact List.pairwise_insertionSort _ l

/-! ### SMERGE -/

/-- A bound of all the records lets SMERGE merge both runs to their ends. -/
theorem mergeRecs_eq_merge : ∀ (n : Nat) (xs ys : List (List Byte)), xs.length + ys.length ≤ n → mergeRecs k desc n xs ys = xs.merge ys (mayPrecede k desc)
  | 0, [], ys, _ => (List.nil_merge ys).symm
  | 0, _ :: _, _, h => by simp at h
  | _ + 1, [], ys, _ => by rw [mergeRecs, List.nil_merge]
  | _ + 1, x :: xs, [], _ => by simp [mergeRecs]
  | n + 1, x :: xs, y :: ys, h => by
    simp only [List.length_cons] at h
    have hy : mergeRecs k desc n (x :: xs) ys = (x :: xs).merge ys (mayPrecede k desc) := mergeRecs_eq_merge n _ _ (by simp only [List.length_cons]; omega)
    have hx : mergeRecs k desc n xs (y :: ys) = xs.merge (y :: ys) (mayPrecede k desc) := mergeRecs_eq_merge n _ _ (by simp only [List.length_cons]; omega)
    rw [mergeRecs, hx, hy, List.cons_merge_cons, mayPrecede]
    cases goesBefore desc (keyOf k y) (keyOf k x) <;> rfl

end

/-- Settles O30: the sort and the merge are the library's, under a preorder that is total. -/
theorem sortsInOrder : Obligations.SortsInOrder := by
  intro k desc xs ys ok
  refine ⟨sortRecs_perm k desc xs, (keys_pairwise_iff k desc).mpr (sortRecs_pairwise k desc xs), fun hx hy => ?_⟩
  rw [mergeRecs_eq_merge k desc _ xs ys le_rfl]
  exact ⟨List.merge_perm_append _, (keys_pairwise_iff k desc).mpr
    (List.pairwise_merge (mayPrecede_trans k desc) (fun a b => by simpa using mayPrecede_total k desc a b) xs ys
      ((keys_pairwise_iff k desc).mp hx) ((keys_pairwise_iff k desc).mp hy))⟩

end Sys2Proof.Machine
end

section
/-!
SUPPORT. The start of a transfer (R661): each kind of operation takes one branch of `dmaStart`, which the conditions of its clause name.
-/

namespace Sys2Proof.Machine

/-- Settles O18: the branch of each kind, by its conditions in the order in which they are tested. -/
theorem transferForms : Obligations.TransferForms := by
  rintro s t c pc id ⟨op, jw, d, base, ein, eout⟩ l d src j offs go
  refine ⟨fun h => if_pos h, fun hl => ⟨?load, ?loadConv, ?store, ?storeConv, ?storeRows, ?bucketAsks, ?bucketGoes, ?readAsks, ?readFails, ?write, ?jwrite, ?landed⟩⟩
  case load =>
    rintro rfl hc
    have hreads (plane) : (offs d.src d.len ++ if d.conv then plane else []) = offs d.src d.len := by rw [if_neg (ne_true_of_eq_false hc), List.append_nil]
    exact (if_neg hl).trans (congrArg (fun r => go s { j with ready := true, toRead := r }) (hreads _))
  case loadConv =>
    rintro rfl hc
    exact (if_neg hl).trans (congrArg (fun r => go s { j with ready := true, toRead := offs d.src d.len ++ r }) (if_pos hc))
  case store =>
    rintro rfl hb hf hc
    exact (if_neg hl).trans <| (if_neg (ne_true_of_eq_false hb)).trans <| (if_neg hf).trans (if_neg (ne_true_of_eq_false hc))
  case storeConv =>
    rintro rfl hb hf hc
    exact (if_neg hl).trans <| (if_neg (ne_true_of_eq_false hb)).trans <| (if_neg hf).trans (if_pos hc)
  case storeRows =>
    rintro rfl hb hf
    refine (if_neg hl).trans <| (if_neg (ne_true_of_eq_false hb)).trans <| (if_pos hf).trans ?_
    cases rgStore (fun o n => ownRd s t (d.src - spadAddr t 0 + o) n) (Config.rgcsr d.w0.toNat d.w1.toNat d.w2.toNat d.w3.toNat) <;> rfl
  case bucketAsks =>
    rintro rfl hb hk
    exact (if_neg hl).trans <| (if_pos hb).trans (if_pos hk)
  case bucketGoes =>
    rintro rfl hb hk
    exact (if_neg hl).trans <| (if_pos hb).trans (if_neg hk)
  case readAsks =>
    rintro rfl hr
    exact (if_neg hl).trans <| if_neg fun h => hr.elim h.1 fun hx => Bool.false_ne_true ((congrArg not hx).symm.trans h.2)
  case readFails =>
    rintro rfl ho hr
    exact (if_neg hl).trans (if_pos ⟨ho, congrArg not hr⟩)
  case write =>
    rintro rfl hj
    exact (if_neg hl).trans (if_neg (ne_true_of_eq_false hj))
  case jwrite =>
    rintro rfl hj
    exact (if_neg hl).trans (if_pos hj)
  case landed =>
    rintro rfl
    exact if_neg hl

end Sys2Proof.Machine
end

section
/-!
SUPPORT. The receiving end of a CXT path (R426-R430): which check of R430 a packet meets, and how the packet whose turn has come takes effect.
-/

namespace Sys2Proof.Machine

variable {s u v : State} {p : CxtPkt} {f : State → CxtPkt → Nat × State} {g : State → CxtPkt → State} {op st : Nat}

/-! ### The checks of R430 -/

theorem receive_discarded (h : portUp s p.port = false ∨ s.fld .ld (p.port / 2) R.CXCFG_EN = 0 ∨ p.fcsOk = false ∨ p.hdr.ver ≠ 0x20) : receive f g s p = s :=
  if_pos (by simpa using h)

/-- A packet of another device number or generation is counted and answered with STALE_EPOCH. -/
theorem receive_stale (hu : portUp s p.port = true) (he : s.fld .ld (p.port / 2) R.CXCFG_EN ≠ 0) (hf : p.fcsOk = true) (hv : p.hdr.ver = 0x20) (hc : p.ce = false)
    (hn : numbered p.hdr.op = true) (hs : p.hdr.ddev ≠ s.fld .ld (p.port / 2) R.CXCFG_DEV ∨ p.hdr.aliasGen ≠ s.fld .ld (p.port / 2) R.CXEPOCH_ALIAS) :
    receive f g s p = sendStale (cxCount s p.port R.CXCNT_STALE) p := by
  have hack : (p.hdr.op == opACK) = false := by
    simp only [numbered, Bool.not_eq_true', Bool.or_eq_false_iff] at hn; exact hn.1.1
  unfold receive
  simp [hu, he, hf, hv, hc, hack, hs, hn]

theorem receive_plain (h : Arrives s p) (hn : numbered p.hdr.op = false) : receive f g s p = g s p := by
  unfold receive
  simp [h.up, h.enabled, h.frame, h.version, h.unmarked, h.device, h.generation, hn]

/-- A packet that has come before is acknowledged again. -/
theorem receive_duplicate (h : Arrives s p) (hn : numbered p.hdr.op = true) (hd : psnBefore p.hdr.psn (s.recvPath (pathOf p)).next = true) :
    receive f g s p = sendAck (cxCount s p.port R.CXCNT_DUP) p.port p.hdr.sdev p.hdr.path (s.recvPath (pathOf p)).last false := by
  change psnBefore p.hdr.psn (s.recvPath (pathKey p.hdr.sdev p.hdr.path)).next = true at hd
  unfold receive
  simp [h.up, h.enabled, h.frame, h.version, h.unmarked, h.device, h.generation, hn, hd, pathOf]

theorem psnBefore_self (n : Nat) : psnBefore n n = false := by simp [psnBefore]

@[simp] theorem recvPath_setRecvPath (s : State) (k : Nat) (r : RecvPath) : (s.setRecvPath k r).recvPath k = r := mget_mput_self

theorem recvPath_placed (s : State) (p : CxtPkt) :
    (placed s p).recvPath (pathOf p) = { s.recvPath (pathOf p) with early := [p], ld := p.port / 2 } := recvPath_setRecvPath ..

/-- The packet whose turn has come stands alone at the end of its path, which is drained of it. -/
theorem receive_inTurn (h : InTurn s p) (hn : numbered p.hdr.op = true) : receive f g s p = drainPath f (placed s p) (pathOf p) 1 := by
  obtain ⟨ha, hb, ht, he⟩ := h
  change p.hdr.psn = (s.recvPath (pathKey p.hdr.sdev p.hdr.path)).next at ht
  change (s.recvPath (pathKey p.hdr.sdev p.hdr.path)).early = [] at he
  unfold receive
  simp [ha.up, ha.enabled, ha.frame, ha.version, ha.unmarked, ha.device, ha.generation, hn, hb, ht, he, psnBefore_self, placed, pathOf]

/-! ### The head of a path -/

theorem drainPath_placed_waits (h : landPkt f (placed s p) p = none) (ht : p.hdr.psn = (s.recvPath (pathOf p)).next) :
    drainPath f (placed s p) (pathOf p) 1 = placed s p := by
  simp [drainPath, recvPath_placed, ht, h]

theorem drainPath_placed_lands (h : landPkt f (placed s p) p = some (st, v)) (ht : p.hdr.psn = (s.recvPath (pathOf p)).next) :
    drainPath f (placed s p) (pathOf p) 1 = passed (placed s p) v p st := by
  simp [drainPath, recvPath_placed, ht, h, passed, accepted]

/-! ### The packets of an operation -/

theorem receiveOp_waits (h : InTurn s (asOp p op)) (hn : numbered op = true) (hl : landPkt landGate (placed s (asOp p op)) (asOp p op) = none) :
    receiveOp s p op = placed s (asOp p op) :=
  (receive_inTurn h hn).trans (drainPath_placed_waits hl h.turn)

theorem receiveOp_lands (h : InTurn s (asOp p op)) (hn : numbered op = true) (hl : landPkt landGate (placed s (asOp p op)) (asOp p op) = some (st, v)) :
    receiveOp s p op = passed (placed s (asOp p op)) v (asOp p op) st :=
  (receive_inTurn h hn).trans (drainPath_placed_lands hl h.turn)

theorem landPkt_rdata (h : p.hdr.op = opRDATA) : landPkt f s p = some (stOK, deliverRdata s p) := by
  simp [landPkt, h]

/-- An operation that reaches neither a tile nor HBM is the gatehouse's. -/
theorem landPkt_gate (h : p.hdr.op = opBARRIER ∨ p.hdr.op = opCTRL) : landPkt f s p = some (f s p) := by
  obtain h | h := h <;> simp [landPkt, h]

theorem passed_sameAlias (h : v.fld .ld 0 R.CXEPOCH_ALIAS = u.fld .ld 0 R.CXEPOCH_ALIAS) : passed u v p st = accepted v p st := if_pos h

end Sys2Proof.Machine
end

section
/-!
SUPPORT. The CXT packets without a turn in their path, and the data of a READ (R428, R430, R490, R749, R750).
-/

namespace Sys2Proof.Machine

variable {s : State} {p : CxtPkt} {op : Nat}

/-! ### Read data -/

/-- Data before the last are kept with the oldest READ of their path. -/
theorem deliverRdata_partial {r : CxRead} {rest : List CxRead} (h : takeFirst (fun (r : CxRead) => r.path == pathOf p) s.cxReads = some (r, rest)) (hl : p.hdr.last = false) :
    deliverRdata s p = { s with cxReads := modFirst (fun (r : CxRead) => r.path == pathOf p) (fun x => { x with got := r.got ++ p.data }) s.cxReads } := by
  unfold pathOf at *
  simp [deliverRdata, h, hl]

/-- The last data of a tile's READ reach the tile. -/
theorem deliverRdata_tile {r : CxRead} {rest : List CxRead} {t tag : Nat} (h : takeFirst (fun (r : CxRead) => r.path == pathOf p) s.cxReads = some (r, rest))
    (hl : p.hdr.last = true) (hk : r.kind = .tile t tag) (ht : s.tstate t ≠ fenced) :
    deliverRdata s p = readBack { s with cxReads := rest } t tag p.hdr.tag (r.got ++ p.data) := by
  unfold pathOf at *
  have hu : ({ s with cxReads := rest } : State).tstate t ≠ fenced := ht
  simp [deliverRdata, h, hl, hk, hu]

theorem cxtRdata_lands (h : InTurn s (asOp p opRDATA)) {v : State} (hv : deliverRdata (placed s (asOp p opRDATA)) (asOp p opRDATA) = v) :
    exec (.cxtRdata p) s = .next (pullOn (passed (placed s (asOp p opRDATA)) v (asOp p opRDATA) stOK)) := by
  subst hv
  exact congrArg (Host.Outcome.next <| pullOn ·) (receiveOp_lands h rfl (landPkt_rdata rfl))

/-! ### Packets without a number -/

/-- An acknowledgement of the device's own generation tells of no replacement. -/
theorem landPlain_ack (ho : p.hdr.op = opACK) (h : s.fld .ld 0 R.CXEPOCH_ALIAS = p.hdr.aliasGen) : landPlain s p = tryBars (takeAck s p.hdr) := by
  simp [landPlain, ho, h]

theorem landPlain_grant (ho : p.hdr.op = opGRANT) : landPlain s p = takeGrant s p := by simp [landPlain, ho]

theorem landPlain_heartbeat (ho : p.hdr.op = opHEARTBEAT) : landPlain s p = takeHeartbeat s p := by simp [landPlain, ho]

theorem receiveOp_plain (h : Arrives s (asOp p op)) (hn : numbered op = false) : receiveOp s p op = landPlain s (asOp p op) := receive_plain h hn

/-- Settles O42: each packet by the check of R430 that it meets, the data of a READ by whether they are the last. -/
theorem cxtAnswers : Obligations.CxtAnswers := by
  refine ⟨?rdata, ?plain, ?repeated, fun s p op h => receive_discarded h⟩
  case rdata =>
    intro s p q u h
    refine ⟨cxtRdata_lands h rfl, fun r rest hr => ⟨fun hl => ?_, fun t tag hl hk ht => ?_⟩⟩
    · exact (cxtRdata_lands h (deliverRdata_partial hr hl)).trans (congrArg (Host.Outcome.next <| pullOn ·) (passed_sameAlias rfl))
    · exact cxtRdata_lands h (deliverRdata_tile hr hl hk ht)
  case plain =>
    refine fun s p => ⟨fun h ha => ?_, fun h => ?_, fun h => ?_⟩
    · exact congrArg Host.Outcome.next ((receiveOp_plain h rfl).trans (landPlain_ack rfl ha))
    · exact congrArg Host.Outcome.next ((receiveOp_plain h rfl).trans (landPlain_grant rfl))
    · exact congrArg Host.Outcome.next ((receiveOp_plain h rfl).trans (landPlain_heartbeat rfl))
  case repeated =>
    intro s p op hn hu he hf hv hc
    refine ⟨fun hs => receive_stale hu he hf hv hc hn hs, fun h hd => ?_⟩
    exact receive_duplicate ⟨h.up, h.enabled, h.frame, h.version, h.unmarked, h.device, h.generation⟩ hn hd

end Sys2Proof.Machine
end

section
/-!
SUPPORT. The CXT packets that have a turn in their path (R426-R430, R445, R486, R743, R750): what each operation does at its target.
-/

namespace Sys2Proof.Machine

variable {s u v : State} {p : CxtPkt} {f : State → CxtPkt → Nat × State} {h : CxtHdr} {bs : List Byte} {n t : Nat}

/-! ### Writes -/

theorem landPkt_write (ho : p.hdr.op = opWRITE) : landPkt f s p = deliverCxWrite s p := if_pos ho

/-- The row pieces of a WRITE as the tile's port meets them. -/
def rowWrites (p : CxtPkt) : List WritePkt :=
  (rowPieces p.hdr.addr p.data.length).map fun (a, n) =>
    { addr := a, data := (p.data.drop (a - p.hdr.addr)).take n, sender := cxSender p.hdr, epoch := p.hdr.epoch, tag := 0 }

/-- One row piece meets the port of a tile: the worst status so far, and the state. -/
def landRow (t : Nat) (r : Nat × State) (w : WritePkt) : Nat × State :=
  match deliverWrite r.2 t w with
  | some q => (max r.1 q.1, q.2)
  | none => r

theorem deliverCxWrite_elsewhere (hk : kindAt s p.hdr.addr p.data.length ≠ .spad) : deliverCxWrite s p = some (stADDRESS, s) := if_pos hk

theorem deliverCxWrite_lands (ht : (p.hdr.addr - spadAddr 0 0) / 0x20_0000 = t) (hk : kindAt s p.hdr.addr p.data.length = .spad)
    (hw : ∀ w ∈ rowWrites p, writeCheck s t w = stOK → writeWaits s t w = false) : deliverCxWrite s p = some ((rowWrites p).foldl (landRow t) (stOK, s)) := by
  subst ht
  have hnone : ((rowWrites p).any fun w => writeCheck s ((p.hdr.addr - spadAddr 0 0) / 0x20_0000) w == stOK &&
      writeWaits s ((p.hdr.addr - spadAddr 0 0) / 0x20_0000) w) = false := by
    simpa [List.any_eq_false] using hw
  exact (if_neg (not_not.mpr hk)).trans (if_neg (ne_true_of_eq_false hnone))

/-! ### Writes of the partner -/

theorem landPkt_jwrite (ho : p.hdr.op = opJWRITE) : landPkt f s p = deliverJwrite s p := by simp [landPkt, ho]

/-- A JWRITE of the partner into the twin region of the addressed stack. -/
structure JwriteFits (s : State) (p : CxtPkt) : Prop where
  paired : s.fld .ld 0 R.TWCFG_PAIREN ≠ 0
  partner : p.hdr.sdev = s.fld .ld 0 R.TWCFG_PARTNER
  hbm : p.hdr.addr < 0x80_0000_0000
  enabled : s.fld .mc (hbmPlace s p.hdr.addr).1 R.TWREGION_EN ≠ 0
  above : s.fld .mc (hbmPlace s p.hdr.addr).1 R.TWREGION_BASE ≤ p.hdr.addr
  below : p.hdr.addr + p.data.length ≤ s.fld .mc (hbmPlace s p.hdr.addr).1 R.TWREGION_BASE + twinSize s (hbmPlace s p.hdr.addr).1

/-- What the copier has staged of the page that a JWRITE reaches. -/
abbrev jwriteStage (s : State) (p : CxtPkt) : Bool × State := stageFor s (hbmPlace s p.hdr.addr).1 (pageOf (blockKey s p.hdr.addr))

theorem JwriteFits.passes (h : JwriteFits s p) : ¬ (s.fld .ld 0 R.TWCFG_PAIREN = 0 ∨ p.hdr.sdev ≠ s.fld .ld 0 R.TWCFG_PARTNER ∨ p.hdr.addr ≥ 0x80_0000_0000 ∨
    s.fld .mc (hbmPlace s p.hdr.addr).1 R.TWREGION_EN = 0 ∨ p.hdr.addr < s.fld .mc (hbmPlace s p.hdr.addr).1 R.TWREGION_BASE ∨
    p.hdr.addr + p.data.length > s.fld .mc (hbmPlace s p.hdr.addr).1 R.TWREGION_BASE + twinSize s (hbmPlace s p.hdr.addr).1) := by
  obtain ⟨hp, hs, ha, he, hlo, hhi⟩ := h
  simp only [hp, hs, he, ne_eq, not_true_eq_false, false_or]
  omega

/-- A JWRITE that the MC takes is stored, or refused where its block is not DENSE. -/
theorem deliverJwrite_taken (hf : JwriteFits s p) (hb : blockHeld s p.hdr.addr = false) (hr : (jwriteStage s p).1 = true) :
    deliverJwrite s p = some ((hbmStore (jwriteStage s p).2 p.hdr.addr (p.blk.map fun b => (b.form, b.len)) p.data).elim (stACCESS, (jwriteStage s p).2) (stOK, ·)) := by
  refine (if_neg hf.passes).trans <| (if_neg (ne_true_of_eq_false hb)).trans <| (if_neg (by rw [hr]; decide)).trans ?_
  cases hbmStore (jwriteStage s p).2 p.hdr.addr (p.blk.map fun b => (b.form, b.len)) p.data <;> rfl

/-! ### Messages -/

/-- A SEND to a basin alone may carry a layout epoch that is stale. -/
theorem landPkt_send_part (ho : p.hdr.op = opSEND) (hb : toBasin s p.hdr = false) (hl : p.hdr.last = false) :
    landPkt f s p = some (stOK, s.setRecvPath (pathOf p) { s.recvPath (pathOf p) with part := (s.recvPath (pathOf p)).part ++ p.data }) := by
  simp [landPkt, ho, staleLayout, hb, hl, pathOf]

theorem landPkt_send_last (ho : p.hdr.op = opSEND) (hb : toBasin s p.hdr = false) (hl : p.hdr.last = true) {st : Nat}
    (hd : deliverCxSend s p.hdr ((s.recvPath (pathOf p)).part ++ p.data) = some (st, v)) :
    landPkt f s p = some (st, v.setRecvPath (pathOf p) { v.recvPath (pathOf p) with part := [] }) := by
  unfold pathOf at *
  simp [landPkt, ho, staleLayout, hb, hl, hd]

/-- The message of a SEND to a queue. -/
def sentMsg (h : CxtHdr) (n : Nat) (bs : List Byte) : Msg :=
  { queue := n, chan := h.path, sender := cxSender h, epoch := h.epoch, desc := Desc.ofBytes (bs.take 32), payload := bs.drop 32, tag := 0 }

theorem queueAddr_parts (ha : h.addr = regAddr .tile t (R.QCFG n)) (hn : n < 16) :
    regAddr .tile 0 0 ≤ h.addr ∧ (h.addr - regAddr .tile 0 0) / 0x1_0000 = t ∧ h.addr % 0x1_0000 = R.QCFG n ∧ (R.QCFG n - R.QCFG 0) / 0x20 = n := by
  simp only [regAddr, R.QCFG] at *; omega

theorem deliverCxSend_queue (ha : h.addr = regAddr .tile t (R.QCFG n)) (hn : n < 16) (ht : t < 2048) (hb : s.bound t = true) (hq : toBasin s h = false)
    (hd : (Desc.ofBytes (bs.take 32)).legal = true) (hc : descCheck s t (sentMsg h n bs) = stOK) (hw : arrivalWaits s t (sentMsg h n bs) = false) :
    deliverCxSend s h bs = some (stOK, settle (acceptMsg s t (sentMsg h n bs)) t) := by
  obtain ⟨hlo, htile, hoff, hidx⟩ := queueAddr_parts ha hn
  have hmode : ¬ 2 ≤ s.tf t (R.QCFG_MODE n) := by
    simpa [toBasin, htile, hoff, hidx, Nat.mod_eq_of_lt hn, State.tf] using hq
  have hrange : R.QCFG 0 ≤ R.QCFG n ∧ R.QCFG n < R.QCFG 16 ∧ R.QCFG n % 0x20 = 0 := by simp only [R.QCFG]; omega
  unfold deliverCxSend
  dsimp only
  rw [htile, hoff, hidx, if_neg (by simp only [hb, Bool.not_true, Bool.false_eq_true, false_or]; omega), if_neg (by simp [hd])]
  simp only [hmode, decide_false, Bool.false_and, Bool.false_eq_true, if_false]
  exact (if_neg (not_not.mpr hc)).trans (if_neg (ne_true_of_eq_false hw))

/-! ### Reads -/

theorem landPkt_read (ho : p.hdr.op = opREAD) : landPkt f s p = deliverCxRead s p.hdr := by simp [landPkt, ho]

/-- The answer to a READ. -/
def readReply (h : CxtHdr) (s : State) (status : Nat) (blk : Option BlockMeta) (bs : List Byte) : State :=
  cxtEmit s h.sdev h.path roleFABRIC { baseHdr s opRDATA h.sdev h.path with addr := h.addr, last := true, tag := status } blk bs .none

theorem deliverCxRead_block (hk : kindAt s h.addr h.dlen = .hbm) (hb : blockHeld s h.addr = false) (ha : h.addr % 4096 = 0) (hl : h.dlen = 4096) :
    deliverCxRead s h = some (stOK, readReply h s stOK (some ⟨blockCrc (blockForm s h.addr).1 (blockForm s h.addr).2 (hbmBytes s h.addr h.dlen),
      (blockForm s h.addr).1, (blockForm s h.addr).2⟩) (hbmBytes s h.addr h.dlen)) := by
  rw [hl] at hk ⊢
  simp [deliverCxRead, hl, hk, hb, ha, readReply]

section
variable (hn : h.dlen ≤ 4096)
include hn

theorem deliverCxRead_part (hk : kindAt s h.addr h.dlen = .hbm) (hb : blockHeld s h.addr = false) (hp : h.addr % 4096 ≠ 0 ∨ h.dlen ≠ 4096) :
    deliverCxRead s h = some (stOK, readReply h s stOK none (hbmBytes s h.addr h.dlen)) := by
  have hblock : ¬ (h.addr % 4096 = 0 ∧ h.dlen = 4096) := by omega
  simp [deliverCxRead, Nat.not_lt.mpr hn, hk, hb, hblock, readReply]

theorem deliverCxRead_tile (ht : (h.addr - spadAddr 0 0) / 0x20_0000 = t) (hk : kindAt s h.addr h.dlen = .spad) {par : Parity} {st : Nat}
    (hp : freeParity s (h.addr - spadAddr t 0) h.dlen = (par, u)) (hs : serveRead u t (h.addr - spadAddr t 0) h.dlen par = (st, bs, v)) : deliverCxRead s h = some (stOK, readReply h v st none bs) := by
  subst ht
  simp [deliverCxRead, Nat.not_lt.mpr hn, hk, hp, hs, readReply]

theorem deliverCxRead_other (hk : kindAt s h.addr h.dlen = .other) : deliverCxRead s h = some (stADDRESS, s) := by
  simp [deliverCxRead, Nat.not_lt.mpr hn, hk]

end

/-! ### The gatehouse's packets -/

theorem landGate_barrier (ho : p.hdr.op = opBARRIER) : landGate s p = (stOK, landBarrier s p) := if_pos ho

theorem landGate_ctrl (ho : p.hdr.op = opCTRL) : landGate s p = landCtrl s p := by simp [landGate, ho]

/-- Settles O41: each operation by what it does at its target, in the state in which the packet stands at the end of its path. -/
theorem cxtDelivers : Obligations.CxtDelivers := by
  refine ⟨?turn, ?write, ?jwrite, ?send, ?read, ?barrier⟩
  case turn =>
    intro s p q i hi h u
    obtain ⟨p', op, hn, rfl, he⟩ : ∃ p' op, numbered op = true ∧ q = asOp p' op ∧ exec i s = .next (receiveOp s p' op) := by
      rcases hi with ⟨rfl, rfl⟩ | ⟨rfl, rfl⟩ | ⟨rfl, rfl⟩ | ⟨rfl, rfl⟩ | ⟨rfl, rfl⟩ | ⟨rfl, rfl⟩ | ⟨rfl, rfl⟩ | ⟨rfl, rfl⟩ | ⟨rfl, rfl⟩ | ⟨rfl, rfl⟩ |
        ⟨rfl, rfl⟩ | ⟨rfl, rfl⟩ | ⟨rfl, rfl⟩ | ⟨rfl, rfl⟩ | ⟨rfl, rfl⟩ | ⟨rfl, rfl⟩ <;> exact ⟨_, _, rfl, rfl, rfl⟩
    have hctrl (ho : op = opCTRL) {r : Nat × State} (hr : landCtrl u (asOp p' op) = r) : exec i s = .next (passed u r.2 (asOp p' op) r.1) := by
      subst hr
      exact he.trans (congrArg _ (receiveOp_lands h hn ((landPkt_gate (.inr ho)).trans (congrArg some (landGate_ctrl ho)))))
    refine ⟨he.trans (congrArg _ ?_), fun ho hl => hctrl ho (if_pos hl), fun ho hl => hctrl ho (if_neg hl)⟩
    cases hl : landPkt landGate u (asOp p' op) with
    | none => exact receiveOp_waits h hn hl
    | some r => exact receiveOp_lands h hn hl
  case write =>
    intro s p q u a t ps h
    refine ⟨fun hk => ?_, fun hk hw => ?_⟩
    · exact congrArg _ (receiveOp_lands h rfl ((landPkt_write rfl).trans (deliverCxWrite_elsewhere hk)))
    · exact congrArg _ (receiveOp_lands h rfl ((landPkt_write rfl).trans (deliverCxWrite_lands rfl hk hw)))
  case jwrite =>
    intro s p q u a k base r h hp hs ha he hlo hhi hb hr
    have hf : JwriteFits u q := ⟨hp, hs, ha, he, hlo, hhi⟩
    have taken {o : Option State} (ho : hbmStore (jwriteStage u q).2 a (p.blk.map fun b => (b.form, b.len)) p.data = o) :
        exec (.cxtJwrite p) s = .next (passed u (o.elim (stACCESS, r.2) (stOK, ·)).2 q (o.elim (stACCESS, r.2) (stOK, ·)).1) := by
      subst ho
      exact congrArg _ (receiveOp_lands h rfl ((landPkt_jwrite rfl).trans (deliverJwrite_taken hf hb hr)))
    refine ⟨fun b hblk => taken (o := some _) ?_, fun hblk hform => taken (o := some _) ?_, fun hblk hform => taken (o := none) ?_⟩
    · rw [hblk]; rfl
    · rw [hblk]; exact if_pos hform
    · rw [hblk]; exact if_neg hform
  case send =>
    intro s p q u k bs t n d m h hb
    refine ⟨fun hl => ?_, fun hl hn ha ht hbd hd hc hw => ?_⟩
    · exact congrArg _ (receiveOp_lands h rfl (landPkt_send_part rfl hb hl))
    · exact congrArg _ (receiveOp_lands h rfl (landPkt_send_last rfl hb hl (deliverCxSend_queue ha hn ht hbd hb hd hc hw)))
  case read =>
    intro s p q u a n hdr h hn
    have answered {st : Nat} {v : State} (hv : deliverCxRead u q.hdr = some (st, v)) : exec (.cxtRead p) s = .next (passed u v q st) :=
      congrArg _ (receiveOp_lands h rfl ((landPkt_read rfl).trans hv))
    refine ⟨fun hk hb hp => ?_, fun hk hb ha hl => ?_, fun hk => ?_, fun hk => ?_⟩
    · exact answered (deliverCxRead_part hn hk hb hp)
    · exact answered (deliverCxRead_block hk hb ha hl)
    · exact answered (deliverCxRead_tile hn rfl hk rfl rfl)
    · exact answered (deliverCxRead_other hn hk)
  case barrier =>
    intro s p q h
    exact congrArg _ (receiveOp_lands h rfl ((landPkt_gate (.inl rfl)).trans (congrArg some (landGate_barrier rfl))))

end Sys2Proof.Machine
end

section
/-!
SUPPORT. The DM engine's lists (R432, R668, R669): a DMAM serves the targets of its list, a DMAX runs the entries of its list.
-/

namespace Sys2Proof.Machine

variable {s u : State} {t c : Nat} {f : FmtD}

/-! ### Windows of a quiet tile -/

theorem window_issued (k : Nat) (off : Int) (len : Nat) : window (issued s t) t c k off len = window s t c k off len := by
  simp only [window, ra_issued]

theorem groupsOk_issued (off len : Nat) : groupsOk (issued s t) t c off len = groupsOk s t c off len := by
  have hg : (issued s t).tf t R.SPGSTATE_G = s.tf t R.SPGSTATE_G := tf_issued (.inl (by decide))
  have hp : (issued s t).tf t R.SPCFG_PGRP = s.tf t R.SPCFG_PGRP := tf_issued (.inl (by decide))
  have hb : (issued s t).tf t R.SPCFG_BGRP = s.tf t R.SPCFG_BGRP := tf_issued (.inl (by decide))
  simp only [groupsOk, groupState, groupsOf, hg, hp, hb]

theorem localOffset_issued (x len : Nat) : localOffset (issued s t) t c x len = localOffset s t c x len := by
  have hr : reservedAt (issued s t) x len = reservedAt s x len := rfl
  simp only [localOffset, hr, groupsOk_issued]

theorem localWin_issued (k : Nat) (off : Int) (len : Nat) : localWin (issued s t) t c k off len = localWin s t c k off len := by
  simp only [localWin, window_issued, localOffset_issued]

/-- The DM engine works no lanes, so that a window is as before in the state in which its instruction dispatches. -/
theorem localWin_dispatched_dm (h : Quiet s t) (i : Instr) (k : Nat) (off : Int) (len : Nat) :
    localWin (dispatched s t .dm i) t c k off len = localWin s t c k off len := by
  rw [dispatched_eq h.gate, clockLanes_of (by decide), localWin_issued]

theorem issue_dm (h : Quiet s t) {r : IssueReq} (eff : Queued → State → State) (he : r.eng = .dm) (hl : r.legal = true) (hw : waitMet s t r.wait = true)
    (hn : r.foot.ranges.length ≤ 2) : issue s t r eff = settle (eff (queuedOf s t r) (dispatched s t .dm r.instr)) t := by
  rw [issue_quiet h eff hl (by rw [he]; rfl) hw (hn.trans (by decide)), he]

/-! ### DMAM -/

theorem descAt_of_localWin {o : Nat} (h : localWin s t (s.actx t) f.a.toNat (offD f) 32 = .ok o) : descAt s t f = some o := by
  simp only [descAt, h]

/-- A legal DMAM of a quiet tile dispatches with the descriptor that it names. -/
theorem dmam_dispatches (h : Quiet s t) (hw : waitMet s t f.wait = true) (hp : f.pred = 0) (hi : f.idx.toNat < 8) (hr : f.reg = 0) (hm : f.mod = 0) {o : Nat}
    (ho : descAt s t f = some o) :
    ∃ q : Queued, exec (.dmam t f) s = .next (settle (effDmam t f q (dispatched s t .dm (.dmam t f))) t) ∧
      q.id = (s.tile t).nextId ∧ q.ctx = s.actx t ∧ q.pc = issuePc s t ∧ q.desc = some (readDesc s t o) := by
  refine ⟨queuedOf s t _, congrArg _ (issue_dm h (effDmam t f) rfl ?_ hw ?_), rfl, rfl, rfl, congrArg (Option.map (readDesc s t)) ho⟩
  · simp [hp, hi, hr, hm]
  · rw [ho]; dsimp only; split <;> simp

/-- A DMAM whose checks pass serves its targets in the order of the list and then ends. -/
theorem effDmam_serves {q : Queued} {d : Desc} {o src lst : Nat} (hi : f.idx.toNat < 8) (hq : q.desc = some d)
    (hw : localWin u t q.ctx f.a.toNat (offD f) 32 = .ok o) (hp : dmamPlan u t q.ctx (f.idx.toNat + 1) d = .ok (src, lst))
    (hs : (dmamTargets u t lst (f.idx.toNat + 1)).all (fun e => (dmamFault u t q.ctx d e).isNone) = true) :
    effDmam t f q u = dmamEnd ((dmamTargets u t lst (f.idx.toNat + 1)).foldl (dmamServe t q.ctx q.pc (q.id + 1) d (ownRd u t src d.len))
      (addFlight u t { id := q.id, eng := .dm, ctx := q.ctx, pc := q.pc, foot := {}, cnt := d.cnt, kind := .dma { op := 6, desc := d } })) t q.ctx q.pc q.id d := by
  have hnone : (dmamTargets u t lst (f.idx.toNat + 1)).findSome? (dmamFault u t q.ctx d) = none := by
    simpa [List.findSome?_eq_none_iff, List.all_eq_true] using hs
  unfold effDmam
  dsimp only
  rw [chk_of_ok hw, hq, Nat.mod_eq_of_lt hi, Option.getD_some, chk_of_ok hp]
  dsimp only
  rw [hnone]

/-! ### DMAX -/

theorem dmax_dispatches (h : Quiet s t) (hw : waitMet s t f.wait = true) (hp : f.pred = 0) (hi : f.idx = 0) (hm : f.mod = 0) :
    ∃ q : Queued, exec (.dmax t f) s = .next (settle (effDmax t f q (dispatched s t .dm (.dmax t f))) t) ∧
      q.id = (s.tile t).nextId ∧ q.ctx = s.actx t ∧ q.pc = issuePc s t ∧ q.vals.getD 0 0 = rs s t (s.actx t) f.reg.toNat := by
  refine ⟨queuedOf s t _, congrArg _ (issue_dm h (effDmax t f) rfl ?_ hw ?_), rfl, rfl, rfl, rfl⟩
  · simp [hp, hi, hm]
  · unfold rangeOf; split <;> simp

theorem effDmax_empty {q : Queued} (hv : wget (q.vals.getD 0 0) 15 0 = 0) : effDmax t f q u = u := if_pos hv

theorem effDmax_holds {q : Queued} {o : Nat} (hv : wget (q.vals.getD 0 0) 15 0 ≠ 0) (hw : dmaxWin u t q.ctx f (q.vals.getD 0 0) = .ok o) :
    effDmax t f q u = addFlight u t { id := q.id, eng := .dm, ctx := q.ctx, pc := q.pc, foot := { ranges := [⟨o, 32 * wget (q.vals.getD 0 0) 15 0, false⟩] }, cnt := none,
                                      kind := .dmax (wget (q.vals.getD 0 0) 15 0) o (wget (q.vals.getD 0 0) 63 32) } :=
  (if_neg hv).trans (chk_of_ok hw ..)

/-! ### The entries of a DMAX -/

section
variable {f : Flight} {fs : List Flight} {rest next v0 : Nat}

/-- The state in which `k` descriptors of the list of a DMAX have been taken. -/
def dmaxLeft (s : State) (t : Nat) (f : Flight) (rest next v0 k : Nat) : State :=
  if rest ≤ k then dropFlight s t f.id
  else s.modTile t fun x => { x with flights := x.flights.map fun g => if g.id = f.id then { g with kind := .dmax (rest - k) (next + 32 * k) v0 } else g }

theorem tf_dmaxLeft (k : Nat) (g : Fld) : (dmaxLeft s t f rest next v0 k).tf t g = s.tf t g := by
  unfold dmaxLeft; split <;> rfl

/-- The arguments of an entry's transfer, with the values of its extension. -/
def entryArgs (d : Desc) (x : Nat × Nat × Nat) : DmaArgs := { op := d.kind, jw := false, d := d, base := x.1, ein := x.2.1, eout := x.2.2 }

/-- Whether an entry takes a second place of the list, for its extension. -/
def entryExtended (d : Desc) : Bool := (decide (d.kind < 2) && d.conv) || bucketStore d.kind d

/-- The values of an entry's extension, where it has one. -/
def entryExt (s : State) (t next : Nat) (d : Desc) : Option (Nat × Nat × Nat) :=
  if entryExtended d then extOf (bucketStore d.kind d) (readDesc s t (next + 32)) else some (0, 0, 0)

/-- An entry that runs now: it is legal and stands whole in the list, its wait is satisfied, and the engine has room. -/
structure EntryRuns (s : State) (t : Nat) (f : Flight) (rest next v0 : Nat) (d : Desc) : Prop where
  entry : readDesc s t next = d
  legal : d.legal = true
  kind : d.kind ≤ 5
  whole : entryExtended d = true → 2 ≤ rest
  wait : d.wen = false ∨ satisfied (cntVal s t f.ctx d.wcnt) ((v0 + d.winc) % 2 ^ 32) = true
  room : dmRoom (s.tile t) = true
  quiet : (s.tile t).flights.any Flight.asks = false

theorem EntryRuns.passes {d : Desc} (h : EntryRuns s t f rest next v0 d) :
    ¬ (!d.legal ∨ d.kind > 5 ∨ (entryExtended d ∧ rest < 2)) ∧ ¬ (d.wen && !satisfied (cntVal s t f.ctx d.wcnt) ((v0 + d.winc) % 2 ^ 32)) = true ∧
    ¬ (!dmRoom (s.tile t) || (s.tile t).flights.any Flight.asks) = true := by
  refine ⟨?_, ?_, by rw [h.room, h.quiet]; decide⟩
  · rw [h.legal]
    rintro (hl | hk | ⟨he, hr⟩)
    · exact absurd hl (by decide)
    · exact absurd h.kind (Nat.not_le.mpr hk)
    · exact absurd (h.whole he) (Nat.not_le.mpr hr)
  · obtain hw | hw := h.wait <;> rw [hw] <;> simp

/-- An entry that sends nothing runs as a transfer of its kind. -/
theorem dmaxRun_transfers {d : Desc} (h : EntryRuns s t f rest next v0 d) (h4 : d.kind ≠ 4) {x : Nat × Nat × Nat} (hx : entryExt s t next d = some x) {l : List Range}
    (hp : dmaPlan s t f.ctx (entryArgs d x) = .ok l) :
    dmaxRun s t f rest next v0 = some (dmaStart ((dmaxLeft s t f rest next v0 (if entryExtended d then 2 else 1)).modTile t fun x => { x with nextId := x.nextId + 1 })
      t f.ctx f.pc (s.tile t).nextId (entryArgs d x) []) := by
  obtain ⟨hlegal, hwait, hroom⟩ := h.passes
  obtain rfl := h.entry
  refine (if_neg hlegal).trans <| (if_neg hwait).trans <| (if_neg hroom).trans <| (if_neg h4).trans ?_
  unfold entryExt entryExtended at hx
  unfold entryArgs at hp
  rw [hx]
  dsimp only
  rw [hp]
  rfl

theorem trySend_injects {c pc ch : Nat} {e : Engine} {grp : Option Nat} {d : Desc} {pay : List Byte} (hc : s.tf t (R.CHROUTE_CLOSED ch) = 0)
    (hk : creditOk s t ch pay.length = true) : trySend s t c pc e grp stOK ch d pay = some (injectMsg s t c pc e grp stOK ch d pay) :=
  (if_neg (by omega)).trans (if_pos hk)

theorem creditOk_dmaxLeft (k ch n : Nat) : creditOk (dmaxLeft s t f rest next v0 k) t ch n = creditOk s t ch n := by
  simp only [creditOk, tf_dmaxLeft]

/-- An entry that sends spends credit and injects its message. -/
theorem dmaxRun_sends {d : Desc} (h : EntryRuns s t f rest next v0 d) (h4 : d.kind = 4) {src : Nat} (hs : sendCheck s t f.ctx d.chan d = .ok src)
    (hc : s.tf t (R.CHROUTE_CLOSED d.chan) = 0) {pay : List Byte} (hpay : (if carriesPayload s t d.chan then ownRd s t src d.len else []) = pay)
    (hk : creditOk s t d.chan pay.length = true) :
    dmaxRun s t f rest next v0 = some (injectMsg (dmaxLeft s t f rest next v0 (if entryExtended d then 2 else 1)) t f.ctx f.pc .dm none stOK d.chan d pay) := by
  obtain ⟨hlegal, hwait, hroom⟩ := h.passes
  obtain rfl := h.entry
  refine (if_neg hlegal).trans <| (if_neg hwait).trans <| (if_neg hroom).trans <| (if_pos h4).trans ?_
  rw [hs]
  dsimp only
  rw [hpay]
  exact trySend_injects ((tf_dmaxLeft _ _).trans hc) ((creditOk_dmaxLeft _ _ _).trans hk)

theorem dmaxEntry_head (ht : s.tstate t ≠ fenced) (hl : (s.tile t).flights = f :: fs) (hk : f.kind = .dmax rest next v0) (hr : dmaxRun s t f rest next v0 = some u) :
    exec (.dmaxEntry t) s = .next (settle u t) := by
  rw [exec_dmaxEntry, execDmaxEntry, if_neg ht, hl]
  simp [hk, hr]

end

/-- Settles O20: DMAM by its targets' checks, DMAX by its count, an entry by its kind and whether it has an extension. -/
theorem listedTransfers : Obligations.ListedTransfers := by
  refine ⟨?dmam, ?dmax, ?entry⟩
  case dmam =>
    intro s t f o src lst h hw hp hi hr hm c d id u es ho hplan hes
    obtain ⟨q, hx, hid, hctx, hpc, hdesc⟩ := dmam_dispatches h hw hp hi hr hm (descAt_of_localWin ho)
    rw [← localWin_dispatched_dm h (.dmam t f)] at ho
    rw [effDmam_serves hi hdesc (by rw [hctx]; exact ho) (by rw [hctx]; exact hplan) (by rw [hctx]; exact hes), hid, hctx, hpc] at hx
    exact hx
  case dmax =>
    intro s t f h hw hp hi hm c v
    obtain ⟨q, hx, hid, hctx, hpc, hv⟩ := dmax_dispatches h hw hp hi hm
    refine ⟨fun h0 => ?_, fun h0 o ho => ?_⟩
    · rwa [effDmax_empty (by rw [hv]; exact h0)] at hx
    · rw [← localWin_dispatched_dm h (.dmax t f)] at ho
      rw [effDmax_holds (by rw [hv]; exact h0) (by rw [hv, hctx]; exact ho), hid, hctx, hpc, hv] at hx
      exact hx
  case entry =>
    intro s t f fs rest next v0 ht hl hk d hlegal hwait hroom hasks left runs
    have hquiet : (s.tile t).flights.any Flight.asks = false := by rw [hl]; simpa [Flight.asks, hk] using hasks
    refine ⟨fun h4 h5 hb hc l hp => ?plain, fun h2 hb hr x l hx hp => ?extended, ?sends⟩
    case plain =>
      have hext : entryExtended d = false := by simpa [entryExtended, hb] using hc
      have hrun : EntryRuns s t f rest next v0 d := ⟨rfl, hlegal, h5, fun he => absurd he (ne_true_of_eq_false hext), hwait, hroom, hquiet⟩
      have htaken := dmaxRun_transfers hrun h4 (if_neg (ne_true_of_eq_false hext)) hp
      rw [hext] at htaken
      exact dmaxEntry_head ht hl hk htaken
    case extended =>
      have hext : entryExtended d = true := by obtain hb | hb := hb <;> simp [entryExtended, h2, hb]
      have hrun : EntryRuns s t f rest next v0 d := ⟨rfl, hlegal, by omega, fun _ => hr, hwait, hroom, hquiet⟩
      have htaken := dmaxRun_transfers hrun (by omega) ((if_pos hext).trans hx) hp
      rw [hext] at htaken
      exact dmaxEntry_head ht hl hk htaken
    case sends =>
      intro h4 src hs hc pay hcr
      have hext : entryExtended d = false := by simp [entryExtended, bucketStore, h4]
      have hrun : EntryRuns s t f rest next v0 d := ⟨rfl, hlegal, by omega, fun he => absurd he (ne_true_of_eq_false hext), hwait, hroom, hquiet⟩
      have htaken := dmaxRun_sends hrun h4 hs hc rfl hcr
      rw [hext] at htaken
      exact dmaxEntry_head ht hl hk htaken

end Sys2Proof.Machine
end

section
/-!
SUPPORT. Commands of the host that only ask or load a table (R435, R473, R563-R566, R585, R589, R594, R599, R600, R613-R615): each runs at once in a session of which nothing
waits, and is answered.
-/

namespace Sys2Proof.Machine

variable {s s₀ u v : State} {pk : ChpPkt} {sid tag : Nat} {i : Instr}

/-! ### What the commands share -/

/-- A command of a session of which nothing waits leaves what its effect leaves. -/
theorem exec_command (hf : pktFits s₀ pk = true) (hq : s₀.chp.queue = []) (hb : sessionBusy s₀ pk.sid = false) (hi : exec i s₀ = .next (takeCommand s₀ pk tag i))
    (hv : runCommand i (takePkt s₀ pk) = v) : exec i s₀ = .next v := by
  rw [hi, takeCommand_runs s₀ pk tag i hf hq hb, hv]

/-- A session of the device is open. -/
abbrev SessionOpen (s : State) (sid : Nat) : Prop := (s.chp.sessions.any fun x => x.sid == sid) = true

theorem takePkt_open (hf : pktFits s₀ pk = true) : SessionOpen (takePkt s₀ pk) pk.sid := (takePkt_sids s₀ pk pk.sid).trans (pktFits_open s₀ pk hf)

theorem okay_open (h : SessionOpen s sid) (data : List Byte) : okay s sid tag data = s.tellHost (.response sid tag 0 0 data) := if_pos h

theorem controlOnly_control (h : s.chp.control = some sid) (eff : State) : controlOnly s sid tag eff = eff := if_pos h

theorem ifState_allowed {n : Nat} (h : n ≤ pstate s) (eff : State) : ifState s sid tag (decide (pstate s ≥ n)) eff = eff := if_pos (decide_eq_true h)

/-! ### Reads -/

theorem effStateReadRegisters_reads {addr count : Nat} (h1 : 1 ≤ count) (h2 : count ≤ 512) (hr : ∀ i, i < count → readable s (addr + 8 * i) = true) :
    let answered := okay s sid tag (((List.range count).map fun i => addr + 8 * i).flatMap fun a => toBytes (readReg s a).toNat 8)
    effStateReadRegisters sid tag addr count s = if !hasStep s ∧ ((List.range count).map fun i => addr + 8 * i).any (isCount s) then gatherCone answered else answered := by
  refine (if_neg (by omega)).trans (if_pos ?_)
  simpa [List.all_eq_true] using hr

theorem any_isCount {addr count : Nat} : ((List.range count).map fun i => addr + 8 * i).any (isCount s) = true ↔ ∃ i, i < count ∧ isCount s (addr + 8 * i) = true := by
  simp [List.any_eq_true]

theorem effLogRead_reads {part first count : Nat} (hp : part < 2) (h1 : 1 ≤ count) (h2 : count ≤ 256) :
    effLogRead sid tag part first count s = okay s sid tag (logData s part first count) :=
  (if_neg (by omega)).trans (if_neg (by omega))

/-! ### Attestation -/

/-- Every LMS index below `q` is used: both copies in MRAM show it, and neither the registers, the tokens nor the sessions have changed. -/
structure IndexUsed (s u : State) (q : Nat) : Prop where
  regs : u.regs = s.regs
  toHost : u.toHost = s.toHost
  chp : u.chp = s.chp
  tokens : u.mram.tokens = s.mram.tokens
  lmsA : u.mram.lmsA = some q
  lmsB : u.mram.lmsB = some q
  lms : u.lodge.lms = q

/-- The next LMS index, in MRAM and in the lodge. -/
def indexPut (s : State) : State :=
  (s.modMram fun m => { m with lmsA := some (s.lodge.lms + 1), lmsB := some (s.lodge.lms + 1) }).modLodge fun l => { l with lms := s.lodge.lms + 1 }

/-- Indices that run low are marked and logged once. -/
theorem takeIndex_cases (s : State) : takeIndex s = indexPut s ∨ ∃ n, takeIndex s = ((indexPut s).modMram fun m => { m with lmsLow := true }).logSec 0x000B n := by
  unfold takeIndex
  by_cases h : lmsTop - (s.lodge.lms + 1) < 65_536 ∧ !(indexPut s).mram.lmsLow
  · exact .inr ⟨_, if_pos h⟩
  · exact .inl (if_neg h)

theorem indexPut_used (s : State) : IndexUsed s (indexPut s) (s.lodge.lms + 1) := ⟨rfl, rfl, rfl, rfl, rfl, rfl, rfl⟩

theorem IndexUsed.marked {q : Nat} (h : IndexUsed s u q) : IndexUsed s (u.modMram fun m => { m with lmsLow := true }) q :=
  ⟨h.regs, h.toHost, h.chp, h.tokens, h.lmsA, h.lmsB, h.lms⟩

theorem IndexUsed.logged {q : Nat} (h : IndexUsed s u q) (code n : Nat) : IndexUsed s (u.logSec code n) q :=
  ⟨h.regs, h.toHost, h.chp, h.tokens, h.lmsA, h.lmsB, h.lms⟩

theorem takeIndex_used (s : State) : IndexUsed s (takeIndex s) (s.lodge.lms + 1) := by
  obtain h | ⟨n, h⟩ := takeIndex_cases s
  · rw [h]; exact indexPut_used s
  · rw [h]; exact (indexPut_used s).marked.logged _ n

theorem IndexUsed.draws {q : Nat} (h : IndexUsed s u q) : IndexUsed s { u with fresh := u.fresh + 1 } q := ⟨h.regs, h.toHost, h.chp, h.tokens, h.lmsA, h.lmsB, h.lms⟩

/-- Counting an attestation changes its two counts, and the log once in 1,024. -/
theorem IndexUsed.counted {q : Nat} (h : IndexUsed s u q) (n : Nat) : IndexUsed s (countAttest u n) q := by
  unfold countAttest
  dsimp only
  split <;> exact ⟨h.regs, h.toHost, h.chp, h.tokens, h.lmsA, h.lmsB, h.lms⟩

/-- The session is still open when its signed answer is ready. -/
theorem IndexUsed.answered {q : Nat} (h : IndexUsed s u q) (ho : SessionOpen s sid) (data : List Byte) :
    signedAnswer u sid tag data = u.tellHost (.response sid tag 0 0 data true) := by
  refine if_pos ?_
  rw [h.chp]; exact ho

/-- A token is taken for an attestation. -/
def tokenTaken (s : State) : State := s.modMram fun m => { m with tokens := m.tokens - 1 }

/-- The state in which an attestation has taken its index and its draw, and is counted. -/
def attested (s : State) : State := countAttest { takeIndex (tokenTaken s) with fresh := (takeIndex (tokenTaken s)).fresh + 1 } s.lodge.lms

theorem attested_used (s : State) : IndexUsed (tokenTaken s) (attested s) (s.lodge.lms + 1) := (takeIndex_used (tokenTaken s)).draws.counted s.lodge.lms

/-- The signatures of an attestation and the certificates that follow them. -/
def attestSignatures (s : State) (record : List Byte) : List Byte :=
  fitBytes 96 (Config.ecdsaSign (Config.deviceKey (attested s).lodge.seed 0) record (takeIndex (tokenTaken s)).fresh) ++
    fitBytes 1772 (Config.lmsSign (Config.deviceKey (attested s).lodge.seed 2) record s.lodge.lms) ++ Config.deviceCert ++ Config.caCert

theorem effAttest_signs {nonce : List Byte} (ho : SessionOpen s sid) (hn : nonce.length = 32) (hl : s.lodge.lms < lmsTop) (ht : 0 < s.mram.tokens) :
    let record := attestRecord (takeIndex (tokenTaken s)) nonce s.lodge.lms
    effAttest sid tag nonce s = (attested s).tellHost (.response sid tag 0 0 (record ++ attestSignatures s record) true) := by
  intro record
  refine (if_neg (not_not.mpr hn)).trans <| (if_neg (Nat.not_le.mpr hl)).trans <| (if_neg ht.ne').trans ?_
  rw [← (attested_used s).answered ho, attestSignatures, ← List.append_assoc, ← List.append_assoc, ← List.append_assoc]
  rfl

/-! ### Tables -/

theorem effAliasTable_loads {addr first count : Nat} (hc : s.chp.control = some sid) (hp : 3 ≤ pstate s) (hf : first + count ≤ 65536) (h0 : 0 < count)
    (ha : stagingOk addr (4 * count) = true) : effAliasTable sid tag addr first count s = okay ((List.range count).foldl (fun u i =>
      let e := numAt (hbmBytes s addr (4 * count)) 4 i
      setLds (setLds u (R.CXALIAS_STATION (first + i)) (bits e 15 0)) (R.CXALIAS_VALID (first + i)) (bits e 16 16)) s) sid tag [] := by
  refine (controlOnly_control hc _).trans <| (ifState_allowed hp _).trans <| (if_neg (Nat.not_lt.mpr hf)).trans <| (if_neg h0.ne').trans (if_neg ?_)
  rw [ha]; decide

theorem effFwUpdate_loads {addr len : Nat} (hc : s.chp.control = some sid) (hp : 3 ≤ pstate s) (ha : stagingOk addr len = true) (hl : len ≤ 24 * 2 ^ 20) :
    effFwUpdate sid tag addr len s = if fwVerifies s (hbmBytes s addr len)
      then okay ((setSlot s (1 - s.lodge.slot) { st := 2, image := some (hbmBytes s addr len) }).logSec 0x0002 (1 - s.lodge.slot)) sid tag []
      else refused (setSlot s (1 - s.lodge.slot) { st := 0, image := some (hbmBytes s addr len) }) sid tag := by
  refine (controlOnly_control hc _).trans <| (ifState_allowed hp _).trans (if_neg ?_)
  rintro (h | h)
  · rw [ha] at h; exact absurd h (by decide)
  · exact absurd h (Nat.not_lt.mpr hl)

/-- The device's own numbers stand in every LD. -/
theorem ownNumbers_fld {dev station ld : Nat} (hd : dev < 2 ^ 16) (hs : station < 2 ^ 16) (hl : ld < 32) :
    let u := setLds (setLds s R.CXCFG_DEV dev) R.CXCFG_STATION station
    u.fld .ld ld R.CXCFG_DEV = dev ∧ u.fld .ld ld R.CXCFG_STATION = station :=
  ⟨(fld_setLds_apart _ _ (by decide)).trans (fld_setLds_self _ (by decide) hl hd), fld_setLds_self _ (by decide) hl hs⟩

theorem ownNumbers_regsOnly (dev station : Nat) : RegsOnly s (setLds (setLds s R.CXCFG_DEV dev) R.CXCFG_STATION station) :=
  (setLds_regsOnly ..).trans (setLds_regsOnly ..)

theorem fld_tellHost (s : State) (m : HostMsg) (b : Block) (n : Nat) (f : Fld) : (s.tellHost m).fld b n f = s.fld b n f := rfl

theorem RegsOnly.chp (h : RegsOnly s u) : u.chp = s.chp := by rw [h]

theorem RegsOnly.toHost (h : RegsOnly s u) : u.toHost = s.toHost := by rw [h]

/-- An answer after a change of registers alone changes beside them only what goes to the host. -/
theorem RegsOnly.tellHost (h : RegsOnly s u) (m : HostMsg) :
    u.tellHost m = { s with regs := (u.tellHost m).regs, toHost := (u.tellHost m).toHost, chp := (u.tellHost m).chp } := by
  obtain ⟨r, rfl⟩ : ∃ r, u = { s with regs := r } := ⟨_, h⟩
  rfl

/-- The state with other bulk streams open. -/
def withStreams (s : State) (l : List Stream) : State := { s with chp := { s.chp with streams := l } }

theorem okay_withStreams (h : SessionOpen s sid) (l : List Stream) (data : List Byte) :
    okay (withStreams s l) sid tag data = (withStreams s l).tellHost (.response sid tag 0 0 data) := if_pos h

/-- A stream opens under the lowest number that is free. -/
theorem effStreamOpen_opens {dir addr len n : Nat} (hc : s.chp.control = some sid) (hd : dir < 2) (hp : 3 ≤ pstate s) (ha : stagingOk addr len = true)
    (hn : ((List.range 16).find? fun n => s.chp.streams.all fun x => x.n != n) = some n) :
    let units := if dir = 0 then cdiv len creditUnit else 0
    let u := okay (withStreams s (s.chp.streams ++ [{ n := n, dir := dir, addr := addr, len := len, credit := units }])) sid tag [.ofNat 8 n]
    effStreamOpen sid tag dir addr len s = if dir = 0 then u.tellHost (.credit n units 0) else u := by
  intro units u
  refine (controlOnly_control hc _).trans <| (if_neg (Nat.not_le.mpr hd)).trans <| (ifState_allowed hp _).trans <| (if_neg (by rw [ha]; decide)).trans ?_
  rw [hn]; rfl

/-- Settles O52: each command runs at once and is answered, by its checks in their order. -/
theorem queriesAndTables : Obligations.QueriesAndTables := by
  intro s₀ pk tag hf hq hb s sid answer
  have ho : SessionOpen s sid := takePkt_open hf
  have runs {i : Instr} {v : State} (hi : exec i s₀ = .next (takeCommand s₀ pk tag i)) (hv : runCommand i s = v) : exec i s₀ = .next v := exec_command hf hq hb hi hv
  refine ⟨?registers, runs rfl (okay_open ho _), ?logRead, runs rfl (okay_open ho _), ?attest, fun hc => ⟨?logClear, ?fwUpdate, ?aliasTable, ?ownNumbers, ?pair, ?domain,
    ?streamOpen, ?streamClose⟩⟩
  case registers =>
    intro addr count h1 h2 hr u
    have hread : runCommand (.stateReadRegisters pk tag addr count) s = if !hasStep s ∧ ((List.range count).map fun i => addr + 8 * i).any (isCount s) then gatherCone u else u :=
      (effStateReadRegisters_reads h1 h2 hr).trans (by rw [okay_open ho])
    refine ⟨fun h => runs rfl (hread.trans (if_neg ?_)), fun hs hi => runs rfl (hread.trans (if_pos ⟨by rw [hs]; rfl, any_isCount.mpr hi⟩))⟩
    rintro ⟨hs, ha⟩
    obtain ⟨i, hi, hcount⟩ := any_isCount.mp ha
    obtain hstep | hnone := h
    · rw [hstep] at hs; exact absurd hs (by decide)
    · exact absurd hcount (ne_true_of_eq_false (hnone i hi))
  case logRead =>
    intro part first count hp h1 h2
    exact runs rfl ((effLogRead_reads hp h1 h2).trans (okay_open ho _))
  case attest =>
    intro nonce hn hl ht
    have hu := attested_used s
    exact ⟨_, attestSignatures s (attestRecord (takeIndex (tokenTaken s)) nonce s.lodge.lms), runs rfl (effAttest_signs ho hn hl ht), hu.tokens, hu.lmsA, hu.lmsB, hu.lms, hu.regs,
      congrArg (· ++ _) hu.toHost⟩
  case logClear => exact fun auth ha => runs rfl ((controlOnly_control hc _).trans (if_neg (not_not.mpr ha)))
  case fwUpdate => exact fun addr len hp ha hl => runs rfl (effFwUpdate_loads hc hp ha hl)
  case aliasTable => exact fun addr first count hp h1 h0 ha => runs rfl (effAliasTable_loads hc hp h1 h0 ha)
  case ownNumbers =>
    intro dev station hd hs
    have hr := ownNumbers_regsOnly (s := s) dev station
    have hopen : SessionOpen (setLds (setLds s R.CXCFG_DEV dev) R.CXCFG_STATION station) sid := by rw [SessionOpen, hr.chp]; exact ho
    refine ⟨_, runs rfl ((controlOnly_control hc _).trans (okay_open hopen [])), fun ld hl => ?_, hr.tellHost _, congrArg (· ++ _) hr.toHost⟩
    rw [fld_tellHost, fld_tellHost]
    exact ownNumbers_fld hd hs hl
  case pair =>
    intro partner s0 s1 pe he cert hl u
    exact runs rfl ((controlOnly_control hc _).trans (if_neg (not_not.mpr hl)))
  case domain => exact fun dom => runs rfl ((controlOnly_control hc _).trans (okay_open (s := s.modLodge _) ho []))
  case streamOpen =>
    intro dir addr len n hd hp ha hn units u
    refine runs rfl ((effStreamOpen_opens hc hd hp ha hn).trans ?_)
    rw [okay_withStreams ho]; rfl
  case streamClose =>
    intro n hn
    exact runs rfl ((controlOnly_control hc _).trans ((if_pos hn).trans (okay_withStreams ho _ [])))

end Sys2Proof.Machine
end

section
/-!
SUPPORT. `TCTL.HOLD` of every tile (R488, R535, R560), and what stays of a device when it is set.
-/

namespace Sys2Proof.Machine

theorem holdDie_regsOnly (s : State) (d : Nat) : RegsOnly s (holdDie s d) := .foldl (fun u i => setFld_regsOnly u .tile (256 * d + i) R.TCTL_HOLD 1) _ s

theorem holdAll_regsOnly (s : State) : RegsOnly s (holdAll s) := .foldl holdDie_regsOnly _ s

section
variable {t : Nat}

/-- A tile that is to hold still is when another one is told to. -/
theorem setHold_keeps (m : Nat) {u : State} (h : u.tf t R.TCTL_HOLD = 1) : (u.setTf m R.TCTL_HOLD 1).tf t R.TCTL_HOLD = 1 := by
  by_cases hm : t = m
  · subst hm; exact tf_setTf_fits 1 (by decide)
  · exact (State.fld_setFld_ne u 1 (by simp only [regAddr]; omega)).trans h

theorem holdDie_keeps (d : Nat) {u : State} (h : u.tf t R.TCTL_HOLD = 1) : (holdDie u d).tf t R.TCTL_HOLD = 1 :=
  List.foldlRecOn (motive := fun u : State => u.tf t R.TCTL_HOLD = 1) _ _ h fun _ hu i _ => setHold_keeps (256 * d + i) hu

theorem holdDie_holds (s : State) (t : Nat) : (holdDie s (t / 256)).tf t R.TCTL_HOLD = 1 := by
  refine foldl_reaches (P := fun u : State => u.tf t R.TCTL_HOLD = 1) (a := t % 256) (fun u => ?_) (fun u i => setHold_keeps _) _ (List.mem_range.mpr (by omega)) s
  rw [Nat.div_add_mod]
  exact tf_setTf_fits 1 (by decide)

theorem holdAll_holds (s : State) (ht : t < 2048) : (holdAll s).tf t R.TCTL_HOLD = 1 :=
  foldl_reaches (P := fun u : State => u.tf t R.TCTL_HOLD = 1) (fun u => holdDie_holds u t) (fun _ d => holdDie_keeps d) _ (List.mem_range.mpr (by omega)) s

end

/-- The registers of the other blocks stay. -/
theorem holdAll_reg {a : Nat} (ha : AboveTiles a) (s : State) : (holdAll s).reg a = s.reg a := by
  refine foldl_keeps (fun u => u.reg a) _ (fun u d hd => foldl_keeps (fun v => v.reg a) _ (fun v i hi => ?_) u) s
  have ht : TileAddr (regAddr .tile (256 * d + i) R.TCTL_HOLD.off) :=
    tileAddr_of (by have := List.mem_range.mp hd; have := List.mem_range.mp hi; omega) (by decide)
  rw [State.reg_setTf, if_neg (ne_of_aboveTiles ht ha).symm]

theorem holdAll_fld (s : State) {b : Block} (hb : b ≠ .tile) (n : Nat) (f : Fld) : (holdAll s).fld b n f = s.fld b n f :=
  congrArg (wget · f.hi f.lo) (holdAll_reg (aboveTiles_of hb n f.off) s)

end Sys2Proof.Machine
end

section
/-!
SUPPORT. A failed partner (R488–R492, R495, R503, R508): the period of the heartbeats, the abort, and the pair in takeover, which everything that the takeover goes on with keeps.
-/

namespace Sys2Proof.Machine

/-! ### The period of the heartbeats (R490) -/

section
variable {s u : State}

/-- The heartbeats of a period on their way to the partner and to the host. -/
def heartbeatsSent (s : State) : State :=
  let up := (List.range 64).filter fun p => portUp s p
  let twin := up.filter fun p => s.pf p R.FPCFG_ROLE == roleTWIN
  let ports := if twin.isEmpty then up.filter fun p => s.pf p R.FPCFG_ROLE == roleFABRIC else twin
  let u := if lodgeLost s then s else ports.foldl (fun u p => cxtPlain u p (baseHdr u opHEARTBEAT (s.fld .ld 0 R.TWCFG_PARTNER) p) (heartbeat s)) s
  if lodgeLost u ∨ u.chp.sessions.isEmpty then u else u.tellHost (.heartbeat (heartbeat s))

theorem heartbeatsSent_outOnly (s : State) : OutOnly s (heartbeatsSent s) :=
  OutOnly.trans (.ite (.refl s) (.foldl (fun u _ => send_outOnly u _) _ s)) (.ite (.refl _) rfl)

/-- The periods missed in a row, of which five are counted. -/
def missedPeriods (s : State) : Nat := if s.hbHeard then 0 else min 5 (s.fld .ld 0 R.TWSTAT_HBMISS + 1)

theorem missedPeriods_le (s : State) : missedPeriods s ≤ 5 := by
  unfold missedPeriods
  split <;> omega

theorem OutOnly.missedPeriods (h : OutOnly s u) : missedPeriods u = missedPeriods s := h.keeps Machine.missedPeriods

/-- The end of a period, with the missed ones in `TWSTAT`. -/
def periodOver (s : State) (n : Nat) : State := checkProtected (setLds { s with hbHeard := false } R.TWSTAT_HBMISS n)

/-- A protected pair shows it in `TWSTAT.PAIR`; what else it changes goes out. -/
theorem checkProtected_cases (s : State) : checkProtected s = s ∨ OutOnly (setLds s R.TWSTAT_PAIR 1) (checkProtected s) := by
  unfold checkProtected
  split
  · exact .inr (setPair_outOnly s 1)
  · exact .inl rfl

theorem checkProtected_fld (s : State) {f : Fld} (hf : f.InLd) (ha : R.TWSTAT_PAIR.Apart f) (ld : Nat) : (checkProtected s).fld .ld ld f = s.fld .ld ld f := by
  obtain h | h := checkProtected_cases s
  · rw [h]
  · rw [h.fld, fld_setLds_apart s 1 ⟨by decide, hf, ha⟩]

theorem checkProtected_kept (s : State) : (checkProtected s).hbHeard = s.hbHeard ∧ (checkProtected s).tiles = s.tiles ∧ (checkProtected s).mem = s.mem := by
  obtain h | h := checkProtected_cases s
  · rw [h]; exact ⟨rfl, rfl, rfl⟩
  · have hr := setLds_regsOnly s R.TWSTAT_PAIR 1
    exact ⟨(h.keeps State.hbHeard).trans (hr.keeps State.hbHeard), (h.keeps State.tiles).trans (hr.keeps State.tiles), (h.keeps State.mem).trans (hr.keeps State.mem)⟩

theorem periodOver_missed (s : State) {n ld : Nat} (hn : n ≤ 5) (hl : ld < 32) : (periodOver s n).fld .ld ld R.TWSTAT_HBMISS = n :=
  (checkProtected_fld _ (by decide) (by decide) ld).trans (fld_setLds_self _ (by decide) hl (Nat.lt_of_le_of_lt hn (by decide)))

theorem periodOver_kept (s : State) (n : Nat) : (periodOver s n).hbHeard = false ∧ (periodOver s n).tiles = s.tiles ∧ (periodOver s n).mem = s.mem := by
  obtain ⟨hheard, htiles, hmem⟩ := checkProtected_kept (setLds { s with hbHeard := false } R.TWSTAT_HBMISS n)
  have hr := setLds_regsOnly { s with hbHeard := false } R.TWSTAT_HBMISS n
  exact ⟨hheard.trans (hr.keeps State.hbHeard), htiles.trans (hr.keeps State.tiles), hmem.trans (hr.keeps State.mem)⟩

/-- A period ends; the fifth one missed in a row declares the partner failed. -/
theorem heartbeatPeriod_next (hp : s.fld .ld 0 R.TWCFG_PAIREN = 1) (hh : s.fld .ld 0 R.TWCFG_HBEN = 1) : exec .heartbeatPeriod s =
    .next (if missedPeriods s = 5 then declareFailed (periodOver (heartbeatsSent s) (missedPeriods s)) 0 else periodOver (heartbeatsSent s) (missedPeriods s)) := by
  rw [exec_heartbeatPeriod, execHeartbeatPeriod, ← (heartbeatsSent_outOnly s).missedPeriods]
  exact congrArg _ (if_neg (by rw [hp, hh]; decide))

end

/-! ### The abort (R488, R495) -/

section
variable {s : State}

/-- The device in an abort, with every tile told to hold. -/
def abortBegun (s : State) (step : Nat) (takeover : Bool) (failed : Nat) : State :=
  holdAll { s with aborting := some { step := step, takeover := takeover, failed := failed } }

theorem abortBegun_aborting (s : State) (step : Nat) (takeover : Bool) (failed : Nat) :
    (abortBegun s step takeover failed).aborting = some { step := step, takeover := takeover, failed := failed } :=
  (holdAll_regsOnly _).keeps State.aborting

/-- Where no abort runs, one begins: it is logged and passed on along the tree. -/
theorem startAbort_begins (h : s.aborting = none) (step : Nat) (takeover : Bool) (failed from_ : Nat) :
    OutOnly (abortBegun s step takeover failed) (startAbort s step takeover failed from_) := by
  rw [startAbort, h]
  exact (logAndTell_outOnly ..).trans (ctrlAll_outOnly ..)

/-- One abort serves several failures (R501). -/
theorem startAbort_runs (h : s.aborting.isSome = true) (step : Nat) (takeover : Bool) (failed from_ : Nat) : startAbort s step takeover failed from_ = s := if_pos h

end

/-! ### The pair in takeover (R495) -/

/-- A pair in takeover: every LD shows it, the takeover names a device, and an abort runs. -/
structure InTakeover (s : State) : Prop where
  pair : ∀ ld, ld < 32 → s.fld .ld ld R.TWSTAT_PAIR = 3
  taking : ∃ k, s.taking = some k ∧ k.dev < 2 ^ 16
  aborting : s.aborting.isSome = true

section
variable {s u : State}

theorem InTakeover.outOnly (h : InTakeover s) (o : OutOnly s u) : InTakeover u where
  pair ld hl := (o.fld ..).trans (h.pair ld hl)
  taking := by rw [o.keeps State.taking]; exact h.taking
  aborting := by rw [o.keeps State.aborting]; exact h.aborting

/-- Another field of the LDs is set. -/
theorem InTakeover.setLds (h : InTakeover s) {f : Fld} (hf : f.InLd ∧ R.TWSTAT_PAIR.InLd ∧ f.Apart R.TWSTAT_PAIR) (v : Nat) : InTakeover (setLds s f v) where
  pair ld hl := (fld_setLds_apart s v hf).trans (h.pair ld hl)
  taking := by rw [(setLds_regsOnly s f v).keeps State.taking]; exact h.taking
  aborting := by rw [(setLds_regsOnly s f v).keeps State.aborting]; exact h.aborting

theorem InTakeover.resetPaths (h : InTakeover s) : InTakeover (resetPaths s) := ⟨h.pair, h.taking, h.aborting⟩

theorem InTakeover.takingSet (h : InTakeover s) {k : Takeover} (hk : k.dev < 2 ^ 16) : InTakeover { s with taking := some k } := ⟨h.pair, ⟨k, rfl, hk⟩, h.aborting⟩

theorem InTakeover.abortingSet (h : InTakeover s) (a : Abort) : InTakeover { s with aborting := some a } := ⟨h.pair, h.taking, rfl⟩

/-- The entry of a device in the alias table of the LDs stands clear of `TWSTAT`. -/
theorem cxalias_apart {dev : Nat} (hd : dev < 2 ^ 16) {f : Fld} (hf : f.Fits) (ho : f.off = R.CXALIAS dev) : f.InLd ∧ R.TWSTAT_PAIR.InLd ∧ f.Apart R.TWSTAT_PAIR := by
  refine ⟨⟨hf, ?_⟩, by decide, .inl ?_⟩ <;> rw [ho] <;> simp only [R.CXALIAS, R.TWSTAT_PAIR, R.TWSTAT] <;> omega

theorem InTakeover.moveAlias (h : InTakeover s) {dev : Nat} (hd : dev < 2 ^ 16) (station : Nat) : InTakeover (moveAlias s dev station) := by
  refine (InTakeover.setLds (f := R.CXEPOCH_ALIAS) (InTakeover.outOnly ?_ (ctrlAll_outOnly ..)) (by decide) _).resetPaths
  have station_apart := cxalias_apart hd (f := R.CXALIAS_STATION dev) (show 0 ≤ 15 ∧ 15 < 64 by decide) rfl
  have valid_apart := cxalias_apart hd (f := R.CXALIAS_VALID dev) (show 16 ≤ 16 ∧ 16 < 64 by decide) rfl
  exact ((h.outOnly (cxtEmit_outOnly ..)).setLds station_apart station).setLds valid_apart 1

theorem InTakeover.takeoverOn (h : InTakeover s) : InTakeover (takeoverOn s) := by
  unfold Machine.takeoverOn
  split
  · next k a hk _ =>
    obtain ⟨k', hk', hd⟩ := h.taking
    obtain rfl : k = k' := Option.some_inj.mp (hk.symm.trans hk')
    split
    · exact h
    · exact InTakeover.moveAlias (h.takingSet (k := { k with moved := true, movedAt := s.ticks }) hd) hd _
  · exact h

theorem InTakeover.abortOn (h : InTakeover s) : InTakeover (abortOn s) := by
  obtain ⟨a, ha⟩ := Option.isSome_iff_exists.mp h.aborting
  rw [Machine.abortOn, ha]
  dsimp only
  split
  · exact h
  · have hr := h.abortingSet { a with reported := true }
    refine InTakeover.takeoverOn ?_
    split
    · split
      · exact hr.outOnly (ctrlAll_outOnly ..)
      · exact hr
    · exact hr.outOnly (cxtEmit_outOnly ..)

/-- The abort of a takeover: the one that runs, or a new one. -/
theorem startAbort_inTakeover (hp : ∀ ld, ld < 32 → s.fld .ld ld R.TWSTAT_PAIR = 3) (ht : ∃ k, s.taking = some k ∧ k.dev < 2 ^ 16) (step : Nat) (takeover : Bool)
    (failed from_ : Nat) : InTakeover (startAbort s step takeover failed from_) := by
  cases h : s.aborting with
  | some a =>
    have hs : s.aborting.isSome = true := by rw [h]; rfl
    rw [startAbort_runs hs]
    exact ⟨hp, ht, hs⟩
  | none =>
    have begun : InTakeover (abortBegun s step takeover failed) :=
      { pair := fun ld hl => (holdAll_fld _ (by decide) ld _).trans (hp ld hl)
        taking := by rw [abortBegun, (holdAll_regsOnly _).keeps State.taking]; exact ht
        aborting := by rw [abortBegun_aborting]; rfl }
    exact begun.outOnly (startAbort_begins h ..)

/-- The copiers have stopped, and the pair is in takeover (R491, R495). -/
def pairTaking (s : State) (cause : Nat) : State :=
  let dev := s.fld .ld 0 R.TWCFG_PARTNER
  let u := (List.range 8).foldl (fun s k => setCopier s k false) (logAndTell { s with probing := false } 0x0900 (dev + cause * 2 ^ 16))
  setPair { u with taking := some { dev := dev, began := u.ticks } } 3

theorem pairTaking_pair (s : State) (cause : Nat) {ld : Nat} (hl : ld < 32) : (pairTaking s cause).fld .ld ld R.TWSTAT_PAIR = 3 :=
  ((setPair_outOnly ..).fld ..).trans (fld_setLds_self _ (by decide) hl (by decide))

theorem pairTaking_taking (s : State) (cause : Nat) : ∃ k, (pairTaking s cause).taking = some k ∧ k.dev < 2 ^ 16 :=
  ⟨_, ((setPair_outOnly ..).keeps State.taking).trans ((setLds_regsOnly ..).keeps State.taking), wget_lt _ 15 0⟩

/-- A protected pair, of which no takeover runs, enters takeover, and its job aborts. -/
theorem declareFailed_takes (hp : s.fld .ld 0 R.TWCFG_PAIREN = 1) (ht : s.taking = none) (h1 : s.fld .ld 0 R.TWSTAT_PAIR = 1) (cause : Nat) :
    let u := pairTaking s cause
    let dev := s.fld .ld 0 R.TWCFG_PARTNER
    declareFailed s cause = takeoverOn (abortOn (startAbort u (stepNow u) true dev dev)) :=
  (if_neg (by rw [hp, ht]; decide)).trans (if_neg (by rw [h1]; decide))

theorem declareFailed_inTakeover (hp : s.fld .ld 0 R.TWCFG_PAIREN = 1) (ht : s.taking = none) (h1 : s.fld .ld 0 R.TWSTAT_PAIR = 1) (cause : Nat) :
    InTakeover (declareFailed s cause) := by
  rw [declareFailed_takes hp ht h1]
  exact (startAbort_inTakeover (fun _ => pairTaking_pair s cause) (pairTaking_taking s cause) ..).abortOn.takeoverOn

end

/-- Settles O44: a period by what it leaves in `TWSTAT`, a declared failure by what keeps the pair in takeover, an abort by what it begins with, and the branches of the other commands. -/
theorem failureDetected : Obligations.FailureDetected := by
  refine ⟨fun s hp hh => ?period, fun s => ⟨fun h => congrArg _ (if_pos h), fun h => congrArg _ (if_neg (ne_true_of_eq_false h))⟩, fun s cause hp ht h1 => ?declared,
    fun s step failed from_ b h => ?abort, fun s t ha hb hd hl hf hz => ?reset, fun s k hk hm => ?spare,
    fun s => ⟨fun h => congrArg _ (if_neg (ne_true_of_eq_false h)), fun h => congrArg _ (if_pos h)⟩⟩
  case period =>
    intro n
    have ho := heartbeatsSent_outOnly s
    have hnext := heartbeatPeriod_next hp hh
    obtain ⟨hheard, htiles, hmem⟩ := periodOver_kept (heartbeatsSent s) n
    exact ⟨periodOver (heartbeatsSent s) n, fun ld hl => periodOver_missed _ (missedPeriods_le s) hl, hheard, htiles.trans (ho.keeps State.tiles), hmem.trans (ho.keeps State.mem),
      fun hn => hnext.trans (congrArg _ (if_neg hn.ne)), fun hn => hnext.trans (congrArg _ (if_pos hn))⟩
  case declared =>
    have hu := declareFailed_inTakeover hp ht h1 cause
    obtain ⟨k, hk, -⟩ := hu.taking
    exact ⟨hu.pair, hu.aborting, Option.isSome_iff_exists.mpr ⟨k, hk⟩⟩
  case abort =>
    have ho := startAbort_begins h step b failed from_
    exact ⟨(ho.keeps State.aborting).trans (abortBegun_aborting ..), fun t ht => (ho.fld .tile t R.TCTL_HOLD).trans (holdAll_holds _ ht)⟩
  case reset =>
    rw [exec_tileHoldTimeout, execTileHoldTimeout, if_pos (by simp [ha, hb, hd, hl, hf, hz])]
  case spare =>
    rw [exec_spareAnswerTimeout, execSpareAnswerTimeout, hk]
    have hnone (hs : k.spare < 2) : ¬ ((!k.moved) = true ∨ k.spare ≥ 2) := by simp [hm, hs]
    exact ⟨fun h => congrArg _ ((if_neg (hnone (by omega))).trans (if_pos h)), fun h => congrArg _ ((if_neg (hnone (by omega))).trans (if_neg (by omega)))⟩

end Sys2Proof.Machine
end

section
/-!
SUPPORT. Commands of the control session (R410, R455, R491, R500, R506, R508, R535, R554, R559–R563): each by the checks that it passes, in their order.
-/

namespace Sys2Proof.Machine

section
variable {s u : State} {sid tag : Nat}

/-! ### The checks that they share -/

/-- A command of another session of the device. -/
theorem controlOnly_other (hc : s.chp.control ≠ some sid) (ho : SessionOpen s sid) (eff : State) :
    controlOnly s sid tag eff = s.tellHost (.response sid tag resNOT_CONTROL 0 []) := (if_neg hc).trans (if_pos ho)

theorem orBusy_free {free : Bool} (h : free = true) (eff : State) : orBusy s sid tag free eff = eff := if_pos h

theorem ifState_passed {ok : Bool} (h : ok = true) (eff : State) : ifState s sid tag ok eff = eff := if_pos h

theorem stagingOk_passed {addr len : Nat} (h : stagingOk addr len = true) : ¬ (!stagingOk addr len) = true := by simp [h]

theorem RegsOnly.sessionOpen (h : RegsOnly s u) (ho : SessionOpen s sid) : SessionOpen u sid := by rwa [SessionOpen, h.chp]

/-! ### States that they leave -/

/-- The device with every tile told to hold by the host. -/
def hostHeld (s : State) : State := (holdAll s).modLodge fun l => { l with hostHold := true }

theorem hostHeld_chp (s : State) : (hostHeld s).chp = s.chp := (State.modLodge_chp ..).trans (holdAll_regsOnly s).chp

theorem hostHeld_toHost (s : State) : (hostHeld s).toHost = s.toHost := (State.modLodge_toHost ..).trans (holdAll_regsOnly s).toHost

theorem hostHeld_holds (s : State) {t : Nat} (ht : t < 2048) : (hostHeld s).tf t R.TCTL_HOLD = 1 :=
  (tf_of_regs (State.modLodge_regs ..) t _).trans (holdAll_holds s ht)

theorem hostHeld_open (ho : SessionOpen s sid) : SessionOpen (hostHeld s) sid := by rwa [SessionOpen, hostHeld_chp]

/-- The device with the image and the layout epoch that it is to hold for. -/
def reshardDue (s : State) (img : List Byte) (layout : Nat) : State := { s with image := img, reshardTo := some layout, stepHold := true }

/-- The hold of the host and of its loss over; a reshard that waits still holds the device. -/
def holdOver (s : State) : State := { s.modLodge (fun l => { l with hostHold := false }) with hostGone := false, stepHold := s.reshardTo.isSome }

section
variable (hc : s.chp.control = some sid)
include hc

/-! ### Power -/

section
variable {target : Nat} (h1 : 1 ≤ target) (h3 : target ≤ 3) (hf : lodgeFree s = true) (hp : pstate s = 2 ∨ pstate s = 3)
include h1 h3 hf hp

/-- POWER in a state that it may leave. -/
theorem effPower_passed : effPower sid tag target s = if target = pstate s then okay s sid tag []
    else powerOn (State.modLodge (if pstate s = 3 then (boundTiles s).foldl (fun s t => taskEnd (taskEnd s t 0) t 1) s else s)
      fun l => { l with power := some ⟨sid, tag, target⟩, rails := l.rails || target == 3 }) :=
  (controlOnly_control hc _).trans <| (if_neg (by omega)).trans <| (orBusy_free hf _).trans (ifState_passed (by simpa using hp) _)

end

/-! ### Images -/

section
variable {addr len : Nat} (hf : lodgeFree s = true) (ha : stagingOk addr len = true)
include hf ha

/-- IMAGE_LOAD up to the check of its image. -/
theorem effImageLoad_checks (hp : pstate s = 3) : effImageLoad sid tag addr len s = (imageFault s (hbmBytes s addr len) (s.fld .ld 0 R.CXEPOCH_LAYOUT)).elim
    (orBusy s sid tag (tilesAsleep s (hbmBytes s addr len))
      (acceptImage (s.modLodge fun l => { l with loading := some ⟨sid, tag, 0⟩, loaded := false }) (hbmBytes s addr len)))
    (imageRefused s sid tag) := by
  refine (controlOnly_control hc _).trans <| (orBusy_free hf _).trans <| (ifState_passed (beq_iff_eq.mpr hp) _).trans <| (if_neg (stagingOk_passed ha)).trans ?_
  dsimp only
  cases imageFault s (hbmBytes s addr len) (s.fld .ld 0 R.CXEPOCH_LAYOUT) <;> rfl

/-- RESHARD up to the check of its image. -/
theorem effReshard_checks {layout : Nat} (hr : s.reshardTo = none) (hp : 3 ≤ pstate s) : effReshard sid tag addr len layout s =
    (imageFault s (hbmBytes s addr len) layout).elim (okay (reshardDue s (hbmBytes s addr len) layout) sid tag []) (imageRefused s sid tag) := by
  refine (controlOnly_control hc _).trans <| (orBusy_free (by simp [hr, hf]) _).trans <| (ifState_allowed hp _).trans <| (if_neg (stagingOk_passed ha)).trans ?_
  dsimp only
  cases imageFault s (hbmBytes s addr len) layout <;> rfl

end

/-! ### The job -/

/-- START of a loaded image on a device of its job. -/
theorem effStart_starts (hf : lodgeFree s = true) (hp : pstate s = 3) (hl : s.lodge.loaded = true) (hleft : s.left = false) (hr : s.replaced = false) :
    let u := s.modLodge fun l => { l with starting := some ⟨sid, tag, 0⟩ }
    effStart sid tag s = startOn (if slotVerifies u u.lodge.slot 2 then (usedPorts u).foldl (fun s p => requestFn s (32 + p) true) u else slotFails u u.lodge.slot 2 11) :=
  (controlOnly_control hc _).trans <| (orBusy_free hf _).trans (ifState_passed (by simp [hp, hl, hleft, hr]) _)

theorem effHold_holds (ho : SessionOpen s sid) (hp : 3 ≤ pstate s) : effHold sid tag s = (hostHeld s).tellHost (.response sid tag 0 0 []) :=
  (controlOnly_control hc _).trans <| (ifState_allowed hp _).trans (okay_open (hostHeld_open ho) [])

/-- RESUME of a session that may not end the hold. -/
theorem effResume_barred (hm : mayResume s sid = false) : effResume sid tag s = hostAnswer s sid tag resSTATE (pstate s) [] :=
  (controlOnly_control hc _).trans (if_neg (by simp [hm]))

section
variable (hp : 3 ≤ pstate s) (hm : mayResume s sid = true)
include hp hm

/-- RESUME releases the tiles that no abort holds; with a tile started the part is in RUN. -/
theorem effResume_resumes : effResume sid tag s =
    let u := if s.aborting.isSome then holdOver s else (List.range 8).foldl releaseTiles (holdOver s)
    okay (if u.tiles.any fun e => e.2.started then setPstate u 4 else u) sid tag [] :=
  (controlOnly_control hc _).trans (ifState_passed (by simp [hp, hm]) _)

theorem effResume_aborting (ha : s.aborting.isSome = true) (ht : (s.tiles.any fun e => e.2.started) = false) : effResume sid tag s = okay (holdOver s) sid tag [] := by
  rw [effResume_resumes hc hp hm, if_pos ha]
  exact congrArg (okay · sid tag []) (if_neg (ne_true_of_eq_false ht))

theorem effResume_released (ha : s.aborting = none) : effResume sid tag s =
    let u := (List.range 8).foldl releaseTiles (holdOver s)
    okay (if u.tiles.any fun e => e.2.started then setPstate u 4 else u) sid tag [] := by
  rw [effResume_resumes hc hp hm, ha]
  rfl

end

theorem effCheckpoint_waits (hk : s.chp.checkpoint = none) (hp : 3 ≤ pstate s) : effCheckpoint sid tag s =
    checkpointOn { s with stepHold := true, chp := { s.chp with checkpoint := some ⟨sid, tag, 0⟩ } } :=
  (controlOnly_control hc _).trans <| (orBusy_free (by rw [hk]; rfl) _).trans (ifState_allowed hp _)

theorem effDataReady_sets (x : Nat) : effDataReady sid tag x s =
    okay (if s.startWaits then startTiles { s with startWaits := false, dataReady := false } else { s with dataReady := true }) sid tag [] := controlOnly_control hc _

theorem effPredEn_waits {p : Nat} (hp : p < 16) (e : Bool) : effPredEn sid tag p e s =
    okay { s with predDue := (s.predDue.filter fun x => x.1 ≠ p) ++ [(p, e)] } sid tag [] := (controlOnly_control hc _).trans (if_neg (Nat.not_le.mpr hp))

/-- TAKEOVER of the partner of a pair. -/
theorem effTakeover_declares (hp : s.fld .ld 0 R.TWCFG_PAIREN = 1) : effTakeover sid tag (s.fld .ld 0 R.TWCFG_PARTNER) s = okay (declareFailed s 3) sid tag [] :=
  (controlOnly_control hc _).trans (if_neg (by simp [hp]))

end

end

/-- Settles O51: each command runs at once, by the checks that it passes, and is answered in a session that is still open. -/
theorem controlCommands : Obligations.ControlCommands := by
  intro s₀ pk tag hf hq hb s sid answer
  have ho : SessionOpen s sid := takePkt_open hf
  have runs {i : Instr} {v : State} (hi : exec i s₀ = .next (takeCommand s₀ pk tag i)) (hv : runCommand i s = v) : exec i s₀ = .next v := exec_command hf hq hb hi hv
  refine ⟨runs rfl (okay_open (s := { s with chp := { s.chp with control := some sid } }) ho []), runs rfl (congrArg (endSession · sid 2) (okay_open ho [])), ?other,
    fun hc => ⟨?power, ?imageLoad, ?start, fun hp => ⟨?hold, ?resumeBarred, ?resumeAborting, ?resume, ?checkpoint, ?reshard⟩, ?dataNoted, ?dataReady, ?predEn, ?takeover⟩⟩
  case other =>
    rintro i (rfl | rfl | rfl | rfl | ⟨x, rfl⟩ | ⟨a, n, rfl⟩ | ⟨x, rfl⟩ | ⟨p, e, rfl⟩ | ⟨a, n, l, rfl⟩ | ⟨x, rfl⟩) hc <;> exact runs rfl (controlOnly_other hc ho _)
  case power =>
    intro target h1 h3 hfree hp
    have hpower := effPower_passed (tag := tag) hc h1 h3 hfree hp
    exact ⟨fun h => runs rfl (hpower.trans ((if_pos h).trans (okay_open ho []))), fun h => runs rfl (hpower.trans (if_neg h))⟩
  case imageLoad =>
    intro addr len hfree hp ha ht
    refine runs rfl ((effImageLoad_checks hc hfree ha hp).trans ?_)
    cases imageFault s (hbmBytes s addr len) (s.fld .ld 0 R.CXEPOCH_LAYOUT) with
    | some n => rfl
    | none => exact orBusy_free ht _
  case start => exact fun hfree hp hl hleft hr => runs rfl (effStart_starts hc hfree hp hl hleft hr)
  case hold =>
    refine ⟨_, runs rfl (effHold_holds hc ho hp), rfl, ?_, fun t ht => (fld_tellHost _ _ .tile t _).trans (hostHeld_holds s ht)⟩
    rw [State.tellHost_toHost, hostHeld_toHost]
  case resumeBarred => exact fun hm => runs rfl (effResume_barred hc hm)
  case resumeAborting => exact fun hm ha ht => runs rfl ((effResume_aborting hc hp hm ha ht).trans (okay_open (s := holdOver s) ho []))
  case resume => exact fun hm ha => runs rfl (effResume_released hc hp hm ha)
  case checkpoint => exact fun hk => runs rfl (effCheckpoint_waits hc hk hp)
  case reshard =>
    intro addr len layout hr hfree ha
    refine runs rfl ((effReshard_checks hc hfree ha hr hp).trans ?_)
    cases imageFault s (hbmBytes s addr len) layout with
    | some n => rfl
    | none => exact okay_open (s := reshardDue s (hbmBytes s addr len) layout) ho []
  case dataNoted =>
    intro x hw
    have hset := (effDataReady_sets (tag := tag) hc x).trans (congrArg (okay · sid tag []) (if_neg (ne_true_of_eq_false hw)))
    exact runs rfl (hset.trans (okay_open (s := { s with dataReady := true }) ho []))
  case dataReady => exact fun x hw => runs rfl ((effDataReady_sets hc x).trans (congrArg (okay · sid tag []) (if_pos hw)))
  case predEn =>
    exact fun p e hp => runs rfl ((effPredEn_waits hc hp e).trans (okay_open (s := { s with predDue := (s.predDue.filter fun x => x.1 ≠ p) ++ [(p, e)] }) ho []))
  case takeover => exact fun hp => runs rfl (effTakeover_declares hc hp)

end Sys2Proof.Machine
end

section
/-!
SUPPORT. The `DLEASE` registers of the dies (R569), and what a grant of the lease and a failure of the arbiter leave (R518–R521, R529).
-/

namespace Sys2Proof.Machine

/-! ### The `DLEASE` of a die -/

/-- A register of one die's block stands in no other's. -/
theorem leaseAddr_ne {n m : Nat} (hn : n < 41) (hm : m < 41) (h : n ≠ m) {x y : Nat} (hx : x < 0x10_0000) (hy : y < 0x10_0000) :
    regAddr (leaseBlock n).1 (leaseBlock n).2 x ≠ regAddr (leaseBlock m).1 (leaseBlock m).2 y := by
  unfold leaseBlock
  split_ifs <;> simp only [regAddr] <;> omega

section
variable {s : State} {n : Nat} {f g : Fld}

theorem lf_setLf_self {v : Nat} (hf : f.Fits) (hv : v < 2 ^ (f.hi + 1 - f.lo)) : (s.setLf n f v).lf n f = v :=
  (State.fld_setFld_self s v hf.1 hf.2).trans (Nat.mod_eq_of_lt hv)

theorem lf_setLf_apart (v : Nat) (hf : f.Fits) (h : f.Apart g) : (s.setLf n f v).lf n g = s.lf n g := fld_setFld_apart v hf h

theorem lf_setLf_ne {m : Nat} (v : Nat) (hf : f.InLd) (hg : g.InLd) (hn : n < 41) (hm : m < 41) (h : n ≠ m) : (s.setLf m f v).lf n g = s.lf n g :=
  State.fld_setFld_ne s v (leaseAddr_ne hn hm h hg.2 hf.2)

theorem setLease_regsOnly (s : State) (f : Fld) (v : Nat) : RegsOnly s (setLease s f v) := .foldl (fun u _ => setFld_regsOnly u _ _ f v) _ s

/-- A field set in every `DLEASE` is set in that of each die. -/
theorem lf_setLease_self (s : State) {v : Nat} (hf : f.InLd) (hn : n < 41) (hv : v < 2 ^ (f.hi + 1 - f.lo)) : (setLease s f v).lf n f = v := by
  have hstays : ∀ l : List Nat, (∀ m ∈ l, m < 41) → ∀ u : State, n ∈ l ∨ u.lf n f = v → (l.foldl (fun s m => s.setLf m f v) u).lf n f = v := by
    intro l
    induction l with
    | nil => exact fun _ u h => h.resolve_left List.not_mem_nil
    | cons m l ih =>
      refine fun hl u h => ih (fun k hk => hl k (.tail _ hk)) _ ?_
      by_cases hm : n = m
      · subst hm; exact .inr (lf_setLf_self hf.1 hv)
      · rw [lf_setLf_ne v hf hf hn (hl m (.head _)) hm]
        exact h.imp_left fun h => (List.mem_cons.mp h).resolve_left hm
  exact hstays _ (fun m hm => List.mem_range.mp hm) s (.inl (List.mem_range.mpr hn))

theorem lf_setLease_apart (s : State) (v : Nat) (hf : f.InLd) (hg : g.InLd) (h : f.Apart g) (hn : n < 41) : (setLease s f v).lf n g = s.lf n g := by
  refine foldl_keeps (fun u => u.lf n g) _ (fun u m hm => ?_) s
  by_cases hnm : n = m
  · subst hnm; exact lf_setLf_apart v hf.1 h
  · exact lf_setLf_ne v hf hg hn (List.mem_range.mp hm) hnm

end

/-! ### The failure of the arbiter (R529) -/

theorem hostEvent_outOnly (s : State) (code : Nat) (sec : Bool) (detail : Nat) : OutOnly s (hostEvent s code sec detail) := .ite rfl rfl

theorem submit_outOnly (s : State) (l : LogSub) : OutOnly s (s.submit l) := rfl

theorem bothLog_outOnly (s : State) (code detail : Nat) : OutOnly s (bothLog s code detail) :=
  .trans (.foldl (fun u _ => submit_outOnly u _) _ s) (hostEvent_outOnly ..)

/-- Every die holds under a failed arbiter, before the failure is logged. -/
def diesHeld (s : State) : State := setLease (setLease (s.modLodge fun l => { l with arbFault := true }) R.DLEASE_HELD 1) R.DLEASE_ARBFAULT 1

theorem arbiterFails_outOnly {s : State} (h : s.lodge.arbFault = false) : OutOnly (diesHeld s) (arbiterFails s) := by
  rw [arbiterFails, if_neg (by rw [h]; decide)]
  exact bothLog_outOnly ..

theorem diesHeld_regsOnly (s : State) : RegsOnly (s.modLodge fun l => { l with arbFault := true }) (diesHeld s) := (setLease_regsOnly ..).trans (setLease_regsOnly ..)

/-- A failed arbiter changes neither the holder nor MRAM nor which gatehouses are up. -/
theorem arbiterFails_keeps {s : State} (h : s.lodge.arbFault = false) :
    (arbiterFails s).lodge = { s.lodge with arbFault := true } ∧ (arbiterFails s).mram = s.mram ∧ (arbiterFails s).ghUp = s.ghUp := by
  have ho := arbiterFails_outOnly h
  have hr := diesHeld_regsOnly s
  exact ⟨(ho.keeps State.lodge).trans (hr.keeps State.lodge), (ho.keeps State.mram).trans (hr.keeps State.mram), (ho.keeps State.ghUp).trans (hr.keeps State.ghUp)⟩

theorem arbiterFails_lease {s : State} (h : s.lodge.arbFault = false) {n : Nat} (hn : n < 41) :
    (arbiterFails s).lf n R.DLEASE_HELD = 1 ∧ (arbiterFails s).lf n R.DLEASE_ARBFAULT = 1 := by
  have ho : ∀ f, (arbiterFails s).lf n f = (diesHeld s).lf n f := (arbiterFails_outOnly h).fld _ _
  rw [ho, ho, diesHeld]
  exact ⟨(lf_setLease_apart (f := R.DLEASE_ARBFAULT) _ 1 (by decide) (by decide) (by decide) hn).trans (lf_setLease_self _ (by decide) hn (by decide)),
    lf_setLease_self _ (by decide) hn (by decide)⟩

/-- A failed arbiter grants nothing and renews nothing. -/
theorem leaseFree_arbFault {s : State} (h : s.lodge.arbFault = true) : leaseFree s = false := by simp [leaseFree, h]

theorem leaseRequest_refused {s : State} (h : leaseFree s = false) (gh : Nat) : exec (.leaseRequest gh) s = .next s := by
  rw [exec_leaseRequest, execLeaseRequest, if_pos (.inr (by rw [h]; rfl))]

theorem leaseRenewRequest_failed {s : State} (h : s.lodge.arbFault = true) (gh : Nat) : exec (.leaseRenewRequest gh) s = .next s := by
  rw [exec_leaseRenewRequest, execLeaseRenewRequest, if_pos (.inl h)]

/-! ### A grant (R518, R520) -/

/-- The new epoch in MRAM and at every die, with the holder. -/
def leaseWritten (s : State) (gh : Nat) : State :=
  setLease (setLease (setLease (s.modMram fun m => { m with epoch := s.mram.epoch + 1 }) R.DLEASE_EPOCH (s.mram.epoch + 1)) R.DLEASE_HOLDER gh) R.DLEASE_VALID 1

/-- The lease granted, before stage 5 of the start-up that a first grant ends. -/
def leaseGranted (s : State) (gh : Nat) : State :=
  (leaseWritten s gh).modLodge fun l => { l with holder := some gh, termOver := false, lapse := false, firstAsk := none, stale := l.stale.filter fun g => g ≠ gh }

theorem grantLease_of {s : State} (h : s.mram.epoch < 2 ^ 32 - 1) (gh : Nat) :
    grantLease s gh = if (leaseGranted s gh).lodge.stage = 4 then stageFive (leaseGranted s gh) else leaseGranted s gh := if_neg (Nat.not_le.mpr h)

theorem grantLease_last {s : State} (h : 2 ^ 32 - 1 ≤ s.mram.epoch) (gh : Nat) : grantLease s gh = arbiterFails s := if_pos h

/-- What stage 5 of the start-up leaves alone: the registers, the epoch and the lease. -/
def LeaseSame (s u : State) : Prop :=
  u.regs = s.regs ∧ u.mram.epoch = s.mram.epoch ∧ u.lodge.holder = s.lodge.holder ∧ u.lodge.termOver = s.lodge.termOver

theorem stageFive_leaseSame (s : State) : LeaseSame s (stageFive s) := by
  simp only [stageFive]
  generalize (if (s.modLodge fun l => { l with stage := max l.stage 5 }).lodge.slot = 0 then _ else _ : FwSlot) = run
  split <;> exact ⟨rfl, rfl, rfl, rfl⟩

theorem grantLease_leaseSame {s : State} (h : s.mram.epoch < 2 ^ 32 - 1) (gh : Nat) : LeaseSame (leaseGranted s gh) (grantLease s gh) := by
  rw [grantLease_of h]
  split
  · exact stageFive_leaseSame _
  · exact ⟨rfl, rfl, rfl, rfl⟩

theorem leaseWritten_regsOnly (s : State) (gh : Nat) : RegsOnly (s.modMram fun m => { m with epoch := s.mram.epoch + 1 }) (leaseWritten s gh) :=
  ((setLease_regsOnly ..).trans (setLease_regsOnly ..)).trans (setLease_regsOnly ..)

theorem leaseWritten_epoch (s : State) (gh : Nat) : (leaseWritten s gh).mram.epoch = s.mram.epoch + 1 :=
  congrArg Mram.epoch ((leaseWritten_regsOnly s gh).keeps State.mram)

/-- Every die takes the new epoch with the holder (R520). -/
theorem lf_leaseWritten {s : State} (h : s.mram.epoch < 2 ^ 32 - 1) {gh n : Nat} (hg : gh < 2) (hn : n < 41) :
    (leaseWritten s gh).lf n R.DLEASE_EPOCH = s.mram.epoch + 1 ∧ (leaseWritten s gh).lf n R.DLEASE_HOLDER = gh ∧ (leaseWritten s gh).lf n R.DLEASE_VALID = 1 := by
  have he : s.mram.epoch + 1 < 2 ^ 32 := by omega
  unfold leaseWritten
  refine ⟨?_, ?_, lf_setLease_self _ (by decide) hn (by decide)⟩
  · rw [lf_setLease_apart _ 1 (by decide) (by decide) (by decide) hn, lf_setLease_apart _ gh (by decide) (by decide) (by decide) hn]
    exact lf_setLease_self _ (by decide) hn he
  · rw [lf_setLease_apart _ 1 (by decide) (by decide) (by decide) hn]
    exact lf_setLease_self _ (by decide) hn hg

theorem grantLease_epoch {s : State} (h : s.mram.epoch < 2 ^ 32 - 1) (gh : Nat) : (grantLease s gh).mram.epoch = s.mram.epoch + 1 := by
  obtain ⟨-, hepoch, -, -⟩ := grantLease_leaseSame h gh
  rw [hepoch, leaseGranted, State.modLodge_mram, leaseWritten_epoch]

theorem lf_grantLease {s : State} (h : s.mram.epoch < 2 ^ 32 - 1) (gh n : Nat) (f : Fld) : (grantLease s gh).lf n f = (leaseWritten s gh).lf n f := by
  obtain ⟨hregs, -, -, -⟩ := grantLease_leaseSame h gh
  have hkept : (grantLease s gh).regs = (leaseWritten s gh).regs := by rw [hregs, leaseGranted, State.modLodge_regs]
  simp only [State.lf, State.fld, reg_of_regs hkept]

/-- Settles O60: no step lowers the epoch, since `Good` keeps it; a grant raises it by one, and at its last value the arbiter fails. -/
theorem leaseEpochNeverFalls : Obligations.LeaseEpochNeverFalls := by
  refine ⟨fun s t h => ?_, fun s gh => ⟨fun h => grantLease_epoch h gh, fun h => grantLease_last (Nat.le_of_eq h.symm) gh⟩, fun s h => ?_⟩
  · obtain ⟨-, -, -, hle, hlt⟩ := step_good h
    exact ⟨hle, hlt⟩
  · obtain ⟨hlodge, -, -⟩ := arbiterFails_keeps h
    have hfault : (arbiterFails s).lodge.arbFault = true := by rw [hlodge]
    exact ⟨hfault, by rw [hlodge], fun gh => ⟨fun _ => leaseRequest_refused (leaseFree_arbFault hfault) gh, leaseRenewRequest_failed hfault gh⟩⟩

section
variable {s : State} {gh : Nat}

theorem leaseFree_works (h : leaseFree s = true) : s.lodge.arbFault = false := by
  cases hf : s.lodge.arbFault with
  | false => rfl
  | true => rw [leaseFree_arbFault hf] at h; cases h

theorem grantLease_lodge (h : s.mram.epoch < 2 ^ 32 - 1) (gh : Nat) : (grantLease s gh).lodge.holder = some gh ∧ (grantLease s gh).lodge.termOver = false := by
  obtain ⟨-, -, hholder, hterm⟩ := grantLease_leaseSame h gh
  exact ⟨hholder, hterm⟩

/-! ### What a gatehouse that is up asks while no term runs (R518–R520) -/

/-- The first lease (R520): GH-S alone waits for GH-N. -/
def firstLease (s : State) (gh : Nat) : State :=
  match s.lodge.firstAsk with
  | none => if gh = 0 then grantLease s 0 else s.modLodge fun l => { l with firstAsk := some s.ticks }
  | some t => if gh = 0 ∧ s.ticks < t + msTicks then grantLease s 0 else grantLease s 1

section
variable (hup : s.ghUp.contains gh = true) (hfree : leaseFree s = true)
include hup hfree

theorem leaseRequest_heard : exec (.leaseRequest gh) s = .next (if s.lodge.stage ≠ 4 ∨ s.lodge.holder.isSome then grantLease s gh else firstLease s gh) :=
  congrArg _ (if_neg (by simp only [hup, hfree]; decide))

theorem leaseRequest_first (hs : s.lodge.stage = 4) (hh : s.lodge.holder = none) : exec (.leaseRequest gh) s = .next (firstLease s gh) := by
  rw [leaseRequest_heard hup hfree, if_neg (by simp [hs, hh])]

theorem leaseRequest_grants (h : s.lodge.stage ≠ 4 ∨ s.lodge.holder.isSome = true ∨ (gh = 0 ∧ s.lodge.firstAsk = none)) :
    exec (.leaseRequest gh) s = .next (grantLease s gh) := by
  by_cases hfirst : s.lodge.stage ≠ 4 ∨ s.lodge.holder.isSome = true
  · rw [leaseRequest_heard hup hfree, if_pos hfirst]
  · obtain ⟨hgh, hask⟩ : gh = 0 ∧ s.lodge.firstAsk = none := by tauto
    rw [leaseRequest_heard hup hfree, if_neg hfirst, firstLease, hask, hgh]
    rfl

theorem leaseRenewRequest_asks (h : ¬ (s.lodge.holder = some gh ∧ s.lodge.termOver = false)) : exec (.leaseRenewRequest gh) s = .next (grantLease s gh) := by
  rw [exec_leaseRenewRequest, execLeaseRenewRequest, if_neg (by simp [leaseFree_works hfree, List.contains_iff_mem.mp hup]), if_neg (by simpa using h), if_pos hfree]

end

theorem leaseRenewRequest_renews (ha : s.lodge.arbFault = false) (hup : s.ghUp.contains gh = true) (hh : s.lodge.holder = some gh) (ht : s.lodge.termOver = false) :
    exec (.leaseRenewRequest gh) s = .next (s.modLodge fun l => { l with lapse := false }) := by
  rw [exec_leaseRenewRequest, execLeaseRenewRequest, if_neg (by simp [ha, List.contains_iff_mem.mp hup]), if_pos ⟨hh, by rw [ht]; rfl⟩]

/-! ### Keepalives (R528) and a stale command (R527) -/

/-- A report to a gatehouse changes the registers of gatehouses alone. -/
theorem mailReport_regBelow {x : Nat} (hx : x < 0xE8_0000_0000) (g : Nat) (r : List Word) : (mailReport s g r).reg x = s.reg x := by
  have hptr : x ≠ regAddr .gh g R.GHMBOX := by simp only [regAddr]; omega
  rw [mailReport]
  split
  · exact reg_putReport_outside hptr (.inl (by simp only [regAddr]; omega))
  · split
    · rfl
    · rw [State.reg_setReg, if_neg hptr]

theorem leaseAddr_below {n off : Nat} (hn : n < 41) (ho : off < 0x10_0000) : regAddr (leaseBlock n).1 (leaseBlock n).2 off < 0xE8_0000_0000 := by
  unfold leaseBlock
  split_ifs <;> simp only [regAddr] <;> omega

/-- A die that has missed its keepalives holds, before it reports that. -/
def missed (s : State) (n : Nat) : State := (s.setLf n R.DLEASE_LODGEOK 0).setLf n R.DLEASE_HELD 1

/-- Two states that agree in the registers below those of the gatehouses, in tiles and in memory. -/
def BelowGh (s u : State) : Prop := (∀ x, x < 0xE8_0000_0000 → u.reg x = s.reg x) ∧ u.tiles = s.tiles ∧ u.mem = s.mem

theorem BelowGh.trans {u v : State} (h : BelowGh s u) (g : BelowGh u v) : BelowGh s v :=
  ⟨fun x hx => (g.1 x hx).trans (h.1 x hx), g.2.1.trans h.2.1, g.2.2.trans h.2.2⟩

theorem BelowGh.lf {u : State} (h : BelowGh s u) {n : Nat} {f : Fld} (hn : n < 41) (hf : f.InLd) : u.lf n f = s.lf n f :=
  congrArg (wget · f.hi f.lo) (h.1 _ (leaseAddr_below hn hf.2))

theorem belowGh_repSeq (s : State) (q : List (Nat × Nat)) : BelowGh s { s with repSeq := q } := ⟨fun _ _ => rfl, rfl, rfl⟩

/-- A report into a gatehouse's mailbox, which that gatehouse logs and tells the host. -/
theorem mailed_belowGh (s : State) (g : Nat) (r : List Word) (l : LogSub) (code detail : Nat) : BelowGh s (hostEvent ((mailReport s g r).submit l) code false detail) := by
  have ho : OutOnly (mailReport s g r) (hostEvent ((mailReport s g r).submit l) code false detail) := (submit_outOnly ..).trans (hostEvent_outOnly ..)
  have hm := (mailReport_reported s g r).1
  refine ⟨fun x hx => (ho.keeps (State.reg · x)).trans (mailReport_regBelow hx g r), (ho.keeps State.tiles).trans ?_, (ho.keeps State.mem).trans ?_⟩
  · rw [hm]
  · rw [hm]

theorem keepaliveMissed_reports {n : Nat} (h : s.lf n R.DLEASE_LODGEOK = 1) : ∃ u, exec (.keepaliveMissed n) s = .next u ∧ BelowGh (missed s n) u := by
  rw [exec_keepaliveMissed, execKeepaliveMissed, if_neg (by rw [h]; decide)]
  refine ⟨_, rfl, ?_⟩
  extract_lets u other kind num key seq v w
  have hv : BelowGh (missed s n) v := belowGh_repSeq (missed s n) _
  exact hv.trans (mailed_belowGh v other _ _ _ _)

theorem missed_holds (s : State) {n : Nat} : (missed s n).lf n R.DLEASE_LODGEOK = 0 ∧ (missed s n).lf n R.DLEASE_HELD = 1 :=
  ⟨(lf_setLf_apart (f := R.DLEASE_HELD) 1 (by decide) (by decide)).trans (lf_setLf_self (by decide) (by decide)), lf_setLf_self (by decide) (by decide)⟩

theorem ghFails_ends (s : State) (gh : Nat) : gh ∉ (ghFails s gh).ghUp ∧ gh ∈ (ghFails s gh).ghFailed ∧ ∀ g, g ≠ gh → (g ∈ (ghFails s gh).ghUp ↔ g ∈ s.ghUp) := by
  simp only [ghFails]
  refine ⟨by simp, ?_, fun g hg => by simp [hg]⟩
  split
  · next h => exact List.contains_iff_mem.mp h
  · simp

theorem staleCommand_notes (h : s.ghUp.contains gh = true) : ∃ u, exec (.staleCommand gh) s = .next u ∧ gh ∈ u.lodge.stale ∧ u.regs = s.regs ∧ u.tiles = s.tiles := by
  rw [exec_staleCommand, execStaleCommand, if_neg (by rw [h]; decide)]
  exact ⟨_, rfl, List.mem_append_right _ (.head _), rfl, rfl⟩

theorem clearHeld_resumed {n : Nat} (h : s.lf n R.DLEASE_LODGEOK = 1) :
    clearHeld s n = if n < 8 then (List.range 256).foldl (fun s i => unhold s (256 * n + i)) (s.setLf n R.DLEASE_HELD 0) else s.setLf n R.DLEASE_HELD 0 :=
  if_neg (by rw [h]; decide)

theorem lodgeKeepalive_seen (ho : s.lodge.off = false) (hp : s.lodge.porst = false) (hx : s.lodge.pvX = true) :
    exec .lodgeKeepalive s = .next (serve (checkpointOn (startOn (lookRun (powerOn (setLease s R.DLEASE_LODGEOK 1)))))) := by
  rw [exec_lodgeKeepalive, execLodgeKeepalive, if_neg (by simp [ho, hp, hx])]

end

/-- Settles O47: the requests by what `leaseFree` says, a grant and the failure of the arbiter by the `DLEASE` registers that they set, the rest by one branch each. -/
theorem leaseAndLodge : Obligations.LeaseAndLodge := by
  refine ⟨fun s gh hgh hup hfree => ⟨leaseRequest_grants hup hfree, fun hs hh h1 => ⟨fun ha => ?asks, fun t ha => ?both⟩, fun hs hh h0 t ha ht => ?first, leaseRenewRequest_asks hup hfree,
      fun he => ?granted, fun he => ?last⟩, fun s gh => leaseRenewRequest_renews,
    fun s => ⟨rfl, rfl, rfl, fun ha => ?fault, fun gh => ?failstop, lodgeKeepalive_seen, fun n hn => lf_setLease_self s (by decide) hn (by decide)⟩,
    fun s n hn hl => ?missed, fun s n hn => ⟨fun h => congrArg _ (if_pos h), fun h => congrArg _ (clearHeld_resumed h), lf_setLf_self (by decide) (by decide)⟩, fun s gh => staleCommand_notes⟩
  case asks => rw [leaseRequest_first hup hfree hs hh, firstLease, ha, h1]; rfl
  case both => rw [leaseRequest_first hup hfree hs hh, firstLease, ha, h1]; rfl
  case first => rw [leaseRequest_first hup hfree hs hh, firstLease, ha, h0]; exact congrArg _ (if_pos ⟨rfl, ht⟩)
  case granted =>
    obtain ⟨hholder, hterm⟩ := grantLease_lodge he gh
    refine ⟨grantLease_epoch he gh, hholder, hterm, fun n hn => ?_⟩
    rw [lf_grantLease he, lf_grantLease he, lf_grantLease he]
    exact lf_leaseWritten he hgh hn
  case last =>
    obtain ⟨hlodge, hmram, -⟩ := arbiterFails_keeps (leaseFree_works hfree)
    rw [grantLease_last he, hmram, hlodge]
    exact ⟨rfl, rfl⟩
  case fault =>
    obtain ⟨hlodge, -, -⟩ := arbiterFails_keeps ha
    exact ⟨_, rfl, by rw [hlodge], fun n hn => arbiterFails_lease ha hn⟩
  case failstop =>
    obtain ⟨hdown, hfailed, hothers⟩ := ghFails_ends s gh
    exact ⟨_, rfl, hdown, hfailed, hothers, rfl⟩
  case missed =>
    obtain ⟨u, hu, hb⟩ := keepaliveMissed_reports hl
    obtain ⟨hok, hheld⟩ := missed_holds s (n := n)
    exact ⟨u, hu, (hb.lf hn (by decide)).trans hok, (hb.lf hn (by decide)).trans hheld, hb.2.1, hb.2.2⟩

/-- Settles O1: `step` is defined so. -/
theorem stepRunsFront : Obligations.StepRunsFront := fun _ _ _ => rfl

end Sys2Proof.Machine
end

section
/-!
SUPPORT. The instructions of the scalar engine on a quiet tile (R621, R625–R629, R635): each dispatches at once with the registers that it reads, under its predicate.
-/

namespace Sys2Proof.Machine

section
variable {s : State} {t c : Nat}

/-! ### The predicate -/

theorem predicated_on {p : BitVec 3} (h : lane0 s t c p = true) (v : State) : predicated (issued s t) t c p v = v := if_pos (by rw [lane0_issued, h])

theorem predicated_off {p : BitVec 3} (h : lane0 s t c p = false) (v : State) : predicated (issued s t) t c p v = issued s t := if_neg (by rw [lane0_issued, h]; decide)

/-! ### Windows and bytes as after the issue -/

theorem inProgArea_issued (off : Nat) : inProgArea (issued s t) t off = inProgArea s t off := by
  have h0 : (issued s t).tf t R.TPROG_PBANK = s.tf t R.TPROG_PBANK := tf_issued (.inl (by decide))
  have h1 : (issued s t).tf t R.TPROG_BBANK = s.tf t R.TPROG_BBANK := tf_issued (.inl (by decide))
  have h2 : (issued s t).tf t R.SPCFG_PGRP = s.tf t R.SPCFG_PGRP := tf_issued (.inl (by decide))
  have h3 : (issued s t).tf t R.SPCFG_BGRP = s.tf t R.SPCFG_BGRP := tf_issued (.inl (by decide))
  have h4 : ∀ c, areaLen (issued s t) t c = areaLen s t c := fun c => by
    have hp : (issued s t).tf t R.TPROG_PWIDE = s.tf t R.TPROG_PWIDE := tf_issued (.inl (by decide))
    have hb : (issued s t).tf t R.TPROG_BWIDE = s.tf t R.TPROG_BWIDE := tf_issued (.inl (by decide))
    simp only [areaLen, hp, hb]
  simp only [inProgArea, h0, h1, h2, h3, h4]

theorem localDst_issued (x len : Nat) : localDst (issued s t) t c x len = localDst s t c x len := by
  simp only [localDst, localOffset_issued, inProgArea_issued]

theorem scalarAt_issued (k : Nat) (imm : BitVec 32) (n : Nat) (store : Bool) : scalarAt (issued s t) t c k imm n store = scalarAt s t c k imm n store := by
  simp only [scalarAt, window_issued, localDst_issued, localOffset_issued]

theorem ownByte_issued (x : Nat) : ownByte (issued s t) t x = ownByte s t x := by
  have hgb : ((issued s t).tile t).gb = (s.tile t).gb := by rw [tile_issued, if_pos rfl, Tile.modCtx]; split <;> rfl
  simp only [ownByte, gbFind, hgb]
  rfl

theorem ownRd_issued (off n : Nat) : ownRd (issued s t) t off n = ownRd s t off n := by simp only [ownRd, ownByte_issued]

/-! ### The gather buffer in the course of scalar loads and stores (R94, R95, R98) -/

theorem gbOnly_drained (g : Tile → List GbEntry) : Drained s (s.modTile t fun x => { x with gb := g x }) t :=
  ⟨rfl, fun k hk => by rw [State.tile_modTile, if_neg hk], by rw [State.tile_modTile, if_pos rfl]⟩

theorem Drained.foldl {α : Type} {f : State → α → State} (hf : ∀ s x, Drained s (f s x) t) (l : List α) (s : State) : Drained s (l.foldl f s) t :=
  List.foldlRecOn (motive := fun u => Drained s u t) l f (Drained.refl s t) fun u hu x _ => hu.trans (hf u x)

theorem gbMakeRoom_drained : Drained s (gbMakeRoom s t) t := by
  unfold gbMakeRoom
  split
  · exact .refl s t
  · split
    · exact .refl s t
    · exact (drainRow_drained _).trans (gbOnly_drained _)

theorem gbFill_drained (off n : Nat) : Drained s (gbFill s t off n) t := by
  refine .foldl (fun s row => ?_) _ s
  split
  · exact .refl s t
  · exact gbMakeRoom_drained.trans (gbOnly_drained _)

theorem gbWriteRow_drained (row lo : Nat) (bs : List Byte) (qp : Bool) : Drained s (gbWriteRow s t row lo bs qp) t := by
  unfold gbWriteRow
  extract_lets u e put full e' v
  have hu : Drained s u t := by
    dsimp only [u]
    split
    · exact .refl s t
    · exact gbMakeRoom_drained
  have hv : Drained s v t := hu.trans (gbOnly_drained _)
  split
  · exact hv.trans (drainRow_drained row)
  · exact hv

theorem gbWrite_drained (off : Nat) (bs : List Byte) (qp : Bool) : Drained s (gbWrite s t off bs qp) t :=
  .foldl (fun _ _ => gbWriteRow_drained ..) _ s

/-- What a drain leaves alone lets the tile settle as after its issue. -/
theorem settle_drained (h : Quiet s t) {u : State} (hd : Drained (issued s t) u t) : settle u t = clockRest u t := by
  obtain ⟨hheld, hrecv⟩ := tile_issued_parts h
  have hregs := hd.regs
  obtain ⟨-, -, htile⟩ := hd
  exact settle_of h (reg_of_regs hregs _) (by rw [htile]; exact hheld) (by rw [htile]; exact hrecv)

/-- A scalar register written after that changes neither. -/
theorem settle_setS_drained (h : Quiet s t) {u : State} (hd : Drained (issued s t) u t) (n : Nat) (v : Word) :
    settle (setS u t c n v) t = clockRest (setS u t c n v) t := by
  obtain ⟨hheld, hrecv⟩ := tile_issued_parts h
  have hregs := hd.regs
  obtain ⟨-, -, htile⟩ := hd
  obtain ⟨-, hflights, -, -, -, hkept, -⟩ := modCtx_parts (u.tile t) c fun x => { x with s := mput (fun _ => 0) x.s n v }
  refine settle_of h (reg_of_regs hregs _) ?_ ?_
  · rw [setS, State.tile_modCtx, if_pos rfl, hkept, htile]; exact hheld
  · rw [setS, State.tile_modCtx, if_pos rfl, recvBlockedOn, hflights, htile]; exact hrecv

/-! ### Issue and dispatch -/

section
variable (h : Quiet s t) {f : FmtS3} (hw : waitMet s t f.wait = true) (hz : f.z = 0)
include h hw hz

theorem salu_dispatches (hf : f.func.toNat < 16) (hr : f.func = 0x0E → f.ra = 0) :
    exec (.salu t f) s = .next (settle (predicated (issued s t) t (s.actx t) f.pred
      (setS (issued s t) t (s.actx t) f.rd.toNat (saluOp f.func.toNat (rs s t (s.actx t) f.ra.toNat) (rs s t (s.actx t) f.rb.toNat)))) t) := by
  have hlegal : (decide (f.func.toNat < 16) && f.z == 0 && (f.func != 0x0E || f.ra == 0)) = true := by simp [hf, hz]; tauto
  rw [exec_salu, execSalu, issue_sc h _ hlegal rfl hw (Nat.zero_le _), effSalu, actx_eq, rs_issued, rs_issued]

theorem smul_dispatches (hf : f.func.toNat < 8) (hr : f.func ≠ 7 → f.rc = 0) :
    exec (.smul t f) s = .next (settle (predicated (issued s t) t (s.actx t) f.pred (setS (issued s t) t (s.actx t) f.rd.toNat
      (smulOp f.func.toNat (rs s t (s.actx t) f.ra.toNat) (rs s t (s.actx t) f.rb.toNat) (rs s t (s.actx t) f.rc.toNat)))) t) := by
  have hlegal : (decide (f.func.toNat < 8) && f.z == 0 && (f.func == 7 || f.rc == 0)) = true := by simp [hf, hz]; tauto
  rw [exec_smul, execSmul, issue_sc h _ hlegal rfl hw (Nat.zero_le _), effSmul, actx_eq, rs_issued, rs_issued, rs_issued]

theorem scmp_dispatches (hf : f.func.toNat < 6) (hd : f.rd.toNat < 8) :
    exec (.scmp t f) s = .next (settle (predicated (issued s t) t (s.actx t) f.pred (setP (issued s t) t (s.actx t) f.rd.toNat
      (if scmpOp f.func.toNat (rs s t (s.actx t) f.ra.toNat) (rs s t (s.actx t) f.rb.toNat) then BitVec.allOnes 256 else 0))) t) := by
  have hlegal : (decide (f.func.toNat < 6) && decide (f.rd.toNat < 8) && f.z == 0) = true := by simp [hf, hz, hd]
  rw [exec_scmp, execScmp, issue_sc h _ hlegal rfl hw (Nat.zero_le _), effScmp, actx_eq, rs_issued, rs_issued]

end

theorem scalarFoot_fits (f : FmtSI) (store : Bool) : (scalarFoot s t f store).ranges.length ≤ 31 := by
  unfold scalarFoot
  dsimp only
  split <;> simp

section
variable (h : Quiet s t) {f : FmtSI}
include h

theorem salui_dispatches (hf : f.func.toNat < 16) (hr : f.func = 0x0E → f.ra = 0) :
    exec (.salui t f) s = .next (settle (predicated (issued s t) t (s.actx t) f.pred
      (setS (issued s t) t (s.actx t) f.rd.toNat (saluOp f.func.toNat (rs s t (s.actx t) f.ra.toNat) (f.imm.signExtend 64)))) t) := by
  have hlegal : (decide (f.func.toNat < 16) && (f.func != 0x0E || f.ra == 0)) = true := by simp [hf]; tauto
  rw [exec_salui, execSalui, issue_sc h _ hlegal rfl waitMet_zero (Nat.zero_le _), effSalui, actx_eq, rs_issued]
  rfl

/-- The register that an AOP writes: a scalar one for AGET, else an address register. -/
def aopWrites (s : State) (t c : Nat) (f : FmtSI) (v : Word) : State := if f.func = 2 then setS s t c f.rd.toNat v else setA s t c f.rd.toNat v

theorem aop_dispatches (hl : aopLegal f = true) :
    exec (.aop t f) s = .next (settle (predicated (issued s t) t (s.actx t) f.pred
      (aopWrites (issued s t) t (s.actx t) f (aopOp f.func.toNat (ra s t (s.actx t) f.ra.toNat) (rs s t (s.actx t) f.ra.toNat) f.imm))) t) := by
  rw [exec_aop, execAop, issue_sc h _ hl rfl waitMet_zero (Nat.zero_le _), effAop, actx_eq, rs_issued, ra_issued]
  rfl

theorem settle_aopWrites (v : Word) : settle (aopWrites (issued s t) t c f v) t = clockRest (aopWrites (issued s t) t c f v) t := by
  unfold aopWrites
  split
  · exact settle_setS h _ _ _
  · exact settle_setA h _ _ _

theorem sld_dispatches (hf : f.func.toNat < 8) (ha : f.ra.toNat < 16) : exec (.sld t f) s = .next (settle (effSld t f (queuedOf s t
    { instr := .sld t f, eng := .sc, wait := 0, legal := decide (f.func.toNat < 8) && decide (f.ra.toNat < 16),
      foot := scalarFoot s t f false, need := [idA f.ra.toNat], vals := [], desc := none }) (issued s t)) t) :=
  congrArg _ (issue_sc h _ (by simp [hf, ha]) rfl waitMet_zero (scalarFoot_fits f false))

theorem sst_dispatches (hf : f.func.toNat < 4) (ha : f.ra.toNat < 16) : exec (.sst t f) s = .next (settle (effSst t f (queuedOf s t
    { instr := .sst t f, eng := .sc, wait := 0, legal := decide (f.func.toNat < 4) && decide (f.ra.toNat < 16),
      foot := scalarFoot s t f true, need := [idA f.ra.toNat], vals := [], desc := none }) (issued s t)) t) :=
  congrArg _ (issue_sc h _ (by simp [hf, ha]) rfl waitMet_zero (scalarFoot_fits f true))

end

/-! ### CRD (R635) -/

theorem cntst_issued (n : Nat) : (issued s t).reg (regAddr .tile t (R.CNTST c n)) = s.reg (regAddr .tile t (R.CNTST c n)) := by
  have hoff : R.CNTST c n ≠ R.TSTAT := by simp only [R.TSTAT, R.CNTST]; omega
  exact (reg_advance _).trans (if_neg (tileAddr_ne hoff))

section
variable (h : Quiet s t) {f : FmtC} (hl : f = { cZero with cnt := f.cnt, reg := f.reg, sub := f.sub, clr := f.clr })
include h

theorem settle_clearsCntst (n m : Nat) (v : Word) : let u := (setS (issued s t) t c n v).setReg (regAddr .tile t (R.CNTST c m)) 0
    settle u t = clockRest u t := by
  obtain ⟨hheld, hrecv⟩ := tile_issued_parts h
  obtain ⟨-, hflights, -, -, -, hkept, -⟩ := modCtx_parts ((issued s t).tile t) c fun x => { x with s := mput (fun _ => 0) x.s n v }
  have hoff : R.TSTAT ≠ R.CNTST c m := by simp only [R.TSTAT, R.CNTST]; omega
  refine settle_of h ((State.reg_setReg ..).trans (if_neg (tileAddr_ne hoff))) ?_ ?_
  · rw [State.tile_setReg, setS, State.tile_modCtx, if_pos rfl, hkept]; exact hheld
  · rw [State.tile_setReg, setS, State.tile_modCtx, if_pos rfl, recvBlockedOn, hflights]; exact hrecv

include hl

/-- The legality of a CRD is a matter of its fields alone. -/
theorem crd_dispatches (hs : f.sub.toNat < 2) (hc : f.clr = true → f.sub = 1) :
    ∃ q : Queued, q.ctx = s.actx t ∧ exec (.crd t f) s = .next (settle (effCrd t f q (issued s t)) t) := by
  refine ⟨_, rfl, congrArg _ (issue_sc h _ ?_ rfl waitMet_zero (Nat.zero_le _))⟩
  rw [hl]
  cases hcl : f.clr with
  | false => simp [hs, cZero]
  | true => simp [hc hcl, cZero]

theorem crd_value (hs : f.sub = 0) (hc : f.clr = false) :
    exec (.crd t f) s = .next (clockRest (setS (issued s t) t (s.actx t) f.reg.toNat (.ofNat 64 (cntVal s t (s.actx t) f.cnt.toNat))) t) := by
  obtain ⟨q, hq, hcrd⟩ := crd_dispatches h hl (by rw [hs]; decide) (by rw [hc]; exact fun h => by cases h)
  rw [hcrd, effCrd, if_pos hs, hq, cntVal_issued, settle_setS h]

theorem crd_status (hs : f.sub = 1) (hc : f.clr = false) :
    exec (.crd t f) s = .next (clockRest (setS (issued s t) t (s.actx t) f.reg.toNat (s.reg (regAddr .tile t (R.CNTST (s.actx t) f.cnt.toNat)))) t) := by
  obtain ⟨q, hq, hcrd⟩ := crd_dispatches h hl (by rw [hs]; decide) (fun _ => hs)
  rw [hcrd, effCrd, if_neg (by rw [hs]; decide), hc, if_neg (by decide), hq, cntst_issued, settle_setS h]

theorem crd_statusCleared (hs : f.sub = 1) (hc : f.clr = true) :
    exec (.crd t f) s = .next (clockRest ((setS (issued s t) t (s.actx t) f.reg.toNat (s.reg (regAddr .tile t (R.CNTST (s.actx t) f.cnt.toNat)))).setReg
      (regAddr .tile t (R.CNTST (s.actx t) f.cnt.toNat)) 0) t) := by
  obtain ⟨q, hq, hcrd⟩ := crd_dispatches h hl (by rw [hs]; decide) (fun _ => hs)
  rw [hcrd, effCrd, if_neg (by rw [hs]; decide), hc, if_pos rfl, hq, cntst_issued, settle_clearsCntst h]

end

end

/-- Settles O2: each instruction dispatches under its predicate, which is set, and the tile settles with its result written. -/
theorem scalarResults : Obligations.ScalarResults := by
  refine ⟨fun s t h => ⟨fun f hw hp hz hf hr => ?_, fun f hp hf hr => ?_, fun f hw hp hz hf hr => ?_, fun f hw hp hz hf hd => ?_, fun f hp hl => ?_⟩,
    fun s t h cnt reg => ⟨crd_value h rfl rfl rfl, crd_status h rfl rfl rfl, crd_statusCleared h rfl rfl rfl⟩⟩
  · rw [salu_dispatches h hw hz hf hr, predicated_on hp, settle_setS h]
  · rw [salui_dispatches h hf hr, predicated_on hp, settle_setS h]
  · rw [smul_dispatches h hw hz hf hr, predicated_on hp, settle_setS h]
  · rw [scmp_dispatches h hw hz hf hd, predicated_on hp, settle_setP h]
  · rw [aop_dispatches h hl, predicated_on hp, settle_aopWrites h]
    rfl

/-- Settles O4: SLD and SST go where `scalarAt` says, in the state after their issue as in that before it; what a load fills and a store writes is the gather buffer. -/
theorem scalarMemory : Obligations.ScalarMemory := by
  refine fun s t f h hp ha => ⟨fun hf o ho => ?loadMem, fun hf o ho => ?loadReg, fun hf o ho => ?storeMem, fun hf o ho => ?storeReg⟩
  case loadMem =>
    rw [sld_dispatches h hf ha, effSld, actx_eq, predicated_on hp, chk_of_ok ((scalarAt_issued ..).trans ho)]
    dsimp only
    rw [ownRd_issued, settle_setS_drained h (gbFill_drained ..)]
  case loadReg => rw [sld_dispatches h hf ha, effSld, actx_eq, predicated_on hp, chk_of_ok ((scalarAt_issued ..).trans ho), settle_setS h]
  case storeMem => rw [sst_dispatches h hf ha, effSst, actx_eq, predicated_on hp, chk_of_ok ((scalarAt_issued ..).trans ho), rs_issued, settle_drained h (gbWrite_drained ..)]
  case storeReg => rw [sst_dispatches h hf ha, effSst, actx_eq, predicated_on hp, chk_of_ok ((scalarAt_issued ..).trans ho), rs_issued]

end Sys2Proof.Machine
end

section
/-!
SUPPORT. The instructions that the sequencer executes itself, on a quiet tile (R630–R632, R634, R639, R645, R646, R649): branches, loops, and the waits that hold the sequencer.
-/

namespace Sys2Proof.Machine

/-! ### One tile changed twice -/

theorem mdrop_mdrop {β : Type} (p : Nat → Bool) (m : List (Nat × β)) : mdrop p (mdrop p m) = mdrop p m := by
  simp [mdrop]

section
variable {β : Type} [DecidableEq β] {d : Nat → β}

/-- A second value at one key of a map replaces the first. -/
theorem mput_mput (m : List (Nat × β)) (k : Nat) (v w : β) : mput d (mput d m k v) k w = mput d m k w := by
  induction m with
  | nil => by_cases hv : v = d k <;> simp [mput, hv]
  | cons e m ih =>
    obtain ⟨k', v'⟩ := e
    by_cases hk : k = k'
    · simp only [mput, if_pos hk, ih]
    · by_cases hlt : k < k'
      · by_cases hv : v = d k <;> simp [mput, hk, hlt, hv, mdrop_mdrop]
      · simp only [mput, if_neg hk, if_neg hlt, ih]

end

section
variable {s u : State} {t c : Nat}

theorem State.modTile_modTile (f g : Tile → Tile) : (s.modTile t f).modTile t g = s.modTile t fun x => g (f x) := by
  have ht : (s.modTile t f).tile t = f (s.tile t) := by rw [State.tile_modTile, if_pos rfl]
  rw [State.modTile, ht]
  exact congrArg (fun m => { s with tiles := m }) (mput_mput ..)

theorem State.modTile_congr {f g : Tile → Tile} (h : f (s.tile t) = g (s.tile t)) : s.modTile t f = s.modTile t g := congrArg (s.setTile t) h

theorem State.modCtx_congr {f g : Ctx → Ctx} (h : f ((s.tile t).ctx c) = g ((s.tile t).ctx c)) : s.modCtx t c f = s.modCtx t c g := by
  refine State.modTile_congr ?_
  by_cases hc : c = 0
  · simp only [Tile.ctx, if_pos hc] at h
    simp only [Tile.modCtx, if_pos hc, h]
  · simp only [Tile.ctx, if_neg hc] at h
    simp only [Tile.modCtx, if_neg hc, h]

/-! ### Where a quiet tile settles after an instruction of the sequencer -/

theorem settle_clearsBoundary (h : Quiet s t) (hr : u.regs = s.regs) (hh : (u.tile t).held = none) (hb : recvBlockedOn (u.tile t) = none) :
    settle (u.setTf t R.TSTAT_BOUNDARY 0) t = clockRest (u.setTf t R.TSTAT_BOUNDARY 0) t := by
  refine settle_of h ?_ hh hb
  change _ = (advance s t).reg (regAddr .tile t R.TSTAT)
  rw [reg_advance, if_pos rfl, ← reg_of_regs hr]
  exact (State.reg_setTf ..).trans (if_pos rfl)

theorem quiet_idle (h : Quiet s t) : (s.tile t).held = none ∧ recvBlockedOn (s.tile t) = none := by
  obtain ⟨-, -, -, -, hheld⟩ := canIssue_parts h.issues
  exact ⟨hheld, by rw [recvBlockedOn, h.flights]; rfl⟩

/-- A context that has changed leaves the tile's hold and flights alone. -/
theorem settle_sequenced (h : Quiet s t) (f : Ctx → Ctx) :
    settle ((s.modCtx t c f).setTf t R.TSTAT_BOUNDARY 0) t = clockRest ((s.modCtx t c f).setTf t R.TSTAT_BOUNDARY 0) t := by
  obtain ⟨hheld, hrecv⟩ := quiet_idle h
  obtain ⟨-, hflights, -, -, -, hkept, -⟩ := modCtx_parts (s.tile t) c f
  refine settle_clearsBoundary h rfl ?_ ?_
  · rw [State.tile_modCtx, if_pos rfl, hkept, hheld]
  · rw [State.tile_modCtx, if_pos rfl, recvBlockedOn, hflights]; exact hrecv

theorem settle_advance (h : Quiet s t) : settle (advance s t) t = clockRest (advance s t) t := settle_sequenced h Ctx.advance

theorem branchWaits_quiet (h : Quiet s t) (rs ws : List Nat) : branchWaits (s.tile t) c rs ws = false := by
  simp [branchWaits, pendingWrite, pendingRead, h.queue, h.flights]

theorem pendingWrite_quiet (h : Quiet s t) (rs : List Nat) : pendingWrite (s.tile t) c rs = false := by simp [pendingWrite, h.queue, h.flights]

theorem bits_of_lt {n hi : Nat} (h : n < 2 ^ (hi + 1)) : bits n hi 0 = n := by
  rw [bits, Nat.pow_zero, Nat.div_one]; exact Nat.mod_eq_of_lt h

theorem bits_above {n hi lo : Nat} (h : n < 2 ^ lo) : bits n hi lo = 0 := by rw [bits, Nat.div_eq_of_lt h, Nat.zero_mod]

/-! ### A taken branch (R630, R632) -/

/-- The tile after a taken branch, its link written. -/
def linked (s : State) (t c : Nat) (link : Option Nat) : State :=
  match link with
  | some rd => setS s t c rd (.ofNat 64 (((s.tile t).ctx c).idx + 1))
  | none => s

/-- The tile that goes on at a branch's target. -/
def branched (c target : Nat) (y : Tile) : Tile :=
  { (y.modCtx c fun z => { z with last := z.idx, idx := target, loops := branchLoops target z.loops }) with fbuf := if y.fbuf.any (fun e => e.1 == target) then y.fbuf else [] }

theorem takeBranch_within {pc target : Nat} {link : Option Nat} (h : target < areaLen s t c) :
    takeBranch s t c pc target link = ((linked s t c link).modTile t (branched c target)).setTf t R.TSTAT_BOUNDARY 0 := by
  unfold takeBranch
  exact if_neg (Nat.not_le.mpr h)

theorem branched_parts (target : Nat) (y : Tile) : (branched c target y).held = y.held ∧ recvBlockedOn (branched c target y) = recvBlockedOn y ∧
    (branched c target y).ctx c = { y.ctx c with last := (y.ctx c).idx, idx := target, loops := branchLoops target (y.ctx c).loops } := by
  obtain ⟨-, hflights, -, -, -, hkept, -⟩ := modCtx_parts y c fun z => { z with last := z.idx, idx := target, loops := branchLoops target z.loops }
  refine ⟨hkept, by simp only [recvBlockedOn, branched, hflights], ctx_modCtx_self y c _⟩

theorem linked_parts (link : Option Nat) : (linked s t c link).regs = s.regs ∧ ((linked s t c link).tile t).held = (s.tile t).held ∧
    recvBlockedOn ((linked s t c link).tile t) = recvBlockedOn (s.tile t) := by
  cases link with
  | none => exact ⟨rfl, rfl, rfl⟩
  | some rd =>
    obtain ⟨-, hflights, -, -, -, hkept, -⟩ := modCtx_parts (s.tile t) c fun x => { x with s := mput (fun _ => 0) x.s rd (.ofNat 64 (((s.tile t).ctx c).idx + 1)) }
    rw [linked, setS, State.tile_modCtx, if_pos rfl, recvBlockedOn, hflights]
    exact ⟨rfl, hkept, rfl⟩

theorem settle_takeBranch (h : Quiet s t) {pc target : Nat} {link : Option Nat} (hl : target < areaLen s t c) :
    settle (takeBranch s t c pc target link) t = clockRest (takeBranch s t c pc target link) t := by
  obtain ⟨hheld, hrecv⟩ := quiet_idle h
  obtain ⟨hregs, hkept, hblocked⟩ := linked_parts (s := s) (t := t) (c := c) link
  obtain ⟨hkept', hblocked', -⟩ := branched_parts (c := c) target ((linked s t c link).tile t)
  rw [takeBranch_within hl]
  refine settle_clearsBoundary h hregs ?_ ?_
  · rw [State.tile_modTile, if_pos rfl, hkept', hkept, hheld]
  · rw [State.tile_modTile, if_pos rfl, hblocked', hblocked, hrecv]

theorem cOnly_self (f : FmtC) : cOnly f f = true := decide_eq_true rfl

/-! ### BR and BRR -/

section
variable (h : Quiet s t) (he : endsLoop ((s.tile t).ctx (s.actx t)).idx ((s.tile t).ctx (s.actx t)).loops = false)
include h he

theorem br_branches {f : FmtSI} (h7 : bits f.func.toNat 2 0 < 7) (h0 : bits f.func.toNat 6 4 = 0) (hi : bits f.imm.toNat 31 16 = 0) :
    exec (.br t f) s = .next (if lane0 s t (s.actx t) f.pred && brCond (bits f.func.toNat 2 0) (rs s t (s.actx t) f.ra.toNat) then
        settle (takeBranch s t (s.actx t) (issuePc s t) (bits f.imm.toNat 15 0) (if bitOf f.func.toNat 3 then some f.rd.toNat else none)) t
      else clockRest (advance s t) t) := by
  rw [exec_br, execBr, atIssue_quiet h (by simp [h7, h0, hi]) rfl]
  dsimp only
  rw [if_neg (by rw [branchWaits_quiet h]; decide), if_neg (by rw [he]; decide), settle_advance h]

theorem brr_branches {f : FmtS3} (hf : f.func = 0 ∨ f.func = 8) (hb : f.rb = 0) (hc : f.rc = 0) (hz : f.z = 0) (hw : f.wait = 0) :
    exec (.brr t f) s = .next (if lane0 s t (s.actx t) f.pred then
        settle (takeBranch s t (s.actx t) (issuePc s t) (rs s t (s.actx t) f.ra.toNat).toNat (if f.func = 8 then some f.rd.toNat else none)) t
      else clockRest (advance s t) t) := by
  have hlegal : ((f.func == 0 || f.func == 8) && f.rb == 0 && f.rc == 0 && f.z == 0 && f.wait == 0) = true := by
    rcases hf with hf | hf <;> simp [hf, hb, hc, hz, hw]
  rw [exec_brr, execBrr, atIssue_quiet h hlegal rfl]
  dsimp only
  rw [if_neg (by rw [branchWaits_quiet h]; decide), if_neg (by rw [he]; decide), settle_advance h]

end

/-! ### LOOP (R631, R632) -/

/-- A LOOP whose count is 0 goes past its body. -/
def loopSkipped (e : Nat) (z : Ctx) : Ctx := { z with last := z.idx, idx := (nextIdx e z.loops).1, loops := (nextIdx e z.loops).2 }

/-- A LOOP pushes its body. -/
def loopEntered (e n : Nat) (z : Ctx) : Ctx := { z with last := z.idx, idx := z.idx + 1, loops := ⟨z.idx + 1, e, n⟩ :: z.loops }

theorem settle_skipped (h : Quiet s t) {e : Nat} {r : Nat × List LoopEnt} (hr : r = nextIdx e ((s.tile t).ctx c).loops) :
    settle ((s.modCtx t c fun z => { z with last := z.idx, idx := r.1, loops := r.2 }).setTf t R.TSTAT_BOUNDARY 0) t =
      clockRest ((s.modCtx t c (loopSkipped e)).setTf t R.TSTAT_BOUNDARY 0) t := by
  rw [settle_sequenced h, State.modCtx_congr (g := loopSkipped e) (by rw [hr]; rfl)]

section
variable (h : Quiet s t) (he : endsLoop ((s.tile t).ctx (s.actx t)).idx ((s.tile t).ctx (s.actx t)).loops = false) {f : FmtSI} (hp : f.pred = 0) (hd : f.rd = 0) (hf : f.func = 0)
  (hi : f.imm.toNat < 2 ^ 16) (hx : ((s.tile t).ctx (s.actx t)).idx < f.imm.toNat)
include h he hp hd hf hi hx

theorem loop_enters :
    exec (.loop t f) s = .next (let n := (rs s t (s.actx t) f.ra.toNat).toNat % 2 ^ 32
      if n = 0 then clockRest ((s.modCtx t (s.actx t) (loopSkipped f.imm.toNat)).setTf t R.TSTAT_BOUNDARY 0) t
      else if ((s.tile t).ctx (s.actx t)).loops.length ≥ 4 then settle (progFault s t fILLEGAL (issuePc s t) 0) t
      else clockRest ((s.modCtx t (s.actx t) (loopEntered f.imm.toNat n)).setTf t R.TSTAT_BOUNDARY 0) t) := by
  have himm : bits f.imm.toNat 15 0 = f.imm.toNat := bits_of_lt hi
  rw [exec_loop, execLoop, atIssue_quiet h (by simp [hp, hd, hf, bits_above hi]) rfl]
  dsimp only
  rw [himm, if_neg (by rw [pendingWrite_quiet h]; decide), if_neg (not_or.mpr ⟨Nat.not_le.mpr hx, by rw [he]; decide⟩)]
  exact congrArg _ (if_congr Iff.rfl (settle_skipped h rfl) (if_congr Iff.rfl rfl (settle_sequenced h _)))

theorem loop_skips (hn : (rs s t (s.actx t) f.ra.toNat).toNat % 2 ^ 32 = 0) :
    exec (.loop t f) s = .next (clockRest ((s.modCtx t (s.actx t) (loopSkipped f.imm.toNat)).setTf t R.TSTAT_BOUNDARY 0) t) :=
  (loop_enters h he hp hd hf hi hx).trans (congrArg _ (if_pos hn))

theorem loop_pushes (hn : (rs s t (s.actx t) f.ra.toNat).toNat % 2 ^ 32 ≠ 0) (hl : ((s.tile t).ctx (s.actx t)).loops.length < 4) :
    exec (.loop t f) s = .next (clockRest ((s.modCtx t (s.actx t) (loopEntered f.imm.toNat ((rs s t (s.actx t) f.ra.toNat).toNat % 2 ^ 32))).setTf t R.TSTAT_BOUNDARY 0) t) :=
  (loop_enters h he hp hd hf hi hx).trans (congrArg _ ((if_neg hn).trans (if_neg (Nat.not_le.mpr hl))))

end

/-! ### What a taken branch does -/

theorem ctx_modCtx_other {d : Nat} (x : Tile) (hc : c < 2) (hd : d < 2) (h : d ≠ c) (f : Ctx → Ctx) : (x.modCtx c f).ctx d = x.ctx d := by
  rcases (by omega : c = 0 ∧ d = 1 ∨ c = 1 ∧ d = 0) with ⟨rfl, rfl⟩ | ⟨rfl, rfl⟩ <;> rfl

theorem branched_other {d : Nat} (target : Nat) (y : Tile) (hc : c < 2) (hd : d < 2) (h : d ≠ c) : (branched c target y).ctx d = y.ctx d := ctx_modCtx_other y hc hd h _

/-- The registers that a link leaves: the scalar one that takes it apart, all. -/
theorem ctx_linked (link : Option Nat) : ((linked s t c link).tile t).ctx c =
    match link with
    | some rd => { (s.tile t).ctx c with s := mput (fun _ => 0) ((s.tile t).ctx c).s rd (.ofNat 64 (((s.tile t).ctx c).idx + 1)) }
    | none => (s.tile t).ctx c := by
  cases link with
  | none => rfl
  | some rd => rw [linked, setS, State.ctx_modCtx]

theorem linked_other (link : Option Nat) (hc : c < 2) : ((linked s t c link).tile t).ctx (1 - c) = (s.tile t).ctx (1 - c) := by
  cases link with
  | none => rfl
  | some rd => rw [linked, setS, State.tile_modCtx, if_pos rfl, ctx_modCtx_other _ hc (by omega) (by omega)]

theorem linked_onlyIn (link : Option Nat) : OnlyIn (fun a => a = regAddr .tile t R.TSTAT) (fun k => k = t) s (linked s t c link) := by
  cases link with
  | none => exact .refl ..
  | some rd => exact ⟨rfl, fun _ _ => rfl, fun k hk => by rw [linked, setS, tile_modCtx_ne hk]⟩

section
variable {pc target : Nat} {link : Option Nat} (hl : target < areaLen s t c)
include hl

theorem ctx_takeBranch : ((takeBranch s t c pc target link).tile t).ctx c =
    { ((linked s t c link).tile t).ctx c with last := (((linked s t c link).tile t).ctx c).idx, idx := target, loops := branchLoops target (((linked s t c link).tile t).ctx c).loops } := by
  obtain ⟨-, -, hctx⟩ := branched_parts (c := c) target ((linked s t c link).tile t)
  rw [takeBranch_within hl, State.tile_setTf, State.tile_modTile, if_pos rfl, hctx]

theorem takeBranch_goes : (((takeBranch s t c pc target link).tile t).ctx c).idx = target ∧
    (((takeBranch s t c pc target link).tile t).ctx c).loops = branchLoops target ((s.tile t).ctx c).loops := by
  rw [ctx_takeBranch hl, ctx_linked]
  cases link <;> exact ⟨rfl, rfl⟩

theorem rs_takeBranch (n : Nat) : rs (takeBranch s t c pc target link) t c n = if link = some n then .ofNat 64 (((s.tile t).ctx c).idx + 1) else rs s t c n := by
  rw [rs, ctx_takeBranch hl, ctx_linked]
  cases link with
  | none => rfl
  | some rd => exact mget_mput.trans (if_congr ⟨fun h => congrArg some h.symm, fun h => (Option.some.inj h).symm⟩ rfl rfl)

theorem others_takeBranch (n : Nat) : ra (takeBranch s t c pc target link) t c n = ra s t c n ∧ rp (takeBranch s t c pc target link) t c n = rp s t c n ∧
    rv (takeBranch s t c pc target link) t c n = rv s t c n := by
  rw [ra, rp, rv, ctx_takeBranch hl, ctx_linked]
  cases link <;> exact ⟨rfl, rfl, rfl⟩

theorem takeBranch_other (hc : c < 2) : ((takeBranch s t c pc target link).tile t).ctx (1 - c) = (s.tile t).ctx (1 - c) := by
  rw [takeBranch_within hl, State.tile_setTf, State.tile_modTile, if_pos rfl, branched_other target _ hc (by omega) (by omega), linked_other link hc]

theorem takeBranch_onlyIn : OnlyIn (fun a => a = regAddr .tile t R.TSTAT) (fun k => k = t) s (takeBranch s t c pc target link) := by
  rw [takeBranch_within hl]
  refine (linked_onlyIn link).trans (OnlyIn.trans (u := (linked s t c link).modTile t (branched c target)) ⟨rfl, fun _ _ => rfl, fun k hk => ?_⟩ ?_)
  · rw [State.tile_modTile, if_neg hk]
  · exact setFld_onlyIn _ _ .tile t R.TSTAT_BOUNDARY 0

end

end

/-- Settles O3: the instructions of the scalar engine leave the state that their issue leaves, a branch goes on in order. -/
theorem predicateOff : Obligations.PredicateOff := by
  refine fun s t h => ⟨fun f hw hp hz => ⟨fun hf hr => ?_, fun hf hr => ?_, fun hf hd => ?_⟩, fun f hp => ⟨fun hf hr => ?_, fun hl => ?_, fun hf ha => ?_, fun hf ha => ?_,
    fun h7 h0 hi he => ?_⟩, fun f hp hf hb hc hz hw he => ?_⟩
  · rw [salu_dispatches h hw hz hf hr, predicated_off hp, settle_issued h]
  · rw [smul_dispatches h hw hz hf hr, predicated_off hp, settle_issued h]
  · rw [scmp_dispatches h hw hz hf hd, predicated_off hp, settle_issued h]
  · rw [salui_dispatches h hf hr, predicated_off hp, settle_issued h]
  · rw [aop_dispatches h hl, predicated_off hp, settle_issued h]
  · rw [sld_dispatches h hf ha, effSld, actx_eq, predicated_off hp, settle_issued h]
  · rw [sst_dispatches h hf ha, effSst, actx_eq, predicated_off hp, settle_issued h]
  · rw [br_branches h he h7 h0 hi, hp]; rfl
  · rw [brr_branches h he hf hb hc hz hw, hp]; rfl

/-- Settles O6: in order, to the target, or into the body of a loop; a taken branch changes index, loops and link of its context. -/
theorem sequencerIndex : Obligations.SequencerIndex := by
  refine ⟨fun s t h => ⟨?nop, fun he => ⟨fun f hp h7 h0 hi hr => ⟨fun hb => ?taken, fun hb => ?untaken⟩, fun f hp hf hb hc hz hw hl => ?brr,
      fun f hp hd hf hi hx => ⟨loop_skips h he hp hd hf hi hx, loop_pushes h he hp hd hf hi hx⟩⟩⟩,
    fun s t c pc target link hc hl => ⟨(takeBranch_goes hl).1, (takeBranch_goes hl).2, ?boundary, rs_takeBranch hl, others_takeBranch hl, takeBranch_other hl hc, takeBranch_onlyIn hl⟩⟩
  case nop => rw [exec_nop, execNop, atIssue_quiet h (cOnly_self _) rfl, settle_advance h]
  case taken => rw [br_branches h he h7 h0 (bits_above hr), hp, hb, bits_of_lt hr]; exact congrArg _ (settle_takeBranch h hi)
  case untaken => rw [br_branches h he h7 h0 (bits_above hr), hp, hb]; rfl
  case brr => rw [brr_branches h he hf hb hc hz hw, hp]; exact congrArg _ (settle_takeBranch h hl)
  case boundary => rw [takeBranch_within hl, tf_setTf_self 0 (by decide) (by decide)]; rfl

end Sys2Proof.Machine
end

section
/-!
SUPPORT. The instructions that hold the sequencer (R634, R639, R645, R646, R649): where a tile settles whose hold goes on, and where one whose hold waits (R68, R745).
-/

namespace Sys2Proof.Machine

variable {s u v w : State} {t c : Nat} {k : SeqHold}

/-! ### A tile whose hold goes on or waits -/

/-- A tile that runs and is neither halted nor held. -/
structure Runs (s : State) (t : Nat) : Prop where
  running : s.tstate t = running
  halted : s.tf t R.TSTAT_HALTED = 0
  held : s.tf t R.TSTAT_HELD = 0

theorem wake_running (h : s.tstate t = running) : wake s t = s := by
  rw [wake, if_neg (by rw [h]; decide), if_neg (by rw [h]; decide)]

/-- Whether the tile waits: for its hold, or for a message. -/
def waitsOn (s : State) (t : Nat) : Bool :=
  match (s.tile t).held with
  | some h => holdSleeps h && !holdReady s t h
  | none => (match recvBlockedOn (s.tile t) with | some q => decide (s.tf t (R.QPTR_COUNT q) = 0) | none => false)

/-- A running tile settles by what its hold has left. -/
theorem settle_running (hr : Runs u t) : settle u t = clockRest (if (releaseHold u t).tstate t = running ∧ enginesIdle ((releaseHold u t).tile t) ∧
    (waitsOn (releaseHold u t) t || (releaseHold u t).tf t R.TSTAT_HALTED == 1 || (releaseHold u t).tf t R.TSTAT_HELD == 1)
      then (releaseHold u t).setTstate t soaking else releaseHold u t) t := by
  unfold settle
  dsimp only
  rw [if_neg (by rw [hr.running]; decide), wake_running hr.running, ite_self, if_pos hr.running]
  rfl

theorem waitsOn_nothing (hh : (s.tile t).held = none) (hb : recvBlockedOn (s.tile t) = none) : waitsOn s t = false := by rw [waitsOn, hh, hb]

/-- A hold that has gone on leaves a tile with nothing to wait for as it is. -/
theorem settle_goesOn (hr : Runs u t) (hv : releaseHold u t = v) (hg : Runs v t) (hh : (v.tile t).held = none) (hb : recvBlockedOn (v.tile t) = none) :
    settle u t = clockRest v t := by
  rw [settle_running hr, hv, waitsOn_nothing hh hb, hg.halted, hg.held]
  exact congrArg (clockRest · t) (if_neg (by simp))

/-- An idle tile whose hold waits soaks. -/
theorem settle_soaks (hr : Runs u t) (hh : (u.tile t).held = some k) (hk : holdSleeps k = true) (hw : holdReady u t k = false) (hi : enginesIdle (u.tile t) = true) :
    settle u t = clockRest (u.setTstate t soaking) t := by
  have hv : releaseHold u t = u := by
    rw [releaseHold, hh]
    exact if_pos (by rw [hw]; rfl)
  have hwaits : waitsOn u t = true := by rw [waitsOn, hh]; simp [hk, hw]
  rw [settle_running hr, hv, hwaits]
  exact congrArg (clockRest · t) (if_pos ⟨hr.running, hi, rfl⟩)

/-- An idle tile that has halted soaks. -/
theorem settle_haltsIdle (hr : Runs u t) (hv : releaseHold u t = v) (hg : v.tstate t = running) (hh : v.tf t R.TSTAT_HALTED = 1) (hi : enginesIdle (v.tile t) = true) :
    settle u t = clockRest (v.setTstate t soaking) t := by
  rw [settle_running hr, hv]
  exact congrArg (clockRest · t) (if_pos ⟨hg, hi, by rw [hh]; simp⟩)

/-! ### A tile that a quiet tile has become by taking up an instruction that holds -/

/-- A tile of which only the context and what the hold notes differ from a quiet one. -/
structure TakenUp (s u : State) (t : Nat) : Prop where
  runs : Runs u t
  actx : u.actx t = s.actx t
  idle : enginesIdle (u.tile t) = true
  done : allDone (u.tile t) = true
  blocked : recvBlockedOn (u.tile t) = none
  kept : ∀ f : Fld, f.off ≠ R.TSTAT → u.tf t f = s.tf t f

section
variable (h : Quiet s t)
include h

theorem takenUp_advance : TakenUp s (advance s t) t := by
  obtain ⟨-, hst, hhalt, hheld, -⟩ := canIssue_parts h.issues
  obtain ⟨hqueue, hflights, hgate, hstalled, houtst, -, -⟩ := modCtx_parts (s.tile t) (s.actx t) Ctx.advance
  have htile : (advance s t).tile t = (s.tile t).modCtx (s.actx t) Ctx.advance := by rw [tile_advance, if_pos rfl]
  refine ⟨⟨(tf_advance (.inr (.inl (by decide)))).trans hst, (tf_advance (.inr (.inr (by decide)))).trans hhalt, (tf_advance (.inr (.inr (by decide)))).trans hheld⟩,
    tf_advance (.inr (.inl (by decide))), ?_, ?_, ?_, fun f hf => tf_advance (.inl hf)⟩
  · rw [htile, enginesIdle, hqueue, hflights, hgate, hstalled, h.queue, h.flights, h.gate, h.stalled]; rfl
  · rw [htile, allDone, noneOpen, hqueue, hflights, hgate, hstalled, houtst, h.queue, h.flights, h.gate, h.stalled, h.outst]; rfl
  · rw [htile, recvBlockedOn, hflights, h.flights]; rfl

/-- A CTX does not clear `BOUNDARY`. -/
theorem takenUp_modCtx : TakenUp s (s.modCtx t (s.actx t) Ctx.advance) t := by
  obtain ⟨-, hst, hhalt, hheld, -⟩ := canIssue_parts h.issues
  obtain ⟨hqueue, hflights, hgate, hstalled, houtst, -, -⟩ := modCtx_parts (s.tile t) (s.actx t) Ctx.advance
  refine ⟨⟨hst, hhalt, hheld⟩, rfl, ?_, ?_, ?_, fun _ _ => rfl⟩ <;> rw [State.tile_modCtx, if_pos rfl]
  · rw [enginesIdle, hqueue, hflights, hgate, hstalled, h.queue, h.flights, h.gate, h.stalled]; rfl
  · rw [allDone, noneOpen, hqueue, hflights, hgate, hstalled, houtst, h.queue, h.flights, h.gate, h.stalled, h.outst]; rfl
  · rw [recvBlockedOn, hflights, h.flights]; rfl

theorem held_advance : ((advance s t).tile t).held = none := by
  obtain ⟨-, -, -, -, -, hkept, -⟩ := modCtx_parts (s.tile t) (s.actx t) Ctx.advance
  rw [tile_advance, if_pos rfl, hkept]
  exact (quiet_idle h).1

end

/-- What a change of the tile's hold, notes and array leaves. -/
theorem TakenUp.modTile (h : TakenUp s u t) {g : Tile → Tile} (hg : ∀ x, (g x).queue = x.queue ∧ (g x).flights = x.flights ∧ (g x).gate = x.gate ∧ (g x).stalled = x.stalled ∧ (g x).outst = x.outst) :
    TakenUp s (u.modTile t g) t := by
  obtain ⟨hqueue, hflights, hgate, hstalled, houtst⟩ := hg (u.tile t)
  refine ⟨⟨h.runs.running, h.runs.halted, h.runs.held⟩, h.actx, ?_, ?_, ?_, h.kept⟩ <;> rw [State.tile_modTile, if_pos rfl]
  · rw [enginesIdle, hqueue, hflights, hgate, hstalled]; exact h.idle
  · rw [allDone, noneOpen, hqueue, hflights, hgate, hstalled, houtst]; exact h.done
  · rw [recvBlockedOn, hflights]; exact h.blocked

theorem TakenUp.drained (h : TakenUp s u t) (hd : Drained u v t) : TakenUp s v t := by
  have htf : ∀ f, v.tf t f = u.tf t f := tf_of_regs hd.regs t
  obtain ⟨-, -, htile⟩ := hd
  refine ⟨⟨(htf _).trans h.runs.running, (htf _).trans h.runs.halted, (htf _).trans h.runs.held⟩, (htf _).trans h.actx, ?_, ?_, ?_, fun f hf => (htf f).trans (h.kept f hf)⟩ <;> rw [htile]
  · exact h.idle
  · exact h.done
  · exact h.blocked

/-- The fields of `TSTAT` that a barrier wait or a CTX sets. -/
theorem TakenUp.setTstat (h : TakenUp s u t) {f : Fld} (hl : f.lo ≤ f.hi) (hh : f.hi < 64) (h2 : f.Apart R.TSTAT_STATE ∧ f.Apart R.TSTAT_HALTED ∧ f.Apart R.TSTAT_HELD) (n : Nat) :
    Runs (u.setTf t f n) t := by
  obtain ⟨hst, hhalt, hheld⟩ := h2
  exact ⟨(fld_setFld_apart n ⟨hl, hh⟩ hst).trans h.runs.running, (fld_setFld_apart n ⟨hl, hh⟩ hhalt).trans h.runs.halted, (fld_setFld_apart n ⟨hl, hh⟩ hheld).trans h.runs.held⟩

theorem TakenUp.setBoundary (h : TakenUp s u t) : TakenUp s (u.setTf t R.TSTAT_BOUNDARY 1) t :=
  ⟨h.setTstat (by decide) (by decide) (by decide) 1, (fld_setFld_apart 1 (by decide) (by decide)).trans h.actx, h.idle, h.done, h.blocked,
    fun _ hf => (tf_setTf_ne 1 hf).trans (h.kept _ hf)⟩

/-! ### CWAIT and BWAIT (R634, R639) -/

/-- The wait of a tile has ended. -/
def waitOver (x : Tile) : Tile := { x with held := none, longWait := false }

/-- The tile is held by a wait. -/
def waitBegun (k : SeqHold) (long : Bool) (x : Tile) : Tile := { x with held := some k, longWait := long }

theorem held_wait (k : SeqHold) (long : Bool) : ((u.modTile t (waitBegun k long)).tile t).held = some k := by
  rw [State.tile_modTile, if_pos rfl]; rfl

/-- A tile whose wait is over when it begins goes on as if it had not waited, but for the flag of a long wait. -/
theorem waitOver_waitBegun (hh : (u.tile t).held = none) (k : SeqHold) (long : Bool) :
    (u.modTile t (waitBegun k long)).modTile t waitOver = u.modTile t fun x => { x with longWait := false } := by
  rw [State.modTile_modTile]
  refine State.modTile_congr ?_
  simp only [waitOver, waitBegun, hh]

/-- A tile and its registers are changed apart from each other. -/
theorem State.setTf_modTile (s : State) (f : Fld) (n : Nat) (g : Tile → Tile) : (s.modTile t g).setTf t f n = (s.setTf t f n).modTile t g := rfl

theorem cOnly_of {f g : FmtC} (h : f = g) : cOnly f g = true := decide_eq_true h

section
variable (h : Quiet s t)
include h

theorem takenUp_wait (k : SeqHold) (long : Bool) : TakenUp s ((advance s t).modTile t (waitBegun k long)) t :=
  (takenUp_advance h).modTile fun _ => ⟨rfl, rfl, rfl, rfl, rfl⟩

/-- An idle tile whose wait is not over soaks. -/
theorem settle_waits (long : Bool) (hk : holdSleeps k = true) (hw : holdReady ((advance s t).modTile t (waitBegun k long)) t k = false) :
    settle ((advance s t).modTile t (waitBegun k long)) t = clockRest (((advance s t).setTstate t soaking).modTile t (waitBegun k long)) t :=
  (settle_soaks (takenUp_wait h k long).runs (held_wait k long) hk hw (takenUp_wait h k long).idle).trans (congrArg (clockRest · t) (State.setTf_modTile ..))

theorem cwait_ready (n : Nat) (long : Bool) (v : Nat) :
    holdReady ((advance s t).modTile t (waitBegun (.cwait n v long) long)) t (.cwait n v long) = satisfied (cntVal s t (s.actx t) n) v := by
  have hu := takenUp_wait h (.cwait n v long) long
  have hoff : (R.CNT_VALUE (s.actx t) n).off ≠ R.TSTAT := by simp only [R.CNT_VALUE, R.CNT, R.TSTAT]; omega
  simp only [holdReady, cntVal, hu.actx, hu.kept _ hoff]

section
variable {f : FmtC} (hf : f = { cZero with cnt := f.cnt, reg := f.reg, l := f.l, v := f.v, imm := f.imm }) (hr : f.v = false → f.reg = 0)
include hf hr

/-- The value that a CWAIT waits for. -/
abbrev cwaitValue (s : State) (t : Nat) (f : FmtC) : Nat := ((if f.v then (rs s t (s.actx t) f.reg.toNat).toNat else 0) + f.imm.toNat) % 2 ^ 32

theorem cwait_begins : exec (.cwait t f) s = .next (settle ((advance s t).modTile t (waitBegun (.cwait f.cnt.toNat (cwaitValue s t f) f.l) f.l)) t) := by
  have hlegal : (cOnly f { cZero with cnt := f.cnt, reg := f.reg, l := f.l, v := f.v, imm := f.imm } && (f.v || f.reg == 0)) = true := by
    rw [cOnly_of hf]
    cases hv : f.v with
    | true => rfl
    | false => rw [hr hv]; rfl
  rw [exec_cwait, execCwait, atIssue_quiet h hlegal rfl]
  exact congrArg _ (if_neg (by rw [pendingWrite_quiet h]; decide))

theorem cwait_passes (hs : satisfied (cntVal s t (s.actx t) f.cnt.toNat) (cwaitValue s t f) = true) :
    exec (.cwait t f) s = .next (clockRest ((advance s t).modTile t fun x => { x with longWait := false }) t) := by
  have hu := takenUp_wait h (.cwait f.cnt.toNat (cwaitValue s t f) f.l) f.l
  have hv : releaseHold ((advance s t).modTile t (waitBegun (.cwait f.cnt.toNat (cwaitValue s t f) f.l) f.l)) t = (advance s t).modTile t fun x => { x with longWait := false } := by
    rw [← waitOver_waitBegun (held_advance h) (.cwait f.cnt.toNat (cwaitValue s t f) f.l) f.l, releaseHold, held_wait]
    exact if_neg (by rw [cwait_ready h, hs]; decide)
  have hg : TakenUp s ((advance s t).modTile t fun x => { x with longWait := false }) t := (takenUp_advance h).modTile fun _ => ⟨rfl, rfl, rfl, rfl, rfl⟩
  rw [cwait_begins h hf hr, settle_goesOn hu.runs hv hg.runs ?_ hg.blocked]
  rw [State.tile_modTile, if_pos rfl]
  exact held_advance h

theorem cwait_waits (hs : satisfied (cntVal s t (s.actx t) f.cnt.toNat) (cwaitValue s t f) = false) :
    exec (.cwait t f) s = .next (clockRest (((advance s t).setTstate t soaking).modTile t (waitBegun (.cwait f.cnt.toNat (cwaitValue s t f) f.l) f.l)) t) := by
  rw [cwait_begins h hf hr, settle_waits h f.l rfl (by rw [cwait_ready h, hs])]

end

section
variable {f : FmtC} (hf : f = { cZero with grp := f.grp, reg := f.reg, l := f.l, k := f.k, b := f.b, v := f.v }) (hg : f.grp.toNat < 48) (hr : f.v = false → f.reg = 0)

/-- The generation that a BWAIT waits for. -/
abbrev bwaitGen (s : State) (t : Nat) (f : FmtC) : Nat :=
  if f.v then (rs s t (s.actx t) f.reg.toNat).toNat % 256 else s.tf t (R.TBAR_ARRGEN (s.actx t) f.grp.toNat)

/-- The hold of a BWAIT. -/
abbrev bwaitHold (s : State) (t : Nat) (f : FmtC) : SeqHold := .bwait f.grp.toNat (bwaitGen s t f) f.b f.k f.l

theorem bwait_ready (f : FmtC) : holdReady ((advance s t).modTile t (waitBegun (bwaitHold s t f) f.l)) t (bwaitHold s t f) =
    decide ((s.tf t (R.TBAR_DONEGEN (s.actx t) f.grp.toNat) + 256 - bwaitGen s t f) % 256 < 128) := by
  have hu := takenUp_wait h (bwaitHold s t f) f.l
  have hoff : (R.TBAR_DONEGEN (s.actx t) f.grp.toNat).off ≠ R.TSTAT := by simp only [R.TBAR_DONEGEN, R.TBAR, R.TSTAT]; omega
  simp only [holdReady, hu.actx, hu.kept _ hoff, hu.done, Bool.or_true, Bool.and_true]

include hf hg hr

theorem bwait_begins : exec (.bwait t f) s = .next (settle ((advance s t).modTile t (waitBegun (bwaitHold s t f) f.l)) t) := by
  have hlegal : (cOnly f { cZero with grp := f.grp, reg := f.reg, l := f.l, k := f.k, b := f.b, v := f.v } && decide (f.grp.toNat < 48) && (f.v || f.reg == 0)) = true := by
    rw [cOnly_of hf, decide_eq_true hg]
    cases hv : f.v with
    | true => rfl
    | false => rw [hr hv]; rfl
  rw [exec_bwait, execBwait, atIssue_quiet h hlegal rfl]
  exact congrArg _ (if_neg (by rw [pendingWrite_quiet h]; decide))

theorem bwait_waits (hs : ¬ (s.tf t (R.TBAR_DONEGEN (s.actx t) f.grp.toNat) + 256 - bwaitGen s t f) % 256 < 128) :
    exec (.bwait t f) s = .next (clockRest (((advance s t).setTstate t soaking).modTile t (waitBegun (bwaitHold s t f) f.l)) t) := by
  rw [bwait_begins h hf hg hr, settle_waits h f.l rfl (by rw [bwait_ready h, decide_eq_false hs])]

end

/-- The state after a barrier wait that ends at once: at a boundary under the B flag (R67). -/
def barrierPassed (s : State) (t : Nat) (b : Bool) : State := if b then (advance s t).setTf t R.TSTAT_BOUNDARY 1 else advance s t

theorem takenUp_passed (b : Bool) : TakenUp s (barrierPassed s t b) t := by
  have ha := takenUp_advance h
  unfold barrierPassed
  split
  · exact ha.setBoundary
  · exact ha

theorem held_passed (b : Bool) : ((barrierPassed s t b).tile t).held = none := by
  unfold barrierPassed
  split
  · rw [State.tile_setTf]; exact held_advance h
  · exact held_advance h

end

/-- The check of the bytes landed speaks of no field of `TSTAT` but the active context (R241). -/
theorem TakenUp.landedOk (h : TakenUp s u t) : landedOk u t = landedOk s t := by
  have h1 : ∀ n, u.tf t (R.WKEXP_CHECK n) = s.tf t (R.WKEXP_CHECK n) := fun n => h.kept _ (by simp only [R.WKEXP_CHECK, R.WKEXP, R.TSTAT]; omega)
  have h2 : ∀ n, u.tf t (R.WKBASE_OWNER n) = s.tf t (R.WKBASE_OWNER n) := fun n => h.kept _ (by simp only [R.WKBASE_OWNER, R.WKBASE, R.TSTAT]; omega)
  have h3 : ∀ n k, u.tf t (R.WKSEND_VALID n k) = s.tf t (R.WKSEND_VALID n k) := fun n k => h.kept _ (by simp only [R.WKSEND_VALID, R.WKSEND, R.TSTAT]; omega)
  have h4 : ∀ n k, u.tf t (R.WKLAND_BYTES n k) = s.tf t (R.WKLAND_BYTES n k) := fun n k => h.kept _ (by simp only [R.WKLAND_BYTES, R.WKLAND, R.TSTAT]; omega)
  have h5 : ∀ n, u.tf t (R.WKEXP_BYTES n) = s.tf t (R.WKEXP_BYTES n) := fun n => h.kept _ (by simp only [R.WKEXP_BYTES, R.WKEXP, R.TSTAT]; omega)
  simp only [Machine.landedOk, h1, h2, h3, h4, h5, h.actx]

theorem endBarrierWait_passes (h : Quiet s t) (hold : SeqHold) (long b k : Bool) (hk : k = true → landedOk s t = true) :
    endBarrierWait ((advance s t).modTile t (waitBegun hold long)) t b k = (barrierPassed s t b).modTile t fun x => { x with longWait := false } := by
  have hset : (if b then ((advance s t).modTile t (waitBegun hold long)).setTf t R.TSTAT_BOUNDARY 1 else (advance s t).modTile t (waitBegun hold long)) =
      (barrierPassed s t b).modTile t (waitBegun hold long) := by
    cases b with
    | true => exact State.setTf_modTile ..
    | false => rfl
  have hend : TakenUp s ((barrierPassed s t b).modTile t fun x => { x with longWait := false }) t := (takenUp_passed h b).modTile fun _ => ⟨rfl, rfl, rfl, rfl, rfl⟩
  have hover := waitOver_waitBegun (held_passed h b) hold long
  unfold endBarrierWait
  rw [hset]
  change (if (k && !landedOk (((barrierPassed s t b).modTile t (waitBegun hold long)).modTile t waitOver) t) = true then _ else
    ((barrierPassed s t b).modTile t (waitBegun hold long)).modTile t waitOver) = _
  rw [hover, hend.landedOk, if_neg]
  cases k with
  | false => simp
  | true => simp [hk rfl]

theorem bwait_passes (h : Quiet s t) {f : FmtC} (hf : f = { cZero with grp := f.grp, reg := f.reg, l := f.l, k := f.k, b := f.b, v := f.v }) (hg : f.grp.toNat < 48)
    (hr : f.v = false → f.reg = 0) (hk : f.k = true → landedOk s t = true) (hs : (s.tf t (R.TBAR_DONEGEN (s.actx t) f.grp.toNat) + 256 - bwaitGen s t f) % 256 < 128) :
    exec (.bwait t f) s = .next (clockRest ((barrierPassed s t f.b).modTile t fun x => { x with longWait := false }) t) := by
  have hu := takenUp_wait h (bwaitHold s t f) f.l
  have hend : TakenUp s ((barrierPassed s t f.b).modTile t fun x => { x with longWait := false }) t := (takenUp_passed h f.b).modTile fun _ => ⟨rfl, rfl, rfl, rfl, rfl⟩
  have hv : releaseHold ((advance s t).modTile t (waitBegun (bwaitHold s t f) f.l)) t = (barrierPassed s t f.b).modTile t fun x => { x with longWait := false } := by
    rw [← endBarrierWait_passes h (bwaitHold s t f) f.l f.b f.k hk, releaseHold, held_wait]
    exact if_neg (by rw [bwait_ready h, decide_eq_true hs]; decide)
  rw [bwait_begins h hf hg hr, settle_goesOn hu.runs hv hend.runs ?_ hend.blocked]
  rw [State.tile_modTile, if_pos rfl]
  exact held_passed h f.b

/-! ### FENCE, CTX and HALT (R645, R646, R649) -/

/-- The tile is held by an instruction that waits for the earlier ones. -/
def heldBy (k : SeqHold) (x : Tile) : Tile := { x with held := some k }

/-- The hold of the tile is over. -/
def letGo (x : Tile) : Tile := { x with held := none }

theorem held_heldBy (k : SeqHold) : ((u.modTile t (heldBy k)).tile t).held = some k := by rw [State.tile_modTile, if_pos rfl]; rfl

theorem TakenUp.heldBy (h : TakenUp s u t) (k : SeqHold) : TakenUp s (u.modTile t (heldBy k)) t := h.modTile fun _ => ⟨rfl, rfl, rfl, rfl, rfl⟩

/-- A tile held by an instruction that waits for the earlier ones, its buffer drained. -/
abbrev drainedBy (u : State) (t : Nat) (k : SeqHold) : State := drainAll (u.modTile t (Machine.heldBy k)) t

theorem TakenUp.drainedBy (h : TakenUp s u t) (k : SeqHold) : TakenUp s (drainedBy u t k) t := (h.heldBy k).drained drainAll_drained

theorem fence_drains (h : Quiet s t) : exec (.fence t cZero) s = .next (clockRest ((drainedBy (advance s t) t .fence).modTile t letGo) t) := by
  have hu := (takenUp_advance h).heldBy .fence
  have hv : releaseHold ((advance s t).modTile t (heldBy .fence)) t = (drainedBy (advance s t) t .fence).modTile t letGo := by
    have hready : holdReady ((advance s t).modTile t (heldBy .fence)) t .fence = true := by
      have hdone := hu.done
      simp only [allDone, Bool.and_eq_true, List.isEmpty_iff] at hdone
      rw [holdReady, hdone.1]
      rfl
    rw [releaseHold, held_heldBy]
    exact if_neg (by rw [hready]; decide)
  have hg : TakenUp s ((drainedBy (advance s t) t .fence).modTile t letGo) t := ((takenUp_advance h).drainedBy .fence).modTile fun _ => ⟨rfl, rfl, rfl, rfl, rfl⟩
  rw [exec_fence, execFence, atIssue_quiet h (cOnly_self _) rfl]
  refine congrArg _ (settle_goesOn hu.runs hv hg.runs ?_ hg.blocked)
  rw [State.tile_modTile, if_pos rfl]
  rfl

/-- The tile after the switch of context: its array reads as zeros and its fetch buffer is empty (R66). -/
def switched (x : Tile) : Tile := { zeroArray x with held := none, fbuf := [] }

theorem ctx_switches (h : Quiet s t) (hb : s.tf t R.TSTAT_BOUNDARY = 1) :
    exec (.ctx t cZero) s = .next (clockRest (((drainedBy (s.modCtx t (s.actx t) Ctx.advance) t .ctx).modTile t switched).setTf t R.TSTAT_CTX (1 - s.actx t)) t) := by
  have hu := (takenUp_modCtx h).heldBy .ctx
  have hg : TakenUp s ((drainedBy (s.modCtx t (s.actx t) Ctx.advance) t .ctx).modTile t switched) t := ((takenUp_modCtx h).drainedBy .ctx).modTile fun _ => ⟨rfl, rfl, rfl, rfl, rfl⟩
  have hv : releaseHold ((s.modCtx t (s.actx t) Ctx.advance).modTile t (heldBy .ctx)) t =
      ((drainedBy (s.modCtx t (s.actx t) Ctx.advance) t .ctx).modTile t switched).setTf t R.TSTAT_CTX (1 - s.actx t) := by
    have hready : holdReady ((s.modCtx t (s.actx t) Ctx.advance).modTile t (heldBy .ctx)) t .ctx = true := hu.done
    rw [releaseHold, held_heldBy]
    exact if_neg (by rw [hready]; decide)
  have hgate : ((s.modCtx t (s.actx t) Ctx.advance).tile t).gate = [] := by
    obtain ⟨-, -, hgate, -⟩ := modCtx_parts (s.tile t) (s.actx t) Ctx.advance
    rw [State.tile_modCtx, if_pos rfl, hgate, h.gate]
  rw [exec_ctx, execCtx, atIssue_quiet h (cOnly_self _) rfl]
  rw [if_neg (by rw [hb]; decide), releaseGate_empty hgate]
  refine congrArg _ (settle_goesOn hu.runs hv (hg.setTstat (by decide) (by decide) (by decide) _) ?_ ?_)
  · rw [State.tile_setTf, State.tile_modTile, if_pos rfl]; rfl
  · rw [State.tile_setTf]; exact hg.blocked

theorem halt_halts (h : Quiet s t) :
    exec (.halt t cZero) s = .next (clockRest ((((drainedBy (advance s t) t .halt).modTile t letGo).setTf t R.TSTAT_HALTED 1).setTstate t soaking) t) := by
  have hu := (takenUp_advance h).heldBy .halt
  have hg : TakenUp s ((drainedBy (advance s t) t .halt).modTile t letGo) t := ((takenUp_advance h).drainedBy .halt).modTile fun _ => ⟨rfl, rfl, rfl, rfl, rfl⟩
  have hv : releaseHold ((advance s t).modTile t (heldBy .halt)) t = ((drainedBy (advance s t) t .halt).modTile t letGo).setTf t R.TSTAT_HALTED 1 := by
    have hready : holdReady ((advance s t).modTile t (heldBy .halt)) t .halt = true := hu.done
    rw [releaseHold, held_heldBy]
    exact if_neg (by rw [hready]; decide)
  have hgate : ((advance s t).tile t).gate = [] := by
    obtain ⟨-, -, hgate, -⟩ := modCtx_parts (s.tile t) (s.actx t) Ctx.advance
    rw [tile_advance, if_pos rfl, hgate, h.gate]
  rw [exec_halt, execHalt, atIssue_quiet h (cOnly_self _) rfl]
  rw [releaseGate_empty hgate]
  exact congrArg _ (settle_haltsIdle hu.runs hv ((fld_setFld_apart 1 (by decide) (by decide)).trans hg.runs.running) (tf_setTf_self 1 (by decide) (by decide)) hg.idle)

theorem SameState.refl (s : State) : SameState s s := ⟨rfl, fun _ => rfl, fun _ => rfl, fun _ => rfl⟩

theorem Gives.of_eq {o : Host.Outcome State Fault Refusal} (h : o = .next s) : Gives o s := ⟨s, h, .refl s⟩

/-- Settles O7: a hold that is ready goes on when the tile settles, and one that waits lets the idle tile soak. -/
theorem holdsTheSequencer : Obligations.HoldsTheSequencer := by
  refine ⟨fun s t h => ⟨fun f hf hr hs => .of_eq (cwait_passes h hf hr hs), fun f hf hg hr hk hs => .of_eq (bwait_passes h hf hg hr hk hs), fence_drains h,
      fun hb => .of_eq (ctx_switches h hb), .of_eq (halt_halts h)⟩,
    fun s t h => ⟨fun f hf hr hs => .of_eq (cwait_waits h hf hr hs), fun f hf hg hr hs => .of_eq (bwait_waits h hf hg hr hs)⟩⟩

end Sys2Proof.Machine
end

section
/-!
SUPPORT. The queue port (R249, R258, R322, R640–R642, R745): what a SEND and a RECV meet on a quiet tile, what the injection of a message spends, and what the head of a queue gives.
-/

namespace Sys2Proof.Machine

variable {s u : State} {t c ch : Nat}

/-! ### Messages of the package -/

/-- Which way a message takes, and whether that way takes traffic, are matters of registers above those of the tiles and of the links (R322). -/
theorem carries_desc (hr : ∀ a, AboveTiles a → u.reg a = s.reg a) (hl : u.links = s.links) (d : Nat) (m : Msg) : u.carries (.desc d m) = s.carries (.desc d m) := by
  have hown : u.ownDev = s.ownDev := congrArg (wget · _ _) (hr _ (aboveTiles_of (by decide) 0 _))
  have hstate : ∀ l : Nat × Nat, linkState u l.1 l.2 = linkState s l.1 l.2 := fun l => congrArg (wget · _ _) (hr _ (aboveTiles_of (by decide) _ _))
  have htakes : ∀ l, linkTakes u l = linkTakes s l := fun l => by simp only [linkTakes, hstate, State.link, hl]
  have hends : wireLinks u (.desc d m) = wireLinks s (.desc d m) := by simp only [wireLinks, wireEnds, hown]
  rw [State.carries, State.carries, hends, funext htakes]

/-! ### The injection of a message (R249, R258) -/

/-- A tile that has taken a tag for a transfer. -/
def tagged (s : State) (t : Nat) : State := s.modTile t fun x => { x with nextTag := x.nextTag + 1 }

/-- A channel that has spent a descriptor credit. -/
def dcredSpent (s : State) (t ch : Nat) : State := s.setTf t (R.CHCR_DCRED ch) (s.tf t (R.CHCR_DCRED ch) - 1)

/-- A channel that has spent the credit of a payload of some units and pad: its tail stands behind them. -/
def pcredSpent (s : State) (t ch units tail : Nat) : State := (s.setTf t (R.CHCR_PCRED ch) (s.tf t (R.CHCR_PCRED ch) - units)).setTf t (R.CHCR_PTAIL ch) tail

/-- The tail behind a payload of some units and pad. -/
def tailAfter (s : State) (t ch : Nat) (up : Nat × Nat) : Nat := (if up.2 > 0 then up.1 else s.tf t (R.CHCR_PTAIL ch) + up.1) % s.tf t (R.CHCR_PSIZE ch)

theorem ptail_fits (ch : Nat) : (R.CHCR_PTAIL ch).Fits := show 32 ≤ 43 ∧ 43 < 64 by decide

theorem ptail_dcred_apart (ch : Nat) : (R.CHCR_PTAIL ch).Apart (R.CHCR_DCRED ch) := .inr (.inr (show 8 < 32 by decide))

theorem ptail_pcred_apart (ch : Nat) : (R.CHCR_PTAIL ch).Apart (R.CHCR_PCRED ch) := .inr (.inr (show 28 < 32 by decide))

theorem dcred_pcred_apart (ch : Nat) : (R.CHCR_DCRED ch).Apart (R.CHCR_PCRED ch) := .inr (.inl (show 8 < 16 by decide))

section
variable (units tail : Nat)

theorem tf_spent_dcred : (pcredSpent (dcredSpent s t ch) t ch units tail).tf t (R.CHCR_DCRED ch) = s.tf t (R.CHCR_DCRED ch) - 1 := by
  have hlt : s.tf t (R.CHCR_DCRED ch) < 2 ^ 9 := wget_lt ..
  rw [pcredSpent, tf_setTf_apart _ (ptail_fits ch) (ptail_dcred_apart ch), tf_setTf_apart _ (pcred_fits ch) (pcred_dcred_apart ch), dcredSpent, tf_setTf_fits _ (dcred_fits ch)]
  exact Nat.mod_eq_of_lt (show _ < 2 ^ 9 by omega)

theorem tf_spent_pcred : (pcredSpent (dcredSpent s t ch) t ch units tail).tf t (R.CHCR_PCRED ch) = s.tf t (R.CHCR_PCRED ch) - units := by
  have hlt : s.tf t (R.CHCR_PCRED ch) < 2 ^ 13 := wget_lt ..
  rw [pcredSpent, tf_setTf_apart _ (ptail_fits ch) (ptail_pcred_apart ch), tf_setTf_fits _ (pcred_fits ch), dcredSpent, tf_setTf_apart _ (dcred_fits ch) (dcred_pcred_apart ch)]
  exact Nat.mod_eq_of_lt (show _ < 2 ^ 13 by omega)

/-- Spending credit sets the channel's credit register alone. -/
theorem spent_onlyIn : OnlyIn (fun a => a = regAddr .tile t (R.CHCR ch)) (fun _ => False) s (pcredSpent (dcredSpent s t ch) t ch units tail) :=
  (setTf_onlyIn _ s t (R.CHCR_DCRED ch) _).trans ((setTf_onlyIn _ _ t (R.CHCR_PCRED ch) _).trans (setTf_onlyIn _ _ t (R.CHCR_PTAIL ch) tail))

theorem spent_above (ht : t < 2048) (hch : ch < 64) {a : Nat} (ha : AboveTiles a) : (pcredSpent (dcredSpent s t ch) t ch units tail).reg a = s.reg a := by
  obtain ⟨-, hreg, -⟩ := spent_onlyIn (s := s) (t := t) (ch := ch) units tail
  have hoff : R.CHCR ch < 0x1_0000 := by simp only [R.CHCR]; omega
  exact hreg a (ne_of_aboveTiles (tileAddr_of ht hoff) ha).symm

end

/-- The message that a channel to a queue of the same device injects. -/
def localMsg (s : State) (t ch : Nat) (d : Desc) (payload : List Byte) : Msg :=
  { queue := s.tf t (R.CHROUTE_QUEUE ch), chan := ch, sender := tileSender s t, epoch := (d.setEpoch (s.tf t (R.CHROUTE_EPOCH ch))).epoch,
    desc := d.setEpoch (s.tf t (R.CHROUTE_EPOCH ch)), payload := payload, tag := (s.tile t).nextTag }

/-- The units and the pad of a payload on a channel. -/
abbrev payUnits (s : State) (t ch : Nat) (payload : List Byte) : Nat × Nat := unitsAndPad payload.length (s.tf t (R.CHCR_PTAIL ch)) (s.tf t (R.CHCR_PSIZE ch))

/-- The registers and the tag that an injection takes. -/
def injectSpends (s : State) (t ch : Nat) (payload : List Byte) : State :=
  let up := payUnits s t ch payload
  pcredSpent (dcredSpent (tagged s t) t ch) t ch (up.1 + up.2) (tailAfter s t ch up)

theorem injectMsg_local {pc w0 : Nat} {e : Engine} {grp : Option Nat} {d : Desc} {payload : List Byte} (hdev : s.tf t (R.CHROUTE_DEV ch) = s.ownDev)
    (hb : s.tf t (R.CHROUTE_BASIN ch) = 0) (hp : 0 < s.tf t (R.CHCR_PSIZE ch)) (ht : t < 2048) (hch : ch < 64) :
    ∃ o : Outst, injectMsg s t c pc e grp w0 ch d payload = (addOutst (injectSpends s t ch payload) t o).post (.desc (s.tf t (R.CHROUTE_TILE ch)) (localMsg s t ch d payload)) := by
  have habove : ∀ a, AboveTiles a → (injectSpends s t ch payload).reg a = s.reg a := fun a ha => spent_above (s := tagged s t) _ _ ht hch ha
  have hown : (injectSpends s t ch payload).ownDev = s.ownDev := congrArg (wget · _ _) (habove _ (aboveTiles_of (by decide) 0 _))
  have hown' : (tagged s t).ownDev = s.ownDev := rfl
  unfold injectMsg
  dsimp only [newTag]
  change ∃ o : Outst, (if s.tf t (R.CHROUTE_DEV ch) ≠ (tagged s t).ownDev ∧ _ then _ else _) = _
  rw [if_neg (fun h => h.1 (hdev.trans hown'.symm))]
  simp only [if_neg (Nat.ne_of_gt hp)]
  change ∃ o : Outst, (if s.tf t (R.CHROUTE_DEV ch) = (injectSpends s t ch payload).ownDev then _ else _) = _
  rw [if_pos (hdev.trans hown.symm), hb]
  exact ⟨_, congrArg (State.post _ ∘ Wire.desc _) (congrArg (fun own => ({ localMsg s t ch d payload with sender := { dev := own, tile := t, notTile := false } } : Msg)) hown)⟩

/-- A message of a state that has the same links and registers above those of the tiles, and to which nothing has been put under way, goes as it would from that state. -/
theorem post_desc_wires (hr : ∀ a, AboveTiles a → u.reg a = s.reg a) (hl : u.links = s.links) (hw : u.wires = s.wires) (d : Nat) (m : Msg) :
    (u.post (.desc d m)).wires = (s.post (.desc d m)).wires := by
  have hcarries := carries_desc hr hl d m
  simp only [State.post_eq, State.postAll, hw, List.filter, hcarries]

theorem modTile_onlyIn (A : Nat → Prop) (s : State) (t : Nat) (f : Tile → Tile) : OnlyIn A (fun k => k = t) s (s.modTile t f) :=
  ⟨rfl, fun _ _ => rfl, fun k hk => by rw [State.tile_modTile, if_neg hk]⟩

/-- Registers and tiles changed, and then a message put under way. -/
theorem OnlyIn.post {A K : Nat → Prop} (h : OnlyIn A K s u) (w : Wire) :
    u.post w = { s with regs := (u.post w).regs, tiles := (u.post w).tiles, wires := (u.post w).wires } := by
  obtain ⟨hframe, -, -⟩ := h
  rw [hframe, State.post_eq]
  rfl

theorem injected_onlyIn (payload : List Byte) (o : Outst) :
    OnlyIn (fun a => a = regAddr .tile t (R.CHCR ch)) (fun k => k = t) s (addOutst (injectSpends s t ch payload) t o) :=
  (modTile_onlyIn _ s t _).trans (((spent_onlyIn ..).mono (fun _ h => h) (fun _ h => h.elim)).trans (modTile_onlyIn _ _ t _))

theorem injectMsg_spends {pc w0 : Nat} {e : Engine} {grp : Option Nat} {d : Desc} {payload : List Byte} (hdev : s.tf t (R.CHROUTE_DEV ch) = s.ownDev)
    (hb : s.tf t (R.CHROUTE_BASIN ch) = 0) (hp : 0 < s.tf t (R.CHCR_PSIZE ch)) (ht : t < 2048) (hch : ch < 64) :
    let u := injectMsg s t c pc e grp w0 ch d payload
    let up := payUnits s t ch payload
    u.tf t (R.CHCR_DCRED ch) = s.tf t (R.CHCR_DCRED ch) - 1 ∧ u.tf t (R.CHCR_PCRED ch) = s.tf t (R.CHCR_PCRED ch) - (up.1 + up.2) ∧
      u.wires = (s.post (.desc (s.tf t (R.CHROUTE_TILE ch)) (localMsg s t ch d payload))).wires ∧ u = { s with regs := u.regs, tiles := u.tiles, wires := u.wires } ∧
      (∀ a, a ≠ regAddr .tile t (R.CHCR ch) → u.reg a = s.reg a) ∧ ∀ k, k ≠ t → u.tile k = s.tile k := by
  obtain ⟨o, ho⟩ := injectMsg_local (c := c) (pc := pc) (w0 := w0) (e := e) (grp := grp) (d := d) (payload := payload) hdev hb hp ht hch
  have honly := injected_onlyIn (s := s) (t := t) (ch := ch) payload o
  have hdcred : (addOutst (injectSpends s t ch payload) t o).tf t (R.CHCR_DCRED ch) = s.tf t (R.CHCR_DCRED ch) - 1 := by
    rw [addOutst, tf_modTile, injectSpends, tf_spent_dcred, tagged, tf_modTile]
  have hpcred : (addOutst (injectSpends s t ch payload) t o).tf t (R.CHCR_PCRED ch) = s.tf t (R.CHCR_PCRED ch) - ((payUnits s t ch payload).1 + (payUnits s t ch payload).2) := by
    rw [addOutst, tf_modTile, injectSpends, tf_spent_pcred, tagged, tf_modTile]
  have hoff : R.CHCR ch < 0x1_0000 := by simp only [R.CHCR]; omega
  intro u up
  subst u
  rw [ho]
  generalize addOutst (injectSpends s t ch payload) t o = v at *
  obtain ⟨hframe, hreg, htile⟩ := id honly
  refine ⟨(tf_of_regs (State.post_regs ..) t _).trans hdcred, (tf_of_regs (State.post_regs ..) t _).trans hpcred, ?_, honly.post _, fun a ha => (reg_of_regs (State.post_regs ..) a).trans (hreg a ha),
    fun k hk => (congrArg (mget _ · k) (State.post_tiles ..)).trans (htile k hk)⟩
  refine post_desc_wires (fun a ha => hreg a (ne_of_aboveTiles (tileAddr_of ht hoff) ha).symm) ?_ ?_ _ _ <;> rw [hframe]

/-! ### SEND and SEND_INJECT (R640) -/

/-- A send with credit on an open channel is injected, whatever the status of its group. -/
theorem trySend_credited {pc ch : Nat} {e : Engine} {grp : Option Nat} {w0 : Nat} {d : Desc} {pay : List Byte} (hc : s.tf t (R.CHROUTE_CLOSED ch) = 0)
    (hk : creditOk s t ch pay.length = true) : trySend s t c pc e grp w0 ch d pay = some (injectMsg s t c pc e grp w0 ch d pay) :=
  (if_neg (by omega)).trans (if_pos hk)

/-- What a send looks at of its channel is as before its issue. -/
theorem channel_issued (f : Fld) (hf : R.CHROUTE 0 ≤ f.off) : (issued s t).tf t f = s.tf t f := tf_issued (.inl (by simp only [R.CHROUTE, R.TSTAT] at *; omega))

theorem sendCheck_issued (d : Desc) : sendCheck (issued s t) t c ch d = sendCheck s t c ch d := by
  have h1 := channel_issued (s := s) (t := t) (R.CHCR_PSIZE ch) (by simp only [R.CHCR_PSIZE, R.CHCR, R.CHROUTE]; omega)
  have h2 := channel_issued (s := s) (t := t) (R.CHROUTE_VALID ch) (by simp only [R.CHROUTE_VALID, R.CHROUTE]; omega)
  have h3 := channel_issued (s := s) (t := t) (R.CHROUTE_OWNER ch) (by simp only [R.CHROUTE_OWNER, R.CHROUTE]; omega)
  have h4 := channel_issued (s := s) (t := t) (R.CHROUTE_BASIN ch) (by simp only [R.CHROUTE_BASIN, R.CHROUTE]; omega)
  simp only [sendCheck, h1, h2, h3, h4, localOffset_issued]

theorem carriesPayload_issued : carriesPayload (issued s t) t ch = carriesPayload s t ch := by
  have h1 := channel_issued (s := s) (t := t) (R.CHCR_PSIZE ch) (by simp only [R.CHCR_PSIZE, R.CHCR, R.CHROUTE]; omega)
  have h2 := channel_issued (s := s) (t := t) (R.CHROUTE_BASIN ch) (by simp only [R.CHROUTE_BASIN, R.CHROUTE]; omega)
  simp only [carriesPayload, h1, h2]

theorem creditOk_issued (n : Nat) : creditOk (issued s t) t ch n = creditOk s t ch n := by
  have h1 := channel_issued (s := s) (t := t) (R.CHCR_PSIZE ch) (by simp only [R.CHCR_PSIZE, R.CHCR, R.CHROUTE]; omega)
  have h2 := channel_issued (s := s) (t := t) (R.CHCR_PTAIL ch) (by simp only [R.CHCR_PTAIL, R.CHCR, R.CHROUTE]; omega)
  have h3 := channel_issued (s := s) (t := t) (R.CHCR_PCRED ch) (by simp only [R.CHCR_PCRED, R.CHCR, R.CHROUTE]; omega)
  have h4 := channel_issued (s := s) (t := t) (R.CHCR_DCRED ch) (by simp only [R.CHCR_DCRED, R.CHCR, R.CHROUTE]; omega)
  simp only [creditOk, h1, h2, h3, h4]

section
variable (h : Quiet s t) {f : FmtD} (hw : waitMet s t f.wait = true) (hp : f.pred = 0)
include h hw hp

theorem send_dispatches (hr : f.reg = 0) (hm : f.mod = 0) {o : Nat} (ho : localWin s t (s.actx t) f.a.toNat (offD f) 32 = .ok o) :
    ∃ q : Queued, exec (.send t f) s = .next (settle (effSend t f q (issued s t)) t) ∧ q.ctx = s.actx t ∧ q.pc = issuePc s t ∧ q.desc = some (readDesc s t o) := by
  refine ⟨queuedOf s t _, congrArg _ (issue_qp h (effSend t f) (by simp [hp, hr, hm]) rfl hw ?_), rfl, rfl, ?_⟩
  · rw [ho]
    dsimp only
    split
    · split <;> simp
    · simp
  · simp only [queuedOf, ho, Option.map_some]

end

theorem effSend_injects {f : FmtD} {q : Queued} {o src : Nat} {d : Desc} (hq : q.desc = some d) (hw : localWin u t q.ctx f.a.toNat (offD f) 32 = .ok o)
    (hs : sendCheck u t q.ctx f.idx.toNat d = .ok src) {pay : List Byte} (hpay : (if carriesPayload u t f.idx.toNat then ownRd u t src d.len else []) = pay)
    (hc : u.tf t (R.CHROUTE_CLOSED f.idx.toNat) = 0) (hk : creditOk u t f.idx.toNat pay.length = true) :
    effSend t f q u = injectMsg u t q.ctx q.pc .qp none stOK f.idx.toNat d pay := by
  unfold effSend
  rw [chk_of_ok hw, hq, Option.getD_some, chk_of_ok hs, hpay]
  dsimp only
  rw [trySend_credited hc hk]

theorem sendInject_head {f : Flight} {rest : List Flight} {d : Desc} {payload : List Byte} {grp : Option Nat} {w : Nat} (hn : s.tstate t ≠ fenced)
    (hf : (s.tile t).flights = f :: rest) (hk : f.kind = .sendWait ch d payload grp w) (hc : s.tf t (R.CHROUTE_CLOSED ch) = 0) (hcr : creditOk s t ch payload.length = true) :
    exec (.sendInject t) s = .next (settle (injectMsg (dropFlight s t f.id) t f.ctx f.pc f.eng grp w ch d payload) t) := by
  have hgoes : sendGoes s t f = some (injectMsg (dropFlight s t f.id) t f.ctx f.pc f.eng grp w ch d payload) := by
    rw [sendGoes, hk]
    exact trySend_credited hc hcr
  rw [exec_sendInject, execSendInject, if_neg hn, hf, List.findSome?_cons, hgoes]

/-- Settles O8: a SEND passes its checks in the state that its issue leaves; an injection spends credit in one register and puts one message under way. -/
theorem sendInjects : Obligations.SendInjects := by
  refine ⟨⟨?send, fun s t f rest ch d payload grp w hn hf hk hc hcr => sendInject_head hn hf hk hc hcr⟩,
    fun s t c pc ch w0 e grp d payload hdev hb hp ht hch => injectMsg_spends hdev hb hp ht hch⟩
  intro s t f o src h hw hp hr hm c d ch payload ho hs hc hk
  obtain ⟨q, hx, hctx, hpc, hdesc⟩ := send_dispatches h hw hp hr hm ho
  have hclosed : (issued s t).tf t (R.CHROUTE_CLOSED ch) = 0 := (channel_issued _ (by simp only [R.CHROUTE_CLOSED, R.CHROUTE]; omega)).trans hc
  have hpay : (if carriesPayload (issued s t) t ch then ownRd (issued s t) t src d.len else []) = payload := by rw [carriesPayload_issued, ownRd_issued]
  rw [hx, effSend_injects hdesc (by rw [localWin_issued, hctx]; exact ho) (by rw [sendCheck_issued, hctx]; exact hs) hpay hclosed ((creditOk_issued _).trans hk), hctx, hpc]

end Sys2Proof.Machine
end

section
/-!
SUPPORT. RECV, TRYRECV and QREL (R641, R642, R745): the queue that they name, and the registers that the head of a queue leaves.
-/

namespace Sys2Proof.Machine

variable {s u : State} {t c : Nat} {f : FmtD}

/-! ### Dispatch -/

theorem queue_issued (g : Fld) (hg : R.QCFG 0 ≤ g.off) : (issued s t).tf t g = s.tf t g := tf_issued (.inl (by simp only [R.QCFG, R.TSTAT] at *; omega))

theorem queueOpenTo_issued (q : Nat) : queueOpenTo (issued s t) t c q = queueOpenTo s t c q := by
  have h1 := queue_issued (s := s) (t := t) (R.QCFG_EN q) (by simp only [R.QCFG_EN, R.QCFG]; omega)
  have h2 := queue_issued (s := s) (t := t) (R.QCFG_OWNER q) (by simp only [R.QCFG_OWNER, R.QCFG]; omega)
  have h3 := queue_issued (s := s) (t := t) (R.QCFG_MODE q) (by simp only [R.QCFG_MODE, R.QCFG]; omega)
  simp only [queueOpenTo, h1, h2, h3]

theorem count_issued (q : Nat) : (issued s t).tf t (R.QPTR_COUNT q) = s.tf t (R.QPTR_COUNT q) := queue_issued _ (by simp only [R.QPTR_COUNT, R.QPTR, R.QCFG]; omega)

section
variable (h : Quiet s t) (hw : waitMet s t f.wait = true) (hp : f.pred = 0) (hi : f.idx.toNat < 16)
include h hw hp hi

theorem recvReq_dispatches {i : Instr} {tr : Bool} (hm : f.mod.toNat < 4) (hb : bitOf f.mod.toNat 0 = tr) :
    ∃ q : Queued, issue s t (recvReq s t f i tr) (effRecv t f tr) = settle (effRecv t f tr q (issued s t)) t ∧ q.ctx = s.actx t ∧ q.pc = issuePc s t :=
  ⟨queuedOf s t (recvReq s t f i tr), issue_qp h (effRecv t f tr) (by simp [recvReq, hp, hi, hm, hb]) rfl hw ((rangeOf_length ..).trans (by decide)), rfl, rfl⟩

theorem qrel_dispatches (ha : f.a = 0) (ho : f.off = 0) (hr : f.reg = 0) (hm : f.mod = 0) :
    ∃ q : Queued, exec (.qrel t f) s = .next (settle (effQrel t f q (issued s t)) t) ∧ q.ctx = s.actx t ∧ q.pc = issuePc s t :=
  ⟨queuedOf s t _, congrArg _ (issue_qp h (effQrel t f) (by simp [hp, hi, ha, ho, hr, hm]) rfl hw (Nat.zero_le _)), rfl, rfl⟩

end

/-! ### At dispatch -/

section
variable {q : Queued} {o dst : Nat} {tr : Bool} (hq : queueOpenTo u t q.ctx f.idx.toNat = true) (hwin : localWin u t q.ctx f.a.toNat (offD f) 32 = .ok o)
  (hdst : localDst u t q.ctx (spadAddr t o) 32 = .ok dst)
include hq hwin hdst

theorem effRecv_checked : effRecv t f tr q u = if u.tf t (R.QPTR_COUNT f.idx.toNat) = 0 then
    (if tr then setS u t q.ctx f.reg.toNat 0x1_0000
      else (addFlight u t { id := q.id, eng := .qp, ctx := q.ctx, pc := q.pc, foot := { q.foot with reads := [] }, cnt := none,
                            kind := .recv f.idx.toNat dst f.reg.toNat (bitOf f.mod.toNat 1) }).modTile t fun x => { x with longWait := bitOf f.mod.toNat 1 })
    else takeHead u t q.ctx q.pc f.idx.toNat dst f.reg.toNat := by
  unfold effRecv
  dsimp only
  rw [if_neg (by rw [hq]; decide), hwin]
  exact chk_of_ok hdst ..

theorem effRecv_takes (hc : u.tf t (R.QPTR_COUNT f.idx.toNat) ≠ 0) : effRecv t f tr q u = takeHead u t q.ctx q.pc f.idx.toNat dst f.reg.toNat :=
  (effRecv_checked hq hwin hdst).trans (if_neg hc)

theorem effRecv_empty (hc : u.tf t (R.QPTR_COUNT f.idx.toNat) = 0) : effRecv t f true q u = setS u t q.ctx f.reg.toNat 0x1_0000 :=
  (effRecv_checked hq hwin hdst).trans (if_pos hc)

end

/-- The oldest received message of a queue that has not been released, and those behind it. -/
abbrev receivedOf (s : State) (t n : Nat) : Option (QMsg × List QMsg) := takeFirst (fun m : QMsg => m.q == n && m.received) (s.tile t).qmsgs

/-- The payload of a message is freed with its pad (R642). -/
def released (s : State) (t n : Nat) (m : QMsg) (rest : List QMsg) : State :=
  freeCredit ((s.modTile t fun x => { x with qmsgs := rest }).setTf t (R.QPTR_PHEAD n) ((s.tf t (R.QPTR_PHEAD n) + m.units + m.pad) % s.tf t (R.QPAY_SIZE n))) t n m 0 (m.units + m.pad)

section
variable {q : Queued} (hq : queueOpenTo u t q.ctx f.idx.toNat = true) (hs : u.tf t (R.QPAY_SIZE f.idx.toNat) ≠ 0)
include hq hs

theorem effQrel_none (hn : receivedOf u t f.idx.toNat = none) : effQrel t f q u = u := by
  rw [receivedOf] at hn
  unfold effQrel
  dsimp only
  rw [if_neg (not_or.mpr ⟨by rw [hq]; decide, hs⟩), hn]

theorem effQrel_releases {m : QMsg} {rest : List QMsg} (hm : receivedOf u t f.idx.toNat = some (m, rest)) : effQrel t f q u = released u t f.idx.toNat m rest := by
  rw [receivedOf] at hm
  unfold effQrel
  dsimp only
  rw [if_neg (not_or.mpr ⟨by rw [hq]; decide, hs⟩), hm]
  rfl

end

/-! ### The head of a queue (R641) -/

theorem ownWr_drained (off : Nat) (bs : List Byte) : Drained s (ownWr s t off bs) t := by
  have hrow : ∀ (s : State) (row : Nat), Drained s ((drainRow s t row).modTile t fun x => { closeMerge x row with gb := x.gb.filter fun e => e.row ≠ row }) t := fun s row =>
    (drainRow_drained row).trans ⟨rfl, fun k hk => by rw [State.tile_modTile, if_neg hk], by rw [State.tile_modTile, if_pos rfl]; rfl⟩
  have hwr : ∀ (s : State) (a : Nat) (bs : List Byte), Drained s (s.wr a bs) t := fun s a bs => by
    refine ⟨?_, fun k _ => by rw [State.tile_wr], by rw [State.tile_wr]⟩
    rw [State.wr_frame]
  exact (Drained.foldl hrow _ s).trans (hwr _ _ bs)

theorem ctx_drained (hd : Drained s u t) (c : Nat) : (u.tile t).ctx c = (s.tile t).ctx c := by
  obtain ⟨-, -, htile⟩ := hd
  rw [htile]
  rfl

/-- A return of credit changes no tile but by the list of what was freed. -/
theorem sendCredit_tiles (s : State) (r : Freed) : (sendCredit s r).tiles = s.tiles := by
  unfold sendCredit
  split
  · exact State.post_tiles ..
  · exact (cxtEmit_outOnly ..).keeps State.tiles

theorem ctx_modTile {g : Tile → Tile} (hg : ∀ x, (g x).ctx c = x.ctx c) : ((s.modTile t g).tile t).ctx c = (s.tile t).ctx c := by
  rw [State.tile_modTile, if_pos rfl, hg]

theorem ctx_freedDropped (q : Nat) : ((freedDropped s t q).tile t).ctx c = (s.tile t).ctx c := by
  unfold freedDropped
  exact ctx_modTile fun _ => rfl

/-- Freed credit changes no register of the tile's contexts. -/
theorem ctx_freeCredit (n : Nat) (m : QMsg) (slots units : Nat) : ((freeCredit s t n m slots units).tile t).ctx c = (s.tile t).ctx c := by
  have hsends : ∀ (l : List Freed) (s : State), (l.foldl sendCredit s).tiles = s.tiles := fun l s => foldl_keeps State.tiles l (fun u r _ => sendCredit_tiles u r) s
  unfold freeCredit
  extract_lets u mine sl un psize
  have hu : (u.tile t).ctx c = (s.tile t).ctx c := ctx_modTile fun _ => rfl
  split
  · have hfold : (mine.foldl sendCredit u).tile t = u.tile t := congrArg (mget _ · t) (hsends mine u)
    exact (ctx_freedDropped n).trans ((congrArg (Tile.ctx · c) hfold).trans hu)
  · exact hu

theorem rs_of_ctx (h : (u.tile t).ctx c = (s.tile t).ctx c) (n : Nat) : rs u t c n = rs s t c n := by rw [rs, rs, h]

/-- The status of the descriptor at a queue's head. -/
def headStatus (s : State) (t q : Nat) : Nat := match (s.tile t).qmsgs.find? fun m => m.q == q && !m.received with | some m => m.status | none => stOK

theorem rs_takeHead {pc q dst reg : Nat} (hg : groupsOk s t c (s.tf t (R.QCFG_BASE q) + 32 * s.tf t (R.QPTR_HEAD q)) 32 = true) (n : Nat) :
    rs (takeHead s t c pc q dst reg) t c n = if n = reg then .ofNat 64 (headStatus s t q) else rs s t c n := by
  unfold takeHead
  extract_lets head at_ bytes m u v w x
  rw [if_neg (by rw [hg]; decide)]
  have hw : w.tile t = v.tile t := (State.tile_setTf ..).trans (State.tile_setTf ..)
  have hx : (x.tile t).ctx c = (w.tile t).ctx c := ctx_modTile fun _ => rfl
  have hstatus : m.status = headStatus s t q := by
    dsimp only [m]
    rw [headStatus]
    cases (s.tile t).qmsgs.find? fun m => m.q == q && !m.received <;> rfl
  rw [rs_of_ctx ((ctx_freeCredit ..).trans (hx.trans (congrArg (Tile.ctx · c) hw))), rs_setS, hstatus, rs_of_ctx (ctx_drained (ownWr_drained ..) c)]

/-! ### RECV_UNBLOCK -/

theorem recvUnblock_head {f : Flight} {rest : List Flight} {n dst reg : Nat} {long : Bool} (hf : (s.tile t).flights = f :: rest) (hk : f.kind = .recv n dst reg long)
    (hc : s.tf t (R.QPTR_COUNT n) ≠ 0) (hs : s.tstate t ≠ fenced) :
    exec (.recvUnblock t) s = .next (settle (takeHead ((dropFlight (if s.tf t R.TSTAT_HALTED = 1 then s else wake s t) t f.id).modTile t fun x => { x with longWait := false })
      t f.ctx f.pc n dst reg) t) := by
  have hblocked : f.recvBlocked = true := by rw [Flight.recvBlocked, hk]
  rw [exec_recvUnblock, execRecvUnblock, hf, List.find?_cons_of_pos hblocked]
  dsimp only
  rw [hk]
  exact congrArg _ (if_neg (not_or.mpr ⟨hc, hs⟩))

/-- Settles O9: the queue's checks and count are those before the issue; the head's status goes into the register after its bytes have been written. -/
theorem receives : Obligations.Receives := by
  refine ⟨fun s t h => ⟨?recv, ?qrel⟩, fun s t f rest n dst reg long hf hk hc hs => recvUnblock_head hf hk hc hs,
    fun s t c pc q dst reg hg hc => ⟨(rs_takeHead hg reg).trans (if_pos rfl), fun n hn => (rs_takeHead hg n).trans (if_neg hn)⟩⟩
  case recv =>
    intro f o dst hw hp hi hm hq ho hdst
    have hq' : queueOpenTo (issued s t) t (s.actx t) f.idx.toNat = true := (queueOpenTo_issued _).trans hq
    have ho' : localWin (issued s t) t (s.actx t) f.a.toNat (offD f) 32 = .ok o := (localWin_issued ..).trans ho
    have hdst' : localDst (issued s t) t (s.actx t) (spadAddr t o) 32 = .ok dst := (localDst_issued ..).trans hdst
    refine ⟨fun hb hc => ?_, fun hb hc => ?_, fun hb hc => ?_⟩
    · obtain ⟨q, hx, hctx, hpc⟩ := recvReq_dispatches h hw hp hi (i := .recv t f) hm hb
      rw [exec_recv, execRecv, hx, effRecv_takes (by rw [hctx]; exact hq') (by rw [hctx]; exact ho') (by rw [hctx]; exact hdst') (by rwa [count_issued]), hctx, hpc]
    · obtain ⟨q, hx, hctx, hpc⟩ := recvReq_dispatches h hw hp hi (i := .tryrecv t f) hm hb
      rw [exec_tryrecv, execTryrecv, hx, effRecv_takes (by rw [hctx]; exact hq') (by rw [hctx]; exact ho') (by rw [hctx]; exact hdst') (by rwa [count_issued]), hctx, hpc]
    · obtain ⟨q, hx, hctx, hpc⟩ := recvReq_dispatches h hw hp hi (i := .tryrecv t f) hm hb
      rw [exec_tryrecv, execTryrecv, hx, effRecv_empty (by rw [hctx]; exact hq') (by rw [hctx]; exact ho') (by rw [hctx]; exact hdst') (by rwa [count_issued]), hctx, settle_setS h]
  case qrel =>
    intro f hw hp hi ha ho hr hm hq hs
    obtain ⟨q, hx, hctx, hpc⟩ := qrel_dispatches h hw hp hi ha ho hr hm
    have hq' : queueOpenTo (issued s t) t q.ctx f.idx.toNat = true := by rw [hctx, queueOpenTo_issued, hq]
    have hsize : (issued s t).tf t (R.QPAY_SIZE f.idx.toNat) = s.tf t (R.QPAY_SIZE f.idx.toNat) := queue_issued _ (by simp only [R.QPAY_SIZE, R.QPAY, R.QCFG]; omega)
    have hhead : (issued s t).tf t (R.QPTR_PHEAD f.idx.toNat) = s.tf t (R.QPTR_PHEAD f.idx.toNat) := queue_issued _ (by simp only [R.QPTR_PHEAD, R.QPTR, R.QCFG]; omega)
    have hmsgs : ((issued s t).tile t).qmsgs = (s.tile t).qmsgs := by rw [tile_issued, if_pos rfl, Tile.modCtx]; split <;> rfl
    have hreceived : receivedOf (issued s t) t f.idx.toNat = receivedOf s t f.idx.toNat := by rw [receivedOf, hmsgs]
    refine ⟨fun hn => ?_, fun m rest hm => ?_⟩
    · rw [hx, effQrel_none hq' (by rwa [hsize]) (hreceived.trans hn), settle_issued h]
    · rw [hx, effQrel_releases hq' (by rwa [hsize]) (hreceived.trans hm), released, hsize, hhead]

end Sys2Proof.Machine
end

section
/-!
SUPPORT. SOAK and TRAP (R647, R648), and what a program fault leaves of its tile (R75, R78, R83, R84).
-/

namespace Sys2Proof.Machine

/-! ### SOAK and TRAP -/

section
variable {s : State} {t : Nat} {f : FmtC}

/-- The engine that soaks. -/
abbrev soakEngine (t : Nat) : Engine := if classOf t = 0 then .me else .ve

theorem hasEngine_soak (t : Nat) : hasEngine t (soakEngine t) = true := by
  by_cases hc : classOf t = 0
  · simp [soakEngine, hc, hasEngine]
  · simp [soakEngine, hc, hasEngine]

section
variable (h : Quiet s t) (hf : f = { cZero with imm := f.imm })
include h hf

theorem soak_dispatches : ∃ q : Queued, q.id = (s.tile t).nextId ∧ q.eng = soakEngine t ∧ q.ctx = s.actx t ∧ q.pc = issuePc s t ∧
    exec (.soak t f) s = .next (settle (effSoak t f q (dispatched s t (soakEngine t) (.soak t f))) t) :=
  ⟨_, rfl, rfl, rfl, rfl, congrArg _ (issue_quiet h (effSoak t f) (cOnly_of hf) (hasEngine_soak t) waitMet_zero (Nat.zero_le _))⟩

theorem trap_faults : exec (.trap t f) s = .next (settle (progFault ((advance s t).setTf t R.TFAULT_TRAPCODE f.imm.toNat) t fTRAP (issuePc s t) 0) t) := by
  rw [exec_trap, execTrap, atIssue_quiet h (cOnly_of hf) rfl]

end
end

/-! ### What stops a tile (R75) -/

section
variable (s : State) (t : Nat)

theorem tile_stopTile : ∃ p n w, (stopTile s t).tile t =
    { endMatrix (s.tile t) with queue := [], held := none, longWait := false, phase := p, units := n, wantUnits := w } := by
  have hclock := (forceDown_clockOnly ((s.setTf t R.TSTAT_HALTED 1).modTile t fun x => { endMatrix x with queue := [], held := none, longWait := false }) t).tile
  rw [State.tile_modTile, if_pos rfl] at hclock
  exact ⟨_, _, _, hclock⟩

theorem stopTile_others {k : Nat} (hk : k ≠ t) : (stopTile s t).tile k = s.tile k :=
  ((forceDown_clockOnly _ t).others k hk).trans (by rw [State.tile_modTile, if_neg hk]; rfl)

theorem stopTile_mem : (stopTile s t).mem = s.mem := by rw [stopTile, (forceDown_clockOnly _ t).frame]; rfl

end

/-! ### The record of a fault (R78, R83, R84) -/

section
variable {s : State} {t bit pc daddr : Nat}

/-- A record of a fault sets `TFAULT` and `TFADDR` alone. -/
theorem recordFault_reg {off : Nat} (hf : off ≠ R.TFAULT) (ha : off ≠ R.TFADDR) : (recordFault s t bit pc daddr).reg (regAddr .tile t off) = s.reg (regAddr .tile t off) := by
  rw [recordFault_eq]
  dsimp only
  split
  · rw [State.reg_setReg, if_neg (tileAddr_ne hf)]
  · split
    · have hset : ∀ (u : State) (f : Fld) v, f.off = R.TFADDR → (u.setTf t f v).reg (regAddr .tile t off) = u.reg (regAddr .tile t off) := fun u f v hf => by
        rw [State.reg_setTf, if_neg (tileAddr_ne (by rw [hf]; exact ha))]
      rw [hset _ _ _ rfl, hset _ _ _ rfl, State.reg_setReg, if_neg (tileAddr_ne hf)]
    · rw [State.reg_setReg, if_neg (tileAddr_ne hf)]

section
variable (hb : bit < 14) (hw : bit ≠ fWATCHDOG)
include hb hw

theorem recordFault_names (h : s.tf t R.TFAULT_FIRST = 0) (hpc : pc < 2 ^ 21) (hd : daddr < 2 ^ 40) :
    (recordFault s t bit pc daddr).tf t R.TFAULT_FIRST = bit + 1 ∧ (recordFault s t bit pc daddr).tf t R.TFADDR_PC = pc ∧ (recordFault s t bit pc daddr).tf t R.TFADDR_DADDR = daddr := by
  have hfirst : wget (countedFault (s.reg (regAddr .tile t R.TFAULT)) bit) 23 16 = 0 := (first_countedFault _ hb).trans h
  have haddr : R.TFAULT ≠ R.TFADDR := by decide
  rw [recordFault_eq]
  dsimp only
  rw [if_neg hw, if_pos hfirst]
  refine ⟨?_, ?_, ?_⟩
  · rw [tf_setTf_ne daddr haddr, tf_setTf_ne pc haddr, State.tf, State.fld]
    refine (congrArg (wget · 23 16) ((State.reg_setReg ..).trans (if_pos rfl))).trans ((wget_wset_self _ _ (by decide) (by decide)).trans (Nat.mod_eq_of_lt ?_))
    omega
  · rw [tf_setTf_apart daddr (by decide) (by decide), tf_setTf_fits pc (by decide)]
    exact Nat.mod_eq_of_lt hpc
  · rw [tf_setTf_fits daddr (by decide)]
    exact Nat.mod_eq_of_lt hd

theorem recordFault_later (h : s.tf t R.TFAULT_FIRST ≠ 0) :
    (recordFault s t bit pc daddr).tf t R.TFAULT_FIRST = s.tf t R.TFAULT_FIRST ∧ (recordFault s t bit pc daddr).reg (regAddr .tile t R.TFADDR) = s.reg (regAddr .tile t R.TFADDR) := by
  have hfirst : wget (countedFault (s.reg (regAddr .tile t R.TFAULT)) bit) 23 16 = s.tf t R.TFAULT_FIRST := first_countedFault _ hb
  rw [recordFault_eq]
  dsimp only
  rw [if_neg hw, if_neg (by rw [hfirst]; exact h)]
  refine ⟨?_, (State.reg_setReg ..).trans (if_neg (tileAddr_ne (by decide)))⟩
  exact (congrArg (wget · 23 16) ((State.reg_setReg ..).trans (if_pos rfl))).trans hfirst

end

/-! ### A program fault -/

/-- The tile as a program fault leaves it, before it is reported. -/
abbrev faultStopped (s : State) (t bit pc daddr : Nat) : State := stopTile (recordFault s t bit pc daddr) t

theorem progFault_reported (hf : s.tstate t ≠ fenced) : Reported (faultStopped s t bit pc daddr) (progFault s t bit pc daddr) := by
  rw [progFault, if_neg hf]
  exact reportTile_reported ..

section
variable (ht : t < 2048) (hf : s.tstate t ≠ fenced)
include hf

theorem tile_progFault (k : Nat) : (progFault s t bit pc daddr).tile k = (faultStopped s t bit pc daddr).tile k := (progFault_reported hf).tile k

theorem progFault_stops : let x := (progFault s t bit pc daddr).tile t
    x.queue = [] ∧ x.held = none ∧ x.gate = [] ∧ x.flights = (s.tile t).flights.filter fun f => f.eng ≠ .me := by
  obtain ⟨p, n, w, htile⟩ := tile_stopTile (recordFault s t bit pc daddr) t
  have hkept : (recordFault s t bit pc daddr).tile t = s.tile t := (recordFault_regsOnly s t bit pc daddr).keeps (State.tile · t)
  rw [tile_progFault hf, htile, hkept]
  exact ⟨rfl, rfl, rfl, rfl⟩

theorem progFault_others {k : Nat} (hk : k ≠ t) : (progFault s t bit pc daddr).tile k = s.tile k := by
  rw [tile_progFault hf, stopTile_others _ _ hk]
  exact (recordFault_regsOnly s t bit pc daddr).keeps (State.tile · k)

theorem progFault_mem : (progFault s t bit pc daddr).mem = s.mem := by
  rw [(progFault_reported hf).mem, stopTile_mem]
  exact (recordFault_regsOnly s t bit pc daddr).keeps State.mem

include ht

theorem progFault_reg {off : Nat} (ho : off < 0x1_0000) :
    (progFault s t bit pc daddr).reg (regAddr .tile t off) = ((recordFault s t bit pc daddr).setTf t R.TSTAT_HALTED 1).reg (regAddr .tile t off) :=
  ((progFault_reported hf).2 _ (tileAddr_of ht ho)).trans (stopTile_reg _ t _)

theorem progFault_record {off : Nat} (ho : off < 0x1_0000) (hne : off ≠ R.TSTAT) :
    (progFault s t bit pc daddr).reg (regAddr .tile t off) = (recordFault s t bit pc daddr).reg (regAddr .tile t off) := by
  rw [progFault_reg ht hf ho, State.reg_setTf]
  exact if_neg (tileAddr_ne hne)

theorem progFault_halts : (progFault s t bit pc daddr).tf t R.TSTAT_HALTED = 1 ∧ (progFault s t bit pc daddr).tstate t = s.tstate t := by
  have htstat : ∀ f : Fld, f.off = R.TSTAT → (progFault s t bit pc daddr).tf t f = ((recordFault s t bit pc daddr).setTf t R.TSTAT_HALTED 1).tf t f := fun f ho =>
    congrArg (wget · f.hi f.lo) (progFault_reg ht hf (by rw [ho]; decide))
  refine ⟨(htstat _ rfl).trans (tf_setTf_fits 1 (by decide)), ((htstat R.TSTAT_STATE rfl).trans (tf_setTf_apart 1 (by decide) (by decide))).trans ?_⟩
  exact congrArg (wget · _ _) (recordFault_reg (by decide) (by decide))

end

end

/-- Settles O15: SOAK by the clock that it has called up; a fault by its record, the stop of its tile and its report, which changes neither. -/
theorem soaksAndTraps : Obligations.SoaksAndTraps := by
  refine ⟨fun s t f h hf => ?_, fun s t bit pc daddr ht hf hb hw hpc hd => ?_, fun s t bit pc daddr hf => if_pos hf⟩
  · obtain ⟨q, hid, heng, hctx, hqpc, hx⟩ := soak_dispatches h hf
    refine ⟨fun hv => ?_, fun hv => ?_, trap_faults h hf⟩
    · rw [hx, effSoak]
      exact congrArg (fun u => Host.Outcome.next (settle u t)) (if_pos hv)
    · rw [hx, effSoak, hid, heng, hctx, hqpc]
      exact congrArg (fun u => Host.Outcome.next (settle u t)) (if_neg hv)
  · obtain ⟨hqueue, hheld, hgate, hflights⟩ := progFault_stops (bit := bit) (pc := pc) (daddr := daddr) hf
    obtain ⟨hhalted, hstate⟩ := progFault_halts (bit := bit) (pc := pc) (daddr := daddr) ht hf
    have hrecord : ∀ f : Fld, f.off < 0x1_0000 → f.off ≠ R.TSTAT → (progFault s t bit pc daddr).tf t f = (recordFault s t bit pc daddr).tf t f := fun f ho hne =>
      congrArg (wget · f.hi f.lo) (progFault_record ht hf ho hne)
    have hfirst := hrecord R.TFAULT_FIRST (by decide) (by decide)
    refine ⟨?_, hhalted, hstate, hqueue, hheld, hgate, hflights, fun h0 => ?_, fun h0 => ?_, progFault_mem hf, fun k hk => progFault_others hf hk⟩
    · rw [progFault_record ht hf (by decide) (by decide)]
      exact recordFault_bit s t hb pc daddr
    · rw [hfirst, hrecord R.TFADDR_PC (by decide) (by decide), hrecord R.TFADDR_DADDR (by decide) (by decide)]
      exact recordFault_names hb hw h0 hpc hd
    · rw [hfirst, progFault_record ht hf (by decide) (by decide)]
      exact recordFault_later hb hw h0

end Sys2Proof.Machine
end

section
/-!
SUPPORT. Barriers of tiles, dies and the package (R235–R243, R437, R449, R638): the arrival of a tile, the arrivals that a group counts, and its release.
-/

namespace Sys2Proof.Machine

/-! ### BARR -/

section
variable {s u : State} {t : Nat} {f : FmtC}

/-- The tile holds for its arrival, its buffer drained. -/
abbrev barrHeld (s : State) (t : Nat) (k : SeqHold) (long : Bool) : State := drainAll ((advance s t).modTile t (waitBegun k long)) t

/-- The generation at which a tile is to arrive. -/
abbrev nextGen (s : State) (t g : Nat) : Nat := (s.tf t (R.TBAR_ARRGEN (s.actx t) g) + 1) % 256

theorem barr_ready (h : Quiet s t) (k : SeqHold) (long : Bool) {g gen : Nat} {w b kk l : Bool} :
    holdReady (barrHeld s t k long) t (.barr g gen w b kk l) = decide ((s.tf t (R.TBAR_DONEGEN (s.actx t) g) + 1) % 256 = gen) := by
  have hu : TakenUp s (barrHeld s t k long) t := (takenUp_wait h k long).drained drainAll_drained
  have hoff : (R.TBAR_DONEGEN (s.actx t) g).off ≠ R.TSTAT := by simp only [R.TBAR_DONEGEN, R.TBAR, R.TSTAT]; omega
  have hdone := hu.done
  simp only [allDone, noneOpen, Bool.and_eq_true, List.isEmpty_iff] at hdone
  obtain ⟨hqueue, ⟨⟨hflights, houtst⟩, -⟩, -⟩ := hdone
  simp only [holdReady, hu.actx, hu.kept _ hoff, hqueue, hflights, houtst, List.all_nil, List.isEmpty_nil, Bool.and_true]

section
variable (h : Quiet s t) (hf : f = { cZero with grp := f.grp, l := f.l, k := f.k, b := f.b, w := f.w }) (hg : f.grp.toNat < 48)
  (hw : f.w = false → f.b = false ∧ f.k = false ∧ f.l = false) (hm : s.tf t (R.TBAR_MEMBER (s.actx t) f.grp.toNat) = 1)
include h hf hg hw hm

theorem barr_holds : exec (.barr t f) s = .next (let g := f.grp.toNat
    let k := SeqHold.barr g (nextGen s t g) f.w f.b f.k f.l
    settle (if holdReady (barrHeld s t k f.l) t k then sendArrival (barrHeld s t k f.l) t g (nextGen s t g) f.w f.b f.k f.l else barrHeld s t k f.l) t) := by
  have hlegal : (cOnly f { cZero with grp := f.grp, l := f.l, k := f.k, b := f.b, w := f.w } && decide (f.grp.toNat < 48) && (f.w || (!f.b && !f.k && !f.l))) = true := by
    rw [cOnly_of hf, decide_eq_true hg]
    cases hfw : f.w with
    | true => rfl
    | false =>
      obtain ⟨hb, hk, hl⟩ := hw hfw
      rw [hb, hk, hl]
      rfl
  rw [exec_barr, execBarr, atIssue_quiet h hlegal rfl]
  exact congrArg _ (if_neg (by rw [hm]; decide))

end

/-- An arrival that is sent: the generation stands in `ARRGEN` and one message is under way (R638). -/
theorem sendArrival_sends (s : State) (t g gen : Nat) (w b k long : Bool) : let u := sendArrival s t g gen w b k long
    u.tf t (R.TBAR_ARRGEN (s.actx t) g) = gen % 256 ∧ (u.tile t).held = (if w then some (.bwait g gen b k long) else none) ∧ u.wires = s.wires ++ [.arrive (t / 256) g gen] := by
  have hwires : (drainAll s t).wires = s.wires := by rw [(drainAll_drained (s := s) (t := t)).1]
  unfold sendArrival
  refine ⟨?_, ?_, congrArg (· ++ [_]) hwires⟩
  · rw [tf_modTile, tf_send]
    exact tf_setTf_fits gen (show 8 ≤ 15 ∧ 15 < 64 by decide)
  · rw [State.tile_modTile, if_pos rfl]

end

/-! ### Groups of a die and of the package (R237) -/

section
variable {s : State} {die g gen : Nat}

/-- An arrival that counts: the group is in use, and the generation is the one after the last completed. -/
abbrev Counts (s : State) (die : Nat) (en last : Fld) (gen : Nat) : Prop := ¬ (s.fld .die die en = 0 ∨ gen ≠ (s.fld .die die last + 1) % 256)

theorem counts_of {en last : Fld} (he : s.fld .die die en ≠ 0) (hn : gen = (s.fld .die die last + 1) % 256) : Counts s die en last gen :=
  not_or.mpr ⟨he, not_not.mpr hn⟩

/-- The arrival has been taken. -/
abbrev arrived (s : State) (die g gen : Nat) : State := s.unwire (.arrive die g gen)

section
variable (hg : g < 32)
include hg

theorem dieArrival_ignored (h : ¬ Counts s die (R.DBAR_EN g) (R.DBAR_GEN g) gen) : exec (.dieBarrierArrival die g gen) s = .next (arrived s die g gen) :=
  congrArg _ ((if_pos hg).trans (if_pos (not_not.mp h)))

theorem dieArrival_counted (h : Counts s die (R.DBAR_EN g) (R.DBAR_GEN g) gen) : exec (.dieBarrierArrival die g gen) s =
    .next (if s.fld .die die (R.DBAR_ARRIVED g) + 1 = s.fld .die die (R.DBAR_PARTS g) then
        releaseDie (((arrived s die g gen).setFld .die die (R.DBAR_ARRIVED g) 0).setFld .die die (R.DBAR_GEN g) gen) die g gen
      else (arrived s die g gen).setFld .die die (R.DBAR_ARRIVED g) (s.fld .die die (R.DBAR_ARRIVED g) + 1)) :=
  congrArg _ ((if_pos hg).trans (if_neg h))

end

section
variable (hg : 32 ≤ g)
include hg

theorem partArrival_ignored (h : ¬ Counts s die (R.PBAR_EN (g - 32)) (R.PBAR_GEN (g - 32)) gen) : exec (.dieBarrierArrival die g gen) s = .next (arrived s die g gen) :=
  congrArg _ ((if_neg (Nat.not_lt.mpr hg)).trans (if_pos (not_not.mp h)))

theorem partArrival_counted (h : Counts s die (R.PBAR_EN (g - 32)) (R.PBAR_GEN (g - 32)) gen) :
    let n := s.fld .die die (R.PBAR_ARRIVED (g - 32)) + 1
    let v := (arrived s die g gen).setFld .die die (R.PBAR_ARRIVED (g - 32)) n
    exec (.dieBarrierArrival die g gen) s = .next (if n = s.fld .die die (R.PBAR_PARTS (g - 32)) then v.send (.pkgArrive die g gen) else v) := by
  intro n v
  have hparts : v.fld .die die (R.PBAR_PARTS (g - 32)) = s.fld .die die (R.PBAR_PARTS (g - 32)) :=
    fld_setFld_apart n (show 32 ≤ 40 ∧ 40 < 64 by decide) (.inr (.inr (show 8 < 32 by decide)))
  refine congrArg _ ((if_neg (Nat.not_lt.mpr hg)).trans ((if_neg h).trans ?_))
  change (if n = v.fld .die die (R.PBAR_PARTS (g - 32)) then _ else _) = _
  rw [hparts]
  rfl

/-- The dies of which GC 1 has an arrival, this one's too. -/
abbrev diesArrived (s : State) (die g : Nat) : List Nat :=
  let ds := mget (fun _ => []) s.pkgArrived (g - 32)
  if ds.contains die then ds else ds ++ [die]

theorem pkgArrival_counted (he : s.fld .die 1 (R.PBAR_EN (g - 32)) = 1) (hn : gen = (s.fld .die 1 (R.PBAR_GEN (g - 32)) + 1) % 256) :
    exec (.packageBarrierArrival die g gen) s =
      .next (if (List.range 8).all fun d => !bitOf (s.fld .die 1 (R.PBAR_DIES (g - 32))) d || (diesArrived s die g).contains d then
          groupArrived { s.unwire (.pkgArrive die g gen) with pkgArrived := mput (fun _ => []) s.pkgArrived (g - 32) [] } (g - 32) gen
        else { s.unwire (.pkgArrive die g gen) with pkgArrived := mput (fun _ => []) s.pkgArrived (g - 32) (diesArrived s die g) }) := by
  have hcounts : ¬ (g < 32 ∨ s.fld .die 1 (R.PBAR_EN (g - 32)) = 0 ∨ gen ≠ (s.fld .die 1 (R.PBAR_GEN (g - 32)) + 1) % 256) := by
    rw [he]
    rintro (h | h | h)
    · exact absurd hg (Nat.not_le.mpr h)
    · cases h
    · exact h hn
  exact congrArg _ (if_neg hcounts)

/-- Every die of the mask has come. -/
theorem pkgArrival_completes (he : s.fld .die 1 (R.PBAR_EN (g - 32)) = 1) (hn : gen = (s.fld .die 1 (R.PBAR_GEN (g - 32)) + 1) % 256)
    (h : ∀ d, d < 8 → bitOf (s.fld .die 1 (R.PBAR_DIES (g - 32))) d = true → d ∈ diesArrived s die g) :
    exec (.packageBarrierArrival die g gen) s =
      .next (groupArrived { s.unwire (.pkgArrive die g gen) with pkgArrived := mput (fun _ => []) s.pkgArrived (g - 32) [] } (g - 32) gen) := by
  rw [pkgArrival_counted hg he hn, if_pos]
  refine List.all_eq_true.mpr fun d hd => ?_
  cases hb : bitOf (s.fld .die 1 (R.PBAR_DIES (g - 32))) d with
  | false => rfl
  | true => simpa using h d (List.mem_range.mp hd) hb

/-- A die of the mask is missing. -/
theorem pkgArrival_waits (he : s.fld .die 1 (R.PBAR_EN (g - 32)) = 1) (hn : gen = (s.fld .die 1 (R.PBAR_GEN (g - 32)) + 1) % 256)
    {d : Nat} (hd : d < 8) (hb : bitOf (s.fld .die 1 (R.PBAR_DIES (g - 32))) d = true) (h : d ∉ diesArrived s die g) :
    exec (.packageBarrierArrival die g gen) s = .next { s.unwire (.pkgArrive die g gen) with pkgArrived := mput (fun _ => []) s.pkgArrived (g - 32) (diesArrived s die g) } := by
  rw [pkgArrival_counted hg he hn, if_neg]
  intro hall
  have hcome := List.all_eq_true.mp hall d (List.mem_range.mpr hd)
  rw [hb] at hcome
  exact h (List.contains_iff_mem.mp hcome)

end

theorem barrierRelease_seen {t c : Nat} (h : s.tstate t ≠ fenced) :
    exec (.barrierRelease t c g gen) s = .next (settle ((s.unwire (.release t c g gen)).setTf t (R.TBAR_DONEGEN c g) gen) t) := congrArg _ (if_neg h)

theorem normGroupComplete_ready {n : Nat} {b : DevBar} (hb : devBar s g = some b) (ho : b.own = false) (hn : isNorm s g = true) (he : endpointLd s = some n) :
    let u := markEndpoint s n
    let r := ownRecord u
    let v := if r.nans > 0 then u.logOp 0x0530 r.step else u
    let w := if r.clamps > 0 then v.logOp 0x0820 r.step else v
    exec (.normGroupComplete g) s = .next (tryBar (setBar w { b with own := true, norm := some r.bytes }) g) := by
  rw [exec_normGroupComplete, execNormGroupComplete, hb]
  dsimp only
  rw [if_neg (by rw [ho, hn]; decide), he]

end

/-! ### The release of a die's members -/

section
variable (s : State) (die g gen : Nat)

/-- What the release puts under way to one tile: one message for each context that is a member. -/
def memberReleases (t : Nat) : List Wire := ((List.range 2).filter fun c => s.tf t (R.TBAR_MEMBER c g) = 1).map fun c => .release t c g gen

/-- What the release puts under way. -/
def dieReleases : List Wire := (List.range 256).flatMap fun i => memberReleases s g gen (256 * die + i)

theorem foldl_sendIf {α : Type} (w : α → Wire) (p : State → α → Prop) [∀ s x, Decidable (p s x)] (hp : ∀ s ws x, p { s with wires := ws } x = p s x) (l : List α) : ∀ s : State,
    l.foldl (fun s x => if p s x then s.send (w x) else s) s = { s with wires := s.wires ++ (l.filter fun x => p s x).map w } := by
  induction l with
  | nil => intro s; simp
  | cons x l ih =>
    intro s
    rw [List.foldl_cons, ih]
    by_cases hx : p s x
    · simp [hx, State.send, hp]
    · simp [hx]

theorem releaseDie_wires : releaseDie s die g gen = { s with wires := s.wires ++ dieReleases s die g gen } := by
  have hmember : ∀ (s : State) (t : Nat), (List.range 2).foldl (fun s c => if s.tf t (R.TBAR_MEMBER c g) = 1 then s.send (.release t c g gen) else s) s =
      { s with wires := s.wires ++ memberReleases s g gen t } := fun s t =>
    foldl_sendIf (fun c => .release t c g gen) (fun s c => s.tf t (R.TBAR_MEMBER c g) = 1) (fun _ _ _ => rfl) _ s
  have hall : ∀ (l : List Nat) (s : State), l.foldl (fun s i => { s with wires := s.wires ++ memberReleases s g gen (256 * die + i) }) s =
      { s with wires := s.wires ++ l.flatMap fun i => memberReleases s g gen (256 * die + i) } := by
    intro l
    induction l with
    | nil => intro s; simp
    | cons i l ih =>
      intro s
      rw [List.foldl_cons, ih, List.flatMap_cons, ← List.append_assoc]
      rfl
  unfold releaseDie
  simp only [hmember]
  exact hall _ s

theorem mem_dieReleases {t c g' gen' : Nat} : Wire.release t c g' gen' ∈ dieReleases s die g gen ↔
    t / 256 = die ∧ c < 2 ∧ s.tf t (R.TBAR_MEMBER c g) = 1 ∧ g' = g ∧ gen' = gen := by
  simp only [dieReleases, memberReleases, List.mem_flatMap, List.mem_map, List.mem_filter, List.mem_range, decide_eq_true_eq, Wire.release.injEq]
  constructor
  · rintro ⟨i, hi, c', ⟨hc, hm⟩, rfl, rfl, rfl, rfl⟩
    exact ⟨by omega, hc, hm, rfl, rfl⟩
  · rintro ⟨rfl, hc, hm, rfl, rfl⟩
    have ht : 256 * (t / 256) + t % 256 = t := by omega
    exact ⟨t % 256, Nat.mod_lt _ (by decide), c, ⟨hc, by rwa [ht]⟩, ht, rfl, rfl, rfl⟩

end

/-- Settles O13: an arrival by the group that counts it, a release by the messages that it puts under way. -/
theorem barriers : Obligations.Barriers := by
  refine ⟨⟨fun s t f h hf hg hw hm => ?barr, fun s t g gen w b k long hh hr hready => ?send, sendArrival_sends⟩,
    fun s die g gen => ⟨fun hg he hn hp => ?last, fun hg he hn hp => ?counted, fun hg h => dieArrival_ignored hg (not_not.mpr h), fun hg h => partArrival_ignored hg (not_not.mpr h),
      fun hg he hn => ⟨fun hp => ?part, fun hp => ?partCounted⟩⟩,
    fun s die g gen hg he hn => ⟨pkgArrival_completes hg he hn, fun d hd hb h => pkgArrival_waits hg he hn hd hb h⟩, fun s t c g gen h => barrierRelease_seen h,
    fun s g n b hb ho hn he => normGroupComplete_ready hb ho hn he, fun s die g gen => ?release⟩
  case barr =>
    have hready := fun k => barr_ready h (k := k) (long := f.l) (g := f.grp.toNat) (gen := nextGen s t f.grp.toNat) (w := f.w) (b := f.b) (kk := f.k) (l := f.l)
    refine ⟨fun hd => ?_, fun hd => ?_⟩
    · rw [barr_holds h hf hg hw hm]
      exact congrArg (fun u => Host.Outcome.next (settle u t)) (if_pos (by rw [hready, decide_eq_true hd]))
    · rw [barr_holds h hf hg hw hm]
      exact congrArg (fun u => Host.Outcome.next (settle u t)) (if_neg (by rw [hready, decide_eq_false hd]; decide))
  case send =>
    rw [exec_barrierArrivalSend, execBarrierArrivalSend, hh]
    exact congrArg _ (if_pos ⟨hr, hready⟩)
  case last => rw [dieArrival_counted hg (counts_of he hn), if_pos hp]
  case counted => rw [dieArrival_counted hg (counts_of he hn), if_neg hp]
  case part => rw [partArrival_counted hg (counts_of he hn), if_pos hp]
  case partCounted => rw [partArrival_counted hg (counts_of he hn), if_neg hp]
  case release =>
    rw [releaseDie_wires]
    refine ⟨fun t c ht hc hm => List.mem_append_right _ ((mem_dieReleases ..).mpr ⟨ht, hc, hm, rfl, rfl⟩), rfl, fun t c hr => ?_⟩
    refine (List.mem_append.mp hr).imp_right fun h => ?_
    obtain ⟨ht, hc, hm, -, -⟩ := (mem_dieReleases ..).mp h
    exact ⟨ht, hc, hm⟩

end Sys2Proof.Machine
end

section
/-!
SUPPORT. The start-up (R533, R534, R577–R588, R718–R730): package reset, the causes of an alert, the stages and what passes or fails them.
-/

namespace Sys2Proof.Machine

variable {s : State}

/-! ### Package reset -/

/-- What package reset leaves. -/
theorem packageReset_leaves (s : State) : let u := packageReset s
    u.lodge.porst = true ∧ u.lodge.stage = 0 ∧ u.mram = { s.mram with savedCause := 0 } ∧ u.lodge.prevCause = s.mram.savedCause % 2 ^ 16 ∧ u.regs = [] ∧ u.mem = [] ∧ u.tiles = [] ∧
      u.bind = [] ∧ u.parked = remapAll s ∧ u.chp.sessions = [] ∧ u.pending = s.pending ∧ u.toHost = s.toHost :=
  ⟨rfl, rfl, rfl, rfl, rfl, rfl, rfl, rfl, rfl, rfl, unbound_keeps State.pending unbindTile_pending s, unbound_keeps State.toHost unbindTile_toHost s⟩

theorem vaonInRange_on (h : s.lodge.off = true) : exec .vaonInRange s = .next (packageReset (s.modLodge fun l => { l with off := false })) := congrArg _ (if_pos h)

theorem vaonInRange_off (h : s.lodge.off = false) : exec .vaonInRange s = .next s ∧ exec .porstNAssert s = .next (packageReset s) :=
  ⟨congrArg _ (if_neg (by rw [h]; decide)), congrArg _ (if_neg (by rw [h]; decide))⟩

/-! ### The causes of an alert (R724, R731) -/

/-- Two states of which the lodge differs in the alert cause alone. -/
def CauseOnly (s u : State) : Prop := u.lodge = { s.lodge with cause := u.lodge.cause } ∧ u.regs = s.regs

theorem CauseOnly.refl (s : State) : CauseOnly s s := ⟨rfl, rfl⟩

theorem CauseOnly.trans {u v : State} (h : CauseOnly s u) (g : CauseOnly u v) : CauseOnly s v := by
  obtain ⟨hl, hr⟩ := h
  obtain ⟨gl, gr⟩ := g
  refine ⟨?_, gr.trans hr⟩
  rw [hl] at gl
  exact gl

theorem CauseOnly.ite {u v : State} {p : Prop} [Decidable p] (h : CauseOnly s u) (g : CauseOnly s v) : CauseOnly s (if p then u else v) := by
  split <;> assumption

/-- An alert cause that arises is noted in the lodge and in MRAM; an event of it may go to the host. -/
theorem raiseCause_outOnly (s : State) (bit addr : Nat) : ∃ c, OutOnly ((s.modLodge fun l => { l with cause := c }).modMram fun m => { m with savedCause := c }) (raiseCause s bit addr) :=
  ⟨_, .ite (hostEvent_outOnly ..) (.refl _)⟩

theorem raiseCause_causeOnly (s : State) (bit addr : Nat) : CauseOnly s (raiseCause s bit addr) := by
  obtain ⟨c, ho⟩ := raiseCause_outOnly s bit addr
  have hl : (raiseCause s bit addr).lodge = { s.lodge with cause := c } := ho.keeps State.lodge
  exact ⟨by rw [hl], ho.keeps State.regs⟩

/-- The bit of a power of two that is taken off. -/
theorem bitOf_sub_self {n k : Nat} (h : bitOf n k = true) : bitOf (n - 2 ^ k) k = false := by
  have hd : (n - 2 ^ k) / 2 ^ k = n / 2 ^ k - 1 := by simpa using Nat.sub_mul_div n (2 ^ k) 1
  simp only [bitOf, beq_iff_eq] at h
  simp only [bitOf, hd, beq_eq_false_iff_ne]
  omega

theorem bitOf_clearCause {bit : Nat} (hb : bit ≠ causePmb) : bitOf (clearCause s bit).lodge.cause bit = false := by
  change bitOf (if bit = causePmb then _ else if bitOf s.lodge.cause bit then s.lodge.cause - 2 ^ bit else s.lodge.cause) bit = false
  rw [if_neg hb]
  cases h : bitOf s.lodge.cause bit with
  | true => exact bitOf_sub_self h
  | false => exact h

/-! ### The release of `PORST_N` (R577, R579, R584, R730) -/

/-- The lodge at the release: its ROM has the seed that the helper data gives. -/
def porstReleased (s : State) (trst refclk : Bool) : State := s.modLodge fun l =>
  { l with porst := false, boardTest := trst, refclk := refclk, stage := if refclk then 1 else 0,
           seed := if (Config.pufSeed Config.helperData).length == 32 then Config.pufSeed Config.helperData else [],
           cryptoErr := !((Config.pufSeed Config.helperData).length == 32), lms := max (s.mram.lmsA.getD 0) (s.mram.lmsB.getD 0) }

theorem porstNRelease_releases (ho : s.lodge.off = false) (hp : s.lodge.porst = true) (trst refclk : Bool) :
    ∃ u, exec (.porstNRelease trst refclk) s = .next u ∧ CauseOnly (porstReleased s trst refclk) u := by
  rw [exec_porstNRelease, execPorstNRelease, if_neg (by rw [ho, hp]; decide)]
  refine ⟨_, rfl, ?_⟩
  have hlog : ∀ v : State, CauseOnly v (v.logSec 0x0009 0) := fun _ => ⟨rfl, rfl⟩
  have hseed : CauseOnly (porstReleased s trst refclk)
      (if (Config.pufSeed Config.helperData).length == 32 then porstReleased s trst refclk else raiseCause ((porstReleased s trst refclk).logSec 0x0009 0) causeCrypto 0) :=
    .ite (.refl _) ((hlog _).trans (raiseCause_causeOnly ..))
  exact .ite hseed (hseed.trans (raiseCause_causeOnly ..))

theorem refclkAonArrival_starts (ho : s.lodge.off = false) (hp : s.lodge.porst = false) (hr : s.lodge.refclk = false) :
    exec .refclkAonArrival s = .next (clearCause (s.modLodge fun l => { l with refclk := true, stage := 1 }) causeRefclk) :=
  congrArg _ (if_neg (by rw [ho, hp, hr]; decide))

/-! ### Stage 2 (R587, R588, R590) -/

/-- The firmware that runs. -/
def slotRuns (s : State) (n : Nat) : State := s.modLodge fun l => { l with slot := n, stage := 2 }

/-- The lodge stays in ROM. -/
def romStays (s : State) : State := raiseCause (s.modLodge fun l => { l with failed := true }) causeSlots 0

/-- One slot is tried: whether it runs, and the state with the record of its failure. -/
def trySlot (s : State) (n : Nat) : Bool × State := if slotBarred s n then (false, s) else if slotVerifies s n 0 then (true, s) else (false, slotFails s n 0 2)

/-- The slots marked for the boot that has found one of them to run. -/
def slotsMarked (s : State) (n : Nat) : State :=
  let other := slotOf s (1 - n)
  let s := if other.st = 3 then setSlot s (1 - n) { other with st := 0 } else s
  let run := slotOf s n
  if run.st = 2 then setSlot s n { run with st := 3 } else s

theorem slotsMarked_none {n : Nat} (ho : (slotOf s (1 - n)).st ≠ 3) (hr : (slotOf s n).st ≠ 2) : slotsMarked s n = s := by
  unfold slotsMarked
  dsimp only
  rw [if_neg ho, if_neg hr]

section
variable (ho : s.lodge.off = false) (hp : s.lodge.porst = false) (hf : s.lodge.failed = false) (hs : s.lodge.stage = 1)
include ho hp hf hs

theorem firmwareVerify_tries : exec .lodgeFirmwareVerify s = .next (
    let a := trySlot s 0
    let b := if a.1 then (false, a.2) else trySlot a.2 1
    if !a.1 ∧ !b.1 then romStays b.2 else slotRuns (slotsMarked b.2 (if a.1 then 0 else 1)) (if a.1 then 0 else 1)) := by
  rw [exec_lodgeFirmwareVerify, execLodgeFirmwareVerify, if_neg (by rw [ho, hp, hf, hs]; decide)]
  rfl

theorem firmwareVerify_barred (h0 : slotBarred s 0 = true) (h1 : slotBarred s 1 = true) : exec .lodgeFirmwareVerify s = .next (romStays s) := by
  have hA : trySlot s 0 = (false, s) := if_pos h0
  have hB : trySlot s 1 = (false, s) := if_pos h1
  rw [firmwareVerify_tries ho hp hf hs]
  simp [hA, hB]

/-- The one slot that is not barred runs, or fails. -/
theorem firmwareVerify_one {n : Nat} (hn : n < 2) (hb : slotBarred s n = false) (hx : slotBarred s (1 - n) = true) (h3 : (slotOf s (1 - n)).st ≠ 3) (h2 : (slotOf s n).st ≠ 2) :
    exec .lodgeFirmwareVerify s = .next (if slotVerifies s n 0 then slotRuns s n else romStays (slotFails s n 0 2)) := by
  have htry : trySlot s n = if slotVerifies s n 0 then (true, s) else (false, slotFails s n 0 2) := if_neg (by rw [hb]; decide)
  have hother : trySlot s (1 - n) = (false, s) := if_pos hx
  have hother' : trySlot (slotFails s n 0 2) (1 - n) = (false, slotFails s n 0 2) := if_pos hx
  have hmarked := slotsMarked_none h3 h2
  rw [firmwareVerify_tries ho hp hf hs]
  obtain rfl | rfl : n = 0 ∨ n = 1 := by omega
  · cases hv : slotVerifies s 0 0 with
    | true => simp [htry, hv, hmarked]
    | false => simp [htry, hv, hother']
  · cases hv : slotVerifies s 1 0 with
    | true => simp [hother, htry, hv, hmarked]
    | false => simp [hother, htry, hv]

end

/-! ### Stages 3 to 7 (R533, R534) -/

theorem trainLinks_regsOnly (s : State) (want : Nat → Nat → Bool) : RegsOnly s (trainLinks s want) :=
  .foldl (fun u d => .foldl (fun u e => by split; exacts [setFld_regsOnly .., .refl _]) _ u) _ s

theorem setPstate_regsOnly (s : State) (v : Nat) : RegsOnly s (setPstate s v) := .foldl (fun _ _ => setFld_regsOnly ..) _ s

theorem dieAddr_ne {d x : Nat} (h : d ≠ x) (off : Nat) : regAddr .die d off ≠ regAddr .die x off := by
  simp only [regAddr]
  omega

/-- Every die shows the power state. -/
theorem pstate_setPstate (s : State) {v d : Nat} (hv : v < 2 ^ 3) (hd : d < 8) : (setPstate s v).fld .die d R.DPWR_PSTATE = v := by
  have hself : ∀ u : State, (u.setFld .die d R.DPWR_PSTATE v).fld .die d R.DPWR_PSTATE = v := fun u =>
    (State.fld_setFld_self u v (by decide) (by decide)).trans (Nat.mod_eq_of_lt hv)
  refine foldl_reaches (P := fun u => u.fld .die d R.DPWR_PSTATE = v) (f := fun u x => u.setFld .die x R.DPWR_PSTATE v) hself (fun u x h => ?_) _ (List.mem_range.mpr hd) s
  by_cases hx : d = x
  · subst hx; exact hself u
  · exact (State.fld_setFld_ne u v (dieAddr_ne hx _)).trans h

theorem bootStageFail_fails (h : stageNow s ≠ 0) : exec .bootStageFail s = .next (stageFails s (stageNow s)) := congrArg _ (if_neg h)

section
variable (hf : s.lodge.failed = false)
include hf

theorem pvXPowerOn_starts (hs : s.lodge.stage = 2) (hv : s.lodge.vinx = true) (hx : s.lodge.pvX = false) :
    exec .pvXPowerOn s = .next (((List.range 8).map (8 + ·)).foldl (fun s f => requestFn s f true) (s.modLodge fun l => { l with pvX := true })) :=
  congrArg _ (if_neg (by rw [hf, hs, hv, hx]; decide))

theorem gatehouseBoot_tries (hs : s.lodge.stage = 3) (hb : s.lodge.boardTest = false) :
    exec .gatehouseBoot s = .next (if slotVerifies s s.lodge.slot 1 then
        trainLinks { s.modLodge fun l => { l with stage := 4 } with ghUp := [0, 1], ghFailed := [] } fun d e => match linkOf d e with | .gh _ => true | _ => false
      else stageFails (s.logSec 0x0001 (s.lodge.slot + 2 ^ 8)) 4) :=
  congrArg _ (if_neg (by rw [hf, hs, hb]; decide))

theorem hdPowerUp_tries (hs : s.lodge.stage = 5) (hb : s.lodge.boardTest = false) :
    exec .hdPowerUp s = .next (if slotVerifies s s.lodge.slot 3 then
        setPstate (trainLinks (setFn (s.modLodge fun l => { l with stage := 6 }) 96 2) fun d e => linkOf d e == .hd) 2
      else stageFails (s.logSec 0x0001 (s.lodge.slot + 3 * 2 ^ 8)) 6) :=
  congrArg _ (if_neg (by rw [hf, hs, hb]; decide))

theorem hostPortTrained_passes (hs : s.lodge.stage = 6) : exec .hostPortTrained s = .next (s.modLodge fun l => { l with stage := 7 }) :=
  congrArg _ (if_neg (by rw [hf, hs]; decide))

theorem stageNow_starting (hp : s.lodge.porst = false) (h7 : s.lodge.stage < 7) (hpow : s.lodge.power = none) (hl : s.lodge.loading = none) (hst : s.lodge.starting = none) :
    stageNow s = s.lodge.stage + 1 := by simp [stageNow, hpow, hl, hst, h7, hp, hf]

end

theorem stage_failed (s : State) : (s.modLodge fun l => { l with failed := true }).lodge.stage = s.lodge.stage := rfl

/-- A stage before the power commands that fails stops the start-up. -/
theorem stageFails_stops {n : Nat} (hn : n < 9) : (stageFails s n).lodge.failed = true ∧ (stageFails s n).lodge.stage = s.lodge.stage := by
  have ho : OutOnly s (if (s.submit { code := 0x0A10, src := 0, detail := n }).chp.sessions.isEmpty then s.submit { code := 0x0A10, src := 0, detail := n }
      else hostEvent (s.submit { code := 0x0A10, src := 0, detail := n }) 0x0A10 false n) :=
    (submit_outOnly ..).trans (.ite (.refl _) (hostEvent_outOnly ..))
  have hl := ho.keeps State.lodge
  unfold stageFails
  dsimp only
  rw [if_neg (by omega), if_neg (by omega), if_neg (by omega)]
  refine ⟨rfl, ?_⟩
  exact (stage_failed _).trans (congrArg Lodge.stage hl)

/-! ### Power-goods (R716, R718) -/

/-- An input that has risen. -/
def inputRisen (s : State) (inp : Nat) : State := s.modLodge fun l =>
  { l with vinc := if inp < 8 then l.vinc ||| 2 ^ inp else l.vinc, vinx := l.vinx || inp == 8, vhbm := l.vhbm || inp == 9 }

theorem powerGoodRise_idle (hp : s.lodge.porst = false) (h : s.lodge.power = none) (inp : Nat) : exec (.powerGoodRise inp) s = .next (inputRisen s inp) :=
  congrArg _ ((if_neg (by rw [hp]; decide)).trans (powerOn_idle (s := inputRisen s inp) h))

theorem bitOf_inputRisen (s : State) (inp : Nat) {g : Nat} (hg : g < 8) : bitOf (inputRisen s inp).lodge.vinc g = (bitOf s.lodge.vinc g || inp == g) := by
  change bitOf (if inp < 8 then s.lodge.vinc ||| 2 ^ inp else s.lodge.vinc) g = _
  by_cases hi : inp < 8
  · rw [if_pos hi, bitOf_eq_testBit, bitOf_eq_testBit, Nat.testBit_or, Nat.testBit_two_pow]
    rfl
  · have hne : (inp == g) = false := by simp; omega
    rw [if_neg hi, hne, Bool.or_false]

/-- Settles O46: each command by the branch that its stage takes; the fields of the lodge that a cause of an alert leaves. -/
theorem startUpStages : Obligations.StartUpStages := by
  refine ⟨fun s => ⟨vaonInRange_on, vaonInRange_off, ⟨_, rfl, rfl, rfl, rfl, rfl, rfl, rfl⟩, packageReset_leaves s⟩, fun s trst refclk ho hp => ?release, fun s ho hp hr => ?refclk,
    fun s ho hp hf hs => ⟨fun n hn => firmwareVerify_one ho hp hf hs hn, firmwareVerify_barred ho hp hf hs⟩,
    fun s hf hp => ⟨pvXPowerOn_starts hf, fun hs hb => ?boot, fun hs hb => ?hd, hostPortTrained_passes hf, bootStageFail_fails,
      fun h7 hpow hl hst => ⟨stageNow_starting hf hp h7 hpow hl hst, stageFails_stops (by omega)⟩, fun inp hi hpow => ?good⟩⟩
  case release =>
    obtain ⟨u, hu, hl, -⟩ := porstNRelease_releases ho hp trst refclk
    refine ⟨u, hu, ?_⟩
    rw [hl]
    refine ⟨rfl, rfl, rfl, rfl, ?_, rfl⟩
    change (!((Config.pufSeed Config.helperData).length == 32)) = true ↔ _
    simp
  case refclk => exact ⟨_, refclkAonArrival_starts ho hp hr, rfl, rfl, bitOf_clearCause (by decide), rfl⟩
  case boot =>
    refine ⟨_, gatehouseBoot_tries hf hs hb, fun hv => ?_, fun hv => if_neg (by rw [hv]; decide)⟩
    rw [if_pos hv]
    have hr := trainLinks_regsOnly { s.modLodge fun l => { l with stage := 4 } with ghUp := [0, 1], ghFailed := [] } fun d e => match linkOf d e with | .gh _ => true | _ => false
    exact ⟨hr.keeps (·.lodge.stage), hr.keeps State.ghUp, hr.keeps State.ghFailed, hr.keeps State.tiles⟩
  case hd =>
    refine ⟨_, hdPowerUp_tries hf hs hb, fun hv => ?_, fun hv => if_neg (by rw [hv]; decide)⟩
    rw [if_pos hv]
    have hr := (trainLinks_regsOnly (setFn (s.modLodge fun l => { l with stage := 6 }) 96 2) fun d e => linkOf d e == .hd).trans (setPstate_regsOnly _ 2)
    exact ⟨hr.keeps (·.lodge.stage), fun d hd => pstate_setPstate _ (by decide) hd⟩
  case good => exact ⟨_, powerGoodRise_idle hp hpow inp, rfl, fun g hg => bitOf_inputRisen s inp hg, rfl, rfl⟩

end Sys2Proof.Machine
end

section
/-!
SUPPORT. The damper and temperature (R543–R550, R723): what a change of the pool, of the steps and of the stretch leaves of the registers, and what each period and reading does.
-/

namespace Sys2Proof.Machine

variable {s : State}

/-! ### Fields of the dies -/

/-- A field stands in the block of a die (R15). -/
abbrev Fld.InDie (f : Fld) : Prop := f.Fits ∧ f.off < 0x100_0000

theorem fld_setFld_die {f g : Fld} {d e : Nat} (v : Nat) (hf : f.InDie) (hg : g.InDie) (h : f.Apart g) : (s.setFld .die d f v).fld .die e g = s.fld .die e g := by
  by_cases hd : e = d
  · subst hd; exact fld_setFld_apart v hf.1 h
  · obtain ⟨-, hfo⟩ := hf
    obtain ⟨-, hgo⟩ := hg
    refine State.fld_setFld_ne s v ?_
    simp only [regAddr]
    omega

/-- The same field of another die. -/
theorem fld_setFld_otherDie {f : Fld} {d e : Nat} (v : Nat) (h : e ≠ d) : (s.setFld .die d f v).fld .die e f = s.fld .die e f :=
  State.fld_setFld_ne s v (dieAddr_ne h _)

theorem fld_setFld_fits {b : Block} {n : Nat} {f : Fld} {v : Nat} (hf : f.Fits) (hv : v < 2 ^ (f.hi + 1 - f.lo)) : (s.setFld b n f v).fld b n f = v :=
  (State.fld_setFld_self s v hf.1 hf.2).trans (Nat.mod_eq_of_lt hv)

/-- A tile's field leaves the registers of the other blocks alone. -/
theorem fld_setTf_other {b : Block} {t n : Nat} {f g : Fld} (v : Nat) (ht : t < 2048) (hf : f.off < 0x1_0000) (hb : b ≠ .tile) :
    (s.setTf t f v).fld b n g = s.fld b n g :=
  State.fld_setFld_ne s v (ne_of_aboveTiles (tileAddr_of ht hf) (aboveTiles_of hb n g.off)).symm

/-- A field of another block leaves the tiles alone. -/
theorem tf_setFld_other {b : Block} {t n : Nat} {f g : Fld} (v : Nat) (ht : t < 2048) (hg : g.off < 0x1_0000) (hb : b ≠ .tile) :
    (s.setFld b n f v).tf t g = s.tf t g :=
  State.fld_setFld_ne s v (ne_of_aboveTiles (tileAddr_of ht hg) (aboveTiles_of hb n f.off))

theorem dieTiles_lt {d t : Nat} (hd : d < 8) (ht : t ∈ dieTiles s d) : t < 2048 := by
  obtain ⟨i, hi, he⟩ := List.mem_filterMap.mp ht
  have hi := List.mem_range.mp hi
  split at he
  · cases he; omega
  · cases he

theorem dieTiles_of_bind {u : State} (h : u.bind = s.bind) (d : Nat) : dieTiles u d = dieTiles s d := by
  unfold dieTiles State.bound
  rw [h]

/-! ### The pool and the steps -/

theorem showPool_regsOnly (s : State) (d : Nat) : RegsOnly s (showPool s d) := rfl

theorem dropSteps_regsOnly (s : State) (d : Nat) : RegsOnly s (dropSteps s d) :=
  (RegsOnly.foldl (fun u _ => setFld_regsOnly u ..) _ s).trans (showPool_regsOnly _ d)

/-- A die's field that is none of those which show its pool. -/
abbrev Fld.OutsidePool (f : Fld) : Prop := f.InDie ∧ R.DMPSTAT_POOL.Apart f ∧ R.DMPSTAT_LENT.Apart f ∧ R.DMPSTAT_BOOSTED.Apart f

theorem fld_showPool {f : Fld} (d e : Nat) (hf : f.OutsidePool) : (showPool s d).fld .die e f = s.fld .die e f := by
  obtain ⟨hf, hp, hl, hb⟩ := hf
  rw [showPool, fld_setFld_die _ (by decide) hf hb, fld_setFld_die _ (by decide) hf hl, fld_setFld_die _ (by decide) hf hp]

theorem tf_showPool {t : Nat} {f : Fld} (d : Nat) (ht : t < 2048) (hf : f.off < 0x1_0000) : (showPool s d).tf t f = s.tf t f := by
  rw [showPool, tf_setFld_other _ ht hf (by decide), tf_setFld_other _ ht hf (by decide), tf_setFld_other _ ht hf (by decide)]

theorem fld_dropSteps {f : Fld} {d : Nat} (hd : d < 8) (e : Nat) (hf : f.OutsidePool) : (dropSteps s d).fld .die e f = s.fld .die e f :=
  (fld_showPool d e hf).trans (foldl_keeps (State.fld · .die e f) _ (fun _ _ ht => fld_setTf_other 0 (dieTiles_lt hd ht) (by decide) (by decide)) s)

/-- Every tile of the die stands at step 0. -/
theorem step_dropSteps {d t : Nat} (hd : d < 8) (ht : t ∈ dieTiles s d) : (dropSteps s d).tf t R.TPWR_STEP = 0 := by
  have hkeep : ∀ (u : State) (k : Nat), u.tf t R.TPWR_STEP = 0 → (u.setTf k R.TPWR_STEP 0).tf t R.TPWR_STEP = 0 := by
    intro u k h
    by_cases hk : t = k
    · subst hk; exact tf_setTf_fits 0 (by decide)
    · exact (State.fld_setFld_ne u 0 (by simp only [regAddr]; omega)).trans h
  exact (tf_showPool d (dieTiles_lt hd ht) (by decide)).trans
    (foldl_reaches (P := fun u : State => u.tf t R.TPWR_STEP = 0) (f := fun u k => u.setTf k R.TPWR_STEP 0) (fun _ => tf_setTf_fits 0 (by decide)) hkeep _ ht s)

/-! ### The package's period (R543) -/

/-- The budget of a die: the shares of its tiles and its part of what is over. -/
def budgetOf (s : State) (d : Nat) : Nat := ((dieTiles s d).map shareOf).foldl (· + ·) 0 + 1125

theorem shareOf_le (t : Nat) : shareOf t ≤ 37 := by
  unfold shareOf
  split <;> decide

theorem budgetOf_fits (s : State) (d : Nat) : budgetOf s d < 2 ^ 16 := by
  have hlen : (dieTiles s d).length ≤ 256 := (List.length_filterMap_le ..).trans_eq List.length_range
  have hsum : ((dieTiles s d).map shareOf).sum ≤ ((dieTiles s d).map shareOf).length • 37 :=
    List.sum_le_card_nsmul _ _ fun x hx => by obtain ⟨t, -, rfl⟩ := List.mem_map.mp hx; exact shareOf_le t
  rw [List.length_map, smul_eq_mul] at hsum
  rw [budgetOf, ← List.sum_eq_foldl]
  omega

/-- A die's part of the package's period. -/
def budgetSet (s : State) (d : Nat) : State :=
  let f := s.freeNat
  let s := f.2.setFld .die d R.DMPSTAT_POWER (f.1 % 2 ^ 14)
  showPool (s.setFld .die d R.DMPSTAT_BUDGET (budgetOf s d)) d

theorem packageDamperPeriod_sets (s : State) : exec .packageDamperPeriod s = .next ((List.range 8).foldl budgetSet s) := rfl

theorem budget_budgetSet_self (s : State) (d : Nat) : (budgetSet s d).fld .die d R.DMPSTAT_BUDGET = budgetOf s d :=
  (fld_showPool d d (by decide)).trans (fld_setFld_fits (by decide) (budgetOf_fits s d))

theorem budget_budgetSet_other (s : State) {d e : Nat} (h : e ≠ d) : (budgetSet s d).fld .die e R.DMPSTAT_BUDGET = s.fld .die e R.DMPSTAT_BUDGET :=
  (fld_showPool d e (by decide)).trans ((fld_setFld_otherDie _ h).trans (fld_setFld_die _ (by decide) (by decide) (by decide)))

/-- Each die has its budget. -/
theorem budgetSet_all (s : State) {d : Nat} (hd : d < 8) : ((List.range 8).foldl budgetSet s).fld .die d R.DMPSTAT_BUDGET = budgetOf s d := by
  have hself : ∀ u : State, u.bind = s.bind → (budgetSet u d).fld .die d R.DMPSTAT_BUDGET = budgetOf s d := fun u h =>
    (budget_budgetSet_self u d).trans (by rw [budgetOf, dieTiles_of_bind h]; rfl)
  refine foldl_reaches_of (I := fun u => u.bind = s.bind) (P := fun u => u.fld .die d R.DMPSTAT_BUDGET = budgetOf s d) (f := budgetSet)
    (fun u e h => h) hself (fun u e hu h => ?_) _ (List.mem_range.mpr hd) s rfl
  by_cases he : d = e
  · subst he; exact hself u hu
  · exact (budget_budgetSet_other u he).trans h

/-- What is neither a register nor the count of free values stays. -/
theorem budgetSet_tiles (s : State) : ((List.range 8).foldl budgetSet s).tiles = s.tiles := foldl_keeps State.tiles (f := budgetSet) _ (fun _ _ _ => rfl) s

theorem budgetSet_fresh (s : State) : ((List.range 8).foldl budgetSet s).fresh = s.fresh + 8 := rfl

/-! ### Samples of the package's power (R548) -/

section
variable {w : Nat} (hn : s.lodge.samples.length < 99) (hd : s.lodge.dropped = none) (hc : s.lodge.capped = false)
include hn hd hc

/-- A package that is not capped, of which no hundred samples are there. -/
theorem packagePowerSample_few : exec (.packagePowerSample w) s =
    let high := if w > 4500 then s.lodge.high + 1 else 0
    let trip := decide (w > 5400) || decide (high = 11)
    .next ((if trip then ((List.range 8).foldl dropSteps s).submit { code := 0x0A20, src := 0, detail := w } else s).modLodge fun l =>
      { l with samples := (w :: s.lodge.samples).take 100, high := high, dropped := if trip then some 0 else none, low := 0, capped := false }) := by
  have hlen : ¬ (((w :: s.lodge.samples).take 100).length = 100 ∧ ((w :: s.lodge.samples).take 100).foldl (· + ·) 0 / ((w :: s.lodge.samples).take 100).length > 4500) :=
    fun h => by have := h.1; simp at this; omega
  rw [exec_packagePowerSample, execPackagePowerSample]
  dsimp only
  rw [if_neg hlen]
  cases ht : decide (w > 5400) || decide ((if w > 4500 then s.lodge.high + 1 else 0) = 11) <;> simp [hd, hc]

end

/-! ### The stretch (R549, R550) -/

/-- The three fields that show the stretch. -/
def stretchShown (s : State) (d n : Nat) : State :=
  ((s.setFld .die d R.DMPTHR_STRETCH n).setFld .die d R.DMPTHR_THERM (b2n (decide (mget (fun _ => 0) s.lodge.therm d > 0)))).setFld .die d R.DMPTHR_CAP (b2n s.lodge.capped)

theorem showStretch_shows (s : State) (d : Nat) : ∃ n, showStretch s d = if n > 0 then dropSteps (stretchShown s d n) d else stretchShown s d n := ⟨_, rfl⟩

theorem stretchShown_regsOnly (s : State) (d n : Nat) : RegsOnly s (stretchShown s d n) := rfl

theorem showStretch_regsOnly (s : State) (d : Nat) : RegsOnly s (showStretch s d) := by
  obtain ⟨n, h⟩ := showStretch_shows s d
  rw [h]
  split
  · exact (stretchShown_regsOnly ..).trans (dropSteps_regsOnly _ d)
  · exact stretchShown_regsOnly ..

/-- The reading stays as the stretch is shown. -/
theorem tj_showStretch {d : Nat} (hd : d < 8) : (showStretch s d).fld .die d R.DMPTHR_TJ = s.fld .die d R.DMPTHR_TJ := by
  have hshown : ∀ n, (stretchShown s d n).fld .die d R.DMPTHR_TJ = s.fld .die d R.DMPTHR_TJ := fun n => by
    rw [stretchShown, fld_setFld_apart _ (by decide) (by decide), fld_setFld_apart _ (by decide) (by decide), fld_setFld_apart _ (by decide) (by decide)]
  obtain ⟨n, h⟩ := showStretch_shows s d
  rw [h]
  split
  · exact (fld_dropSteps hd d (by decide)).trans (hshown n)
  · exact hshown n

/-- How often in a row a reading has been cool. -/
def coolNow (s : State) (d temp : Nat) : Nat := if temp ≤ 93 then mget (fun _ => 0) s.lodge.cool d + 1 else 0

/-- The stretch that a reading asks for. -/
def thermNext (s : State) (d temp : Nat) : Nat :=
  let n := mget (fun _ => 0) s.lodge.therm d
  if temp ≥ 97 then min 8 (n + 1) else if coolNow s d temp = 10 then n - 1 else n

/-- A reading before the stretch is shown. -/
def tempTaken (s : State) (d temp : Nat) : State := (s.setFld .die d R.DMPTHR_TJ (min temp 255)).modLodge fun l =>
  { l with therm := mput (fun _ => 0) l.therm d (thermNext s d temp), cool := mput (fun _ => 0) l.cool d (if coolNow s d temp = 10 then 0 else coolNow s d temp) }

theorem readTemp_eq (s : State) (d temp : Nat) : readTemp s d temp = showStretch (tempTaken s d temp) d := rfl

theorem readTemp_tj (s : State) {d : Nat} (hd : d < 8) (temp : Nat) : (readTemp s d temp).fld .die d R.DMPTHR_TJ = min temp 255 := by
  rw [readTemp_eq, tj_showStretch hd]
  exact fld_setFld_fits (s := s) (by decide) (show min temp 255 < 256 by omega)

theorem readTemp_therm (s : State) (d temp : Nat) : mget (fun _ => 0) (readTemp s d temp).lodge.therm d = thermNext s d temp := by
  rw [readTemp_eq, (showStretch_regsOnly _ d).keeps (·.lodge.therm)]
  exact mget_mput_self

section
variable {d temp : Nat}

theorem thermNext_hot (h : 97 ≤ temp) : thermNext s d temp = min 8 (mget (fun _ => 0) s.lodge.therm d + 1) := if_pos h

theorem thermNext_warm (hl : 93 < temp) (hh : temp < 97) : thermNext s d temp = mget (fun _ => 0) s.lodge.therm d := by
  have hc : coolNow s d temp = 0 := if_neg (by omega)
  exact (if_neg (by omega)).trans (if_neg (by rw [hc]; decide))

theorem thermNext_cool (h : temp ≤ 93) (hc : mget (fun _ => 0) s.lodge.cool d = 9) : thermNext s d temp = mget (fun _ => 0) s.lodge.therm d - 1 := by
  have hn : coolNow s d temp = 10 := (if_pos h).trans (by rw [hc])
  exact (if_neg (by omega)).trans (if_pos hn)

end

/-! ### Readings and the hold -/

section
variable {temps : List Nat} (ho : s.lodge.off = false) (hp : s.lodge.porst = false)
include ho hp

theorem thermalRead_reads : exec (.thermalRead temps) s = .next (if temps.any fun x => decide (x ≥ 105) then thermTrip s (temps.foldl max 0)
    else (List.range (min 8 temps.length)).foldl (fun s d => readTemp s d (temps.getD d 0)) s) :=
  congrArg _ (if_neg (by rw [ho, hp]; decide))

theorem thermalRead_trips (h : ∃ x ∈ temps, 105 ≤ x) : exec (.thermalRead temps) s = .next (thermTrip s (temps.foldl max 0)) :=
  (thermalRead_reads ho hp).trans (congrArg _ (if_pos (by simpa using h)))

theorem thermalRead_cool (h : ∀ x ∈ temps, x < 105) :
    exec (.thermalRead temps) s = .next ((List.range (min 8 temps.length)).foldl (fun s d => readTemp s d (temps.getD d 0)) s) :=
  (thermalRead_reads ho hp).trans (congrArg _ (if_neg (by simpa using h)))

end

section
variable {d : Nat} (hl : 100 ≤ s.fld .die d R.DMPTHR_TJ) (hh : s.fld .die d R.DMPTHR_TJ < 105) (hs : 8 ≤ s.fld .die d R.DMPTHR_STRETCH) (h0 : s.fld .die d R.DMPTHR_HOTHOLD = 0)
include hl hh hs h0

/-- Ten milliseconds of heat hold every tile, and what goes out changes no register. -/
theorem thermalHold_holds : ∃ u, exec (.thermalHold d) s = .next u ∧ u.regs = (holdAll (s.setFld .die d R.DMPTHR_HOTHOLD 1)).regs := by
  rw [exec_thermalHold, execThermalHold, if_neg (by omega), if_neg (by omega)]
  refine ⟨_, rfl, ?_⟩
  exact (raiseCause_causeOnly ..).2.trans (((submit_outOnly ..).trans (hostEvent_outOnly ..)).keeps State.regs)

end

/-- Settles O50: the fields that each period and reading writes, and those that the following ones keep. -/
theorem damperAndTemperature : Obligations.DamperAndTemperature := by
  refine ⟨fun s d hd => ⟨fun h => congrArg _ (if_pos h), fun h hb => congrArg _ ((if_neg h).trans (if_pos hb)), fun h hb => congrArg _ ((if_neg h).trans (if_neg hb)), fun t ht => step_dropSteps hd ht⟩,
    fun s => ⟨_, packageDamperPeriod_sets s, budgetSet_fresh s, budgetSet_tiles s, fun d hd => budgetSet_all s hd⟩, fun s w hn hd hc => ⟨fun hw => ?quiet, fun hw => ?much⟩,
    fun s temps ho hp => ⟨thermalRead_trips ho hp, thermalRead_cool ho hp⟩,
    fun s d temp hd => ⟨readTemp_tj s hd temp, fun h => (readTemp_therm ..).trans (thermNext_hot h), fun hl hh => (readTemp_therm ..).trans (thermNext_warm hl hh),
      fun hl hc => (readTemp_therm ..).trans (thermNext_cool hl hc)⟩,
    fun s d hd => ⟨fun h => congrArg _ (if_pos h), fun hl hh hs h0 => ?hot⟩⟩
  case quiet =>
    rw [packagePowerSample_few hn hd hc]
    simp [show ¬ 4500 < w by omega, show ¬ 5400 < w by omega]
    rfl
  case much =>
    rw [packagePowerSample_few hn hd hc]
    simp [show 4500 < w by omega, hw]
  case hot =>
    obtain ⟨u, hu, hr⟩ := thermalHold_holds hl hh hs h0
    refine ⟨u, hu, ?_, fun t ht => (tf_of_regs hr t _).trans (holdAll_holds _ ht)⟩
    have hf : u.fld .die d R.DMPTHR_HOTHOLD = _ := congrArg (wget · R.DMPTHR_HOTHOLD.hi R.DMPTHR_HOTHOLD.lo) (reg_of_regs hr (regAddr .die d R.DMPTHR_HOTHOLD.off))
    exact hf.trans ((holdAll_fld _ (by decide) d R.DMPTHR_HOTHOLD).trans (fld_setFld_fits (by decide) (by decide)))

end Sys2Proof.Machine
end

section
/-!
SUPPORT. The kiln log (R608–R612), the end of sessions on a failed self-test (R605, R606), PMBus (R725, R726) and the test access port (R729–R731).
-/

namespace Sys2Proof.Machine

variable {s : State}

/-! ### The kiln log -/

/-- Learning a code changes the code table alone. -/
theorem learnCode_codes (k : Kiln) (code : Nat) : ∃ cs, learnCode k code = { k with codes := cs } := by
  unfold learnCode
  split
  · exact ⟨_, rfl⟩
  · exact ⟨_, rfl⟩

theorem tellFull_outOnly (s : State) (sec : Bool) : OutOnly s (tellFull s sec) := .ite (hostEvent_outOnly ..) (.refl _)

section
variable {l : LogSub}

theorem logSecurity_full (h : secRecords ≤ s.mram.kiln.sec.length) : logSecurity s l = s.modKiln fun k => { k with lostSec := satAdd k.lostSec 1 (2 ^ 32 - 1) } := if_pos h

/-- A SEC record is written while there is room. -/
theorem logSecurity_room (h : s.mram.kiln.sec.length < secRecords) : let r := logRecord s l s.mram.kiln.sec.length 0
    OutOnly (s.modKiln fun k => { k with sec := k.sec ++ [r], stamp := r.start }) (logSecurity s l) := by
  rw [logSecurity]
  dsimp only
  rw [if_neg (Nat.not_le.mpr h)]
  exact .ite (tellFull_outOnly ..) (.refl _)

/-- The log with the code of a submission in its table. -/
def codeLearnt (s : State) (code : Nat) : State := s.modKiln fun k => learnCode k code

/-- The entry of a code once it is learnt. -/
def entryOf (s : State) (code : Nat) : Nat := codeEntry (learnCode s.mram.kiln code) code

/-- An OP submission within an open window, or of a full partition, is counted. -/
theorem logOperational_counts (h : (learnCode s.mram.kiln l.code).windows.contains (entryOf s l.code) = true ∨ opRecords ≤ (learnCode s.mram.kiln l.code).op.length) :
    let e := entryOf s l.code
    logOperational s l = (codeLearnt s l.code).modKiln fun k => { k with overflow := mput (fun _ => 0) k.overflow e (satAdd (mget (fun _ => 0) k.overflow e) 1 (2 ^ 32 - 1)),
                                                                          suppressed := mput (fun _ => 0) k.suppressed e (satAdd (mget (fun _ => 0) k.suppressed e) 1 (2 ^ 32 - 1)) } := if_pos h

/-- The record of an OP submission that opens its window. -/
def opRecord (s : State) (l : LogSub) : LogRec := logRecord s l s.mram.kiln.op.length (mget (fun _ => 0) s.mram.kiln.suppressed (entryOf s l.code))

theorem opRecord_learnt (s : State) (l : LogSub) : logRecord (codeLearnt s l.code) l (codeLearnt s l.code).mram.kiln.op.length
    (mget (fun _ => 0) (codeLearnt s l.code).mram.kiln.suppressed (entryOf s l.code)) = opRecord s l := by
  obtain ⟨cs, hk⟩ := learnCode_codes s.mram.kiln l.code
  have hu : (codeLearnt s l.code).mram.kiln = { s.mram.kiln with codes := cs } := hk
  unfold opRecord logRecord
  rw [hu]
  rfl

theorem logOperational_writes (hw : (learnCode s.mram.kiln l.code).windows.contains (entryOf s l.code) = false) (hn : (learnCode s.mram.kiln l.code).op.length < opRecords) :
    let e := entryOf s l.code
    OutOnly ((codeLearnt s l.code).modKiln fun k => { k with op := k.op ++ [opRecord s l], stamp := (opRecord s l).start, windows := k.windows ++ [e], suppressed := mput (fun _ => 0) k.suppressed e 0 })
      (logOperational s l) := by
  have hno : ¬ ((learnCode s.mram.kiln l.code).windows.contains (entryOf s l.code) = true ∨ opRecords ≤ (learnCode s.mram.kiln l.code).op.length) := by
    rintro (h | h)
    · rw [hw] at h; cases h
    · omega
  intro e
  have hr := opRecord_learnt s l
  unfold logOperational
  extract_lets u k e' n zero r v
  rw [if_neg (show ¬ (k.windows.contains e' = true ∨ n ≥ opRecords) from hno), ← hr]
  exact .ite (tellFull_outOnly ..) (.refl _)

end

/-! ### Causes and the end of sessions -/

theorem bitOf_add_self {n k : Nat} (h : bitOf n k = false) : bitOf (n + 2 ^ k) k = true := by
  rw [bitOf_eq_testBit] at *
  rw [Nat.add_comm, Nat.testBit_two_pow_add_eq, h]
  rfl

/-- A cause that arises stands in the cause word. -/
theorem bitOf_raiseCause (s : State) (bit : Nat) : bitOf (raiseCause s bit 0).lodge.cause bit = true := by
  have hc : (raiseCause s bit 0).lodge.cause = if bitOf s.lodge.cause bit then s.lodge.cause else s.lodge.cause + 2 ^ bit :=
    (show OutOnly ((s.modLodge fun l => { l with cause := _ }).modMram fun m => { m with savedCause := _ }) (raiseCause s bit 0) from .ite (hostEvent_outOnly ..) (.refl _)).keeps (·.lodge.cause)
  rw [hc]
  cases h : bitOf s.lodge.cause bit with
  | true => exact h
  | false => exact bitOf_add_self h

/-- The identifiers of the open sessions. -/
def sids (s : State) : List Nat := s.chp.sessions.map Sess.sid

theorem hostIsLost_lodge (s : State) : (hostIsLost s).lodge = s.lodge := by
  unfold hostIsLost
  split <;> rfl

theorem hostIsLost_sids (s : State) : sids (hostIsLost s) = sids s := by
  unfold hostIsLost
  split
  · rfl
  · exact List.map_map ..

/-- A session is taken off and its end logged, before it is asked whether another one is left. -/
def sessionGone (s : State) (x : Sess) (i cause : Nat) : State :=
  let c := s.chp
  let mine := decide (c.control = some i)
  let s := { s with chp := { c with sessions := c.sessions.filter (fun y => y.sid ≠ i), control := if mine then none else c.control,
                                    streams := if mine then [] else c.streams, queue := c.queue.filter fun q => q.1 ≠ i } }
  s.logSec 0x0005 (Config.sessionEnd cause x.refused)

theorem endSession_none {i : Nat} (h : s.chp.sessions.find? (fun x => x.sid == i) = none) (cause : Nat) : endSession s i cause = s := by rw [endSession, h]

theorem endSession_found {i : Nat} {x : Sess} (h : s.chp.sessions.find? (fun x => x.sid == i) = some x) (cause : Nat) :
    endSession s i cause = if (sessionGone s x i cause).chp.sessions.isEmpty then hostIsLost (sessionGone s x i cause) else sessionGone s x i cause := by
  rw [endSession, h]
  rfl

theorem endSession_lodge (s : State) (i cause : Nat) : (endSession s i cause).lodge = s.lodge := by
  cases h : s.chp.sessions.find? (fun x => x.sid == i) with
  | none => rw [endSession_none h]
  | some x =>
    rw [endSession_found h]
    split
    · exact hostIsLost_lodge _
    · rfl

/-- The session goes, and no other. -/
theorem endSession_sids (s : State) (i cause : Nat) : sids (endSession s i cause) = (sids s).filter fun j => j ≠ i := by
  cases h : s.chp.sessions.find? (fun x => x.sid == i) with
  | none =>
    rw [endSession_none h]
    refine (List.filter_eq_self.mpr fun j hj => ?_).symm
    obtain ⟨x, hx, rfl⟩ := List.mem_map.mp hj
    simpa using List.find?_eq_none.mp h x hx
  | some x =>
    have hfilter : sids (sessionGone s x i cause) = (sids s).filter fun j => j ≠ i := by rw [sids, sids, List.filter_map]; rfl
    rw [endSession_found h]
    split
    · exact (hostIsLost_sids _).trans hfilter
    · exact hfilter

theorem endSessions_sids (l : List Nat) (cause : Nat) : ∀ s, sids (l.foldl (fun s i => endSession s i cause) s) = (sids s).filter fun j => j ∉ l := by
  induction l with
  | nil => intro s; simp
  | cons i l ih =>
    intro s
    rw [List.foldl_cons, ih, endSession_sids, List.filter_filter]
    simp [Bool.and_comm]

/-- Every session ends. -/
theorem endSessions_all (s : State) (cause : Nat) : ((sids s).foldl (fun s i => endSession s i cause) s).chp.sessions = [] := by
  have h : sids ((sids s).foldl (fun s i => endSession s i cause) s) = [] := (endSessions_sids (sids s) cause s).trans (List.filter_eq_nil_iff.mpr fun j hj => by simpa using hj)
  exact List.map_eq_nil_iff.mp h

/-- The module in its error state, with the cause raised. -/
def cryptoFailed (s : State) (test : Nat) : State := raiseCause ((s.modLodge fun l => { l with cryptoErr := true, seed := [] }).logSec 0x0009 test) causeCrypto 0

theorem cryptoFailed_lodge (s : State) (test : Nat) : ∃ c, (cryptoFailed s test).lodge = { s.lodge with cryptoErr := true, seed := [], cause := c } :=
  ⟨_, (raiseCause_causeOnly ..).1⟩

theorem selfTestFail_ends (ho : s.lodge.off = false) (hp : s.lodge.porst = false) (hc : s.lodge.cryptoErr = false) (test : Nat) :
    let u := (sids (cryptoFailed s test)).foldl (fun s i => endSession s i 4) (cryptoFailed s test)
    exec (.selfTestFail test) s = .next { u with chp := { u.chp with halves := [] } } ∧ u.lodge = (cryptoFailed s test).lodge ∧ u.chp.sessions = [] :=
  ⟨congrArg _ (if_neg (by rw [ho, hp, hc]; decide)), foldl_keeps State.lodge _ (fun u i _ => endSession_lodge u i 4) _, endSessions_all _ 4⟩

/-! ### PMBus -/

section
variable {dev : Nat}

theorem pmbusPoll_runs (hr : pmbRuns s = true) (hd : pmbDevices.contains dev = true) (status pout : Nat) (ok : Bool) :
    exec (.pmbusPoll dev status pout ok) s = .next (if ok then pmbStatus ((pmbAnswers s dev).modLodge fun l => { l with pout := mput (fun _ => 0) l.pout dev pout }) dev status
      else s.modLodge fun l => { l with pmbTries := (l.pmbTries.filter fun e => e.1 ≠ dev) ++ [(dev, 0)] }) :=
  congrArg _ (if_neg (by rw [hr, hd]; decide))

theorem pmbAlert_runs (hr : pmbRuns s = true) (hd : pmbDevices.contains dev = true) (status : Nat) : exec (.pmbAlert dev status) s = .next (pmbStatus (pmbAnswers s dev) dev status) :=
  congrArg _ (if_neg (by rw [hr, hd]; decide))

theorem pmbusRetry_found {n : Nat} (h : s.lodge.pmbTries.find? (fun e => e.1 == dev) = some (dev, n)) (ok : Bool) :
    exec (.pmbusRetry dev ok) s = .next (if ok then pmbAnswers s dev else if n ≥ 2 then pmbFails s dev
      else s.modLodge fun l => { l with pmbTries := l.pmbTries.map fun x => if x.1 = dev then (dev, x.2 + 1) else x }) := by
  rw [exec_pmbusRetry, execPmbusRetry, h]

end

/-! ### The test access port -/

theorem tapSelect_runs (hb : s.lodge.boardTest = true) (hp : s.lodge.porst = false) (ho : s.lodge.off = false) (ir dr drive : Nat) (b : Option Nat) :
    tapSelect s ir dr drive b = { s with tap := { ir := ir, dr := dr, drive := drive, boundary := b.getD s.tap.boundary } } :=
  if_pos (by simp only [tapRuns, hb, hp, ho]; decide)

theorem tapSelect_rests (hb : s.lodge.boardTest = false) (ir dr drive : Nat) (b : Option Nat) : tapSelect s ir dr drive b = s :=
  if_neg (by simp only [tapRuns, hb]; simp)

/-- Settles O54: what a submission writes and counts, the sessions that end one by one, and what the test access port selects. -/
theorem monitoringAndTest : Obligations.MonitoringAndTest := by
  refine ⟨⟨fun s l rest h => ?submission, fun s l => ⟨fun hs hn => ?sec, fun hs hn => ?secFull, fun hs => ⟨fun hw hn => ?op, fun h => ?opCounts⟩, rfl, Nat.le_max_right ..⟩,
      fun s code => ⟨_, rfl, by simp [State.modKiln, State.modMram], rfl⟩, fun s ho => congrArg _ (if_neg (by rw [ho]; decide)), fun s test ho hp hc => ?selfTest,
      fun s dev status pout hr hd => ⟨pmbusPoll_runs hr hd status pout true, pmbusPoll_runs hr hd status pout false, pmbAlert_runs hr hd status, if_pos rfl⟩,
      fun s dev n h => ⟨pmbusRetry_found h true, fun hn => (pmbusRetry_found h false).trans (congrArg _ ((if_neg (by decide)).trans (if_neg (by omega)))), fun hn => (pmbusRetry_found h false).trans (congrArg _ ((if_neg (by decide)).trans (if_pos hn)))⟩,
      fun s ho hp hr => congrArg _ (if_neg (by rw [ho, hp, hr]; decide))⟩,
    fun s hb hp ho => ?tap, fun s hb => ?noTap⟩
  case submission => rw [exec_logSubmission, execLogSubmission, h]
  case sec =>
    have hu : logOne s l = logSecurity s l := if_pos hs
    have hr := (logSecurity_room (l := l) hn).keeps State.mram
    rw [hu, hr]
    exact ⟨rfl, rfl⟩
  case secFull =>
    have hu : logOne s l = logSecurity s l := if_pos hs
    rw [hu, logSecurity_full hn]
    exact ⟨rfl, rfl⟩
  case op =>
    have hu : logOne s l = logOperational s l := if_neg (by rw [hs]; decide)
    have hr := (logOperational_writes hw hn).keeps State.mram
    obtain ⟨cs, hk⟩ := learnCode_codes s.mram.kiln l.code
    have hop : (learnCode s.mram.kiln l.code).op = s.mram.kiln.op := by rw [hk]
    rw [hu, hr]
    exact ⟨congrArg (· ++ [opRecord s l]) hop, List.mem_append_right _ (List.mem_singleton.mpr rfl), mget_mput_self⟩
  case opCounts =>
    have hu : logOne s l = logOperational s l := if_neg (by rw [hs]; decide)
    obtain ⟨cs, hk⟩ := learnCode_codes s.mram.kiln l.code
    have hop : (learnCode s.mram.kiln l.code).op = s.mram.kiln.op := by rw [hk]
    have hov : (learnCode s.mram.kiln l.code).overflow = s.mram.kiln.overflow := by rw [hk]
    rw [hu, logOperational_counts h]
    refine ⟨hop, mget_mput_self.trans ?_⟩
    exact congrArg (fun o => satAdd (mget (fun _ => 0) o _) 1 (2 ^ 32 - 1)) hov
  case selfTest =>
    obtain ⟨hu, hl, hs⟩ := selfTestFail_ends ho hp hc test
    obtain ⟨c, hf⟩ := cryptoFailed_lodge s test
    refine ⟨_, hu, (congrArg Lodge.cryptoErr (hl.trans hf) :), (congrArg Lodge.seed (hl.trans hf) :), hs, rfl, ?_⟩
    exact (congrArg (fun l : Lodge => bitOf l.cause causeCrypto) hl).trans (bitOf_raiseCause ..)
  case tap =>
    have hsel := tapSelect_runs hb hp ho
    have hfree : ∀ ir dr drive b, tapSelect (captured s).2 ir dr drive b = _ := tapSelect_runs (s := (captured s).2) hb hp ho
    exact ⟨congrArg _ (hsel ..), congrArg _ (hsel ..), congrArg _ (hsel ..), congrArg _ (hsel ..), congrArg _ (hsel ..), fun v =>
      ⟨(captured s).1, congrArg _ (hfree _ _ _ (some v)), congrArg _ (hfree _ _ _ (some v)), congrArg _ (hfree _ _ _ (some v)), congrArg _ (hfree _ _ _ (some v))⟩⟩
  case noTap =>
    have hsel := tapSelect_rests hb
    exact ⟨congrArg _ (hsel ..), congrArg _ (hsel ..), congrArg _ (hsel ..), congrArg _ (hsel ..), congrArg _ (hsel ..)⟩

end Sys2Proof.Machine
end

section
/-!
SUPPORT. Handshakes and sessions (R559, R592–R598), the packets of a session, bulk streams (R565), and the master of time and its ticks (R566, R567).
-/

namespace Sys2Proof.Machine

variable {s : State}

/-! ### What the kiln log leaves of MRAM -/

/-- Two states of which MRAM differs in the kiln log alone, whose clears are as many. -/
def SameClears (s u : State) : Prop := u.mram = { s.mram with kiln := u.mram.kiln } ∧ u.mram.kiln.clears = s.mram.kiln.clears

theorem SameClears.trans {u v : State} (h : SameClears s u) (g : SameClears u v) : SameClears s v := by
  obtain ⟨hm, hc⟩ := h
  obtain ⟨gm, gc⟩ := g
  refine ⟨?_, gc.trans hc⟩
  rw [hm] at gm
  exact gm

theorem OutOnly.sameClears {u v : State} (g : OutOnly u v) (h : SameClears s u) : SameClears s v :=
  h.trans ⟨by rw [g.keeps State.mram], by rw [g.keeps State.mram]⟩

theorem logSecurity_sameClears (s : State) (l : LogSub) : SameClears s (logSecurity s l) := by
  by_cases h : secRecords ≤ s.mram.kiln.sec.length
  · rw [logSecurity_full h]
    exact ⟨rfl, rfl⟩
  · exact OutOnly.sameClears (logSecurity_room (Nat.lt_of_not_le h)) ⟨rfl, rfl⟩

theorem codeLearnt_sameClears (s : State) (code : Nat) : SameClears s (codeLearnt s code) := by
  obtain ⟨cs, h⟩ := learnCode_codes s.mram.kiln code
  exact ⟨rfl, (congrArg Kiln.clears h :)⟩

theorem logOperational_sameClears (s : State) (l : LogSub) : SameClears s (logOperational s l) := by
  by_cases h : (learnCode s.mram.kiln l.code).windows.contains (entryOf s l.code) = true ∨ opRecords ≤ (learnCode s.mram.kiln l.code).op.length
  · rw [logOperational_counts h]
    exact (codeLearnt_sameClears s l.code).trans ⟨rfl, rfl⟩
  · obtain ⟨hw, hn⟩ := not_or.mp h
    exact OutOnly.sameClears (logOperational_writes (Bool.eq_false_iff.mpr hw) (Nat.lt_of_not_le hn)) ((codeLearnt_sameClears s l.code).trans ⟨rfl, rfl⟩)

theorem logOne_sameClears (s : State) (l : LogSub) : SameClears s (logOne s l) := by
  unfold logOne
  split
  · exact logSecurity_sameClears s l
  · exact logOperational_sameClears s l

/-- Both partitions emptied. -/
def logEmptied (s : State) : State :=
  ((s.modKiln fun k => { k with clears := k.clears + 1 }).modKiln fun k => { k with op := [], overflow := [], suppressed := [], windows := [] }).modKiln fun k =>
    { k with sec := [], lostSec := 0 }

theorem clearLog_records (s : State) (reason : Nat) : ∃ a b, clearLog s true true reason = logOne (logOne (logEmptied s) a) b := by
  unfold clearLog
  dsimp only
  rw [if_pos rfl, if_pos rfl, if_pos rfl, if_pos rfl]
  exact ⟨_, _, rfl⟩

/-- One clear more. -/
theorem clearLog_both (s : State) (reason : Nat) : let u := clearLog s true true reason
    u.mram = { s.mram with kiln := u.mram.kiln } ∧ u.mram.kiln.clears = s.mram.kiln.clears + 1 := by
  obtain ⟨a, b, hu⟩ := clearLog_records s reason
  obtain ⟨hm, hc⟩ := (logOne_sameClears (logEmptied s) a).trans (logOne_sameClears _ b)
  rw [hu]
  exact ⟨hm, hc⟩

/-! ### Handshakes -/

/-- A handshake is of no session, whose packets are counted. -/
theorem sessions_tellHandshake (s : State) (hs : Nat) (r : List Byte) : (s.tellHost (.handshake hs r)).chp.sessions = s.chp.sessions :=
  List.map_id' s.chp.sessions

section
variable {hs : Nat} {body : List Byte} (h7 : 7 ≤ s.lodge.stage) (hb : s.lodge.boardTest = false)
include h7 hb

theorem hello_failed (hc : s.lodge.cryptoErr = true) : exec (.hello hs body) s = .next (s.tellHost (.refusal hs 6 0)) :=
  congrArg _ ((if_neg (by rw [hb]; simpa using h7)).trans (if_pos hc))

theorem hello_works (hc : s.lodge.cryptoErr = false) : exec (.hello hs body) s = .next (match s.chp.halves.find? fun x => x.hs == hs with
    | some x => if x.hello = body then s.tellHost (.handshake hs x.reply) else dropHalf s hs
    | none => match parseHello body with
      | none => s
      | some h => if s.chp.halves.length ≥ 8 ∨ s.chp.sessions.length ≥ 4 then s.tellHost (.refusal hs resBUSY 0)
        else if !helloSigned s h then refuseHandshake s hs true h.admission
        else if h.admission && !s.mram.owner.isEmpty && !releaseNames s h then refuseHandshake s hs false true
        else answerHello s hs body h) :=
  congrArg _ ((if_neg (by rw [hb]; simpa using h7)).trans (if_neg (by rw [hc]; decide)))

/-- A HELLO that comes again draws the same REPLY. -/
theorem hello_again (hc : s.lodge.cryptoErr = false) {x : Half} (hx : s.chp.halves.find? (fun x => x.hs == hs) = some x) (hbody : x.hello = body) :
    exec (.hello hs body) s = .next (s.tellHost (.handshake hs x.reply)) := by
  rw [hello_works h7 hb hc, hx]
  exact congrArg _ (if_pos hbody)

theorem hello_new (hc : s.lodge.cryptoErr = false) {h : Hello} (hx : s.chp.halves.find? (fun x => x.hs == hs) = none) (hp : parseHello body = some h) :
    exec (.hello hs body) s = .next (if s.chp.halves.length ≥ 8 ∨ s.chp.sessions.length ≥ 4 then s.tellHost (.refusal hs resBUSY 0)
        else if !helloSigned s h then refuseHandshake s hs true h.admission
        else if h.admission && !s.mram.owner.isEmpty && !releaseNames s h then refuseHandshake s hs false true
        else answerHello s hs body h) := by
  rw [hello_works h7 hb hc, hx, hp]

end

theorem finish_found {hs : Nat} {body : List Byte} {x : Half} (hx : s.chp.halves.find? (fun x => x.hs == hs) = some x) (hn : s.chp.sessions.length < 4) :
    exec (.finish hs body) s = .next (if Config.ecdsaVerify x.hostKey (Config.sha384 (x.hello ++ x.reply)) body then
         openSession (match x.admission with | some root => admitOwner (dropHalf s hs) root | none => dropHalf s hs) x
       else refuseHandshake s hs true x.admission.isSome) := by
  rw [exec_finish, execFinish, hx]
  refine congrArg _ ?_
  dsimp only
  cases hv : Config.ecdsaVerify x.hostKey (Config.sha384 (x.hello ++ x.reply)) body with
  | true => exact (if_neg (by decide)).trans (if_neg (by omega))
  | false => rfl

/-- A session opens beside the others where no owner is admitted. -/
theorem openSession_adds {x : Half} (hx : x.admission = none) (s : State) : ∃ y : Sess, y.sid = x.sid ∧ y.opened = s.ticks ∧
    openSession s x = (State.logSec { s with chp := { s.chp with sessions := s.chp.sessions ++ [y] } } 0x0004 x.sid).modLodge fun l => { l with stage := max l.stage 8 } := by
  unfold openSession
  dsimp only
  rw [hx, if_neg (by decide)]
  exact ⟨_, rfl, rfl, rfl⟩

/-! ### The packets of a session -/

section
variable {pk : ChpPkt}

theorem mem_modSess {sid : Nat} {f : Sess → Sess} {y : Sess} (h : y ∈ (s.modSess sid f).chp.sessions) : y ∈ s.chp.sessions ∧ y.sid ≠ sid ∨ ∃ x ∈ s.chp.sessions, x.sid = sid ∧ y = f x := by
  obtain ⟨x, hx, rfl⟩ := List.mem_map.mp h
  by_cases hs : x.sid = sid
  · exact .inr ⟨x, hx, hs, if_pos hs⟩
  · rw [if_neg hs]
    exact .inl ⟨hx, hs⟩

theorem pktFits_iff : pktFits s pk = true ↔ pk.sealOk = true ∧ ∃ x ∈ s.chp.sessions, x.sid = pk.sid ∧ pk.seq ∉ x.seen ∧ x.high < pk.seq + 1024 := by
  simp [pktFits, and_assoc]

/-- A number that was seen, or that lies too far below the highest one, is refused. -/
theorem pktFits_seen (h : ∀ x ∈ s.chp.sessions, x.sid = pk.sid → pk.seq ∈ x.seen ∨ pk.seq + 1024 ≤ x.high) : pktFits s pk = false := by
  refine Bool.eq_false_iff.mpr fun hf => ?_
  obtain ⟨-, x, hx, hs, hn, hh⟩ := pktFits_iff.mp hf
  rcases h x hx hs with hm | hl
  · exact hn hm
  · omega

theorem mem_seen_take (x : Sess) (seq n : Nat) : n ∈ (x.take seq).seen ↔ (n ∈ x.seen ∨ n = seq) ∧ max x.high seq < n + 1024 := by
  simp [Sess.take, or_and_right]

end

/-! ### The end of a session -/

/-- A session that ends goes, with the claim and the streams that it held; with the last one the host is lost. -/
theorem endSession_ends {sid : Nat} {x : Sess} (h : s.chp.sessions.find? (fun x => x.sid == sid) = some x) (cause : Nat) : let u := endSession s sid cause
    (∀ y, y ∈ u.chp.sessions ↔ y ∈ s.chp.sessions ∧ y.sid ≠ sid) ∧ (s.chp.control = some sid → u.chp.control = none ∧ u.chp.streams = []) ∧
      ((∀ y ∈ s.chp.sessions, y.sid = sid) → u.hostGone = true ∧ (s.hostGone = false → u.stepHold = true)) := by
  have hmem : ∀ y, y ∈ (sessionGone s x sid cause).chp.sessions ↔ y ∈ s.chp.sessions ∧ y.sid ≠ sid := fun y => by
    simp [sessionGone, State.logSec, State.submit]
  have hmine : s.chp.control = some sid → (sessionGone s x sid cause).chp.control = none ∧ (sessionGone s x sid cause).chp.streams = [] := fun hc =>
    ⟨if_pos (decide_eq_true hc), if_pos (decide_eq_true hc)⟩
  intro u
  have hu : u = _ := endSession_found h cause
  generalize hg : sessionGone s x sid cause = g at *
  have hgone : g.hostGone = s.hostGone := by rw [← hg]; rfl
  cases hl : g.chp.sessions with
  | nil =>
    rw [hl] at hu hmem
    have hlost : u = hostIsLost g := hu
    unfold hostIsLost at hlost
    split at hlost
    next hh => exact ⟨by rw [hlost, hl]; exact hmem, by rw [hlost]; exact hmine, fun _ => by rw [hlost, ← hgone, hh]; exact ⟨rfl, fun hf => by cases hf⟩⟩
    next hh => exact ⟨by rw [hlost]; change ∀ y, y ∈ g.chp.sessions.map _ ↔ _; rw [hl]; exact hmem, by rw [hlost]; exact hmine, fun _ => by rw [hlost]; exact ⟨rfl, fun _ => rfl⟩⟩
  | cons y ys =>
    rw [hl] at hu
    have hkept : u = g := hu
    refine ⟨by rw [hkept]; exact hmem, by rw [hkept]; exact hmine, fun hall => ?_⟩
    obtain ⟨hy, hne⟩ := (hmem y).mp (by rw [hl]; exact .head _)
    exact absurd (hall y hy) hne

/-! ### Streams -/

section
variable {pk : ChpPkt} {n : Nat} {x : Stream}

theorem bulkData_taken {off : Nat} {data : List Byte} (hf : pktFits s pk = true) (hc : s.chp.control = some pk.sid) :
    exec (.bulkData pk n off data) s = .next (takeBulk n off data (takePkt s pk)) :=
  congrArg _ ((withPkt_fits s pk _ hf).trans (if_pos hc))

theorem bulkCredit_taken {units contig : Nat} (hf : pktFits s pk = true) (hc : s.chp.control = some pk.sid) :
    exec (.bulkCredit pk n units contig) s = .next (takeCredit n units (takePkt s pk)) :=
  congrArg _ ((withPkt_fits s pk _ hf).trans (if_pos hc))

/-- The contiguous part of a stream and the pieces beyond it, with one more piece. -/
def joined (x : Stream) (off n : Nat) : Nat × List (Nat × Nat) := joinParts x.contig (x.parts ++ [(off, n)]) (x.parts.length + 1)

/-- Data within the range and the credit of an ingest stream, whose blocks are free and whose pages have room in staging. -/
theorem takeBulk_stores {off : Nat} {data : List Byte} {v : State} (hx : s.chp.streams.find? (fun x => x.n == n) = some x) (hd : x.dir = 0) (hne : data ≠ []) (h4 : data.length ≤ 4096)
    (hr : off + data.length ≤ x.len) (hcr : off + data.length ≤ x.credit * creditUnit) (hb : ∀ p ∈ pieces4k (x.addr + off) data.length, blockHeld s p.1 = false)
    (hv : stageRange s (pagesOf s (x.addr + off) data.length) = some v) : takeBulk n off data s =
      let w := hbmPut v (x.addr + off) data
      State.tellHost { w with chp := { w.chp with streams := w.chp.streams.map fun y =>
        if y.n = n then { x with contig := (joined x off data.length).1, parts := (joined x off data.length).2 } else y } } (.credit n x.credit (joined x off data.length).1) := by
  have hlen : data.length ≠ 0 := by simpa using hne
  have hany : ¬ ((pieces4k (x.addr + off) data.length).any fun p => blockHeld s p.1) = true := by simpa using fun a b h => hb (a, b) h
  simp only [takeBulk, hx]
  rw [if_neg (by omega), if_neg hany, hv]
  rfl

end

/-! ### Time -/

section
variable {master : Nat} {offset : Int}

/-- The master of the device's domain is heard. -/
def masterHeard (s : State) (master : Nat) : State := s.modLodge fun l => { l with master := some master, unsync := false }

theorem ptpMessage_heard (h7 : 7 ≤ s.lodge.stage) (hm : s.lodge.master = none ∨ s.lodge.master = some master) : exec (.ptpMessage master s.lodge.domain offset) s =
    .next (if offset.natAbs < 1_000_000 then (masterHeard s master).modLodge fun l => { l with slew := offset * 1000 }
      else (State.modLodge { masterHeard s master with utcPs := ((s.utcPs : Int) + offset * 1000).toNat } fun l => { l with slew := 0 }).submit
        { code := 0x0A40, src := 0, kind := 1, min := wrap offset 64, max := wrap offset 64, detail := master }) := by
  have hno : ¬ (s.lodge.stage < 7 ∨ s.lodge.domain ≠ s.lodge.domain ∨ (s.lodge.master ≠ none ∧ s.lodge.master ≠ some master)) := by
    rintro (h | h | ⟨hn, hs⟩)
    · omega
    · exact h rfl
    · exact hm.elim hn hs
  exact congrArg _ (if_neg hno)

end

/-- What one tick takes off what is still to be slewed. -/
def slewNow (s : State) : Int := max (-slewStep) (min slewStep s.lodge.slew)

theorem tick_rests (h : s.lodge.off = true ∨ s.lodge.porst = true ∨ s.lodge.refclk = false) : tick s = s := if_pos (by simpa using h)

theorem tick_passes (ho : s.lodge.off = false) (hp : s.lodge.porst = false) (hr : s.lodge.refclk = true) :
    tick s = { s.modLodge (fun l => { l with slew := l.slew - slewNow s }) with ticks := s.ticks + 1, utcPs := ((s.utcPs : Int) + 40_000 + slewNow s).toNat } :=
  if_neg (by rw [ho, hp, hr]; decide)

theorem step_idle (h : s.pending = []) : step s = .next (tick s) := by rw [step, h]

/-- Settles O53: each command by the branch that is taken; the sessions by their identifiers and sequence numbers, and the tick by what it takes off the slew. -/
theorem sessionsAndTime : Obligations.SessionsAndTime := by
  refine ⟨⟨fun s hs body h7 hb => ⟨hello_failed h7 hb, fun hc => ⟨fun x hx => hello_again h7 hb hc hx, fun h hx hp => ⟨fun hfull => ?busy, fun hh hn => ?answered⟩⟩⟩,
      fun s hs body h => ⟨_, _, rfl, rfl, rfl, rfl, rfl, rfl, rfl, sessions_tellHandshake _ hs _, rfl, rfl⟩, fun s hs body x hx hn => finish_found hx hn, fun s x hx => ?opens, fun s root => ?admits,
      fun s hs => ⟨rfl, fun x hx => by simpa using (List.mem_filter.mp hx).2⟩, fun s pk => ⟨fun hf => congrArg _ (withPkt_fits s pk _ hf), fun hf => congrArg _ (withPkt_refused s pk _ hf), serve_nil s,
        fun x hx hs hn hh hok => pktFits_iff.mpr ⟨hok, x, hx, hs, hn, hh⟩, fun hok => Bool.eq_false_iff.mpr fun hf => ?sealed, pktFits_seen, ⟨rfl, List.length_map .., fun y hy => ?taken⟩,
        ⟨rfl, fun y hy => mem_modSess hy⟩⟩,
      fun s sid x hx => ⟨?timeout, endSession_ends hx⟩, fun s₀ pk n off data x hf hc hx hd hne h4 hr hcr hb v hv => ?data, fun s₀ pk n units contig x hf hc hx => ⟨fun hd => ?egress, fun hd => ?ingress⟩,
      fun s master offset h7 hm => ⟨_, ptpMessage_heard h7 hm, ?ptp⟩, fun s => rfl⟩,
    fun s hq => ⟨fun h => (step_idle hq).trans (congrArg _ (tick_rests h)), fun ho hp hr => ?tick⟩⟩
  case busy => exact (hello_new h7 hb hc hx hp).trans (congrArg _ (if_pos hfull))
  case answered => exact (hello_new h7 hb hc hx hp).trans (congrArg _ (if_neg (by omega)))
  case opens =>
    obtain ⟨y, hs, ho, hu⟩ := openSession_adds hx s
    rw [hu]
    exact ⟨⟨y, rfl, hs, ho⟩, rfl, rfl, rfl⟩
  case admits =>
    obtain ⟨hm, hc⟩ := clearLog_both (s.modMram fun m => { m with owner := root, admissions := m.admissions + 1 }) 1
    exact ⟨(congrArg Mram.owner hm :), (congrArg Mram.admissions hm :), hc, rfl⟩
  case sealed =>
    obtain ⟨hs, -⟩ := pktFits_iff.mp hf
    rw [hok] at hs
    cases hs
  case taken =>
    obtain h | ⟨x, hx, hs, rfl⟩ := mem_modSess hy
    · exact .inl h
    · exact .inr ⟨x, hx, hs, rfl, mem_seen_take x pk.seq⟩
  case timeout =>
    rw [exec_sessionTimeout, execSessionTimeout, hx]
    rfl
  case data => exact (bulkData_taken hf hc).trans (congrArg _ (takeBulk_stores hx hd hne h4 hr hcr hb hv))
  case egress =>
    rw [bulkCredit_taken hf hc, takeCredit, hx]
    exact congrArg _ (if_neg (not_not_intro hd))
  case ingress =>
    rw [bulkCredit_taken hf hc, takeCredit, hx]
    exact congrArg _ (if_pos hd)
  case ptp =>
    by_cases hlt : offset.natAbs < 1_000_000
    · rw [if_pos hlt]
      exact ⟨rfl, rfl, fun _ => ⟨rfl, rfl, rfl⟩, fun hge => absurd hlt (Nat.not_lt.mpr hge)⟩
    · rw [if_neg hlt]
      exact ⟨rfl, rfl, fun h => absurd h hlt, fun _ => ⟨rfl, rfl, List.length_append⟩⟩
  case tick =>
    refine ⟨_, slewNow s, (step_idle hq).trans (congrArg _ (tick_passes ho hp hr)), rfl, ?_, rfl, rfl, fun h0 => ?_, rfl⟩
    · simp only [slewNow, slewStep]; omega
    · simp only [slewNow, slewStep, h0]; decide

end Sys2Proof.Machine
end

section
/-!
SUPPORT. The DMA instructions (R661–R670): a plan has at most four ranges, a legal instruction of a quiet tile meets its plan at once, and a finished transfer lands and signals.
-/

namespace Sys2Proof.Machine

variable {s : State} {t : Nat}

/-! ### The ranges of a plan -/

/-- A check that finds at most four ranges. -/
def FewRanges (r : Chk (List Range)) : Prop := ∀ l, r = .ok l → l.length ≤ 4

theorem FewRanges.error (e : Nat × Nat) : FewRanges (.error e) := fun _ h => by cases h

theorem FewRanges.ok {l : List Range} (h : l.length ≤ 4) : FewRanges (.ok l) := fun _ he => by cases he; exact h

theorem FewRanges.ite {p : Prop} [Decidable p] {a b : Chk (List Range)} (ha : FewRanges a) (hb : FewRanges b) : FewRanges (if p then a else b) := by
  split <;> assumption

theorem FewRanges.bind {α : Type} {x : Chk α} {f : α → Chk (List Range)} (h : ∀ a, FewRanges (f a)) : FewRanges (x >>= f) := by
  cases x with
  | error e => exact .error e
  | ok a => exact h a

theorem length_rangeOpt (x : Option Nat) (f : Nat → List Range) (hf : ∀ o, (f o).length = 1) : (match x with | some o => f o | none => []).length ≤ 1 := by
  cases x with
  | none => exact Nat.zero_le 1
  | some o => exact (hf o).le

theorem dmaPlan_few (s : State) (t c : Nat) (a : DmaArgs) : FewRanges (dmaPlan s t c a) := by
  have hone : ∀ (o n : Nat) (w : Bool), FewRanges (.ok [⟨o, n, w⟩]) := fun _ _ _ => .ok (Nat.le_add_right 1 3)
  unfold dmaPlan
  refine .ite (.error _) (.ite (.ok (by decide)) (.ite (.error _) (.ite (.error _) ?_)))
  split
  · exact .ite (.error _) (.bind fun _ => .bind fun o => hone _ _ _)
  · refine .ite (.error _) (.ite (.ite (.error _) (.ite (.error _) (.bind fun src => .bind fun dst => .bind fun ei => .bind fun eo => .ok ?_))) ?_)
    · have hr := fun (x : Option Nat) (n : Nat) (w : Bool) => length_rangeOpt x (fun o => [⟨o, n, w⟩]) fun _ => rfl
      simp only [List.length_append, List.length_singleton]
      exact Nat.add_le_add (Nat.add_le_add (Nat.add_le_add (Nat.le_refl 1) (hr dst _ true)) (hr ei _ false)) (hr eo _ true)
    · exact .ite (.error _) (.bind fun src => .bind fun _ => hone _ _ _)
  · exact .bind fun _ => .bind fun o => hone _ _ _
  · exact .bind fun o => .ite (.bind fun _ => hone _ _ _) (.bind fun _ => hone _ _ _)
  · exact .bind fun o => .bind fun _ => hone _ _ _

/-! ### Dispatch -/

variable {f : FmtD} {o op : Nat} {i : Instr}

theorem dmaReq_ranges (s : State) (op t : Nat) (f : FmtD) (i : Instr) : (dmaReq s op t f i).foot.ranges.length ≤ 31 := by
  unfold dmaReq
  dsimp only
  split
  next l h => exact (dmaPlan_few _ _ _ _ l h).trans (by decide)
  next => exact Nat.zero_le 31

/-- The arguments of the instruction: its descriptor, and the registers that it reads beside it. -/
def argsOf (s : State) (t op : Nat) (f : FmtD) (d : Desc) : DmaArgs := dmaArgs op f d ((dmaVals op f d).map fun n => rs s t (s.actx t) n)

section
variable (h : Quiet s t) (hw : waitMet s t f.wait = true) (hp : f.pred = 0) (hi : f.idx = 0) (ho : localWin s t (s.actx t) f.a.toNat (offD f) 32 = .ok o)
  (hm : (if op = 3 then decide (f.mod.toNat < 2) else f.mod == 0) = true) (hr : dmaRegOk op f (readDesc s t o) = true)
include h hw hp hi ho hm hr

/-- A legal DMA instruction meets its plan in the state that it dispatches in. -/
theorem dma_meetsPlan : let u := dispatched s t .dm i
    issue s t (dmaReq s op t f i) (effDma op t f) =
      settle (chk u t (issuePc s t) (dmaPlan u t (s.actx t) (argsOf s t op f (readDesc s t o))) fun l =>
        dmaStart u t (s.actx t) (issuePc s t) (s.tile t).nextId (argsOf s t op f (readDesc s t o)) l) t := by
  have hl : (dmaReq s op t f i).legal = true := by
    simp only [dmaReq, hp, hi, hm]
    rfl
  have hdesc : (queuedOf s t (dmaReq s op t f i)).desc = some (readDesc s t o) := congrArg (Option.map (readDesc s t)) (descAt_of_localWin ho)
  have hvals : (queuedOf s t (dmaReq s op t f i)).vals = (dmaVals op f (readDesc s t o)).map fun n => rs s t (s.actx t) n := by
    simp only [queuedOf, dmaReq, descAt_of_localWin ho]
  have hwin : localWin (dispatched s t .dm i) t (s.actx t) f.a.toNat (offD f) 32 = .ok o := (localWin_dispatched_dm h i ..).trans ho
  intro u
  rw [issue_quiet h _ hl rfl hw (dmaReq_ranges ..)]
  refine congrArg (settle · t) ?_
  refine (chk_of_ok hwin ..).trans ?_
  rw [hdesc, hvals]
  exact if_neg (by rw [Option.getD_some, hr]; decide)

/-- It starts its transfer where the plan passes, and raises the fault that the plan names otherwise. -/
theorem dma_goes (he : exec i s = .next (issue s t (dmaReq s op t f i) (effDma op t f))) : let u := dispatched s t .dm i
    (∀ l, dmaPlan u t (s.actx t) (argsOf s t op f (readDesc s t o)) = .ok l →
      exec i s = .next (settle (dmaStart u t (s.actx t) (issuePc s t) (s.tile t).nextId (argsOf s t op f (readDesc s t o)) l) t)) ∧
    (∀ b x, dmaPlan u t (s.actx t) (argsOf s t op f (readDesc s t o)) = .error (b, x) → exec i s = .next (settle (progFault u t b (issuePc s t) x) t)) := by
  have hplan := dma_meetsPlan (i := i) h hw hp hi ho hm hr
  refine ⟨fun l hl => ?_, fun b x hx => ?_⟩
  · rw [he, hplan, chk_of_ok hl]
  · rw [he, hplan, hx]
    rfl

end

/-! ### The end of a transfer -/

/-- What a finished transfer leaves once its result has landed: its counter is signalled, and the others may ask for more. -/
def transferEnds (t : Nat) (f : Flight) (j : DmaJob) (s : State) : State := settle (dmaPump (complete (dropFlight s t f.id) t f.ctx j.desc.cnt j.worst .dm f.pc) t) t

theorem dmaComplete_ends {f : Flight} {fs : List Flight} {j : DmaJob} (ht : s.tstate t ≠ fenced) (hf : (s.tile t).flights = f :: fs) (hk : f.kind = .dma j) (hd : j.done = true) :
    exec (.dmaComplete t f.id) s = .next (transferEnds t f j (if j.op = 0 ∧ j.desc.conv ∧ j.desc.len ≠ 0 ∧ j.worst = stOK then
      landConv s t f.ctx j.desc (assemble (planeOff j.desc.len j.desc.form + cdiv (elemsIn j.desc.sfmt j.desc.len) 32) j.buf) else s)) := by
  have hfind : (s.tile t).flights.find? (fun g => g.id == f.id) = some f := by rw [hf, List.find?_cons_of_pos (by simp)]
  rw [exec_dmaComplete, execDmaComplete, if_neg ht, hfind]
  dsimp only
  rw [hk]
  exact congrArg _ (if_pos hd)

/-- Settles O17: the plan of the instruction, and the two ends of a transfer. -/
theorem transfersDispatch : Obligations.TransfersDispatch := by
  refine ⟨fun s t f o h hw hp hi => ?goes, fun s t f fs j ht hf hk hd => ?ends, fun s t c d bs => rfl⟩
  case goes =>
    intro c d args goes ho
    have hlegal : ∀ op, op ≠ 3 → f.mod = 0 → (if op = 3 then decide (f.mod.toNat < 2) else f.mod == 0) = true := fun op h3 hm => by rw [if_neg h3, hm]; rfl
    exact ⟨fun hm => ⟨fun hr => dma_goes h hw hp hi ho (hlegal 0 (by decide) hm) hr rfl, fun hr => dma_goes h hw hp hi ho (hlegal 1 (by decide) hm) hr rfl,
        fun hr => dma_goes h hw hp hi ho (hlegal 2 (by decide) hm) hr rfl, fun hr => dma_goes h hw hp hi ho (hlegal 5 (by decide) hm) hr rfl⟩,
      fun hm hr => dma_goes h hw hp hi ho (decide_eq_true hm) hr rfl⟩
  case ends =>
    have he := dmaComplete_ends ht hf hk hd
    refine ⟨fun hn => ?_, fun h0 hc hl hw => by rw [he, if_pos ⟨h0, hc, hl, hw⟩]; rfl⟩
    rw [he, if_neg]
    · rfl
    rintro ⟨h0, hc, hl, hw⟩
    rcases hn with hn | hn | hn | hn
    · exact hn h0
    · rw [hc] at hn; cases hn
    · exact hl hn
    · exact hn hw

end Sys2Proof.Machine
end

section
/-!
SUPPORT. The vector engine at dispatch (R160–R163, R656): its instruction works the lanes' clock and reads registers, memory and windows as they were before its issue.
-/

namespace Sys2Proof.Machine

variable {s u v : State} {t : Nat}

/-! ### The clock that a vector instruction works -/

/-- Two states that agree in everything but the clock of a tile's lanes, whether it has soaked, and the requests at the governors. -/
structure LanesOnly (t : Nat) (s u : State) : Prop where
  frame : u = { s with tiles := u.tiles, gov := u.gov }
  others : ∀ k, k ≠ t → u.tile k = s.tile k
  tile : u.tile t = { s.tile t with phase := (u.tile t).phase, units := (u.tile t).units, wantUnits := (u.tile t).wantUnits, soaked := (u.tile t).soaked }

theorem ClockOnly.lanes (h : ClockOnly t s u) : LanesOnly t s u := by
  refine ⟨h.frame, h.others, ?_⟩
  have hs : (u.tile t).soaked = (s.tile t).soaked := by rw [h.tile]
  rw [hs]
  exact h.tile

theorem LanesOnly.trans (h : LanesOnly t s u) (g : LanesOnly t u v) : LanesOnly t s v := by
  refine ⟨?_, fun k hk => (g.others k hk).trans (h.others k hk), ?_⟩
  · rw [g.frame, h.frame]
  · rw [g.tile, h.tile]

theorem LanesOnly.ite {p : Prop} [Decidable p] (h : LanesOnly t s u) (g : LanesOnly t s v) : LanesOnly t s (if p then u else v) := by
  split <;> assumption

theorem LanesOnly.refl (t : Nat) (s : State) : LanesOnly t s s := (ClockOnly.refl t s).lanes

/-- A ramp-up begins. -/
theorem beginRamp_lanes (s : State) (t : Nat) : LanesOnly t s (s.modTile t fun x => { x with phase := .rampUp, soaked := true }) := by
  refine ⟨rfl, fun k hk => ?_, ?_⟩
  · rw [State.tile_modTile, if_neg hk]
  · rw [State.tile_modTile, if_pos rfl]

theorem clockUp_lanes (s : State) (t : Nat) : LanesOnly t s (clockUp s t) := by
  have hdrop := (dropUnits_clockOnly s t).lanes
  have hramp := hdrop.trans (beginRamp_lanes (dropUnits s t) t)
  exact .ite (.refl t s) (.ite (hdrop.trans (setPhase_clockOnly ..).lanes) (.ite (hramp.trans (askUnits_clockOnly ..).lanes) hramp))

theorem clockLanes_lanes (s : State) (t : Nat) (e : Engine) : LanesOnly t s (clockLanes s t e) := .ite (clockUp_lanes s t) (.refl t s)

theorem clockRest_clockOnly (s : State) (t : Nat) : ClockOnly t s (clockRest s t) := by
  have hrest : ClockOnly t s (if (s.tile t).phase = .full ∧ !clockBusy (s.tile t) t then s.modTile t fun x => { x with phase := .hold } else s) :=
    .ite (setPhase_clockOnly ..) (.refl t s)
  exact .ite (hrest.trans (rampDown_clockOnly ..)) hrest

/-! ### What the engine reads -/

section
variable (h : LanesOnly t s u)
include h

theorem LanesOnly.reg (a : Nat) : u.reg a = s.reg a := by rw [h.frame]; rfl

theorem LanesOnly.tf (k : Nat) (g : Fld) : u.tf k g = s.tf k g := congrArg (wget · g.hi g.lo) (h.reg _)

theorem LanesOnly.ctx (c : Nat) : (u.tile t).ctx c = (s.tile t).ctx c := by rw [h.tile]; rfl

theorem LanesOnly.rs (c n : Nat) : Machine.rs u t c n = Machine.rs s t c n := by rw [Machine.rs, h.ctx]; rfl

theorem LanesOnly.ra (c n : Nat) : Machine.ra u t c n = Machine.ra s t c n := by rw [Machine.ra, h.ctx]; rfl

theorem LanesOnly.rv (c n : Nat) : Machine.rv u t c n = Machine.rv s t c n := by rw [Machine.rv, h.ctx]; rfl

theorem LanesOnly.rp (c n : Nat) : Machine.rp u t c n = Machine.rp s t c n := by rw [Machine.rp, h.ctx]; rfl

theorem LanesOnly.window (c k : Nat) (off : Int) (len : Nat) : Machine.window u t c k off len = Machine.window s t c k off len := by
  simp only [Machine.window, h.ra]

theorem LanesOnly.localOffset (c x len : Nat) : Machine.localOffset u t c x len = Machine.localOffset s t c x len := by
  have hr : reservedAt u x len = reservedAt s x len := by rw [h.frame]; rfl
  have hg : groupsOk u t c (x - spadAddr t 0) len = groupsOk s t c (x - spadAddr t 0) len := by simp only [groupsOk, groupState, groupsOf, h.tf]
  simp only [Machine.localOffset, hr, hg]

theorem LanesOnly.localWin (c k : Nat) (off : Int) (len : Nat) : Machine.localWin u t c k off len = Machine.localWin s t c k off len := by
  simp only [Machine.localWin, h.window, h.localOffset]

end

theorem rv_issued (c n : Nat) : rv (issued s t) t c n = rv s t c n := by
  simp only [rv, tile_issued, if_true]
  unfold Tile.modCtx Tile.ctx
  by_cases hc : c = 0 <;> by_cases ha : s.actx t = 0 <;> simp [hc, ha, Ctx.advance]

section
variable (h : Quiet s t) (i : Instr)
include h

theorem dispatched_lanes : LanesOnly t (issued s t) (dispatched s t .ve i) := by
  rw [dispatched_eq h.gate]
  exact clockLanes_lanes ..

theorem rs_lanes (c n : Nat) : rs (dispatched s t .ve i) t c n = rs s t c n := ((dispatched_lanes h i).rs c n).trans (rs_issued c n)

theorem ra_lanes (c n : Nat) : ra (dispatched s t .ve i) t c n = ra s t c n := ((dispatched_lanes h i).ra c n).trans (ra_issued c n)

theorem rv_lanes (c n : Nat) : rv (dispatched s t .ve i) t c n = rv s t c n := ((dispatched_lanes h i).rv c n).trans (rv_issued c n)

theorem rp_lanes (c n : Nat) : rp (dispatched s t .ve i) t c n = rp s t c n := ((dispatched_lanes h i).rp c n).trans (rp_issued c n)

theorem localWin_lanes (c k : Nat) (off : Int) (len : Nat) : localWin (dispatched s t .ve i) t c k off len = localWin s t c k off len :=
  ((dispatched_lanes h i).localWin c k off len).trans (localWin_issued k off len)

/-- A register of the active context written by a vector instruction: the tile runs on. -/
theorem settle_lanes (c : Nat) (g : Ctx → Ctx) : settle ((dispatched s t .ve i).modCtx t c g) t = clockRest ((dispatched s t .ve i).modCtx t c g) t := by
  have hd := dispatched_lanes h i
  obtain ⟨hheld, hrecv⟩ := tile_issued_parts h
  obtain ⟨-, hflights, -, -, -, hh, -⟩ := modCtx_parts ((dispatched s t .ve i).tile t) c g
  have hl : ((dispatched s t .ve i).tile t).held = ((issued s t).tile t).held := by rw [hd.tile]
  have hf : ((dispatched s t .ve i).tile t).flights = ((issued s t).tile t).flights := by rw [hd.tile]
  refine settle_of h ((State.reg_modCtx ..).trans (hd.reg _)) ?_ ?_
  · rw [State.tile_modCtx, if_pos rfl, hh, hl]
    exact hheld
  · rw [State.tile_modCtx, if_pos rfl, recvBlockedOn, hflights, hf]
    exact hrecv

/-- A legal vector instruction of a quiet tile dispatches at once. -/
theorem issue_ve {r : IssueReq} (eff : Queued → State → State) (he : r.eng = .ve) (hl : r.legal = true) (hw : waitMet s t r.wait = true)
    (hn : r.foot.ranges.length ≤ 31) : issue s t r eff = settle (eff (queuedOf s t r) (dispatched s t .ve r.instr)) t := by
  rw [issue_quiet h eff hl (by rw [he]; rfl) hw hn, he]

end

/-! ### Elements of a register -/

/-- The number that elements of `n` bytes make, from element 0. -/
def elemsNum (n : Nat) (es : List Nat) : Nat := es.foldr (fun e acc => acc * 2 ^ (8 * n) + e % 2 ^ (8 * n)) 0

theorem elemsNum_elem (n : Nat) (es : List Nat) : ∀ i, elemsNum n es / 2 ^ (8 * n * i) % 2 ^ (8 * n) = es.getD i 0 % 2 ^ (8 * n) := by
  induction es with
  | nil => intro i; simp [elemsNum]
  | cons e es ih =>
    intro i
    have hcons : elemsNum n (e :: es) = elemsNum n es * 2 ^ (8 * n) + e % 2 ^ (8 * n) := rfl
    have hpos : 0 < 2 ^ (8 * n) := Nat.two_pow_pos _
    have hlt : e % 2 ^ (8 * n) < 2 ^ (8 * n) := Nat.mod_lt _ hpos
    cases i with
    | zero => rw [hcons, Nat.mul_zero, Nat.pow_zero, Nat.div_one, Nat.mul_add_mod', Nat.mod_mod]; rfl
    | succ i =>
      have hdiv : (elemsNum n es * 2 ^ (8 * n) + e % 2 ^ (8 * n)) / 2 ^ (8 * n) = elemsNum n es := by
        rw [Nat.mul_comm, Nat.mul_add_div hpos, Nat.div_eq_of_lt hlt, Nat.add_zero]
      have hpow : 2 ^ (8 * n * (i + 1)) = 2 ^ (8 * n) * 2 ^ (8 * n * i) := by rw [Nat.mul_succ, Nat.add_comm, Nat.pow_add]
      rw [hcons, hpow, ← Nat.div_div_eq_div_mul, hdiv, ih]
      rfl

/-- An element of a number that is cut off above it. -/
theorem elem_mod {x n i b : Nat} (h : 8 * n * i + 8 * n ≤ b) : x % 2 ^ b / 2 ^ (8 * n * i) % 2 ^ (8 * n) = x / 2 ^ (8 * n * i) % 2 ^ (8 * n) := by
  obtain ⟨k, rfl⟩ := Nat.exists_eq_add_of_le h
  rw [Nat.add_assoc, Nat.pow_add, Nat.mod_mul_right_div_self, Nat.pow_add, Nat.mod_mul_right_mod]

theorem vElem_vOfElems (n : Nat) (es : List Nat) {i : Nat} (h : 8 * n * i + 8 * n ≤ 8192) : vElem (vOfElems n es) n i = es.getD i 0 % 2 ^ (8 * n) := by
  rw [vElem, vOfElems, BitVec.toNat_ofNat, elem_mod h]
  exact elemsNum_elem n es i

theorem vbytes_le (t : Nat) : vbytes t ≤ 1024 := by
  unfold vbytes lanesOf
  split <;> decide

/-- An element of a type lies in the tile's register. -/
theorem elem_fits {ty i : Nat} (h : i < elemCount t ty) : 8 * tySize ty * i + 8 * tySize ty ≤ 8 * vbytes t := by
  have hm : tySize ty * (i + 1) ≤ vbytes t := (Nat.mul_le_mul_left _ h).trans (Nat.mul_div_le ..)
  have he : 8 * tySize ty * i + 8 * tySize ty = 8 * (tySize ty * (i + 1)) := by ring
  omega

section
variable (c n m : Nat) (x : Vec)

theorem rs_setV : rs (setV s t c n x) t c m = rs s t c m := by
  rw [rs, setV, State.ctx_modCtx]; rfl

theorem ra_setV : ra (setV s t c n x) t c m = ra s t c m := by
  rw [ra, setV, State.ctx_modCtx]; rfl

theorem rp_setV : rp (setV s t c n x) t c m = rp s t c m := by
  rw [rp, setV, State.ctx_modCtx]; rfl

end

/-- An element of the register after a write. -/
theorem vElem_setV {c n ty i : Nat} (es : List Nat) (hi : i < elemCount t ty) :
    vElem (rv (setV s t c n (vOfElems (tySize ty) es)) t c n) (tySize ty) i = es.getD i 0 % 2 ^ (8 * tySize ty) := by
  have hf := elem_fits hi
  have hv := vbytes_le t
  rw [rv_setV, if_pos rfl, vElem, BitVec.toNat_ofNat, elem_mod (by omega), elem_mod hf]
  exact vElem_vOfElems _ es (by omega)

theorem vElem_lt (x : Vec) (n i : Nat) : vElem x n i < 2 ^ (8 * n) := Nat.mod_lt _ (Nat.two_pow_pos _)

theorem getD_range_map {n i : Nat} (f : Nat → Nat) (h : i < n) : ((List.range n).map f).getD i 0 = f i := by
  simp [List.getD_eq_getElem?_getD, h]

theorem getD_vElems {ty i : Nat} (x : Vec) (h : i < elemCount t ty) : (vElems t ty x).getD i 0 = vElem x (tySize ty) i := getD_range_map _ h

/-! ### VOP -/

section
variable {f : FmtS3}

/-- The elements that a VOP leaves in its register. -/
def vopElems (s : State) (t : Nat) (f : FmtS3) : List Nat :=
  let c := s.actx t
  let op := f.func.toNat % 32
  let ty := f.func.toNat / 32
  let el := fun (r : BitVec 6) (i : Nat) => vElem (rv s t c r.toNat) (tySize ty) i
  (List.range (elemCount t ty)).map fun i => if laneOn (rp s t c f.pred.toNat) (laneOf ty i) then
      vopElem op ty (el f.ra i) (el f.rb i) (el f.rc i) (laneOn (rp s t c (f.rc.toNat % 8)) (laneOf ty i))
    else el f.rd i

theorem effVop_elems (h : Quiet s t) {q : Queued} (hq : q.ctx = s.actx t) : effVop t f q (dispatched s t .ve (.vop t f)) =
    setV (dispatched s t .ve (.vop t f)) t (s.actx t) f.rd.toNat (vOfElems (tySize (f.func.toNat / 32)) (vopElems s t f)) := by
  have hv := rv_lanes h (.vop t f)
  have hp := rp_lanes h (.vop t f)
  unfold effVop
  simp only [hq, hv, hp]
  refine congrArg (setV _ t _ _) (congrArg (vOfElems _) (List.map_congr_left fun i hi => ?_))
  have hi := List.mem_range.mp hi
  simp only [getD_range_map _ hi, getD_vElems _ hi]

/-- A VOP writes its elements, and its tile runs on. -/
theorem vop_writes (h : Quiet s t) (hw : waitMet s t f.wait = true) (hl : vopLegal t f = true) :
    exec (.vop t f) s = .next (clockRest (setV (dispatched s t .ve (.vop t f)) t (s.actx t) f.rd.toNat (vOfElems (tySize (f.func.toNat / 32)) (vopElems s t f))) t) := by
  rw [exec_vop, execVop, issue_ve h _ rfl hl hw (Nat.zero_le _), effVop_elems h rfl]
  exact congrArg _ (settle_lanes h ..)

/-- The issue of an instruction writes one register. -/
theorem reg_issued_ne {a : Nat} (ha : a ≠ regAddr .tile t R.TSTAT) : (issued s t).reg a = s.reg a := (reg_advance a).trans (if_neg ha)

/-- What a vector instruction leaves that writes a register of the active context. -/
theorem writesCtx_leaves (h : Quiet s t) (i : Instr) (c : Nat) (g : Ctx → Ctx) : let u := clockRest ((dispatched s t .ve i).modCtx t c g) t
    u = { s with regs := u.regs, tiles := u.tiles, gov := u.gov } ∧ (∀ a, a ≠ regAddr .tile t R.TSTAT → u.reg a = s.reg a) ∧ ∀ k, k ≠ t → u.tile k = s.tile k := by
  have hd := dispatched_lanes h i
  have hr := clockRest_clockOnly ((dispatched s t .ve i).modCtx t c g) t
  refine ⟨?_, fun a ha => ?_, fun k hk => ?_⟩
  · rw [hr.frame, hd.frame]
    rfl
  · rw [hr.reg, State.reg_modCtx, hd.reg, reg_issued_ne ha]
  · rw [hr.others k hk, State.tile_modCtx, if_neg hk, hd.others k hk, tile_issued, if_neg hk]

end

/-- Settles O21: the elements that VOP writes are read back one by one. -/
theorem vectorElements : Obligations.VectorElements := by
  intro s t f h hw hl c op ty el
  have hu := vop_writes h hw hl
  obtain ⟨hframe, hreg, hothers⟩ := writesCtx_leaves h (.vop t f) (s.actx t) fun x =>
    { x with v := mput (fun _ => 0) x.v f.rd.toNat (.ofNat 8192 ((vOfElems (tySize (f.func.toNat / 32)) (vopElems s t f)).toNat % 2 ^ (8 * vbytes t))) }
  have hd := dispatched_lanes h (.vop t f)
  have hrest := (clockRest_clockOnly (setV (dispatched s t .ve (.vop t f)) t (s.actx t) f.rd.toNat (vOfElems (tySize (f.func.toNat / 32)) (vopElems s t f))) t).lanes
  refine ⟨_, hu, fun i hi => ?_, fun n hn => ?_, fun n => ⟨?_, ?_, ?_⟩, hframe, hreg, hothers⟩
  · rw [hrest.rv]
    refine (vElem_setV _ hi).trans ?_
    rw [vopElems, getD_range_map _ hi]
    split
    · rfl
    · exact Nat.mod_eq_of_lt (vElem_lt ..)
  · rw [hrest.rv, rv_setV, if_neg hn]
    exact rv_lanes h ..
  · rw [hrest.rs, rs_setV]
    exact rs_lanes h ..
  · rw [hrest.ra, ra_setV]
    exact ra_lanes h ..
  · rw [hrest.rp, rp_setV]
    exact rp_lanes h ..

end Sys2Proof.Machine
end

section
/-!
SUPPORT. VCMP, VRED and VMOVX (R674–R676), and the vector loads and stores (R671, R672): each meets its operands as they were before its issue.
-/

namespace Sys2Proof.Machine

variable {s : State} {t : Nat}

/-! ### Bits put together -/

/-- The number whose bits below `n` are given. -/
def bitsNum (n : Nat) (b : Nat → Bool) : Nat := (List.range n).foldl (fun m i => m + if b i then 2 ^ i else 0) 0

theorem bitsNum_succ (n : Nat) (b : Nat → Bool) : bitsNum (n + 1) b = bitsNum n b + if b n then 2 ^ n else 0 := by
  rw [bitsNum, List.range_succ, List.foldl_append]
  rfl

theorem bitsNum_lt (n : Nat) (b : Nat → Bool) : bitsNum n b < 2 ^ n := by
  induction n with
  | zero => exact Nat.one_pos
  | succ n ih =>
    rw [bitsNum_succ, Nat.pow_succ]
    split <;> omega

theorem testBit_bitsNum {n i : Nat} (b : Nat → Bool) (hi : i < n) : (bitsNum n b).testBit i = b i := by
  induction n with
  | zero => omega
  | succ n ih =>
    rw [bitsNum_succ]
    obtain hlt | rfl : i < n ∨ i = n := by omega
    · cases b n with
      | false => exact ih hlt
      | true => rw [if_pos rfl, Nat.add_comm, Nat.testBit_two_pow_add_gt hlt, ih hlt]
    · have hno : (bitsNum i b).testBit i = false := Nat.testBit_lt_two_pow (bitsNum_lt i b)
      cases b i with
      | false => exact hno
      | true => rw [if_pos rfl, Nat.add_comm, Nat.testBit_two_pow_add_eq, hno]; rfl

theorem lanesOf_le (t : Nat) : lanesOf t ≤ 256 := by
  unfold lanesOf
  split <;> decide

/-- A lane's bit of a predicate register after a write. -/
theorem laneOn_setP {c n i : Nat} (hn : n ≠ 0) (hi : i < lanesOf t) (b : Nat → Bool) : laneOn (rp (setP s t c n (.ofNat 256 (bitsNum (lanesOf t) b))) t c n) i = b i := by
  have hl := lanesOf_le t
  have hlt : bitsNum (lanesOf t) b < 2 ^ 256 := (bitsNum_lt _ b).trans_le (Nat.pow_le_pow_right (by decide) hl)
  rw [rp_setP hn, if_pos rfl, laneOn, bitOf_eq_testBit, BitVec.toNat_ofNat, BitVec.toNat_ofNat, Nat.mod_eq_of_lt hlt, Nat.mod_eq_of_lt (bitsNum_lt _ b), Nat.mod_eq_of_lt hlt]
  exact testBit_bitsNum b hi

/-! ### Comparisons, reductions and moves -/

section
variable {f : FmtS3}

/-- The element of a type that a lane's bit stands for (R674). -/
def cmpElem (ty i : Nat) : Nat := if ty = 1 then 2 * i else if ty = 2 then i / 2 else i

theorem cmpElem_lt {ty i : Nat} (h : i < lanesOf t) : cmpElem ty i < elemCount t ty := by
  have heven : lanesOf t % 2 = 0 := by
    unfold lanesOf
    split <;> rfl
  rw [elemCount, vbytes, cmpElem, tySize]
  by_cases h1 : ty = 1
  · rw [if_pos h1, if_pos h1]
    omega
  · rw [if_neg h1, if_neg h1]
    split <;> omega

/-- The bit that VCMP writes of a lane. -/
def cmpBit (s : State) (t : Nat) (f : FmtS3) (i : Nat) : Bool :=
  let c := s.actx t
  let ty := f.func.toNat / 32
  let el := fun (r : BitVec 6) (i : Nat) => tyVal ty (vElem (rv s t c r.toNat) (tySize ty) i)
  if laneOn (rp s t c f.pred.toNat) (if ty = 2 then i / 2 * 2 else i) then vcmpNum (f.func.toNat % 8) (el f.ra (cmpElem ty i)) (el f.rb (cmpElem ty i))
  else laneOn (rp s t c f.rd.toNat) i

theorem effVcmp_bits (h : Quiet s t) {q : Queued} (hq : q.ctx = s.actx t) : effVcmp t f q (dispatched s t .ve (.vcmp t f)) =
    setP (dispatched s t .ve (.vcmp t f)) t (s.actx t) f.rd.toNat (.ofNat 256 (bitsNum (lanesOf t) (cmpBit s t f))) := by
  have hv := rv_lanes h (.vcmp t f)
  have hp := rp_lanes h (.vcmp t f)
  unfold effVcmp
  simp only [hq, hv, hp]
  refine congrArg (fun n => setP _ t _ _ (.ofNat 256 n)) (List.foldl_ext _ _ _ fun n i hi => ?_)
  have hlt := cmpElem_lt (ty := f.func.toNat / 32) (List.mem_range.mp hi)
  have ha := getD_vElems (t := t) (rv s t (s.actx t) f.ra.toNat) hlt
  have hb := getD_vElems (t := t) (rv s t (s.actx t) f.rb.toNat) hlt
  simp only [cmpElem] at ha hb
  simp only [cmpBit, cmpElem, ha, hb]
  rfl

/-- A legal VCMP writes its bits, and its tile runs on. -/
theorem vcmp_writes (h : Quiet s t) (hw : waitMet s t f.wait = true) (hd : f.rd ≠ 0)
    (hl : (decide (f.func.toNat / 32 < 4) && (f.func.toNat / 32 != 2 || classOf t == 1) && bits f.func.toNat 4 3 == 0 && decide (f.func.toNat % 8 < 6) &&
        f.z == 0 && f.rc == 0 && decide (f.rd.toNat < 8) && decide (f.ra.toNat < 32) && decide (f.rb.toNat < 32)) = true) :
    exec (.vcmp t f) s = .next (clockRest (setP (dispatched s t .ve (.vcmp t f)) t (s.actx t) f.rd.toNat (.ofNat 256 (bitsNum (lanesOf t) (cmpBit s t f)))) t) := by
  have hn : f.rd.toNat ≠ 0 := fun h0 => hd (BitVec.eq_of_toNat_eq h0)
  rw [exec_vcmp, execVcmp, issue_ve h _ rfl hl hw (Nat.zero_le _), effVcmp_bits h rfl, setP, if_neg hn]
  exact congrArg _ (settle_lanes h ..)

theorem vred_writes (h : Quiet s t) (hw : waitMet s t f.wait = true)
    (hl : (decide (f.func.toNat / 32 < 4) && (f.func.toNat / 32 != 2 || classOf t == 1) && decide (f.func.toNat % 4 < 3) && bits f.func.toNat 4 2 == 0 &&
        f.z == 0 && f.rb == 0 && f.rc == 0 && decide (f.ra.toNat < 32)) = true) :
    exec (.vred t f) s = .next (settle (setS (dispatched s t .ve (.vred t f)) t (s.actx t) f.rd.toNat
        (.ofNat 64 (vredVal t (f.func.toNat % 4) (f.func.toNat / 32) (rp s t (s.actx t) f.pred.toNat) (rv s t (s.actx t) f.ra.toNat)))) t) := by
  rw [exec_vred, execVred, issue_ve h _ rfl hl hw (Nat.zero_le _)]
  simp only [effVred, actx_eq, rv_lanes h, rp_lanes h]

end

section
variable {f : FmtSI}

theorem vmovx_dispatches (h : Quiet s t) (hl : vmovxLegal t f = true) : let u := dispatched s t .ve (.vmovx t f)
    let c := s.actx t
    let p := rp s t c f.pred.toNat
    let ty := if f.func = 1 ∨ f.func = 3 then 2 else 0
    exec (.vmovx t f) s = .next (settle (if f.func.toNat < 2 then
        setV u t c f.rd.toNat (mergeElems t ty p (vElems t ty (rv s t c f.rd.toNat)) (List.replicate (elemCount t ty) (rs s t c f.ra.toNat).toNat))
      else if laneOn p (laneOf ty f.imm.toNat) then setS u t c f.rd.toNat (.ofNat 64 (vElem (rv s t c f.ra.toNat) (tySize ty) f.imm.toNat)) else u) t) := by
  rw [exec_vmovx, execVmovx, issue_ve h _ rfl hl waitMet_zero (Nat.zero_le _)]
  simp only [effVmovx, actx_eq, rv_lanes h, rp_lanes h, rs_lanes h]

end

/-- Settles O22: the bits of VCMP are read back one by one. -/
theorem vectorMoves : Obligations.VectorMoves := by
  intro s t h c
  refine ⟨fun f hw h4 h2 hb h6 hz hc hd ha hb' => ?cmp, fun f hw h4 h2 hb h3 hz hrb hc ha => vred_writes h hw ?red, fun f hl => ⟨fun hlt => ?into, fun hge hon => ?out, fun hge hoff => ?none⟩⟩
  case red =>
    simp [h4, hb, h3, hz, hrb, hc, ha]
    tauto
  case cmp =>
    have hl : (decide (f.func.toNat / 32 < 4) && (f.func.toNat / 32 != 2 || classOf t == 1) && bits f.func.toNat 4 3 == 0 && decide (f.func.toNat % 8 < 6) &&
        f.z == 0 && f.rc == 0 && decide (f.rd.toNat < 8) && decide (f.ra.toNat < 32) && decide (f.rb.toNat < 32)) = true := by
      simp [h4, hb, h6, hz, hc, hd, ha, hb']
      tauto
    by_cases hrd : f.rd = 0
    · exact ⟨_, rfl, fun i hi h0 => absurd hrd h0⟩
    · have hn : f.rd.toNat ≠ 0 := fun h0 => hrd (BitVec.eq_of_toNat_eq h0)
      refine ⟨_, vcmp_writes h hw hrd hl, fun i hi _ => ?_⟩
      rw [(clockRest_clockOnly _ t).lanes.rp]
      exact laneOn_setP hn hi _
  case into => exact (vmovx_dispatches h hl).trans (congrArg (fun u => Host.Outcome.next (settle u t)) (if_pos hlt))
  case out => exact (vmovx_dispatches h hl).trans (congrArg (fun u => Host.Outcome.next (settle u t)) ((if_neg hge).trans (if_pos hon)))
  case none => exact (vmovx_dispatches h hl).trans (congrArg (fun u => Host.Outcome.next (settle u t)) ((if_neg hge).trans (if_neg (by rw [hoff]; decide))))

end Sys2Proof.Machine
end

section
/-!
SUPPORT. The vector loads and stores (R656, R671, R672) of a quiet tile.
-/

namespace Sys2Proof.Machine

variable {s : State} {t : Nat}

/-! ### VLD and VST -/

section
variable {f : FmtSI}

theorem vecReq_legal (ha : f.ra.toNat < 16) (hd : f.rd.toNat < 32) (hf : f.func = 0) (i : Instr) (store : Bool) : (vecReq s t f i store).legal = true := by
  simp [vecReq, ha, hd, hf]

theorem vecReq_ranges (i : Instr) (store : Bool) : (vecReq s t f i store).foot.ranges.length ≤ 31 := (rangeOf_length ..).trans (by decide)

section
variable (h : Quiet s t) (ha : f.ra.toNat < 16) (hd : f.rd.toNat < 32) (hf : f.func = 0)
include h ha hd hf

theorem vld_dispatches : let u := dispatched s t .ve (.vld t f)
    let c := s.actx t
    let p := rp s t c f.pred.toNat
    exec (.vld t f) s = .next (settle (if !anyLane t p then u else chk u t (issuePc s t) (vecAt u t c f false) fun o =>
      setV u t c f.rd.toNat (mergeElems t 0 p (vElems t 0 (rv s t c f.rd.toNat)) (vElems t 0 (vOfBytes (ownRd u t o (vbytes t)))))) t) := by
  rw [exec_vld, execVld, issue_ve h _ rfl (vecReq_legal ha hd hf _ _) waitMet_zero (vecReq_ranges ..)]
  simp only [effVld, actx_eq, vecReq, rv_lanes h, rp_lanes h]
  rfl

/-- The enabled elements of a register stored one by one, in ascending order. -/
def storeLanes (t : Nat) (p : Pred) (v : Vec) (o : Nat) (s : State) : State :=
  (List.range (lanesOf t)).foldl (fun s i => if laneOn p i then ownWr s t (o + 4 * i) (toBytes (vElem v 4 i) 4) else s) s

theorem vst_dispatches : let u := dispatched s t .ve (.vst t f)
    let c := s.actx t
    let p := rp s t c f.pred.toNat
    let v := rv s t c f.rd.toNat
    exec (.vst t f) s = .next (settle (if !anyLane t p then u else chk u t (issuePc s t) (vecAt u t c f true) fun o =>
      if (List.range (lanesOf t)).all fun i => laneOn p i then ownWr u t o (toBytes v.toNat (vbytes t)) else storeLanes t p v o u) t) := by
  rw [exec_vst, execVst, issue_ve h _ rfl (vecReq_legal ha hd hf _ _) waitMet_zero (vecReq_ranges ..)]
  simp only [effVst, actx_eq, vecReq, rv_lanes h, rp_lanes h, storeLanes]
  rfl

end

/-- A tile has a lane. -/
theorem lanesOf_pos (t : Nat) : 0 < lanesOf t := by
  unfold lanesOf
  split <;> decide

theorem anyLane_of_all {p : Pred} (h : ∀ i, i < lanesOf t → laneOn p i = true) : anyLane t p = true :=
  List.any_eq_true.mpr ⟨0, List.mem_range.mpr (lanesOf_pos t), h 0 (lanesOf_pos t)⟩

end

/-! ### VLDX and VSTX -/

section
variable {f : FmtS3}

/-- The type of the elements of an indexed load or store. -/
def idxTy (f : FmtS3) : Nat := if f.func = 1 then 2 else 0

theorem idxReq_legal (h2 : f.func.toNat < 2) (hv : f.func = 1 → classOf t = 1) (hz : f.z = 0) (hc : f.rc = 0) (ha : f.ra.toNat < 16) (hb : f.rb.toNat < 32) (hd : f.rd.toNat < 32)
    (i : Instr) (store : Bool) : (idxReq s t f i store).legal = true := by
  have hf : f.func = 0 ∨ f.func = 1 := by
    obtain h0 | h1 : f.func.toNat = 0 ∨ f.func.toNat = 1 := by omega
    · exact .inl (BitVec.eq_of_toNat_eq h0)
    · exact .inr (BitVec.eq_of_toNat_eq h1)
  obtain hf | hf := hf
  · simp [idxReq, hf, hz, hc, ha, hb, hd]
  · simp [idxReq, hf, hv hf, hz, hc, ha, hb, hd]

theorem idxReq_ranges (i : Instr) (store : Bool) : (idxReq s t f i store).foot.ranges.length ≤ 31 := by
  unfold idxReq
  dsimp only
  split <;> simp

section
variable (h : Quiet s t) (hw : waitMet s t f.wait = true)
include h hw

theorem vldx_loads (hl : (idxReq s t f (.vldx t f) false).legal = true) {l : List (Nat × Nat)} (hi : idxElems (dispatched s t .ve (.vldx t f)) t (s.actx t) f false = .ok l) :
    let u := dispatched s t .ve (.vldx t f)
    exec (.vldx t f) s = .next (settle (setV u t (s.actx t) f.rd.toNat
      (vOfElems (tySize (idxTy f)) (l.foldl (fun a e => a.set e.1 (ofBytes (ownRd u t e.2 (tySize (idxTy f))))) (vElems t (idxTy f) (rv s t (s.actx t) f.rd.toNat))))) t) := by
  intro u
  rw [exec_vldx, execVldx, issue_ve h _ rfl hl hw (idxReq_ranges ..)]
  refine congrArg (fun u => Host.Outcome.next (settle u t)) ((chk_of_ok hi ..).trans ?_)
  rw [actx_eq, rv_lanes h]
  rfl

theorem vstx_stores (hl : (idxReq s t f (.vstx t f) true).legal = true) {l : List (Nat × Nat)} (hi : idxElems (dispatched s t .ve (.vstx t f)) t (s.actx t) f true = .ok l) :
    exec (.vstx t f) s = .next (settle (l.foldl (fun u e => ownWr u t e.2 (toBytes (vElem (rv s t (s.actx t) f.rd.toNat) (tySize (idxTy f)) e.1) (tySize (idxTy f))))
      (dispatched s t .ve (.vstx t f))) t) := by
  rw [exec_vstx, execVstx, issue_ve h _ rfl hl hw (idxReq_ranges ..)]
  refine congrArg (fun u => Host.Outcome.next (settle u t)) ((chk_of_ok hi ..).trans ?_)
  rw [actx_eq, rv_lanes h]
  rfl

end

end

/-- Settles O23: a load or store of a quiet tile by what its predicate enables. -/
theorem vectorMemory : Obligations.VectorMemory := by
  intro s t h c
  refine ⟨fun f ha hd hf => ?direct, fun f hw h2 hv hz hc ha hb hd => ⟨fun l hl => vldx_loads h hw (idxReq_legal h2 hv hz hc ha hb hd ..) hl, fun l hl => vstx_stores h hw (idxReq_legal h2 hv hz hc ha hb hd ..) hl⟩⟩
  case direct =>
    have hld := vld_dispatches h ha hd hf
    have hst := vst_dispatches h ha hd hf
    refine ⟨fun hno => ⟨?_, ?_⟩, fun o hany ho => ?_, fun o ho hall => ?_, fun o i ho hi hoff hany => ?_⟩
    · rw [hld, if_pos (by rw [hno]; rfl)]
    · rw [hst, if_pos (by rw [hno]; rfl)]
    · rw [hld, if_neg (by rw [hany]; decide), chk_of_ok ho]
    · rw [hst, if_neg (by rw [anyLane_of_all hall]; decide), chk_of_ok ho, if_pos (by simpa using hall)]
    · have hnot : ¬ ((List.range (lanesOf t)).all fun i => laneOn (rp s t c f.pred.toNat) i) = true := fun hall => by
        rw [List.all_eq_true.mp hall i (List.mem_range.mpr hi)] at hoff
        cases hoff
      rw [hst, if_neg (by rw [hany]; decide), chk_of_ok ho, if_neg hnot]
      rfl

end Sys2Proof.Machine
end

section
/-!
SUPPORT. VCVT (R658, R677): the cone copies and the status of a slot leave the registers alone, and the scale bytes of a narrow target are read back from one register, or two.
-/

namespace Sys2Proof.Machine

variable {s : State} {t c : Nat}

/-! ### What leaves the registers of a context alone -/

theorem ctx_setTf (f : Fld) (v : Nat) : ((s.setTf t f v).tile t).ctx c = (s.tile t).ctx c := by rw [State.tile_setTf]

theorem ctx_progFault (bit pc daddr : Nat) : ((progFault s t bit pc daddr).tile t).ctx c = (s.tile t).ctx c := by
  by_cases hf : s.tstate t = fenced
  · rw [progFault, if_pos hf]
  · obtain ⟨p, n, w, htile⟩ := tile_stopTile (recordFault s t bit pc daddr) t
    have hkept : (recordFault s t bit pc daddr).tile t = s.tile t := (recordFault_regsOnly s t bit pc daddr).keeps (State.tile · t)
    rw [tile_progFault hf, htile, hkept]
    rfl

theorem ctx_slotUpdate (n : Nat) (e : Option Int) (sat nans : Nat) : ((slotUpdate s t c n e sat nans).tile t).ctx c = (s.tile t).ctx c := by
  unfold slotUpdate
  rw [ctx_setTf, ctx_setTf, ctx_setTf]

theorem ctx_coneRecord (pc kind slot part ident idx marks : Nat) (data : List Byte) :
    ((coneRecord s t c pc kind slot part ident idx marks data).tile t).ctx c = (s.tile t).ctx c := by
  unfold coneRecord
  dsimp only
  split
  · exact ctx_setTf ..
  · unfold chk
    split
    · rw [ctx_setTf, ctx_setTf, ctx_drained (ownWr_drained ..)]
    · exact ctx_progFault ..

theorem ctx_vcvtCone (pc : Nat) (blocks : List (List Num)) : ((vcvtCone s t c pc blocks).tile t).ctx c = (s.tile t).ctx c := by
  unfold vcvtCone
  dsimp only
  rw [ctx_setTf]
  refine foldl_keeps (fun u => (u.tile t).ctx c) _ (fun u x _ => (apply_ite (fun v : State => (v.tile t).ctx c) _ _ _).trans ?_) s
  rw [ctx_coneRecord, ite_self]

theorem ctx_slotCounts (slot : Nat) (outs : List BlockOut) : ((outs.foldl (fun s b => slotCount s t c slot b) s).tile t).ctx c = (s.tile t).ctx c :=
  foldl_keeps (fun u => (u.tile t).ctx c) _ (fun _ _ _ => ctx_slotUpdate ..) s

theorem rv_setS (n m : Nat) (v : Word) : rv (setS s t c n v) t c m = rv s t c m := by
  rw [rv, setS, State.ctx_modCtx]; rfl

/-! ### Scale bytes in registers -/

/-- Scale bytes in one register, beside free bits above them. -/
theorem scales_one {x k u : Nat} (hu : u ≤ 64) : (x + k * 2 ^ u) % 2 ^ 64 % 2 ^ u = x % 2 ^ u := by
  rw [Nat.mod_mod_of_dvd _ (Nat.pow_dvd_pow 2 hu), Nat.add_mul_mod_self_right]

/-- Scale bytes in two registers, beside free bits above them. -/
theorem scales_two {x k u : Nat} (h1 : 64 ≤ u) (h2 : u ≤ 128) : (x % 2 ^ 64 + (x / 2 ^ 64 + k * 2 ^ (u - 64)) % 2 ^ 64 * 2 ^ 64) % 2 ^ u = x % 2 ^ u := by
  obtain ⟨r, rfl⟩ := Nat.exists_eq_add_of_le h1
  have hr : r ≤ 64 := by omega
  have hlow : (x % 2 ^ 64 + (x / 2 ^ 64 + k * 2 ^ r) % 2 ^ 64 * 2 ^ 64) % 2 ^ 64 = x % 2 ^ 64 := by rw [Nat.add_mul_mod_self_right, Nat.mod_mod]
  have hhigh : (x % 2 ^ 64 + (x / 2 ^ 64 + k * 2 ^ r) % 2 ^ 64 * 2 ^ 64) / 2 ^ 64 = (x / 2 ^ 64 + k * 2 ^ r) % 2 ^ 64 := by
    rw [Nat.add_mul_div_right _ _ (Nat.two_pow_pos 64), Nat.div_eq_of_lt (Nat.mod_lt _ (Nat.two_pow_pos 64)), Nat.zero_add]
  rw [Nat.add_sub_cancel_left, Nat.pow_add, Nat.mod_mul, Nat.mod_mul, hlow, hhigh, scales_one hr]

/-! ### Dispatch -/

section
variable {f : FmtS3}

/-- The blocks that a VCVT of a quiet tile converts. -/
def cvtBlocks (s : State) (t : Nat) (f : FmtS3) : List (List Num) :=
  let c := s.actx t
  let src := f.func.toNat % 16
  let dst := f.func.toNat / 16
  let n := cvtCount t src dst
  vcvtBlocks t src dst (rv s t c f.ra.toNat) ((rs s t c f.rb.toNat).toNat + (if n / 32 > 8 then (rs s t c (f.rb.toNat + 1)).toNat * 2 ^ 64 else 0))

/-- The state in which a VCVT of a quiet tile has written its cone copies. -/
def cvtCopied (s : State) (t : Nat) (f : FmtS3) : State :=
  let d := dispatched s t .ve (.vcvt t f)
  if wget (rs s t (s.actx t) f.rc.toNat) 8 8 = 1 then vcvtCone d t (s.actx t) (issuePc s t) (cvtBlocks s t f) else d

/-- The blocks of a narrow target. -/
def narrowOuts (t c slot dst block : Nat) (blocks : List (List Num)) (u : State) : List BlockOut := blocks.zipIdx.map fun (xs, j) => slotConvert u t c slot dst (block + j) xs

/-- The scale bytes of blocks, from the lowest. -/
def scaleBytes (outs : List BlockOut) : Nat := outs.zipIdx.foldl (fun a (b, j) => a + b.scale * 2 ^ (8 * j)) 0

/-- The state in which the codes of a narrow target are written. -/
def narrowWritten (t c slot rd dst : Nat) (outs : List BlockOut) (u : State) : State :=
  setV (outs.foldl (fun s b => slotCount s t c slot b) u) t c rd (vOfBytes (packCodes dst (outs.map BlockOut.codes).flatten))

/-- The state in which the scale bytes of a narrow target are written too. -/
def scalesWritten (t c rb : Nat) (outs : List BlockOut) (v : State) : State :=
  let sc := scaleBytes outs
  let used := 8 * outs.length
  if outs.length > 8 then { setS (setS v t c rb (.ofNat 64 (sc % 2 ^ 64))) t c (rb + 1)
        (.ofNat 64 (sc / 2 ^ 64 + if used < 128 then (v.freeNat.1 % 2 ^ (128 - used)) * 2 ^ (used - 64) else 0)) with fresh := v.fresh + 1 }
  else { setS v t c rb (.ofNat 64 (sc + if used < 64 then (v.freeNat.1 % 2 ^ (64 - used)) * 2 ^ used else 0)) with fresh := v.fresh + 1 }

/-- The state in which a slot of class G has counted what is not finite. -/
def wideCounted (t c : Nat) (w : Word) (xs : List Num) (u : State) : State :=
  if wget w 5 5 = 1 ∧ u.tf t (R.NSLOT_CLASS c (wget w 4 0)) = 2 then slotUpdate u t c (wget w 4 0) none 0 (xs.filter fun x => !x.isFin).length else u

/-- The bytes of a wide target. -/
def wideBytes (t c src dst : Nat) (w : Word) (xs : List Num) (v : State) : List Byte := packCodes dst (xs.zipIdx.map fun (x, i) => match fmtOf dst with
  | some g => (g.round (vcvtRnd v t c src w i) x).1
  | none => toInt8 x)

/-- The state in which a wide target is written. -/
def wideWritten (t c rd : Nat) (bs : List Byte) (v : State) : State :=
  if vbytes t - bs.length = 0 then setV v t c rd (vOfBytes bs)
  else setV v.freeNat.2 t c rd (vOfBytes (bs ++ toBytes v.freeNat.1 (vbytes t - bs.length)))

section
variable {q : Queued} {u : State} (hf : vcvtFault u t q.ctx (f.func.toNat % 16) (f.func.toNat / 16) (rs u t q.ctx f.rc.toNat) = none)
include hf

/-- A conversion without a fault. -/
theorem effVcvt_converts : effVcvt t f q u =
    let c := q.ctx
    let src := f.func.toNat % 16
    let dst := f.func.toNat / 16
    let w := rs u t c f.rc.toNat
    let n := cvtCount t src dst
    let blocks := vcvtBlocks t src dst (rv u t c f.ra.toNat) ((rs u t c f.rb.toNat).toNat + (if n / 32 > 8 then (rs u t c (f.rb.toNat + 1)).toNat * 2 ^ 64 else 0))
    let v := if wget w 8 8 = 1 then vcvtCone u t c q.pc blocks else u
    if isNarrow dst then
      let outs := narrowOuts t c (wget w 4 0) dst (wget w 63 16) blocks v
      scalesWritten t c f.rb.toNat outs (narrowWritten t c (wget w 4 0) f.rd.toNat dst outs v)
    else
      let z := wideCounted t c w blocks.flatten v
      wideWritten t c f.rd.toNat (wideBytes t c src dst w blocks.flatten z) z := by
  have hcount : ∀ (w : Word) (xs : List Num) (v : State), wideCounted t q.ctx w xs v =
      if wget w 5 5 == 1 && v.tf t (R.NSLOT_CLASS q.ctx (wget w 4 0)) == 2 then slotUpdate v t q.ctx (wget w 4 0) none 0 (xs.filter fun x => !x.isFin).length else v := fun w xs v => by
    simp only [wideCounted, Bool.and_eq_true, beq_iff_eq]
  unfold effVcvt
  dsimp only
  rw [hf, hcount]
  rfl

end

section
variable (h : Quiet s t) (hw : waitMet s t f.wait = true) (hl : vcvtLegal t f = true)
  (hf : vcvtFault (dispatched s t .ve (.vcvt t f)) t (s.actx t) (f.func.toNat % 16) (f.func.toNat / 16) (rs s t (s.actx t) f.rc.toNat) = none)
include h hw hl hf

theorem vcvt_converts :
    let c := s.actx t
    let src := f.func.toNat % 16
    let dst := f.func.toNat / 16
    let w := rs s t c f.rc.toNat
    let blocks := cvtBlocks s t f
    let u := cvtCopied s t f
    exec (.vcvt t f) s = .next (settle (if isNarrow dst then
      let outs := narrowOuts t c (wget w 4 0) dst (wget w 63 16) blocks u
      scalesWritten t c f.rb.toNat outs (narrowWritten t c (wget w 4 0) f.rd.toNat dst outs u)
    else
      let z := wideCounted t c w blocks.flatten u
      wideWritten t c f.rd.toNat (wideBytes t c src dst w blocks.flatten z) z) t) := by
  have hr : (if wget (rs s t (s.actx t) f.rc.toNat) 8 8 == 1 then coneFoot s t (s.actx t) else []).length ≤ 31 := by
    split
    · exact (coneFoot_length ..).trans (by decide)
    · exact Nat.zero_le 31
  rw [exec_vcvt, execVcvt, issue_ve h _ rfl hl hw hr, effVcvt_converts (by rw [actx_eq, rs_lanes h]; exact hf)]
  simp only [actx_eq, rs_lanes h, rv_lanes h]
  rfl

end

end

/-! ### What is written of a narrow target -/

section
variable {rb : Nat} {outs : List BlockOut} {v : State}

/-- Scale bytes touch the scalar registers alone, and one free value is taken. -/
theorem scalesWritten_leaves : let z := scalesWritten t c rb outs v
    (∀ r, rv z t c r = rv v t c r) ∧ z.fresh = v.fresh + 1 ∧ (∀ a, z.reg a = v.reg a) ∧ (∀ a, z.byte a = v.byte a) ∧
      ∀ r, r ≠ rb → (outs.length ≤ 8 ∨ r ≠ rb + 1) → rs z t c r = rs v t c r := by
  intro z
  by_cases h8 : outs.length > 8
  · rw [show z = _ from if_pos h8]
    refine ⟨fun r => (rv_setS ..).trans (rv_setS ..), rfl, fun a => rfl, fun a => rfl, fun r hr hr' => ?_⟩
    refine (rs_setS ..).trans ((if_neg (hr'.resolve_left (Nat.not_le.mpr h8))).trans ((rs_setS ..).trans (if_neg hr)))
  · rw [show z = _ from if_neg h8]
    exact ⟨fun r => rv_setS .., rfl, fun a => rfl, fun a => rfl, fun r hr _ => (rs_setS ..).trans (if_neg hr)⟩

/-- The scale bytes are read back from the register, or from two. -/
theorem scalesWritten_read (hn : outs.length ≤ 16) : let z := scalesWritten t c rb outs v
    ((rs z t c rb).toNat + (if outs.length > 8 then (rs z t c (rb + 1)).toNat * 2 ^ 64 else 0)) % 2 ^ (8 * outs.length) = scaleBytes outs % 2 ^ (8 * outs.length) := by
  have hfree : ∀ (p : Prop) [Decidable p] (x k : Nat), ∃ m, (if p then x * k else 0) = m * k := fun p _ x k => by
    split
    · exact ⟨x, rfl⟩
    · exact ⟨0, (Nat.zero_mul k).symm⟩
  by_cases h8 : outs.length > 8
  · simp only [scalesWritten, if_pos h8]
    obtain ⟨m, hm⟩ := hfree (8 * outs.length < 128) (v.freeNat.1 % 2 ^ (128 - 8 * outs.length)) (2 ^ (8 * outs.length - 64))
    have hlow : ∀ x y : Word, rs (setS (setS v t c rb x) t c (rb + 1) y) t c rb = x := fun x y => by
      rw [rs_setS, if_neg (by omega), rs_setS, if_pos rfl]
    have hhigh : ∀ x y : Word, rs (setS (setS v t c rb x) t c (rb + 1) y) t c (rb + 1) = y := fun x y => by rw [rs_setS, if_pos rfl]
    change ((rs (setS (setS v t c rb _) t c (rb + 1) _) t c rb).toNat + (rs (setS (setS v t c rb _) t c (rb + 1) _) t c (rb + 1)).toNat * 2 ^ 64) % _ = _
    rw [hlow, hhigh, hm, BitVec.toNat_ofNat, BitVec.toNat_ofNat, Nat.mod_mod]
    exact scales_two (by omega) (by omega)
  · simp only [scalesWritten, if_neg h8]
    obtain ⟨m, hm⟩ := hfree (8 * outs.length < 64) (v.freeNat.1 % 2 ^ (64 - 8 * outs.length)) (2 ^ (8 * outs.length))
    have hread : ∀ x : Word, rs (setS v t c rb x) t c rb = x := fun x => by rw [rs_setS, if_pos rfl]
    change ((rs (setS v t c rb _) t c rb).toNat + 0) % _ = _
    rw [hread, hm, BitVec.toNat_ofNat, Nat.add_zero]
    exact scales_one (by omega)

end

/-- A conversion to a narrow format has sixteen blocks at most. -/
theorem narrow_blocks {src dst : Nat} (hp : cvtPair src dst = true) (hn : isNarrow dst = true) (v : Vec) (scales : Nat) : (vcvtBlocks t src dst v scales).length ≤ 16 := by
  have hv := vbytes_le t
  have hdst : dst = 3 ∨ dst = 4 ∨ dst = 5 := by simpa [isNarrow, or_assoc] using hn
  have hsrc : src = 0 ∨ src = 1 := by
    simp only [cvtPair, isNarrow, Bool.or_eq_true, Bool.and_eq_true, beq_iff_eq, decide_eq_true_eq] at hp
    omega
  have hcount : cvtCount t src dst ≤ 512 := by
    unfold cvtCount
    obtain rfl | rfl := hsrc <;> obtain rfl | rfl | rfl := hdst <;> simp <;> omega
  have hlen : (vcvtBlocks t src dst v scales).length = (cvtCount t src dst + 31) / 32 := by simp [vcvtBlocks]
  omega

theorem cvtPair_of_fault {u : State} {src dst : Nat} {w : Word} (h : vcvtFault u t c src dst w = none) : cvtPair src dst = true := by
  unfold vcvtFault at h
  dsimp only at h
  split at h
  · cases h
  next hno =>
    by_contra hp
    exact hno (.inl (by simpa using hp))

theorem length_toBytes (n : Nat) : ∀ x, (toBytes x n).length = n := by
  induction n with
  | zero => intro x; rfl
  | succ n ih => intro x; exact congrArg Nat.succ (ih _)

/-- The registers of the context as a VCVT of a quiet tile finds them, where its codes are written. -/
theorem rs_narrowWritten {f : FmtS3} (h : Quiet s t) (slot rd dst : Nat) (outs : List BlockOut) (r : Nat) :
    rs (narrowWritten t (s.actx t) slot rd dst outs (cvtCopied s t f)) t (s.actx t) r = rs s t (s.actx t) r := by
  have hcopied : ((cvtCopied s t f).tile t).ctx (s.actx t) = ((dispatched s t .ve (.vcvt t f)).tile t).ctx (s.actx t) := by
    unfold cvtCopied
    dsimp only
    split
    · exact ctx_vcvtCone ..
    · rfl
  rw [narrowWritten, rs_setV, rs_of_ctx ((ctx_slotCounts slot outs).trans hcopied), rs_lanes h]

/-- Settles O24: a conversion by its target, and the scale bytes of a narrow one by the number of its blocks. -/
theorem vectorConverts : Obligations.VectorConverts := by
  intro s t f h hw hl c src dst w slot n blocks d u hf
  have he := vcvt_converts h hw hl hf
  refine ⟨fun hn => ?wide, fun hn => ?narrow⟩
  case wide =>
    intro xs v out bs
    have hno : ¬ isNarrow dst = true := by rw [hn]; decide
    refine ⟨fun hle => he.trans (congrArg (fun u => Host.Outcome.next (settle u t)) ((if_neg hno).trans (if_pos (Nat.sub_eq_zero_of_le hle)))), fun hlt => ⟨toBytes v.freeNat.1 (vbytes t - bs.length), length_toBytes .., ?_⟩⟩
    exact he.trans (congrArg (fun u => Host.Outcome.next (settle u t)) ((if_neg hno).trans (if_neg (Nat.sub_ne_zero_of_lt hlt))))
  case narrow =>
    intro outs v
    have hlen : outs.length ≤ 16 := by
      have hb := narrow_blocks (t := t) (cvtPair_of_fault hf) hn (rv s t c f.ra.toNat) ((rs s t c f.rb.toNat).toNat + (if n / 32 > 8 then (rs s t c (f.rb.toNat + 1)).toNat * 2 ^ 64 else 0))
      exact (List.length_map ..).trans_le (List.length_zipIdx.trans_le hb)
    obtain ⟨hv, hfresh, hreg, hbyte, hrs⟩ := scalesWritten_leaves (t := t) (c := c) (rb := f.rb.toNat) (outs := outs) (v := v)
    exact ⟨_, he.trans (congrArg (fun u => Host.Outcome.next (settle u t)) (if_pos hn)), hv, hfresh, hreg, hbyte, fun r hr hr' => (hrs r hr hr').trans (rs_narrowWritten h slot f.rd.toNat dst outs r), scalesWritten_read hlen⟩

end Sys2Proof.Machine
end

section
/-!
SUPPORT. AMAX (R678) and the cone's records (R688) of a quiet tile.
-/

namespace Sys2Proof.Machine

variable {s : State} {t : Nat} {f : FmtM}

section
variable (h : Quiet s t) (hw : waitMet s t f.wait = true) (hp : f.pred = 0) (hb : f.b = 0) (hc : f.c = 0)
include h hw hp hb hc

/-- AMAX reads its values where its window lies, and its slot may note the exponent. -/
theorem amax_writes {o : Nat} (hcnt : f.cnt = 0) (hm : f.mod.toNat < 64) (hfmt : wget (rs s t (s.actx t) f.rx.toNat) 35 32 < 3)
    (hv : wget (rs s t (s.actx t) f.rx.toNat) 35 32 = 2 → classOf t = 1)
    (ho : localWin s t (s.actx t) f.a.toNat 0 (fmtBytes (wget (rs s t (s.actx t) f.rx.toNat) 35 32) (wget (rs s t (s.actx t) f.rx.toNat) 31 0)) = .ok o) :
    let c := s.actx t
    let x := rs s t c f.rx.toNat
    let u := dispatched s t .ve (.amax t f)
    let e := amaxExp (unpackNums (wget x 35 32) (wget x 31 0) (ownRd u t o (fmtBytes (wget x 35 32) (wget x 31 0))))
    let z := setS u t c f.ry.toNat (.ofInt 64 (e.getD (-128)))
    exec (.amax t f) s = .next (settle (if bitOf f.mod.toNat 5 then slotUpdate z t c (f.mod.toNat % 32) e 0 0 else z) t) := by
  have hfp64 : (!pendingWrite (s.tile t) (s.actx t) [idS f.rx.toNat] && wget (rs s t (s.actx t) f.rx.toNat) 35 32 == 2 && classOf t != 1) = false := by
    by_cases h2 : wget (rs s t (s.actx t) f.rx.toNat) 35 32 = 2
    · simp [hv h2]
    · simp [h2]
  have hl : (f.pred == 0 && f.b == 0 && f.c == 0 && f.cnt == 0 && decide (f.mod.toNat < 64) &&
      !(!pendingWrite (s.tile t) (s.actx t) [idS f.rx.toNat] && wget (rs s t (s.actx t) f.rx.toNat) 35 32 == 2 && classOf t != 1)) = true := by
    rw [hfp64, hp, hb, hc, hcnt, decide_eq_true hm]
    rfl
  intro c x u e z
  rw [exec_amax, execAmax, issue_ve h _ rfl hl hw ((rangeOf_length ..).trans (by decide))]
  refine congrArg (fun u => Host.Outcome.next (settle u t)) ((if_neg (Nat.not_lt.mpr (Nat.le_of_lt_succ hfmt))).trans ?_)
  exact chk_of_ok ((localWin_lanes h ..).trans ho) ..

theorem cone_reads {o : Nat} (hv : classOf t = 1) (hm : bits f.mod.toNat 6 0 = 0) (hcnt : cntLegal f = true) (hy : rs s t (s.actx t) f.ry.toNat = 0)
    (ho : localWin s t (s.actx t) f.a.toNat 0 (80 * wget (rs s t (s.actx t) f.rx.toNat) 31 0) = .ok o) : let v := dispatched s t .ve (.cone t f)
    exec (.cone t f) s = .next (settle (addFlight v t { id := (s.tile t).nextId, eng := .ve, ctx := s.actx t, pc := issuePc s t, foot := {}, cnt := cntM f,
                                                         kind := .cone (ownRd v t o (80 * wget (rs s t (s.actx t) f.rx.toNat) 31 0)) }) t) := by
  have hl : (classOf t == 1 && f.pred == 0 && f.b == 0 && f.c == 0 && bits f.mod.toNat 6 0 == 0 && cntLegal f) = true := by
    rw [hv, hp, hb, hc, hm, hcnt]
    rfl
  intro v
  rw [exec_cone, execCone, issue_ve h _ rfl hl hw ((rangeOf_length ..).trans (by decide))]
  refine congrArg (fun u => Host.Outcome.next (settle u t)) ((if_neg (not_not_intro hy)).trans ?_)
  exact chk_of_ok ((localWin_lanes h ..).trans ho) ..

end

/-- The end of a CONE, whose cone is enabled or not. -/
theorem coneComplete_ends {f : Flight} {fs : List Flight} {bs : List Byte} (ht : s.tstate t ≠ fenced) (hf : (s.tile t).flights = f :: fs) (hk : f.kind = .cone bs) :
    let rs := (chunks 80 bs).map coneRec
    let u := dropFlight s t f.id
    exec (.coneComplete t) s = .next (settle (complete (if s.tf t (R.CONECFG_EN f.ctx) = 1 then (rs.filter fun r => r.kind == 3).foldl (fun s r => countRecord s t f.ctx rs r) u else u)
      t f.ctx f.cnt stOK .ve f.pc) t) := by
  rw [exec_coneComplete, execConeComplete, if_neg ht, hf, List.find?_cons_of_pos (by rw [hk])]
  dsimp only
  rw [hk]
  rfl

/-- Settles O25: AMAX and CONE by the window that they read, and the end of a CONE by whether its cone is enabled. -/
theorem maximaAndCones : Obligations.MaximaAndCones := by
  refine ⟨fun s t f h hw hp hb hc => ⟨fun hcnt hm hfmt hv o ho => amax_writes h hw hp hb hc hcnt hm hfmt hv ho, fun hv hm hcnt hy o ho => cone_reads h hw hp hb hc hv hm hcnt hy ho⟩,
    fun s t f fs bs ht hf hk => ⟨fun hen => ?_, fun hen => ?_⟩⟩
  · rw [coneComplete_ends ht hf hk, if_pos hen]
  · rw [coneComplete_ends ht hf hk, if_neg hen]

end Sys2Proof.Machine
end

section
/-!
SUPPORT. The set instructions (R397–R399, R684) of a quiet S-tile: their ranges and operands are as before the issue; what each of them writes; the table and the codes of SHASH; the sums of SSCATTER.
-/

namespace Sys2Proof.Machine

variable {s : State} {t c : Nat} {f : FmtM}

/-! ### Ranges -/

/-- A range that a set instruction reads, and one that it writes. -/
def readRange (s : State) (t c reg len : Nat) : Chk Machine.Range := match localWin s t c reg 0 len with | .ok o => .ok ⟨o, len, false⟩ | .error e => .error e
def writeRange (s : State) (t c reg len : Nat) : Chk Machine.Range := match dstWin s t c reg len with | .ok o => .ok ⟨o, len, true⟩ | .error e => .error e

theorem setRanges_sort (x y : Word) : setRanges .sort s t c f x y =
    (writeRange s t c f.a.toNat (2 * setKey f * x.toNat) >>= fun a => writeRange s t c f.b.toNat (2 * setKey f * x.toNat) >>= fun b => pure [a, b]) := rfl

theorem setRanges_merge (x y : Word) : setRanges .merge s t c f x y =
    (readRange s t c f.a.toNat (2 * setKey f * x.toNat) >>= fun a => readRange s t c f.b.toNat (2 * setKey f * y.toNat) >>= fun b =>
      writeRange s t c f.c.toNat (2 * setKey f * (x.toNat + y.toNat)) >>= fun o => pure [a, b, o]) := rfl

theorem setRanges_inter (x y : Word) : setRanges .inter s t c f x y =
    (readRange s t c f.a.toNat (setKey f * x.toNat) >>= fun a => readRange s t c f.b.toNat (setKey f * y.toNat) >>= fun b =>
      writeRange s t c f.c.toNat (8 + 16 * min x.toNat y.toNat) >>= fun o => pure [a, b, o]) := rfl

theorem setRanges_hash (x y : Word) : setRanges .hash s t c f x y =
    (writeRange s t c f.a.toNat (16 * 2 ^ hashK x) >>= fun a => readRange s t c f.b.toNat (16 * wget x 15 0) >>= fun b =>
      writeRange s t c f.c.toNat (16 * wget x 15 0) >>= fun o => pure [a, b, o]) := rfl

theorem setRanges_gather (x y : Word) : setRanges .gather s t c f x y =
    (readRange s t c f.a.toNat (4 * x.toNat) >>= fun a => writeRange s t c f.c.toNat (setKey f * x.toNat) >>= fun o => pure [a, o]) := rfl

theorem setRanges_scatter (x y : Word) : setRanges .scatter s t c f x y =
    (readRange s t c f.a.toNat (4 * x.toNat) >>= fun a => readRange s t c f.b.toNat (setKey f * x.toNat) >>= fun b => pure [a, b]) := rfl

theorem setRanges_few (op : SetKind) (x y : Word) : FewRanges (setRanges op s t c f x y) := by
  cases op with
  | sort => exact .bind fun _ => .bind fun _ => .ok (by decide : 2 ≤ 4)
  | merge => exact .bind fun _ => .bind fun _ => .bind fun _ => .ok (by decide : 3 ≤ 4)
  | inter => exact .bind fun _ => .bind fun _ => .bind fun _ => .ok (by decide : 3 ≤ 4)
  | hash => exact .bind fun _ => .bind fun _ => .bind fun _ => .ok (by decide : 3 ≤ 4)
  | gather => exact .bind fun _ => .bind fun _ => .ok (by decide : 2 ≤ 4)
  | scatter => exact .bind fun _ => .bind fun _ => .ok (by decide : 2 ≤ 4)

theorem bind_ok {α β : Type} {x : Chk α} {g : α → Chk β} {b : β} (h : (x >>= g) = .ok b) : ∃ a, x = .ok a ∧ g a = .ok b := by
  cases x with
  | error e => cases h
  | ok a => exact ⟨a, rfl, h⟩

theorem readRange_len {reg len : Nat} {r : Machine.Range} (h : readRange s t c reg len = .ok r) : r.len = len := by
  unfold readRange at h
  split at h
  · cases h; rfl
  · cases h

section
variable (x y : Word)

theorem readRange_issued (reg len : Nat) : readRange (issued s t) t c reg len = readRange s t c reg len := by simp only [readRange, localWin_issued]

theorem writeRange_issued (reg len : Nat) : writeRange (issued s t) t c reg len = writeRange s t c reg len := by
  have hd : dstWin (issued s t) t c reg len = dstWin s t c reg len := by simp only [dstWin, window_issued, localDst_issued]
  simp only [writeRange, hd]

theorem setRanges_issued (op : SetKind) : setRanges op (issued s t) t c f x y = setRanges op s t c f x y := by
  cases op with
  | sort => simp only [setRanges_sort, writeRange_issued]
  | merge => simp only [setRanges_merge, readRange_issued, writeRange_issued]
  | inter => simp only [setRanges_inter, readRange_issued, writeRange_issued]
  | hash => simp only [setRanges_hash, readRange_issued, writeRange_issued]
  | gather => simp only [setRanges_gather, readRange_issued, writeRange_issued]
  | scatter => simp only [setRanges_scatter, readRange_issued]

theorem tableRange_issued (k : Nat) (w : Bool) : tableRange (issued s t) t c k w = tableRange s t c k w := by simp only [tableRange, ra_issued]

theorem rangeBytes_issued (r : Machine.Range) : rangeBytes (issued s t) t r = rangeBytes s t r := ownRd_issued ..

theorem elemAt_issued (k esz i : Nat) : elemAt (issued s t) t c k esz i = elemAt s t c k esz i := window_issued ..

theorem gatherAt_issued (k esz i : Nat) : gatherAt (issued s t) t c k esz i = gatherAt s t c k esz i := by
  have hr : ∀ a len, reservedAt (issued s t) a len = reservedAt s a len := fun _ _ => rfl
  have hg : (issued s t).grade = s.grade := rfl
  simp only [gatherAt, elemAt_issued, localOffset_issued, hr, hg]

end

/-- The default of a range that is read does not show in its bytes. -/
theorem rangeBytes_getD (l : List Machine.Range) (i : Nat) : rangeBytes s t (l.getD i ⟨0, 0, true⟩) = rangeBytes s t (l.getD i ⟨0, 0, false⟩) := by
  rw [List.getD_eq_getElem?_getD, List.getD_eq_getElem?_getD]
  cases l[i]? <;> rfl

theorem length_rangeBytes (r : Machine.Range) : (rangeBytes s t r).length = r.len := (List.length_map ..).trans List.length_range

theorem length_tableRange (k : Nat) (w : Bool) : (tableRange s t c k w).length ≤ 1 := by
  unfold tableRange
  dsimp only
  split <;> simp

/-! ### Dispatch -/

/-- The SE works no lanes. -/
theorem dispatched_se (h : Quiet s t) (i : Instr) : dispatched s t .se i = issued s t := by rw [dispatched_eq h.gate, clockLanes_of (by decide)]

theorem setReq_ranges (op : SetKind) (i : Instr) : (setReq op s t f i).foot.ranges.length ≤ 31 := by
  have htab : ∀ k w, (tableRange s t (s.actx t) k w).length ≤ 1 := length_tableRange
  have hranges : (match (if setArgsOk op (rs s t (s.actx t) f.rx.toNat) (rs s t (s.actx t) f.ry.toNat) then
      setRanges op s t (s.actx t) f (rs s t (s.actx t) f.rx.toNat) (rs s t (s.actx t) f.ry.toNat) else .ok []) with | .ok l => l | .error _ => []).length ≤ 4 := by
    split
    next l h => exact FewRanges.ite (setRanges_few _ _ _) (.ok (l := []) (Nat.zero_le 4)) l h
    next => exact Nat.zero_le 4
  have htables : (match op with
    | .gather => tableRange s t (s.actx t) f.b.toNat false
    | .scatter => tableRange s t (s.actx t) f.c.toNat true
    | _ => []).length ≤ 1 := by
    cases op with
    | gather | scatter => exact htab ..
    | sort | merge | inter | hash => exact Nat.zero_le 1
  exact (List.length_append ..).trans_le ((Nat.add_le_add hranges htables).trans (by decide))

/-- What an operation does with its ranges. -/
def setGo (op : SetKind) (t : Nat) (f : FmtM) (q : Queued) (s : State) (l : List Machine.Range) : State :=
  match op with
  | .sort => goSort s t f q l
  | .merge => goMerge s t f q l
  | .inter => goInter s t f q l
  | .hash => goHash s t f q l
  | .gather => goGather s t f q l
  | .scatter => goScatter s t f q l

/-- A set instruction of a quiet S-tile whose operands and ranges pass their checks. -/
theorem set_goes (h : Quiet s t) (hc : classOf t = 2) (hw : waitMet s t f.wait = true) {op : SetKind} {i : Instr} {l : List Machine.Range}
    (he : exec i s = .next (issue s t (setReq op s t f i) (effSet op t f))) (hl : setLegal op f = true)
    (ha : setArgsOk op (rs s t (s.actx t) f.rx.toNat) (rs s t (s.actx t) f.ry.toNat) = true)
    (hr : setRanges op (dispatched s t .se i) t (s.actx t) f (rs s t (s.actx t) f.rx.toNat) (rs s t (s.actx t) f.ry.toNat) = .ok l) :
    exec i s = .next (settle (setGo op t f (queuedOf s t (setReq op s t f i)) (dispatched s t .se i) l) t) := by
  have hse : hasEngine t .se = true := by rw [hasEngine, hc]; rfl
  rw [he, issue_quiet h (effSet op t f) hl hse hw (setReq_ranges ..)]
  refine congrArg (fun u => Host.Outcome.next (settle u t)) ((if_neg ?_).trans (chk_of_ok hr ..))
  change ¬ (!setArgsOk op (rs s t (s.actx t) f.rx.toNat) (rs s t (s.actx t) f.ry.toNat)) = true
  rw [ha]
  decide

end Sys2Proof.Machine
end

section
/-!
SUPPORT. What the set instructions write (R397–R399): the table and the codes of SHASH, the values or sums of SSCATTER, and what is in flight of each.
-/

namespace Sys2Proof.Machine

variable {s : State} {t c : Nat} {f : FmtM}

/-! ### Bytes of numbers -/

theorem ofBytes_toBytes (n : Nat) : ∀ x, ofBytes (toBytes x n) = x % 256 ^ n := by
  induction n with
  | zero => intro x; exact (Nat.mod_one x).symm
  | succ n ih =>
    intro x
    have hpow : 256 ^ (n + 1) = 256 * 256 ^ n := by rw [Nat.pow_succ, Nat.mul_comm]
    rw [toBytes, ofBytes, ih, BitVec.toNat_ofNat, hpow]
    exact (Nat.mod_mul (x := x) (a := 256) (b := 256 ^ n)).symm

/-- A number of a front part of some bytes. -/
theorem numAt_append {a b : List Byte} {n i : Nat} (h : n * i + n ≤ a.length) : numAt (a ++ b) n i = numAt a n i := by
  have hd : n * i ≤ a.length := by omega
  have hl : n ≤ (a.drop (n * i)).length := by rw [List.length_drop]; omega
  rw [numAt, numAt, List.drop_append_of_le_length hd, List.take_append_of_le_length hl]

/-- The number that follows some bytes. -/
theorem numAt_next {a b : List Byte} {n i x : Nat} (h : a.length = n * i) : numAt (a ++ toBytes x n ++ b) n i = x % 256 ^ n := by
  rw [numAt, List.append_assoc, ← h, List.drop_left, List.take_left' (length_toBytes n x), ofBytes_toBytes]

/-! ### SHASH -/

theorem hashOne_keeps (mode k : Nat) (tab : List (Nat × Nat)) (key val : Nat) : (hashOne mode k tab key val).1 < 6 ∧ (hashOne mode k tab key val).2.2.length = tab.length := by
  unfold hashOne
  dsimp only
  split
  · exact ⟨by simp, rfl⟩
  · split
    · exact ⟨by dsimp only; split <;> simp, rfl⟩
    · split
      · split
        · exact ⟨by simp, rfl⟩
        · split
          · exact ⟨by simp, List.length_set⟩
          · exact ⟨by simp, rfl⟩
      · split
        · exact ⟨by simp, rfl⟩
        · exact ⟨by simp, List.length_set⟩

/-- One element of SHASH: its code and value follow those before it. -/
def hashStep (f : FmtM) (x : Word) (es : List Byte) (a : List Byte × List (Nat × Nat)) (i : Nat) : List Byte × List (Nat × Nat) :=
  let r := hashOne (bits f.mod.toNat 2 1) (hashK x) a.2 (numAt es 8 (2 * i) % 2 ^ (8 * setKey f)) (numAt es 8 (2 * i + 1))
  (a.1 ++ toBytes r.1 8 ++ toBytes r.2.1 8, r.2.2)

/-- After `n` elements: 16 bytes of each, a code at the front of each, and a table as long as before. -/
structure Hashed (m n : Nat) (a : List Byte × List (Nat × Nat)) : Prop where
  bytes : a.1.length = 16 * n
  codes : ∀ i, i < n → numAt a.1 8 (2 * i) < 6
  table : a.2.length = m

theorem hashStep_hashed {m n : Nat} {x : Word} {es : List Byte} {a : List Byte × List (Nat × Nat)} (h : Hashed m n a) : Hashed m (n + 1) (hashStep f x es a n) := by
  obtain ⟨hb, hcodes, htab⟩ := h
  obtain ⟨hcode, hlen⟩ := hashOne_keeps (bits f.mod.toNat 2 1) (hashK x) a.2 (numAt es 8 (2 * n) % 2 ^ (8 * setKey f)) (numAt es 8 (2 * n + 1))
  refine ⟨?_, fun i hi => ?_, hlen.trans htab⟩
  · simp only [hashStep, List.length_append, length_toBytes, hb]
    omega
  · rw [hashStep]
    dsimp only
    obtain hlt | rfl : i < n ∨ i = n := by omega
    · rw [List.append_assoc, numAt_append (by omega)]
      exact hcodes i hlt
    · rw [numAt_next (by omega)]
      exact (Nat.mod_le ..).trans_lt hcode

theorem hashSteps_hashed {m : Nat} (x : Word) (es : List Byte) {tab : List (Nat × Nat)} (h : tab.length = m) (n : Nat) : Hashed m n ((List.range n).foldl (hashStep f x es) ([], tab)) := by
  induction n with
  | zero => exact ⟨rfl, fun i hi => absurd hi (Nat.not_lt_zero i), h⟩
  | succ n ih =>
    rw [List.range_succ, List.foldl_append]
    exact hashStep_hashed ih

/-- The table that SHASH finds in its first range. -/
def tableOf (s : State) (t : Nat) (x : Word) (l : List Machine.Range) : List (Nat × Nat) :=
  (List.range (2 ^ hashK x)).map fun i => (numAt (rangeBytes s t (l.getD 0 ⟨0, 0, true⟩)) 8 (2 * i), numAt (rangeBytes s t (l.getD 0 ⟨0, 0, true⟩)) 8 (2 * i + 1))

/-- The codes, values and table after the elements of SHASH. -/
def hashOut (s : State) (t : Nat) (f : FmtM) (x : Word) (l : List Machine.Range) : List Byte × List (Nat × Nat) :=
  (List.range (wget x 15 0)).foldl (hashStep f x (rangeBytes s t (l.getD 1 ⟨0, 0, false⟩))) ([], tableOf s t x l)

theorem hashOut_hashed (x : Word) (l : List Machine.Range) : Hashed (2 ^ hashK x) (wget x 15 0) (hashOut s t f x l) :=
  hashSteps_hashed x _ ((List.length_map ..).trans List.length_range) _

/-- A table as it is written. -/
def tableBytes (tab : List (Nat × Nat)) : List Byte := (tab.map fun e => toBytes e.1 8 ++ toBytes e.2 8).flatten

theorem length_tableBytes (tab : List (Nat × Nat)) : (tableBytes tab).length = 16 * tab.length := by
  induction tab with
  | nil => rfl
  | cons e tab ih =>
    have hcons : tableBytes (e :: tab) = (toBytes e.1 8 ++ toBytes e.2 8) ++ tableBytes tab := rfl
    rw [hcons, List.length_append, List.length_append, length_toBytes, length_toBytes, ih, List.length_cons]
    omega

/-! ### SSCATTER -/

/-- What SSCATTER writes of an element at a place where `old` stood. -/
def scatterVal (f : FmtM) (ins : List Byte) (old i : Nat) : Nat :=
  if bitOf f.mod.toNat 1 then (old + numAt ins (setKey f) i) % 2 ^ (8 * setKey f) else numAt ins (setKey f) i

/-- One element of SSCATTER: it adds to what an earlier one left at its place. -/
def scatterStep (s : State) (t : Nat) (f : FmtM) (ins : List Byte) (m : List (Nat × Nat)) (e : Nat × Nat) : List (Nat × Nat) :=
  let old := ((m.find? fun x => x.1 == e.1).map (·.2)).getD (ofBytes (ownRd s t e.1 (setKey f)))
  (m.filter fun x => x.1 ≠ e.1) ++ [(e.1, scatterVal f ins old e.2)]

/-- Where every place is written once, each takes its value or its sum with what stood there. -/
theorem scatterSteps_nodup (ins : List Byte) (os : List Nat) : ∀ (n : Nat) (m : List (Nat × Nat)), os.Nodup → (∀ e ∈ m, e.1 ∉ os) →
    (os.zipIdx n).foldl (scatterStep s t f ins) m = m ++ (os.zipIdx n).map fun e => (e.1, scatterVal f ins (ofBytes (ownRd s t e.1 (setKey f))) e.2) := by
  induction os with
  | nil => intro n m _ _; simp
  | cons o os ih =>
    intro n m hnd hm
    obtain ⟨ho, hnd⟩ := List.nodup_cons.mp hnd
    have hne : ∀ e ∈ m, e.1 ≠ o := fun e he heq => hm e he (heq ▸ .head _)
    have hfind : m.find? (fun x => x.1 == o) = none := List.find?_eq_none.mpr fun e he => by simpa using hne e he
    have hfilter : m.filter (fun x => x.1 ≠ o) = m := List.filter_eq_self.mpr fun e he => by simpa using hne e he
    have hstep : scatterStep s t f ins m (o, n) = m ++ [(o, scatterVal f ins (ofBytes (ownRd s t o (setKey f))) n)] := by
      simp only [scatterStep, hfind, hfilter]
      rfl
    rw [List.zipIdx_cons, List.foldl_cons, hstep, ih (n + 1) _ hnd fun e he => ?_]
    · simp
    · rcases List.mem_append.mp he with he | he
      · exact fun hin => hm e he (.tail _ hin)
      · rw [List.mem_singleton.mp he]; exact ho

/-! ### What is in flight -/

section
variable {q : Queued} {l : List Machine.Range}

theorem goSort_issued : ∃ junk : List Byte, junk.length = (l.getD 1 ⟨0, 0, true⟩).len ∧ goSort (issued s t) t f q l = setFlight { issued s t with fresh := s.fresh + 1 } t f q l
    [((l.getD 1 ⟨0, 0, true⟩).lo, junk),
     ((l.getD 0 ⟨0, 0, true⟩).lo, (sortRecs (setKey f) (bitOf f.mod.toNat 1) (recsOf (setKey f) (rangeBytes s t (l.getD 0 ⟨0, 0, false⟩)))).flatten)] [] := by
  refine ⟨toBytes (issued s t).freeNat.1 (l.getD 1 ⟨0, 0, true⟩).len, length_toBytes .., ?_⟩
  have hbytes : ∀ r, rangeBytes (issued s t).freeNat.2 t r = rangeBytes s t r := rangeBytes_issued
  simp only [goSort, freeBytes, hbytes, rangeBytes_getD]
  rfl

theorem goMerge_issued : let k := setKey f
    let desc := bitOf f.mod.toNat 1
    let xs := recsOf k (rangeBytes s t (l.getD 0 ⟨0, 0, false⟩))
    let ys := recsOf k (rangeBytes s t (l.getD 1 ⟨0, 0, false⟩))
    let o := l.getD 2 ⟨0, 0, true⟩
    goMerge (issued s t) t f q l = if sortedRun desc (xs.map (keyOf k)) && sortedRun desc (ys.map (keyOf k)) then
        setFlight (issued s t) t f q l [(o.lo, (mergeRecs k desc (xs.length + ys.length) xs ys).flatten)] []
      else setFlight { issued s t with fresh := s.fresh + 1 } t f q l [(o.lo, toBytes (issued s t).freeNat.1 o.len)] [] := by
  simp only [goMerge, freeBytes, rangeBytes_issued]
  rfl

theorem goInter_issued : let xs := keysOf (setKey f) (rangeBytes s t (l.getD 0 ⟨0, 0, false⟩))
    let ys := keysOf (setKey f) (rangeBytes s t (l.getD 1 ⟨0, 0, false⟩))
    let o := l.getD 2 ⟨0, 0, true⟩
    let ms := interKeys (xs.length + ys.length) 0 xs 0 ys
    goInter (issued s t) t f q l = if sortedRun false xs && sortedRun false ys then
        setFlight (issued s t) t f q l [(o.lo, toBytes ms.length 8 ++ (ms.map fun m => toBytes m.1 8 ++ toBytes m.2.1 4 ++ toBytes m.2.2 4).flatten)] []
      else setFlight { issued s t with fresh := s.fresh + 1 } t f q l [(o.lo, toBytes (issued s t).freeNat.1 o.len)] [] := by
  simp only [goInter, freeBytes, rangeBytes_issued]
  rfl

theorem goHash_issued {x : Word} (hx : q.vals.getD 0 0 = x) : goHash (issued s t) t f q l = setFlight (issued s t) t f q l
    [((l.getD 0 ⟨0, 0, true⟩).lo, tableBytes (hashOut s t f x l).2), ((l.getD 2 ⟨0, 0, true⟩).lo, (hashOut s t f x l).1)] [] := by
  simp only [goHash, hx, rangeBytes_issued]
  rfl

/-- The elements of the tile's own scratchpad, which are read at once. -/
def gatherHere (s : State) (t k o : Nat) (es : List (Nat × Option Nat)) : List (Nat × List Byte) :=
  es.zipIdx.filterMap fun (e, i) => match e.2 with | some off => some (o + k * i, ownRd s t off k) | none => none

/-- The other elements, which are asked for. -/
def gatherAsked (k o : Nat) (es : List (Nat × Option Nat)) : List (Nat × Nat) :=
  es.zipIdx.filterMap fun (e, i) => match e.2 with | some _ => none | none => some (e.1, o + k * i)

theorem goGather_issued {n : Nat} {es : List (Nat × Option Nat)} (hn : (rangeBytes s t (l.getD 0 ⟨0, 0, false⟩)).length / 4 = n)
    (hes : chkAll (gatherAt s t q.ctx f.b.toNat (setKey f)) ((List.range n).map fun i => numAt (rangeBytes s t (l.getD 0 ⟨0, 0, false⟩)) 4 i) = .ok es) :
    goGather (issued s t) t f q l = setFlight (issued s t) t f q l (gatherHere s t (setKey f) (l.getD 1 ⟨0, 0, true⟩).lo es) (gatherAsked (setKey f) (l.getD 1 ⟨0, 0, true⟩).lo es) := by
  have hg : gatherAt (issued s t) t q.ctx f.b.toNat (setKey f) = gatherAt s t q.ctx f.b.toNat (setKey f) := funext fun i => gatherAt_issued ..
  simp only [goGather, rangeBytes_issued, hn, hg, ownRd_issued]
  exact chk_of_ok hes ..

/-- Where an element of SSCATTER goes. -/
def scatterPlace (s : State) (t c : Nat) (f : FmtM) (i : Nat) : Chk Nat := match elemAt s t c f.c.toNat (setKey f) i with | .ok a => localDst s t c a (setKey f) | .error e => .error e

theorem scatterPlace_issued (c i : Nat) : scatterPlace (issued s t) t c f i = scatterPlace s t c f i := by simp only [scatterPlace, elemAt_issued, localDst_issued]

theorem goScatter_issued {n : Nat} {os : List Nat} (hn : (rangeBytes s t (l.getD 0 ⟨0, 0, false⟩)).length / 4 = n)
    (hos : chkAll (scatterPlace s t q.ctx f) ((List.range n).map fun i => numAt (rangeBytes s t (l.getD 0 ⟨0, 0, false⟩)) 4 i) = .ok os) (hnd : os.Nodup) :
    goScatter (issued s t) t f q l = setFlight (issued s t) t f q (l ++ tableRange s t q.ctx f.c.toNat true)
      (os.zipIdx.map fun e => (e.1, toBytes (scatterVal f (rangeBytes s t (l.getD 1 ⟨0, 0, false⟩)) (ofBytes (ownRd s t e.1 (setKey f))) e.2) (setKey f))) [] := by
  have hplace : scatterPlace (issued s t) t q.ctx f = scatterPlace s t q.ctx f := funext fun i => scatterPlace_issued ..
  have hsteps := scatterSteps_nodup (s := s) (t := t) (f := f) (rangeBytes s t (l.getD 1 ⟨0, 0, false⟩)) os 0 [] hnd fun e he => absurd he List.not_mem_nil
  have hgo : goScatter (issued s t) t f q l = chk (issued s t) t q.pc
      (chkAll (scatterPlace (issued s t) t q.ctx f) ((List.range ((rangeBytes (issued s t) t (l.getD 0 ⟨0, 0, false⟩)).length / 4)).map fun i =>
        numAt (rangeBytes (issued s t) t (l.getD 0 ⟨0, 0, false⟩)) 4 i))
      fun os => setFlight (issued s t) t f q (l ++ tableRange (issued s t) t q.ctx f.c.toNat true)
        ((os.zipIdx.foldl (scatterStep (issued s t) t f (rangeBytes (issued s t) t (l.getD 1 ⟨0, 0, false⟩))) []).map fun e => (e.1, toBytes e.2 (setKey f))) [] := rfl
  have hstep : ∀ ins, scatterStep (issued s t) t f ins = scatterStep s t f ins := fun ins => by
    funext m e
    simp only [scatterStep, ownRd_issued]
  rw [hgo, hplace, rangeBytes_issued, rangeBytes_issued, hn, chk_of_ok hos, hstep, hsteps, tableRange_issued, List.nil_append, List.map_map]
  rfl

end

/-! ### The indices of SGATHER and SSCATTER -/

theorem gather_count {x y : Word} {l : List Machine.Range} (h : setRanges .gather s t c f x y = .ok l) : (rangeBytes s t (l.getD 0 ⟨0, 0, false⟩)).length / 4 = x.toNat := by
  rw [setRanges_gather] at h
  obtain ⟨a, ha, h⟩ := bind_ok h
  obtain ⟨o, -, h⟩ := bind_ok h
  cases h
  rw [length_rangeBytes, List.getD_cons_zero, readRange_len ha]
  omega

theorem scatter_count {x y : Word} {l : List Machine.Range} (h : setRanges .scatter s t c f x y = .ok l) : (rangeBytes s t (l.getD 0 ⟨0, 0, false⟩)).length / 4 = x.toNat := by
  rw [setRanges_scatter] at h
  obtain ⟨a, ha, h⟩ := bind_ok h
  obtain ⟨b, -, h⟩ := bind_ok h
  cases h
  rw [length_rangeBytes, List.getD_cons_zero, readRange_len ha]
  omega

/-! ### The end of an operation -/

theorem setOpComplete_ends {f : Flight} {fs : List Flight} {ws : List (Nat × List Byte)} {esz worst : Nat} (ht : s.tstate t ≠ fenced) (hf : (s.tile t).flights = f :: fs)
    (hk : f.kind = .setOp ws [] 0 esz worst) :
    exec (.setOpComplete t) s = .next (settle (complete (ws.foldl (fun s (w : Nat × List Byte) => ownWr s t w.1 w.2) (dropFlight s t f.id)) t f.ctx f.cnt worst .se f.pc) t) := by
  rw [exec_setOpComplete, execSetOpComplete, if_neg ht, hf, List.find?_cons_of_pos (by rw [hk])]
  dsimp only
  rw [hk]
  rfl

section
variable (h : Quiet s t) (hc : classOf t = 2) (hw : waitMet s t f.wait = true)
include h hc hw

/-- With its ranges found before its issue, an operation goes in the state that its issue leaves. -/
theorem set_goes_issued {op : SetKind} {i : Instr} {l : List Machine.Range} (he : exec i s = .next (issue s t (setReq op s t f i) (effSet op t f))) (hl : setLegal op f = true)
    (ha : setArgsOk op (rs s t (s.actx t) f.rx.toNat) (rs s t (s.actx t) f.ry.toNat) = true)
    (hr : setRanges op s t (s.actx t) f (rs s t (s.actx t) f.rx.toNat) (rs s t (s.actx t) f.ry.toNat) = .ok l) :
    exec i s = .next (settle (setGo op t f (queuedOf s t (setReq op s t f i)) (issued s t) l) t) := by
  have hd := dispatched_se h i
  have hgo := set_goes h hc hw he hl ha (by rw [hd, setRanges_issued]; exact hr)
  rwa [hd] at hgo

end

theorem not_both {a b : Bool} (h : a = false ∨ b = false) : ¬ (a && b) = true := by
  rcases h with rfl | rfl
  · rw [Bool.false_and]; decide
  · rw [Bool.and_false]; decide

/-- Settles O29: each instruction by what it does with its ranges, and the end by what is in flight. -/
theorem setOperations : Obligations.SetOperations := by
  refine ⟨fun s t f l h hc hw => ?flight, fun s t f l h hc hw => ?goes, fun s t f fs ws esz worst ht hf hk => setOpComplete_ends ht hf hk⟩
  case goes =>
    have hgo := fun (op : SetKind) (i : Instr) he => set_goes (op := op) (i := i) (l := l) h hc hw he
    exact ⟨hgo .sort _ (exec_ssort t f s), hgo .merge _ (exec_smerge t f s), hgo .inter _ (exec_sinter t f s), hgo .hash _ (exec_shash t f s), hgo .gather _ (exec_sgather t f s),
      hgo .scatter _ (exec_sscatter t f s)⟩
  case flight =>
    have hgo := fun (op : SetKind) (i : Instr) he => set_goes_issued (op := op) (i := i) (l := l) h hc hw he
    have hset := fun {u v : State} (e : u = v) => congrArg (fun u => (Host.Outcome.next (settle u t) : Host.Outcome State Fault Refusal)) e
    refine ⟨fun hl ha hr => ?sort, fun hl hr => ?merge, fun hl hr => ?inter, fun hl ha hr => ?hash, fun hl ha hr es hes => ?gather, fun hl ha hr os hos hnd => ?scatter⟩
    case sort =>
      obtain ⟨junk, hj, he⟩ := goSort_issued (s := s) (t := t) (f := f) (q := queuedOf s t (setReq .sort s t f (.ssort t f))) (l := l)
      exact ⟨junk, hj, (hgo .sort _ (exec_ssort t f s) hl ha hr).trans (hset he)⟩
    case merge =>
      have he := hgo .merge _ (exec_smerge t f s) hl rfl hr
      exact ⟨fun hx hy => he.trans (hset (Eq.trans goMerge_issued (if_pos (Bool.and_eq_true_iff.mpr ⟨hx, hy⟩)))),
        fun hno => ⟨_, length_toBytes .., he.trans (hset (Eq.trans goMerge_issued (if_neg (not_both hno))))⟩⟩
    case inter =>
      have he := hgo .inter _ (exec_sinter t f s) hl rfl hr
      exact ⟨fun hx hy => he.trans (hset (Eq.trans goInter_issued (if_pos (Bool.and_eq_true_iff.mpr ⟨hx, hy⟩)))),
        fun hno => ⟨_, length_toBytes .., he.trans (hset (Eq.trans goInter_issued (if_neg (not_both hno))))⟩⟩
    case hash =>
      obtain ⟨hb, hcodes, htab⟩ := hashOut_hashed (s := s) (t := t) (f := f) (rs s t (s.actx t) f.rx.toNat) l
      exact ⟨_, _, fun i hi => ⟨_, hcodes i hi, rfl⟩, (length_tableBytes _).trans (congrArg (16 * ·) htab), hb, (hgo .hash _ (exec_shash t f s) hl ha hr).trans (hset (goHash_issued rfl))⟩
    case gather => exact (hgo .gather _ (exec_sgather t f s) hl ha hr).trans (hset (goGather_issued (gather_count hr) hes))
    case scatter => exact (hgo .scatter _ (exec_sscatter t f s) hl ha hr).trans (hset (goScatter_issued (scatter_count hr) hos hnd))

end Sys2Proof.Machine
end
